-- ==== Sys2Proof/Word.lean ====
section
/-! DEFINITION. The byte the spec's DOMAIN objects, frames and memories are made of, and the list types
every layer shares. -/

namespace Sys2Proof

/-- One byte of a frame, a DOMAIN object or a memory (R16). -/
abbrev Byte := BitVec 8

/-- A sparse table: (key, entry) pairs with keys strictly rising. What an unlisted key reads as is
said where the table is read. -/
abbrev Tab (α : Type) := List (Nat × α)

end Sys2Proof
end

