-- ==== Sys2Proof/Syntax.lean ====
section
/-! DEFINITION. The commands of the block: what comes from outside, from the part's own timers, or from one
of its units, one constructor per row of spec/opcode_table.json, with the operands each carries. -/

namespace Sys2Proof

/-- A media die (R2). -/
inductive MDie where
  | a | b
deriving DecidableEq, Repr

/-- A die of the package (R2). -/
inductive PDie where
  | a | b | c
deriving DecidableEq, Repr

/-- The die field of an object address: a die's own objects, or the package's (R23). -/
inductive Die where
  | a | b | c | p
deriving DecidableEq, Repr

/-- A media die as a die of the package. -/
def MDie.pdie : MDie → PDie
  | .a => .a
  | .b => .b

/-- A media die as the die field of an address. -/
def MDie.die : MDie → Die
  | .a => .a
  | .b => .b

/-- The other media die. -/
def MDie.other : MDie → MDie
  | .a => .b
  | .b => .a

/-- The number of a media die: 0 for A, 1 for B. -/
def MDie.num : MDie → Nat
  | .a => 0
  | .b => 1

/-- A die of the package as the die field of an address. -/
def PDie.die : PDie → Die
  | .a => .a
  | .b => .b
  | .c => .c

/-- The DIE field of an event record (R86). -/
def PDie.num : PDie → Nat
  | .a => 0
  | .b => 1
  | .c => 2

/-- The media die a die field names, if it names one. -/
def Die.mdie? : Die → Option MDie
  | .a => some .a
  | .b => some .b
  | _ => none

/-- The number of a die field, for ordering addresses. -/
def Die.num : Die → Nat
  | .a => 0
  | .b => 1
  | .c => 2
  | .p => 3

/-- An object address `die.index.subindex[instance]` (R23). -/
structure ObjAddr where
  die : Die
  index : Nat
  sub : Nat
  inst : Nat
deriving DecidableEq, Repr

/-- The value of an object: a number, or the bytes of a STRING or DOMAIN (R24). -/
inductive ObjVal where
  | num (v : Int)
  | bytes (b : List Byte)
deriving DecidableEq, Repr

/-- What an Announce message says of its grandmaster (R60, R61, R63). -/
structure Announce where
  identity : Nat
  priority1 : Nat
  clockClass : Nat
  accuracy : Nat
  variance : Nat
  priority2 : Nat
  steps : Nat
  /-- seconds of the grandmaster's time -/
  secs : Nat
deriving DecidableEq, Repr

/-- Header of a received PTP message: its domain, and whether it uses only options of R60's table. -/
structure PtpHeader where
  domain : Nat
  supported : Bool
  /-- clockIdentity of the grandmaster the sender follows -/
  gm : Nat
  seq : Nat
deriving DecidableEq, Repr

/-- What identification reads from a module (R111, R114). -/
structure ModuleInfo where
  /-- CMIS revision, major × 16 + minor -/
  revision : Nat
  identifier : Nat
  mediaType : Nat
  vendor : List Byte
  oui : List Byte
  part : List Byte
  rev : List Byte
  serial : List Byte
  date : List Byte
  /-- MaxPower in 0.25 W -/
  maxPower : Nat
  /-- an application descriptor matches the port's quad mode -/
  appMatches : Bool
  /-- the module advertises fixed input equalization, and output pre-cursor, post-cursor and amplitude targets (page 01h) -/
  hasInEq : Bool
  hasPre : Bool
  hasPost : Bool
  hasAmp : Bool
  /-- lanes with a laser bias monitor -/
  biasLanes : Nat
deriving DecidableEq, Repr

/-- The level of a PAM4 symbol, relative to full swing: −1, −1/3, +1/3, +1 (R96). -/
inductive PamLevel where
  | neg1 | negThird | posThird | pos1
deriving DecidableEq, Repr

/-- What a lane's pattern checker sees: the levels received, and the phase of the pattern they are compared from (R107). -/
structure CheckerInput where
  lane : Fin 32
  phase : Nat
  rx : List PamLevel
deriving DecidableEq, Repr

/-- A destination whose source is judged, and what the package of a source over Twill says of it: 0, or cause 1 to 4 (R164). -/
structure LossReport where
  dst : Fin 256
  remote : Fin 5
deriving DecidableEq, Repr

/-- A picture position: luma and the two colour differences, or R, G and B; a position without chroma samples
carries 0 for them. -/
structure Pix where
  c0 : Nat
  c1 : Nat
  c2 : Nat
deriving DecidableEq, Repr

/-- Samples of one sample row data header: row of the active picture (both fields of a frame interleaved), first
column, samples in order (R124, R133). -/
structure Seg where
  row : Nat
  col : Nat
  pix : List Pix
deriving DecidableEq, Repr

/-- An RTP packet of a flow: header fields and the payload of its KIND (R123). -/
structure Rtp where
  pt : Nat
  ssrc : Nat
  seq : Nat
  ts : Nat
  marker : Bool
  /-- KIND 1 -/
  segs : List Seg
  /-- KIND 2 and 3: one list of channel samples per sample time -/
  audio : List (List Int)
  /-- KIND 4 to 7 -/
  data : List Byte
  /-- KIND 1: upper 16 bits of the extended sequence number -/
  ext : Nat := 0
deriving DecidableEq, Repr

/-- A UDP datagram with its IPv4 and VLAN fields (R122, R126). -/
structure Udp where
  /-- VID, or 0xFFFF untagged -/
  vlan : Nat
  src : Nat
  dst : Nat
  port : Nat
  /-- UDP payload bytes -/
  size : Nat
  /-- no options, no fragment, header checksum good, UDP checksum zero or good -/
  clean : Bool
  rtp : Rtp
deriving DecidableEq, Repr

/-- What a received Ethernet frame carries (R120, R121). -/
inductive Body where
  | pause
  | ipv6
  | arpRequest (target senderIp senderMac : Nat)
  | arpReply (senderIp senderMac : Nat)
  | icmpEcho (dst src srcMac : Nat)
  | igmpQuery
  | ptp
  | udp (u : Udp)
  | other
deriving DecidableEq, Repr

/-- A received Ethernet frame: its length from destination address to FCS, and whether its FCS is good and the PCS
did not mark it corrupt (R120). -/
structure Frame where
  len : Nat
  good : Bool
  body : Body
deriving DecidableEq, Repr

/-- A hop of a Twill path: the sending end's device, die and quad; quad 0xFF stands for the bridge edge of a
package, `die` then the die it leaves (R428, R438). -/
structure TwlHop where
  id : Nat
  die : Nat
  quad : Nat
deriving DecidableEq, Repr

/-- A link record of the fabric's topology (R424, R438), with the cost at its sending end (R428). -/
structure TwlRec where
  id : Nat
  die : Nat
  quad : Nat
  rid : Nat
  rdie : Nat
  rquad : Nat
  /-- TWL.LINK.STATE -/
  state : Nat
  delay : Nat
  out : Nat
  in_ : Nat
  cost : Nat
deriving DecidableEq, Repr

/-- A package as its HELLO and LINK STATE messages describe it (R424, R425). -/
structure TwlPkg where
  serial : Nat
  id : Nat
  pref : Nat
  fw : Nat
  ref : Nat
deriving DecidableEq, Repr

/-- What a source's package tells of it (R150, R151): its producer's section is on, its attributes and offset, AUD.BANK.RATE of the
bank of each router input channel that belongs to it. -/
structure TwlSrc where
  on : Bool
  format : Nat
  ofs : Nat
  sampling : Nat
  depth : Nat
  color : Nat
  tcs : Nat
  range : Nat
  rates : List Nat
deriving DecidableEq, Repr

/-- Body of a control message (R423). A receive channel is named by the die and number at its receive end; the
source by die and port member. -/
inductive TwlBody where
  | hello (p : TwlPkg) (die quad state : Nat)
  | linkState (p : TwlPkg) (recs : List TwlRec)
  | idAssign (serial id : Nat)
  | alloc (rxDie rx srcDie port : Nat) (path : List TwlHop)
  | allocAck (rxDie rx slot : Nat) (src : TwlSrc)
  /-- `taps`: the source has no read tap left -/
  | allocNack (rxDie rx : Nat) (at_ : TwlHop) (taps : Bool)
  | free (rxDie rx : Nat) (path : List TwlHop)
  | sync (secs ns state hops : Nat)
  | delayReq (t : Nat)
  | delayResp (t turnaround : Nat)
  | mailbox (data : List Byte)
deriving DecidableEq, Repr

/-- A control message (R423). -/
structure TwlMsg where
  src : Nat
  dst : Nat
  hops : Nat
  gen : Nat
  body : TwlBody
deriving DecidableEq, Repr

/-- A media flit (R422): slot, content kind, sequence number, payload. -/
structure TwlFlit where
  slot : Nat
  content : Nat
  seq : Nat
  data : List Byte
deriving DecidableEq, Repr

/-- A CTU as the pixel engine formed it: charge (R280, in 1/256 bit) and bins of its normal coding, then those of its
Scrim coding. -/
structure Ctu where
  charge : Nat
  bins : Nat
  scrimCharge : Nat
  scrimBins : Nat
deriving DecidableEq, Repr

/-- What an activated SPS signals (R312, R317): profile (0 Main, 1 Main 10, 2 Main 4:2:2 10, other outside R311),
profile_idc, level × 10 and level_idc, cropped luma size, bit depth, chroma (0 4:2:0, 1 4:2:2, other), picture buffers (minus 1,
as coded), field_seq_flag, reorder and latency limits of bumping. -/
structure Sps where
  profile : Nat
  profileIdc : Nat
  level : Nat
  levelIdc : Nat
  width : Nat
  height : Nat
  depth : Nat
  chroma : Nat
  buffers : Nat
  fieldSeq : Bool
  reorder : Nat
  latency : Nat
deriving DecidableEq, Repr

/-- What the decode engine finds in an access unit by the codec standard (R311, R317, R319–R323). -/
structure AuInfo where
  /-- 0 none, 1 IDR, 2 CRA -/
  irap : Nat
  /-- RASL picture -/
  rasl : Bool
  /-- the SPS it activates, where its parameter sets are present -/
  sps : Option Sps
  /-- NAL units discarded under R321 -/
  badNals : Nat
  /-- picture order count, of the picture, of the pictures it predicts from, of those kept after it -/
  poc : Int
  refs : List Int
  keep : List Int
  /-- pic_output_flag -/
  output : Bool
  /-- 0 frame, 1 top, 2 bottom field -/
  parity : Nat
  /-- chroma_sample_loc_type, 255 without VUI -/
  chromaLoc : Nat
  /-- colorimetry, TCS and range the VUI signals, in the codes of R127 -/
  vui : Option (Nat × Nat × Nat)
  /-- CTUs replaced under R321: row, column, height, width in luma samples, reason of event 0x2403 -/
  lost : List (Nat × Nat × Nat × Nat × Nat)
  /-- decoded samples, row by row -/
  rows : List (List Pix)
deriving DecidableEq, Repr

/-- A compare record (R405). -/
structure CmpRec where
  err : Bool
  flow : Nat
  seq : Nat
  crc : Nat
  len : Nat
  ts : Nat
deriving DecidableEq, Repr

/-- A decision record (R404, R405). -/
structure Decision where
  kind : Nat
  res : Nat
  frame : Nat
  arg1 : Nat
  arg2 : Nat
deriving DecidableEq, Repr

/-- What a writer pushes into a queue (R393): packet `k` of `np` of a video flow's frame or field with its sample rows (row,
column, samples); the ancillary packet of a flow's frame; bytes of syntax records into a channel's Bolt buffer. -/
inductive Push where
  | video (flow : Fin 4096) (k np : Nat) (rows : List (Nat × Nat × Nat))
  | anc (flow : Fin 4096)
  | bolt (ch : Fin 48) (bytes : Nat)
deriving DecidableEq, Repr

/-- What a reader pops from a queue (R393): a cell of a network queue, with how many of its words fail their parity; bytes of a channel's
Bolt buffer; the oldest frame of an audio port's input or output FIFO, with the words of it that fail. -/
inductive Pop where
  | cell (queue : Fin 4096) (bad : Nat)
  | audio (port : Fin 16) (input : Bool) (bad : List Nat)
  | bolt (ch : Fin 48) (bytes : Nat)
deriving DecidableEq, Repr

/-- What a DRAM piece is read for (R362): the block whose chapter says what a poisoned word does (R159, R203, R240, R266, R320). -/
inductive MemUse where
  | other
  /-- samples of a line of the frame shown -/
  | fsy (n : Fin 32) (row col samples : Nat)
  /-- samples of a surface layer, or of the Felt surface for layer 0xFF, by their place in the compositor's active picture -/
  | surface (cmp : Fin 8) (layer row col samples : Nat)
  | encSource (ch : Fin 48)
  | encRef (ch : Fin 48)
  | borrower (conv : Fin 4)
  | decoder (ctx : Fin 4)
deriving DecidableEq, Repr

/-- A request at the DRAM ports (R359): port, master and ID it came from, die address and length in bytes, data of a write with
the numbers of its poisoned 32-bit words. -/
structure MemReq where
  port : Fin 25
  master : Nat
  id : Nat
  write : Bool
  addr : Nat
  len : Nat
  data : List Byte
  poison : List Nat
  use : MemUse
deriving DecidableEq, Repr

/-- A bus transaction (R386): 8-bit ID, bus address, length, data of a write with its poisoned words, what it is for, the section
of the register it addresses where its target spans several (R383), and the cycles it waited for its target (R385). -/
structure BusOp where
  id : Nat
  write : Bool
  addr : Nat
  len : Nat
  data : List Byte
  poison : List Nat
  use : MemUse
  sec : Nat
  waited : Nat
deriving DecidableEq, Repr

/-- What BOOT or a return finds on a media die (R47, R371, R475, R478): whether its UCIe link trained, the sections that failed their
self-test with the elements that failed, the smallest eye in ps of each channel with a working setting, the failing step of the
other fitted channels, the cages with a module present. -/
structure DieBoot where
  link : Bool
  fails : List (Nat × List Nat)
  eyes : Tab Nat
  steps : Tab Nat
  modules : List Nat
deriving DecidableEq, Repr

/-- What BOOT finds (R475–R478): whether each firmware slot verifies, the persistent slots whose CRC fails, and the media dies. -/
structure BootRun where
  slot0 : Bool
  slot1 : Bool
  bad : List ObjAddr
  a : DieBoot
  b : DieBoot
deriving DecidableEq, Repr

/-- Header and tag of a VOL request (R452–R454): its port (0 and 1 field network, 2 SPI), the sender's IPv4 address and UDP port,
SESSION, SEQ, BOOT, FLAGS bit 0, and the tag of an authenticated frame. -/
structure VolHdr where
  port : Fin 3
  ip : Nat
  udp : Nat
  session : Nat
  seq : Nat
  boot : Nat
  auth : Bool
  tag : List Byte
deriving DecidableEq, Repr

/-- An item of a request (R456): die byte, index, subindex, instance, instance count, and the value of a write. -/
structure VolItem where
  die : Nat
  index : Nat
  sub : Nat
  inst : Nat
  count : Nat
  value : List Byte
deriving DecidableEq, Repr

/-- A frame at a field network port (R452): an ARP request for an address and an ICMP echo request to one, with the sender's MAC
address, a PTP message, a VOL datagram and whether its frame is well formed, a fragment, anything else. -/
inductive FieldFrame where
  | arp (target mac : Nat)
  | echo (dst mac : Nat)
  | ptp
  | vol (wellFormed : Bool)
  | fragment
  | other
deriving DecidableEq, Repr

/-- An instruction shifted into the TAP of Die C (R467). -/
inductive TapInstr where
  | idcode | bypass | debug
deriving DecidableEq, Repr

/-- The commands, one constructor per row of the table of operations and events. -/
inductive Instr where
  /-- SEQUENCE_FAULT: The always-on sequence monitor finds a group 3 or 4 rail above 50 % while a group 1 or 2 rail is below range, records the fault in MRAM and holds every section except AO and C_AO off. (R40) -/
  | sequenceFault (d : PDie) (rail : Nat)
  /-- PORST_ASSERT: C_SYS00_PORST_N held low resets Dies A, B and C including AO sections, and ends a sequence fault hold when all rails are in range. (R53) -/
  | porstAssert (inRange : Bool)
  /-- PORST_RELEASE: The rising edge of C_SYS00_PORST_N samples the straps and starts BOOT. (R474) -/
  | porstRelease (straps : Fin 8)
  /-- WRST_ASSERT: C_SYS00_WRST_N low resets all dies except AO and C_AO, keeps MRAM and AO records, and leads to BOOT. (R53) -/
  | wrstAssert
  /-- RAIL_WARNING_CROSSING: A rail monitor confirms a downward crossing of the warning level after 100 ns of samples below it and clears the rail's PWR.STATUS bit. (R41) -/
  | railWarningCrossing (d : PDie) (rail first mv : Nat)
  /-- RAIL_RECOVERY: A rail recovers after 100 ns at or above warning plus 15 mV; the die raises event 0x1101, sets PWR.STICKY, records the dip minimum and schedules a scrub pass and eye check or an MRAM read-verify. (R42) -/
  | railRecovery (d : PDie) (rail last mv volt : Nat)
  /-- BROWNOUT_EVENT_RECEIVED: Die C receives event 0x1101 and increments PWR.RAIL.BROWNOUT.COUNT and PWR.BROWNOUT.COUNT in MRAM. (R42) -/
  | brownoutEventReceived (d : PDie)
  /-- RAIL_RESET_CROSSING: A rail crosses its reset level downward; the owning die resets with the scope of the reset table and its AO records the rail and lowest voltage. (R43) -/
  | railResetCrossing (d : PDie) (rail mv : Nat)
  /-- MEDIA_DIE_RETURN: A media die returns from a reset alone: Die C has re-run self-test and training, sets its objects as at BOOT, raises 0x1120 (and 0x1102 for a rail reset) and increments RST.COUNT. (R53) -/
  | mediaDieReturn (d : MDie) (b : DieBoot)
  /-- SECTION_WAKE: Die C wakes a section, one at a time in ascending section number. (R47) -/
  | sectionWake (d : MDie)
  /-- SECTION_POWER_GOOD: A waking section reports power-good and reaches the on state. (R47) -/
  | sectionPowerGood (d : MDie) (sec : Nat)
  /-- SECTION_WAKE_TIMEOUT: A section without power-good after 100 µs goes to failed, is turned off, and Die C raises event 0x1104. (R47) -/
  | sectionWakeTimeout (d : MDie) (sec : Nat)
  /-- THERMAL_SAMPLE: Each junction sensor is sampled every 1 ms and THERM.TJ is updated from the working sensors. (R48) -/
  | thermalSample (d : PDie) (readings : List (Int × Bool))
  /-- DIE_C_THERMAL_RESTART: C_AO restarts Die C automatically once its THERM.TJ is below 95.0 °C after a thermal shutdown. (R50) -/
  | dieCThermalRestart
  /-- DIE_C_WATCHDOG_EXPIRY: Two seconds without firmware service reset Die C alone while the media dies keep running in holdover. (R53) -/
  | dieCWatchdogExpiry
  /-- RST_REQUEST_RESTART: RST.REQUEST = 1 on die A or B restarts a die shut down under R50 when THERM.TJ is below 95.0 °C, otherwise the access error. (R57) -/
  | rstRequestRestart (d : MDie)
  /-- RST_REQUEST_DIE_RESET: RST.REQUEST = 2 resets that media die with RST.CAUSE 5. (R53) -/
  | rstRequestDieReset (d : MDie)
  /-- RST_REQUEST_WARM_PACKAGE: RST.REQUEST = 3 at die P performs a warm reset of the package as C_SYS00_WRST_N does. (R53) -/
  | rstRequestWarmPackage
  /-- PTP_SYNC_RECEIVED: The servo measures its offset from the grandmaster on a received Sync message and moves between ACQUIRING, SLEWING and LOCKED. (R61) -/
  | ptpSyncReceived (port : Fin 8) (h : PtpHeader) (rx : Nat) (origin : Option Nat)
  /-- PTP_ANNOUNCE_RECEIVED: An Announce message feeds BMCA, which may select, change or drop the grandmaster, with excluded grandmasters counted under R63. (R61) -/
  | ptpAnnounceReceived (port : Fin 8) (h : PtpHeader) (a : Announce) (tlv : Option (List Byte))
  /-- SYNC_LOSS_TIMEOUT: No Sync for 4 sync intervals loses the grandmaster, moving the servo to HOLDOVER or FREERUN with event 0x1202. (R61) -/
  | syncLossTimeout
  /-- ANNOUNCE_RECEIPT_TIMEOUT: The grandmaster's announce receipt timeout expires and the grandmaster is lost. (R61) -/
  | announceReceiptTimeout
  /-- TIME_STEP_REQUEST: A write of 1 to TIME.STEP.REQUEST in STEP-PENDING steps the time base; in any other state it is rejected. (R62) -/
  | timeStepRequest
  /-- MEDIA_DIE_STEERING: Die C steers each media-die time counter over UCIe every 125 µs, raising 0x120A if a counter stays beyond 2 ns. (R59) -/
  | mediaDieSteering (d : MDie) (err : Int)
  /-- F10M_EDGE_TIMEOUT: 400 ns without an edge on C_TIM00_F10M loses the 10 MHz input with event 0x1207 and frequency fallback. (R67) -/
  | f10mEdgeTimeout
  /-- F10M_MEASUREMENT: Each one-second frequency measurement qualifies the 10 MHz input or loses it when outside ±50 ppm. (R67) -/
  | f10mMeasurement (within complete : Bool)
  /-- PPS_EDGE: A rising edge on C_TIM00_PPSI is timestamped, counts toward qualification, and is compared with the time base or drives the servo. (R68) -/
  | ppsEdge (t : Nat)
  /-- PPS_LOSS_TIMEOUT: 1.1 s without a 1PPS edge loses the input with event 0x1208, and with TIME.SOURCE 2 loses the grandmaster. (R68) -/
  | ppsLossTimeout
  /-- TIME_PPS_SECONDS_SET: A write of TIME.PPS.SECONDS.SET gives the PTP seconds of the next qualified 1PPS edge, accepted only with TIME.SOURCE 2. (R68) -/
  | timePpsSecondsSet (v : Nat)
  /-- PPS_OUTPUT_SECOND: C_TIM00_PPSO rises at each whole second of the time base for 100 ms when the servo state allows. (R69) -/
  | ppsOutputSecond
  /-- TIME_CUE_ENTRY_WRITE: A write of a cue entry puts it in LOADED or EMPTY, rejected in ARMED and DISPATCHED. (R80) -/
  | timeCueEntryWrite (d : MDie) (k : Fin 1024) (b : List Byte)
  /-- TIME_CUE_ARM: TIME.CUE.ARM = 1 arms a LOADED entry, handling a past cue under R83, otherwise NO_EFFECT. (R80) -/
  | timeCueArm (d : MDie) (k : Fin 1024)
  /-- TIME_CUE_DISARM: TIME.CUE.ARM = 2 returns an ARMED entry to LOADED, otherwise NO_EFFECT. (R80) -/
  | timeCueDisarm (d : MDie) (k : Fin 1024)
  /-- TIME_CUE_GROUP_ARM: A write of TIME.CUE.GROUP.ARM arms every LOADED entry of the group. (R80) -/
  | timeCueGroupArm (d : MDie) (g : Fin 256)
  /-- TIME_CUE_GROUP_DISARM: A write of TIME.CUE.GROUP.DISARM returns every ARMED entry of the group to LOADED. (R80) -/
  | timeCueGroupDisarm (d : MDie) (g : Fin 256)
  /-- CUE_DISPATCH: The cue engine dispatches an ARMED entry to its target 20 µs before its instant, or at once, one per 16 core clocks. (R81) -/
  | cueDispatch (d : MDie)
  /-- CUE_COMMIT: A COMMIT cue sets the target's commit bit at its coordinate. (R78) -/
  | cueCommit (d : MDie) (k : Fin 1024)
  /-- CUE_KEY_PICTURE: A KEY_PICTURE cue requests an IRAP picture on an encode channel. (R78) -/
  | cueKeyPicture (d : MDie) (k : Fin 1024)
  /-- CUE_AUDIO_START: An AUDIO_START cue triggers the common start of the armed audio ports of a start group. (R78) -/
  | cueAudioStart (d : MDie) (k : Fin 1024)
  /-- CUE_FLOW_START: A FLOW_START cue starts an egress flow at its switch line. (R78) -/
  | cueFlowStart (d : MDie) (k : Fin 1024)
  /-- CUE_FLOW_STOP: A FLOW_STOP cue stops an egress flow at its switch line. (R78) -/
  | cueFlowStop (d : MDie) (k : Fin 1024)
  /-- CUE_CHANNEL_START: A CHANNEL_START cue starts an encode channel. (R78) -/
  | cueChannelStart (d : MDie) (k : Fin 1024)
  /-- CUE_CHANNEL_STOP: A CHANNEL_STOP cue stops an encode channel. (R78) -/
  | cueChannelStop (d : MDie) (k : Fin 1024)
  /-- CUE_FORMAT_APPLY: A FORMAT_APPLY cue applies the pending timing format of an output. (R78) -/
  | cueFormatApply (d : MDie) (k : Fin 1024)
  /-- CUE_MARKER: The cue engine executes a MARKER cue at its instant and raises event 0x1212. (R81) -/
  | cueMarker (d : MDie) (k : Fin 1024)
  /-- CUE_ARM_GROUP: The cue engine executes an ARM_GROUP cue, arming LOADED entries of the group that follow it. (R82) -/
  | cueArmGroup (d : MDie) (k : Fin 1024)
  /-- CUE_DISARM_GROUP: The cue engine executes a DISARM_GROUP cue, disarming ARMED entries of the group that follow it. (R82) -/
  | cueDisarmGroup (d : MDie) (k : Fin 1024)
  /-- EVENT_RECORD_ARRIVAL: A record reaches Die C's arbiter, which assigns the next GSEQ and logs it. (R87) -/
  | eventRecordArrival (d : MDie)
  /-- OVERFLOW_MARKER_EMIT: When space returns in a full arbiter buffer, the arbiter emits one overflow marker event 0x3F01. (R89) -/
  | overflowMarkerEmit (d : MDie)
  /-- QUAD_PLL_LOCK_LOSS: A quad PLL loses lock; every lane of the quad goes down with event 0x1304. (R99) -/
  | quadPllLockLoss (d : MDie) (quad : Fin 8)
  /-- QUAD_PLL_RELOCK: The quad PLL relocks within 2 ms without intervention. (R99) -/
  | quadPllRelock (d : MDie) (quad : Fin 8)
  /-- PORT_UP: Every lane of a port has CDR lock and the port holds alignment-marker lock; event 0x1301. (R99) -/
  | portUp (d : MDie) (first : Fin 32)
  /-- PORT_DOWN: CDR lock or alignment lock fails and the port goes down with event 0x1302 and the cause. (R99) -/
  | portDown (d : MDie) (lane : Fin 32) (cause : Nat)
  /-- FEC_DEGRADE_CHECK: Each second the die compares each lane's corrected symbols with LANE.FEC.DEGRADE, raising 0x1303 or clearing the status bit. (R99) -/
  | fecDegradeCheck (d : MDie) (lane : Fin 32) (symbols corrected uncorrected : Nat)
  /-- LANE_STATE_REQUEST: A write of LANE.STATE.REQUEST on a port's first lane moves all its lanes, held if a transition runs. (R105) -/
  | laneStateRequest (d : MDie) (lane : Fin 32) (req : Fin 3)
  /-- LANE_TRANSITION_COMPLETE: A lane completes its state transition and acts on the latest held request. (R104) -/
  | laneTransitionComplete (d : MDie) (lane : Fin 32)
  /-- CDR_FREEZE: After 1 µs without a symbol transition the CDR freezes its integrator and sets LANE.STATUS bit 3. (R106) -/
  | cdrFreeze (d : MDie) (lane : Fin 32)
  /-- CDR_REACQUIRE: On the next transition the CDR re-acquires phase within 100 ns and releases the integrator. (R106) -/
  | cdrReacquire (d : MDie) (lane : Fin 32) (symbols : Nat)
  /-- PATTERN_CHECKER_LOCK: The checker locks after 64 consecutive correct symbols and starts counting bits and errors. (R107) -/
  | patternCheckerLock (d : MDie) (x : CheckerInput)
  /-- PATTERN_CHECKER_LOSS: After 64 consecutive wrong symbols the checker loses lock and sets LANE.STICKY bit 5. (R107) -/
  | patternCheckerLoss (d : MDie) (lane : Fin 32) (phase : Nat) (rx : List PamLevel)
  /-- LANE_EQ_TABLE_WRITE: A write of LANE.EQ.TABLE is checked as a whole and accepted or rejected with event 0x1330. (R102) -/
  | laneEqTableWrite (t : List Byte)
  /-- MODULE_INSERTED: _PRS_N stays low for 50 ms: event 0x1310, CAGE.COUNT incremented and _RST_N released. (R112) -/
  | moduleInserted (d : MDie) (cage : Fin 8)
  /-- MODULE_STATE_POLL: The module state is polled every 10 ms until ModuleLowPwr, then identification, class and row selection follow. (R112) -/
  | moduleStatePoll (d : MDie) (cage : Fin 8) (lowPwr : Bool) (info : ModuleInfo)
  /-- MODULE_READY_TIMEOUT: No ModuleLowPwr within 2,000 ms raises event 0x1315 and the cage waits for re-insertion. (R112) -/
  | moduleReadyTimeout (d : MDie) (cage : Fin 8) (st : Nat)
  /-- MODULE_READY: The module reaches ModuleReady and the data path is configured and applied. (R112) -/
  | moduleReady (d : MDie) (cage : Fin 8)
  /-- DATAPATH_ACTIVATED: The module reports DataPathActivated and the host lanes leave deep. (R112) -/
  | datapathActivated (d : MDie) (cage : Fin 8)
  /-- MODULE_REMOVED: _PRS_N high for 1 ms: sequence abandoned, lanes deep, ports down with cause 3, _RST_N low, event 0x1311, wear record written. (R112) -/
  | moduleRemoved (d : MDie) (cage : Fin 8)
  /-- MODULE_INTERRUPT: After _INT_N the latched flags are read and event 0x1316 is raised for each non-zero flag byte. (R113) -/
  | moduleInterrupt (d : MDie) (cage : Fin 8) (flags : List (Nat × Nat))
  /-- MGMT_BUS_NO_ACK: A transaction without acknowledge is retried 3 times at 1 ms, then event 0x1317 and CAGE.STATUS bit 5. (R113) -/
  | mgmtBusNoAck (d : MDie) (cage : Fin 8)
  /-- MGMT_BUS_RETRY: A faulted management bus is retried every 10 s. (R113) -/
  | mgmtBusRetry (d : MDie) (cage : Fin 8) (ok : Bool)
  /-- MONITOR_POLL: Each 1 s monitor poll reads module temperature, voltage and lane monitors, or is skipped and counted when delayed beyond 1 s. (R110) -/
  | monitorPoll (d : MDie) (cage : Fin 8) (delayed : Bool) (temp : Int) (bias : List Nat)
  /-- WEAR_MINUTE_UPDATE: At each whole minute Die C adds to POWER.ON.MIN, HOT.MIN and TEMP.SUM of each module in high power. (R115) -/
  | wearMinuteUpdate
  /-- WEAR_HOUR_UPDATE: Each hour Die C sets BIAS.AVG, the baseline, and the drift of each lane, raising pre-failure warnings under R116. (R115) -/
  | wearHourUpdate
  /-- WEAR_RECORD_FLUSH: Wear records are written to MRAM every 10 minutes. (R115) -/
  | wearRecordFlush
  /-- RX_FRAME: The receive MAC takes a frame, discards bad or PAUSE frames, and classifies it into ARP, ICMP, IGMP, PTP, a flow leg or discard. (R120) -/
  | rxFrame (d : MDie) (port : Fin 32) (f : Frame)
  /-- ARP_UNRESOLVED_TIMEOUT: A next hop unresolved for 1 s raises event 0x1420, holds the flows that need it, and is retried every 1 s. (R121) -/
  | arpUnresolvedTimeout (d : MDie) (port : Fin 32) (ip : Nat)
  /-- MEDIA_PACKET_RECEIVED: A packet of an ingress leg passes the merge stage, which delivers, discards as DUP or LATE, or resynchronizes, and queues it. (R131) -/
  | mediaPacketReceived (d : MDie) (port : Fin 32)
  /-- LEG_TIMEOUT: A leg with no packet for LEG.TIMEOUT goes down with event 0x1403, and the flow goes down with 0x1402 when no leg is up. (R132) -/
  | legTimeout (d : MDie) (flow : Fin 4096) (leg : Fin 2)
  /-- FLOW_SWITCH_LINE: At a video flow's switch line missing samples are concealed and the RTP timestamp is checked against the raster. (R133) -/
  | flowSwitchLine (d : MDie) (flow : Fin 4096)
  /-- EGRESS_SCHEDULE: When a port's transmitter can start a frame it picks a queue by class, DRR and eligibility and sends one frame. (R136) -/
  | egressSchedule (d : MDie) (port : Fin 32)
  /-- SHAPER_REFILL: At each refill cue every token bucket applies a held rate or burst and adds its increment up to the burst. (R137) -/
  | shaperRefill (d : MDie)
  /-- PACED_PACKET_RELEASE: A paced video packet's release instant arrives and it becomes eligible, late packets counted with event 0x1504. (R138) -/
  | pacedPacketRelease (d : MDie) (flow : Fin 4096) (leg : Fin 2)
  /-- FLOW_OUT_START: FLOW.OUT.CONTROL = 1 requests an egress flow start at its next switch line. (R139) -/
  | flowOutStart (d : MDie) (flow : Fin 4096)
  /-- FLOW_OUT_STOP: FLOW.OUT.CONTROL = 2 requests an egress flow stop at its next switch line. (R139) -/
  | flowOutStop (d : MDie) (flow : Fin 4096)
  /-- FLOW_CONTROL_LANDING: A pending flow start or stop lands at the flow raster's switch line or the next packet boundary. (R139) -/
  | flowControlLanding (d : MDie) (flow : Fin 4096)
  /-- GATE_COMMIT: GATE.COMMIT = 1 or a COMMIT cue makes the gate shadow values pending with a computed start. (R141) -/
  | gateCommit (d : MDie) (port : Fin 32)
  /-- GATE_SET_START: A pending gate set becomes operative at its start, raising event 0x1501. (R141) -/
  | gateSetStart (d : MDie) (port : Fin 32)
  /-- GATE_ENTRY_BOUNDARY: A gate list entry or cycle boundary changes the gate states of the port's classes. (R140) -/
  | gateEntryBoundary (d : MDie) (port : Fin 32)
  /-- LOOM_GROUP_COMMIT: LOOM.GROUP.COMMIT on a media die validates the group and copies each shadow route to pending, or rejects with 0x1601. (R152) -/
  | loomGroupCommit (d : MDie) (group : Fin 256)
  /-- LOOM_GROUP_COMMIT_PACKAGE: LOOM.GROUP.COMMIT at die P commits the group on both media dies at Die C's time plus 100 µs. (R152) -/
  | loomGroupCommitPackage (group : Fin 256)
  /-- LOOM_DST_BACKUP_WRITE: A write of LOOM.DST.BACKUP is checked by the route rules and takes effect at the next switch line when in use. (R150) -/
  | loomDstBackupWrite (d : MDie) (dst : Fin 256) (route : Nat)
  /-- DST_SWITCH_LINE: At a destination's switch line a pending route lands, the loss policy applies or ends, and revert or backup switches occur. (R153) -/
  | dstSwitchLine (d : MDie) (dst : Fin 256)
  /-- SOURCE_LOSS_DETECT: A destination's source is lost for one of five causes and the loss policy applies from the next switch line. (R164) -/
  | sourceLossDetect (d : MDie) (x : LossReport)
  /-- AUDIO_FOLLOW_SWITCH: At the first audio sample after a video switch line, followed channels switch source with a crossfade. (R168) -/
  | audioFollowSwitch (d : MDie) (dst : Fin 256)
  /-- FSY_WRITER_FRAME_START: A frame synchronizer writer starts a frame after a marker packet, overwriting the oldest unread when the ring is full. (R160) -/
  | fsyWriterFrameStart (d : MDie) (n : Fin 32) (ts : Nat)
  /-- FSY_FRAME_COMPLETE: A synchronizer frame completes at its marker packet or at the next frame start, raising FSY.FILL. (R159) -/
  | fsyFrameComplete (d : MDie) (n : Fin 32)
  /-- FSY_READ_DECISION: At each switch line of the synchronizer raster the reader repeats or shows the next frame, dropping under policy 1. (R160) -/
  | fsyReadDecision (d : MDie) (n : Fin 32)
  /-- FSY_RATE_MEASUREMENT: Over each 64 input frames FSY.RATE is measured and event 0x1612 raised beyond 1,000 ppm. (R162) -/
  | fsyRateMeasurement (d : MDie) (n : Fin 32)
  /-- CNV_CHAIN_COMMIT: CNV.CHAIN.COMMIT = 1 checks the chain's shadow set and makes it pending, or rejects it with event 0x1703. (R174) -/
  | cnvChainCommit (d : MDie) (chain : Fin 32)
  /-- CHAIN_CONFIG_APPLY: A pending chain configuration applies from the first output picture whose switch line lies at least one line after the commit. (R174) -/
  | chainConfigApply (d : MDie) (chain : Fin 32)
  /-- CNV_COEF_SET_WRITE: A coefficient set write is checked for range, phase sums and users, and is rejected with event 0x1704 on failure. (R181) -/
  | cnvCoefSetWrite (d : MDie) (set_ : Fin 64) (data : List Byte)
  /-- FRC_OUTPUT_PICTURE: For each output picture the converter computes k and phase and interpolates, falls back or shows a stored picture. (R190) -/
  | frcOutputPicture (d : MDie) (chain : Fin 32)
  /-- COMP_SURF_DATA_WRITE: A COMP.SURF.DATA write stores data at COMP.SURF.OFFSET and advances the offset. (R201) -/
  | compSurfDataWrite (d : MDie) (data : List Byte)
  /-- CMP_COMMIT: CMP.COMMIT = 1 checks the compositor's shadow set and captures it as the pending set. (R211) -/
  | cmpCommit (d : MDie) (n : Fin 8)
  /-- SCN_OUT_COMMIT: SCN.OUT.COMMIT = 1 checks the output's shadow set and captures it as the pending set. (R211) -/
  | scnOutCommit (d : MDie) (m : Fin 64)
  /-- GUARD_TEST: At sample 0 of the guard line the engine moves the pending set to staging unless a press holds it. (R212) -/
  | guardTest (d : MDie) (out : Bool) (n : Fin 64)
  /-- LATCH: At sample 0 of the latch line staging becomes the working set. (R212) -/
  | latch (d : MDie) (out : Bool) (n : Fin 64)
  /-- FELT_PRESS_START: A Felt press starts for a compositor once its section's press is free. (R208) -/
  | feltPressStart (d : MDie) (n : Fin 8)
  /-- FELT_PRESS_COMPLETE: A Felt press completes and the waiting set may move to staging. (R208) -/
  | feltPressComplete (d : MDie) (n : Fin 8)
  /-- CMP_FELT_REBUILD: CMP.FELT.REBUILD = 1 commits the current shadow set with a forced press. (R208) -/
  | cmpFeltRebuild (d : MDie) (n : Fin 8)
  /-- SCN_OUT_FORMAT_APPLY: SCN.OUT.FORMAT.APPLY = 1 checks the pending raster, completes the current frame and starts silence. (R214) -/
  | scnOutFormatApply (d : MDie) (m : Fin 64)
  /-- NEW_RASTER_START: The new raster starts at its first frame start after the old frame period, with event 0x1810. (R214) -/
  | newRasterStart (d : MDie) (m : Fin 64)
  /-- CRC_RECT_END: At the end of a rectangle's last row the output writes the CRC and compares or learns it per SCN.CRC.MODE. (R218) -/
  | crcRectEnd (d : MDie) (rect : Fin 1024)
  /-- ENC_CH_START: ENC.CH.CONTROL = 1 requests a channel start at a switch line. (R243) -/
  | encChStart (d : Die) (ch : Fin 48)
  /-- ENC_CH_STOP: ENC.CH.CONTROL = 2 requests a channel stop at a switch line. (R243) -/
  | encChStop (d : Die) (ch : Fin 48)
  /-- CHANNEL_CONTROL_LANDING: A pending start or stop lands at a switch line: start codes an IDR with event 0x2001, stop ends the stream with 0x2002. (R243) -/
  | channelControlLanding (d : MDie) (ch : Fin 48)
  /-- ENC_CH_COMMIT: ENC.CH.COMMIT = 1 checks the channel's shadow set and makes it pending. (R244) -/
  | encChCommit (d : Die) (ch : Fin 48)
  /-- ENC_CONFIG_APPLY: A pending channel set applies from the first picture whose switch line lies one line after the commit. (R244) -/
  | encConfigApply (d : MDie) (ch : Fin 48)
  /-- SOURCE_ROW_END: A CTU row's last source line ends; the row is stored with its pyramid and its motion, pixel and entropy jobs are dispatched. (R235) -/
  | sourceRowEnd (d : MDie) (ch : Fin 48)
  /-- MOTION_JOB_COMPLETE: A motion job finishes its row and writes the row's field records. (R254) -/
  | motionJobComplete (d : MDie) (conv : Bool) (n : Fin 48) (pic row : Nat)
  /-- PIXEL_JOB_START: A pixel job starts once the entropy of row r−3 is complete, receiving the Bolt account and setting the row QP. (R238) -/
  | pixelJobStart (d : MDie) (ch : Fin 48) (pic row : Nat) (ctus : List Ctu)
  /-- ENTROPY_JOB_COMPLETE: An entropy job codes its row or tile, and NAL assembly and packetization follow. (R291) -/
  | entropyJobComplete (d : MDie) (ch : Fin 48) (pic row tile : Nat) (data crcLuma crcChroma : List Byte)
  /-- ROW_PACKET_RELEASE: At E(r) + D the packetizer hands the row's first packet to its egress queues. (R233) -/
  | rowPacketRelease (d : MDie) (ch : Fin 48) (pic row : Nat)
  /-- LATE_ROW_RELEASE: A row incomplete at its window end has its packets released as they complete, with event 0x2301. (R296) -/
  | lateRowRelease (d : MDie) (ch : Fin 48) (pic row : Nat)
  /-- STAGE_WINDOW_MISS: A motion or pixel stage not finished at its window end takes coarse vectors or Scrim, with event 0x2006. (R239) -/
  | stageWindowMiss (d : MDie) (ch : Fin 48) (stage : Fin 3) (pic row reached lvl : Nat)
  /-- PICTURE_HRD_UPDATE: Once a picture's last row is entropy-coded the channel updates Fs, appends filler and updates Dacc. (R273) -/
  | pictureHrdUpdate (d : MDie) (ch : Fin 48)
  /-- ENGINE_PAIR_LOSS: A MOT or PIX section fails or capacity is lost; event 0x2009 and re-placement at picture boundaries. (R231) -/
  | enginePairLoss (d : MDie) (e : Fin 2) (pix : Bool)
  /-- CHANNEL_REPLACEMENT: At a channel's next picture boundary Die C re-places channels, stops those that do not fit and restarts those on the lost pair. (R231) -/
  | channelReplacement (d : MDie) (ch : Fin 48)
  /-- ENC_DEFER_DATA_WRITE: A write of ENC.DEFER.DATA adds picture data to the Deferred queue, rejected while the queue is full. (R232) -/
  | encDeferDataWrite (d : MDie) (ch : Fin 48) (data : List Byte)
  /-- ENC_DEFER_PUSH: ENC.DEFER.PUSH = 1 completes an uploaded picture, rejected when the byte count differs. (R232) -/
  | encDeferPush (d : MDie) (ch : Fin 48)
  /-- BORROWED_JOB_DEADLINE: A borrowed motion job unfinished at its deadline falls back with event 0x2102. (R267) -/
  | borrowedJobDeadline (d : MDie) (conv : Fin 4) (row reached lvl : Nat)
  /-- RC_KEY_REQUEST: RC.KEY.REQUEST = 1 requests an IRAP picture on the first picture whose coding has not started. (R283) -/
  | rcKeyRequest (d : Die) (ch : Fin 48)
  /-- RC_GZ_MAP_DATA_WRITE: A write of RC.GZ.MAP.DATA loads a Gauze map buffer at the offset, rejected for buffers in use. (R286) -/
  | rcGzMapDataWrite (d : MDie) (ch : Fin 48) (data : List Byte)
  /-- ENT_CH_SEI_USER_SEND: ENT.CH.SEI.USER.SEND = 1 sends the user data SEI in the next access unit whose row-0 window opens after it. (R302) -/
  | entChSeiUserSend (d : Die) (ch : Fin 48)
  /-- ENTROPY_ENGINE_STALL: An entropy engine completing no CTU for L lines is removed with event 0x2303 and channels are reassigned. (R297) -/
  | entropyEngineStall (d : MDie) (e : Fin 8)
  /-- DECODER_ACCESS_UNIT: The depacketizer completes an access unit and stores it in the CPB, or discards it when damaged or the CPB is full. (R320) -/
  | decoderAccessUnit (d : MDie) (ctx : Fin 4)
  /-- DECODE_ACCESS_UNIT: The decode engine decodes the earliest complete access unit, with concealment and substitution as needed. (R313) -/
  | decodeAccessUnit (d : MDie) (info : AuInfo)
  /-- DECODER_PICTURE_OUTPUT: A picture leaves the DPB by bumping and is written to its synchronizer or Deferred queue. (R317) -/
  | decoderPictureOutput (d : MDie) (ctx : Fin 4)
  /-- DEC_CTX_RESTART: DEC.CTX.CONTROL = 1 empties CPB and DPB and returns the context to waiting for an IRAP picture. (R319) -/
  | decCtxRestart (d : MDie) (ctx : Fin 4)
  /-- DECODER_NO_OUTPUT_TIMEOUT: No picture output for 8 picture periods stops the context with event 0x2405. (R324) -/
  | decoderNoOutputTimeout (d : MDie) (ctx : Fin 4)
  /-- DEFER_QUEUE_RESUME: A held decoder resumes in the cycle after a picture leaves the Deferred queue. (R318) -/
  | deferQueueResume (d : MDie) (ctx : Fin 4)
  /-- ROUTER_TICK: At each sample index of a bank the router computes every output sample with gain, ramps and delays. (R328) -/
  | routerTick (d : MDie) (bank : Fin 8)
  /-- TDM_FRAME_SYNC: At a port frame sync the port applies a committed mask, moves one frame through its FIFOs and slips as needed. (R337) -/
  | tdmFrameSync (d : MDie) (port : Fin 16) (slots : List Int)
  /-- AUD_PORT_COMMIT: AUD.PORT.COMMIT = 1 makes the shadow slot masks pending for the next frame sync. (R335) -/
  | audPortCommit (d : MDie) (port : Fin 16)
  /-- ISLAND_UPDATE: After every 64 lead-port frame syncs the island updates its correction, lock and pull-limit state. (R340) -/
  | islandUpdate (d : MDie) (island : Fin 8)
  /-- RATE_GATE: Each 10 ms gate a port measures its FSY rate and class, raising 0x2808 on a change. (R341) -/
  | rateGate (d : MDie) (port : Fin 16)
  /-- SLAVE_CLOCK_STOP: No BCK edge for four expected periods stops the slave port with event 0x2805. (R342) -/
  | slaveClockStop (d : MDie) (port : Fin 16)
  /-- SLAVE_CLOCK_RETURN: The first FSY after BCK returns restarts the port with event 0x2806 and realigned FIFOs. (R342) -/
  | slaveClockReturn (d : MDie) (port : Fin 16)
  /-- FRAME_SYNC_GLITCH: An FSY active edge at a wrong count, or none at the frame length, discards the frame with event 0x2807. (R342) -/
  | frameSyncGlitch (d : MDie) (port : Fin 16) (bck : Nat)
  /-- AUDIO_EGRESS_PACKET: An audio egress packet is handed to its queues at the instant of the index after its last sample. (R345) -/
  | audioEgressPacket (d : MDie) (flow : Fin 4096)
  /-- AUD_GROUP_COMMIT: AUD.GROUP.COMMIT = 1 commits the router group's source, gain, mute and delay, or rejects with 0x2802. (R347) -/
  | audGroupCommit (d : Die) (group : Fin 256)
  /-- AUD_PORT_ARM: AUD.PORT.ARM = 1 arms a port in its start group. (R350) -/
  | audPortArm (d : MDie) (port : Fin 16)
  /-- AUD_PORT_DISARM: AUD.PORT.ARM = 2 disarms a port. (R350) -/
  | audPortDisarm (d : MDie) (port : Fin 16)
  /-- AUD_START_TRIGGER: AUD.START.TRIGGER = 1 starts every armed port of the group at a common sample n0 with event 0x2830. (R350) -/
  | audStartTrigger (d : Die) (group : Fin 256)
  /-- DRAM_REQUEST_ENQUEUE: A request reaches a channel controller and is split at granule boundaries into pieces. (R359) -/
  | dramRequestEnqueue (d : MDie) (r : MemReq)
  /-- DRAM_COMMAND_ISSUE: The channel picks a piece by urgency, direction, age and port and issues its command, marking late requests. (R360) -/
  | dramCommandIssue (d : MDie) (ch : Fin 12) (busy : List Nat)
  /-- DRAM_READ_RETURN: Read data returns and ECC corrects or poisons it with events 0x3007 or 0x3008. (R369) -/
  | dramReadReturn (d : MDie) (ch : Fin 12) (single multi : List Nat)
  /-- REFRESH_DUE: A rank's refresh falls due and owed increases, issued, postponed or forced. (R365) -/
  | refreshDue (d : MDie) (ch : Fin 12) (rank : Fin 2)
  /-- MPR_TEMPERATURE_READ: Every 32 ms the controller reads device temperature status and changes the refresh rate, with event 0x3011. (R364) -/
  | mprTemperatureRead (d : MDie) (ch : Fin 12) (rank : Fin 2) (hot : Bool)
  /-- ACTIVATE_COUNTER_EPOCH: At each multiple of 64 ms the per-bank activate counters restart at 0. (R366) -/
  | activateCounterEpoch (d : MDie)
  /-- PARITY_ALERT: _ALERT_N sampled low stops the channel, then after recovery precharges and replays the windowed pieces. (R367) -/
  | parityAlert (d : MDie) (ch : Fin 12)
  /-- PARITY_REPLAY_COMPLETE: A replay completes without alert, or a third failure escalates the channel to faulted with event 0x3006. (R367) -/
  | parityReplayComplete (d : MDie) (ch : Fin 12)
  /-- ZQCS_CALIBRATION: Each rank takes ZQCS every 128 ms in a slot after a REF. (R373) -/
  | zqcsCalibration (d : MDie) (ch : Fin 12) (rank : Fin 2)
  /-- STROBE_DRIFT_TRACK: Each 1 ms the PHY moves byte lanes toward DQS drift and schedules an eye check or retrain at the limits. (R373) -/
  | strobeDriftTrack (d : MDie) (ch : Fin 12) (moves : List Int)
  /-- EYE_CHECK: An eye check runs in 1 µs slots over pattern rows and starts a retrain on failure with event 0x300A. (R374) -/
  | eyeCheck (d : MDie) (ch : Fin 12) (failed : Option (Nat × Nat))
  /-- MEM_CH_RETRAIN: MEM.CH.RETRAIN = 1 starts an in-service retrain of the channel. (R375) -/
  | memChRetrain (d : MDie) (ch : Fin 12)
  /-- IN_SERVICE_RETRAIN_DONE: An in-service retrain ends, replacing settings with 0x300C or failing with 0x300D and RECOVERY. (R375) -/
  | inServiceRetrainDone (d : MDie) (ch : Fin 12) (eye : Option Nat)
  /-- FULL_RETRAIN_DONE: A full retrain in RECOVERY restores the channel or fences it with event 0x300E and reallocation. (R375) -/
  | fullRetrainDone (d : MDie) (ch : Fin 12) (eye : Option Nat)
  /-- SCRUB_GRANULE: The scrubber reads one granule and writes back corrected beats unless overwritten. (R370) -/
  | scrubGranule (d : MDie) (single multi overwritten : List Nat)
  /-- SCRUB_PASS_COMPLETE: A scrub pass completes with event 0x3010 and the next pass begins. (R370) -/
  | scrubPassComplete (d : MDie)
  /-- BUS_TRANSACTION_ISSUE: A master issues a transaction, split into pieces that compete for their targets, with decode faults parked or answered. (R386) -/
  | busTransactionIssue (d : MDie) (m : Fin 39) (o : BusOp)
  /-- SEMAPHORE_READ: A read of both owner bytes returns the owner and acquires a free semaphore. (R388) -/
  | semaphoreRead (d : MDie) (m : Fin 39) (ofs len : Nat)
  /-- SEMAPHORE_WRITE: An owner's zero write releases the semaphore; any other write changes nothing and raises 0x3106. (R388) -/
  | semaphoreWrite (d : MDie) (m : Fin 39) (ofs : Nat) (data : List Byte)
  /-- MASTER_RESET: A master is held out of issue, its generation toggled, writes nulled, reads discarded and semaphores released. (R391) -/
  | masterReset (d : MDie) (m : Fin 39)
  /-- MASTER_RESET_ACK: Once no old-generation response remains the reset is acknowledged with event 0x3103. (R391) -/
  | masterResetAck (d : MDie) (m : Fin 39)
  /-- RESET_DRAIN_OVERRUN: Old-generation responses outstanding 1 ms after a reset raise 0x3104 and send the die to RECOVERY. (R392) -/
  | resetDrainOverrun (d : MDie) (m : Fin 39)
  /-- BUS_MASTER_RESET: BUS.MASTER.RESET = 1 in TEST resets the master under R391. (R391) -/
  | busMasterReset (d : MDie) (m : Fin 48)
  /-- QUEUE_PUSH: A writer pushes an item into a queue, refused or stalled when full, with the watermark evaluated. (R396) -/
  | queuePush (d : MDie) (p : Push)
  /-- QUEUE_POP: A reader pops an item, stalling when empty, with parity checked and the watermark evaluated. (R396) -/
  | queuePop (d : MDie) (p : Pop)
  /-- PACKET_COMPLETE_COMPARE: A mirrored egress packet completes; the die holds it and sends a compare record on both paths. (R405) -/
  | packetCompleteCompare (d : MDie)
  /-- COMPARE_RECORD_RECEIVED: The partner's compare record arrives and the packet is released, suppressed or counted as mismatch. (R407) -/
  | compareRecordReceived (d : MDie) (r : CmpRec)
  /-- COMPARE_TIMEOUT: No partner record within 6 µs releases the packet uncompared with event 0x320A. (R407) -/
  | compareTimeout (d : MDie)
  /-- DECISION_RECORD_RECEIVED: The partner receives the owner's decision record and applies it at the named instant, or decides alone. (R404) -/
  | decisionRecordReceived (d : MDie) (r : Decision)
  /-- RESYNCHRONIZATION: Die C copies a source's state to the other die at an IDR or switch line, with event 0x3206. (R409) -/
  | resynchronization
  /-- HEARTBEAT_SEND: Each die sends a heartbeat at each whole millisecond on the bridge and through Die C. (R411) -/
  | heartbeatSend (d : MDie)
  /-- HEARTBEAT_DEADLINE: At t + 500 µs a missing heartbeat is counted, detecting path faults or declaring the partner failed. (R411) -/
  | heartbeatDeadline (d : MDie) (bridge c : Bool)
  /-- OUT_HEARTBEAT_RECEIVED: A heartbeat with STATE OUT is taken at once as a declaration of the partner's failure. (R412) -/
  | outHeartbeatReceived (d : MDie)
  /-- SPLIT_ENTRY: Die C holds both declarations without heartbeats and takes both dies to SPLIT with event 0x3207. (R415) -/
  | splitEntry
  /-- SPLIT_REJOIN: After 4 periods of heartbeats again the non-owner goes to REJOINING and is resynchronized. (R415) -/
  | splitRejoin
  /-- SLV_REJOIN: SLV.REJOIN = 1 tries again to return a die from OUT. (R416) -/
  | slvRejoin (d : MDie)
  /-- RETURN_FROM_OUT: A returning die takes mirrored objects and allocations, goes REJOINING, and reaches PAIRED with event 0x3209. (R416) -/
  | returnFromOut (d : MDie)
  /-- PAIRED_ENTRY: Every flow has had its first match and both dies go to PAIRED with event 0x3201. (R413) -/
  | pairedEntry
  /-- BIST_ROTATION: Every 10 minutes in PAIRED the background test moves to the next section and marks failed elements. (R417) -/
  | bistRotation (d : MDie) (bad : List Nat)
  /-- HELLO_SEND: Every Twill link sends HELLO once per millisecond. (R424) -/
  | helloSend
  /-- HELLO_RECEIVED: A HELLO is received and a link comes up after 3 consecutive ones, with event 0x3301. (R424) -/
  | helloReceived (d : MDie) (quad : Fin 8) (p : TwlPkg) (peerDie peerQuad : Nat)
  /-- LINK_HELLO_TIMEOUT: 8 ms without HELLO loses the link with event 0x3302 and a new fabric generation. (R424) -/
  | linkHelloTimeout (d : MDie) (quad : Fin 8)
  /-- LINK_STATE_RECEIVED: A flooded LINK STATE message updates TWL.TOPOLOGY and is forwarded. (R423) -/
  | linkStateReceived (d : MDie) (quad : Fin 8) (m : TwlMsg)
  /-- ROOT_ELECTION: After link records are unchanged for 20 ms Die C elects the root, with event 0x3305 on a change. (R426) -/
  | rootElection
  /-- ID_ASSIGN_RECEIVED: An ID ASSIGN sets the package's device ID, raising 0x3306 on change and losing affected routes. (R426) -/
  | idAssignReceived (serial id : Nat)
  /-- ALLOC_RECEIVED: An ALLOC reserves slots at a transit die or a transmit channel and read tap at the source, which returns ACK or NACK. (R432) -/
  | allocReceived (d : MDie) (quad : Fin 8) (m : TwlMsg)
  /-- ALLOC_ACK_RECEIVED: The destination receives ALLOC ACK and the route can land. (R432) -/
  | allocAckReceived (d : MDie) (quad : Fin 8) (m : TwlMsg)
  /-- ALLOC_NACK_RECEIVED: An ALLOC NACK makes Die C try the next path or reject the route commit. (R431) -/
  | allocNackReceived (d : MDie) (quad : Fin 8) (m : TwlMsg)
  /-- FREE_RECEIVED: A FREE message releases every slot on a channel's path. (R432) -/
  | freeReceived (d : MDie) (quad : Fin 8) (m : TwlMsg)
  /-- TWILL_SYNC_SEND: Each package sends SYNC on every link once per 125 µs. (R436) -/
  | twillSyncSend
  /-- TWILL_SYNC_RECEIVED: A SYNC drives the servo in mode 1 and the offset check, raising 0x330B above 1 µs for 8 messages. (R436) -/
  | twillSyncReceived (d : MDie) (quad : Fin 8) (m : TwlMsg)
  /-- LINK_DELAY_MEASUREMENT: Each second a link end sends DELAY REQUEST and computes TWL.LINK.DELAY from DELAY RESPONSE. (R430) -/
  | linkDelayMeasurement (d : MDie) (quad : Fin 8) (trip turnaround : Nat)
  /-- DELAY_REQUEST_RECEIVED: A DELAY REQUEST is answered with DELAY RESPONSE reporting turnaround. (R430) -/
  | delayRequestReceived (d : MDie) (quad : Fin 8) (t turnaround : Nat)
  /-- MEDIA_FLIT_RECEIVED: A media flit is forwarded with rewritten SLOT or delivered, gaps in SEQ counted and concealed. (R422) -/
  | mediaFlitReceived (d : MDie) (quad : Fin 8) (f : TwlFlit)
  /-- CONTROL_FLIT_RECEIVED: A control flit is CRC-checked, dispatched, forwarded or flooded. (R423) -/
  | controlFlitReceived (d : MDie) (quad : Fin 8) (kind3 crcOk : Bool) (m : TwlMsg)
  /-- CHANNEL_REROUTE: After a link loss each lost channel's receive end finds a new path and is restored (0x3308) or stays lost (0x3309). (R433) -/
  | channelReroute (d : MDie) (ch : Fin 128)
  /-- LINK_PARK: A link without channels for 10 s parks in shallow and stops HELLO. (R435) -/
  | linkPark (d : MDie) (quad : Fin 8)
  /-- PARKED_LINK_WAKE: An allocation that chooses a parked link wakes it, or loses it when the partner does not answer in 1 ms. (R435) -/
  | parkedLinkWake (d : MDie) (quad : Fin 8) (answered : Bool)
  /-- ID_HOLD_EXPIRY: An ID held for a lost package is released after TWL.ID.HOLD seconds. (R426) -/
  | idHoldExpiry
  /-- UCIE_LINK_DOWN: A UCIe link without a flit for 10 ms is down: event 0x1030, Die C unreachable, master 31 reset. (R442) -/
  | ucieLinkDown (d : MDie)
  /-- UCIE_RETRAIN: Die C retrains a down link every 100 ms and on success raises 0x1031 and slews the counter. (R442) -/
  | ucieRetrain (d : MDie)
  /-- DIE_C_REATTACH: After a Die C reboot Die C reads the running objects of each media die and rewrites differing MRAM slots with 0x1014. (R443) -/
  | dieCReattach (d : MDie)
  /-- VOL_OPEN: OPEN derives session keys from a key slot and answers with an authenticated frame, or BUSY or ACCESS. (R458) -/
  | volOpen (h : VolHdr) (slot : Nat) (nonce : List Byte)
  /-- VOL_CLOSE: CLOSE ends the session with event 0x1011. (R459) -/
  | volClose (h : VolHdr)
  /-- VOL_NOP: NOP is answered without effect. (R455) -/
  | volNop (h : VolHdr)
  /-- VOL_READ: READ returns the values of the addressed objects and instances. (R456) -/
  | volRead (h : VolHdr) (items : List VolItem)
  /-- VOL_WRITE: WRITE checks every item, then applies them in order and journals P values. (R446) -/
  | volWrite (h : VolHdr) (items : List VolItem)
  /-- VOL_DESCRIBE: DESCRIBE returns one descriptor per item. (R455) -/
  | volDescribe (h : VolHdr) (items : List VolItem)
  /-- VOL_LIST: LIST returns up to 64 objects after a given position. (R455) -/
  | volList (h : VolHdr) (die index sub : Nat)
  /-- VOL_CLEAR_COUNT: CLEAR.COUNT sets the named COUNT objects to 0. (R448) -/
  | volClearCount (h : VolHdr) (items : List VolItem)
  /-- VOL_BULK_BEGIN: BULK.BEGIN opens a transfer for a DOMAIN object of a given length. (R463) -/
  | volBulkBegin (h : VolHdr) (it : VolItem) (total : Nat)
  /-- VOL_BULK_DATA: BULK.DATA holds a segment at the expected offset. (R463) -/
  | volBulkData (h : VolHdr) (id offset : Nat) (data : List Byte)
  /-- VOL_BULK_END: BULK.END executes one WRITE of the whole value. (R463) -/
  | volBulkEnd (h : VolHdr) (id : Nat)
  /-- VOL_BULK_READ: BULK.READ returns data from a snapshot taken at offset 0. (R463) -/
  | volBulkRead (h : VolHdr) (it : VolItem) (offset len : Nat)
  /-- VOL_SUBSCRIBE: SUBSCRIBE sets the session's event filter and start GSEQ. (R466) -/
  | volSubscribe (h : VolHdr) (start : Nat) (ranges : List (Nat × Nat))
  /-- VOL_NOTIFY_SEND: Die C sends a NOTIFY with matching records to a subscribed session. (R466) -/
  | volNotifySend (n : Nat)
  /-- VOL_ACK: ACK acknowledges records up to a GSEQ and frees the session buffer. (R466) -/
  | volAck (h : VolHdr) (gseq : Nat)
  /-- VOL_LOG_READ: LOG.READ returns records from the RAM or persistent log. (R465) -/
  | volLogRead (h : VolHdr) (log count boot from_ : Nat)
  /-- NOTIFY_RETRANSMIT: An unacknowledged NOTIFY is resent after 100 ms up to 5 times, then its records are lost with event 0x3F02. (R466) -/
  | notifyRetransmit (n : Nat)
  /-- SESSION_ESTABLISH_TIMEOUT: A session with no correct request within 2 s is dropped with event 0x1011 cause 3. (R458) -/
  | sessionEstablishTimeout (n : Nat)
  /-- SESSION_TIMEOUT: VOL.SESSION.TIMEOUT seconds without a correct request end the session with event 0x1011 and VOL.STICKY bit 1. (R459) -/
  | sessionTimeout (n : Nat)
  /-- BULK_TRANSFER_TIMEOUT: A bulk transfer without segments for VOL.SESSION.TIMEOUT seconds is abandoned. (R463) -/
  | bulkTransferTimeout (n : Nat)
  /-- BULK_SNAPSHOT_EXPIRY: A BULK.READ snapshot expires 10 s after it was taken. (R463) -/
  | bulkSnapshotExpiry (n : Nat)
  /-- SPI_WRITE_FRAME: SPI command 0x02 writes a VOL frame to Die C or is refused while one executes. (R453) -/
  | spiWriteFrame (wellFormed : Bool)
  /-- SPI_READ_FRAME: SPI command 0x03 reads the waiting frame. (R453) -/
  | spiReadFrame
  /-- SPI_READ_STATUS: SPI command 0x05 returns the status byte. (R453) -/
  | spiReadStatus
  /-- FIELD_NET_FRAME: A field network port answers ARP and ICMP, passes PTP and VOL, and discards the rest. (R452) -/
  | fieldNetFrame (port : Fin 2) (f : FieldFrame)
  /-- VOL_IMAGE_DATA_WRITE: A write of VOL.IMAGE.DATA stores image data in the staging area. (R449) -/
  | volImageDataWrite (data : List Byte)
  /-- VOL_IMAGE_APPLY: VOL.IMAGE.APPLY = 1 checks the staged image and executes it as one request, with event 0x1015. (R449) -/
  | volImageApply
  /-- PERSISTENT_COUNT_FLUSH: A changed COUNT flagged P is written to MRAM within 1 s. (R451) -/
  | persistentCountFlush
  /-- LCS_ADVANCE_PROVISIONED: LCS.ADVANCE to PROVISIONED closes debug and ends slot-0xFF sessions. (R467) -/
  | lcsAdvanceProvisioned (serial : Nat)
  /-- LCS_ADVANCE_DEPLOYED: LCS.ADVANCE to DEPLOYED ends token access. (R467) -/
  | lcsAdvanceDeployed (serial : Nat)
  /-- LCS_ADVANCE_RETURN: LCS.ADVANCE to RETURN ends sessions, resets the media dies, erases MRAM, then opens debug with event 0x1023. (R469) -/
  | lcsAdvanceReturn (serial : Nat)
  /-- LCS_DEBUG_TOKEN: A write of LCS.DEBUG.TOKEN opens the scoped debug paths or is refused with event 0x1022. (R468) -/
  | lcsDebugToken (token : List Byte)
  /-- DEBUG_TOKEN_EXPIRY: An accepted token's expiry passes and the scoped debug paths close. (R468) -/
  | debugTokenExpiry
  /-- FW_IMAGE_DATA_WRITE: A write of FW.IMAGE.DATA stores firmware into the inactive slot. (R470) -/
  | fwImageDataWrite (data : List Byte)
  /-- FW_IMAGE_COMMIT: FW.IMAGE.COMMIT = 1 checks the image and selects it for next BOOT with 0x1040, or refuses with 0x1041. (R470) -/
  | fwImageCommit
  /-- DIAG_WIN_READ: A read of DIAG.WIN.DATA issues a bus read of LEN bytes through master 31. (R471) -/
  | diagWinRead (d : MDie)
  /-- DIAG_WIN_WRITE: A write of DIAG.WIN.DATA issues one bus write through master 31. (R471) -/
  | diagWinWrite (d : MDie) (data : List Byte)
  /-- REGISTER_WRITE: A write of an object with no row of its own stores the value after access and range checks. (R25) -/
  | registerWrite (it : VolItem)
  /-- BOOT_START: BOOT runs steps B1 to B7 in order: lifecycle, firmware, journal, links, self-tests, DRAM training and lanes. (R475) -/
  | bootStart (r : BootRun)
  /-- BOOT_FAILURE: A boot failure records step and cause, holds C_SYS00_FAULT_N low for 1 s and restarts BOOT. (R476) -/
  | bootFailure (step : Fin 8) (cause : Fin 5)
  /-- BOOT_END: At B8 Die C starts the server, drives READY high, enters STANDBY and heads for the boot target. (R479) -/
  | bootEnd (ms : Nat)
  /-- BOOT_TARGET_RETRY: Every 100 ms Die C retries the last transition toward the boot target until a VOL MODE.REQUEST. (R479) -/
  | bootTargetRetry
  /-- MODE_REQUEST_STANDBY: MODE.REQUEST = 2 moves CONFIGURE to STANDBY. (R481) -/
  | modeRequestStandby
  /-- MODE_REQUEST_CONFIGURE: MODE.REQUEST = 3 enters CONFIGURE from STANDBY, or runs the stop rule from SERVICE, SELVEDGE, TEST or RECOVERY. (R481) -/
  | modeRequestConfigure
  /-- MODE_REQUEST_SERVICE: MODE.REQUEST = 4 enters SERVICE from CONFIGURE or SELVEDGE. (R481) -/
  | modeRequestService
  /-- MODE_REQUEST_SELVEDGE: MODE.REQUEST = 5 enters SELVEDGE from CONFIGURE or SERVICE. (R481) -/
  | modeRequestSelvedge
  /-- MODE_REQUEST_TEST: MODE.REQUEST = 6 enters TEST from CONFIGURE. (R481) -/
  | modeRequestTest
  /-- STOP_RULE_COMPLETE: The last channel releases its last row and the last flow its last packet, and the mode changes. (R482) -/
  | stopRuleComplete
  /-- STOP_RULE_CUT: A channel unfinished 2 s after the stop rule is cut as a restart, setting MODE.STICKY bit 4. (R482) -/
  | stopRuleCut
  /-- RECOVERY_ENTRY: A fault enters RECOVERY with event 0x1003, naming dies and cause, and starts the recovery actions. (R485) -/
  | recoveryEntry
  /-- RECOVERY_END: All actions complete and every restarted channel released its first IDR row; event 0x1004 and return to the previous mode. (R487) -/
  | recoveryEnd
  /-- TEST_BIST_SECTION: A write of TEST.BIST.SECTION starts that section's self-test. (R489) -/
  | testBistSection (d : MDie) (sec : Nat)
  /-- BIST_COMPLETE: A section self-test ends and TEST.BIST.RESULT shows the outcome, with 0x1054 on failures. (R489) -/
  | bistComplete (d : MDie) (bad : List Nat)
  /-- TEST_CRC_FRAMES: A write of TEST.CRC.FRAMES starts a reference CRC run. (R490) -/
  | testCrcFrames (d : MDie) (n : Nat)
  /-- CRC_RUN_END: The last rectangle has compared n frames and event 0x1055 reports the state. (R490) -/
  | crcRunEnd (d : MDie)
  /-- INJECT_SINGLE_BIT_ECC: TEST.INJECT kind 1 stores the next written beats of a DRAM channel with one flipped bit. (R491) -/
  | injectSingleBitEcc (d : MDie) (ch count : Nat)
  /-- INJECT_DOUBLE_BIT_ECC: TEST.INJECT kind 2 stores the next written beats of a DRAM channel with two flipped bits. (R491) -/
  | injectDoubleBitEcc (d : MDie) (ch count : Nat)
  /-- INJECT_CA_PARITY: TEST.INJECT kind 3 drives wrong C/A parity on a command and on subsequent replays. (R491) -/
  | injectCaParity (d : MDie) (ch count : Nat)
  /-- INJECT_BUS_PARITY: TEST.INJECT kind 4 flips a parity bit in the next beats a bus master receives. (R491) -/
  | injectBusParity (d : MDie) (m count : Nat)
  /-- INJECT_QUEUE_PARITY: TEST.INJECT kind 5 flips a parity bit in the next words popped from a network queue. (R491) -/
  | injectQueueParity (d : MDie) (queue count : Nat)
  /-- INJECT_SYMBOL_ERRORS: TEST.INJECT kind 6 spreads symbol errors on a lane over one second. (R491) -/
  | injectSymbolErrors (d : MDie) (lane count : Nat)
  /-- INJECT_UNCORRECTABLE: TEST.INJECT kind 7 injects uncorrectable codewords on a port. (R491) -/
  | injectUncorrectable (d : MDie) (lane count : Nat)
  /-- PTP_SYNC_TRANSMIT: A master or boundary-clock port sends a two-step Sync with its Follow_Up at each logSyncInterval. (R60) -/
  | ptpSyncTransmit (port : Fin 8)
  /-- PTP_ANNOUNCE_TRANSMIT: A master port sends Announce at each logAnnounceInterval, with clockClass 6 or 7 when announcing itself under TIME.SOURCE 2. (R68) -/
  | ptpAnnounceTransmit (port : Fin 8)
  /-- PTP_DELAY_REQ_TRANSMIT: A slave port sends a Delay_Req at logMinDelayReqInterval for the end-to-end delay mechanism. (R60) -/
  | ptpDelayReqTransmit (port : Fin 8)
  /-- PTP_DELAY_REQ_RECEIVED: A master port receives a Delay_Req and answers it with a Delay_Resp. (R60) -/
  | ptpDelayReqReceived (port : Fin 8) (h : PtpHeader) (rx : Nat)
  /-- PTP_DELAY_RESP_RECEIVED: A slave port receives a Delay_Resp, which completes the path-delay measurement the servo uses. (R60) -/
  | ptpDelayRespReceived (port : Fin 8) (h : PtpHeader) (rx : Nat)
  /-- PTP_FOLLOW_UP_RECEIVED: A Follow_Up to a two-step Sync arrives and supplies the precise origin timestamp for the offset measurement. (R60) -/
  | ptpFollowUpReceived (port : Fin 8) (h : PtpHeader) (origin : Nat)
  /-- DIE_BRIDGE_DOWN: The die bridge between Die A and Die B fails; routes carried over it are lost with cause 5, and LOOM.STATUS bit 1 and LOOM.STICKY bit 1 change. (R164) -/
  | dieBridgeDown
  /-- DIE_BRIDGE_RESTORED: The die bridge comes up again, ending cause-5 losses so that destinations return at their next switch line. (R164) -/
  | dieBridgeRestored
  /-- FIELD_NETWORK_LINK_CHANGE: A field network port's SGMII or 1000BASE-X link goes up or down, which changes VOL.PORT.STATUS bit 0. (R452) -/
  | fieldNetworkLinkChange (port : Fin 2) (up : Bool)
  /-- ALERT_N_RELEASE: _ALERT_N returns high after a parity alert; after the parity recovery time the controller precharges all ranks and replays the windowed pieces. (R367) -/
  | alertNRelease (d : MDie) (ch : Fin 12)
  /-- JTAG_TAP_ACCESS: An instruction shifted into the Die C TAP is served while debug is open, and only IDCODE and BYPASS are answered while it is closed. (R467) -/
  | jtagTapAccess (ins : TapInstr)
  /-- ORPHAN_COMPARE_RECORD_EXPIRY: A partner compare record for which the die holds no packet is discarded 6 µs after it arrived. (R407) -/
  | orphanCompareRecordExpiry (d : MDie)
  /-- BORROWED_JOB_RELEASE: A conversion chain has written input line e(r) to the converter's store, which releases the borrowed motion job of block row r with a deadline 67 lines later. (R264) -/
  | borrowedJobRelease (d : MDie) (conv : Fin 4) (row : Nat)
deriving DecidableEq, Repr

end Sys2Proof
end

