-- ==== Sys2Proof/Config.lean ====
section
/-! DEFINITION. What an implementation fixes and the spec leaves open: constants with no body, applied to
the plain counter `State.freeCtr` or to the operands they depend on. No statement can see a value of one. -/

namespace Sys2Proof.Config

/-- A fresh value of the given number of bits, for a value the spec leaves open after an action that
goes on (assumption 4). -/
opaque freeValue : Nat → Nat

/-- Free bytes: what the spec leaves open as data (assumption 4). -/
opaque freeByte : Nat → Byte

/-- A component of the replacement for a missing sample that no received one precedes on its line (R133): by frame's timestamp or number
and row. The spec states none. -/
opaque leadSample (frame row : Nat) : Nat

/-- Bytes and real-time traffic of a store for which the spec gives no formula (R358), by subject index and instance. -/
opaque undeclaredBytes (subject inst : Nat) : Nat
opaque undeclaredTraffic (subject inst : Nat) : Nat

/-- The IDCODE of the TAP of Die C (R467). -/
opaque idcode : Nat

/-- Bit `n` of a test pattern that IEEE 802.3 Clause 120 defines: 1 PRBS13Q, 2 PRBS31Q, 3 SSPRQ (R107). Its tables are not in the
spec. -/
opaque patternBit (code n : Nat) : Bool

/-- What Die C finds in a firmware image (R470), by the bytes that were written of it: whether Ngalvaon's signature verifies, its
version, whether its length matches its header. The layout of an image is not in the spec. -/
opaque fwSigned : List (Nat × Byte) → Bool
opaque fwVersion : List (Nat × Byte) → Nat
opaque fwLengthOk : List (Nat × Byte) → Bool

/-! ### NAL units (R225, R274, R298–R300)

What the encoder signals, field by field. How a codec standard lays these fields out as bits is not in the spec. -/

/-- The HRD that a bitstream signals (R274): Type II, its rate and size, and cbr_flag. -/
structure Hrd where
  rate : Nat
  size : Nat
  cbr : Bool
deriving DecidableEq, Repr

/-- The VUI of an SPS with the timing and the HRD (R299). -/
structure Vui where
  unitsInTick : Nat
  timeScale : Nat
  fieldSeq : Bool
  fullRange : Bool
  /-- chroma_sample_loc_type, for 4:2:0 -/
  chromaLoc : Option Nat
  primaries : Nat
  transfer : Nat
  matrix : Nat
  hrd : Hrd
deriving DecidableEq, Repr

/-- The coding tools that R225 marks "no" or lists as not used. -/
inductive Tool
  | pcm | lossless | rext | mrl | isp | mip | affine | gpm | mmvd | ciip | sbTmvp | smvd | bcw | amvr | explicitMts | lfnst | sbt
  | dependentQuant | alfAps | ccAlf | lmcs | palette | ibc | rpr | subpictures
deriving DecidableEq, Repr

/-- What the parameter sets of a channel signal (R223–R225, R291, R292, R299). -/
structure ParamSet where
  vvc : Bool
  profile : Nat
  high : Bool
  level : Nat
  full : Bool
  /-- coded luma size, and the samples that the conformance window crops at the right and at the bottom -/
  width : Nat
  height : Nat
  cropRight : Nat
  cropBottom : Nat
  ctu : Nat
  refs : Nat
  /-- widths of the tile columns in CTUs, none in the wavefront division -/
  columns : List Nat
  disabled : List Tool
  vui : Vui
deriving DecidableEq, Repr

/-- Kinds of slice NAL units (R284), and slice types (R226). -/
inductive NalKind
  | trail | idr | cra | rasl | radl
deriving DecidableEq, Repr

inductive SliceType
  | i | p | b
deriving DecidableEq, Repr

/-- What the headers of a picture's slices share: NAL unit kind, slice type, picture order count, reference lists. -/
structure PicHead where
  kind : NalKind
  slice : SliceType
  poc : Int
  list0 : List Int
  list1 : List Int
deriving DecidableEq, Repr

/-- A NAL unit, or the part of one that stands before slice data. -/
inductive Nal
  | delimiter (head : PicHead)
  | vps (p : ParamSet)
  | sps (p : ParamSet)
  | pps (p : ParamSet)
  /-- buffering period at an IRAP picture, with its initial removal delay; picture timing with the removal delay minus 1, the output
  delay, and pic_struct or the field of frame-field information -/
  | timing (initial : Option Nat) (removal output field : Nat)
  | hdr (mdcv cll : List Byte)
  | user (content : List Byte)
  | pictureHeader (head : PicHead)
  /-- header of a slice or segment: its first CTU, whether it is a dependent segment, its QP, the lengths behind its entry points -/
  | sliceHeader (head : PicHead) (first : Nat) (dependent : Bool) (qp : Int) (entries : List Nat)
  | hash (crc : List Byte)
  | endOfBitstream
deriving DecidableEq, Repr

/-- The bytes of a NAL unit, with its header and its emulation prevention bytes (assumption 107). -/
opaque nalBytes (vvc : Bool) : Nal → List Byte

/-- transport_stream_id of a die's flow of KIND 7 (R306): the spec states none. -/
opaque streamId (die flow : Nat) : Nat

end Sys2Proof.Config
end

