-- ==== Sys2Proof/Machine/Arith.lean ====
section
/-! DEFINITION. The named arithmetic of R19, the byte order of R16, and operations on sparse tables. -/

namespace Sys2Proof.Machine

/-- `shr_flr` (R19). -/
def shrFlr (x : Int) (n : Nat) : Int := Int.fdiv x (2 ^ n)

/-- `shr_rhu` (R19). -/
def shrRhu (x : Int) (n : Nat) : Int := if n = 0 then x else shrFlr (x + 2 ^ (n - 1)) n

/-- `shr_rne` (R19). -/
def shrRne (x : Int) (n : Nat) : Int :=
  if n = 0 then x
  else
    let q := shrFlr x n
    let r := x - q * 2 ^ n
    let half : Int := 2 ^ (n - 1)
    if r < half then q else if half < r then q + 1 else if q % 2 = 0 then q else q + 1

/-- `sat_u` (R19). -/
def satU (x : Int) (b : Nat) : Int := if x < 0 then 0 else if 2 ^ b - 1 < x then 2 ^ b - 1 else x

/-- `sat_s` (R19). -/
def satS (x : Int) (b : Nat) : Int :=
  if x < -(2 ^ (b - 1)) then -(2 ^ (b - 1)) else if 2 ^ (b - 1) - 1 < x then 2 ^ (b - 1) - 1 else x

/-- `clip3` (R19): the tests run in that order, so `lo` wins when `lo > hi`. -/
def clip3 (lo hi x : Int) : Int := if x < lo then lo else if hi < x then hi else x

/-- `div_flr` (R19). -/
def divFlr (a b : Int) : Int := Int.fdiv a b

/-- Ceiling of a quotient of naturals. -/
def ceilDiv (a b : Nat) : Nat := (a + b - 1) / b

/-- The magnitude of an integer. -/
def mag (x : Int) : Nat := x.natAbs

/-- Bytes, most significant first, as a number (R16). -/
def beNat (l : List Byte) : Nat := l.foldl (fun a b => a * 256 + b.toNat) 0

/-- A number as `n` bytes, most significant first (R16). -/
def natBe : Nat → Nat → List Byte
  | 0, _ => []
  | n + 1, v => BitVec.ofNat 8 (v / 256 ^ n) :: natBe n v

/-- `len` bytes of a byte string from `ofs`. -/
def bytesAt (l : List Byte) (ofs len : Nat) : List Byte := (l.drop ofs).take len

/-- A field of a byte string read as a number (R16). -/
def fieldAt (l : List Byte) (ofs len : Nat) : Nat := beNat (bytesAt l ofs len)

/-- A two's-complement number of `w` bits (R24). -/
def signed (w v : Nat) : Int :=
  let u := v % 2 ^ w
  if u < 2 ^ (w - 1) then (u : Int) else (u : Int) - 2 ^ w

/-- The low `w` bits of an integer as two's complement (R24). -/
def lowBits (w : Nat) (v : Int) : Nat := (v % (2 ^ w : Int)).toNat

/-- Bits `[hi:lo]` of a number (R16). -/
def bitsOf (v hi lo : Nat) : Nat := v / 2 ^ lo % 2 ^ (hi + 1 - lo)

/-- Bytes `v` written over a byte string at `ofs`, growing it with zeros when it is shorter. -/
def overlay (l : List Byte) (ofs : Nat) (v : List Byte) : List Byte :=
  (l ++ List.replicate (ofs + v.length - l.length) 0).take ofs ++ v ++ l.drop (ofs + v.length)

/-- The entry of a sparse table at `k`, or `d` where none is listed. -/
def tabGet {α : Type} (t : Tab α) (k : Nat) (d : α) : α :=
  match t with
  | [] => d
  | (k', v) :: r => if k' = k then v else tabGet r k d

/-- A sparse table with the entry at `k` made `v`. -/
def tabSet {α : Type} (t : Tab α) (k : Nat) (v : α) : Tab α :=
  match t with
  | [] => [(k, v)]
  | (k', v') :: r =>
    if k < k' then (k, v) :: (k', v') :: r
    else if k' = k then (k, v) :: r
    else (k', v') :: tabSet r k v

/-- A sparse table with the entry at `k` changed by `f`. -/
def tabUpd {α : Type} (t : Tab α) (k : Nat) (d : α) (f : α → α) : Tab α :=
  tabSet t k (f (tabGet t k d))

/-- A sparse table without an entry at `k`. -/
def tabDel {α : Type} (t : Tab α) (k : Nat) : Tab α := t.filter (fun e => decide (e.1 ≠ k))

/-- The keys of a sparse table rise strictly. -/
def tabWf {α : Type} : Tab α → Bool
  | [] => true
  | [_] => true
  | (k, _) :: (k', v') :: r => decide (k < k') && tabWf ((k', v') :: r)

/-- The first `n` natural numbers for which `p` holds, in ascending order. -/
def upto (n : Nat) (p : Nat → Bool) : List Nat := (List.range n).filter p

/-- The sum of a list of numbers given by `f`. -/
def sumOver {α : Type} (l : List α) (f : α → Nat) : Nat := l.foldl (fun a x => a + f x) 0

/-- One byte into a reflected CRC-32 register: eight conditional shifts by the reflected polynomial 0xEDB8_8320. -/
def crcByte (c : Nat) (b : Byte) : Nat :=
  let step := fun (x : Nat) => if x % 2 = 1 then (x / 2) ^^^ 0xEDB88320 else x / 2
  let x := c ^^^ b.toNat
  step (step (step (step (step (step (step (step x)))))))

/-- The CRC-32 of IEEE 802.3: polynomial 0x04C1_1DB7, initial value all ones, reflected, final XOR all ones
(R101). -/
def crc32 (l : List Byte) : Nat := (l.foldl crcByte 0xFFFFFFFF) ^^^ 0xFFFFFFFF

/-- An element placed in a list before the first one it does not come after. -/
def insertBy {α : Type} (le : α → α → Bool) (x : α) : List α → List α
  | [] => [x]
  | y :: l => if le x y then x :: y :: l else y :: insertBy le x l

/-- A list in the order of `le`; equal elements keep their places. -/
def sortBy {α : Type} (le : α → α → Bool) (l : List α) : List α := l.foldr (insertBy le) []

end Sys2Proof.Machine
end

