-- ==== Sys2Proof/Machine/Raster.lean ====
section
/-! DEFINITION. Raster formats, coordinates and instants (R22, R70–R75): every raster is a pure function of
time, computed without rounding. -/

namespace Sys2Proof.Machine

/-- A reference coordinate (R22). -/
structure Coord where
  frame : Nat
  line : Nat
  sample : Nat
deriving DecidableEq, Repr

/-- A raster format: rate `num / den`, lines per frame, samples per line (R70). -/
structure Format where
  num : Nat
  den : Nat
  lines : Nat
  samples : Nat
  family : Nat
deriving DecidableEq, Repr

/-- The rate table of R70. -/
def rateOf (c : Nat) : Option (Nat × Nat) :=
  match c with
  | 1 => some (24000, 1001)
  | 2 => some (24, 1)
  | 3 => some (25, 1)
  | 4 => some (30000, 1001)
  | 5 => some (30, 1)
  | 6 => some (50, 1)
  | 7 => some (60000, 1001)
  | 8 => some (60, 1)
  | 9 => some (100, 1)
  | 10 => some (120000, 1001)
  | 11 => some (120, 1)
  | _ => none

/-- The family table of R70: lines and samples of a family at a rate code, where the combination exists. -/
def familyOf (fam rate : Nat) : Option (Nat × Nat) :=
  match fam with
  | 1 => if rate = 4 then some (525, 858) else none
  | 2 => if rate = 3 then some (625, 864) else none
  | 3 => if rate = 6 then some (750, 1980) else if rate = 7 ∨ rate = 8 then some (750, 1650) else none
  | 4 => if rate = 3 then some (1125, 2640) else if rate = 4 ∨ rate = 5 then some (1125, 2200) else none
  | 5 =>
    if rate = 1 ∨ rate = 2 then some (1125, 2750)
    else if rate = 3 ∨ rate = 6 ∨ rate = 9 then some (1125, 2640)
    else if rate ∈ [4, 5, 7, 8, 10, 11] then some (1125, 2200) else none
  | 6 =>
    if rate = 1 ∨ rate = 2 then some (2250, 5500)
    else if rate = 3 ∨ rate = 6 ∨ rate = 9 then some (2250, 5280)
    else if rate ∈ [4, 5, 7, 8, 10, 11] then some (2250, 4400) else none
  | 7 =>
    if rate = 6 ∨ rate = 9 then some (4500, 10560)
    else if rate ∈ [7, 8, 10, 11] then some (4500, 8800) else none
  | _ => none

/-- The format a 16-bit code names, if it exists (R70). -/
def formatOf (code : Nat) : Option Format :=
  let fam := code / 256
  let rate := code % 256
  match rateOf rate, familyOf fam rate with
  | some (n, d), some (l, s) => some ⟨n, d, l, s, fam⟩
  | _, _ => none

/-- The format of a code, 2160p59.94 (the default of every format object) where the code names none; every
format object is range-checked, so the second case does not arise from a write. -/
def fmt (code : Nat) : Format := (formatOf code).getD ⟨60000, 1001, 2250, 4400, 6⟩

/-- Whether a code is allowed as the Reference Raster (R70, last column). -/
def refAllowed (code : Nat) : Bool :=
  (code ∈ [0x0506, 0x0507, 0x0508]) || (code ∈ [0x0606, 0x0609, 0x0607, 0x0608, 0x060A, 0x060B])
    || (code / 256 == 7 && (formatOf code).isSome)

/-- Whether a family is interlaced (R70). -/
def interlaced (fam : Nat) : Bool := fam ∈ [1, 2, 4]

/-- First line of field 2 of an interlaced family (R70). -/
def field2Line (fam : Nat) : Nat := match fam with | 1 => 266 | 2 => 313 | 4 => 564 | _ => 0

/-- The switch line of a family (R74). -/
def switchLine (fam : Nat) : Nat :=
  match fam with | 1 => 10 | 2 => 6 | 3 => 7 | 4 => 7 | 5 => 7 | 6 => 14 | 7 => 28 | _ => 1

/-- First and last active line of field 1 (R74). -/
def activeLines1 (fam : Nat) : Nat × Nat :=
  match fam with
  | 1 => (21, 263) | 2 => (23, 310) | 3 => (26, 745) | 4 => (21, 560) | 5 => (42, 1121) | 6 => (83, 2242)
  | 7 => (165, 4484) | _ => (1, 0)

/-- First and last active line of field 2, where the family has one (R74). -/
def activeLines2 (fam : Nat) : Option (Nat × Nat) :=
  match fam with
  | 1 => some (283, 525) | 2 => some (336, 623) | 4 => some (584, 1123) | _ => none

/-- Samples per frame. -/
def Format.perFrame (f : Format) : Nat := f.lines * f.samples

/-- One second of the time base. -/
def nsPerSec : Nat := 1000000000

/-- The mapping from PTP time (in ns) to the coordinate of a raster with offset `ofs` (R72). -/
def coordOf (f : Format) (ofs t : Nat) : Coord :=
  let d := f.den * nsPerSec
  let frame := t * f.num / d
  let r := t * f.num - frame * d
  let k0 : Int := ((r * f.lines * f.samples / d : Nat) : Int) - ofs
  let frame' := if k0 < 0 then frame - 1 else frame
  let k := if k0 < 0 then (k0 + f.perFrame).toNat else k0.toNat
  ⟨frame', 1 + k / f.samples, k % f.samples⟩

/-- An exact instant: `n / d` nanoseconds (R73). -/
structure Instant where
  n : Nat
  d : Nat
deriving DecidableEq, Repr

/-- The instant at which a coordinate of a raster begins (R73). -/
def instantOf (f : Format) (ofs : Nat) (c : Coord) : Instant :=
  ⟨(c.frame * f.perFrame + (c.line - 1) * f.samples + c.sample + ofs) * f.den * nsPerSec, f.num * f.perFrame⟩

/-- The instant of a whole nanosecond. -/
def Instant.ofNs (t : Nat) : Instant := ⟨t, 1⟩

/-- Instants are compared by cross-multiplication (R73). -/
def Instant.le (a b : Instant) : Bool := decide (a.n * b.d ≤ b.n * a.d)

/-- Strictly earlier (R73). -/
def Instant.lt (a b : Instant) : Bool := decide (a.n * b.d < b.n * a.d)

/-- An instant moved later by whole nanoseconds. -/
def Instant.addNs (a : Instant) (t : Nat) : Instant := ⟨a.n + t * a.d, a.d⟩

/-- The first whole nanosecond at or after an instant. -/
def Instant.ceilNs (a : Instant) : Nat := ceilDiv a.n a.d

/-- Coordinates of one format are ordered by frame, then line, then sample (R22). -/
def Coord.lt (a b : Coord) : Bool :=
  decide (a.frame < b.frame) || (a.frame == b.frame &&
    (decide (a.line < b.line) || (a.line == b.line && decide (a.sample < b.sample))))

/-- The line that lies `n` lines before or after a coordinate's line start, as a count of lines since the
epoch. -/
def Coord.absLine (f : Format) (c : Coord) : Nat := c.frame * f.lines + (c.line - 1)

/-- Sample 0 of the first occurrence of line `l` of a raster at or after instant `t` (R75): the landing
point of an action cued at `t`. -/
def landing (f : Format) (ofs l : Nat) (t : Instant) : Coord :=
  let g := (coordOf f ofs (t.n / t.d)).frame
  let c0 : Coord := ⟨g, l, 0⟩
  if t.le (instantOf f ofs c0) then c0
  else
    let c1 : Coord := ⟨g + 1, l, 0⟩
    if t.le (instantOf f ofs c1) then c1 else ⟨g + 2, l, 0⟩

/-- The duration of `n` lines in ns, rounded down. -/
def linesNs (f : Format) (n : Nat) : Nat := n * f.den * nsPerSec / (f.num * f.lines)

end Sys2Proof.Machine
end

