-- ==== Sys2Proof/Machine/Objects.lean ====
section
/-! DEFINITION. The object dictionary's table (R23–R30): one definition per row of the spec's object tables,
with type, access, persistence, default, range, the dies it exists on and its instance count. A number whose
default the table leaves out starts at 0 unless `ObjDef.start` says otherwise (assumption 5). -/

namespace Sys2Proof.Machine

/-- Object types (R24). A fixed-point object is a signed or unsigned integer of its width (R17). -/
inductive ObjType where
  | u8 | u16 | u32 | u64 | s8 | s16 | s32 | s64 | enum8 | enum16 | bits8 | bits16 | bits32
  | str (n : Nat) | domain (n : Nat) | domainMax (n : Nat)
deriving DecidableEq, Repr

/-- Access codes (R25). -/
inductive Access where
  | ro | rw | rwc | w1c | wo | const
deriving DecidableEq, Repr

/-- The stated range of an object's values (R15). -/
inductive Rng where
  /-- every value of the type -/
  | full
  | between (lo hi : Int)
  | oneOf (l : List Int)
  /-- 0, or a value of the range -/
  | zeroOr (lo hi : Int)
  /-- the one value that stands for none, or 0 to `hi` -/
  | noneOr (none hi : Int)
  /-- no bit outside the mask -/
  | mask (m : Nat)
  /-- a raster format code of R70 -/
  | format
  | formatOrZero
  /-- a format code allowed as the Reference Raster -/
  | refFormat
deriving DecidableEq, Repr

/-- The dies an object exists on. -/
inductive DieSet where
  | p | c | ab | abc | abp
deriving DecidableEq, Repr

/-- One row of an object table. `count` is the number of instances, `countC` the number on die C. -/
structure ObjDef where
  index : Nat
  sub : Nat
  ty : ObjType
  acc : Access
  persist : Bool
  dflt : Int
  rng : Rng
  dies : DieSet
  count : Nat
  countC : Nat
deriving DecidableEq, Repr

/-- Whether an object exists on a die. -/
def DieSet.has : DieSet → Die → Bool
  | .p, .p => true
  | .c, .c => true
  | .ab, .a => true
  | .ab, .b => true
  | .abc, .a => true
  | .abc, .b => true
  | .abc, .c => true
  | .abp, .a => true
  | .abp, .b => true
  | .abp, .p => true
  | _, _ => false

/-- The address of an instance of an object on a die. -/
def ObjDef.addr (o : ObjDef) (d : Die) (i : Nat) : ObjAddr := ⟨d, o.index, o.sub, i⟩

/-- The number of instances on a die. -/
def ObjDef.instances (o : ObjDef) (d : Die) : Nat := match d with | .c => o.countC | _ => o.count

/-- 0x1000.01 `ID.PART`. -/
def Obj.idPart : ObjDef := ⟨0x1000, 0x01, (.str 16), .const, false, 0, .full, .p, 1, 1⟩
/-- 0x1000.02 `ID.STEPPING`. -/
def Obj.idStepping : ObjDef := ⟨0x1000, 0x02, (.str 4), .const, false, 0, .full, .p, 1, 1⟩
/-- 0x1000.03 `ID.GRADE`. -/
def Obj.idGrade : ObjDef := ⟨0x1000, 0x03, .enum8, .const, false, 0, .full, .p, 1, 1⟩
/-- 0x1000.04 `ID.SERIAL`. -/
def Obj.idSerial : ObjDef := ⟨0x1000, 0x04, .u64, .const, false, 0, .full, .p, 1, 1⟩
/-- 0x1000.05 `ID.FW.VERSION`. -/
def Obj.idFwVersion : ObjDef := ⟨0x1000, 0x05, .u32, .ro, false, 0, .full, .p, 1, 1⟩
/-- 0x1100.01 `PWR.STATUS`. -/
def Obj.pwrStatus : ObjDef := ⟨0x1100, 0x01, .bits16, .ro, false, 0, .full, .abc, 1, 1⟩
/-- 0x1100.02 `PWR.STICKY`. -/
def Obj.pwrSticky : ObjDef := ⟨0x1100, 0x02, .bits16, .w1c, false, 0, (.mask 32895), .abc, 1, 1⟩
/-- 0x1100.03 `PWR.BROWNOUT.COUNT`. -/
def Obj.pwrBrownoutCount : ObjDef := ⟨0x1100, 0x03, .u32, .ro, true, 0, .full, .abc, 1, 1⟩
/-- 0x1101.01 `PWR.RAIL.VOLTAGE`. -/
def Obj.pwrRailVoltage : ObjDef := ⟨0x1101, 0x01, .u16, .ro, false, 0, .full, .abc, 7, 5⟩
/-- 0x1101.02 `PWR.RAIL.DIP.MIN`. -/
def Obj.pwrRailDipMin : ObjDef := ⟨0x1101, 0x02, .u16, .ro, true, 0, .full, .abc, 7, 5⟩
/-- 0x1101.03 `PWR.RAIL.BROWNOUT.COUNT`. -/
def Obj.pwrRailBrownoutCount : ObjDef := ⟨0x1101, 0x03, .u32, .ro, true, 0, .full, .abc, 7, 5⟩
/-- 0x1102.01 `PWR.SECTION.STATE`. -/
def Obj.pwrSectionState : ObjDef := ⟨0x1102, 0x01, .enum8, .ro, false, 0, .full, .abc, 30, 4⟩
/-- 0x1102.02 `PWR.SECTION.POWER`. -/
def Obj.pwrSectionPower : ObjDef := ⟨0x1102, 0x02, .u16, .ro, false, 0, .full, .abc, 30, 4⟩
/-- 0x1103.01 `THERM.TJ`. -/
def Obj.thermTj : ObjDef := ⟨0x1103, 0x01, .s16, .ro, false, 0, .full, .abc, 1, 1⟩
/-- 0x1103.02 `THERM.TJ.PEAK`. -/
def Obj.thermTjPeak : ObjDef := ⟨0x1103, 0x02, .s16, .ro, false, 0, .full, .abc, 1, 1⟩
/-- 0x1103.03 `THERM.STATUS`. -/
def Obj.thermStatus : ObjDef := ⟨0x1103, 0x03, .bits8, .ro, false, 0, .full, .abc, 1, 1⟩
/-- 0x1103.04 `THERM.STICKY`. -/
def Obj.thermSticky : ObjDef := ⟨0x1103, 0x04, .bits8, .w1c, false, 0, (.mask 7), .abc, 1, 1⟩
/-- 0x1103.05 `THERM.COUNT`. -/
def Obj.thermCount : ObjDef := ⟨0x1103, 0x05, .u32, .ro, true, 0, .full, .abc, 1, 1⟩
/-- 0x1104.01 `THERM.SENSOR.TEMP`. -/
def Obj.thermSensorTemp : ObjDef := ⟨0x1104, 0x01, .s16, .ro, false, 0, .full, .abc, 12, 4⟩
/-- 0x1105.01 `RST.CAUSE`. -/
def Obj.rstCause : ObjDef := ⟨0x1105, 0x01, .enum8, .ro, false, 0, .full, .abc, 1, 1⟩
/-- 0x1105.02 `RST.COUNT`. -/
def Obj.rstCount : ObjDef := ⟨0x1105, 0x02, .u32, .ro, true, 0, .full, .abc, 1, 1⟩
/-- 0x1105.03 `RST.REQUEST`. -/
def Obj.rstRequest : ObjDef := ⟨0x1105, 0x03, .enum8, .wo, false, 0, (.between (1) 3), .abp, 1, 1⟩
/-- 0x1200.01 `TIME.STATE`. -/
def Obj.timeState : ObjDef := ⟨0x1200, 0x01, .enum8, .ro, false, 0, .full, .c, 1, 1⟩
/-- 0x1200.02 `TIME.STATUS`. -/
def Obj.timeStatus : ObjDef := ⟨0x1200, 0x02, .bits16, .ro, false, 0, .full, .c, 1, 1⟩
/-- 0x1200.03 `TIME.STICKY`. -/
def Obj.timeSticky : ObjDef := ⟨0x1200, 0x03, .bits16, .w1c, false, 0, (.mask 63), .c, 1, 1⟩
/-- 0x1200.04 `TIME.COUNT`. -/
def Obj.timeCount : ObjDef := ⟨0x1200, 0x04, .u32, .ro, true, 0, .full, .c, 1, 1⟩
/-- 0x1200.05 `TIME.SOURCE`. -/
def Obj.timeSource : ObjDef := ⟨0x1200, 0x05, .enum8, .rwc, true, 0, (.between (0) 2), .c, 1, 1⟩
/-- 0x1200.06 `TIME.OFFSET`. -/
def Obj.timeOffset : ObjDef := ⟨0x1200, 0x06, .s64, .ro, false, 0, .full, .c, 1, 1⟩
/-- 0x1200.07 `TIME.SLEW.MAX`. -/
def Obj.timeSlewMax : ObjDef := ⟨0x1200, 0x07, .u16, .rw, true, 50, (.between (1) 1000), .c, 1, 1⟩
/-- 0x1200.08 `TIME.STEP.THRESHOLD`. -/
def Obj.timeStepThreshold : ObjDef := ⟨0x1200, 0x08, .u32, .rw, true, 1000, (.between (100) 1000000000), .c, 1, 1⟩
/-- 0x1200.09 `TIME.STEP.REQUEST`. -/
def Obj.timeStepRequest : ObjDef := ⟨0x1200, 0x09, .enum8, .wo, false, 0, (.between (1) 1), .c, 1, 1⟩
/-- 0x1200.0A `TIME.FREERUN.ALLOW`. -/
def Obj.timeFreerunAllow : ObjDef := ⟨0x1200, 0x0A, .enum8, .rwc, true, 0, (.between (0) 1), .c, 1, 1⟩
/-- 0x1200.0B `TIME.HOLDOVER.ELAPSED`. -/
def Obj.timeHoldoverElapsed : ObjDef := ⟨0x1200, 0x0B, .u32, .ro, false, 0, .full, .c, 1, 1⟩
/-- 0x1200.0C `TIME.NOW`. -/
def Obj.timeNow : ObjDef := ⟨0x1200, 0x0C, (.domain 10), .ro, false, 0, .full, .c, 1, 1⟩
/-- 0x1200.0D `TIME.PPS.SECONDS.SET`. -/
def Obj.timePpsSecondsSet : ObjDef := ⟨0x1200, 0x0D, .u64, .wo, false, 0, (.between (1000000) 281474976710655), .c, 1, 1⟩
/-- 0x1201.01 `PTP.DOMAIN`. -/
def Obj.ptpDomain : ObjDef := ⟨0x1201, 0x01, .u8, .rwc, true, 127, (.between (0) 127), .c, 1, 1⟩
/-- 0x1201.02 `PTP.SYNC.INTERVAL`. -/
def Obj.ptpSyncInterval : ObjDef := ⟨0x1201, 0x02, .s8, .rwc, true, (-3), (.between (-7) 0), .c, 1, 1⟩
/-- 0x1201.03 `PTP.ANNOUNCE.INTERVAL`. -/
def Obj.ptpAnnounceInterval : ObjDef := ⟨0x1201, 0x03, .s8, .rwc, true, (-2), (.between (-3) 1), .c, 1, 1⟩
/-- 0x1201.04 `PTP.ANNOUNCE.TIMEOUT`. -/
def Obj.ptpAnnounceTimeout : ObjDef := ⟨0x1201, 0x04, .u8, .rwc, true, 3, (.between (2) 10), .c, 1, 1⟩
/-- 0x1201.05 `PTP.DELAYREQ.INTERVAL`. -/
def Obj.ptpDelayreqInterval : ObjDef := ⟨0x1201, 0x05, .s8, .rwc, true, (-3), (.between (-7) 0), .c, 1, 1⟩
/-- 0x1201.06 `PTP.PRIORITY1`. -/
def Obj.ptpPriority1 : ObjDef := ⟨0x1201, 0x06, .u8, .rwc, true, 128, .full, .c, 1, 1⟩
/-- 0x1201.07 `PTP.PRIORITY2`. -/
def Obj.ptpPriority2 : ObjDef := ⟨0x1201, 0x07, .u8, .rwc, true, 128, .full, .c, 1, 1⟩
/-- 0x1201.08 `PTP.GM.IDENTITY`. -/
def Obj.ptpGmIdentity : ObjDef := ⟨0x1201, 0x08, .u64, .ro, false, 0, .full, .c, 1, 1⟩
/-- 0x1201.09 `PTP.SM.TLV`. -/
def Obj.ptpSmTlv : ObjDef := ⟨0x1201, 0x09, (.domain 64), .ro, false, 0, .full, .c, 1, 1⟩
/-- 0x1202.01 `PTP.PORT.BINDING`. -/
def Obj.ptpPortBinding : ObjDef := ⟨0x1202, 0x01, .u16, .rwc, true, 0xFFFF, .full, .c, 8, 8⟩
/-- 0x1202.02 `PTP.PORT.ROLE`. -/
def Obj.ptpPortRole : ObjDef := ⟨0x1202, 0x02, .enum8, .rwc, true, 0, (.between (0) 3), .c, 8, 8⟩
/-- 0x1202.03 `PTP.PORT.STATE`. -/
def Obj.ptpPortState : ObjDef := ⟨0x1202, 0x03, .enum8, .ro, false, 0, .full, .c, 8, 8⟩
/-- 0x1203.01 `TIME.REF.FORMAT`. -/
def Obj.timeRefFormat : ObjDef := ⟨0x1203, 0x01, .enum16, .rwc, true, 0x0607, .refFormat, .ab, 1, 1⟩
/-- 0x1210.01 `TIME.CUE.ENTRY`. -/
def Obj.timeCueEntry : ObjDef := ⟨0x1210, 0x01, (.domain 32), .rw, false, 0, .full, .ab, 1024, 1024⟩
/-- 0x1210.02 `TIME.CUE.STATE`. -/
def Obj.timeCueState : ObjDef := ⟨0x1210, 0x02, .enum8, .ro, false, 0, .full, .ab, 1024, 1024⟩
/-- 0x1210.03 `TIME.CUE.ARM`. -/
def Obj.timeCueArm : ObjDef := ⟨0x1210, 0x03, .enum8, .wo, false, 0, (.between (1) 2), .ab, 1024, 1024⟩
/-- 0x1211.01 `TIME.CUE.GROUP.ARM`. -/
def Obj.timeCueGroupArm : ObjDef := ⟨0x1211, 0x01, .u8, .wo, false, 0, .full, .ab, 1, 1⟩
/-- 0x1211.02 `TIME.CUE.GROUP.DISARM`. -/
def Obj.timeCueGroupDisarm : ObjDef := ⟨0x1211, 0x02, .u8, .wo, false, 0, .full, .ab, 1, 1⟩
/-- 0x1211.03 `TIME.CUE.LATE.COUNT`. -/
def Obj.timeCueLateCount : ObjDef := ⟨0x1211, 0x03, .u32, .ro, false, 0, .full, .ab, 1, 1⟩
/-- 0x3F10.01 `EVT.DSEQ.NEXT`. -/
def Obj.evtDseqNext : ObjDef := ⟨0x3F10, 0x01, .u32, .ro, false, 0, .full, .abc, 1, 1⟩
/-- 0x3F10.02 `EVT.DROP.COUNT`. -/
def Obj.evtDropCount : ObjDef := ⟨0x3F10, 0x02, .u32, .ro, false, 0, .full, .ab, 1, 1⟩
/-- 0x1300.01 `LANE.STATUS`. -/
def Obj.laneStatus : ObjDef := ⟨0x1300, 0x01, .bits16, .ro, false, 0, .full, .ab, 32, 32⟩
/-- 0x1300.02 `LANE.STICKY`. -/
def Obj.laneSticky : ObjDef := ⟨0x1300, 0x02, .bits16, .w1c, false, 0, (.mask 63), .ab, 32, 32⟩
/-- 0x1300.03 `LANE.COUNT`. -/
def Obj.laneCount : ObjDef := ⟨0x1300, 0x03, .u32, .ro, false, 0, .full, .ab, 32, 32⟩
/-- 0x1300.04 `LANE.FEC.CORRECTED`. -/
def Obj.laneFecCorrected : ObjDef := ⟨0x1300, 0x04, .u64, .ro, false, 0, .full, .ab, 32, 32⟩
/-- 0x1300.05 `LANE.FEC.UNCORRECTED`. -/
def Obj.laneFecUncorrected : ObjDef := ⟨0x1300, 0x05, .u64, .ro, false, 0, .full, .ab, 32, 32⟩
/-- 0x1300.06 `LANE.FEC.SYMBOLS`. -/
def Obj.laneFecSymbols : ObjDef := ⟨0x1300, 0x06, .u64, .ro, false, 0, .full, .ab, 32, 32⟩
/-- 0x1300.07 `LANE.FEC.DEGRADE`. -/
def Obj.laneFecDegrade : ObjDef := ⟨0x1300, 0x07, .u32, .rw, true, 5000000, (.between (1) 4294967295), .ab, 32, 32⟩
/-- 0x1300.08 `LANE.STATE`. -/
def Obj.laneState : ObjDef := ⟨0x1300, 0x08, .enum8, .ro, false, 0, .full, .ab, 32, 32⟩
/-- 0x1300.09 `LANE.STATE.REQUEST`. -/
def Obj.laneStateRequest : ObjDef := ⟨0x1300, 0x09, .enum8, .rw, false, 0, (.between (0) 2), .ab, 32, 32⟩
/-- 0x1300.0A `LANE.LOOPBACK`. -/
def Obj.laneLoopback : ObjDef := ⟨0x1300, 0x0A, .enum8, .rw, false, 0, (.between (0) 2), .ab, 32, 32⟩
/-- 0x1300.0B `LANE.PATTERN.TX`. -/
def Obj.lanePatternTx : ObjDef := ⟨0x1300, 0x0B, .enum8, .rw, false, 0, (.between (0) 5), .ab, 32, 32⟩
/-- 0x1300.0C `LANE.PATTERN.RX`. -/
def Obj.lanePatternRx : ObjDef := ⟨0x1300, 0x0C, .enum8, .rw, false, 0, (.oneOf [0, 1, 2, 3, 5]), .ab, 32, 32⟩
/-- 0x1300.0D `LANE.PATTERN.USER`. -/
def Obj.lanePatternUser : ObjDef := ⟨0x1300, 0x0D, .u64, .rw, false, 0, .full, .ab, 32, 32⟩
/-- 0x1300.0E `LANE.PATTERN.ERRORS`. -/
def Obj.lanePatternErrors : ObjDef := ⟨0x1300, 0x0E, .u64, .ro, false, 0, .full, .ab, 32, 32⟩
/-- 0x1300.0F `LANE.PATTERN.BITS`. -/
def Obj.lanePatternBits : ObjDef := ⟨0x1300, 0x0F, .u64, .ro, false, 0, .full, .ab, 32, 32⟩
/-- 0x1300.10 `LANE.FEC.BYPASS`. -/
def Obj.laneFecBypass : ObjDef := ⟨0x1300, 0x10, .enum8, .rw, false, 0, (.between (0) 1), .ab, 32, 32⟩
/-- 0x1301.01 `QUAD.MODE`. -/
def Obj.quadMode : ObjDef := ⟨0x1301, 0x01, .enum8, .rwc, true, 0, (.between (0) 4), .ab, 8, 8⟩
/-- 0x1301.02 `QUAD.STATUS`. -/
def Obj.quadStatus : ObjDef := ⟨0x1301, 0x02, .bits8, .ro, false, 0, .full, .ab, 8, 8⟩
/-- 0x1302.01 `CAGE.WIDTH`. -/
def Obj.cageWidth : ObjDef := ⟨0x1302, 0x01, .enum8, .rwc, true, 4, (.oneOf [4, 8]), .ab, 8, 8⟩
/-- 0x1302.02 `CAGE.POWER.MAX`. -/
def Obj.cagePowerMax : ObjDef := ⟨0x1302, 0x02, .u8, .rwc, true, 80, (.between (1) 255), .ab, 8, 8⟩
/-- 0x1302.03 `CAGE.STANDBY.KEEP`. -/
def Obj.cageStandbyKeep : ObjDef := ⟨0x1302, 0x03, .enum8, .rwc, true, 0, (.between (0) 1), .ab, 8, 8⟩
/-- 0x1302.04 `CAGE.STATUS`. -/
def Obj.cageStatus : ObjDef := ⟨0x1302, 0x04, .bits16, .ro, false, 0, .full, .ab, 8, 8⟩
/-- 0x1302.05 `CAGE.STICKY`. -/
def Obj.cageSticky : ObjDef := ⟨0x1302, 0x05, .bits16, .w1c, false, 0, (.mask 31), .ab, 8, 8⟩
/-- 0x1302.06 `CAGE.COUNT`. -/
def Obj.cageCount : ObjDef := ⟨0x1302, 0x06, .u32, .ro, true, 0, .full, .ab, 8, 8⟩
/-- 0x1302.07 `CAGE.MODULE.ID`. -/
def Obj.cageModuleId : ObjDef := ⟨0x1302, 0x07, (.domain 61), .ro, false, 0, .full, .ab, 8, 8⟩
/-- 0x1302.08 `CAGE.MODULE.CLASS`. -/
def Obj.cageModuleClass : ObjDef := ⟨0x1302, 0x08, .u8, .ro, false, 0xFF, .full, .ab, 8, 8⟩
/-- 0x1302.09 `CAGE.MODULE.TEMP`. -/
def Obj.cageModuleTemp : ObjDef := ⟨0x1302, 0x09, .s16, .ro, false, 0, .full, .ab, 8, 8⟩
/-- 0x1302.0A `CAGE.WEAR.RECORD`. -/
def Obj.cageWearRecord : ObjDef := ⟨0x1302, 0x0A, .u16, .ro, false, 0xFFFF, .full, .ab, 8, 8⟩
/-- 0x1302.0B `CAGE.POLL.SKIP.COUNT`. -/
def Obj.cagePollSkipCount : ObjDef := ⟨0x1302, 0x0B, .u32, .ro, false, 0, .full, .ab, 8, 8⟩
/-- 0x1310.01 `LANE.EQ.TABLE`. -/
def Obj.laneEqTable : ObjDef := ⟨0x1310, 0x01, (.domainMax 37412), .rwc, true, 0, .full, .p, 1, 1⟩
/-- 0x1310.02 `LANE.EQ.BOARD`. -/
def Obj.laneEqBoard : ObjDef := ⟨0x1310, 0x02, .u32, .ro, false, 0, .full, .p, 1, 1⟩
/-- 0x1320.01 `WEAR.RECORD`. -/
def Obj.wearRecord : ObjDef := ⟨0x1320, 0x01, (.domain 96), .ro, true, 0, .full, .p, 512, 512⟩
/-- 0x1320.02 `WEAR.BIAS.LIMIT`. -/
def Obj.wearBiasLimit : ObjDef := ⟨0x1320, 0x02, .u16, .rw, true, 200, (.between (10) 1000), .p, 1, 1⟩
/-- 0x1320.03 `WEAR.HOURS.LIMIT`. -/
def Obj.wearHoursLimit : ObjDef := ⟨0x1320, 0x03, .u32, .rw, true, 70000, (.between (1) 1000000), .p, 1, 1⟩
/-- 0x1320.04 `WEAR.HOT.LIMIT`. -/
def Obj.wearHotLimit : ObjDef := ⟨0x1320, 0x04, .u32, .rw, true, 20000, (.between (1) 1000000), .p, 1, 1⟩
/-- 0x1320.05 `WEAR.HOT.TEMP`. -/
def Obj.wearHotTemp : ObjDef := ⟨0x1320, 0x05, .u8, .rw, true, 70, (.between (40) 100), .p, 1, 1⟩
/-- 0x1400.01 `NET.PORT.MAC`. -/
def Obj.netPortMac : ObjDef := ⟨0x1400, 0x01, .u64, .const, false, 0, .full, .ab, 32, 32⟩
/-- 0x1400.02 `NET.PORT.MAC.SET`. -/
def Obj.netPortMacSet : ObjDef := ⟨0x1400, 0x02, .u64, .rwc, true, 0, .full, .ab, 32, 32⟩
/-- 0x1400.03 `NET.PORT.IPV4`. -/
def Obj.netPortIpv4 : ObjDef := ⟨0x1400, 0x03, .u32, .rwc, true, 0, .full, .ab, 32, 32⟩
/-- 0x1400.04 `NET.PORT.PREFIX`. -/
def Obj.netPortPrefix : ObjDef := ⟨0x1400, 0x04, .u8, .rwc, true, 24, (.between (1) 30), .ab, 32, 32⟩
/-- 0x1400.05 `NET.PORT.GATEWAY`. -/
def Obj.netPortGateway : ObjDef := ⟨0x1400, 0x05, .u32, .rwc, true, 0, .full, .ab, 32, 32⟩
/-- 0x1400.06 `NET.PORT.MAX.UDP`. -/
def Obj.netPortMaxUdp : ObjDef := ⟨0x1400, 0x06, .enum8, .rwc, true, 0, (.between (0) 1), .ab, 32, 32⟩
/-- 0x1400.07 `NET.PORT.STATUS`. -/
def Obj.netPortStatus : ObjDef := ⟨0x1400, 0x07, .bits8, .ro, false, 0, .full, .ab, 32, 32⟩
/-- 0x1400.08 `NET.PORT.STICKY`. -/
def Obj.netPortSticky : ObjDef := ⟨0x1400, 0x08, .bits8, .w1c, false, 0, (.mask 7), .ab, 32, 32⟩
/-- 0x1400.09 `NET.PORT.COUNT`. -/
def Obj.netPortCount : ObjDef := ⟨0x1400, 0x09, .u64, .ro, false, 0, .full, .ab, 32, 32⟩
/-- 0x1400.0A `NET.PORT.RX.OVERRUN.COUNT`. -/
def Obj.netPortRxOverrunCount : ObjDef := ⟨0x1400, 0x0A, .u64, .ro, false, 0, .full, .ab, 32, 32⟩
/-- 0x1410.01 `FLOW.IN.DESC`. -/
def Obj.flowInDesc : ObjDef := ⟨0x1410, 0x01, (.domain 64), .rwc, true, 0, .full, .ab, 4096, 4096⟩
/-- 0x1410.02 `FLOW.IN.FORMAT`. -/
def Obj.flowInFormat : ObjDef := ⟨0x1410, 0x02, .enum16, .rwc, true, 0x0607, .format, .ab, 4096, 4096⟩
/-- 0x1410.03 `FLOW.IN.OFS`. -/
def Obj.flowInOfs : ObjDef := ⟨0x1410, 0x03, .u32, .rwc, true, 0, .full, .ab, 4096, 4096⟩
/-- 0x1410.04 `FLOW.IN.STATUS`. -/
def Obj.flowInStatus : ObjDef := ⟨0x1410, 0x04, .bits8, .ro, false, 0, .full, .ab, 4096, 4096⟩
/-- 0x1410.05 `FLOW.IN.STICKY`. -/
def Obj.flowInSticky : ObjDef := ⟨0x1410, 0x05, .bits8, .w1c, false, 0, (.mask 31), .ab, 4096, 4096⟩
/-- 0x1410.06 `FLOW.IN.COUNT`. -/
def Obj.flowInCount : ObjDef := ⟨0x1410, 0x06, .u64, .ro, false, 0, .full, .ab, 4096, 4096⟩
/-- 0x1410.07 `FLOW.IN.REJECT.COUNT`. -/
def Obj.flowInRejectCount : ObjDef := ⟨0x1410, 0x07, .u64, .ro, false, 0, .full, .ab, 4096, 4096⟩
/-- 0x1410.08 `FLOW.IN.CONCEAL.COUNT`. -/
def Obj.flowInConcealCount : ObjDef := ⟨0x1410, 0x08, .u64, .ro, false, 0, .full, .ab, 4096, 4096⟩
/-- 0x1411.01 `FLOW.IN.LEG1.COUNT`. -/
def Obj.flowInLeg1Count : ObjDef := ⟨0x1411, 0x01, .u64, .ro, false, 0, .full, .ab, 4096, 4096⟩
/-- 0x1411.02 `FLOW.IN.LEG2.COUNT`. -/
def Obj.flowInLeg2Count : ObjDef := ⟨0x1411, 0x02, .u64, .ro, false, 0, .full, .ab, 4096, 4096⟩
/-- 0x1411.03 `FLOW.IN.DUP.COUNT`. -/
def Obj.flowInDupCount : ObjDef := ⟨0x1411, 0x03, .u64, .ro, false, 0, .full, .ab, 4096, 4096⟩
/-- 0x1411.04 `FLOW.IN.GAP.COUNT`. -/
def Obj.flowInGapCount : ObjDef := ⟨0x1411, 0x04, .u64, .ro, false, 0, .full, .ab, 4096, 4096⟩
/-- 0x1411.05 `FLOW.IN.LATE.COUNT`. -/
def Obj.flowInLateCount : ObjDef := ⟨0x1411, 0x05, .u64, .ro, false, 0, .full, .ab, 4096, 4096⟩
/-- 0x1411.06 `FLOW.IN.RESYNC.COUNT`. -/
def Obj.flowInResyncCount : ObjDef := ⟨0x1411, 0x06, .u32, .ro, false, 0, .full, .ab, 4096, 4096⟩
/-- 0x1420.01 `FLOW.OUT.DESC`. -/
def Obj.flowOutDesc : ObjDef := ⟨0x1420, 0x01, (.domain 64), .rwc, true, 0, .full, .ab, 4096, 4096⟩
/-- 0x1420.02 `FLOW.OUT.FORMAT`. -/
def Obj.flowOutFormat : ObjDef := ⟨0x1420, 0x02, .enum16, .rwc, true, 0x0607, .format, .ab, 4096, 4096⟩
/-- 0x1420.03 `FLOW.OUT.OFS`. -/
def Obj.flowOutOfs : ObjDef := ⟨0x1420, 0x03, .u32, .rwc, true, 0, .full, .ab, 4096, 4096⟩
/-- 0x1420.04 `FLOW.OUT.STATE`. -/
def Obj.flowOutState : ObjDef := ⟨0x1420, 0x04, .enum8, .ro, false, 0, .full, .ab, 4096, 4096⟩
/-- 0x1420.05 `FLOW.OUT.CONTROL`. -/
def Obj.flowOutControl : ObjDef := ⟨0x1420, 0x05, .enum8, .rw, false, 0, (.between (1) 2), .ab, 4096, 4096⟩
/-- 0x1420.06 `FLOW.OUT.STICKY`. -/
def Obj.flowOutSticky : ObjDef := ⟨0x1420, 0x06, .bits8, .w1c, false, 0, (.mask 7), .ab, 4096, 4096⟩
/-- 0x1420.07 `FLOW.OUT.COUNT`. -/
def Obj.flowOutCount : ObjDef := ⟨0x1420, 0x07, .u64, .ro, false, 0, .full, .ab, 4096, 4096⟩
/-- 0x1430.01 `QUE.LIMIT`. -/
def Obj.queLimit : ObjDef := ⟨0x1430, 0x01, .u32, .rwc, true, 256, (.between (1) 65536), .ab, 4096, 4096⟩
/-- 0x1430.02 `QUE.RESERVE`. -/
def Obj.queReserve : ObjDef := ⟨0x1430, 0x02, .u32, .rwc, true, 0, (.between (0) 65536), .ab, 4096, 4096⟩
/-- 0x1430.03 `QUE.WM.LEVEL`. -/
def Obj.queWmLevel : ObjDef := ⟨0x1430, 0x03, .u32, .rwc, true, 192, .full, .ab, 4096, 4096⟩
/-- 0x1430.04 `QUE.WM.HYST`. -/
def Obj.queWmHyst : ObjDef := ⟨0x1430, 0x04, .u32, .rwc, true, 16, .full, .ab, 4096, 4096⟩
/-- 0x1430.05 `QUE.DEPTH`. -/
def Obj.queDepth : ObjDef := ⟨0x1430, 0x05, .u32, .ro, false, 0, .full, .ab, 4096, 4096⟩
/-- 0x1430.06 `QUE.STATUS`. -/
def Obj.queStatus : ObjDef := ⟨0x1430, 0x06, .bits8, .ro, false, 0, .full, .ab, 4096, 4096⟩
/-- 0x1430.07 `QUE.STICKY`. -/
def Obj.queSticky : ObjDef := ⟨0x1430, 0x07, .bits8, .w1c, false, 0, (.mask 7), .ab, 4096, 4096⟩
/-- 0x1430.08 `QUE.WM.COUNT`. -/
def Obj.queWmCount : ObjDef := ⟨0x1430, 0x08, .u16, .ro, false, 0, .full, .ab, 4096, 4096⟩
/-- 0x1430.09 `QUE.DROP.COUNT`. -/
def Obj.queDropCount : ObjDef := ⟨0x1430, 0x09, .u64, .ro, false, 0, .full, .ab, 4096, 4096⟩
/-- 0x1431.01 `POOL.FREE`. -/
def Obj.poolFree : ObjDef := ⟨0x1431, 0x01, .u32, .ro, false, 65536, .full, .ab, 1, 1⟩
/-- 0x1431.02 `POOL.RESERVED`. -/
def Obj.poolReserved : ObjDef := ⟨0x1431, 0x02, .u32, .ro, false, 0, .full, .ab, 1, 1⟩
/-- 0x1500.01 `SCH.CLASS`. -/
def Obj.schClass : ObjDef := ⟨0x1500, 0x01, .u8, .rwc, true, 5, (.between (0) 7), .ab, 4096, 4096⟩
/-- 0x1500.02 `SCH.QUANTUM`. -/
def Obj.schQuantum : ObjDef := ⟨0x1500, 0x02, .u32, .rwc, true, 9216, (.between (1536) 65535), .ab, 4096, 4096⟩
/-- 0x1500.03 `SHP.RATE`. -/
def Obj.shpRate : ObjDef := ⟨0x1500, 0x03, .u64, .rw, true, 0, (.zeroOr 1000000 800000000000), .ab, 4096, 4096⟩
/-- 0x1500.04 `SHP.BURST`. -/
def Obj.shpBurst : ObjDef := ⟨0x1500, 0x04, .u32, .rw, true, 9216, (.between (1536) 16777215), .ab, 4096, 4096⟩
/-- 0x1500.05 `SHP.OVERHEAD`. -/
def Obj.shpOverhead : ObjDef := ⟨0x1500, 0x05, .u8, .rwc, true, 20, .full, .ab, 4096, 4096⟩
/-- 0x1500.06 `SHP.TOKENS`. -/
def Obj.shpTokens : ObjDef := ⟨0x1500, 0x06, .s64, .ro, false, 0, .full, .ab, 4096, 4096⟩
/-- 0x1501.01 `SHP.REFILL.PERIOD`. -/
def Obj.shpRefillPeriod : ObjDef := ⟨0x1501, 0x01, .enum8, .rwc, true, 2, (.between (0) 6), .ab, 1, 1⟩
/-- 0x1510.01 `GATE.ENABLE`. -/
def Obj.gateEnable : ObjDef := ⟨0x1510, 0x01, .enum8, .rw, true, 0, (.between (0) 1), .ab, 32, 32⟩
/-- 0x1510.02 `GATE.BASE`. -/
def Obj.gateBase : ObjDef := ⟨0x1510, 0x02, (.domain 10), .rw, true, 0, .full, .ab, 32, 32⟩
/-- 0x1510.03 `GATE.CYCLE.NUM`. -/
def Obj.gateCycleNum : ObjDef := ⟨0x1510, 0x03, .u32, .rw, true, 1000000, .full, .ab, 32, 32⟩
/-- 0x1510.04 `GATE.CYCLE.DEN`. -/
def Obj.gateCycleDen : ObjDef := ⟨0x1510, 0x04, .u16, .rw, true, 1, (.between (1) 65535), .ab, 32, 32⟩
/-- 0x1510.05 `GATE.LIST`. -/
def Obj.gateList : ObjDef := ⟨0x1510, 0x05, (.domainMax 2048), .rw, true, 0, .full, .ab, 32, 32⟩
/-- 0x1510.06 `GATE.COMMIT`. -/
def Obj.gateCommit : ObjDef := ⟨0x1510, 0x06, .enum8, .wo, false, 0, (.between (1) 1), .ab, 32, 32⟩
/-- 0x1510.07 `GATE.STATE`. -/
def Obj.gateState : ObjDef := ⟨0x1510, 0x07, .enum8, .ro, false, 0, .full, .ab, 32, 32⟩
/-- 0x1510.08 `GATE.START`. -/
def Obj.gateStart : ObjDef := ⟨0x1510, 0x08, (.domain 10), .ro, false, 0, .full, .ab, 32, 32⟩
/-- 0x1510.09 `GATE.COUNT`. -/
def Obj.gateCount : ObjDef := ⟨0x1510, 0x09, .u32, .ro, false, 0, .full, .ab, 32, 32⟩
/-- 0x1520.01 `PACE.TRO`. -/
def Obj.paceTro : ObjDef := ⟨0x1520, 0x01, .u32, .rwc, true, 0xFFFFFFFF, .full, .ab, 4096, 4096⟩
/-- 0x1520.02 `PACE.LATE.COUNT`. -/
def Obj.paceLateCount : ObjDef := ⟨0x1520, 0x02, .u64, .ro, false, 0, .full, .ab, 4096, 4096⟩
/-- 0x1600.01 `LOOM.STATUS`. -/
def Obj.loomStatus : ObjDef := ⟨0x1600, 0x01, .bits8, .ro, false, 0, .full, .ab, 1, 1⟩
/-- 0x1600.02 `LOOM.STICKY`. -/
def Obj.loomSticky : ObjDef := ⟨0x1600, 0x02, .bits8, .w1c, false, 0, (.mask 3), .ab, 1, 1⟩
/-- 0x1600.03 `LOOM.COUNT`. -/
def Obj.loomCount : ObjDef := ⟨0x1600, 0x03, .u32, .ro, false, 0, .full, .ab, 1, 1⟩
/-- 0x1600.04 `LOOM.AUDIO.RAMP`. -/
def Obj.loomAudioRamp : ObjDef := ⟨0x1600, 0x04, .enum8, .rw, true, 3, (.between (0) 5), .ab, 1, 1⟩
/-- 0x1600.05 `LOOM.BRIDGE.TX.USED`. -/
def Obj.loomBridgeTxUsed : ObjDef := ⟨0x1600, 0x05, .u8, .ro, false, 0, .full, .ab, 1, 1⟩
/-- 0x1600.06 `LOOM.BRIDGE.RX.USED`. -/
def Obj.loomBridgeRxUsed : ObjDef := ⟨0x1600, 0x06, .u8, .ro, false, 0, .full, .ab, 1, 1⟩
/-- 0x1601.01 `LOOM.SRC.BIND`. -/
def Obj.loomSrcBind : ObjDef := ⟨0x1601, 0x01, .u16, .ro, false, 0, .full, .ab, 256, 256⟩
/-- 0x1601.02 `LOOM.SRC.BOND`. -/
def Obj.loomSrcBond : ObjDef := ⟨0x1601, 0x02, .enum8, .ro, false, 1, .full, .ab, 256, 256⟩
/-- 0x1601.03 `LOOM.SRC.AUDIO.FIRST`. -/
def Obj.loomSrcAudioFirst : ObjDef := ⟨0x1601, 0x03, .u16, .rwc, true, 0xFFFF, (.noneOr 0xFFFF 2047), .ab, 256, 256⟩
/-- 0x1601.04 `LOOM.SRC.AUDIO.COUNT`. -/
def Obj.loomSrcAudioCount : ObjDef := ⟨0x1601, 0x04, .u8, .rwc, true, 0, (.between (0) 64), .ab, 256, 256⟩
/-- 0x1601.05 `LOOM.SRC.STATUS`. -/
def Obj.loomSrcStatus : ObjDef := ⟨0x1601, 0x05, .bits8, .ro, false, 0, .full, .ab, 256, 256⟩
/-- 0x1601.06 `LOOM.SRC.TAPS`. -/
def Obj.loomSrcTaps : ObjDef := ⟨0x1601, 0x06, .u8, .ro, false, 0, .full, .ab, 256, 256⟩
/-- 0x1602.01 `LOOM.DST.BIND`. -/
def Obj.loomDstBind : ObjDef := ⟨0x1602, 0x01, .u16, .rwc, true, 0, .full, .ab, 256, 256⟩
/-- 0x1602.02 `LOOM.DST.BOND`. -/
def Obj.loomDstBond : ObjDef := ⟨0x1602, 0x02, .enum8, .ro, false, 1, .full, .ab, 256, 256⟩
/-- 0x1602.03 `LOOM.DST.LOSS`. -/
def Obj.loomDstLoss : ObjDef := ⟨0x1602, 0x03, .enum8, .rw, true, 0, (.between (0) 2), .ab, 256, 256⟩
/-- 0x1602.04 `LOOM.DST.HOLD`. -/
def Obj.loomDstHold : ObjDef := ⟨0x1602, 0x04, .u16, .rw, true, 0, .full, .ab, 256, 256⟩
/-- 0x1602.05 `LOOM.DST.BACKUP`. -/
def Obj.loomDstBackup : ObjDef := ⟨0x1602, 0x05, .u32, .rw, true, 0, .full, .ab, 256, 256⟩
/-- 0x1602.06 `LOOM.DST.REVERT`. -/
def Obj.loomDstRevert : ObjDef := ⟨0x1602, 0x06, .enum8, .rw, true, 1, (.between (0) 1), .ab, 256, 256⟩
/-- 0x1602.07 `LOOM.DST.AUDIO.FIRST`. -/
def Obj.loomDstAudioFirst : ObjDef := ⟨0x1602, 0x07, .u16, .rwc, true, 0xFFFF, (.noneOr 0xFFFF 2047), .ab, 256, 256⟩
/-- 0x1602.08 `LOOM.DST.AUDIO.COUNT`. -/
def Obj.loomDstAudioCount : ObjDef := ⟨0x1602, 0x08, .u8, .rwc, true, 0, (.between (0) 64), .ab, 256, 256⟩
/-- 0x1602.09 `LOOM.DST.STATUS`. -/
def Obj.loomDstStatus : ObjDef := ⟨0x1602, 0x09, .bits8, .ro, false, 0, .full, .ab, 256, 256⟩
/-- 0x1602.0A `LOOM.DST.STICKY`. -/
def Obj.loomDstSticky : ObjDef := ⟨0x1602, 0x0A, .bits8, .w1c, false, 0, (.mask 15), .ab, 256, 256⟩
/-- 0x1602.0B `LOOM.DST.COUNT`. -/
def Obj.loomDstCount : ObjDef := ⟨0x1602, 0x0B, .u32, .ro, false, 0, .full, .ab, 256, 256⟩
/-- 0x1602.0C `LOOM.DST.LAG`. -/
def Obj.loomDstLag : ObjDef := ⟨0x1602, 0x0C, .u32, .ro, false, 0, .full, .ab, 256, 256⟩
/-- 0x1604.01 `LOOM.ROUTE.GROUP`. -/
def Obj.loomRouteGroup : ObjDef := ⟨0x1604, 0x01, .u8, .rw, true, 0, .full, .ab, 256, 256⟩
/-- 0x1604.02 `LOOM.ROUTE.SOURCE`. -/
def Obj.loomRouteSource : ObjDef := ⟨0x1604, 0x02, .u32, .rw, true, 0, .full, .ab, 256, 256⟩
/-- 0x1604.03 `LOOM.ROUTE.ACTIVE`. -/
def Obj.loomRouteActive : ObjDef := ⟨0x1604, 0x03, .u32, .ro, false, 0, .full, .ab, 256, 256⟩
/-- 0x1604.04 `LOOM.ROUTE.PENDING`. -/
def Obj.loomRoutePending : ObjDef := ⟨0x1604, 0x04, .u32, .ro, false, 0xFFFFFFFF, .full, .ab, 256, 256⟩
/-- 0x1604.05 `LOOM.ROUTE.AUDIO`. -/
def Obj.loomRouteAudio : ObjDef := ⟨0x1604, 0x05, .enum8, .rw, true, 0, (.between (0) 1), .ab, 256, 256⟩
/-- 0x1605.01 `LOOM.GROUP.COMMIT`. -/
def Obj.loomGroupCommit : ObjDef := ⟨0x1605, 0x01, .enum8, .wo, false, 0, (.between (1) 1), .abp, 256, 256⟩
/-- 0x1610.01 `FSY.SOURCE`. -/
def Obj.fsySource : ObjDef := ⟨0x1610, 0x01, .u16, .rwc, true, 0xFFFF, .full, .ab, 32, 32⟩
/-- 0x1610.02 `FSY.FORMAT`. -/
def Obj.fsyFormat : ObjDef := ⟨0x1610, 0x02, .enum16, .rwc, true, 0x0607, .format, .ab, 32, 32⟩
/-- 0x1610.03 `FSY.OFS`. -/
def Obj.fsyOfs : ObjDef := ⟨0x1610, 0x03, .u32, .rwc, true, 0, .full, .ab, 32, 32⟩
/-- 0x1610.04 `FSY.SLOTS`. -/
def Obj.fsySlots : ObjDef := ⟨0x1610, 0x04, .u8, .rwc, true, 4, (.between (3) 8), .ab, 32, 32⟩
/-- 0x1610.05 `FSY.POLICY`. -/
def Obj.fsyPolicy : ObjDef := ⟨0x1610, 0x05, .enum8, .rw, true, 0, (.between (0) 1), .ab, 32, 32⟩
/-- 0x1610.06 `FSY.WM.LEVEL`. -/
def Obj.fsyWmLevel : ObjDef := ⟨0x1610, 0x06, .u8, .rw, true, 2, .full, .ab, 32, 32⟩
/-- 0x1610.07 `FSY.WM.HYST`. -/
def Obj.fsyWmHyst : ObjDef := ⟨0x1610, 0x07, .u8, .rw, true, 1, .full, .ab, 32, 32⟩
/-- 0x1610.08 `FSY.FILL`. -/
def Obj.fsyFill : ObjDef := ⟨0x1610, 0x08, .u8, .ro, false, 0, .full, .ab, 32, 32⟩
/-- 0x1610.09 `FSY.RATE`. -/
def Obj.fsyRate : ObjDef := ⟨0x1610, 0x09, .s32, .ro, false, 0, .full, .ab, 32, 32⟩
/-- 0x1610.0A `FSY.STATUS`. -/
def Obj.fsyStatus : ObjDef := ⟨0x1610, 0x0A, .bits8, .ro, false, 0, .full, .ab, 32, 32⟩
/-- 0x1610.0B `FSY.STICKY`. -/
def Obj.fsySticky : ObjDef := ⟨0x1610, 0x0B, .bits8, .w1c, false, 0, (.mask 31), .ab, 32, 32⟩
/-- 0x1610.0C `FSY.WM.COUNT`. -/
def Obj.fsyWmCount : ObjDef := ⟨0x1610, 0x0C, .u16, .ro, false, 0, .full, .ab, 32, 32⟩
/-- 0x1610.0D `FSY.REPEAT.COUNT`. -/
def Obj.fsyRepeatCount : ObjDef := ⟨0x1610, 0x0D, .u64, .ro, false, 0, .full, .ab, 32, 32⟩
/-- 0x1610.0E `FSY.DROP.COUNT`. -/
def Obj.fsyDropCount : ObjDef := ⟨0x1610, 0x0E, .u64, .ro, false, 0, .full, .ab, 32, 32⟩
/-- 0x1700.01 `CNV.STATUS`. -/
def Obj.cnvStatus : ObjDef := ⟨0x1700, 0x01, .bits8, .ro, false, 0, .full, .ab, 1, 1⟩
/-- 0x1700.02 `CNV.STICKY`. -/
def Obj.cnvSticky : ObjDef := ⟨0x1700, 0x02, .bits8, .w1c, false, 0, (.mask 3), .ab, 1, 1⟩
/-- 0x1700.03 `CNV.COUNT`. -/
def Obj.cnvCount : ObjDef := ⟨0x1700, 0x03, .u32, .ro, false, 0, .full, .ab, 1, 1⟩
/-- 0x1701.01 `CNV.CHAIN.ENABLE`. -/
def Obj.cnvChainEnable : ObjDef := ⟨0x1701, 0x01, .enum8, .rwc, true, 0, (.between (0) 1), .ab, 32, 32⟩
/-- 0x1701.02 `CNV.CHAIN.SOURCE`. -/
def Obj.cnvChainSource : ObjDef := ⟨0x1701, 0x02, .u16, .rwc, true, 0xFFFF, .full, .ab, 32, 32⟩
/-- 0x1701.03 `CNV.CHAIN.IN.FORMAT`. -/
def Obj.cnvChainInFormat : ObjDef := ⟨0x1701, 0x03, .enum16, .rwc, true, 0x0607, .format, .ab, 32, 32⟩
/-- 0x1701.04 `CNV.CHAIN.IN.OFS`. -/
def Obj.cnvChainInOfs : ObjDef := ⟨0x1701, 0x04, .u32, .rwc, true, 0, .full, .ab, 32, 32⟩
/-- 0x1701.05 `CNV.CHAIN.IN.ATTR`. -/
def Obj.cnvChainInAttr : ObjDef := ⟨0x1701, 0x05, .u16, .rwc, true, 0x0110, .full, .ab, 32, 32⟩
/-- 0x1701.06 `CNV.CHAIN.OUT.FORMAT`. -/
def Obj.cnvChainOutFormat : ObjDef := ⟨0x1701, 0x06, .enum16, .rwc, true, 0x0607, .format, .ab, 32, 32⟩
/-- 0x1701.07 `CNV.CHAIN.OUT.OFS`. -/
def Obj.cnvChainOutOfs : ObjDef := ⟨0x1701, 0x07, .u32, .rwc, true, 0, .full, .ab, 32, 32⟩
/-- 0x1701.08 `CNV.CHAIN.OUT.ATTR`. -/
def Obj.cnvChainOutAttr : ObjDef := ⟨0x1701, 0x08, .u16, .rwc, true, 0x0110, .full, .ab, 32, 32⟩
/-- 0x1701.09 `CNV.CHAIN.MODE`. -/
def Obj.cnvChainMode : ObjDef := ⟨0x1701, 0x09, .enum8, .rwc, true, 0, (.between (0) 1), .ab, 32, 32⟩
/-- 0x1701.0A `CNV.CHAIN.FRC`. -/
def Obj.cnvChainFrc : ObjDef := ⟨0x1701, 0x0A, .u8, .rwc, true, 0xFF, (.oneOf [0, 1, 2, 3, 255]), .ab, 32, 32⟩
/-- 0x1701.0B `CNV.CHAIN.COMMIT`. -/
def Obj.cnvChainCommit : ObjDef := ⟨0x1701, 0x0B, .enum8, .wo, false, 0, (.between (1) 1), .ab, 32, 32⟩
/-- 0x1701.0C `CNV.CHAIN.STATUS`. -/
def Obj.cnvChainStatus : ObjDef := ⟨0x1701, 0x0C, .bits8, .ro, false, 0, .full, .ab, 32, 32⟩
/-- 0x1701.0D `CNV.CHAIN.STICKY`. -/
def Obj.cnvChainSticky : ObjDef := ⟨0x1701, 0x0D, .bits8, .w1c, false, 0, (.mask 3), .ab, 32, 32⟩
/-- 0x1701.0E `CNV.CHAIN.COUNT`. -/
def Obj.cnvChainCount : ObjDef := ⟨0x1701, 0x0E, .u32, .ro, false, 0, .full, .ab, 32, 32⟩
/-- 0x1701.0F `CNV.CHAIN.REJECT`. -/
def Obj.cnvChainReject : ObjDef := ⟨0x1701, 0x0F, .u8, .ro, false, 0, .full, .ab, 32, 32⟩
/-- 0x1702.01 `CNV.SCL.OWNER`. -/
def Obj.cnvSclOwner : ObjDef := ⟨0x1702, 0x01, .u16, .ro, false, 0, .full, .ab, 32, 32⟩
/-- 0x1702.02 `CNV.SCL.SRC`. -/
def Obj.cnvSclSrc : ObjDef := ⟨0x1702, 0x02, (.domain 8), .rw, true, 0, .full, .ab, 32, 32⟩
/-- 0x1702.03 `CNV.SCL.DST`. -/
def Obj.cnvSclDst : ObjDef := ⟨0x1702, 0x03, (.domain 8), .rw, true, 0, .full, .ab, 32, 32⟩
/-- 0x1702.04 `CNV.SCL.VTAPS`. -/
def Obj.cnvSclVtaps : ObjDef := ⟨0x1702, 0x04, .enum8, .rw, true, 8, (.oneOf [2, 4, 6, 8]), .ab, 32, 32⟩
/-- 0x1702.05 `CNV.SCL.SET.V`. -/
def Obj.cnvSclSetV : ObjDef := ⟨0x1702, 0x05, .u8, .rw, true, 0, (.between (0) 63), .ab, 32, 32⟩
/-- 0x1702.06 `CNV.SCL.SET.HY`. -/
def Obj.cnvSclSetHy : ObjDef := ⟨0x1702, 0x06, .u8, .rw, true, 0, (.between (0) 63), .ab, 32, 32⟩
/-- 0x1702.07 `CNV.SCL.SET.HC`. -/
def Obj.cnvSclSetHc : ObjDef := ⟨0x1702, 0x07, .u8, .rw, true, 0, (.between (0) 63), .ab, 32, 32⟩
/-- 0x1702.08 `CNV.SCL.LINEBUF.USED`. -/
def Obj.cnvSclLinebufUsed : ObjDef := ⟨0x1702, 0x08, .u32, .ro, false, 0, .full, .ab, 32, 32⟩
/-- 0x1702.09 `CNV.SCL.SHORT`. -/
def Obj.cnvSclShort : ObjDef := ⟨0x1702, 0x09, .u32, .ro, false, 0, .full, .ab, 32, 32⟩
/-- 0x1702.0A `CNV.SCL.STICKY`. -/
def Obj.cnvSclSticky : ObjDef := ⟨0x1702, 0x0A, .bits8, .w1c, false, 0, (.mask 3), .ab, 32, 32⟩
/-- 0x1703.01 `CNV.COEF.SET`. -/
def Obj.cnvCoefSet : ObjDef := ⟨0x1703, 0x01, (.domain 1024), .rw, true, 0, .full, .ab, 64, 64⟩
/-- 0x1703.02 `CNV.COEF.USERS`. -/
def Obj.cnvCoefUsers : ObjDef := ⟨0x1703, 0x02, .u8, .ro, false, 0, .full, .ab, 64, 64⟩
/-- 0x1710.01 `CNV.CU.MATRIX.IN`. -/
def Obj.cnvCuMatrixIn : ObjDef := ⟨0x1710, 0x01, (.domain 24), .rw, true, 0, .full, .ab, 32, 32⟩
/-- 0x1710.02 `CNV.CU.LUT.PRE`. -/
def Obj.cnvCuLutPre : ObjDef := ⟨0x1710, 0x02, (.domain 6150), .rw, true, 0, .full, .ab, 32, 32⟩
/-- 0x1710.03 `CNV.CU.MATRIX`. -/
def Obj.cnvCuMatrix : ObjDef := ⟨0x1710, 0x03, (.domain 18), .rw, true, 0, .full, .ab, 32, 32⟩
/-- 0x1710.04 `CNV.CU.LUT.POST`. -/
def Obj.cnvCuLutPost : ObjDef := ⟨0x1710, 0x04, (.domain 6150), .rw, true, 0, .full, .ab, 32, 32⟩
/-- 0x1710.05 `CNV.CU.MATRIX.OUT`. -/
def Obj.cnvCuMatrixOut : ObjDef := ⟨0x1710, 0x05, (.domain 24), .rw, true, 0, .full, .ab, 32, 32⟩
/-- 0x1710.06 `CNV.CU.CLIP`. -/
def Obj.cnvCuClip : ObjDef := ⟨0x1710, 0x06, (.domain 12), .rw, true, 0, .full, .ab, 32, 32⟩
/-- 0x1720.01 `CNV.FRC.DELAY`. -/
def Obj.cnvFrcDelay : ObjDef := ⟨0x1720, 0x01, .u8, .rwc, true, 3, (.between (2) 4), .ab, 4, 4⟩
/-- 0x1720.02 `CNV.FRC.MOTION`. -/
def Obj.cnvFrcMotion : ObjDef := ⟨0x1720, 0x02, .enum8, .rwc, true, 0, (.between (0) 2), .ab, 4, 4⟩
/-- 0x1720.03 `CNV.FRC.CONF.MIN`. -/
def Obj.cnvFrcConfMin : ObjDef := ⟨0x1720, 0x03, .u8, .rw, true, 96, .full, .ab, 4, 4⟩
/-- 0x1720.04 `CNV.FRC.FALLBACK`. -/
def Obj.cnvFrcFallback : ObjDef := ⟨0x1720, 0x04, .enum8, .rw, true, 0, (.between (0) 1), .ab, 4, 4⟩
/-- 0x1720.05 `CNV.FRC.SCENE.MAX`. -/
def Obj.cnvFrcSceneMax : ObjDef := ⟨0x1720, 0x05, .u8, .rw, true, 50, (.between (1) 100), .ab, 4, 4⟩
/-- 0x1720.06 `CNV.FRC.STATUS`. -/
def Obj.cnvFrcStatus : ObjDef := ⟨0x1720, 0x06, .bits8, .ro, false, 0, .full, .ab, 4, 4⟩
/-- 0x1720.07 `CNV.FRC.STICKY`. -/
def Obj.cnvFrcSticky : ObjDef := ⟨0x1720, 0x07, .bits8, .w1c, false, 0, (.mask 7), .ab, 4, 4⟩
/-- 0x1720.08 `CNV.FRC.FALLBACK.COUNT`. -/
def Obj.cnvFrcFallbackCount : ObjDef := ⟨0x1720, 0x08, .u32, .ro, false, 0, .full, .ab, 4, 4⟩
/-- 0x1720.09 `CNV.FRC.MISS.COUNT`. -/
def Obj.cnvFrcMissCount : ObjDef := ⟨0x1720, 0x09, .u32, .ro, false, 0, .full, .ab, 4, 4⟩
/-- 0x1720.0A `CNV.FRC.CHANNEL`. -/
def Obj.cnvFrcChannel : ObjDef := ⟨0x1720, 0x0A, .u8, .ro, false, 0xFF, .full, .ab, 4, 4⟩
/-- 0x1800.01 `COMP.STATUS`. -/
def Obj.compStatus : ObjDef := ⟨0x1800, 0x01, .bits8, .ro, false, 0, .full, .ab, 1, 1⟩
/-- 0x1800.02 `COMP.STICKY`. -/
def Obj.compSticky : ObjDef := ⟨0x1800, 0x02, .bits8, .w1c, false, 0, (.mask 3), .ab, 1, 1⟩
/-- 0x1800.03 `COMP.COUNT`. -/
def Obj.compCount : ObjDef := ⟨0x1800, 0x03, .u32, .ro, false, 0, .full, .ab, 1, 1⟩
/-- 0x1800.04 `COMP.SURF.SIZE`. -/
def Obj.compSurfSize : ObjDef := ⟨0x1800, 0x04, .u32, .rwc, true, 1024, (.between (0) 16384), .ab, 1, 1⟩
/-- 0x1800.05 `COMP.SURF.OFFSET`. -/
def Obj.compSurfOffset : ObjDef := ⟨0x1800, 0x05, .u64, .rw, false, 0, .full, .ab, 1, 1⟩
/-- 0x1800.06 `COMP.SURF.DATA`. -/
def Obj.compSurfData : ObjDef := ⟨0x1800, 0x06, (.domainMax 65536), .wo, false, 0, .full, .ab, 1, 1⟩
/-- 0x1801.01 `CMP.ENABLE`. -/
def Obj.cmpEnable : ObjDef := ⟨0x1801, 0x01, .enum8, .rwc, true, 0, (.between (0) 1), .ab, 8, 8⟩
/-- 0x1801.02 `CMP.SOURCE`. -/
def Obj.cmpSource : ObjDef := ⟨0x1801, 0x02, .u16, .rwc, true, 0xFFFF, .full, .ab, 8, 8⟩
/-- 0x1801.03 `CMP.FORMAT`. -/
def Obj.cmpFormat : ObjDef := ⟨0x1801, 0x03, .enum16, .rwc, true, 0x0607, .format, .ab, 8, 8⟩
/-- 0x1801.04 `CMP.OFS`. -/
def Obj.cmpOfs : ObjDef := ⟨0x1801, 0x04, .u32, .rwc, true, 0, .full, .ab, 8, 8⟩
/-- 0x1801.05 `CMP.ATTR`. -/
def Obj.cmpAttr : ObjDef := ⟨0x1801, 0x05, .u16, .rwc, true, 0x0110, .full, .ab, 8, 8⟩
/-- 0x1801.06 `CMP.LATCH`. -/
def Obj.cmpLatch : ObjDef := ⟨0x1801, 0x06, .u16, .rw, true, 0, .full, .ab, 8, 8⟩
/-- 0x1801.07 `CMP.BG`. -/
def Obj.cmpBg : ObjDef := ⟨0x1801, 0x07, (.domain 6), .rw, true, 0, .full, .ab, 8, 8⟩
/-- 0x1801.08 `CMP.LUT.PRE`. -/
def Obj.cmpLutPre : ObjDef := ⟨0x1801, 0x08, (.domain 6150), .rw, true, 0, .full, .ab, 8, 8⟩
/-- 0x1801.09 `CMP.LUT.POST`. -/
def Obj.cmpLutPost : ObjDef := ⟨0x1801, 0x09, (.domain 6150), .rw, true, 0, .full, .ab, 8, 8⟩
/-- 0x1801.0A `CMP.CLIP`. -/
def Obj.cmpClip : ObjDef := ⟨0x1801, 0x0A, (.domain 12), .rw, true, 0, .full, .ab, 8, 8⟩
/-- 0x1801.0B `CMP.ANC.LAYER`. -/
def Obj.cmpAncLayer : ObjDef := ⟨0x1801, 0x0B, .u8, .rw, true, 0xFF, .full, .ab, 8, 8⟩
/-- 0x1801.0C `CMP.FELT.ENABLE`. -/
def Obj.cmpFeltEnable : ObjDef := ⟨0x1801, 0x0C, .enum8, .rw, true, 0, (.between (0) 1), .ab, 8, 8⟩
/-- 0x1801.0D `CMP.COMMIT`. -/
def Obj.cmpCommit : ObjDef := ⟨0x1801, 0x0D, .enum8, .wo, false, 0, (.between (1) 1), .ab, 8, 8⟩
/-- 0x1801.0E `CMP.STATUS`. -/
def Obj.cmpStatus : ObjDef := ⟨0x1801, 0x0E, .bits8, .ro, false, 0, .full, .ab, 8, 8⟩
/-- 0x1801.0F `CMP.STICKY`. -/
def Obj.cmpSticky : ObjDef := ⟨0x1801, 0x0F, .bits8, .w1c, false, 0, (.mask 31), .ab, 8, 8⟩
/-- 0x1801.10 `CMP.COUNT`. -/
def Obj.cmpCount : ObjDef := ⟨0x1801, 0x10, .u32, .ro, false, 0, .full, .ab, 8, 8⟩
/-- 0x1801.11 `CMP.LATE.COUNT`. -/
def Obj.cmpLateCount : ObjDef := ⟨0x1801, 0x11, .u32, .ro, false, 0, .full, .ab, 8, 8⟩
/-- 0x1801.12 `CMP.REJECT`. -/
def Obj.cmpReject : ObjDef := ⟨0x1801, 0x12, .u8, .ro, false, 0, .full, .ab, 8, 8⟩
/-- 0x1801.13 `CMP.UNDERRUN.COUNT`. -/
def Obj.cmpUnderrunCount : ObjDef := ⟨0x1801, 0x13, .u64, .ro, false, 0, .full, .ab, 8, 8⟩
/-- 0x1802.01 `CMP.LAYER.KIND`. -/
def Obj.cmpLayerKind : ObjDef := ⟨0x1802, 0x01, .enum8, .rw, true, 0, (.between (0) 3), .ab, 128, 128⟩
/-- 0x1802.02 `CMP.LAYER.IN.FORMAT`. -/
def Obj.cmpLayerInFormat : ObjDef := ⟨0x1802, 0x02, .enum16, .rwc, true, 0x0607, .format, .ab, 128, 128⟩
/-- 0x1802.03 `CMP.LAYER.IN.OFS`. -/
def Obj.cmpLayerInOfs : ObjDef := ⟨0x1802, 0x03, .u32, .rwc, true, 0, .full, .ab, 128, 128⟩
/-- 0x1802.04 `CMP.LAYER.IN.ATTR`. -/
def Obj.cmpLayerInAttr : ObjDef := ⟨0x1802, 0x04, .u16, .rwc, true, 0x0110, .full, .ab, 128, 128⟩
/-- 0x1802.05 `CMP.LAYER.SRC`. -/
def Obj.cmpLayerSrc : ObjDef := ⟨0x1802, 0x05, (.domain 8), .rw, true, 0, .full, .ab, 128, 128⟩
/-- 0x1802.06 `CMP.LAYER.DST`. -/
def Obj.cmpLayerDst : ObjDef := ⟨0x1802, 0x06, (.domain 8), .rw, true, 0, .full, .ab, 128, 128⟩
/-- 0x1802.07 `CMP.LAYER.SCALER`. -/
def Obj.cmpLayerScaler : ObjDef := ⟨0x1802, 0x07, .u8, .rw, true, 0xFF, (.noneOr 0xFF 31), .ab, 128, 128⟩
/-- 0x1802.08 `CMP.LAYER.VTAPS`. -/
def Obj.cmpLayerVtaps : ObjDef := ⟨0x1802, 0x08, .enum8, .rw, true, 8, (.oneOf [2, 4, 6, 8]), .ab, 128, 128⟩
/-- 0x1802.09 `CMP.LAYER.SET.V`. -/
def Obj.cmpLayerSetV : ObjDef := ⟨0x1802, 0x09, .u8, .rw, true, 0, (.between (0) 63), .ab, 128, 128⟩
/-- 0x1802.0A `CMP.LAYER.SET.HY`. -/
def Obj.cmpLayerSetHy : ObjDef := ⟨0x1802, 0x0A, .u8, .rw, true, 0, (.between (0) 63), .ab, 128, 128⟩
/-- 0x1802.0B `CMP.LAYER.SET.HC`. -/
def Obj.cmpLayerSetHc : ObjDef := ⟨0x1802, 0x0B, .u8, .rw, true, 0, (.between (0) 63), .ab, 128, 128⟩
/-- 0x1802.0C `CMP.LAYER.ADDR`. -/
def Obj.cmpLayerAddr : ObjDef := ⟨0x1802, 0x0C, .u64, .rw, true, 0, .full, .ab, 128, 128⟩
/-- 0x1802.0D `CMP.LAYER.PITCH`. -/
def Obj.cmpLayerPitch : ObjDef := ⟨0x1802, 0x0D, .u32, .rw, true, 0, .full, .ab, 128, 128⟩
/-- 0x1802.0E `CMP.LAYER.SURF.FMT`. -/
def Obj.cmpLayerSurfFmt : ObjDef := ⟨0x1802, 0x0E, .enum8, .rw, true, 0, (.between (0) 1), .ab, 128, 128⟩
/-- 0x1802.0F `CMP.LAYER.PREMUL`. -/
def Obj.cmpLayerPremul : ObjDef := ⟨0x1802, 0x0F, .enum8, .rw, true, 0, (.between (0) 1), .ab, 128, 128⟩
/-- 0x1802.10 `CMP.LAYER.COLOUR`. -/
def Obj.cmpLayerColour : ObjDef := ⟨0x1802, 0x10, (.domain 8), .rw, true, 0, .full, .ab, 128, 128⟩
/-- 0x1802.11 `CMP.LAYER.KEY.MODE`. -/
def Obj.cmpLayerKeyMode : ObjDef := ⟨0x1802, 0x11, .enum8, .rw, true, 0, (.between (0) 3), .ab, 128, 128⟩
/-- 0x1802.12 `CMP.LAYER.KEY.CLIP`. -/
def Obj.cmpLayerKeyClip : ObjDef := ⟨0x1802, 0x12, .u16, .rw, true, 256, (.between (0) 4095), .ab, 128, 128⟩
/-- 0x1802.13 `CMP.LAYER.KEY.GAIN`. -/
def Obj.cmpLayerKeyGain : ObjDef := ⟨0x1802, 0x13, .u16, .rw, true, 299, .full, .ab, 128, 128⟩
/-- 0x1802.14 `CMP.LAYER.KEY.INVERT`. -/
def Obj.cmpLayerKeyInvert : ObjDef := ⟨0x1802, 0x14, .enum8, .rw, true, 0, (.between (0) 1), .ab, 128, 128⟩
/-- 0x1802.15 `CMP.LAYER.OPACITY`. -/
def Obj.cmpLayerOpacity : ObjDef := ⟨0x1802, 0x15, .u16, .rw, true, 4096, (.between (0) 4096), .ab, 128, 128⟩
/-- 0x1802.16 `CMP.LAYER.STATIC`. -/
def Obj.cmpLayerStatic : ObjDef := ⟨0x1802, 0x16, .enum8, .rw, true, 0, (.between (0) 1), .ab, 128, 128⟩
/-- 0x1803.01 `CMP.FELT.STATE`. -/
def Obj.cmpFeltState : ObjDef := ⟨0x1803, 0x01, .enum8, .ro, false, 0, .full, .ab, 8, 8⟩
/-- 0x1803.02 `CMP.FELT.RECT`. -/
def Obj.cmpFeltRect : ObjDef := ⟨0x1803, 0x02, (.domain 8), .ro, false, 0, .full, .ab, 8, 8⟩
/-- 0x1803.03 `CMP.FELT.BYTES`. -/
def Obj.cmpFeltBytes : ObjDef := ⟨0x1803, 0x03, .u64, .ro, false, 0, .full, .ab, 8, 8⟩
/-- 0x1803.04 `CMP.FELT.COUNT`. -/
def Obj.cmpFeltCount : ObjDef := ⟨0x1803, 0x04, .u32, .ro, false, 0, .full, .ab, 8, 8⟩
/-- 0x1803.05 `CMP.FELT.REBUILD`. -/
def Obj.cmpFeltRebuild : ObjDef := ⟨0x1803, 0x05, .enum8, .wo, false, 0, (.between (1) 1), .ab, 8, 8⟩
/-- 0x1810.01 `SCN.OUT.ENABLE`. -/
def Obj.scnOutEnable : ObjDef := ⟨0x1810, 0x01, .enum8, .rwc, true, 0, (.between (0) 1), .ab, 64, 64⟩
/-- 0x1810.02 `SCN.OUT.FORMAT`. -/
def Obj.scnOutFormat : ObjDef := ⟨0x1810, 0x02, .enum16, .rwc, true, 0x0607, .format, .ab, 64, 64⟩
/-- 0x1810.03 `SCN.OUT.OFS`. -/
def Obj.scnOutOfs : ObjDef := ⟨0x1810, 0x03, .u32, .rwc, true, 0, .full, .ab, 64, 64⟩
/-- 0x1810.04 `SCN.OUT.ATTR`. -/
def Obj.scnOutAttr : ObjDef := ⟨0x1810, 0x04, .u16, .rwc, true, 0x0110, .full, .ab, 64, 64⟩
/-- 0x1810.05 `SCN.OUT.FORMAT.PENDING`. -/
def Obj.scnOutFormatPending : ObjDef := ⟨0x1810, 0x05, .enum16, .rw, false, 0, .formatOrZero, .ab, 64, 64⟩
/-- 0x1810.06 `SCN.OUT.OFS.PENDING`. -/
def Obj.scnOutOfsPending : ObjDef := ⟨0x1810, 0x06, .u32, .rw, false, 0, .full, .ab, 64, 64⟩
/-- 0x1810.07 `SCN.OUT.ATTR.PENDING`. -/
def Obj.scnOutAttrPending : ObjDef := ⟨0x1810, 0x07, .u16, .rw, false, 0xFFFF, .full, .ab, 64, 64⟩
/-- 0x1810.08 `SCN.OUT.FORMAT.APPLY`. -/
def Obj.scnOutFormatApply : ObjDef := ⟨0x1810, 0x08, .enum8, .wo, false, 0, (.between (1) 1), .ab, 64, 64⟩
/-- 0x1810.09 `SCN.OUT.SOURCE`. -/
def Obj.scnOutSource : ObjDef := ⟨0x1810, 0x09, .u16, .rw, true, 0, .full, .ab, 64, 64⟩
/-- 0x1810.0A `SCN.OUT.LATCH`. -/
def Obj.scnOutLatch : ObjDef := ⟨0x1810, 0x0A, .u16, .rw, true, 0, .full, .ab, 64, 64⟩
/-- 0x1810.0B `SCN.OUT.DISC.PT`. -/
def Obj.scnOutDiscPt : ObjDef := ⟨0x1810, 0x0B, .u8, .rw, true, 255, .full, .ab, 64, 64⟩
/-- 0x1810.0C `SCN.OUT.COMMIT`. -/
def Obj.scnOutCommit : ObjDef := ⟨0x1810, 0x0C, .enum8, .wo, false, 0, (.between (1) 1), .ab, 64, 64⟩
/-- 0x1810.0D `SCN.OUT.STATUS`. -/
def Obj.scnOutStatus : ObjDef := ⟨0x1810, 0x0D, .bits8, .ro, false, 0, .full, .ab, 64, 64⟩
/-- 0x1810.0E `SCN.OUT.STICKY`. -/
def Obj.scnOutSticky : ObjDef := ⟨0x1810, 0x0E, .bits8, .w1c, false, 0, (.mask 7), .ab, 64, 64⟩
/-- 0x1810.0F `SCN.OUT.COUNT`. -/
def Obj.scnOutCount : ObjDef := ⟨0x1810, 0x0F, .u32, .ro, false, 0, .full, .ab, 64, 64⟩
/-- 0x1810.10 `SCN.OUT.LATE.COUNT`. -/
def Obj.scnOutLateCount : ObjDef := ⟨0x1810, 0x10, .u32, .ro, false, 0, .full, .ab, 64, 64⟩
/-- 0x1810.11 `SCN.OUT.DISC.COUNT`. -/
def Obj.scnOutDiscCount : ObjDef := ⟨0x1810, 0x11, .u32, .ro, false, 0, .full, .ab, 64, 64⟩
/-- 0x1810.12 `SCN.OUT.REJECT`. -/
def Obj.scnOutReject : ObjDef := ⟨0x1810, 0x12, .u8, .ro, false, 0, .full, .ab, 64, 64⟩
/-- 0x1820.01 `SCN.CRC.RECT`. -/
def Obj.scnCrcRect : ObjDef := ⟨0x1820, 0x01, (.domain 8), .rw, true, 0, .full, .ab, 1024, 1024⟩
/-- 0x1820.02 `SCN.CRC.MODE`. -/
def Obj.scnCrcMode : ObjDef := ⟨0x1820, 0x02, .enum8, .rw, true, 0, (.between (0) 3), .ab, 1024, 1024⟩
/-- 0x1820.03 `SCN.CRC.EXPECT`. -/
def Obj.scnCrcExpect : ObjDef := ⟨0x1820, 0x03, .u32, .rw, true, 0, .full, .ab, 1024, 1024⟩
/-- 0x1820.04 `SCN.CRC.VALUE`. -/
def Obj.scnCrcValue : ObjDef := ⟨0x1820, 0x04, .u32, .ro, false, 0, .full, .ab, 1024, 1024⟩
/-- 0x1820.05 `SCN.CRC.FRAME`. -/
def Obj.scnCrcFrame : ObjDef := ⟨0x1820, 0x05, .u64, .ro, false, 0, .full, .ab, 1024, 1024⟩
/-- 0x1820.06 `SCN.CRC.STATUS`. -/
def Obj.scnCrcStatus : ObjDef := ⟨0x1820, 0x06, .bits8, .ro, false, 0, .full, .ab, 1024, 1024⟩
/-- 0x1820.07 `SCN.CRC.STICKY`. -/
def Obj.scnCrcSticky : ObjDef := ⟨0x1820, 0x07, .bits8, .w1c, false, 0, (.mask 1), .ab, 1024, 1024⟩
/-- 0x1820.08 `SCN.CRC.COUNT`. -/
def Obj.scnCrcCount : ObjDef := ⟨0x1820, 0x08, .u32, .ro, false, 0, .full, .ab, 1024, 1024⟩
/-- 0x2000.01 `ENC.STATUS`. -/
def Obj.encStatus : ObjDef := ⟨0x2000, 0x01, .bits8, .ro, false, 0, .full, .ab, 1, 1⟩
/-- 0x2000.02 `ENC.STICKY`. -/
def Obj.encSticky : ObjDef := ⟨0x2000, 0x02, .bits8, .w1c, false, 0, (.mask 7), .ab, 1, 1⟩
/-- 0x2000.03 `ENC.COUNT`. -/
def Obj.encCount : ObjDef := ⟨0x2000, 0x03, .u32, .ro, false, 0, .full, .ab, 1, 1⟩
/-- 0x2001.01 `ENC.CH.ENABLE`. -/
def Obj.encChEnable : ObjDef := ⟨0x2001, 0x01, .enum8, .rwc, true, 0, (.between (0) 1), .ab, 48, 48⟩
/-- 0x2001.02 `ENC.CH.CODEC`. -/
def Obj.encChCodec : ObjDef := ⟨0x2001, 0x02, .enum8, .rwc, true, 1, (.between (0) 1), .ab, 48, 48⟩
/-- 0x2001.03 `ENC.CH.PROFILE`. -/
def Obj.encChProfile : ObjDef := ⟨0x2001, 0x03, .enum8, .rwc, true, 0, (.between (0) 1), .ab, 48, 48⟩
/-- 0x2001.04 `ENC.CH.TIER`. -/
def Obj.encChTier : ObjDef := ⟨0x2001, 0x04, .enum8, .rwc, true, 0, (.between (0) 1), .ab, 48, 48⟩
/-- 0x2001.05 `ENC.CH.LEVEL`. -/
def Obj.encChLevel : ObjDef := ⟨0x2001, 0x05, .u8, .rwc, true, 62, (.oneOf [31, 40, 41, 50, 51, 52, 60, 61, 62]), .ab, 48, 48⟩
/-- 0x2001.06 `ENC.CH.FORMAT`. -/
def Obj.encChFormat : ObjDef := ⟨0x2001, 0x06, .enum16, .rwc, true, 0x0607, .format, .ab, 48, 48⟩
/-- 0x2001.07 `ENC.CH.OFS`. -/
def Obj.encChOfs : ObjDef := ⟨0x2001, 0x07, .u32, .rwc, true, 0, .full, .ab, 48, 48⟩
/-- 0x2001.08 `ENC.CH.ATTR`. -/
def Obj.encChAttr : ObjDef := ⟨0x2001, 0x08, .u16, .rwc, true, 0x0110, .full, .ab, 48, 48⟩
/-- 0x2001.09 `ENC.CH.CTU`. -/
def Obj.encChCtu : ObjDef := ⟨0x2001, 0x09, .enum8, .rwc, true, 1, (.between (0) 2), .ab, 48, 48⟩
/-- 0x2001.0A `ENC.CH.CLASS`. -/
def Obj.encChClass : ObjDef := ⟨0x2001, 0x0A, .enum8, .rwc, true, 1, (.between (0) 2), .ab, 48, 48⟩
/-- 0x2001.0B `ENC.CH.LATENCY`. -/
def Obj.encChLatency : ObjDef := ⟨0x2001, 0x0B, .u16, .rwc, true, 0, .full, .ab, 48, 48⟩
/-- 0x2001.0C `ENC.CH.LOOKAHEAD`. -/
def Obj.encChLookahead : ObjDef := ⟨0x2001, 0x0C, .u8, .rwc, true, 1, (.between (1) 8), .ab, 48, 48⟩
/-- 0x2001.0D `ENC.CH.PRIORITY`. -/
def Obj.encChPriority : ObjDef := ⟨0x2001, 0x0D, .enum8, .rwc, true, 0, (.between (0) 2), .ab, 48, 48⟩
/-- 0x2001.0E `ENC.CH.STRUCTURE`. -/
def Obj.encChStructure : ObjDef := ⟨0x2001, 0x0E, .enum8, .rwc, true, 0, (.between (0) 3), .ab, 48, 48⟩
/-- 0x2001.0F `ENC.CH.REFS`. -/
def Obj.encChRefs : ObjDef := ⟨0x2001, 0x0F, .u8, .rwc, true, 1, (.between (1) 4), .ab, 48, 48⟩
/-- 0x2001.10 `ENC.CH.AUTOSTART`. -/
def Obj.encChAutostart : ObjDef := ⟨0x2001, 0x10, .enum8, .rwc, true, 0, (.between (0) 1), .ab, 48, 48⟩
/-- 0x2001.11 `ENC.CH.IRAP.TYPE`. -/
def Obj.encChIrapType : ObjDef := ⟨0x2001, 0x11, .enum8, .rw, true, 0, (.between (0) 1), .ab, 48, 48⟩
/-- 0x2001.12 `ENC.CH.IRAP.PERIOD`. -/
def Obj.encChIrapPeriod : ObjDef := ⟨0x2001, 0x12, .u16, .rw, true, 0, .full, .ab, 48, 48⟩
/-- 0x2001.13 `ENC.CH.POISON.IRAP`. -/
def Obj.encChPoisonIrap : ObjDef := ⟨0x2001, 0x13, .enum8, .rw, true, 1, (.between (0) 1), .ab, 48, 48⟩
/-- 0x2001.14 `ENC.CH.CONTROL`. -/
def Obj.encChControl : ObjDef := ⟨0x2001, 0x14, .enum8, .rw, false, 0, (.between (1) 2), .abp, 48, 48⟩
/-- 0x2001.15 `ENC.CH.COMMIT`. -/
def Obj.encChCommit : ObjDef := ⟨0x2001, 0x15, .enum8, .wo, false, 0, (.between (1) 1), .abp, 48, 48⟩
/-- 0x2001.16 `ENC.CH.STATE`. -/
def Obj.encChState : ObjDef := ⟨0x2001, 0x16, .enum8, .ro, false, 0, .full, .ab, 48, 48⟩
/-- 0x2001.17 `ENC.CH.ENGINE`. -/
def Obj.encChEngine : ObjDef := ⟨0x2001, 0x17, .u8, .ro, false, 0xFF, .full, .ab, 48, 48⟩
/-- 0x2001.18 `ENC.CH.LATENCY.NS`. -/
def Obj.encChLatencyNs : ObjDef := ⟨0x2001, 0x18, .u32, .ro, false, 0, .full, .ab, 48, 48⟩
/-- 0x2001.19 `ENC.CH.STATUS`. -/
def Obj.encChStatus : ObjDef := ⟨0x2001, 0x19, .bits8, .ro, false, 0, .full, .ab, 48, 48⟩
/-- 0x2001.1A `ENC.CH.STICKY`. -/
def Obj.encChSticky : ObjDef := ⟨0x2001, 0x1A, .bits8, .w1c, false, 0, (.mask 127), .ab, 48, 48⟩
/-- 0x2001.1B `ENC.CH.COUNT`. -/
def Obj.encChCount : ObjDef := ⟨0x2001, 0x1B, .u64, .ro, false, 0, .full, .ab, 48, 48⟩
/-- 0x2001.1C `ENC.CH.DET.COUNT`. -/
def Obj.encChDetCount : ObjDef := ⟨0x2001, 0x1C, .u32, .ro, false, 0, .full, .ab, 48, 48⟩
/-- 0x2001.1D `ENC.CH.DISC.COUNT`. -/
def Obj.encChDiscCount : ObjDef := ⟨0x2001, 0x1D, .u32, .ro, false, 0, .full, .ab, 48, 48⟩
/-- 0x2001.1E `ENC.CH.REJECT`. -/
def Obj.encChReject : ObjDef := ⟨0x2001, 0x1E, .u8, .ro, false, 0, .full, .ab, 48, 48⟩
/-- 0x2002.01 `ENC.BOLT.SIZE`. -/
def Obj.encBoltSize : ObjDef := ⟨0x2002, 0x01, .u32, .rwc, true, 0, .full, .ab, 48, 48⟩
/-- 0x2002.02 `ENC.BOLT.FILL`. -/
def Obj.encBoltFill : ObjDef := ⟨0x2002, 0x02, .u32, .ro, false, 0, .full, .ab, 48, 48⟩
/-- 0x2002.03 `ENC.BOLT.WM.LEVEL`. -/
def Obj.encBoltWmLevel : ObjDef := ⟨0x2002, 0x03, .u8, .rw, true, 75, (.between (1) 99), .ab, 48, 48⟩
/-- 0x2002.04 `ENC.BOLT.WM.HYST`. -/
def Obj.encBoltWmHyst : ObjDef := ⟨0x2002, 0x04, .u8, .rw, true, 5, .full, .ab, 48, 48⟩
/-- 0x2002.05 `ENC.BOLT.WM.COUNT`. -/
def Obj.encBoltWmCount : ObjDef := ⟨0x2002, 0x05, .u16, .ro, false, 0, .full, .ab, 48, 48⟩
/-- 0x2003.01 `ENC.DEFER.FEED`. -/
def Obj.encDeferFeed : ObjDef := ⟨0x2003, 0x01, .u16, .rwc, true, 0, .full, .ab, 48, 48⟩
/-- 0x2003.02 `ENC.DEFER.DEPTH`. -/
def Obj.encDeferDepth : ObjDef := ⟨0x2003, 0x02, .u8, .rwc, true, 4, (.between (2) 16), .ab, 48, 48⟩
/-- 0x2003.03 `ENC.DEFER.DATA`. -/
def Obj.encDeferData : ObjDef := ⟨0x2003, 0x03, (.domainMax 65536), .wo, false, 0, .full, .ab, 48, 48⟩
/-- 0x2003.04 `ENC.DEFER.PUSH`. -/
def Obj.encDeferPush : ObjDef := ⟨0x2003, 0x04, .enum8, .wo, false, 0, (.between (1) 1), .ab, 48, 48⟩
/-- 0x2003.05 `ENC.DEFER.FILL`. -/
def Obj.encDeferFill : ObjDef := ⟨0x2003, 0x05, .u8, .ro, false, 0, .full, .ab, 48, 48⟩
/-- 0x2004.01 `ENC.ENG.LOAD`. -/
def Obj.encEngLoad : ObjDef := ⟨0x2004, 0x01, .u64, .ro, false, 0, .full, .ab, 2, 2⟩
/-- 0x2004.02 `ENC.ENG.CHANNELS`. -/
def Obj.encEngChannels : ObjDef := ⟨0x2004, 0x02, .u64, .ro, false, 0, .full, .ab, 2, 2⟩
/-- 0x2100.01 `MOT.STATUS`. -/
def Obj.motStatus : ObjDef := ⟨0x2100, 0x01, .bits8, .ro, false, 0, .full, .ab, 1, 1⟩
/-- 0x2100.02 `MOT.STICKY`. -/
def Obj.motSticky : ObjDef := ⟨0x2100, 0x02, .bits8, .w1c, false, 0, (.mask 15), .ab, 1, 1⟩
/-- 0x2100.03 `MOT.COUNT`. -/
def Obj.motCount : ObjDef := ⟨0x2100, 0x03, .u32, .ro, false, 0, .full, .ab, 1, 1⟩
/-- 0x2100.04 `MOT.REF.USED`. -/
def Obj.motRefUsed : ObjDef := ⟨0x2100, 0x04, .u32, .ro, false, 0, .full, .ab, 1, 1⟩
/-- 0x2100.05 `MOT.REF.SHORT`. -/
def Obj.motRefShort : ObjDef := ⟨0x2100, 0x05, .u32, .ro, false, 0, .full, .ab, 1, 1⟩
/-- 0x2101.01 `MOT.CH.LAMBDA`. -/
def Obj.motChLambda : ObjDef := ⟨0x2101, 0x01, .u16, .rw, true, 64, (.between (0) 4095), .ab, 48, 48⟩
/-- 0x2101.02 `MOT.CH.CONF.GAIN`. -/
def Obj.motChConfGain : ObjDef := ⟨0x2101, 0x02, .u16, .rw, true, 64, (.between (0) 1024), .ab, 48, 48⟩
/-- 0x2101.03 `MOT.CH.PASSES`. -/
def Obj.motChPasses : ObjDef := ⟨0x2101, 0x03, .u8, .ro, false, 0, .full, .ab, 48, 48⟩
/-- 0x2101.04 `MOT.CH.REF.BYTES`. -/
def Obj.motChRefBytes : ObjDef := ⟨0x2101, 0x04, .u32, .ro, false, 0, .full, .ab, 48, 48⟩
/-- 0x2101.05 `MOT.CH.FALLBACK.COUNT`. -/
def Obj.motChFallbackCount : ObjDef := ⟨0x2101, 0x05, .u64, .ro, false, 0, .full, .ab, 48, 48⟩
/-- 0x2101.06 `MOT.CH.SNAP.ROW`. -/
def Obj.motChSnapRow : ObjDef := ⟨0x2101, 0x06, .u16, .rw, false, 0, .full, .ab, 48, 48⟩
/-- 0x2101.07 `MOT.CH.SNAP`. -/
def Obj.motChSnap : ObjDef := ⟨0x2101, 0x07, (.domainMax 7680), .ro, false, 0, .full, .ab, 48, 48⟩
/-- 0x2102.01 `MOT.ENG.LOAD`. -/
def Obj.motEngLoad : ObjDef := ⟨0x2102, 0x01, .u64, .ro, false, 0, .full, .ab, 2, 2⟩
/-- 0x2102.02 `MOT.ENG.BORROW`. -/
def Obj.motEngBorrow : ObjDef := ⟨0x2102, 0x02, .bits8, .ro, false, 0, .full, .ab, 2, 2⟩
/-- 0x2103.01 `MOT.FRC.LAMBDA`. -/
def Obj.motFrcLambda : ObjDef := ⟨0x2103, 0x01, .u16, .rw, true, 64, (.between (0) 4095), .ab, 4, 4⟩
/-- 0x2103.02 `MOT.FRC.CONF.GAIN`. -/
def Obj.motFrcConfGain : ObjDef := ⟨0x2103, 0x02, .u16, .rw, true, 64, (.between (0) 1024), .ab, 4, 4⟩
/-- 0x2103.03 `MOT.FRC.ENGINE`. -/
def Obj.motFrcEngine : ObjDef := ⟨0x2103, 0x03, .u8, .ro, false, 0xFF, .full, .ab, 4, 4⟩
/-- 0x2103.04 `MOT.FRC.LATE.COUNT`. -/
def Obj.motFrcLateCount : ObjDef := ⟨0x2103, 0x04, .u32, .ro, false, 0, .full, .ab, 4, 4⟩
/-- 0x2200.01 `RC.STATUS`. -/
def Obj.rcStatus : ObjDef := ⟨0x2200, 0x01, .bits16, .ro, false, 0, .full, .ab, 1, 1⟩
/-- 0x2200.02 `RC.STICKY`. -/
def Obj.rcSticky : ObjDef := ⟨0x2200, 0x02, .bits8, .w1c, false, 0, (.mask 3), .ab, 1, 1⟩
/-- 0x2200.03 `RC.COUNT`. -/
def Obj.rcCount : ObjDef := ⟨0x2200, 0x03, .u32, .ro, false, 0, .full, .ab, 1, 1⟩
/-- 0x2201.01 `RC.MODE`. -/
def Obj.rcMode : ObjDef := ⟨0x2201, 0x01, .enum8, .rw, true, 0, (.between (0) 1), .ab, 48, 48⟩
/-- 0x2201.02 `RC.BITRATE`. -/
def Obj.rcBitrate : ObjDef := ⟨0x2201, 0x02, .u64, .rw, true, 100000000, (.between (1000000) 2000000000), .ab, 48, 48⟩
/-- 0x2201.03 `RC.MAXRATE`. -/
def Obj.rcMaxrate : ObjDef := ⟨0x2201, 0x03, .u64, .rw, true, 0, .full, .ab, 48, 48⟩
/-- 0x2201.04 `RC.CPB.SIZE`. -/
def Obj.rcCpbSize : ObjDef := ⟨0x2201, 0x04, .u64, .rw, true, 50000000, (.between (100000) 68719476736), .ab, 48, 48⟩
/-- 0x2201.05 `RC.CPB.INIT`. -/
def Obj.rcCpbInit : ObjDef := ⟨0x2201, 0x05, .u8, .rw, true, 80, (.between (10) 100), .ab, 48, 48⟩
/-- 0x2201.06 `RC.CPB.TARGET`. -/
def Obj.rcCpbTarget : ObjDef := ⟨0x2201, 0x06, .u8, .rw, true, 80, (.between (10) 100), .ab, 48, 48⟩
/-- 0x2201.07 `RC.CPB.RESTART`. -/
def Obj.rcCpbRestart : ObjDef := ⟨0x2201, 0x07, .u8, .rw, true, 50, (.between (10) 100), .ab, 48, 48⟩
/-- 0x2201.08 `RC.REACT`. -/
def Obj.rcReact : ObjDef := ⟨0x2201, 0x08, .u8, .rw, true, 8, (.between (1) 64), .ab, 48, 48⟩
/-- 0x2201.09 `RC.ROW.GAIN`. -/
def Obj.rcRowGain : ObjDef := ⟨0x2201, 0x09, .u8, .rw, true, 4, (.between (1) 16), .ab, 48, 48⟩
/-- 0x2201.0A `RC.QP.STEP`. -/
def Obj.rcQpStep : ObjDef := ⟨0x2201, 0x0A, .u8, .rw, true, 1, (.between (1) 4), .ab, 48, 48⟩
/-- 0x2201.0B `RC.QP.MIN`. -/
def Obj.rcQpMin : ObjDef := ⟨0x2201, 0x0B, .s8, .rw, true, 10, .full, .ab, 48, 48⟩
/-- 0x2201.0C `RC.QP.MAX`. -/
def Obj.rcQpMax : ObjDef := ⟨0x2201, 0x0C, .s8, .rw, true, 51, .full, .ab, 48, 48⟩
/-- 0x2201.0D `RC.QP.INIT`. -/
def Obj.rcQpInit : ObjDef := ⟨0x2201, 0x0D, .s8, .rw, true, 32, .full, .ab, 48, 48⟩
/-- 0x2201.0E `RC.QP.OFS.IRAP`. -/
def Obj.rcQpOfsIrap : ObjDef := ⟨0x2201, 0x0E, .s8, .rw, true, (-3), (.between (-12) 12), .ab, 48, 48⟩
/-- 0x2201.0F `RC.QP.OFS.NONREF`. -/
def Obj.rcQpOfsNonref : ObjDef := ⟨0x2201, 0x0F, .s8, .rw, true, 2, (.between (-12) 12), .ab, 48, 48⟩
/-- 0x2201.10 `RC.W.IRAP`. -/
def Obj.rcWIrap : ObjDef := ⟨0x2201, 0x10, .u8, .rw, true, 48, (.between (1) 255), .ab, 48, 48⟩
/-- 0x2201.11 `RC.W.REF`. -/
def Obj.rcWRef : ObjDef := ⟨0x2201, 0x11, .u8, .rw, true, 16, (.between (1) 255), .ab, 48, 48⟩
/-- 0x2201.12 `RC.W.NONREF`. -/
def Obj.rcWNonref : ObjDef := ⟨0x2201, 0x12, .u8, .rw, true, 12, (.between (1) 255), .ab, 48, 48⟩
/-- 0x2201.13 `RC.FULLNESS`. -/
def Obj.rcFullness : ObjDef := ⟨0x2201, 0x13, .u64, .ro, false, 0, .full, .ab, 48, 48⟩
/-- 0x2201.14 `RC.TARGET`. -/
def Obj.rcTarget : ObjDef := ⟨0x2201, 0x14, .u64, .ro, false, 0, .full, .ab, 48, 48⟩
/-- 0x2201.15 `RC.QP.LAST`. -/
def Obj.rcQpLast : ObjDef := ⟨0x2201, 0x15, .s8, .ro, false, 0, .full, .ab, 48, 48⟩
/-- 0x2201.16 `RC.CH.STATUS`. -/
def Obj.rcChStatus : ObjDef := ⟨0x2201, 0x16, .bits8, .ro, false, 0, .full, .ab, 48, 48⟩
/-- 0x2201.17 `RC.CH.STICKY`. -/
def Obj.rcChSticky : ObjDef := ⟨0x2201, 0x17, .bits8, .w1c, false, 0, (.mask 15), .ab, 48, 48⟩
/-- 0x2201.18 `RC.SCRIM.COUNT`. -/
def Obj.rcScrimCount : ObjDef := ⟨0x2201, 0x18, .u64, .ro, false, 0, .full, .ab, 48, 48⟩
/-- 0x2201.19 `RC.SCRIM.PIC.COUNT`. -/
def Obj.rcScrimPicCount : ObjDef := ⟨0x2201, 0x19, .u32, .ro, false, 0, .full, .ab, 48, 48⟩
/-- 0x2201.1A `RC.FILLER.COUNT`. -/
def Obj.rcFillerCount : ObjDef := ⟨0x2201, 0x1A, .u64, .ro, false, 0, .full, .ab, 48, 48⟩
/-- 0x2201.1B `RC.REJECT`. -/
def Obj.rcReject : ObjDef := ⟨0x2201, 0x1B, .u8, .ro, false, 0, .full, .ab, 48, 48⟩
/-- 0x2202.01 `RC.KEY.REQUEST`. -/
def Obj.rcKeyRequest : ObjDef := ⟨0x2202, 0x01, .enum8, .wo, false, 0, (.between (1) 1), .abp, 48, 48⟩
/-- 0x2202.02 `RC.KEY.COUNT`. -/
def Obj.rcKeyCount : ObjDef := ⟨0x2202, 0x02, .u32, .ro, false, 0, .full, .ab, 48, 48⟩
/-- 0x2202.03 `RC.KEY.MERGED`. -/
def Obj.rcKeyMerged : ObjDef := ⟨0x2202, 0x03, .u32, .ro, false, 0, .full, .ab, 48, 48⟩
/-- 0x2202.04 `RC.KEY.LAST`. -/
def Obj.rcKeyLast : ObjDef := ⟨0x2202, 0x04, .u64, .ro, false, 0, .full, .ab, 48, 48⟩
/-- 0x2210.01 `RC.GZ.ENABLE`. -/
def Obj.rcGzEnable : ObjDef := ⟨0x2210, 0x01, .enum8, .rw, true, 0, (.between (0) 1), .ab, 48, 48⟩
/-- 0x2210.02 `RC.GZ.MAP.ENABLE`. -/
def Obj.rcGzMapEnable : ObjDef := ⟨0x2210, 0x02, .enum8, .rw, true, 0, (.between (0) 1), .ab, 48, 48⟩
/-- 0x2210.03 `RC.GZ.MAP.SELECT`. -/
def Obj.rcGzMapSelect : ObjDef := ⟨0x2210, 0x03, .u8, .rw, true, 0, (.between (0) 1), .ab, 48, 48⟩
/-- 0x2210.04 `RC.GZ.MAP.SLOT`. -/
def Obj.rcGzMapSlot : ObjDef := ⟨0x2210, 0x04, .u8, .rw, false, 0, (.between (0) 2), .ab, 48, 48⟩
/-- 0x2210.05 `RC.GZ.MAP.OFFSET`. -/
def Obj.rcGzMapOffset : ObjDef := ⟨0x2210, 0x05, .u32, .rw, false, 0, .full, .ab, 48, 48⟩
/-- 0x2210.06 `RC.GZ.MAP.DATA`. -/
def Obj.rcGzMapData : ObjDef := ⟨0x2210, 0x06, (.domainMax 65536), .wo, false, 0, .full, .ab, 48, 48⟩
/-- 0x2210.07 `RC.GZ.RECOV.ENABLE`. -/
def Obj.rcGzRecovEnable : ObjDef := ⟨0x2210, 0x07, .enum8, .rw, true, 0, (.between (0) 1), .ab, 48, 48⟩
/-- 0x2211.01 `RC.GZ.RECT`. -/
def Obj.rcGzRect : ObjDef := ⟨0x2211, 0x01, (.domain 10), .rw, true, 0, .full, .ab, 768, 768⟩
/-- 0x2300.01 `ENT.STATUS`. -/
def Obj.entStatus : ObjDef := ⟨0x2300, 0x01, .bits8, .ro, false, 0, .full, .ab, 1, 1⟩
/-- 0x2300.02 `ENT.STICKY`. -/
def Obj.entSticky : ObjDef := ⟨0x2300, 0x02, .bits8, .w1c, false, 0, (.mask 3), .ab, 1, 1⟩
/-- 0x2300.03 `ENT.COUNT`. -/
def Obj.entCount : ObjDef := ⟨0x2300, 0x03, .u32, .ro, false, 0, .full, .ab, 1, 1⟩
/-- 0x2301.01 `ENT.CH.PAR`. -/
def Obj.entChPar : ObjDef := ⟨0x2301, 0x01, .enum8, .rwc, true, 0, (.between (0) 1), .ab, 48, 48⟩
/-- 0x2301.02 `ENT.CH.TILES`. -/
def Obj.entChTiles : ObjDef := ⟨0x2301, 0x02, .u8, .rwc, true, 2, (.oneOf [2, 4, 8]), .ab, 48, 48⟩
/-- 0x2301.03 `ENT.CH.BINRATE`. -/
def Obj.entChBinrate : ObjDef := ⟨0x2301, 0x03, .u64, .rwc, true, 300000000, (.between (1000000) 24000000000), .ab, 48, 48⟩
/-- 0x2301.04 `ENT.CH.ENGINES`. -/
def Obj.entChEngines : ObjDef := ⟨0x2301, 0x04, .bits8, .ro, false, 0, .full, .ab, 48, 48⟩
/-- 0x2301.05 `ENT.CH.BINCAP`. -/
def Obj.entChBincap : ObjDef := ⟨0x2301, 0x05, .u32, .ro, false, 0, .full, .ab, 48, 48⟩
/-- 0x2301.06 `ENT.CH.OVH.NONIRAP`. -/
def Obj.entChOvhNonirap : ObjDef := ⟨0x2301, 0x06, .u32, .ro, false, 0, .full, .ab, 48, 48⟩
/-- 0x2301.07 `ENT.CH.OVH.IRAP`. -/
def Obj.entChOvhIrap : ObjDef := ⟨0x2301, 0x07, .u32, .ro, false, 0, .full, .ab, 48, 48⟩
/-- 0x2301.08 `ENT.CH.OVH.MAX`. -/
def Obj.entChOvhMax : ObjDef := ⟨0x2301, 0x08, .u32, .ro, false, 0, .full, .ab, 48, 48⟩
/-- 0x2301.09 `ENT.CH.HDR.SEI`. -/
def Obj.entChHdrSei : ObjDef := ⟨0x2301, 0x09, .enum8, .rw, true, 0, (.between (0) 1), .ab, 48, 48⟩
/-- 0x2301.0A `ENT.CH.HDR.MDCV`. -/
def Obj.entChHdrMdcv : ObjDef := ⟨0x2301, 0x0A, (.domain 24), .rw, true, 0, .full, .ab, 48, 48⟩
/-- 0x2301.0B `ENT.CH.HDR.CLL`. -/
def Obj.entChHdrCll : ObjDef := ⟨0x2301, 0x0B, (.domain 4), .rw, true, 0, .full, .ab, 48, 48⟩
/-- 0x2301.0C `ENT.CH.DPH`. -/
def Obj.entChDph : ObjDef := ⟨0x2301, 0x0C, .enum8, .rw, true, 0, (.between (0) 1), .ab, 48, 48⟩
/-- 0x2301.0D `ENT.CH.SEI.USER`. -/
def Obj.entChSeiUser : ObjDef := ⟨0x2301, 0x0D, (.domainMax 160), .rw, false, 0, .full, .ab, 48, 48⟩
/-- 0x2301.0E `ENT.CH.SEI.USER.SEND`. -/
def Obj.entChSeiUserSend : ObjDef := ⟨0x2301, 0x0E, .enum8, .wo, false, 0, (.between (1) 1), .abp, 48, 48⟩
/-- 0x2301.0F `ENT.CH.STATUS`. -/
def Obj.entChStatus : ObjDef := ⟨0x2301, 0x0F, .bits8, .ro, false, 0, .full, .ab, 48, 48⟩
/-- 0x2301.10 `ENT.CH.STICKY`. -/
def Obj.entChSticky : ObjDef := ⟨0x2301, 0x10, .bits8, .w1c, false, 0, (.mask 7), .ab, 48, 48⟩
/-- 0x2301.11 `ENT.CH.LATE.COUNT`. -/
def Obj.entChLateCount : ObjDef := ⟨0x2301, 0x11, .u32, .ro, false, 0, .full, .ab, 48, 48⟩
/-- 0x2301.12 `ENT.CH.BINSCRIM.COUNT`. -/
def Obj.entChBinscrimCount : ObjDef := ⟨0x2301, 0x12, .u64, .ro, false, 0, .full, .ab, 48, 48⟩
/-- 0x2301.13 `ENT.CH.OUT.BYTES`. -/
def Obj.entChOutBytes : ObjDef := ⟨0x2301, 0x13, .u64, .ro, false, 0, .full, .ab, 48, 48⟩
/-- 0x2302.01 `ENT.TS.PROGRAM`. -/
def Obj.entTsProgram : ObjDef := ⟨0x2302, 0x01, .u16, .rwc, true, 1, (.between (1) 65535), .ab, 48, 48⟩
/-- 0x2302.02 `ENT.TS.PMT.PID`. -/
def Obj.entTsPmtPid : ObjDef := ⟨0x2302, 0x02, .u16, .rwc, true, 0x0100, (.between (16) 8190), .ab, 48, 48⟩
/-- 0x2302.03 `ENT.TS.VIDEO.PID`. -/
def Obj.entTsVideoPid : ObjDef := ⟨0x2302, 0x03, .u16, .rwc, true, 0x0101, (.between (16) 8190), .ab, 48, 48⟩
/-- 0x2302.04 `ENT.TS.DELAY`. -/
def Obj.entTsDelay : ObjDef := ⟨0x2302, 0x04, .u32, .rwc, true, 9000, (.between (0) 900000), .ab, 48, 48⟩
/-- 0x2302.05 `ENT.TS.PSI.INTERVAL`. -/
def Obj.entTsPsiInterval : ObjDef := ⟨0x2302, 0x05, .u16, .rwc, true, 100, (.between (20) 500), .ab, 48, 48⟩
/-- 0x2310.01 `ENT.ENG.LOAD`. -/
def Obj.entEngLoad : ObjDef := ⟨0x2310, 0x01, .u64, .ro, false, 0, .full, .ab, 8, 8⟩
/-- 0x2310.02 `ENT.ENG.CHANNELS`. -/
def Obj.entEngChannels : ObjDef := ⟨0x2310, 0x02, .u64, .ro, false, 0, .full, .ab, 8, 8⟩
/-- 0x2400.01 `DEC.STATUS`. -/
def Obj.decStatus : ObjDef := ⟨0x2400, 0x01, .bits8, .ro, false, 0, .full, .ab, 1, 1⟩
/-- 0x2400.02 `DEC.STICKY`. -/
def Obj.decSticky : ObjDef := ⟨0x2400, 0x02, .bits8, .w1c, false, 0, (.mask 1), .ab, 1, 1⟩
/-- 0x2400.03 `DEC.COUNT`. -/
def Obj.decCount : ObjDef := ⟨0x2400, 0x03, .u32, .ro, false, 0, .full, .ab, 1, 1⟩
/-- 0x2400.04 `DEC.LOAD`. -/
def Obj.decLoad : ObjDef := ⟨0x2400, 0x04, .u64, .ro, false, 0, .full, .ab, 1, 1⟩
/-- 0x2401.01 `DEC.CTX.ENABLE`. -/
def Obj.decCtxEnable : ObjDef := ⟨0x2401, 0x01, .enum8, .rwc, true, 0, (.between (0) 1), .ab, 4, 4⟩
/-- 0x2401.02 `DEC.CTX.CODEC`. -/
def Obj.decCtxCodec : ObjDef := ⟨0x2401, 0x02, .enum8, .rwc, true, 1, (.between (0) 1), .ab, 4, 4⟩
/-- 0x2401.03 `DEC.CTX.FORMAT`. -/
def Obj.decCtxFormat : ObjDef := ⟨0x2401, 0x03, .enum16, .rwc, true, 0x0607, .format, .ab, 4, 4⟩
/-- 0x2401.04 `DEC.CTX.ATTR`. -/
def Obj.decCtxAttr : ObjDef := ⟨0x2401, 0x04, .u16, .rwc, true, 0x0110, .full, .ab, 4, 4⟩
/-- 0x2401.05 `DEC.CTX.OUTPUT`. -/
def Obj.decCtxOutput : ObjDef := ⟨0x2401, 0x05, .u16, .rwc, true, 0, .full, .ab, 4, 4⟩
/-- 0x2401.06 `DEC.CTX.MAXRATE`. -/
def Obj.decCtxMaxrate : ObjDef := ⟨0x2401, 0x06, .u64, .rwc, true, 200000000, (.between (1000000) 1000000000), .ab, 4, 4⟩
/-- 0x2401.07 `DEC.CTX.CPB.SIZE`. -/
def Obj.decCtxCpbSize : ObjDef := ⟨0x2401, 0x07, .u32, .rwc, true, 16777216, (.between (1048576) 268435456), .ab, 4, 4⟩
/-- 0x2401.08 `DEC.CTX.DPB.PICS`. -/
def Obj.decCtxDpbPics : ObjDef := ⟨0x2401, 0x08, .u8, .rwc, true, 6, (.between (2) 16), .ab, 4, 4⟩
/-- 0x2401.09 `DEC.CTX.CONTROL`. -/
def Obj.decCtxControl : ObjDef := ⟨0x2401, 0x09, .enum8, .wo, false, 0, (.between (1) 1), .ab, 4, 4⟩
/-- 0x2401.0A `DEC.CTX.STATE`. -/
def Obj.decCtxState : ObjDef := ⟨0x2401, 0x0A, .enum8, .ro, false, 0, .full, .ab, 4, 4⟩
/-- 0x2401.0B `DEC.CTX.STATUS`. -/
def Obj.decCtxStatus : ObjDef := ⟨0x2401, 0x0B, .bits8, .ro, false, 0, .full, .ab, 4, 4⟩
/-- 0x2401.0C `DEC.CTX.STICKY`. -/
def Obj.decCtxSticky : ObjDef := ⟨0x2401, 0x0C, .bits8, .w1c, false, 0, (.mask 63), .ab, 4, 4⟩
/-- 0x2401.0D `DEC.CTX.COUNT`. -/
def Obj.decCtxCount : ObjDef := ⟨0x2401, 0x0D, .u64, .ro, false, 0, .full, .ab, 4, 4⟩
/-- 0x2401.0E `DEC.CTX.SUBST.COUNT`. -/
def Obj.decCtxSubstCount : ObjDef := ⟨0x2401, 0x0E, .u32, .ro, false, 0, .full, .ab, 4, 4⟩
/-- 0x2401.0F `DEC.CTX.CONCEAL.COUNT`. -/
def Obj.decCtxConcealCount : ObjDef := ⟨0x2401, 0x0F, .u64, .ro, false, 0, .full, .ab, 4, 4⟩
/-- 0x2401.10 `DEC.CTX.ERROR.COUNT`. -/
def Obj.decCtxErrorCount : ObjDef := ⟨0x2401, 0x10, .u32, .ro, false, 0, .full, .ab, 4, 4⟩
/-- 0x2401.11 `DEC.CTX.DISCARD.COUNT`. -/
def Obj.decCtxDiscardCount : ObjDef := ⟨0x2401, 0x11, .u32, .ro, false, 0, .full, .ab, 4, 4⟩
/-- 0x2401.12 `DEC.CTX.PROFILE`. -/
def Obj.decCtxProfile : ObjDef := ⟨0x2401, 0x12, .u16, .ro, false, 0, .full, .ab, 4, 4⟩
/-- 0x2401.13 `DEC.CTX.CPB.FILL`. -/
def Obj.decCtxCpbFill : ObjDef := ⟨0x2401, 0x13, .u32, .ro, false, 0, .full, .ab, 4, 4⟩
/-- 0x2401.14 `DEC.CTX.REJECT`. -/
def Obj.decCtxReject : ObjDef := ⟨0x2401, 0x14, .u8, .ro, false, 0, .full, .ab, 4, 4⟩
/-- 0x2800.01 `AUD.STATUS`. -/
def Obj.audStatus : ObjDef := ⟨0x2800, 0x01, .bits8, .ro, false, 0, .full, .ab, 1, 1⟩
/-- 0x2800.02 `AUD.STICKY`. -/
def Obj.audSticky : ObjDef := ⟨0x2800, 0x02, .bits8, .w1c, false, 0, (.mask 15), .ab, 1, 1⟩
/-- 0x2800.03 `AUD.COUNT`. -/
def Obj.audCount : ObjDef := ⟨0x2800, 0x03, .u32, .ro, false, 0, .full, .ab, 1, 1⟩
/-- 0x2800.04 `AUD.RAMP`. -/
def Obj.audRamp : ObjDef := ⟨0x2800, 0x04, .enum8, .rw, true, 3, (.between (0) 5), .ab, 1, 1⟩
/-- 0x2801.01 `AUD.BANK.RATE`. -/
def Obj.audBankRate : ObjDef := ⟨0x2801, 0x01, .enum8, .rwc, true, 3, (.between (0) 7), .ab, 8, 8⟩
/-- 0x2802.01 `AUD.PORT.ENABLE`. -/
def Obj.audPortEnable : ObjDef := ⟨0x2802, 0x01, .enum8, .rwc, true, 0, (.between (0) 1), .ab, 16, 16⟩
/-- 0x2802.02 `AUD.PORT.ROLE`. -/
def Obj.audPortRole : ObjDef := ⟨0x2802, 0x02, .enum8, .rwc, true, 0, (.between (0) 1), .ab, 16, 16⟩
/-- 0x2802.03 `AUD.PORT.ISLAND`. -/
def Obj.audPortIsland : ObjDef := ⟨0x2802, 0x03, .u8, .rwc, true, 0xFF, (.oneOf [0, 1, 2, 3, 4, 5, 6, 7, 255]), .ab, 16, 16⟩
/-- 0x2802.04 `AUD.PORT.FRAMING`. -/
def Obj.audPortFraming : ObjDef := ⟨0x2802, 0x04, .enum8, .rwc, true, 0, (.between (0) 5), .ab, 16, 16⟩
/-- 0x2802.05 `AUD.PORT.WIDTH`. -/
def Obj.audPortWidth : ObjDef := ⟨0x2802, 0x05, .enum8, .rwc, true, 1, (.between (0) 2), .ab, 16, 16⟩
/-- 0x2802.06 `AUD.PORT.FSY.WIDTH`. -/
def Obj.audPortFsyWidth : ObjDef := ⟨0x2802, 0x06, .enum8, .rwc, true, 0, (.between (0) 2), .ab, 16, 16⟩
/-- 0x2802.07 `AUD.PORT.DELAY`. -/
def Obj.audPortDelay : ObjDef := ⟨0x2802, 0x07, .u8, .rwc, true, 1, (.between (0) 1), .ab, 16, 16⟩
/-- 0x2802.08 `AUD.PORT.POL`. -/
def Obj.audPortPol : ObjDef := ⟨0x2802, 0x08, .bits8, .rwc, true, 0, (.mask 3), .ab, 16, 16⟩
/-- 0x2802.09 `AUD.PORT.IN.FIRST`. -/
def Obj.audPortInFirst : ObjDef := ⟨0x2802, 0x09, .u16, .rwc, true, 0xFFFF, (.noneOr 0xFFFF 2047), .ab, 16, 16⟩
/-- 0x2802.0A `AUD.PORT.OUT.FIRST`. -/
def Obj.audPortOutFirst : ObjDef := ⟨0x2802, 0x0A, .u16, .rwc, true, 0xFFFF, (.noneOr 0xFFFF 2047), .ab, 16, 16⟩
/-- 0x2802.0B `AUD.PORT.IN.MASK`. -/
def Obj.audPortInMask : ObjDef := ⟨0x2802, 0x0B, .u32, .rw, true, 0, .full, .ab, 16, 16⟩
/-- 0x2802.0C `AUD.PORT.OUT.MASK`. -/
def Obj.audPortOutMask : ObjDef := ⟨0x2802, 0x0C, .u32, .rw, true, 0, .full, .ab, 16, 16⟩
/-- 0x2802.0D `AUD.PORT.COMMIT`. -/
def Obj.audPortCommit : ObjDef := ⟨0x2802, 0x0D, .enum8, .wo, false, 0, (.between (1) 1), .ab, 16, 16⟩
/-- 0x2802.0E `AUD.PORT.FIFO.TARGET`. -/
def Obj.audPortFifoTarget : ObjDef := ⟨0x2802, 0x0E, .u8, .rwc, true, 8, (.between (2) 32), .ab, 16, 16⟩
/-- 0x2802.0F `AUD.PORT.WM.LEVEL`. -/
def Obj.audPortWmLevel : ObjDef := ⟨0x2802, 0x0F, .u8, .rw, true, 48, (.between (1) 63), .ab, 16, 16⟩
/-- 0x2802.10 `AUD.PORT.WM.HYST`. -/
def Obj.audPortWmHyst : ObjDef := ⟨0x2802, 0x10, .u8, .rw, true, 4, .full, .ab, 16, 16⟩
/-- 0x2802.11 `AUD.PORT.FILL`. -/
def Obj.audPortFill : ObjDef := ⟨0x2802, 0x11, .u16, .ro, false, 0, .full, .ab, 16, 16⟩
/-- 0x2802.12 `AUD.PORT.START.GROUP`. -/
def Obj.audPortStartGroup : ObjDef := ⟨0x2802, 0x12, .u8, .rw, true, 0, .full, .ab, 16, 16⟩
/-- 0x2802.13 `AUD.PORT.ARM`. -/
def Obj.audPortArm : ObjDef := ⟨0x2802, 0x13, .enum8, .wo, false, 0, (.between (1) 2), .ab, 16, 16⟩
/-- 0x2802.14 `AUD.PORT.STATE`. -/
def Obj.audPortState : ObjDef := ⟨0x2802, 0x14, .enum8, .ro, false, 0, .full, .ab, 16, 16⟩
/-- 0x2802.15 `AUD.PORT.RATE`. -/
def Obj.audPortRate : ObjDef := ⟨0x2802, 0x15, .u32, .ro, false, 0, .full, .ab, 16, 16⟩
/-- 0x2802.16 `AUD.PORT.RATE.CLASS`. -/
def Obj.audPortRateClass : ObjDef := ⟨0x2802, 0x16, .enum8, .ro, false, 0, .full, .ab, 16, 16⟩
/-- 0x2802.17 `AUD.PORT.STATUS`. -/
def Obj.audPortStatus : ObjDef := ⟨0x2802, 0x17, .bits8, .ro, false, 0, .full, .ab, 16, 16⟩
/-- 0x2802.18 `AUD.PORT.STICKY`. -/
def Obj.audPortSticky : ObjDef := ⟨0x2802, 0x18, .bits8, .w1c, false, 0, (.mask 63), .ab, 16, 16⟩
/-- 0x2802.19 `AUD.PORT.WM.COUNT`. -/
def Obj.audPortWmCount : ObjDef := ⟨0x2802, 0x19, .u16, .ro, false, 0, .full, .ab, 16, 16⟩
/-- 0x2802.1A `AUD.PORT.SLIP.COUNT`. -/
def Obj.audPortSlipCount : ObjDef := ⟨0x2802, 0x1A, .u32, .ro, false, 0, .full, .ab, 16, 16⟩
/-- 0x2802.1B `AUD.PORT.GLITCH.COUNT`. -/
def Obj.audPortGlitchCount : ObjDef := ⟨0x2802, 0x1B, .u32, .ro, false, 0, .full, .ab, 16, 16⟩
/-- 0x2802.1C `AUD.PORT.REJECT`. -/
def Obj.audPortReject : ObjDef := ⟨0x2802, 0x1C, .u8, .ro, false, 0, .full, .ab, 16, 16⟩
/-- 0x2803.01 `AUD.ISL.RATE`. -/
def Obj.audIslRate : ObjDef := ⟨0x2803, 0x01, .enum8, .rwc, true, 0, (.between (0) 7), .ab, 8, 8⟩
/-- 0x2803.02 `AUD.ISL.MCK`. -/
def Obj.audIslMck : ObjDef := ⟨0x2803, 0x02, .enum8, .rwc, true, 1, (.between (0) 2), .ab, 8, 8⟩
/-- 0x2803.03 `AUD.ISL.LEAD`. -/
def Obj.audIslLead : ObjDef := ⟨0x2803, 0x03, .u8, .rwc, true, 0xFF, (.noneOr 0xFF 15), .ab, 8, 8⟩
/-- 0x2803.04 `AUD.ISL.KP`. -/
def Obj.audIslKp : ObjDef := ⟨0x2803, 0x04, .u16, .rw, true, 512, .full, .ab, 8, 8⟩
/-- 0x2803.05 `AUD.ISL.KI`. -/
def Obj.audIslKi : ObjDef := ⟨0x2803, 0x05, .u16, .rw, true, 64, .full, .ab, 8, 8⟩
/-- 0x2803.06 `AUD.ISL.CORR`. -/
def Obj.audIslCorr : ObjDef := ⟨0x2803, 0x06, .s32, .ro, false, 0, .full, .ab, 8, 8⟩
/-- 0x2803.07 `AUD.ISL.STATUS`. -/
def Obj.audIslStatus : ObjDef := ⟨0x2803, 0x07, .bits8, .ro, false, 0, .full, .ab, 8, 8⟩
/-- 0x2803.08 `AUD.ISL.STICKY`. -/
def Obj.audIslSticky : ObjDef := ⟨0x2803, 0x08, .bits8, .w1c, false, 0, (.mask 1), .ab, 8, 8⟩
/-- 0x2804.01 `AUD.OUT.SOURCE`. -/
def Obj.audOutSource : ObjDef := ⟨0x2804, 0x01, .u16, .rw, true, 0xFFFF, (.noneOr 0xFFFF 2047), .ab, 2048, 2048⟩
/-- 0x2804.02 `AUD.OUT.GAIN`. -/
def Obj.audOutGain : ObjDef := ⟨0x2804, 0x02, .s32, .rw, true, 134217728, .full, .ab, 2048, 2048⟩
/-- 0x2804.03 `AUD.OUT.MUTE`. -/
def Obj.audOutMute : ObjDef := ⟨0x2804, 0x03, .enum8, .rw, true, 0, (.between (0) 1), .ab, 2048, 2048⟩
/-- 0x2804.04 `AUD.OUT.DELAY`. -/
def Obj.audOutDelay : ObjDef := ⟨0x2804, 0x04, .u16, .rw, true, 0, (.between (0) 9600), .ab, 2048, 2048⟩
/-- 0x2804.05 `AUD.OUT.GROUP`. -/
def Obj.audOutGroup : ObjDef := ⟨0x2804, 0x05, .u8, .rw, true, 0, .full, .ab, 2048, 2048⟩
/-- 0x2804.06 `AUD.OUT.ACTIVE`. -/
def Obj.audOutActive : ObjDef := ⟨0x2804, 0x06, .u16, .ro, false, 0xFFFF, .full, .ab, 2048, 2048⟩
/-- 0x2804.07 `AUD.OUT.STATUS`. -/
def Obj.audOutStatus : ObjDef := ⟨0x2804, 0x07, .bits8, .ro, false, 0, .full, .ab, 2048, 2048⟩
/-- 0x2805.01 `AUD.GROUP.COMMIT`. -/
def Obj.audGroupCommit : ObjDef := ⟨0x2805, 0x01, .enum8, .wo, false, 0, (.between (1) 1), .abp, 256, 256⟩
/-- 0x2806.01 `AUD.START.TRIGGER`. -/
def Obj.audStartTrigger : ObjDef := ⟨0x2806, 0x01, .enum8, .wo, false, 0, (.between (1) 1), .abp, 256, 256⟩
/-- 0x2806.02 `AUD.START.LAST`. -/
def Obj.audStartLast : ObjDef := ⟨0x2806, 0x02, .u64, .ro, false, 0, .full, .abp, 256, 256⟩
/-- 0x2807.01 `AUD.FLOW.DELAY`. -/
def Obj.audFlowDelay : ObjDef := ⟨0x2807, 0x01, .u16, .rwc, true, 96, (.between (12) 9600), .ab, 4096, 4096⟩
/-- 0x2807.02 `AUD.FLOW.STATUS`. -/
def Obj.audFlowStatus : ObjDef := ⟨0x2807, 0x02, .bits8, .ro, false, 0, .full, .ab, 4096, 4096⟩
/-- 0x2807.03 `AUD.FLOW.STICKY`. -/
def Obj.audFlowSticky : ObjDef := ⟨0x2807, 0x03, .bits8, .w1c, false, 0, (.mask 7), .ab, 4096, 4096⟩
/-- 0x2807.04 `AUD.FLOW.MISS.COUNT`. -/
def Obj.audFlowMissCount : ObjDef := ⟨0x2807, 0x04, .u64, .ro, false, 0, .full, .ab, 4096, 4096⟩
/-- 0x2807.05 `AUD.FLOW.LATE.COUNT`. -/
def Obj.audFlowLateCount : ObjDef := ⟨0x2807, 0x05, .u64, .ro, false, 0, .full, .ab, 4096, 4096⟩
/-- 0x2807.06 `AUD.FLOW.REBASE.COUNT`. -/
def Obj.audFlowRebaseCount : ObjDef := ⟨0x2807, 0x06, .u32, .ro, false, 0, .full, .ab, 4096, 4096⟩
/-- 0x2808.01 `AUD.FLOW.OUT.TSOFS`. -/
def Obj.audFlowOutTsofs : ObjDef := ⟨0x2808, 0x01, .u32, .rw, true, 0, .full, .ab, 4096, 4096⟩
/-- 0x2809.01 `AUD.IN.PRODUCER`. -/
def Obj.audInProducer : ObjDef := ⟨0x2809, 0x01, .u16, .ro, false, 0, .full, .ab, 2048, 2048⟩
/-- 0x3000.01 `MEM.STATUS`. -/
def Obj.memStatus : ObjDef := ⟨0x3000, 0x01, .bits8, .ro, false, 0, .full, .ab, 1, 1⟩
/-- 0x3000.02 `MEM.STICKY`. -/
def Obj.memSticky : ObjDef := ⟨0x3000, 0x02, .bits8, .w1c, false, 0, (.mask 15), .ab, 1, 1⟩
/-- 0x3000.03 `MEM.COUNT`. -/
def Obj.memCount : ObjDef := ⟨0x3000, 0x03, .u32, .ro, false, 0, .full, .ab, 1, 1⟩
/-- 0x3000.04 `MEM.MODULE`. -/
def Obj.memModule : ObjDef := ⟨0x3000, 0x04, .enum8, .rwc, true, 1, (.between (0) 1), .ab, 1, 1⟩
/-- 0x3000.05 `MEM.DEV.WIDTH`. -/
def Obj.memDevWidth : ObjDef := ⟨0x3000, 0x05, .enum8, .rwc, true, 1, (.between (0) 1), .ab, 1, 1⟩
/-- 0x3000.06 `MEM.DEV.DENSITY`. -/
def Obj.memDevDensity : ObjDef := ⟨0x3000, 0x06, .enum8, .rwc, true, 2, (.between (0) 2), .ab, 1, 1⟩
/-- 0x3000.07 `MEM.RANKS`. -/
def Obj.memRanks : ObjDef := ⟨0x3000, 0x07, .u8, .rwc, true, 1, (.between (1) 2), .ab, 1, 1⟩
/-- 0x3000.08 `MEM.CH.FITTED`. -/
def Obj.memChFitted : ObjDef := ⟨0x3000, 0x08, .bits16, .rwc, true, 0x0FFF, (.mask 4095), .ab, 1, 1⟩
/-- 0x3000.09 `MEM.CH.ENABLED`. -/
def Obj.memChEnabled : ObjDef := ⟨0x3000, 0x09, .bits16, .ro, false, 0, .full, .ab, 1, 1⟩
/-- 0x3000.0A `MEM.CAPACITY`. -/
def Obj.memCapacity : ObjDef := ⟨0x3000, 0x0A, .u64, .ro, false, 0, .full, .ab, 1, 1⟩
/-- 0x3000.0B `MEM.FREE`. -/
def Obj.memFree : ObjDef := ⟨0x3000, 0x0B, .u64, .ro, false, 0, .full, .ab, 1, 1⟩
/-- 0x3000.0C `MEM.BW.LIMIT`. -/
def Obj.memBwLimit : ObjDef := ⟨0x3000, 0x0C, .u32, .rwc, true, 200000, (.between (50000) 215000), .ab, 1, 1⟩
/-- 0x3000.0D `MEM.BW.COMMITTED`. -/
def Obj.memBwCommitted : ObjDef := ⟨0x3000, 0x0D, .u32, .ro, false, 0, .full, .ab, 1, 1⟩
/-- 0x3000.0E `MEM.REFRESH.MODE`. -/
def Obj.memRefreshMode : ObjDef := ⟨0x3000, 0x0E, .enum8, .rw, true, 0, (.between (0) 2), .ab, 1, 1⟩
/-- 0x3000.0F `MEM.REFRESH.MARGIN`. -/
def Obj.memRefreshMargin : ObjDef := ⟨0x3000, 0x0F, .u8, .rw, true, 8, (.between (0) 64), .ab, 1, 1⟩
/-- 0x3000.10 `MEM.RH.THRESHOLD`. -/
def Obj.memRhThreshold : ObjDef := ⟨0x3000, 0x10, .u32, .rw, true, 32768, (.between (4096) 1048576), .ab, 1, 1⟩
/-- 0x3000.11 `MEM.SCRUB.PERIOD`. -/
def Obj.memScrubPeriod : ObjDef := ⟨0x3000, 0x11, .u8, .rw, true, 24, (.between (1) 168), .ab, 1, 1⟩
/-- 0x3000.12 `MEM.SCRUB.FAST`. -/
def Obj.memScrubFast : ObjDef := ⟨0x3000, 0x12, .u16, .rw, true, 600, (.between (60) 3600), .ab, 1, 1⟩
/-- 0x3000.13 `MEM.SCRUB.ADDR`. -/
def Obj.memScrubAddr : ObjDef := ⟨0x3000, 0x13, .u64, .ro, false, 0, .full, .ab, 1, 1⟩
/-- 0x3000.14 `MEM.EYE.MIN`. -/
def Obj.memEyeMin : ObjDef := ⟨0x3000, 0x14, .u8, .rw, true, 8, (.between (2) 16), .ab, 1, 1⟩
/-- 0x3001.01 `MEM.CH.STATE`. -/
def Obj.memChState : ObjDef := ⟨0x3001, 0x01, .enum8, .ro, false, 0, .full, .ab, 12, 12⟩
/-- 0x3001.02 `MEM.CH.STATUS`. -/
def Obj.memChStatus : ObjDef := ⟨0x3001, 0x02, .bits8, .ro, false, 0, .full, .ab, 12, 12⟩
/-- 0x3001.03 `MEM.CH.STICKY`. -/
def Obj.memChSticky : ObjDef := ⟨0x3001, 0x03, .bits16, .w1c, false, 0, (.mask 511), .ab, 12, 12⟩
/-- 0x3001.04 `MEM.CH.CE.COUNT`. -/
def Obj.memChCeCount : ObjDef := ⟨0x3001, 0x04, .u32, .ro, true, 0, .full, .ab, 12, 12⟩
/-- 0x3001.05 `MEM.CH.UE.COUNT`. -/
def Obj.memChUeCount : ObjDef := ⟨0x3001, 0x05, .u32, .ro, true, 0, .full, .ab, 12, 12⟩
/-- 0x3001.06 `MEM.CH.ECC.LAST`. -/
def Obj.memChEccLast : ObjDef := ⟨0x3001, 0x06, .u64, .ro, false, 0, .full, .ab, 12, 12⟩
/-- 0x3001.07 `MEM.CH.ALERT.COUNT`. -/
def Obj.memChAlertCount : ObjDef := ⟨0x3001, 0x07, .u32, .ro, false, 0, .full, .ab, 12, 12⟩
/-- 0x3001.08 `MEM.CH.REPLAY.COUNT`. -/
def Obj.memChReplayCount : ObjDef := ⟨0x3001, 0x08, .u32, .ro, false, 0, .full, .ab, 12, 12⟩
/-- 0x3001.09 `MEM.CH.REF.POSTPONE.COUNT`. -/
def Obj.memChRefPostponeCount : ObjDef := ⟨0x3001, 0x09, .u32, .ro, false, 0, .full, .ab, 12, 12⟩
/-- 0x3001.0A `MEM.CH.REF.FORCED.COUNT`. -/
def Obj.memChRefForcedCount : ObjDef := ⟨0x3001, 0x0A, .u32, .ro, false, 0, .full, .ab, 12, 12⟩
/-- 0x3001.0B `MEM.CH.RH.COUNT`. -/
def Obj.memChRhCount : ObjDef := ⟨0x3001, 0x0B, .u32, .ro, false, 0, .full, .ab, 12, 12⟩
/-- 0x3001.0C `MEM.CH.MARGIN`. -/
def Obj.memChMargin : ObjDef := ⟨0x3001, 0x0C, .u16, .ro, false, 0, .full, .ab, 12, 12⟩
/-- 0x3001.0D `MEM.CH.DRIFT`. -/
def Obj.memChDrift : ObjDef := ⟨0x3001, 0x0D, .s8, .ro, false, 0, .full, .ab, 12, 12⟩
/-- 0x3001.0E `MEM.CH.RETRAIN`. -/
def Obj.memChRetrain : ObjDef := ⟨0x3001, 0x0E, .enum8, .wo, false, 0, (.between (1) 1), .ab, 12, 12⟩
/-- 0x3002.01 `MEM.PORT.TARGET`. -/
def Obj.memPortTarget : ObjDef := ⟨0x3002, 0x01, .u32, .rw, true, 0, (.between (200) 10000000), .ab, 25, 25⟩
/-- 0x3002.02 `MEM.PORT.PENDING`. -/
def Obj.memPortPending : ObjDef := ⟨0x3002, 0x02, .u8, .ro, false, 0, .full, .ab, 25, 25⟩
/-- 0x3002.03 `MEM.PORT.WM.LEVEL`. -/
def Obj.memPortWmLevel : ObjDef := ⟨0x3002, 0x03, .u8, .rw, true, 48, .full, .ab, 25, 25⟩
/-- 0x3002.04 `MEM.PORT.WM.HYST`. -/
def Obj.memPortWmHyst : ObjDef := ⟨0x3002, 0x04, .u8, .rw, true, 4, .full, .ab, 25, 25⟩
/-- 0x3002.05 `MEM.PORT.STICKY`. -/
def Obj.memPortSticky : ObjDef := ⟨0x3002, 0x05, .bits8, .w1c, false, 0, (.mask 3), .ab, 25, 25⟩
/-- 0x3002.06 `MEM.PORT.WM.COUNT`. -/
def Obj.memPortWmCount : ObjDef := ⟨0x3002, 0x06, .u16, .ro, false, 0, .full, .ab, 25, 25⟩
/-- 0x3002.07 `MEM.PORT.LATE.COUNT`. -/
def Obj.memPortLateCount : ObjDef := ⟨0x3002, 0x07, .u64, .ro, false, 0, .full, .ab, 25, 25⟩
/-- 0x3002.08 `MEM.PORT.MAXLAT`. -/
def Obj.memPortMaxlat : ObjDef := ⟨0x3002, 0x08, .u32, .ro, false, 0, .full, .ab, 25, 25⟩
/-- 0x3100.01 `BUS.STATUS`. -/
def Obj.busStatus : ObjDef := ⟨0x3100, 0x01, .bits8, .ro, false, 0, .full, .ab, 1, 1⟩
/-- 0x3100.02 `BUS.STICKY`. -/
def Obj.busSticky : ObjDef := ⟨0x3100, 0x02, .bits8, .w1c, false, 0, (.mask 31), .ab, 1, 1⟩
/-- 0x3100.03 `BUS.COUNT`. -/
def Obj.busCount : ObjDef := ⟨0x3100, 0x03, .u32, .ro, false, 0, .full, .ab, 1, 1⟩
/-- 0x3100.04 `BUS.PARITY.COUNT`. -/
def Obj.busParityCount : ObjDef := ⟨0x3100, 0x04, .u32, .ro, false, 0, .full, .ab, 1, 1⟩
/-- 0x3101.01 `BUS.MASTER.STATE`. -/
def Obj.busMasterState : ObjDef := ⟨0x3101, 0x01, .enum8, .ro, false, 0, .full, .ab, 48, 48⟩
/-- 0x3101.02 `BUS.MASTER.OUTSTANDING`. -/
def Obj.busMasterOutstanding : ObjDef := ⟨0x3101, 0x02, .u8, .ro, false, 0, .full, .ab, 48, 48⟩
/-- 0x3101.03 `BUS.MASTER.GEN`. -/
def Obj.busMasterGen : ObjDef := ⟨0x3101, 0x03, .enum8, .ro, false, 0, .full, .ab, 48, 48⟩
/-- 0x3101.04 `BUS.MASTER.FAULT.ADDR`. -/
def Obj.busMasterFaultAddr : ObjDef := ⟨0x3101, 0x04, .u64, .ro, false, 0, .full, .ab, 48, 48⟩
/-- 0x3101.05 `BUS.MASTER.FAULT.COUNT`. -/
def Obj.busMasterFaultCount : ObjDef := ⟨0x3101, 0x05, .u32, .ro, false, 0, .full, .ab, 48, 48⟩
/-- 0x3101.06 `BUS.MASTER.RESET.COUNT`. -/
def Obj.busMasterResetCount : ObjDef := ⟨0x3101, 0x06, .u32, .ro, false, 0, .full, .ab, 48, 48⟩
/-- 0x3101.07 `BUS.MASTER.PERMIT`. -/
def Obj.busMasterPermit : ObjDef := ⟨0x3101, 0x07, .bits32, .const, false, 0, .full, .ab, 48, 48⟩
/-- 0x3101.08 `BUS.MASTER.PORT`. -/
def Obj.busMasterPort : ObjDef := ⟨0x3101, 0x08, .u8, .const, false, 0, .full, .ab, 48, 48⟩
/-- 0x3101.09 `BUS.MASTER.RESET`. -/
def Obj.busMasterReset : ObjDef := ⟨0x3101, 0x09, .enum8, .wo, false, 0, (.between (1) 1), .ab, 48, 48⟩
/-- 0x3102.01 `BUS.TARGET.WAITS`. -/
def Obj.busTargetWaits : ObjDef := ⟨0x3102, 0x01, .u64, .ro, false, 0, .full, .ab, 24, 24⟩
/-- 0x3103.01 `BUS.SEM.OWNER`. -/
def Obj.busSemOwner : ObjDef := ⟨0x3103, 0x01, .u16, .ro, false, 0, .full, .ab, 256, 256⟩
/-- 0x3200.01 `SLV.STATUS`. -/
def Obj.slvStatus : ObjDef := ⟨0x3200, 0x01, .bits8, .ro, false, 0, .full, .p, 1, 1⟩
/-- 0x3200.02 `SLV.STICKY`. -/
def Obj.slvSticky : ObjDef := ⟨0x3200, 0x02, .bits8, .w1c, false, 0, (.mask 255), .p, 1, 1⟩
/-- 0x3200.03 `SLV.COUNT`. -/
def Obj.slvCount : ObjDef := ⟨0x3200, 0x03, .u32, .ro, true, 0, .full, .p, 1, 1⟩
/-- 0x3200.04 `SLV.OWNER`. -/
def Obj.slvOwner : ObjDef := ⟨0x3200, 0x04, .enum8, .ro, false, 0, .full, .p, 1, 1⟩
/-- 0x3200.05 `SLV.DIVERGE.LIMIT`. -/
def Obj.slvDivergeLimit : ObjDef := ⟨0x3200, 0x05, .u8, .rwc, true, 3, (.between (1) 16), .p, 1, 1⟩
/-- 0x3200.06 `SLV.DIVERGE.WINDOW`. -/
def Obj.slvDivergeWindow : ObjDef := ⟨0x3200, 0x06, .u16, .rwc, true, 60, (.between (1) 3600), .p, 1, 1⟩
/-- 0x3201.01 `SLV.STATE`. -/
def Obj.slvState : ObjDef := ⟨0x3201, 0x01, .enum8, .ro, false, 0, .full, .ab, 1, 1⟩
/-- 0x3201.02 `SLV.PATH.STATUS`. -/
def Obj.slvPathStatus : ObjDef := ⟨0x3201, 0x02, .bits8, .ro, false, 0, .full, .ab, 1, 1⟩
/-- 0x3201.03 `SLV.MATCH.COUNT`. -/
def Obj.slvMatchCount : ObjDef := ⟨0x3201, 0x03, .u64, .ro, false, 0, .full, .ab, 1, 1⟩
/-- 0x3201.04 `SLV.MISMATCH.COUNT`. -/
def Obj.slvMismatchCount : ObjDef := ⟨0x3201, 0x04, .u64, .ro, false, 0, .full, .ab, 1, 1⟩
/-- 0x3201.05 `SLV.SUPPRESS.COUNT`. -/
def Obj.slvSuppressCount : ObjDef := ⟨0x3201, 0x05, .u64, .ro, false, 0, .full, .ab, 1, 1⟩
/-- 0x3201.06 `SLV.TIMEOUT.COUNT`. -/
def Obj.slvTimeoutCount : ObjDef := ⟨0x3201, 0x06, .u64, .ro, false, 0, .full, .ab, 1, 1⟩
/-- 0x3201.07 `SLV.UNCOMPARED.COUNT`. -/
def Obj.slvUncomparedCount : ObjDef := ⟨0x3201, 0x07, .u64, .ro, false, 0, .full, .ab, 1, 1⟩
/-- 0x3201.08 `SLV.RESYNC.COUNT`. -/
def Obj.slvResyncCount : ObjDef := ⟨0x3201, 0x08, .u32, .ro, false, 0, .full, .ab, 1, 1⟩
/-- 0x3201.09 `SLV.HB.MISS.COUNT`. -/
def Obj.slvHbMissCount : ObjDef := ⟨0x3201, 0x09, .u32, .ro, false, 0, .full, .ab, 1, 1⟩
/-- 0x3201.0A `SLV.MIRROR.MISS.COUNT`. -/
def Obj.slvMirrorMissCount : ObjDef := ⟨0x3201, 0x0A, .u32, .ro, false, 0, .full, .ab, 1, 1⟩
/-- 0x3201.0B `SLV.ERR.LAST`. -/
def Obj.slvErrLast : ObjDef := ⟨0x3201, 0x0B, (.domain 10), .ro, false, 0, .full, .ab, 1, 1⟩
/-- 0x3201.0C `SLV.BIST.SECTION`. -/
def Obj.slvBistSection : ObjDef := ⟨0x3201, 0x0C, .u8, .ro, false, 6, .full, .ab, 1, 1⟩
/-- 0x3201.0D `SLV.BIST.FAIL.COUNT`. -/
def Obj.slvBistFailCount : ObjDef := ⟨0x3201, 0x0D, .u32, .ro, true, 0, .full, .ab, 1, 1⟩
/-- 0x3201.0E `SLV.REJOIN`. -/
def Obj.slvRejoin : ObjDef := ⟨0x3201, 0x0E, .enum8, .wo, false, 0, (.between (1) 1), .ab, 1, 1⟩
/-- 0x3300.01 `TWL.STATUS`. -/
def Obj.twlStatus : ObjDef := ⟨0x3300, 0x01, .bits8, .ro, false, 0, .full, .p, 1, 1⟩
/-- 0x3300.02 `TWL.STICKY`. -/
def Obj.twlSticky : ObjDef := ⟨0x3300, 0x02, .bits8, .w1c, false, 0, (.mask 255), .p, 1, 1⟩
/-- 0x3300.03 `TWL.COUNT`. -/
def Obj.twlCount : ObjDef := ⟨0x3300, 0x03, .u32, .ro, false, 0, .full, .p, 1, 1⟩
/-- 0x3300.04 `TWL.ENABLE`. -/
def Obj.twlEnable : ObjDef := ⟨0x3300, 0x04, .enum8, .rwc, true, 0, (.between (0) 1), .p, 1, 1⟩
/-- 0x3300.05 `TWL.DEVICE.PREF`. -/
def Obj.twlDevicePref : ObjDef := ⟨0x3300, 0x05, .u8, .rwc, true, 0xFF, (.noneOr 0xFF 63), .p, 1, 1⟩
/-- 0x3300.06 `TWL.DEVICE.ID`. -/
def Obj.twlDeviceId : ObjDef := ⟨0x3300, 0x06, .u8, .ro, false, 0xFF, .full, .p, 1, 1⟩
/-- 0x3300.07 `TWL.STATE`. -/
def Obj.twlState : ObjDef := ⟨0x3300, 0x07, .enum8, .ro, false, 0, .full, .p, 1, 1⟩
/-- 0x3300.08 `TWL.ROOT.SERIAL`. -/
def Obj.twlRootSerial : ObjDef := ⟨0x3300, 0x08, .u64, .ro, false, 0, .full, .p, 1, 1⟩
/-- 0x3300.09 `TWL.ROOT.ID`. -/
def Obj.twlRootId : ObjDef := ⟨0x3300, 0x09, .u8, .ro, false, 0xFF, .full, .p, 1, 1⟩
/-- 0x3300.0A `TWL.PACKAGES`. -/
def Obj.twlPackages : ObjDef := ⟨0x3300, 0x0A, .u8, .ro, false, 0, .full, .p, 1, 1⟩
/-- 0x3300.0B `TWL.GENERATION`. -/
def Obj.twlGeneration : ObjDef := ⟨0x3300, 0x0B, .u32, .ro, false, 0, .full, .p, 1, 1⟩
/-- 0x3300.0C `TWL.TIME.MODE`. -/
def Obj.twlTimeMode : ObjDef := ⟨0x3300, 0x0C, .enum8, .rwc, true, 0, (.between (0) 1), .p, 1, 1⟩
/-- 0x3300.0D `TWL.ID.HOLD`. -/
def Obj.twlIdHold : ObjDef := ⟨0x3300, 0x0D, .u16, .rwc, true, 3600, .full, .p, 1, 1⟩
/-- 0x3300.0E `TWL.HOP.MAX`. -/
def Obj.twlHopMax : ObjDef := ⟨0x3300, 0x0E, .u8, .rwc, true, 8, (.between (1) 16), .p, 1, 1⟩
/-- 0x3300.0F `TWL.PARK`. -/
def Obj.twlPark : ObjDef := ⟨0x3300, 0x0F, .enum8, .rwc, true, 0, (.between (0) 1), .p, 1, 1⟩
/-- 0x3300.10 `TWL.TOPOLOGY`. -/
def Obj.twlTopology : ObjDef := ⟨0x3300, 0x10, (.domainMax 8192), .ro, false, 0, .full, .p, 1, 1⟩
/-- 0x3301.01 `TWL.LINK.STATE`. -/
def Obj.twlLinkState : ObjDef := ⟨0x3301, 0x01, .enum8, .ro, false, 0, .full, .ab, 8, 8⟩
/-- 0x3301.02 `TWL.LINK.PEER.SERIAL`. -/
def Obj.twlLinkPeerSerial : ObjDef := ⟨0x3301, 0x02, .u64, .ro, false, 0, .full, .ab, 8, 8⟩
/-- 0x3301.03 `TWL.LINK.PEER`. -/
def Obj.twlLinkPeer : ObjDef := ⟨0x3301, 0x03, .u16, .ro, false, 0xFFFF, .full, .ab, 8, 8⟩
/-- 0x3301.04 `TWL.LINK.DELAY`. -/
def Obj.twlLinkDelay : ObjDef := ⟨0x3301, 0x04, .u32, .ro, false, 0, .full, .ab, 8, 8⟩
/-- 0x3301.05 `TWL.LINK.COST`. -/
def Obj.twlLinkCost : ObjDef := ⟨0x3301, 0x05, .u8, .rwc, true, 1, (.between (1) 255), .ab, 8, 8⟩
/-- 0x3301.06 `TWL.LINK.TX.USED`. -/
def Obj.twlLinkTxUsed : ObjDef := ⟨0x3301, 0x06, .u8, .ro, false, 0, .full, .ab, 8, 8⟩
/-- 0x3301.07 `TWL.LINK.RX.USED`. -/
def Obj.twlLinkRxUsed : ObjDef := ⟨0x3301, 0x07, .u8, .ro, false, 0, .full, .ab, 8, 8⟩
/-- 0x3301.08 `TWL.LINK.FLIT.LOST`. -/
def Obj.twlLinkFlitLost : ObjDef := ⟨0x3301, 0x08, .u64, .ro, false, 0, .full, .ab, 8, 8⟩
/-- 0x3301.09 `TWL.LINK.CTRL.BAD`. -/
def Obj.twlLinkCtrlBad : ObjDef := ⟨0x3301, 0x09, .u32, .ro, false, 0, .full, .ab, 8, 8⟩
/-- 0x3302.01 `TWL.CH.STATE`. -/
def Obj.twlChState : ObjDef := ⟨0x3302, 0x01, .enum8, .ro, false, 0, .full, .ab, 128, 128⟩
/-- 0x3302.02 `TWL.CH.SOURCE`. -/
def Obj.twlChSource : ObjDef := ⟨0x3302, 0x02, .u32, .ro, false, 0, .full, .ab, 128, 128⟩
/-- 0x3302.03 `TWL.CH.PATH`. -/
def Obj.twlChPath : ObjDef := ⟨0x3302, 0x03, (.domain 32), .ro, false, 0, .full, .ab, 128, 128⟩
/-- 0x3302.04 `TWL.CH.DELAY`. -/
def Obj.twlChDelay : ObjDef := ⟨0x3302, 0x04, .u8, .ro, false, 0, .full, .ab, 128, 128⟩
/-- 0x3302.05 `TWL.CH.LOST.COUNT`. -/
def Obj.twlChLostCount : ObjDef := ⟨0x3302, 0x05, .u64, .ro, false, 0, .full, .ab, 128, 128⟩
/-- 0x3303.01 `TWL.TX.USED`. -/
def Obj.twlTxUsed : ObjDef := ⟨0x3303, 0x01, .u8, .ro, false, 0, .full, .ab, 1, 1⟩
/-- 0x3303.02 `TWL.RX.USED`. -/
def Obj.twlRxUsed : ObjDef := ⟨0x3303, 0x02, .u8, .ro, false, 0, .full, .ab, 1, 1⟩
/-- 0x1002.01 `LCS.STATE`. -/
def Obj.lcsState : ObjDef := ⟨0x1002, 0x01, .enum8, .ro, true, 0, .full, .p, 1, 1⟩
/-- 0x1002.02 `LCS.STATUS`. -/
def Obj.lcsStatus : ObjDef := ⟨0x1002, 0x02, .bits8, .ro, false, 0, .full, .p, 1, 1⟩
/-- 0x1002.03 `LCS.STICKY`. -/
def Obj.lcsSticky : ObjDef := ⟨0x1002, 0x03, .bits8, .w1c, false, 0, (.mask 3), .p, 1, 1⟩
/-- 0x1002.04 `LCS.COUNT`. -/
def Obj.lcsCount : ObjDef := ⟨0x1002, 0x04, .u32, .ro, true, 0, .full, .p, 1, 1⟩
/-- 0x1002.05 `LCS.ADVANCE`. -/
def Obj.lcsAdvance : ObjDef := ⟨0x1002, 0x05, (.domain 9), .wo, false, 0, .full, .p, 1, 1⟩
/-- 0x1002.06 `LCS.DEBUG.KEY`. -/
def Obj.lcsDebugKey : ObjDef := ⟨0x1002, 0x06, (.domain 32), .wo, true, 0, .full, .p, 1, 1⟩
/-- 0x1002.07 `LCS.DEBUG.KEY.ID`. -/
def Obj.lcsDebugKeyId : ObjDef := ⟨0x1002, 0x07, .u32, .ro, true, 0, .full, .p, 1, 1⟩
/-- 0x1002.08 `LCS.DEBUG.CHALLENGE`. -/
def Obj.lcsDebugChallenge : ObjDef := ⟨0x1002, 0x08, (.domain 16), .ro, false, 0, .full, .p, 1, 1⟩
/-- 0x1002.09 `LCS.DEBUG.TOKEN`. -/
def Obj.lcsDebugToken : ObjDef := ⟨0x1002, 0x09, (.domain 100), .wo, false, 0, .full, .p, 1, 1⟩
/-- 0x1003.01 `VOL.PORT.MODE`. -/
def Obj.volPortMode : ObjDef := ⟨0x1003, 0x01, .enum8, .rwc, true, 1, (.between (0) 1), .c, 2, 2⟩
/-- 0x1003.02 `VOL.PORT.MAC`. -/
def Obj.volPortMac : ObjDef := ⟨0x1003, 0x02, .u64, .const, false, 0, .full, .c, 2, 2⟩
/-- 0x1003.03 `VOL.PORT.IPV4`. -/
def Obj.volPortIpv4 : ObjDef := ⟨0x1003, 0x03, .u32, .rwc, true, 0, .full, .c, 2, 2⟩
/-- 0x1003.04 `VOL.PORT.PREFIX`. -/
def Obj.volPortPrefix : ObjDef := ⟨0x1003, 0x04, .u8, .rwc, true, 16, (.between (1) 30), .c, 2, 2⟩
/-- 0x1003.05 `VOL.PORT.GATEWAY`. -/
def Obj.volPortGateway : ObjDef := ⟨0x1003, 0x05, .u32, .rwc, true, 0, .full, .c, 2, 2⟩
/-- 0x1003.06 `VOL.PORT.STATUS`. -/
def Obj.volPortStatus : ObjDef := ⟨0x1003, 0x06, .bits8, .ro, false, 0, .full, .c, 2, 2⟩
/-- 0x1004.01 `VOL.STATUS`. -/
def Obj.volStatus : ObjDef := ⟨0x1004, 0x01, .bits8, .ro, false, 0, .full, .p, 1, 1⟩
/-- 0x1004.02 `VOL.STICKY`. -/
def Obj.volSticky : ObjDef := ⟨0x1004, 0x02, .bits8, .w1c, false, 0, (.mask 31), .p, 1, 1⟩
/-- 0x1004.03 `VOL.COUNT`. -/
def Obj.volCount : ObjDef := ⟨0x1004, 0x03, .u32, .ro, false, 0, .full, .p, 1, 1⟩
/-- 0x1004.04 `VOL.SESSIONS`. -/
def Obj.volSessions : ObjDef := ⟨0x1004, 0x04, .u8, .ro, false, 0, .full, .p, 1, 1⟩
/-- 0x1004.05 `VOL.SESSION.TIMEOUT`. -/
def Obj.volSessionTimeout : ObjDef := ⟨0x1004, 0x05, .u16, .rw, true, 10, (.between (2) 3600), .p, 1, 1⟩
/-- 0x1004.06 `VOL.BOOT.COUNT`. -/
def Obj.volBootCount : ObjDef := ⟨0x1004, 0x06, .u32, .ro, true, 0, .full, .p, 1, 1⟩
/-- 0x1004.07 `VOL.IMAGE.OFFSET`. -/
def Obj.volImageOffset : ObjDef := ⟨0x1004, 0x07, .u32, .rw, false, 0, (.between (0) 4194303), .p, 1, 1⟩
/-- 0x1004.08 `VOL.IMAGE.DATA`. -/
def Obj.volImageData : ObjDef := ⟨0x1004, 0x08, (.domainMax 65536), .wo, false, 0, .full, .p, 1, 1⟩
/-- 0x1004.09 `VOL.IMAGE.APPLY`. -/
def Obj.volImageApply : ObjDef := ⟨0x1004, 0x09, .enum8, .wo, false, 0, (.between (1) 1), .p, 1, 1⟩
/-- 0x1005.01 `VOL.KEY`. -/
def Obj.volKey : ObjDef := ⟨0x1005, 0x01, (.domain 33), .wo, true, 0, .full, .p, 8, 8⟩
/-- 0x1005.02 `VOL.KEY.ID`. -/
def Obj.volKeyId : ObjDef := ⟨0x1005, 0x02, .u32, .ro, true, 0, .full, .p, 8, 8⟩
/-- 0x1005.03 `VOL.KEY.ROLE`. -/
def Obj.volKeyRole : ObjDef := ⟨0x1005, 0x03, .enum8, .ro, true, 0xFF, .full, .p, 8, 8⟩
/-- 0x1006.01 `FW.SLOT.ACTIVE`. -/
def Obj.fwSlotActive : ObjDef := ⟨0x1006, 0x01, .u8, .ro, false, 0, .full, .p, 1, 1⟩
/-- 0x1006.02 `FW.SLOT.VERSION`. -/
def Obj.fwSlotVersion : ObjDef := ⟨0x1006, 0x02, .u32, .ro, false, 0, .full, .p, 2, 2⟩
/-- 0x1006.03 `FW.IMAGE.OFFSET`. -/
def Obj.fwImageOffset : ObjDef := ⟨0x1006, 0x03, .u32, .rw, false, 0, .full, .p, 1, 1⟩
/-- 0x1006.04 `FW.IMAGE.DATA`. -/
def Obj.fwImageData : ObjDef := ⟨0x1006, 0x04, (.domainMax 65536), .wo, false, 0, .full, .p, 1, 1⟩
/-- 0x1006.05 `FW.IMAGE.COMMIT`. -/
def Obj.fwImageCommit : ObjDef := ⟨0x1006, 0x05, .enum8, .wo, false, 0, (.between (1) 1), .p, 1, 1⟩
/-- 0x1007.01 `UCI.STATE`. -/
def Obj.uciState : ObjDef := ⟨0x1007, 0x01, .enum8, .ro, false, 0, .full, .c, 2, 2⟩
/-- 0x1007.02 `UCI.RETRY.COUNT`. -/
def Obj.uciRetryCount : ObjDef := ⟨0x1007, 0x02, .u32, .ro, false, 0, .full, .c, 2, 2⟩
/-- 0x1007.03 `UCI.DOWN.COUNT`. -/
def Obj.uciDownCount : ObjDef := ⟨0x1007, 0x03, .u32, .ro, false, 0, .full, .c, 2, 2⟩
/-- 0x3F00.01 `EVT.STATUS`. -/
def Obj.evtStatus : ObjDef := ⟨0x3F00, 0x01, .bits8, .ro, false, 0, .full, .c, 1, 1⟩
/-- 0x3F00.02 `EVT.STICKY`. -/
def Obj.evtSticky : ObjDef := ⟨0x3F00, 0x02, .bits8, .w1c, false, 0, (.mask 1), .c, 1, 1⟩
/-- 0x3F00.03 `EVT.COUNT`. -/
def Obj.evtCount : ObjDef := ⟨0x3F00, 0x03, .u64, .ro, false, 0, .full, .c, 1, 1⟩
/-- 0x3F00.04 `EVT.GSEQ.NEXT`. -/
def Obj.evtGseqNext : ObjDef := ⟨0x3F00, 0x04, .u64, .ro, false, 1, .full, .c, 1, 1⟩
/-- 0x3F00.05 `EVT.LOG.OLDEST`. -/
def Obj.evtLogOldest : ObjDef := ⟨0x3F00, 0x05, .u64, .ro, false, 1, .full, .c, 1, 1⟩
/-- 0x3F01.01 `EVT.CODE.FLAGS`. -/
def Obj.evtCodeFlags : ObjDef := ⟨0x3F01, 0x01, .bits8, .rw, true, 0, (.mask 3), .c, 65536, 65536⟩
/-- 0x3F20.01 `DIAG.WIN.ADDR`. -/
def Obj.diagWinAddr : ObjDef := ⟨0x3F20, 0x01, .u64, .rw, false, 0, (.between (0) 1099511627775), .ab, 1, 1⟩
/-- 0x3F20.02 `DIAG.WIN.LEN`. -/
def Obj.diagWinLen : ObjDef := ⟨0x3F20, 0x02, .u16, .rw, false, 4, (.between (4) 1024), .ab, 1, 1⟩
/-- 0x3F20.03 `DIAG.WIN.DATA`. -/
def Obj.diagWinData : ObjDef := ⟨0x3F20, 0x03, (.domainMax 1024), .rw, false, 0, .full, .ab, 1, 1⟩
/-- 0x3F20.04 `DIAG.COUNT`. -/
def Obj.diagCount : ObjDef := ⟨0x3F20, 0x04, .u32, .ro, false, 0, .full, .ab, 1, 1⟩
/-- 0x1001.01 `MODE.STATE`. -/
def Obj.modeState : ObjDef := ⟨0x1001, 0x01, .enum8, .ro, false, 0, .full, .p, 1, 1⟩
/-- 0x1001.02 `MODE.REQUEST`. -/
def Obj.modeRequest : ObjDef := ⟨0x1001, 0x02, .enum8, .wo, false, 0, (.between (2) 6), .p, 1, 1⟩
/-- 0x1001.03 `MODE.PENDING`. -/
def Obj.modePending : ObjDef := ⟨0x1001, 0x03, .enum8, .ro, false, 0xFF, .full, .p, 1, 1⟩
/-- 0x1001.04 `MODE.PREVIOUS`. -/
def Obj.modePrevious : ObjDef := ⟨0x1001, 0x04, .enum8, .ro, false, 0, .full, .p, 1, 1⟩
/-- 0x1001.05 `MODE.BOOT.TARGET`. -/
def Obj.modeBootTarget : ObjDef := ⟨0x1001, 0x05, .enum8, .rw, true, 2, (.between (2) 5), .p, 1, 1⟩
/-- 0x1001.06 `MODE.STATUS`. -/
def Obj.modeStatus : ObjDef := ⟨0x1001, 0x06, .bits8, .ro, false, 0, .full, .p, 1, 1⟩
/-- 0x1001.07 `MODE.STICKY`. -/
def Obj.modeSticky : ObjDef := ⟨0x1001, 0x07, .bits8, .w1c, false, 0, (.mask 31), .p, 1, 1⟩
/-- 0x1001.08 `MODE.COUNT`. -/
def Obj.modeCount : ObjDef := ⟨0x1001, 0x08, .u32, .ro, true, 0, .full, .p, 1, 1⟩
/-- 0x1001.09 `MODE.REFUSE`. -/
def Obj.modeRefuse : ObjDef := ⟨0x1001, 0x09, .enum8, .ro, false, 0, .full, .p, 1, 1⟩
/-- 0x1001.0A `MODE.RECOVERY.CAUSE`. -/
def Obj.modeRecoveryCause : ObjDef := ⟨0x1001, 0x0A, .u16, .ro, false, 0, .full, .p, 1, 1⟩
/-- 0x1001.0B `MODE.RECOVERY.DIES`. -/
def Obj.modeRecoveryDies : ObjDef := ⟨0x1001, 0x0B, .bits8, .ro, false, 0, .full, .p, 1, 1⟩
/-- 0x1008.01 `BOOT.STRAPS`. -/
def Obj.bootStraps : ObjDef := ⟨0x1008, 0x01, .bits8, .ro, false, 0, .full, .p, 1, 1⟩
/-- 0x1008.02 `BOOT.TIME`. -/
def Obj.bootTime : ObjDef := ⟨0x1008, 0x02, .u32, .ro, false, 0, .full, .p, 1, 1⟩
/-- 0x1008.03 `BOOT.FAIL.STEP`. -/
def Obj.bootFailStep : ObjDef := ⟨0x1008, 0x03, .u8, .ro, true, 0, .full, .p, 1, 1⟩
/-- 0x1008.04 `BOOT.FAIL.CAUSE`. -/
def Obj.bootFailCause : ObjDef := ⟨0x1008, 0x04, .u8, .ro, true, 0, .full, .p, 1, 1⟩
/-- 0x1008.05 `BOOT.FAIL.COUNT`. -/
def Obj.bootFailCount : ObjDef := ⟨0x1008, 0x05, .u32, .ro, true, 0, .full, .p, 1, 1⟩
/-- 0x1008.06 `BOOT.DIE.STATE`. -/
def Obj.bootDieState : ObjDef := ⟨0x1008, 0x06, .enum8, .ro, false, 0, .full, .p, 2, 2⟩
/-- 0x1009.01 `TEST.EGRESS`. -/
def Obj.testEgress : ObjDef := ⟨0x1009, 0x01, .bits32, .rw, false, 0, .full, .ab, 1, 1⟩
/-- 0x1009.02 `TEST.EGRESS.DROP.COUNT`. -/
def Obj.testEgressDropCount : ObjDef := ⟨0x1009, 0x02, .u64, .ro, false, 0, .full, .ab, 1, 1⟩
/-- 0x1009.03 `TEST.BIST.SECTION`. -/
def Obj.testBistSection : ObjDef := ⟨0x1009, 0x03, .u8, .wo, false, 0, (.between (6) 29), .ab, 1, 1⟩
/-- 0x1009.04 `TEST.BIST.RESULT`. -/
def Obj.testBistResult : ObjDef := ⟨0x1009, 0x04, .u32, .ro, false, 0, .full, .ab, 30, 30⟩
/-- 0x1009.05 `TEST.INJECT`. -/
def Obj.testInject : ObjDef := ⟨0x1009, 0x05, (.domain 8), .wo, false, 0, .full, .ab, 1, 1⟩
/-- 0x1009.06 `TEST.INJECT.COUNT`. -/
def Obj.testInjectCount : ObjDef := ⟨0x1009, 0x06, .u32, .ro, false, 0, .full, .ab, 1, 1⟩
/-- 0x1009.07 `TEST.CRC.FRAMES`. -/
def Obj.testCrcFrames : ObjDef := ⟨0x1009, 0x07, .u32, .rw, false, 0, (.between (1) 1000000), .ab, 1, 1⟩
/-- 0x1009.08 `TEST.CRC.STATE`. -/
def Obj.testCrcState : ObjDef := ⟨0x1009, 0x08, .enum8, .ro, false, 0, .full, .ab, 1, 1⟩
/-- 0x1009.09 `TEST.CRC.FAILS`. -/
def Obj.testCrcFails : ObjDef := ⟨0x1009, 0x09, .u32, .ro, false, 0, .full, .ab, 1, 1⟩

/-- Part 1 of the object table, in the order of index and subindex. -/
def objTable1 : List ObjDef :=
  [Obj.idPart, Obj.idStepping, Obj.idGrade, Obj.idSerial, Obj.idFwVersion, Obj.pwrStatus, Obj.pwrSticky,
   Obj.pwrBrownoutCount, Obj.pwrRailVoltage, Obj.pwrRailDipMin, Obj.pwrRailBrownoutCount, Obj.pwrSectionState,
   Obj.pwrSectionPower, Obj.thermTj, Obj.thermTjPeak, Obj.thermStatus, Obj.thermSticky, Obj.thermCount,
   Obj.thermSensorTemp, Obj.rstCause, Obj.rstCount, Obj.rstRequest, Obj.timeState, Obj.timeStatus,
   Obj.timeSticky, Obj.timeCount, Obj.timeSource, Obj.timeOffset, Obj.timeSlewMax, Obj.timeStepThreshold,
   Obj.timeStepRequest, Obj.timeFreerunAllow, Obj.timeHoldoverElapsed, Obj.timeNow, Obj.timePpsSecondsSet,
   Obj.ptpDomain, Obj.ptpSyncInterval, Obj.ptpAnnounceInterval, Obj.ptpAnnounceTimeout,
   Obj.ptpDelayreqInterval, Obj.ptpPriority1, Obj.ptpPriority2, Obj.ptpGmIdentity, Obj.ptpSmTlv,
   Obj.ptpPortBinding, Obj.ptpPortRole, Obj.ptpPortState, Obj.timeRefFormat, Obj.timeCueEntry,
   Obj.timeCueState, Obj.timeCueArm, Obj.timeCueGroupArm, Obj.timeCueGroupDisarm, Obj.timeCueLateCount,
   Obj.evtDseqNext, Obj.evtDropCount, Obj.laneStatus, Obj.laneSticky, Obj.laneCount, Obj.laneFecCorrected]

/-- Part 2 of the object table, in the order of index and subindex. -/
def objTable2 : List ObjDef :=
  [Obj.laneFecUncorrected, Obj.laneFecSymbols, Obj.laneFecDegrade, Obj.laneState, Obj.laneStateRequest,
   Obj.laneLoopback, Obj.lanePatternTx, Obj.lanePatternRx, Obj.lanePatternUser, Obj.lanePatternErrors,
   Obj.lanePatternBits, Obj.laneFecBypass, Obj.quadMode, Obj.quadStatus, Obj.cageWidth, Obj.cagePowerMax,
   Obj.cageStandbyKeep, Obj.cageStatus, Obj.cageSticky, Obj.cageCount, Obj.cageModuleId, Obj.cageModuleClass,
   Obj.cageModuleTemp, Obj.cageWearRecord, Obj.cagePollSkipCount, Obj.laneEqTable, Obj.laneEqBoard,
   Obj.wearRecord, Obj.wearBiasLimit, Obj.wearHoursLimit, Obj.wearHotLimit, Obj.wearHotTemp, Obj.netPortMac,
   Obj.netPortMacSet, Obj.netPortIpv4, Obj.netPortPrefix, Obj.netPortGateway, Obj.netPortMaxUdp,
   Obj.netPortStatus, Obj.netPortSticky, Obj.netPortCount, Obj.netPortRxOverrunCount, Obj.flowInDesc,
   Obj.flowInFormat, Obj.flowInOfs, Obj.flowInStatus, Obj.flowInSticky, Obj.flowInCount,
   Obj.flowInRejectCount, Obj.flowInConcealCount, Obj.flowInLeg1Count, Obj.flowInLeg2Count,
   Obj.flowInDupCount, Obj.flowInGapCount, Obj.flowInLateCount, Obj.flowInResyncCount, Obj.flowOutDesc,
   Obj.flowOutFormat, Obj.flowOutOfs, Obj.flowOutState]

/-- Part 3 of the object table, in the order of index and subindex. -/
def objTable3 : List ObjDef :=
  [Obj.flowOutControl, Obj.flowOutSticky, Obj.flowOutCount, Obj.queLimit, Obj.queReserve, Obj.queWmLevel,
   Obj.queWmHyst, Obj.queDepth, Obj.queStatus, Obj.queSticky, Obj.queWmCount, Obj.queDropCount, Obj.poolFree,
   Obj.poolReserved, Obj.schClass, Obj.schQuantum, Obj.shpRate, Obj.shpBurst, Obj.shpOverhead, Obj.shpTokens,
   Obj.shpRefillPeriod, Obj.gateEnable, Obj.gateBase, Obj.gateCycleNum, Obj.gateCycleDen, Obj.gateList,
   Obj.gateCommit, Obj.gateState, Obj.gateStart, Obj.gateCount, Obj.paceTro, Obj.paceLateCount,
   Obj.loomStatus, Obj.loomSticky, Obj.loomCount, Obj.loomAudioRamp, Obj.loomBridgeTxUsed,
   Obj.loomBridgeRxUsed, Obj.loomSrcBind, Obj.loomSrcBond, Obj.loomSrcAudioFirst, Obj.loomSrcAudioCount,
   Obj.loomSrcStatus, Obj.loomSrcTaps, Obj.loomDstBind, Obj.loomDstBond, Obj.loomDstLoss, Obj.loomDstHold,
   Obj.loomDstBackup, Obj.loomDstRevert, Obj.loomDstAudioFirst, Obj.loomDstAudioCount, Obj.loomDstStatus,
   Obj.loomDstSticky, Obj.loomDstCount, Obj.loomDstLag, Obj.loomRouteGroup, Obj.loomRouteSource,
   Obj.loomRouteActive, Obj.loomRoutePending]

/-- Part 4 of the object table, in the order of index and subindex. -/
def objTable4 : List ObjDef :=
  [Obj.loomRouteAudio, Obj.loomGroupCommit, Obj.fsySource, Obj.fsyFormat, Obj.fsyOfs, Obj.fsySlots,
   Obj.fsyPolicy, Obj.fsyWmLevel, Obj.fsyWmHyst, Obj.fsyFill, Obj.fsyRate, Obj.fsyStatus, Obj.fsySticky,
   Obj.fsyWmCount, Obj.fsyRepeatCount, Obj.fsyDropCount, Obj.cnvStatus, Obj.cnvSticky, Obj.cnvCount,
   Obj.cnvChainEnable, Obj.cnvChainSource, Obj.cnvChainInFormat, Obj.cnvChainInOfs, Obj.cnvChainInAttr,
   Obj.cnvChainOutFormat, Obj.cnvChainOutOfs, Obj.cnvChainOutAttr, Obj.cnvChainMode, Obj.cnvChainFrc,
   Obj.cnvChainCommit, Obj.cnvChainStatus, Obj.cnvChainSticky, Obj.cnvChainCount, Obj.cnvChainReject,
   Obj.cnvSclOwner, Obj.cnvSclSrc, Obj.cnvSclDst, Obj.cnvSclVtaps, Obj.cnvSclSetV, Obj.cnvSclSetHy,
   Obj.cnvSclSetHc, Obj.cnvSclLinebufUsed, Obj.cnvSclShort, Obj.cnvSclSticky, Obj.cnvCoefSet,
   Obj.cnvCoefUsers, Obj.cnvCuMatrixIn, Obj.cnvCuLutPre, Obj.cnvCuMatrix, Obj.cnvCuLutPost,
   Obj.cnvCuMatrixOut, Obj.cnvCuClip, Obj.cnvFrcDelay, Obj.cnvFrcMotion, Obj.cnvFrcConfMin,
   Obj.cnvFrcFallback, Obj.cnvFrcSceneMax, Obj.cnvFrcStatus, Obj.cnvFrcSticky, Obj.cnvFrcFallbackCount]

/-- Part 5 of the object table, in the order of index and subindex. -/
def objTable5 : List ObjDef :=
  [Obj.cnvFrcMissCount, Obj.cnvFrcChannel, Obj.compStatus, Obj.compSticky, Obj.compCount, Obj.compSurfSize,
   Obj.compSurfOffset, Obj.compSurfData, Obj.cmpEnable, Obj.cmpSource, Obj.cmpFormat, Obj.cmpOfs, Obj.cmpAttr,
   Obj.cmpLatch, Obj.cmpBg, Obj.cmpLutPre, Obj.cmpLutPost, Obj.cmpClip, Obj.cmpAncLayer, Obj.cmpFeltEnable,
   Obj.cmpCommit, Obj.cmpStatus, Obj.cmpSticky, Obj.cmpCount, Obj.cmpLateCount, Obj.cmpReject,
   Obj.cmpUnderrunCount, Obj.cmpLayerKind, Obj.cmpLayerInFormat, Obj.cmpLayerInOfs, Obj.cmpLayerInAttr,
   Obj.cmpLayerSrc, Obj.cmpLayerDst, Obj.cmpLayerScaler, Obj.cmpLayerVtaps, Obj.cmpLayerSetV,
   Obj.cmpLayerSetHy, Obj.cmpLayerSetHc, Obj.cmpLayerAddr, Obj.cmpLayerPitch, Obj.cmpLayerSurfFmt,
   Obj.cmpLayerPremul, Obj.cmpLayerColour, Obj.cmpLayerKeyMode, Obj.cmpLayerKeyClip, Obj.cmpLayerKeyGain,
   Obj.cmpLayerKeyInvert, Obj.cmpLayerOpacity, Obj.cmpLayerStatic, Obj.cmpFeltState, Obj.cmpFeltRect,
   Obj.cmpFeltBytes, Obj.cmpFeltCount, Obj.cmpFeltRebuild, Obj.scnOutEnable, Obj.scnOutFormat, Obj.scnOutOfs,
   Obj.scnOutAttr, Obj.scnOutFormatPending, Obj.scnOutOfsPending]

/-- Part 6 of the object table, in the order of index and subindex. -/
def objTable6 : List ObjDef :=
  [Obj.scnOutAttrPending, Obj.scnOutFormatApply, Obj.scnOutSource, Obj.scnOutLatch, Obj.scnOutDiscPt,
   Obj.scnOutCommit, Obj.scnOutStatus, Obj.scnOutSticky, Obj.scnOutCount, Obj.scnOutLateCount,
   Obj.scnOutDiscCount, Obj.scnOutReject, Obj.scnCrcRect, Obj.scnCrcMode, Obj.scnCrcExpect, Obj.scnCrcValue,
   Obj.scnCrcFrame, Obj.scnCrcStatus, Obj.scnCrcSticky, Obj.scnCrcCount, Obj.encStatus, Obj.encSticky,
   Obj.encCount, Obj.encChEnable, Obj.encChCodec, Obj.encChProfile, Obj.encChTier, Obj.encChLevel,
   Obj.encChFormat, Obj.encChOfs, Obj.encChAttr, Obj.encChCtu, Obj.encChClass, Obj.encChLatency,
   Obj.encChLookahead, Obj.encChPriority, Obj.encChStructure, Obj.encChRefs, Obj.encChAutostart,
   Obj.encChIrapType, Obj.encChIrapPeriod, Obj.encChPoisonIrap, Obj.encChControl, Obj.encChCommit,
   Obj.encChState, Obj.encChEngine, Obj.encChLatencyNs, Obj.encChStatus, Obj.encChSticky, Obj.encChCount,
   Obj.encChDetCount, Obj.encChDiscCount, Obj.encChReject, Obj.encBoltSize, Obj.encBoltFill,
   Obj.encBoltWmLevel, Obj.encBoltWmHyst, Obj.encBoltWmCount, Obj.encDeferFeed, Obj.encDeferDepth]

/-- Part 7 of the object table, in the order of index and subindex. -/
def objTable7 : List ObjDef :=
  [Obj.encDeferData, Obj.encDeferPush, Obj.encDeferFill, Obj.encEngLoad, Obj.encEngChannels, Obj.motStatus,
   Obj.motSticky, Obj.motCount, Obj.motRefUsed, Obj.motRefShort, Obj.motChLambda, Obj.motChConfGain,
   Obj.motChPasses, Obj.motChRefBytes, Obj.motChFallbackCount, Obj.motChSnapRow, Obj.motChSnap,
   Obj.motEngLoad, Obj.motEngBorrow, Obj.motFrcLambda, Obj.motFrcConfGain, Obj.motFrcEngine,
   Obj.motFrcLateCount, Obj.rcStatus, Obj.rcSticky, Obj.rcCount, Obj.rcMode, Obj.rcBitrate, Obj.rcMaxrate,
   Obj.rcCpbSize, Obj.rcCpbInit, Obj.rcCpbTarget, Obj.rcCpbRestart, Obj.rcReact, Obj.rcRowGain, Obj.rcQpStep,
   Obj.rcQpMin, Obj.rcQpMax, Obj.rcQpInit, Obj.rcQpOfsIrap, Obj.rcQpOfsNonref, Obj.rcWIrap, Obj.rcWRef,
   Obj.rcWNonref, Obj.rcFullness, Obj.rcTarget, Obj.rcQpLast, Obj.rcChStatus, Obj.rcChSticky,
   Obj.rcScrimCount, Obj.rcScrimPicCount, Obj.rcFillerCount, Obj.rcReject, Obj.rcKeyRequest, Obj.rcKeyCount,
   Obj.rcKeyMerged, Obj.rcKeyLast, Obj.rcGzEnable, Obj.rcGzMapEnable, Obj.rcGzMapSelect]

/-- Part 8 of the object table, in the order of index and subindex. -/
def objTable8 : List ObjDef :=
  [Obj.rcGzMapSlot, Obj.rcGzMapOffset, Obj.rcGzMapData, Obj.rcGzRecovEnable, Obj.rcGzRect, Obj.entStatus,
   Obj.entSticky, Obj.entCount, Obj.entChPar, Obj.entChTiles, Obj.entChBinrate, Obj.entChEngines,
   Obj.entChBincap, Obj.entChOvhNonirap, Obj.entChOvhIrap, Obj.entChOvhMax, Obj.entChHdrSei, Obj.entChHdrMdcv,
   Obj.entChHdrCll, Obj.entChDph, Obj.entChSeiUser, Obj.entChSeiUserSend, Obj.entChStatus, Obj.entChSticky,
   Obj.entChLateCount, Obj.entChBinscrimCount, Obj.entChOutBytes, Obj.entTsProgram, Obj.entTsPmtPid,
   Obj.entTsVideoPid, Obj.entTsDelay, Obj.entTsPsiInterval, Obj.entEngLoad, Obj.entEngChannels, Obj.decStatus,
   Obj.decSticky, Obj.decCount, Obj.decLoad, Obj.decCtxEnable, Obj.decCtxCodec, Obj.decCtxFormat,
   Obj.decCtxAttr, Obj.decCtxOutput, Obj.decCtxMaxrate, Obj.decCtxCpbSize, Obj.decCtxDpbPics,
   Obj.decCtxControl, Obj.decCtxState, Obj.decCtxStatus, Obj.decCtxSticky, Obj.decCtxCount,
   Obj.decCtxSubstCount, Obj.decCtxConcealCount, Obj.decCtxErrorCount, Obj.decCtxDiscardCount,
   Obj.decCtxProfile, Obj.decCtxCpbFill, Obj.decCtxReject, Obj.audStatus, Obj.audSticky]

/-- Part 9 of the object table, in the order of index and subindex. -/
def objTable9 : List ObjDef :=
  [Obj.audCount, Obj.audRamp, Obj.audBankRate, Obj.audPortEnable, Obj.audPortRole, Obj.audPortIsland,
   Obj.audPortFraming, Obj.audPortWidth, Obj.audPortFsyWidth, Obj.audPortDelay, Obj.audPortPol,
   Obj.audPortInFirst, Obj.audPortOutFirst, Obj.audPortInMask, Obj.audPortOutMask, Obj.audPortCommit,
   Obj.audPortFifoTarget, Obj.audPortWmLevel, Obj.audPortWmHyst, Obj.audPortFill, Obj.audPortStartGroup,
   Obj.audPortArm, Obj.audPortState, Obj.audPortRate, Obj.audPortRateClass, Obj.audPortStatus,
   Obj.audPortSticky, Obj.audPortWmCount, Obj.audPortSlipCount, Obj.audPortGlitchCount, Obj.audPortReject,
   Obj.audIslRate, Obj.audIslMck, Obj.audIslLead, Obj.audIslKp, Obj.audIslKi, Obj.audIslCorr,
   Obj.audIslStatus, Obj.audIslSticky, Obj.audOutSource, Obj.audOutGain, Obj.audOutMute, Obj.audOutDelay,
   Obj.audOutGroup, Obj.audOutActive, Obj.audOutStatus, Obj.audGroupCommit, Obj.audStartTrigger,
   Obj.audStartLast, Obj.audFlowDelay, Obj.audFlowStatus, Obj.audFlowSticky, Obj.audFlowMissCount,
   Obj.audFlowLateCount, Obj.audFlowRebaseCount, Obj.audFlowOutTsofs, Obj.audInProducer, Obj.memStatus,
   Obj.memSticky, Obj.memCount]

/-- Part 10 of the object table, in the order of index and subindex. -/
def objTable10 : List ObjDef :=
  [Obj.memModule, Obj.memDevWidth, Obj.memDevDensity, Obj.memRanks, Obj.memChFitted, Obj.memChEnabled,
   Obj.memCapacity, Obj.memFree, Obj.memBwLimit, Obj.memBwCommitted, Obj.memRefreshMode, Obj.memRefreshMargin,
   Obj.memRhThreshold, Obj.memScrubPeriod, Obj.memScrubFast, Obj.memScrubAddr, Obj.memEyeMin, Obj.memChState,
   Obj.memChStatus, Obj.memChSticky, Obj.memChCeCount, Obj.memChUeCount, Obj.memChEccLast,
   Obj.memChAlertCount, Obj.memChReplayCount, Obj.memChRefPostponeCount, Obj.memChRefForcedCount,
   Obj.memChRhCount, Obj.memChMargin, Obj.memChDrift, Obj.memChRetrain, Obj.memPortTarget, Obj.memPortPending,
   Obj.memPortWmLevel, Obj.memPortWmHyst, Obj.memPortSticky, Obj.memPortWmCount, Obj.memPortLateCount,
   Obj.memPortMaxlat, Obj.busStatus, Obj.busSticky, Obj.busCount, Obj.busParityCount, Obj.busMasterState,
   Obj.busMasterOutstanding, Obj.busMasterGen, Obj.busMasterFaultAddr, Obj.busMasterFaultCount,
   Obj.busMasterResetCount, Obj.busMasterPermit, Obj.busMasterPort, Obj.busMasterReset, Obj.busTargetWaits,
   Obj.busSemOwner, Obj.slvStatus, Obj.slvSticky, Obj.slvCount, Obj.slvOwner, Obj.slvDivergeLimit,
   Obj.slvDivergeWindow]

/-- Part 11 of the object table, in the order of index and subindex. -/
def objTable11 : List ObjDef :=
  [Obj.slvState, Obj.slvPathStatus, Obj.slvMatchCount, Obj.slvMismatchCount, Obj.slvSuppressCount,
   Obj.slvTimeoutCount, Obj.slvUncomparedCount, Obj.slvResyncCount, Obj.slvHbMissCount,
   Obj.slvMirrorMissCount, Obj.slvErrLast, Obj.slvBistSection, Obj.slvBistFailCount, Obj.slvRejoin,
   Obj.twlStatus, Obj.twlSticky, Obj.twlCount, Obj.twlEnable, Obj.twlDevicePref, Obj.twlDeviceId,
   Obj.twlState, Obj.twlRootSerial, Obj.twlRootId, Obj.twlPackages, Obj.twlGeneration, Obj.twlTimeMode,
   Obj.twlIdHold, Obj.twlHopMax, Obj.twlPark, Obj.twlTopology, Obj.twlLinkState, Obj.twlLinkPeerSerial,
   Obj.twlLinkPeer, Obj.twlLinkDelay, Obj.twlLinkCost, Obj.twlLinkTxUsed, Obj.twlLinkRxUsed,
   Obj.twlLinkFlitLost, Obj.twlLinkCtrlBad, Obj.twlChState, Obj.twlChSource, Obj.twlChPath, Obj.twlChDelay,
   Obj.twlChLostCount, Obj.twlTxUsed, Obj.twlRxUsed, Obj.lcsState, Obj.lcsStatus, Obj.lcsSticky, Obj.lcsCount,
   Obj.lcsAdvance, Obj.lcsDebugKey, Obj.lcsDebugKeyId, Obj.lcsDebugChallenge, Obj.lcsDebugToken,
   Obj.volPortMode, Obj.volPortMac, Obj.volPortIpv4, Obj.volPortPrefix, Obj.volPortGateway]

/-- Part 12 of the object table, in the order of index and subindex. -/
def objTable12 : List ObjDef :=
  [Obj.volPortStatus, Obj.volStatus, Obj.volSticky, Obj.volCount, Obj.volSessions, Obj.volSessionTimeout,
   Obj.volBootCount, Obj.volImageOffset, Obj.volImageData, Obj.volImageApply, Obj.volKey, Obj.volKeyId,
   Obj.volKeyRole, Obj.fwSlotActive, Obj.fwSlotVersion, Obj.fwImageOffset, Obj.fwImageData, Obj.fwImageCommit,
   Obj.uciState, Obj.uciRetryCount, Obj.uciDownCount, Obj.evtStatus, Obj.evtSticky, Obj.evtCount,
   Obj.evtGseqNext, Obj.evtLogOldest, Obj.evtCodeFlags, Obj.diagWinAddr, Obj.diagWinLen, Obj.diagWinData,
   Obj.diagCount, Obj.modeState, Obj.modeRequest, Obj.modePending, Obj.modePrevious, Obj.modeBootTarget,
   Obj.modeStatus, Obj.modeSticky, Obj.modeCount, Obj.modeRefuse, Obj.modeRecoveryCause, Obj.modeRecoveryDies,
   Obj.bootStraps, Obj.bootTime, Obj.bootFailStep, Obj.bootFailCause, Obj.bootFailCount, Obj.bootDieState,
   Obj.testEgress, Obj.testEgressDropCount, Obj.testBistSection, Obj.testBistResult, Obj.testInject,
   Obj.testInjectCount, Obj.testCrcFrames, Obj.testCrcState, Obj.testCrcFails]

/-- The object table. -/
def objTable : List ObjDef :=
  objTable1 ++ objTable2 ++ objTable3 ++ objTable4 ++ objTable5 ++ objTable6 ++ objTable7 ++ objTable8 ++
   objTable9 ++ objTable10 ++ objTable11 ++ objTable12

end Sys2Proof.Machine
end

