-- ==== Sys2Proof/Machine/State.lean ====
section
/-! DEFINITION. The state of the part as plain data: the object dictionary's values, MRAM, and for each
subject what the spec gives it beyond its objects; the queue of waiting commands; the state after reset. -/

namespace Sys2Proof.Machine

/-- Why a step stops with a fault. -/
inductive Fault where
  /-- A command names a unit or address that the spec says does not exist (R9, R10, R37, R356, R383): raised
  by the meanings that take such a number. Safe: no command of the part carries one. -/
  | noSuchUnit
deriving DecidableEq, Repr

/-- Why a step refuses. -/
inductive Refusal where
  /-- The command has no meaning in this model. Raised by the dispatch only. Safe. -/
  | notModelled (mnemonic : String)
  /-- An instruction other than IDCODE and BYPASS reaches an open debug port (R467): the spec does not say
  what the die's debug registers do. Raised by JTAG_TAP_ACCESS. Safe. -/
  | debugRegisters
deriving DecidableEq, Repr

/-- What changes at the frames of a raster: what holds from frame `since` on, and what held before it. -/
structure Turn (α : Type) where
  now : α
  last : α
  since : Nat
deriving DecidableEq, Repr

/-- What holds in a frame. -/
def Turn.held {α : Type} (t : Turn α) (fr : Nat) : α := if fr < t.since then t.last else t.now

/-- A new value from a frame on; a second one in a frame replaces the first. -/
def Turn.put {α : Type} (t : Turn α) (fr : Nat) (x : α) : Turn α :=
  if fr = t.since then { t with now := x } else ⟨x, t.now, fr⟩

/-- An event record (R86). -/
structure EventRec where
  gseq : Nat
  dseq : Nat
  code : Nat
  die : PDie
  hold : Bool
  free : Bool
  ovfl : Bool
  inst : Nat
  coord : Coord
  payload : Nat
deriving DecidableEq, Repr

/-- Whether a die runs. -/
inductive RunState where
  /-- held in reset, or waiting for its part of BOOT -/
  | held
  | running
  /-- shut down under R50 -/
  | shutdown
  /-- reset alone, not yet returned (R53) -/
  | resetAlone
  /-- absent since BOOT (R478) -/
  | absent
deriving DecidableEq, Repr

/-- A confirmed warning dip in progress (R41, R42). -/
structure Dip where
  firstNs : Nat
  lowest : Nat
deriving DecidableEq, Repr

/-- Supply, thermal and reset state of a die beyond its objects (R40–R53). -/
structure PowerSt where
  run : RunState
  /-- warning dips in progress, by rail -/
  dips : Tab Dip
  /-- consecutive samples of THERM.TJ at 115.0 °C or more (R50) -/
  critRun : Nat
  /-- AO record of a reset-level crossing: rail and lowest voltage (R43) -/
  aoDip : Option (Nat × Nat)
  /-- sections that Die C still has to wake, in ascending number (R47) -/
  wakeQueue : List Nat
  /-- a scrub pass or MRAM read-verify pass scheduled for a dip is pending or running (R42, R44) -/
  scrubDue : Bool
  /-- an eye check scheduled for a dip is pending or running (R42, R44) -/
  eyeDue : Bool
deriving DecidableEq, Repr

/-- What an Announce message says of a grandmaster (R60, R61, R63). -/
structure TimeSt where
  /-- the package time base, ns since the epoch (R59) -/
  base : Nat
  /-- the selected grandmaster (R61) -/
  gm : Option Announce
  /-- the grandmasters BMCA knows, one per clockIdentity -/
  candidates : List Announce
  /-- LOCKED has been reached since BOOT (R61) -/
  lockedSince : Bool
  /-- consecutive Sync messages with an offset of at most 100 ns (R61) -/
  goodRun : Nat
  /-- the first offset from a new grandmaster is still to be judged (R61) -/
  newGm : Bool
  /-- mean path delay of the end-to-end mechanism, ns -/
  pathDelay : Int
  /-- grandmasters already reported under R63 -/
  lowReported : List Nat
  /-- instant at which HOLDOVER began -/
  holdSince : Nat
  /-- consecutive 1PPS edges 1 s ± 1 µs apart, and the last edge (R68) -/
  ppsRun : Nat
  ppsLast : Option Nat
  /-- a written TIME.PPS.SECONDS.SET not yet used by an edge (R68) -/
  ppsSet : Option Nat
  /-- the seconds have been set, so the 1PPS input stands for a grandmaster (R68) -/
  ppsArmed : Bool
  /-- the whole second of the last pulse on the 1PPS output, and whether one was driven (R69) -/
  ppsoSecond : Nat
  ppsoDriven : Bool
  /-- the 10 MHz input is the frequency source of the servo; else the 25 MHz reference (R67) -/
  f10m : Bool
  /-- frequency ratio to that source at the servo's last update, in ppb above 1, and the fraction of a nanosecond it has brought in
  HOLDOVER, in ppb (R61) -/
  ratio : Int
  fraction : Int
  /-- the last offset measured, ns (R61) -/
  offset : Int
  /-- per PTP port: a received two-step Sync waiting for its Follow_Up: sequence and ingress time -/
  syncWait : Tab (Nat × Nat)
  /-- per PTP port: difference t2 − t1 of the last Sync, for the path delay -/
  syncDiff : Tab Int
  /-- per PTP port: a Delay_Req sent and not answered: sequence and egress time -/
  reqWait : Tab (Nat × Nat)
  /-- next sequence numbers of transmitted Sync, Announce and Delay_Req, by PTP port -/
  syncSeq : Tab Nat
  announceSeq : Tab Nat
  reqSeq : Tab Nat
deriving DecidableEq, Repr

/-- Time of a media die (R59, R65, R71, R81). -/
structure DieTime where
  /-- its time counter, ns -/
  ctr : Nat
  /-- Reference Raster format in force (R71) -/
  refFormat : Nat
  /-- a step made while the die was unreachable, applied when Die C returns (R65) -/
  missedStep : Int
  /-- difference still to be removed by slewing after Die C returned, in 1/80 ns (R65) -/
  slew : Int
  /-- instants that stand in for the coordinates of cues found past under LATE 0 (R83), by entry, and the repeating entries that
  execute once more for a run of missed repetitions (R84) -/
  cueNow : Tab Nat
  cueMore : List Nat
deriving DecidableEq, Repr

/-- A media die's event arbiter (R87, R89). -/
structure ArbiterSt where
  buf : List EventRec
  /-- records lost since the buffer filled, and the first lost DSEQ -/
  lost : Nat
  firstLost : Nat
deriving DecidableEq, Repr
/-- What a packet in a queue is (R121, R123). -/
inductive PktKind where
  | media
  | arpRequest (ip : Nat)
  | arpReply (ip mac : Nat)
  | echo (ip : Nat)
  | igmpReport (group : Nat) (source : Option Nat)
deriving DecidableEq, Repr

/-- A packet in a queue: its first-cell descriptor (R134) and its contents. -/
structure Pkt where
  kind : PktKind
  /-- the port it leaves by, for packets of queues 4,088 to 4,095 -/
  port : Nat
  flow : Nat
  leg : Nat
  /-- bytes from the IPv4 header -/
  len : Nat
  rtp : Rtp
  arrival : Nat
  poison : Bool
  /-- paced packets: release instant, packet interval (both ns), released (R138) -/
  release : Option Nat
  interval : Nat
  ready : Bool
deriving DecidableEq, Repr

/-- The headers below RTP of a media packet on the wire (R126, R128): resolved next hop, none for a multicast; 802.1Q tag, 0xFFFF untagged. -/
structure NetHdr where
  srcMac : Nat
  hop : Option Nat
  tag : Nat
  src : Nat
  dst : Nat
  srcPort : Nat
  dstPort : Nat
  dscp : Nat
  ttl : Nat
deriving DecidableEq, Repr

/-- A queue of the network block (R134–R138). -/
structure QueueSt where
  /-- QUE.LIMIT, QUE.RESERVE, SCH.CLASS, SCH.QUANTUM and SHP.OVERHEAD in force (R129) -/
  limit : Nat
  reserve : Nat
  cls : Nat
  quantum : Nat
  overhead : Nat
  pkts : List Pkt
  /-- cells of the head packet that were popped already (R397) -/
  taken : Nat
  deficit : Int
  /-- shaper remainder, rate and burst in force, and a held write (R137) -/
  rem : Nat
  rate : Nat
  burst : Nat
  held : Bool
deriving DecidableEq, Repr

/-- An ingress flow (R131–R133). -/
structure FlowInSt where
  started : Bool
  high : Nat
  /-- numbers of the window that are UNSEEN, and those that are DONE; every other one is CLOSED -/
  unseen : List Nat
  done : List Nat
  /-- the run of packets older than the window: last number and length -/
  runSeq : Nat
  runLen : Nat
  /-- the frame on the flow's raster now, its RTP timestamp and the samples of it that arrived in time, and the frame before it,
  completed (R133, R157) -/
  frame : Nat
  ts : Option Nat
  cur : Tab Pix
  shown : Tab Pix
  /-- consecutive frames whose timestamp lay off the raster (R133) -/
  offRun : Nat
  /-- switch lines passed since the flow last went down (R157) -/
  goodFrames : Nat
deriving DecidableEq, Repr

/-- An egress flow (R128, R139). -/
structure FlowOutSt where
  /-- next RTP sequence number, extended to 32 bits -/
  seq : Nat
  /-- a start has landed and no stop after it -/
  run : Bool
  /-- a control that has not landed: true start, and the instant (ns) it lands at or after -/
  pend : Option (Bool × Nat)
  /-- instant at which the last control landed -/
  since : Nat
  /-- the flow stood held when its next hop was unresolved (R121) -/
  resume : Bool
deriving DecidableEq, Repr

/-- A gate list set (R140): states and interval per entry. -/
structure GateSet where
  enable : Bool
  base : Coord
  num : Nat
  den : Nat
  list : List (Nat × Nat)
deriving DecidableEq, Repr

/-- A port's address objects in force, its receive FIFO, its transmitter and its gate list (R120–R122, R136, R141). -/
structure PortSt where
  mac : Nat
  ip : Nat
  prefixLen : Nat
  gateway : Nat
  maxUdp : Nat
  /-- classified media packets waiting: flow, leg, packet, frame length -/
  fifo : List (Nat × Nat × Udp × Nat)
  /-- next hops: resolved address, or none while unresolved -/
  arp : Tab (Option Nat)
  /-- echo replies in the present second of the die's time -/
  echoSecond : Nat
  echoes : Nat
  /-- class ring positions: index and fresh flag -/
  ring : Tab (Nat × Bool)
  /-- frame on the wire: class, start and end (ns × 1000), counted as overrun -/
  tx : Option (Nat × Nat × Nat × Bool)
  gates : Option GateSet
  /-- pending set with its start -/
  pending : Option (GateSet × Instant)
deriving DecidableEq, Repr

/-- The network block of a media die. -/
structure NetSt where
  queues : Tab QueueSt
  flowsIn : Tab FlowInSt
  flowsOut : Tab FlowOutSt
  ports : Tab PortSt
  /-- SHP.REFILL.PERIOD in force (R129) -/
  period : Nat
deriving DecidableEq, Repr

/-- A frame in a synchronizer's slot (R159, R161): RTP timestamp, samples, ancillary packets, instant (ns) it completed at. -/
structure Picture where
  ts : Nat
  pix : Tab Pix
  anc : List (List Byte)
  done : Nat
deriving DecidableEq, Repr

/-- A frame synchronizer's ring (R159, R160, R162). -/
structure FsySt where
  writing : Option Picture
  unread : List Picture
  /-- the frame shown, by the frames of the synchronizer's raster -/
  shown : Turn (Option Picture)
  /-- input frames of the present rate measurement, and its start -/
  rateCount : Nat
  rateStart : Nat
  /-- the owner's decision for a frame, not yet applied: reference frame, frames discarded, timestamp (R404) -/
  decision : Option (Nat × Nat × Nat)
deriving DecidableEq, Repr

/-- A committed route that has not landed (R152, R153). -/
structure PendRoute where
  route : Nat
  group : Nat
  /-- instant of the switch line it lands at, ns -/
  land : Nat
  /-- LOOM.ROUTE.AUDIO of the commit -/
  breakaway : Bool
deriving DecidableEq, Repr

/-- A destination port beyond its objects (R153, R164–R168). -/
structure DstSt where
  pend : Option PendRoute
  /-- the primary route, also while the destination is on its backup -/
  primary : Nat
  breakaway : Bool
  /-- a loss detected, and its cause -/
  lost : Option Nat
  /-- frames held under policy 1 -/
  heldFrames : Nat
  /-- instant from which the primary was found free of loss while on backup -/
  freeSince : Option Nat
  /-- the switch line whose audio switch is due -/
  followDue : Option Instant
  /-- route word and black, by the frames of the destination's raster -/
  turn : Turn (Nat × Bool)
deriving DecidableEq, Repr

/-- Loom on a media die. -/
structure LoomSt where
  dst : Tab DstSt
  /-- bridge outputs held: number and the source port member (R146) -/
  bridgeOut : Tab Nat
  fsy : Tab FsySt
  /-- ancillary packets of the newest frame of a source port, with its RTP timestamp -/
  anc : Tab (Nat × List (List Byte))
deriving DecidableEq, Repr

/-- A crop or output rectangle (R178). -/
structure Rect where
  x : Nat
  y : Nat
  w : Nat
  h : Nat
deriving DecidableEq, Repr

/-- One configuration of a scaler (R173, R178–R184): rectangles, taps and coefficient sets. -/
structure SclCfg where
  src : Rect
  dst : Rect
  vtaps : Nat
  setV : Nat
  setHY : Nat
  setHC : Nat
deriving DecidableEq, Repr

/-- The stages of a colour unit as stored (R186). -/
structure CuCfg where
  matIn : List Byte
  lutPre : List Byte
  mat : List Byte
  lutPost : List Byte
  matOut : List Byte
  clip : List Byte
deriving DecidableEq, Repr

/-- The shadow set of a chain as committed (R174, R268). -/
structure ChainCfg where
  scl : SclCfg
  cu : CuCfg
  confMin : Nat
  fallback : Nat
  sceneMax : Nat
  lambda : Nat
  gain : Nat
deriving DecidableEq, Repr

/-- A record of the motion field (R261): vector in 1/16 luma sample, confidence, FALLBACK, POISON, LEVEL, SAD. -/
structure MvRec where
  x : Int
  y : Int
  conf : Nat
  fallback : Bool
  poison : Bool
  level : Nat
  sad : Nat
deriving DecidableEq, Repr

/-- A motion field (R261): its header and its records by block. -/
structure MotField where
  frame : Nat
  /-- FIELD: 0 progressive, 1 field 1, 2 field 2 -/
  field : Nat
  complete : Bool
  noRef : Bool
  irap : Bool
  twoPass : Bool
  fellBack : Bool
  refFrame : Nat
  refField : Nat
  blkW : Nat
  blkH : Nat
  seq : Nat
  recs : Tab MvRec
deriving DecidableEq, Repr

/-- A chain beyond its objects: the set in force, a pending one with the instant of the switch line it applies at, the
pictures stored by number, and the motion fields of a borrowed search. -/
structure ChainSt where
  work : Option ChainCfg
  pend : Option (ChainCfg × Nat)
  store : Tab (Tab Pix)
  /-- ring of the 6 newest fields, oldest first (R262) -/
  fields : List MotField
  searched : Nat
  /-- input pictures begun since the chain runs -/
  pics : Nat
  /-- the store has held picture k + 1 since the last commit (R193) -/
  ready : Bool
  /-- the picture the frame store or converter shows, by the frames of the output raster -/
  shown : Turn (Tab Pix)
  /-- the set in force before the present one, and the first output frame of the present one -/
  old : Option (ChainCfg × Nat)
  /-- borrowed rows released and unfinished: picture, row, deadline (ns) -/
  jobs : List (Nat × Nat × Nat)
deriving DecidableEq, Repr

/-- The objects of a layer (R199, R202–R204). -/
structure LayerCfg where
  kind : Nat
  scaler : Nat
  scl : SclCfg
  addr : Nat
  pitch : Nat
  surfFmt : Nat
  premul : Bool
  colour : List Byte
  keyMode : Nat
  keyClip : Nat
  keyGain : Nat
  keyInvert : Bool
  opacity : Nat
  static : Bool
deriving DecidableEq, Repr

/-- The shadow set of a compositor as captured (R211). -/
structure CmpCfg where
  latch : Nat
  bg : List Byte
  lutPre : List Byte
  lutPost : List Byte
  clip : List Byte
  anc : Nat
  felt : Bool
  layers : List LayerCfg
deriving DecidableEq, Repr

/-- A Felt sample: FP and FT (R207). -/
structure FeltPix where
  p0 : Int
  p1 : Int
  p2 : Int
  t : Nat
deriving DecidableEq, Repr

/-- A run of surface samples of a layer, or of Felt samples (layer 0xFF), that are transparent in a frame: row and first column in the
compositor's active picture (R203). -/
structure LostRun where
  frame : Nat
  layer : Nat
  row : Nat
  col : Nat
  count : Nat
deriving DecidableEq, Repr

/-- A compositor's raster after a step of the time base: the frame that it completes under the old time, the first frame under the new
time, and the instant that one starts (R215). -/
structure Restart where
  frame : Nat
  first : Nat
  start : Nat
deriving DecidableEq, Repr

/-- A compositor beyond its objects (R206–R212). -/
structure CmpSt where
  pend : Option CmpCfg
  staged : Option CmpCfg
  work : Option CmpCfg
  /-- the pending set was late, and stays until the guard test after this instant (R212) -/
  lateUntil : Option Nat
  /-- a press queued for the pending set, and one running until an instant; frames it has held the set back -/
  queued : Bool
  pressing : Option Nat
  lost : Nat
  /-- the surface of the last press, and the one in use -/
  fresh : Option (Rect × List FeltPix)
  felt : Option (Rect × List FeltPix)
  /-- the set and Felt surface before the present ones, and the first frame of the present ones -/
  old : Option (CmpCfg × Option (Rect × List FeltPix) × Nat)
  /-- the Felt surface pressed for the staged set -/
  stagedFelt : Option (Rect × List FeltPix)
  /-- surface and Felt samples that are transparent in a frame (R203) -/
  gone : List LostRun
  /-- the restart that a time step brings (R215) -/
  rest : Option Restart
deriving DecidableEq, Repr

/-- A CRC rectangle of a captured set: rectangle, SCN.CRC.MODE, SCN.CRC.EXPECT (R216). -/
structure CrcCfg where
  rect : Rect
  mode : Nat
  expect : Nat
deriving DecidableEq, Repr

/-- The shadow set of an output as captured (R211). -/
structure OutCfg where
  source : Nat
  latch : Nat
  discPt : Nat
  crc : List CrcCfg
deriving DecidableEq, Repr

/-- A raster an output goes over to: format, offset, attributes, the instant its first frame starts, the cause and the
end of the old frame period; the frame that completes under the old raster, the end of its last active line, and the step of the time base
under which it completes (R214, R215). -/
structure NextRaster where
  format : Nat
  ofs : Nat
  attr : Nat
  start : Nat
  cause : Nat
  oldEnd : Instant
  frame : Nat
  quiet : Instant
  shift : Int
deriving DecidableEq, Repr

/-- A scan-out output beyond its objects (R210–R218). -/
structure OutSt where
  pend : Option OutCfg
  staged : Option OutCfg
  work : Option OutCfg
  lateUntil : Option Nat
  next : Option NextRaster
  /-- DISC.PT stands in place of the descriptor's PT -/
  swapped : Bool
  /-- the first value after the commit of each rectangle that learns, and the rectangles found to differ since the commit -/
  learnt : Tab Nat
  bad : List Nat
deriving DecidableEq, Repr

/-- Conversion and composition on a media die. -/
structure VideoSt where
  chains : Tab ChainSt
  cmps : Tab CmpSt
  outs : Tab OutSt
  /-- the graphics region: bytes written, by offset (R201) -/
  surf : Tab Byte
  /-- compositors waiting for the press of CMP0 and CMP1, in order of request -/
  pressQueue : List Nat
deriving DecidableEq, Repr

/-- A Gauze rectangle: its area and its QP offset (R285). -/
structure GzRect where
  rect : Rect
  ofs : Int
deriving DecidableEq, Repr

/-- A channel's shadow set as committed (R244, R268, R288, R308). -/
structure EncCfg where
  irapType : Nat
  irapPeriod : Nat
  poisonIrap : Bool
  vbr : Bool
  bitrate : Nat
  maxrate : Nat
  cpb : Nat
  cpbInit : Nat
  cpbTarget : Nat
  cpbRestart : Nat
  react : Nat
  gain : Nat
  qpStep : Nat
  qpMin : Int
  qpMax : Int
  qpInit : Int
  ofsIrap : Int
  ofsNonref : Int
  wIrap : Nat
  wRef : Nat
  wNonref : Nat
  gz : Bool
  gzMap : Bool
  gzSelect : Nat
  gzRecov : Bool
  gzRects : List GzRect
  hdrSei : Bool
  mdcv : List Byte
  cll : List Byte
  dph : Bool
  lambda : Nat
  confGain : Nat
deriving DecidableEq, Repr

/-- A CTU row of a picture being coded. -/
structure EncRow where
  stored : Bool
  searched : Bool
  /-- q(r), once its pixel job ran (R277, R278) -/
  qp : Option Int
  /-- the CTUs as the pixel engine formed them, and the first one that a missed window sends to Scrim (R239) -/
  ctus : List Ctu
  force : Option Nat
  /-- QP of each CTU (R287), none for one coded in Scrim -/
  qps : List (Option Int)
  scrim : List Nat
  bins : Nat
  /-- charge of R280 in 1/256 bit -/
  charge : Nat
  /-- slice data by tile, the header part ahead of it, and the other NAL units sent before and after it (R298) -/
  data : Tab (List Byte)
  hdr : List Byte
  lead : List (List Byte)
  tail : List (List Byte)
  /-- the instant at which its last tile was coded -/
  doneAt : Nat
  released : Bool
deriving DecidableEq, Repr

/-- A picture being coded. -/
structure EncPic where
  cfg : EncCfg
  /-- the set changed the rate (R275) -/
  rateNew : Bool
  /-- number on the raster (R305): the frame, or 2 × frame + field − 1 -/
  num : Nat
  frame : Nat
  field : Nat
  /-- place in the stream, in output order and in coding order; the picture whose windows and instants it takes (R235) -/
  idx : Nat
  order : Nat
  slot : Nat
  /-- source samples at 10 bits, chroma decimated (R222) -/
  src : Tab Pix
  /-- decided at row 0 of the pixel stage -/
  typed : Bool
  irap : Bool
  idr : Bool
  /-- reference picture -/
  ref : Bool
  /-- pictures of the stream begun before it, what its headers signal, and au_cpb_removal_delay_minus1 (R226, R242, R300) -/
  nth : Nat
  head : Config.PicHead
  removal : Nat
  /-- O of R271 -/
  ovh : Nat
  /-- T_s of R276 -/
  budget : Option Int
  guard : Bool
  recov : Bool
  user : Option (List Byte)
  rows : List EncRow
  /-- a stage window was missed (R239) -/
  missed : Bool
  /-- ns by which the time base stepped since the picture began (R245) -/
  shift : Int
  /-- HRD updated, and filler bytes (R273) -/
  hrd : Bool
  filler : Nat
deriving DecidableEq, Repr

/-- Why the next picture of a channel is coded as an IRAP picture (R284). -/
structure IrapCause where
  /-- a start or restart -/
  start : Bool
  /-- a request, with its instant (R283) -/
  request : Option Nat
  /-- a poisoned reference, a time step, a rate change -/
  other : Bool
deriving DecidableEq, Repr

/-- Order counts and reference pictures of a stream (R226, R242, R284, R300): the last IDR and IRAP pictures by their place in the stream,
whether the latter is an IDR picture, pictures coded since the last buffering period, and the reference pictures that are held: place and
order count. -/
structure EncRefs where
  idr : Nat
  irap : Nat
  irapIdr : Bool
  since : Option Nat
  dpb : List (Nat × Int)
deriving DecidableEq, Repr

/-- An encode channel beyond its objects. -/
structure EncSt where
  work : Option EncCfg
  pend : Option (EncCfg × Nat)
  /-- a control that has not landed: start, and the instant it lands at -/
  control : Option (Bool × Nat)
  /-- no picture starts any more; the ones under way complete -/
  stopping : Bool
  /-- last picture of a stopped stream, until it is released -/
  endAt : Option Nat
  pics : List EncPic
  /-- source luma of pictures already searched: number, samples -/
  refs : Tab (Tab Pix)
  fields : List MotField
  searched : Nat
  cause : IrapCause
  rateChange : Bool
  /-- pictures begun since the start (R305) -/
  next : Nat
  refPics : EncRefs
  /-- the last three rows whose pixel job started: picture, row, exact bits, bins (R238) -/
  started : List (Nat × Nat × Option Nat × Nat)
  /-- number of the picture at place 0 on the raster, its coding order number, the next one to code, the place of the last
  IRAP picture -/
  first : Option Nat
  base : Nat
  codeNext : Nat
  lastIrap : Nat
  /-- Fs and Dacc of R273 -/
  fs : Int
  dacc : Int
  /-- exact bits and bins of the most recent rows, oldest first -/
  hist : List (Nat × Nat)
  /-- qavg and type of the previous picture: 0 reference, 1 IRAP, 2 non-reference -/
  prev : Option (Int × Nat)
  /-- the recovery map is in use, and the pictures coded under it -/
  recovMap : Option Nat
  /-- Gauze map buffers (R286) -/
  maps : Tab (List Byte)
  /-- a user data SEI waits, since an instant (R302) -/
  sei : Option Nat
  /-- Deferred queue: pictures, and the data of the one being uploaded -/
  queue : List (Tab Pix)
  upload : List Byte
  /-- engine pair given by a re-placement that waits for the picture boundary; 0xFF stops the channel -/
  moveTo : Option Nat
  /-- entropy engines given by a re-assignment that waits likewise -/
  entMove : Option (List Nat)
  /-- last PSI insertion by flow, and continuity counters by flow and PID (R306) -/
  psiAt : Tab Nat
  cc : Tab Nat
  disc : Bool
deriving DecidableEq, Repr

/-- An access unit in the CPB (R320): its NAL units, its bytes, its RTP timestamp, its arrival. -/
structure AccessUnit where
  ts : Nat
  nals : List (List Byte)
  size : Nat
  arrival : Nat
deriving DecidableEq, Repr

/-- A picture of the DPB (R317, R322, R323): coded video sequence and picture order count, wanted for output, held as a
reference, pictures decoded since. -/
structure DecPic where
  cvs : Nat
  poc : Int
  waiting : Bool
  ref : Bool
  age : Nat
  concealed : Bool
  parity : Nat
  chroma : Nat
  chromaLoc : Nat
  depth : Nat
  vui : Option (Nat × Nat × Nat)
  pix : Tab Pix
deriving DecidableEq, Repr

/-- A decoder context beyond its objects (R310–R324). -/
structure DecSt where
  /-- packets received and not yet part of an access unit, oldest first -/
  rx : List Rtp
  /-- sequence number of the last packet taken -/
  last : Option Nat
  cpb : List AccessUnit
  dpb : List DecPic
  cvs : Nat
  active : Option Sps
  /-- decoding started at a CRA picture: its RASL pictures are discarded -/
  craStart : Bool
  /-- a substitution and a replacement since STICKY bit 1 was last cleared -/
  substTold : Bool
  lossTold : Bool
  /-- pictures concealed since concealment began -/
  run : Nat
  /-- a field that waits for its partner -/
  field : Option DecPic
  /-- instant of the last picture output -/
  lastOut : Nat
deriving DecidableEq, Repr

/-- A router sample: word and validity flag (R329). -/
structure AudSmp where
  v : Int
  valid : Bool
deriving DecidableEq, Repr

/-- A source an output channel went over to: the index of sample 0 of its crossfade, and e of N = 2^e, 0 for a cut (R168,
R347). -/
structure AudLayer where
  src : Nat
  start : Nat
  e : Nat
deriving DecidableEq, Repr

/-- The values of an output channel that a router commit takes (R347). -/
structure AudSet where
  src : Nat
  gain : Int
  mute : Bool
  delay : Nat
deriving DecidableEq, Repr

/-- A router output channel beyond its objects: its sources, the newest last; its gain ramp; the delay in force; committed
values with their instant; the newest samples computed, by index. -/
structure AudOutSt where
  layers : List AudLayer
  gOld : Int
  gNew : Int
  gStart : Nat
  gE : Nat
  mute : Bool
  delay : Nat
  pend : Option (AudSet × Nat)
  hist : List (Nat × AudSmp)
deriving DecidableEq, Repr

/-- A compacted frame in a port FIFO: its enabled slots, and its 64-bit words with tag and poison (R336, R338). -/
structure AudFrame where
  mask : Nat
  words : List (Nat × Nat × Bool)
deriving DecidableEq, Repr

/-- A TDM port beyond its objects (R334–R338, R341, R350): FIFOs, whether they reached the target, the last frames taken; the
masks in force and committed ones with their instant; the start of the frame on the wire; n0 of a common start, and while a port waits for one
the instant it was armed; the FSY
edges of the present gate; the rate of the last report. -/
structure AudPortSt where
  inFifo : List AudFrame
  outFifo : List AudFrame
  inPrimed : Bool
  outPrimed : Bool
  inLast : Option AudFrame
  outLast : Option AudFrame
  inMask : Nat
  outMask : Nat
  pend : Option (Nat × Nat × Nat)
  frame : Option Nat
  n0 : Option Nat
  armed : Option Nat
  gate : Nat
  edges : Nat
  first : Nat
  last : Nat
  told : Option Nat
deriving DecidableEq, Repr

/-- A clock island (R339, R340): integrator, the sum under way and a whole one, runs of updates within the lock limit and at
the pull limit. -/
structure AudIslSt where
  integ : Int
  count : Nat
  sum : Nat
  whole : Option Nat
  good : Nat
  pulled : Nat
deriving DecidableEq, Repr

/-- A playout buffer (R343, R344): samples by index modulo 2^32, the offset k, packets in a row outside the window, a rebase
due after a time step, the instant of the last missing sample. -/
structure AudFlowSt where
  store : List (Nat × List AudSmp)
  k : Nat
  outside : Nat
  stepDue : Bool
  missAt : Option Nat
deriving DecidableEq, Repr

/-- Audio on a media die: recent samples of the input channels that have a producer, newest first; output channels; the
last index computed, by bank; ports, islands, flows; the first index of the next packet of an egress flow, with the landing
it counts from. -/
structure AudioSt where
  ins : Tab (List (Nat × AudSmp))
  outs : Tab AudOutSt
  last : Tab Nat
  ports : Tab AudPortSt
  isls : Tab AudIslSt
  flows : Tab AudFlowSt
  egress : Tab (Nat × Nat)
deriving DecidableEq, Repr

/-- DRAM blocks held for a subject (R358): its object index and instance, runs of 2 MiB blocks (first, count), declared
traffic in bytes per second. -/
structure Store where
  subject : Nat
  inst : Nat
  runs : List (Nat × Nat)
  traffic : Nat
deriving DecidableEq, Repr

/-- A byte memory in canonical form: addresses strictly rising; what an unlisted address reads as: zero, or, after its
contents were lost in an epoch, a free value of that epoch (R357, R371; assumption 6). -/
structure Memory where
  cells : List Host.Cell
  lost : Option Nat
deriving DecidableEq, Repr

/-- A piece of a request at a channel controller (R359). -/
structure MemPiece where
  req : MemReq
  /-- its channel, rank and bank (bank group × 4 + bank) -/
  ch : Nat
  rank : Nat
  bank : Nat
  /-- instant it reached the controller -/
  enter : Nat
  late : Bool
  /-- instant its commands were issued -/
  issued : Option Nat
  /-- sent with all byte strobes off (R391) -/
  null : Bool
  /-- fetched again by a replay, and whether its first return was delivered as poisoned (R367, R378) -/
  again : Bool
  bad : Bool
deriving DecidableEq, Repr

/-- A parity alert being handled (R367): replays run, whether one is running and whether it failed, the pieces in the window. -/
structure AlertSt where
  replays : Nat
  running : Bool
  failed : Bool
  window : List MemPiece
deriving DecidableEq, Repr

/-- A DRAM channel beyond its objects (R359–R378): per rank the owed refreshes, the next due instant and the last REF in DRAM clocks, whether it runs at the double rate, what the
temperature asks and the cool reads in a row, the last ZQCS; activate counters by rank × 16 + bank; the newest 32 pieces issued;
bus direction and its run; byte-lane drifts; an in-service retrain failed; injected errors left (R491). -/
structure ChanSt where
  owed : Tab Nat
  due : Tab Nat
  ref : Tab Nat
  dbl : Tab Bool
  hot : Tab Bool
  cool : Tab Nat
  zq : Tab Nat
  acts : Tab Nat
  recent : List MemPiece
  dirWrite : Bool
  run : Nat
  alert : Option AlertSt
  lanes : Tab Int
  failed : Bool
  single : Nat
  double : Nat
  parity : Nat
deriving DecidableEq, Repr

/-- The DRAM of a media die: the configuration in force since BOOT (ranks, GiB per channel and rank), the bytes the bus wrote,
beats stored with flipped bits (1, or 2 for uncorrectable), requests, channels, the in-service retrains asked for, the scrub
pass. -/
structure MemSt where
  ranks : Nat
  gib : Nat
  /-- tRFC in DRAM clocks (R364); the 64 ms epoch of the activate counters (R366) -/
  rfc : Nat
  epoch : Nat
  mem : Memory
  flips : Tab Nat
  pieces : List MemPiece
  chans : Tab ChanSt
  retrains : List Nat
  /-- the pass is the one of a brown-out; beats it found -/
  fast : Bool
  corrected : Nat
  uncorrectable : Nat
deriving DecidableEq, Repr

/-- An outstanding bus transaction (R386, R389, R391): its master, generation, pieces that have not completed, data read so far. -/
structure BusTxn where
  master : Nat
  gen : Nat
  op : BusOp
  left : Nat
  data : List (Nat × List Byte)
  poison : Bool
  error : Bool
  parked : Bool
  /-- of the generation before a reset -/
  old : Bool
deriving DecidableEq, Repr

/-- The bus matrix beyond its objects: transactions in issue order, resets under way (master, its instant and the transactions
discarded), those whose drain was reported slow (R392), beats and queue words still to be injected with a parity error (R491). -/
structure BusSt where
  txns : List BusTxn
  resets : Tab (Nat × Nat)
  overruns : List Nat
  beats : Tab Nat
  words : Tab Nat
deriving DecidableEq, Repr

/-- A packet that is complete and not released: flow, sequence number, CRC and length of its UDP payload, the queue and
packet of its leg, and the instant it was completed (R405, R407). -/
structure HeldPkt where
  flow : Nat
  seq : Nat
  crc : Nat
  len : Nat
  queue : Nat
  pkt : Pkt
  /-- the ERR bit of its record (R406) -/
  err : Bool
  at_ : Nat
deriving DecidableEq, Repr

/-- A media die's part in the pair. -/
structure SlvSt where
  /-- packets complete and not yet in the compare table -/
  built : List HeldPkt
  table : List HeldPkt
  /-- partner records without a packet, with their arrival -/
  orphans : List (CmpRec × Nat)
  /-- instant of the last internal error event, and their number since entry (R406, R411) -/
  errAt : Option Nat
  errCount : Nat
  /-- release of the last matched packet, by flow -/
  lastMatch : Tab Nat
  /-- flows with a reported mismatch and no resynchronization since (R407) -/
  bad : List Nat
  /-- flows matched since ALIGNING or REJOINING began -/
  matched : List Nat
  /-- heartbeats: consecutive misses and receipts of each path -/
  missBridge : Nat
  missC : Nat
  goodBridge : Nat
  goodC : Nat
  hbSeq : Nat
  /-- decisions of the owner not yet applied -/
  decisions : List Decision
deriving DecidableEq, Repr

/-- What Die C keeps of the pair: divergences (instants), resynchronizations due (kind, number, source die), mirrored
commits applied, declarations received (die, GSEQ), the run of periods with heartbeats since SPLIT. -/
structure PairSt where
  diverged : List Nat
  resyncs : List (Nat × Nat × MDie)
  gen : Nat
  declared : List (MDie × Nat)
  heard : Nat
deriving DecidableEq, Repr

/-- A Twill link's end (R424, R430, R435). -/
structure TwlLink where
  /-- consecutive HELLOs, and the instant of the last -/
  hellos : Nat
  last : Nat
  peer : TwlPkg
  peerDie : Nat
  peerQuad : Nat
  /-- slots outward and inward: slot and the channel on it, as device ID, die and number of its receive end -/
  tx : Tab (Nat × Nat × Nat)
  rx : Tab (Nat × Nat × Nat)
  /-- instant the last channel was freed -/
  idle : Nat
  /-- the instant of the last DELAY REQUEST -/
  asked : Option Nat
  /-- the delay was measured before -/
  measured : Bool
deriving DecidableEq, Repr

/-- A receive channel (R429–R433): its source, path and state beyond its objects. -/
structure TwlRx where
  device : Nat
  srcDie : Nat
  port : Nat
  path : List TwlHop
  /-- hops that answered NACK -/
  refused : List TwlHop
  seq : Option Nat
  line : Nat
  /-- lines and their ancillary data by the frames of the source raster; a byte of a lost flit is none -/
  pic : Turn (Tab (List (Option Byte)))
  anc : Turn (Tab (List Byte))
  /-- what the source's package told of the source, and the cause for which it reports it lost (R150, R164) -/
  src : Option TwlSrc
  lost : Option Nat
  /-- router input samples carried with member 0: channel, validity, sample -/
  audio : Tab (Bool × Int)
  /-- generation at which a restoration was last tried -/
  tried : Nat
deriving DecidableEq, Repr

/-- A transmit channel: the port member it takes, its path, the receive end. -/
structure TwlTx where
  port : Nat
  path : List TwlHop
  device : Nat
  rxDie : Nat
  rx : Nat
  seq : Nat
deriving DecidableEq, Repr

/-- A route commit that waits for its Twill channels (R432): group, landing floor, destinations with the pending
routes they held before, channels still unanswered. -/
structure OpenCommit where
  group : Nat
  dsts : List (MDie × Nat × Option PendRoute)
  /-- the backup route that a write of LOOM.DST.BACKUP replaces -/
  backup : Option Nat
  wait : List (MDie × Nat)
deriving DecidableEq, Repr

/-- The fabric as Die C keeps it, and the Twill channels of both dies. Tables by die hold die × 256 + number. -/
structure TwillSt where
  links : Tab TwlLink
  rx : Tab TwlRx
  tx : Tab TwlTx
  /-- forwarding: incoming link (die × 8 + quad) × 64 + slot, to outgoing link and slot -/
  fwd : Tab (Nat × Nat)
  /-- the paths of the channels that this package sends on a link: device ID, die and number of the receive end, path -/
  ways : List ((Nat × Nat × Nat) × List TwlHop)
  pkgs : List TwlPkg
  recs : List TwlRec
  changed : Nat
  /-- device IDs held for lost packages: serial, ID, until (ns) -/
  held : List (Nat × Nat × Nat)
  /-- messages already flooded: source, generation, type, key -/
  seen : List (Nat × Nat × Nat × Nat)
  offRun : Nat
  open_ : List OpenCommit
  /-- commits that wait for their instant (R152): dies, group, instant -/
  due : List (List MDie × Nat × Instant)
deriving DecidableEq, Repr


/-- The operating modes (R11). -/
inductive Mode where
  | reset | boot | standby | configure | service | selvedge | test | recovery
deriving DecidableEq, Repr

/-- The value of a mode in MODE.STATE (R493). -/
def Mode.num : Mode → Nat
  | .reset => 0 | .boot => 1 | .standby => 2 | .configure => 3 | .service => 4 | .selvedge => 5 | .test => 6
  | .recovery => 7

/-- The mode of a value of MODE.STATE (R493). -/
def Mode.ofNum : Nat → Mode
  | 1 => .boot | 2 => .standby | 3 => .configure | 4 => .service | 5 => .selvedge | 6 => .test | 7 => .recovery
  | _ => .reset

/-- What Die C keeps in MRAM beyond reset (R26, R40, R451, R464). -/
structure Mram where
  objs : List (ObjAddr × Int)
  blobs : List (ObjAddr × List Byte)
  /-- persistent log entries: boot count and record -/
  log : List (Nat × EventRec)
  /-- a recorded sequence fault: owning die and rail (R40) -/
  seqFault : Option (PDie × Nat)
deriving DecidableEq, Repr

/-- A lane beyond its objects (R97, R100, R103–R105, R107). -/
structure LaneSt where
  /-- the state a running transition leads to: 1 deep, 2 shallow, 3 active -/
  target : Option Nat
  /-- the latest request held during a transition -/
  held : Option Nat
  /-- its settings changed during a transition: it passes through deep before it acts on that request -/
  cycle : Bool
  /-- the lane record of the row in force, 128 bits: FIR, CTLE, VGA, DFE, module targets, precoders, polarity; none without a row -/
  eq : Option Nat
  /-- symbols that the pattern generator has sent, and the run of correct symbols, or of wrong ones while the checker is locked -/
  gen : Nat
  run : Nat
  /-- precoder state of transmitter and receiver -/
  txPrev : Nat
  rxPrev : Nat
deriving DecidableEq, Repr

/-- Where a cage stands in the insertion sequence of R112. -/
inductive CageStep where
  | empty
  /-- step 2: the module state is polled -/
  | polling
  /-- step 2 timed out: held until re-inserted -/
  | stuck
  /-- steps 3 and 4 done; the module rests in low power -/
  | identified
  /-- step 5: waiting for ModuleReady -/
  | powering
  /-- step 6: waiting for DataPathActivated -/
  | dataPath
  | done
deriving DecidableEq, Repr

/-- A cage beyond its objects (R110–R116). -/
structure CageSt where
  step : CageStep
  info : Option ModuleInfo
  /-- pins: `_RST_N` is released, `_LPM` is high (R112) -/
  rstN : Bool
  lpm : Bool
  /-- transactions without acknowledge in a row (R113) -/
  noAck : Nat
  /-- monitors are stale (R113) -/
  stale : Bool
  /-- laser bias sums of the hour, by lane, and the valid polls behind them (R115) -/
  biasSum : List Nat
  polls : Nat
deriving DecidableEq, Repr

/-- Test facilities of a media die beyond their objects (R489–R491): the section under self-test, frames that a reference CRC run
still compares by rectangle, symbol errors and uncorrectable codewords still to be injected by lane. -/
structure TestSt where
  bist : Option Nat
  crc : Tab Nat
  symbols : Tab Nat
  codewords : Tab Nat
deriving DecidableEq, Repr

/-- A media die's state beyond its objects. -/
structure MediaDie where
  time : DieTime
  arb : ArbiterSt
  /-- armed flags of the watermarks, by kind and instance; unlisted ones are armed (R398) -/
  wmArmed : Tab Bool
  lanes : Tab LaneSt
  cages : Tab CageSt
  net : NetSt
  loom : LoomSt
  video : VideoSt
  enc : Tab EncSt
  dec : Tab DecSt
  slv : SlvSt
  audio : AudioSt
  /-- entropy engines removed until the next BOOT (R297) -/
  entDead : List Nat
  /-- converters whose engine was lost, until they are placed afresh for the first time (R265) -/
  unborrowed : List Nat
  /-- DRAM blocks held (R358) -/
  stores : List Store
  ram : MemSt
  /-- elements that failed a self-test: section and element (R417, R489) -/
  badElems : List (Nat × Nat)
  bus : BusSt
  test : TestSt
deriving DecidableEq, Repr

/-- The status with which a request on an object is answered (R457). -/
inductive Status where
  | ok | access | range | noObject | length
  /-- the subject's event code -/
  | rejected (code : Nat)
  | unreachable (die : Nat)
  | busy
  | stale (seq : Nat)
  | session
  | bulk (next : Nat)
  | partly (applied : Nat)
  /-- the state of what the item addresses -/
  | noEffect (st : Nat)
deriving DecidableEq, Repr

/-- A response frame of the dictionary server (R454): what its header and payload carry. -/
structure Response where
  session : Nat
  seq : Nat
  op : Nat
  status : Status
  /-- index of the item the status is about -/
  item : Nat
  /-- ITEMS -/
  items : Nat
  /-- FLAGS bit 5 -/
  gap : Bool
  /-- FLAGS bit 0 -/
  auth : Bool
  payload : List Byte
  /-- the descriptors of a DESCRIBE, whose layout the spec does not give -/
  descs : List ObjDef
  /-- the tag of an authenticated session (R458) -/
  tag : List Byte
deriving DecidableEq, Repr

/-- A bulk transfer in progress (R463). -/
structure Bulk where
  id : Nat
  addr : ObjAddr
  total : Nat
  data : List Byte
  /-- instant of the last segment -/
  last : Nat
deriving DecidableEq, Repr

/-- A NOTIFY that is not acknowledged yet (R466): its count, gap flag and records, times sent again, instant last sent. -/
structure Notice where
  count : Nat
  gap : Bool
  records : List EventRec
  again : Nat
  last : Nat
deriving DecidableEq, Repr

/-- A VOL session (R458–R466). -/
structure Session where
  num : Nat
  /-- key slot, 0xFF for an unauthenticated session -/
  slot : Nat
  role : Nat
  established : Bool
  /-- instant of the OPEN, then of the most recent correct request -/
  last : Nat
  /-- port of the most recent correct request: 0, 1, 2 SPI -/
  port : Nat
  /-- highest SEQ executed -/
  high : Nat
  /-- stored responses of the 8 most recent requests, newest first -/
  history : List Response
  /-- client-to-device and device-to-client keys (R458) -/
  keyIn : List Byte
  keyOut : List Byte
  /-- address and UDP port of the most recent correct request -/
  peer : Nat × Nat
  subscribed : Bool
  ranges : List (Nat × Nat)
  /-- next GSEQ to consider for delivery -/
  nextGseq : Nat
  notices : List Notice
  /-- notifications sent -/
  notifies : Nat
  /-- a run of losses goes on: the next NOTIFY sets the gap flag -/
  losing : Bool
  transfer : Option Bulk
  /-- BULK.READ snapshots: object, data, instant -/
  snaps : List (ObjAddr × List Byte × Nat)
deriving DecidableEq, Repr

/-- BOOT (R475–R479). -/
structure BootSt where
  /-- consecutive boot failures -/
  failures : Nat
  /-- consecutive boot failures under the slot that runs (R477) -/
  slotFailures : Nat
  /-- a recorded boot failure still to be reported by event 0x1051 -/
  unreported : Bool
  /-- ns for which C_AO still holds C_SYS00_FAULT_N low for the latest boot failure (R54, R476) -/
  faultLeft : Nat
  /-- warning dips during the present BOOT step (R44) -/
  dips : Nat
  /-- six consecutive boot failures: held until C_SYS00_PORST_N -/
  halted : Bool
  /-- the boot ROM left the chosen slot (R477) -/
  fallback : Bool
  /-- steps B1 to B7 are done -/
  ready : Bool
  /-- Die C still retries the transition toward the boot target (R479) -/
  retrying : Bool
  /-- media dies to which Die C still re-attaches after a reset of its own (R443) -/
  reattach : List MDie
deriving DecidableEq, Repr

/-- Lifecycle and firmware state outside the objects (R467–R470). -/
structure SecSt where
  /-- an accepted token: scope and expiry in PTP seconds -/
  token : Option (Nat × Nat)
  /-- RETURN-ERASING is recorded (R469) -/
  erasing : Bool
  /-- the slot FW.IMAGE.COMMIT last chose -/
  chosen : Nat
  /-- contents written to the inactive slot; what was not written is the slot's former contents, not known (R470) -/
  image : Memory
  /-- versions of the images in the two slots of the boot flash (R470, R472) -/
  ver0 : Nat
  ver1 : Nat
deriving DecidableEq, Repr

/-- A mode transition under way (R480–R483). -/
structure Trans where
  target : Mode
  /-- transition instant -/
  instant : Nat
  /-- entered by the stop rule from this mode -/
  source : Mode
deriving DecidableEq, Repr

/-- Recovery in progress (R485–R487). -/
structure RecovSt where
  since : Nat
  /-- faults whose action is RECOVERY and that no RECOVERY_ENTRY took yet: die and event code -/
  due : List (MDie × Nat)
  /-- outstanding actions: die and DRAM channel under full retrain -/
  acts : List (MDie × Nat)
  /-- restarted channels that have not yet released the first row of their IDR picture -/
  restarts : List (MDie × Nat)
  /-- a request for CONFIGURE is held (R481) -/
  held : Bool
  /-- encode channels and egress flows that ran on a media die when it was reset, by die -/
  ran : Tab (List Nat × List Nat)
deriving DecidableEq, Repr

/-- A write of a module's CMIS fields (R111), by the fields' names; lanes are host lanes. -/
inductive CmisWrite where
  /-- lower page, byte 26: LowPwrAllowRequestHW, LowPwrRequestSW -/
  | lowPower (allowHw request : Bool)
  /-- DataPathDeinit of the lanes -/
  | deinit (lanes : List Nat)
  /-- DPConfigLane of the lanes, with the application that matches -/
  | dpConfig (lanes : List Nat)
  /-- AdaptiveInputEqEnableTx of a lane, written 0 -/
  | adaptiveOff (lane : Nat)
  | inputEq (lane code : Nat)
  | outPre (lane code : Nat)
  | outPost (lane code : Nat)
  | outAmp (lane code : Nat)
  /-- ApplyDPInit of the lanes -/
  | applyInit (lanes : List Nat)
deriving DecidableEq, Repr

/-- A frame on the wires of an audio port (R332, R334): the codes of its slots; the bits of SDO from the first bit of slot 0; BCKs from
the active FSY edge to that bit; the level of FSY in each BCK from that edge, where the port drives it; whether POL swaps the clock
edges. -/
structure TdmFrame where
  slots : List Int
  bits : List Bool
  delay : Nat
  fsy : List Bool
  swap : Bool
deriving DecidableEq, Repr

/-- What the part drives out of its ports. -/
inductive Sent where
  /-- a CMIS write on a cage's management bus (R111) -/
  | cmis (d : MDie) (cage : Nat) (w : CmisWrite)
  /-- symbols of a lane in a test: those of the pattern generator, or of the far-end loopback (R107) -/
  | symbols (d : MDie) (lane : Nat) (l : List PamLevel)
  /-- a Twill control message, with the bytes of its flit where the rules lay them down, and a media flit on a link: die, quad
  (R422, R423) -/
  | twlMsg (d : MDie) (quad : Nat) (m : TwlMsg) (bytes : Option (List Byte))
  | twlFlit (d : MDie) (quad : Nat) (f : TwlFlit)
  /-- a frame left a port of a media die, with its headers where it is a media packet (R128, R136) -/
  | frame (d : MDie) (port : Nat) (h : Option NetHdr) (p : Pkt)
  /-- two-step Sync: PTP port, sequence, then its Follow_Up's origin time (R60) -/
  | ptpSync (port seq : Nat)
  | ptpFollowUp (port seq origin : Nat)
  | ptpAnnounce (port seq gm clockClass priority1 priority2 : Nat)
  | ptpDelayReq (port seq : Nat)
  | ptpDelayResp (port seq receive : Nat)
  /-- rising edge of the 1PPS output at a whole second (R69) -/
  | pps (second : Nat)
  /-- a record of the pair from a media die to its partner, on the bridge and through Die C: its 16 bytes (R405, R411) -/
  | pair (d : MDie) (frame : List Byte)
  /-- a bus response at a master: die, master, ID, data, poison, error (R386, R390) -/
  | bus (d : MDie) (m id : Nat) (data : List Byte) (poison error : Bool)
  /-- a frame that an audio port sends (R332) -/
  | tdm (d : MDie) (port : Nat) (f : TdmFrame)
  /-- the frame under way at an audio port is cut at a bit count of its bit clock (R342) -/
  | tdmCut (d : MDie) (port bck : Nat)
  /-- a VOL response on a port, to an address and UDP port (R452, R453) -/
  | response (port ip udp : Nat) (r : Response)
  /-- a NOTIFY on a port, to an address and UDP port: session, notification count, gap flag, records (R466) -/
  | notify (port ip udp session count : Nat) (gap : Bool) (records : List EventRec)
  /-- a read frame that found none waiting, and a status byte, on the SPI host port (R453) -/
  | spiNone
  | spiStatus (v : Nat)
  /-- an ARP reply and an ICMP echo reply of a field network port (R452) -/
  | fieldArp (port ip mac : Nat)
  | fieldEcho (port ip mac : Nat)
  /-- what the TAP shifts out: its IDCODE, or its input through BYPASS (R467) -/
  | tapIdcode (v : Nat)
  | tapBypass
deriving DecidableEq, Repr

/-- The dictionary server's state (R443–R466). -/
structure VolSt where
  sessions : List Session
  /-- the staging area (R449) -/
  staging : Memory
  /-- SPI host port: frames that wait for the host, last written frame refused, a frame being executed (R453) -/
  spiWaiting : List Sent
  spiRefused : Bool
  spiBusy : Bool
  /-- instant of the last event 0x1012 (R461) -/
  authEvent : Option Nat
deriving DecidableEq, Repr

/-- The state of the part. -/
structure State where
  /-- values of numeric objects, by ascending address; an unlisted one holds its start value -/
  objs : List (ObjAddr × Int)
  /-- bytes of STRING and DOMAIN objects -/
  blobs : List (ObjAddr × List Byte)
  mram : Mram
  /-- the RAM log (R464) -/
  ramLog : List EventRec
  powerA : PowerSt
  powerB : PowerSt
  powerC : PowerSt
  time : TimeSt
  dieA : MediaDie
  dieB : MediaDie
  /-- brown-out events that Die C has not yet counted: die and rail (R42) -/
  brownouts : List (PDie × Nat)
  twill : TwillSt
  pair : PairSt
  /-- a sequence fault hold lasts (R40) -/
  seqHold : Bool
  /-- the equalization table in force (R103) -/
  eqTable : List Byte
  vol : VolSt
  boot : BootSt
  sec : SecSt
  trans : Option Trans
  recov : RecovSt
  /-- the status with which the last request on an object was answered -/
  answer : Status
  /-- what the part sent, oldest first -/
  sent : List Sent
  /-- the model's own counter behind free values (assumption 4) -/
  freeCtr : Nat
  /-- the commands that wait, first in first out -/
  pending : List Instr
deriving DecidableEq, Repr

/-- Power state of a die after reset: supplies present, sections off (R11, R45). -/
def PowerSt.start : PowerSt :=
  { run := .held, dips := [], critRun := 0, aoDip := none, wakeQueue := [], scrubDue := false, eyeDue := false }

/-- 1,000,000 s, the time every counter starts at (R61). -/
def timeStart : Nat := 1000000 * 1000000000

/-- The servo at BOOT: FREERUN with the time base at 1,000,000 s (R61). -/
def TimeSt.start : TimeSt :=
  { base := timeStart, gm := none, candidates := [], lockedSince := false, goodRun := 0, newGm := false,
    pathDelay := 0, lowReported := [], holdSince := 0, ppsRun := 0, ppsLast := none, ppsSet := none,
    ppsArmed := false, ppsoSecond := 0, ppsoDriven := false, f10m := false, ratio := 0, fraction := 0, offset := 0,
    syncWait := [], syncDiff := [], reqWait := [], syncSeq := [],
    announceSeq := [], reqSeq := [] }

/-- Nothing compared. -/
def SlvSt.start : SlvSt :=
  { built := [], table := [], orphans := [], errAt := none, errCount := 0, lastMatch := [], bad := [], matched := [],
    missBridge := 0, missC := 0, goodBridge := 0, goodC := 0, hbSeq := 0, decisions := [] }

/-- No audio. -/
def AudioSt.start : AudioSt := { ins := [], outs := [], last := [], ports := [], isls := [], flows := [], egress := [] }

/-- No test facility in use. -/
def TestSt.start : TestSt := { bist := none, crc := [], symbols := [], codewords := [] }

/-- DRAM before its training. -/
def MemSt.start : MemSt :=
  { ranks := 1, gib := 16, rfc := 880, epoch := 0, mem := { cells := [], lost := none }, flips := [], pieces := [], chans := [], retrains := [],
    fast := false, corrected := 0, uncorrectable := 0 }

/-- A media die's own state after its reset, with its time counter kept as given. -/
def MediaDie.start : MediaDie :=
  { time := { ctr := timeStart, refFormat := 0x0607, missedStep := 0, slew := 0, cueNow := [], cueMore := [] },
    arb := { buf := [], lost := 0, firstLost := 0 }, wmArmed := [], lanes := [], cages := [],
    net := { queues := [], flowsIn := [], flowsOut := [], ports := [], period := 2 },
    loom := { dst := [], bridgeOut := [], fsy := [], anc := [] },
    video := { chains := [], cmps := [], outs := [], surf := [], pressQueue := [] }, enc := [], dec := [], slv := SlvSt.start,
    audio := AudioSt.start, entDead := [], unborrowed := [],
    stores := [], ram := MemSt.start, badElems := [], bus := { txns := [], resets := [], overruns := [], beats := [], words := [] },
    test := TestSt.start }

/-- No fabric. -/
def TwillSt.start : TwillSt :=
  { links := [], rx := [], tx := [], fwd := [], ways := [], pkgs := [], recs := [], changed := 0, held := [], seen := [],
    offRun := 0, open_ := [], due := [] }

/-- The dictionary server without sessions. -/
def VolSt.start : VolSt :=
  { sessions := [], staging := { cells := [], lost := some (2 ^ 60) }, spiWaiting := [], spiRefused := false, spiBusy := false, authEvent := none }

/-- No BOOT has failed. -/
def BootSt.start : BootSt :=
  { failures := 0, slotFailures := 0, unreported := false, faultLeft := 0, dips := 0, halted := false, fallback := false,
    ready := false, retrying := false, reattach := [] }

/-- No token, no erasure, slot 0 chosen. -/
def SecSt.start : SecSt := { token := none, erasing := false, chosen := 0, image := { cells := [], lost := some (2 ^ 61) }, ver0 := 0, ver1 := 0 }

/-- No recovery. -/
def RecovSt.start : RecovSt := { since := 0, due := [], acts := [], restarts := [], held := false, ran := [] }

/-- The machine right after reset: mode RESET, every object at its start value, MRAM blank, no command
waiting. -/
def State.reset : State :=
  { objs := [], blobs := [], mram := { objs := [], blobs := [], log := [], seqFault := none }, ramLog := [],
    powerA := PowerSt.start, powerB := PowerSt.start, powerC := PowerSt.start, time := TimeSt.start,
    dieA := MediaDie.start, dieB := MediaDie.start, brownouts := [],
    twill := TwillSt.start, pair := { diverged := [], resyncs := [], gen := 0, declared := [], heard := 0 }, seqHold := false,
    eqTable := [], vol := VolSt.start, boot := BootSt.start, sec := SecSt.start, trans := none, recov := RecovSt.start, answer := .ok, sent := [], freeCtr := 0, pending := [] }

end Sys2Proof.Machine
end

