-- ==== Sys2Proof/Machine/Ops.lean ====
section
/-! DEFINITION. The named operations every meaning is written over: reading and writing objects, raising and
logging events (R86–R89, R464), time and coordinates, modes. Status, sticky and count rules stand in
Machine/Flags.lean. -/

namespace Sys2Proof.Machine

/-- What a meaning answers. -/
abbrev Out := Host.Outcome State Fault Refusal

/-- A meaning that acts only where the spec gives the command an occasion; elsewhere the state stays
(assumption 3). -/
def when (p : Bool) (s s' : State) : Out := .next (if p then s' else s)

/-! ### Byte memories -/

/-- What an unlisted address of a memory reads as. -/
def Memory.unlisted (m : Memory) (a : Nat) : Byte :=
  match m.lost with
  | none => 0
  | some e => Config.freeByte (e * 2 ^ 40 + a)

/-- The entry at an address, if there is one. -/
def cellGet (l : List Host.Cell) (a : Nat) : Option Byte :=
  match l with
  | [] => none
  | (b, v) :: r => if b = a then some v else cellGet r a

/-- A list without an address. -/
def cellDel (l : List Host.Cell) (a : Nat) : List Host.Cell := l.filter (fun e => decide (e.1 ≠ a))

/-- A rising list with the entry at an address made `v`. -/
def cellPut (l : List Host.Cell) (a : Nat) (v : Byte) : List Host.Cell :=
  match l with
  | [] => [(a, v)]
  | (b, w) :: r =>
    if b = a then (a, v) :: r else if a < b then (a, v) :: (b, w) :: r else (b, w) :: cellPut r a v

/-- The byte at an address. -/
def Memory.get (m : Memory) (a : Nat) : Byte := (cellGet m.cells a).getD (m.unlisted a)

/-- A memory with the byte at an address made `v`. Writing zero where an unlisted address reads as zero removes the entry. -/
def Memory.put (m : Memory) (a : Nat) (v : Byte) : Memory :=
  if m.lost = none ∧ v = 0 then { m with cells := cellDel m.cells a } else { m with cells := cellPut m.cells a v }

/-- Bytes from an address on. -/
def Memory.read (m : Memory) (a n : Nat) : List Byte := (List.range n).map (fun k => m.get (a + k))

/-- A memory with bytes written from an address on. -/
def Memory.write (m : Memory) (a : Nat) : List Byte → Memory
  | [] => m
  | v :: r => (m.put a v).write (a + 1) r

/-- Addresses rise strictly. -/
def rising : List Host.Cell → Bool
  | [] => true
  | [_] => true
  | (a, _) :: (b, w) :: r => decide (a < b) && rising ((b, w) :: r)

/-- The canonical form: addresses rise strictly, and no entry is the zero that an unlisted address reads as. -/
def Memory.wf (m : Memory) : Bool := rising m.cells && (m.lost.isSome || m.cells.all (fun e => decide (e.2 ≠ 0)))

/-- The order of object addresses in the dictionary's map: index, subindex, die, instance. -/
def addrLt (a b : ObjAddr) : Bool :=
  decide (a.index < b.index) || (decide (a.index = b.index) && (decide (a.sub < b.sub) || (decide (a.sub = b.sub)
    && (decide (a.die.num < b.die.num) || (decide (a.die.num = b.die.num) && decide (a.inst < b.inst))))))

/-- The value an address holds in a map, if it is listed. -/
def mapGet {α : Type} (m : List (ObjAddr × α)) (a : ObjAddr) : Option α :=
  match m with
  | [] => none
  | (b, v) :: r => if b = a then some v else mapGet r a

/-- A map with the value at an address made `v`; entries stay in ascending order. -/
def mapPut {α : Type} (m : List (ObjAddr × α)) (a : ObjAddr) (v : α) : List (ObjAddr × α) :=
  match m with
  | [] => [(a, v)]
  | (b, w) :: r =>
    if b = a then (a, v) :: r
    else if addrLt a b then (a, v) :: (b, w) :: r
    else (b, w) :: mapPut r a v

/-- The canonical form of a map: addresses rise strictly. -/
def mapWf {α : Type} : List (ObjAddr × α) → Bool
  | [] => true
  | [_] => true
  | (a, _) :: (b, w) :: r => addrLt a b && mapWf ((b, w) :: r)

/-- A map without an address. -/
def mapDel {α : Type} (m : List (ObjAddr × α)) (a : ObjAddr) : List (ObjAddr × α) :=
  m.filter (fun e => decide (e.1 ≠ a))

/-- The nominal voltage of a rail in mV (R37). -/
def railNominal (d : PDie) (r : Nat) : Nat :=
  match d with
  | .c => match r with | 0 => 750 | 1 => 750 | 2 => 1200 | 3 => 900 | _ => 1800
  | _ => match r with | 0 => 750 | 1 => 750 | 2 => 850 | 3 => 1200 | 4 => 850 | 5 => 1200 | _ => 1800

/-- The default latency target of a DRAM port (R362). -/
def portTargetDefault (p : Nat) : Nat :=
  match p with
  | 0 => 8000 | 1 => 4000 | 2 => 8000 | 3 => 4000 | 4 => 2000 | 5 => 2000 | 6 => 50000 | 7 => 20000 | 8 => 10000
  | 9 => 4000 | 10 => 2000 | 11 => 2000 | 12 => 10000 | 13 => 10000 | 14 => 2000 | 15 => 2000 | 16 => 4000
  | 17 => 4000 | 18 => 4000 | 19 => 4000 | 20 => 20000 | 21 => 50000 | 22 => 1000000 | 23 => 1000000 | _ => 100000

/-- The targets a master may reach, as the bits of BUS.MASTER.PERMIT (R382). -/
def masterPermit (m : Nat) : Nat :=
  if m ≤ 13 then 1
  else if m = 14 then 1
  else if m = 15 then 1 + 2 ^ 2
  else if m = 16 then 1
  else if m ≤ 18 then 1 + 2 ^ 1
  else if m ≤ 20 then 1
  else if m ≤ 24 then 1 + 2 ^ 1
  else if m = 25 then 1
  else if m ≤ 27 then 1 + 2 ^ 2
  else if m ≤ 30 then 1
  else if m ≤ 32 then 2 ^ 24 - 1
  else if m = 33 then 2 ^ 4 + 2 ^ 22
  else if m ≤ 37 then 2 ^ 2
  else if m = 38 then 2 ^ 3 + (2 ^ 20 - 2 ^ 5)
  else 0

/-- The DRAM port behind a master, 0xFF for none (R382). -/
def masterPort (m : Nat) : Nat :=
  match m with
  | 0 => 0 | 1 => 1 | 2 => 2 | 3 => 3 | 4 => 4 | 5 => 4 | 6 => 4 | 7 => 4 | 8 => 5 | 9 => 5 | 10 => 5 | 11 => 5
  | 12 => 6 | 13 => 6 | 14 => 7 | 15 => 8 | 16 => 9 | 17 => 10 | 18 => 11 | 19 => 12 | 20 => 13 | 21 => 14
  | 22 => 15 | 23 => 16 | 24 => 17 | 25 => 18 | 26 => 19 | 27 => 20 | 28 => 21 | 29 => 22 | 30 => 23 | 31 => 24
  | 32 => 24 | _ => 255

/-- Event codes that are faults: EVT.CODE.FLAGS bit 0 is 1 by default (R464, R492). -/
def faultCodes : List Nat := 
  [0x1002, 0x1003, 0x1005, 0x1012, 0x1013, 0x1022, 0x1024, 0x1030, 0x1041, 0x1051, 0x1052, 0x1053, 0x1054,
   0x1101, 0x1102, 0x1103, 0x1104, 0x1110, 0x1111, 0x1112, 0x1114, 0x1202, 0x1204, 0x1207, 0x1208, 0x1209,
   0x120A, 0x120B, 0x1211, 0x1302, 0x1303, 0x1304, 0x1313, 0x1314, 0x1315, 0x1316, 0x1317, 0x1318, 0x1319,
   0x1320, 0x1330, 0x1402, 0x1403, 0x1406, 0x1411, 0x1412, 0x1420, 0x1503, 0x1504, 0x1505, 0x1603, 0x1612,
   0x1613, 0x1710, 0x1711, 0x1712, 0x1804, 0x1805, 0x1820, 0x2002, 0x2006, 0x2008, 0x2009, 0x2102, 0x2103,
   0x2104, 0x2202, 0x2301, 0x2303, 0x2304, 0x2402, 0x2403, 0x2404, 0x2405, 0x2407, 0x2804, 0x2805, 0x2807,
   0x2809, 0x2810, 0x2831, 0x3001, 0x3002, 0x3003, 0x3004, 0x3006, 0x3008, 0x300A, 0x300D, 0x300E, 0x3101,
   0x3102, 0x3104, 0x3105, 0x3202, 0x3203, 0x3204, 0x3205, 0x3207, 0x3208, 0x320A, 0x320B, 0x320C, 0x320D,
   0x320E, 0x3302, 0x3304, 0x3307, 0x3309, 0x330A, 0x330B, 0x3F01, 0x3F02]

/-- The value an object starts from at reset: the default of its row; where that depends on the instance, or the
row gives none but another rule does, the value of that rule (R37, R45, R362, R382, R464, R492; assumption 5). A token bucket is full
(SHP.TOKENS; DESIGN CHOICE, assumption 94). -/
def ObjDef.start (o : ObjDef) (d : Die) (i : Nat) : Int :=
  if o.index = 0x1100 ∧ o.sub = 1 then (if d = .c then 0x1F else 0x7F)
  else if o.index = 0x1101 ∧ o.sub = 1 then (railNominal (match d with | .c => .c | _ => .a) i : Nat)
  else if o.index = 0x1102 ∧ o.sub = 1 then (if i = 0 then 2 else 0)
  else if o.index = 0x1102 ∧ o.sub = 2 then (if i ≠ 0 then 0 else if d = .c then 130 else 30)
  else if o.index = 0x1103 ∧ o.sub ≤ 2 then -32768
  else if o.index = 0x3002 ∧ o.sub = 1 then (portTargetDefault i : Nat)
  else if o.index = 0x3101 ∧ o.sub = 1 then (if i < 39 then 1 else 0)
  else if o.index = 0x3101 ∧ o.sub = 7 then (masterPermit i : Nat)
  else if o.index = 0x3101 ∧ o.sub = 8 then (masterPort i : Nat)
  else if o.index = 0x1500 ∧ o.sub = 6 then 9216 * 256
  else if o.index = 0x3F01 then (if i ∈ faultCodes then 1 else 0)
  else o.dflt

/-- The value of a numeric object. -/
def State.rd (s : State) (o : ObjDef) (d : Die) (i : Nat) : Int := (mapGet s.objs (o.addr d i)).getD (o.start d i)

/-- The value of a numeric object that is never negative. -/
def State.rdN (s : State) (o : ObjDef) (d : Die) (i : Nat) : Nat := (s.rd o d i).toNat

/-- Bit `n` of a numeric object. -/
def State.bit (s : State) (o : ObjDef) (d : Die) (i n : Nat) : Bool := (s.rdN o d i).testBit n

/-- A state with the value of a numeric object made `v`. -/
def State.wr (s : State) (o : ObjDef) (d : Die) (i : Nat) (v : Int) : State :=
  { s with objs := mapPut s.objs (o.addr d i) v }

/-- The identity curve of a LUT: three tables of 1,025 entries t[i] = 32 × i (R186). -/
def lutIdentity : List Byte :=
  let one := (List.range 1025).flatMap (fun n => natBe 2 (32 * n))
  one ++ one ++ one

/-- The identity matrix of a colour unit with zero offsets, MATRIX.IN and MATRIX.OUT (R185). -/
def matrixIdentity : List Byte :=
  ([8192, 0, 0, 0, 8192, 0, 0, 0, 8192].flatMap (natBe 2)) ++ List.replicate 6 0

/-- The identity gamut matrix (R185). -/
def gamutIdentity : List Byte := [8192, 0, 0, 0, 8192, 0, 0, 0, 8192].flatMap (natBe 2)

/-- CLIP.MIN and CLIP.MAX 16 and 4,079 per component (R195). -/
def clipDefault : List Byte := [16, 4079, 16, 4079, 16, 4079].flatMap (natBe 2)

/-- Zeros of the length a byte type states. -/
def ObjType.zeros : ObjType → List Byte
  | .str n => List.replicate n 0
  | .domain n => List.replicate n 0
  | _ => []

/-- The bytes a STRING or DOMAIN object starts from (R26, the default column). -/
def ObjDef.blobStart (o : ObjDef) : List Byte :=
  match o.index, o.sub with
  | 0x1000, 1 => [0x46, 0x4C, 0x50, 0x38, 0x38, 0x34, 0x30, 0, 0, 0, 0, 0, 0, 0, 0, 0]
  | 0x1000, 2 => [0x42, 0x31, 0, 0]
  | 0x1710, 1 => matrixIdentity
  | 0x1710, 2 => lutIdentity
  | 0x1710, 3 => gamutIdentity
  | 0x1710, 4 => lutIdentity
  | 0x1710, 5 => matrixIdentity
  | 0x1710, 6 => clipDefault
  | 0x1801, 7 => [256, 2048, 2048].flatMap (natBe 2)
  | 0x1801, 8 => lutIdentity
  | 0x1801, 9 => lutIdentity
  | 0x1801, 0x0A => clipDefault
  | _, _ => o.ty.zeros

/-- The bytes of a STRING or DOMAIN object. -/
def State.rdBytes (s : State) (o : ObjDef) (d : Die) (i : Nat) : List Byte :=
  (mapGet s.blobs (o.addr d i)).getD o.blobStart

/-- A state with the bytes of an object made `v`. -/
def State.wrBytes (s : State) (o : ObjDef) (d : Die) (i : Nat) (v : List Byte) : State :=
  { s with blobs := mapPut s.blobs (o.addr d i) v }

/-- The row of the table with an index and subindex. -/
def objAt (index sub : Nat) : Option ObjDef := objTable.find? (fun o => o.index == index && o.sub == sub)

/-! ### Modes and dies -/

/-- The operating mode (R11). -/
def State.mode (s : State) : Mode := Mode.ofNum (s.rdN Obj.modeState .p 0)

/-- A state in another mode. -/
def State.setMode (s : State) (m : Mode) : State := s.wr Obj.modeState .p 0 m.num

/-- Power and reset state of a die. -/
def State.power (s : State) (d : PDie) : PowerSt :=
  match d with | .a => s.powerA | .b => s.powerB | .c => s.powerC

/-- A state with a die's power and reset state changed. -/
def State.updPower (s : State) (d : PDie) (f : PowerSt → PowerSt) : State :=
  match d with
  | .a => { s with powerA := f s.powerA }
  | .b => { s with powerB := f s.powerB }
  | .c => { s with powerC := f s.powerC }

/-- A media die's own state. -/
def State.md (s : State) (d : MDie) : MediaDie := match d with | .a => s.dieA | .b => s.dieB

/-- A state with a media die's own state changed. -/
def State.updMd (s : State) (d : MDie) (f : MediaDie → MediaDie) : State :=
  match d with
  | .a => { s with dieA := f s.dieA }
  | .b => { s with dieB := f s.dieB }

/-- A die runs. -/
def State.up (s : State) (d : PDie) : Bool := (s.power d).run == .running

/-- Die C reaches a media die: both run and the UCIe link between them is up (R442). -/
def State.reachable (s : State) (d : MDie) : Bool :=
  s.up .c && s.up d.pdie && (s.rdN Obj.uciState .c d.num == 2)

/-- The dictionary server runs (R11): not in RESET or BOOT, nor while Die C boots alone. -/
def State.serverUp (s : State) : Bool :=
  s.up .c && !s.boot.ready && (match s.mode with | .reset => false | .boot => false | _ => true)

/-! ### Time -/

/-- The time a die follows: its own counter on a media die, the package time base on Die C (R59). -/
def State.now (s : State) (d : PDie) : Nat :=
  match d with | .a => s.dieA.time.ctr | .b => s.dieB.time.ctr | .c => s.time.base

/-- The Reference Raster a die's events are stamped in: its own, on Die C that of Die A, or of Die B when Die A
is absent (R71, R87). -/
def State.refFmt (s : State) (d : PDie) : Nat :=
  match d with
  | .a => s.dieA.time.refFormat
  | .b => s.dieB.time.refFormat
  | .c => if s.powerA.run = .absent then s.dieB.time.refFormat else s.dieA.time.refFormat

/-- The reference coordinate of a die's time (R72). -/
def State.coordNow (s : State) (d : PDie) : Coord := coordOf (fmt (s.refFmt d)) 0 (s.now d)

/-! ### Events -/

/-- Payload items packed from bit 95 downward, each with its width (R86). -/
def payloadOf (items : List (Nat × Int)) : Nat :=
  (items.foldl (fun (acc : Nat × Nat) it =>
    (acc.1 + lowBits it.1 it.2 * 2 ^ (96 - acc.2 - it.1), acc.2 + it.1)) (0, 0)).1

/-- Payload items of 16 bits each. -/
def p16 (items : List Int) : Nat := payloadOf (items.map (fun v => (16, v)))

/-- The HOLD flag of a die's stamp (R86): on a media die also while it runs unsteered (R65). -/
def State.stampHold (s : State) (d : PDie) : Bool :=
  let c := s.rdN Obj.timeState .c 0 == 3 || s.rdN Obj.timeState .c 0 == 5
  match d with
  | .c => c
  | .a => !s.reachable .a || c
  | .b => !s.reachable .b || c

/-- The FREE flag of a stamp (R86). -/
def State.stampFree (s : State) : Bool := s.rdN Obj.timeState .c 0 == 0 || s.rdN Obj.timeState .c 0 == 1

/-- The record a die's arbiter stamps for an event (R86, R87). GSEQ is 0 until Die C assigns it. -/
def State.stamp (s : State) (d : PDie) (code inst payload : Nat) (ovfl : Bool) : EventRec :=
  { gseq := 0, dseq := s.rdN Obj.evtDseqNext d.die 0, code := code, die := d, hold := s.stampHold d,
    free := s.stampFree, ovfl := ovfl, inst := inst, coord := s.coordNow d, payload := payload }

/-- The next DSEQ of a die is taken; it wraps (R87). -/
def State.takeDseq (s : State) (d : PDie) : State :=
  s.wr Obj.evtDseqNext d.die 0 (((s.rdN Obj.evtDseqNext d.die 0 + 1) % 2 ^ 32 : Nat) : Int)

/-- Records the RAM log and the persistent log keep (R464). -/
def ramLogMax : Nat := 65536
def persistLogMax : Nat := 4096

/-- A list shortened to its newest `n` entries. -/
def keepNewest {α : Type} (n : Nat) (l : List α) : List α := l.drop (l.length - n)

/-- Die C's arbiter takes a record: it assigns the next GSEQ and logs the record in RAM, and in MRAM where the
code's EVT.CODE.FLAGS bit 0 is set (R87, R464). -/
def State.logRecord (s : State) (r : EventRec) : State :=
  let g := s.rdN Obj.evtGseqNext .c 0
  let rec' := { r with gseq := g }
  let ram := s.ramLog ++ [rec']
  let wrap := decide (ramLogMax < ram.length)
  let ram' := keepNewest ramLogMax ram
  let keep := s.bit Obj.evtCodeFlags .c r.code 0
  let per := s.mram.log ++ [(s.rdN Obj.volBootCount .p 0, rec')]
  let pwrap := keep && decide (persistLogMax < per.length)
  let s := { s with ramLog := ram' }
  let s := if keep then { s with mram := { s.mram with log := keepNewest persistLogMax per } } else s
  let st := s.rdN Obj.evtStatus .c 0
  let st := if wrap then st ||| 1 else st
  let st := if pwrap then st ||| 2 else st
  let s := s.wr Obj.evtGseqNext .c 0 ((g + 1 : Nat) : Int)
  let s := s.wr Obj.evtCount .c 0 (min (s.rd Obj.evtCount .c 0 + 1) (2 ^ 64 - 1))
  let s := s.wr Obj.evtStatus .c 0 (st : Nat)
  s.wr Obj.evtLogOldest .c 0 (((ram'.head?.map (·.gseq)).getD (g + 1) : Nat) : Int)

/-- Records a media die's arbiter holds for Die C (R89). -/
def arbiterMax : Nat := 4096

/-- The internal error events (R406). -/
def internalError (code payload : Nat) : Bool :=
  decide (code ∈ [0x2006, 0x2008, 0x2104, 0x1805, 0x2831, 0x3008, 0x3101, 0x3103, 0x3105])
    || (code == 0x2403 && payload / 2 ^ 64 % 65536 == 3)

/-- In SELVEDGE a die notes the coordinate of its last internal error event (R406, R418). -/
def State.noteError (s : State) (d : MDie) (code payload : Nat) : State :=
  if s.mode = .selvedge ∧ internalError code payload then
    let c := s.coordNow d.pdie
    let s := { s with blobs := mapPut s.blobs (Obj.slvErrLast.addr d.die 0) (natBe 6 c.frame ++ natBe 2 c.line ++ natBe 2 c.sample) }
    s.updMd d (fun m => { m with slv := { m.slv with errAt := some m.time.ctr, errCount := m.slv.errCount + 1 } })
  else s

/-- Space has returned in a media die's arbiter that lost records: one overflow marker, with the number lost and the first lost DSEQ
(R89). -/
def State.emitMarker (s : State) (d : MDie) : State :=
  let a := (s.md d).arb
  if 0 < a.lost ∧ a.buf.length < arbiterMax then
    let r := s.stamp d.pdie 0x3F01 0 (payloadOf [(32, a.lost), (32, a.firstLost)]) true
    (s.takeDseq d.pdie).updMd d (fun m => { m with arb := { buf := a.buf ++ [r], lost := 0, firstLost := 0 } })
  else s

/-- A media die's arbiter accepts an event: stamped and buffered, or lost while the buffer is full, its DSEQ
consumed either way; a marker that is due goes ahead of it (R87, R89). -/
def State.raiseMedia (s : State) (d : MDie) (code inst payload : Nat) : State :=
  let s := s.emitMarker d
  let r := s.stamp d.pdie code inst payload false
  let a := (s.md d).arb
  let s' := (s.takeDseq d.pdie).noteError d code payload
  if a.buf.length < arbiterMax then
    s'.updMd d (fun m => { m with arb := { a with buf := a.buf ++ [r] } })
  else
    let s' := s'.wr Obj.evtDropCount d.die 0 (min (s.rd Obj.evtDropCount d.die 0 + 1) (2 ^ 32 - 1))
    s'.updMd d (fun m =>
      { m with arb := { a with lost := a.lost + 1, firstLost := if a.lost = 0 then r.dseq else a.firstLost } })

/-- Records in ascending order of event code, then INSTANCE. -/
def eventLe (a b : EventRec) : Bool := decide (a.code < b.code) || (a.code == b.code && decide (a.inst ≤ b.inst))

/-- A record put in its place in a list in that order, behind those it ties with. -/
def eventPut (r : EventRec) : List EventRec → List EventRec
  | [] => [r]
  | x :: l => if eventLe x r then x :: eventPut r l else r :: x :: l

/-- The events that a media die raised since an earlier state reached its arbiter in one cycle: they are accepted in ascending order of
event code, then INSTANCE, and take their DSEQ in that order (R87). -/
def State.inOrder (s old : State) (d : MDie) : State :=
  let n := (old.md d).arb.buf.length
  let new := (s.md d).arb.buf.drop n
  let sorted := new.foldl (fun l r => eventPut r l) []
  let recs := List.zipWith (fun (r x : EventRec) => { r with dseq := x.dseq }) sorted new
  s.updMd d (fun m => { m with arb := { m.arb with buf := m.arb.buf.take n ++ recs } })

/-- Die C raises an event of its own: stamped and taken by its arbiter at once (R87). -/
def State.raiseC (s : State) (code inst payload : Nat) : State :=
  (s.takeDseq .c).logRecord (s.stamp .c code inst payload false)

/-- A die raises an event. -/
def State.raise (s : State) (d : PDie) (code inst payload : Nat) : State :=
  match d with
  | .a => s.raiseMedia .a code inst payload
  | .b => s.raiseMedia .b code inst payload
  | .c => s.raiseC code inst payload

/-! ### Free values and outputs -/

/-- A fresh free value of `w` bits (assumption 4). -/
def State.free (s : State) (w : Nat) : Nat × State :=
  (Config.freeValue s.freeCtr % 2 ^ w, { s with freeCtr := s.freeCtr + 1 })

/-- What the part drives out of its ports is appended to the record of what it sent. -/
def State.send (s : State) (o : Sent) : State := { s with sent := s.sent ++ [o] }

/-! ### Records of the pair (R405, R411) -/

/-- A compare record, 16 bytes from the most significant down (R405). -/
def compareBytes (d : MDie) (r : CmpRec) : List Byte :=
  natBe 16 (2 * 2 ^ 120 + d.num * 2 ^ 116 + (if r.err then 2 ^ 115 else 0) + r.flow % 4096 * 2 ^ 100 + r.seq % 65536 * 2 ^ 84
    + r.crc % 2 ^ 32 * 2 ^ 48 + r.len % 65536 * 2 ^ 32 + r.ts % 2 ^ 32)

/-- A decision record (R405). -/
def decisionBytes (d : MDie) (r : Decision) : List Byte :=
  natBe 16 (3 * 2 ^ 120 + d.num * 2 ^ 116 + r.kind % 16 * 2 ^ 112 + r.res % 4096 * 2 ^ 100 + r.frame % 2 ^ 48 * 2 ^ 48
    + r.arg1 % 65536 * 2 ^ 32 + r.arg2 % 2 ^ 32)

/-- A heartbeat: SLV.STATE, count, mirrored commits applied, internal errors, and the CRC-32 of what stands before it (R411). -/
def heartbeatBytes (d : MDie) (st seq gen errs : Nat) : List Byte :=
  let body := natBe 12 (2 ^ 88 + d.num * 2 ^ 84 + st % 16 * 2 ^ 80 + seq % 2 ^ 32 * 2 ^ 48 + gen % 65536 * 2 ^ 32 + errs % 2 ^ 32)
  body ++ natBe 4 (crc32 body)

end Sys2Proof.Machine
end

