-- ==== Sys2Proof/Machine/Flags.lean ====
section
/-! DEFINITION. Status bits, sticky bits, saturating counters (R30, R31) and watermarks (R398): every flag
computation of the part. -/

namespace Sys2Proof.Machine

/-- The largest value of a numeric type (R24). -/
def ObjType.maxVal : ObjType → Nat
  | .u8 => 2 ^ 8 - 1 | .u16 => 2 ^ 16 - 1 | .u32 => 2 ^ 32 - 1 | .u64 => 2 ^ 64 - 1
  | .s8 => 2 ^ 7 - 1 | .s16 => 2 ^ 15 - 1 | .s32 => 2 ^ 31 - 1 | .s64 => 2 ^ 63 - 1
  | .enum8 => 2 ^ 8 - 1 | .enum16 => 2 ^ 16 - 1 | .bits8 => 2 ^ 8 - 1 | .bits16 => 2 ^ 16 - 1
  | .bits32 => 2 ^ 32 - 1 | _ => 0

/-- A number with bit `n` made `b`. -/
def withBit (v n : Nat) (b : Bool) : Nat :=
  if v.testBit n = b then v else v ^^^ 2 ^ n

/-- A state with bit `n` of an object made `b`. -/
def State.putBit (s : State) (o : ObjDef) (d : Die) (i n : Nat) (b : Bool) : State :=
  s.wr o d i (withBit (s.rdN o d i) n b : Nat)

/-- The hardware sets a bit of a STATUS or STICKY object (R30). -/
def State.setBit (s : State) (o : ObjDef) (d : Die) (i n : Nat) : State := s.putBit o d i n true

/-- A bit of a STATUS object goes to 0. -/
def State.clrBit (s : State) (o : ObjDef) (d : Die) (i n : Nat) : State := s.putBit o d i n false

/-- A write of 1 clears each named bit of a W1C object and leaves the others (R25, R30). -/
def State.w1c (s : State) (o : ObjDef) (d : Die) (i mask : Nat) : State :=
  s.wr o d i ((Nat.bitwise (fun v m => v && !m) (s.rdN o d i) mask : Nat) : Int)

/-- A COUNT object grows by `n` and stops at the largest value of its type (R30). -/
def State.addCount (s : State) (o : ObjDef) (d : Die) (i n : Nat) : State :=
  s.wr o d i ((min (s.rdN o d i + n) o.ty.maxVal : Nat) : Int)

/-- A COUNT object grows by one (R30). -/
def State.bump (s : State) (o : ObjDef) (d : Die) (i : Nat) : State := s.addCount o d i 1

/-- A write of a P object reaches MRAM as well as the running value (R26, R451). -/
def State.persistBytes (s : State) (o : ObjDef) (d : Die) (i : Nat) (v : List Byte) : State :=
  let s := s.wrBytes o d i v
  { s with mram := { s.mram with blobs := mapPut s.mram.blobs (o.addr d i) v } }

/-- A write of a numeric P object (R26, R451). -/
def State.persistNum (s : State) (o : ObjDef) (d : Die) (i : Nat) (v : Int) : State :=
  let s := s.wr o d i v
  { s with mram := { s.mram with objs := mapPut s.mram.objs (o.addr d i) v } }

/-- A COUNT object flagged P that reaches MRAM at once grows by one (R451). -/
def State.bumpNow (s : State) (o : ObjDef) (d : Die) (i : Nat) : State :=
  let s := s.bump o d i
  s.persistNum o d i (s.rd o d i)

/-- A used-count object falls by `n`, never below 0. -/
def State.subCount (s : State) (o : ObjDef) (d : Die) (i n : Nat) : State :=
  s.wr o d i ((s.rdN o d i - n : Nat) : Int)

/-- The watched levels of R398. -/
inductive WmKind where
  | queue | fsy | bolt | audPort | memPort
deriving DecidableEq, Repr

/-- Key of a watermark's armed flag in a die's table. -/
def WmKind.key (k : WmKind) (i : Nat) : Nat :=
  (match k with | .queue => 0 | .fsy => 1 | .bolt => 2 | .audPort => 3 | .memPort => 4) * 65536 + i

/-- LEVEL of a watermark. -/
def WmKind.level : WmKind → ObjDef
  | .queue => Obj.queWmLevel | .fsy => Obj.fsyWmLevel | .bolt => Obj.encBoltWmLevel
  | .audPort => Obj.audPortWmLevel | .memPort => Obj.memPortWmLevel

/-- HYST of a watermark. -/
def WmKind.hyst : WmKind → ObjDef
  | .queue => Obj.queWmHyst | .fsy => Obj.fsyWmHyst | .bolt => Obj.encBoltWmHyst
  | .audPort => Obj.audPortWmHyst | .memPort => Obj.memPortWmHyst

/-- The counter of a watermark. -/
def WmKind.counter : WmKind → ObjDef
  | .queue => Obj.queWmCount | .fsy => Obj.fsyWmCount | .bolt => Obj.encBoltWmCount
  | .audPort => Obj.audPortWmCount | .memPort => Obj.memPortWmCount

/-- The STICKY object and bit of a watermark's notice. -/
def WmKind.notice : WmKind → ObjDef × Nat
  | .queue => (Obj.queSticky, 0) | .fsy => (Obj.fsySticky, 0) | .bolt => (Obj.encChSticky, 6)
  | .audPort => (Obj.audPortSticky, 0) | .memPort => (Obj.memPortSticky, 0)

/-- The "above watermark" STATUS bit, where the subject has one. -/
def WmKind.status : WmKind → Option (ObjDef × Nat)
  | .queue => some (Obj.queStatus, 0) | .fsy => some (Obj.fsyStatus, 2) | .bolt => none
  | .audPort => some (Obj.audPortStatus, 2) | .memPort => none

/-- The armed flag of a watermark; it is set at die reset (R398). -/
def State.wmArmed (s : State) (d : MDie) (k : WmKind) (i : Nat) : Bool := tabGet (s.md d).wmArmed (k.key i) true

/-- A state with a watermark's armed flag, and the STATUS bit that equals its negation, made `b` (R398). -/
def State.setArmed (s : State) (d : MDie) (k : WmKind) (i : Nat) (b : Bool) : State :=
  let s := s.updMd d (fun m => { m with wmArmed := tabSet m.wmArmed (k.key i) b })
  match k.status with
  | some (o, n) => s.putBit o d.die i n (!b)
  | none => s

/-- The watermark rule, evaluated with the level of the end of the cycle (R398). -/
def State.watermark (s : State) (d : MDie) (k : WmKind) (i level : Nat) : State :=
  let lv := s.rdN k.level d.die i
  let hy := s.rdN k.hyst d.die i
  let rearm := if hy + 1 < lv then lv - hy else 1
  if s.wmArmed d k i ∧ lv ≤ level then
    ((s.setBit k.notice.1 d.die i k.notice.2).bump k.counter d.die i).setArmed d k i false
  else if ¬ s.wmArmed d k i ∧ level < rearm then s.setArmed d k i true
  else s

end Sys2Proof.Machine
end

