-- ==== Sys2Proof/Machine/TwillLinks.lean ====
section
/-! DEFINITION. The Twill fabric's links: state, topology, control messages, loss of links, packages and channels (R421–R427, R433, R437). -/

namespace Sys2Proof.Machine

/-- Slots of a link direction, and channels of each direction on a die (R421, R431). -/
def twlSlots : Nat := 35
def twlChannels : Nat := 128

/-- A package of which nothing is known. -/
def TwlPkg.none : TwlPkg := { serial := 0, id := 0xFF, pref := 0xFF, fw := 0, ref := 0 }

/-- A link end that has heard nothing. -/
def TwlLink.start : TwlLink :=
  { hellos := 0, last := 0, peer := TwlPkg.none, peerDie := 0, peerQuad := 0, tx := [], rx := [], idle := 0, asked := none,
    measured := false }

/-- Key of a link end, and of a channel, by die. -/
def twlKey (d : MDie) (n : Nat) : Nat := d.num * 256 + n

/-- The Twill link end of a quad. -/
def State.tlink (s : State) (d : MDie) (q : Nat) : TwlLink := tabGet s.twill.links (twlKey d q) TwlLink.start

/-- A state with the fabric changed. -/
def State.updTwill (s : State) (f : TwillSt → TwillSt) : State := { s with twill := f s.twill }

/-- A state with a link end changed. -/
def State.updTlink (s : State) (d : MDie) (q : Nat) (f : TwlLink → TwlLink) : State :=
  s.updTwill (fun t => { t with links := tabSet t.links (twlKey d q) (f (s.tlink d q)) })

/-- Media dies in order. -/
def mdies : List MDie := [.a, .b]

/-- This package's device ID, generation and description of itself. -/
def State.twlId (s : State) : Nat := s.rdN Obj.twlDeviceId .p 0
def State.twlGen (s : State) : Nat := s.rdN Obj.twlGeneration .p 0
def State.twlSelf (s : State) : TwlPkg :=
  { serial := s.rdN Obj.idSerial .p 0, id := s.twlId, pref := s.rdN Obj.twlDevicePref .p 0,
    fw := s.rdN Obj.idFwVersion .p 0, ref := s.rdN Obj.timeRefFormat .a 0 }

/-- A control message of this package. -/
def State.twlMsg (s : State) (dst : Nat) (body : TwlBody) : TwlMsg :=
  { src := s.twlId, dst := dst, hops := 0, gen := s.twlGen, body := body }

/-- TWL.LINK.STATE of a quad: 0 not Twill, 1 down, 2 hello, 3 up, 4 parked, 5 refused. -/
def State.tlinkState (s : State) (d : MDie) (q : Nat) : Nat := s.rdN Obj.twlLinkState d.die q

/-- QUAD.MODE of a quad (R93). -/
def State.quad (s : State) (d : MDie) (q : Nat) : Nat := s.rdN Obj.quadMode d.die q

/-- The quads of a die that carry Twill (R93). -/
def State.twlQuads (s : State) (d : MDie) : List Nat := upto 8 (fun q => s.quad d q == 4)

/-- All Twill link ends of the package. -/
def State.twlLinks (s : State) : List (MDie × Nat) := mdies.flatMap (fun d => (s.twlQuads d).map (fun q => (d, q)))

/-- This package's own link records (R424). -/
def State.ownRecs (s : State) : List TwlRec :=
  (s.twlLinks.filter (fun l => decide (3 ≤ s.tlinkState l.1 l.2))).map (fun l =>
    let k := s.tlink l.1 l.2
    { id := s.twlId, die := l.1.num, quad := l.2, rid := k.peer.id, rdie := k.peerDie, rquad := k.peerQuad,
      state := s.tlinkState l.1 l.2, delay := s.rdN Obj.twlLinkDelay l.1.die l.2, out := k.tx.length, in_ := k.rx.length,
      cost := s.rdN Obj.twlLinkCost l.1.die l.2 })

/-- A link record as TWL.TOPOLOGY shows it (R438). -/
def TwlRec.bytes (r : TwlRec) : List Byte :=
  natBe 1 r.id ++ natBe 1 r.die ++ natBe 1 r.quad ++ natBe 1 r.rid ++ natBe 1 r.rdie ++ natBe 1 r.rquad ++ natBe 1 r.state
    ++ natBe 1 0 ++ natBe 4 r.delay ++ natBe 1 r.out ++ natBe 1 r.in_ ++ natBe 2 0

/-- TWL.TOPOLOGY and the used-slot counts follow the link records (R424, R438). -/
def State.refreshTopology (s : State) : State :=
  let s := s.twlLinks.foldl (fun (s : State) l =>
    let k := s.tlink l.1 l.2
    (s.wr Obj.twlLinkTxUsed l.1.die l.2 (k.tx.length : Nat)).wr Obj.twlLinkRxUsed l.1.die l.2 (k.rx.length : Nat)) s
  let s := mdies.foldl (fun (s : State) d =>
    let count := fun {α : Type} (t : Tab α) => (t.filter (fun e => decide (e.1 / 256 = d.num))).length
    (s.wr Obj.twlTxUsed d.die 0 (count s.twill.tx : Nat)).wr Obj.twlRxUsed d.die 0 (count s.twill.rx : Nat)) s
  s.wrBytes Obj.twlTopology .p 0 ((s.ownRecs ++ s.twill.recs).flatMap TwlRec.bytes)

/-- A path as TWL.CH.PATH shows it (R438): 16 hops of 2 bytes, unused ones 0xFFFF. -/
def pathBytes (p : List TwlHop) : List Byte :=
  (List.range 16).flatMap (fun n => match p[n]? with
    | some h => natBe 1 h.id ++ natBe 1 (if h.quad = 0xFF then 0xFF else h.die * 16 + h.quad)
    | none => [0xFF, 0xFF])

/-! ### Messages (R423, R424, R436) -/

/-- TYPE of a control message (R423). -/
def TwlBody.type (b : TwlBody) : Nat :=
  match b with
  | .hello _ _ _ _ => 1
  | .linkState _ _ => 2
  | .idAssign _ _ => 3
  | .alloc _ _ _ _ _ => 4
  | .allocAck _ _ _ _ => 5
  | .allocNack _ _ _ _ => 6
  | .free _ _ _ => 7
  | .sync _ _ _ _ => 8
  | .delayReq _ => 9
  | .delayResp _ _ => 10
  | .mailbox _ => 11

/-- BODY of the types whose fields the rules lay down, without its zeros at the end: HELLO (R424) and SYNC (R436). That the bytes they do not
name are zeros is a DESIGN CHOICE (assumption 116); the bodies of the other types are left to Die C firmware (R423). -/
def TwlBody.bytes (b : TwlBody) : Option (List Byte) :=
  match b with
  | .hello p die quad state =>
    some (natBe 8 p.serial ++ natBe 1 (die * 16 + quad) ++ natBe 1 p.id ++ natBe 1 p.pref ++ natBe 4 p.fw ++ natBe 2 p.ref ++ natBe 1 state)
  | .sync secs ns state hops => some (natBe 6 secs ++ natBe 4 ns ++ natBe 1 state ++ natBe 1 hops)
  | _ => none

/-- The 64 bytes of a control flit, MSB first, with the CRC-32 of R101 over bytes 0–59 (R423); none where BODY is the firmware's. -/
def TwlMsg.bytes (m : TwlMsg) : Option (List Byte) :=
  (TwlBody.bytes m.body).map (fun b =>
    let head := natBe 1 (TwlBody.type m.body) ++ natBe 1 m.src ++ natBe 1 m.dst ++ natBe 1 m.hops ++ natBe 4 m.gen ++ b
    let l := head ++ List.replicate (60 - head.length) 0
    l ++ natBe 4 (crc32 l))

/-- A message leaves on a link. -/
def State.twlSend (s : State) (l : MDie × Nat) (m : TwlMsg) : State := s.send (.twlMsg l.1 l.2 m (TwlMsg.bytes m))

/-- A message floods: it leaves on every link that is up but the one it came on (R423). -/
def State.twlFlood (s : State) (except : Option (MDie × Nat)) (m : TwlMsg) : State :=
  (s.twlLinks.filter (fun l => some l != except && s.tlinkState l.1 l.2 == 3)).foldl (fun s l => s.twlSend l m) s

/-- LINK STATE for this package's links is flooded (R424). -/
def State.floodLinkState (s : State) : State := s.twlFlood none (s.twlMsg 0xFE (.linkState s.twlSelf s.ownRecs))

/-! ### Loss (R424, R425, R433) -/

/-- The link end of this package over which a path arrives or leaves: its last or first hop's far end. -/
def State.pathEntry (s : State) (path : List TwlHop) : Option (MDie × Nat) :=
  match (path.filter (fun h => h.quad != 0xFF)).getLast? with
  | none => none
  | some h => s.twlLinks.find? (fun l =>
      let k := s.tlink l.1 l.2
      k.peer.id == h.id && k.peerDie == h.die && k.peerQuad == h.quad)

/-- The device IDs reachable over links that are up or parked, from a set of them, in `n` rounds. -/
def reachIds (recs : List TwlRec) : Nat → List Nat → List Nat
  | 0, ids => ids
  | n + 1, ids =>
    reachIds recs n ((ids ++ (recs.filter (fun r => decide (r.id ∈ ids) && (r.state == 3 || r.state == 4))).map (·.rid)).eraseDups)

/-- A path has a Twill edge whose link is up or parked no more. -/
def State.pathBroken (s : State) (path : List TwlHop) : Bool :=
  let recs := s.ownRecs ++ s.twill.recs
  path.any (fun h => h.quad != 0xFF
    && recs.all (fun r => !(r.id == h.id && r.die == h.die && r.quad == h.quad && (r.state == 3 || r.state == 4))))

/-- The slots that some channels hold on this package's links are released (R432). -/
def State.dropSlots (s : State) (gone : Nat × Nat × Nat → Bool) : State :=
  let s := s.updTwill (fun t =>
    { t with ways := t.ways.filter (fun w => !gone w.1),
             links := t.links.map (fun e =>
               let tx := e.2.tx.filter (fun c => !gone c.2)
               let rx := e.2.rx.filter (fun c => !gone c.2)
               (e.1, { e.2 with tx := tx, rx := rx, idle := if tx = e.2.tx ∧ rx = e.2.rx then e.2.idle else s.time.base })) })
  s.updTwill (fun t => { t with fwd := t.fwd.filter (fun e =>
    (tabGet t.links (e.1 / 512 * 256 + e.1 / 64 % 8) TwlLink.start).rx.any (fun c => c.1 == e.1 % 64)) })

/-- Every channel over a link that is lost is lost at once (R433): receive channels go to state 3, transmit channels and slots are
released. -/
def State.loseBroken (s : State) : State :=
  let lost := (s.twill.rx.filter (fun e => s.pathBroken e.2.path)).map (·.1)
  let ways := (s.twill.ways.filter (fun w => s.pathBroken w.2)).map (·.1)
  let s := lost.foldl (fun (s : State) k => s.wr Obj.twlChState (if k / 256 = 0 then .a else .b) (k % 256) 3) s
  let own := lost.map (fun k => (s.twlId, k / 256, k % 256))
  let s := s.updTwill (fun t => { t with tx := t.tx.filter (fun e => !s.pathBroken e.2.path) })
  s.dropSlots (fun (c : Nat × Nat × Nat) => ways.contains c || own.contains c)

/-- Packages to which no path of links remains are lost (R426, R433): event 0x3304, TWL.STICKY bit 1, their ID held
for TWL.ID.HOLD seconds, their link records dropped. The channels over lost links are lost. -/
def State.dropUnreachable (s : State) : State :=
  let ids := reachIds (s.ownRecs ++ s.twill.recs) 64 [s.twlId]
  let lost := s.twill.pkgs.filter (fun p => decide (p.id ∉ ids))
  let till := s.time.base + s.rdN Obj.twlIdHold .p 0 * nsPerSec
  let s := lost.foldl (fun (s : State) p => (s.setBit Obj.twlSticky .p 0 1).raise .c 0x3304 p.id (p16 [p.id])) s
  let s := s.updTwill (fun t =>
    { t with pkgs := t.pkgs.filter (fun p => decide (p.id ∈ ids)), recs := t.recs.filter (fun r => decide (r.id ∈ ids)),
             held := t.held ++ (lost.filter (fun p => p.id != 0xFF)).map (fun p => (p.serial, p.id, till)) })
  let s := s.wr Obj.twlPackages .p 0
    (if s.rdN Obj.twlState .p 0 = 2 ∨ s.rdN Obj.twlState .p 0 = 3 then (s.twill.pkgs.length + 1 : Nat) else 0)
  s.loseBroken

/-- The set of links or packages changed: a new fabric generation (R424). -/
def State.newGeneration (s : State) : State :=
  let g := (s.twlGen + 1) % 2 ^ 32
  let s := (s.wr Obj.twlGeneration .p 0 (g : Nat)).bump Obj.twlCount .p 0
  let s := s.updTwill (fun t => { t with changed := s.time.base, seen := [] })
  s.refreshTopology.floodLinkState

/-- A receive channel is freed: FREE releases its path (R432). -/
def State.freeRx (s : State) (d : MDie) (n : Nat) : State :=
  match (s.twill.rx.find? (fun e => e.1 == twlKey d n)) with
  | none => s
  | some (_, c) =>
    let s := match s.pathEntry c.path with
      | none => s
      | some l => (s.dropSlots (fun c => c == (s.twlId, d.num, n))).twlSend l (s.twlMsg c.device (.free d.num n c.path))
    let s := s.updTwill (fun t => { t with rx := tabDel t.rx (twlKey d n) })
    let s := s.wr Obj.twlChState d.die n 0
    let s := s.wr Obj.twlChSource d.die n 0
    let s := s.wrBytes Obj.twlChPath d.die n (List.replicate 32 0)
    (s.wr Obj.twlChDelay d.die n 0).refreshTopology

/-- A link end takes a state in which it carries no channel (R424, R425, R433): the partner's record of it no longer counts, every channel on
it is lost at once, and packages behind it are. -/
def State.linkOut (s : State) (d : MDie) (q st : Nat) : State :=
  let s := s.wr Obj.twlLinkState d.die q (st : Nat)
  let s := s.updTwill (fun t => { t with recs := t.recs.filter (fun r => !(r.rid == s.twlId && r.rdie == d.num && r.rquad == q)) })
  s.dropUnreachable.newGeneration

/-- A Twill link is lost (R424, R433): event 0x3302, every channel on it lost at once, a new generation. -/
def State.linkLost (s : State) (d : MDie) (q : Nat) : State :=
  let st := s.tlinkState d q
  if st < 2 then s
  else
    let s := if st = 3 ∨ st = 4 then
        ((s.setBit Obj.twlSticky .p 0 0).raise .c 0x3302 q (p16 [d.num, q])).linkOut d q 1
      else s.wr Obj.twlLinkState d.die q 1
    s.updTlink d q (fun k => { TwlLink.start with peer := k.peer, peerDie := k.peerDie, peerQuad := k.peerQuad })

/-- A media die is reset: its links go down and its receive channels are gone (R53, R424). -/
def State.fabricReset (s : State) (d : MDie) : State :=
  let s := (s.twlQuads d).foldl (fun (s : State) q => s.linkLost d q) s
  ((s.twill.rx.filter (fun e => decide (e.1 / 256 = d.num))).map (fun e => e.1 % 256)).foldl (fun (s : State) n => s.freeRx d n) s

/-- TWL.STATUS follows the fabric's state (R438). -/
def State.twlStatus (s : State) : State :=
  let st := s.rdN Obj.twlState .p 0
  let s := s.putBit Obj.twlStatus .p 0 0 (s.rdN Obj.twlEnable .p 0 == 1)
  let s := s.putBit Obj.twlStatus .p 0 1 (st == 2 || st == 3)
  let s := s.putBit Obj.twlStatus .p 0 2 (st == 3)
  s.putBit Obj.twlStatus .p 0 3 (s.rdN Obj.twlTimeMode .p 0 == 1 && st == 2)

/-- The package is out of every fabric, as though lost (R437): its links are lost; it discovers while TWL.ENABLE is 1, and is off
otherwise. -/
def State.leaveFabric (s : State) : State :=
  let s := s.twlLinks.foldl (fun s l => s.linkLost l.1 l.2) s
  let s := s.wr Obj.twlState .p 0 (if s.rdN Obj.twlEnable .p 0 = 1 then 1 else 0)
  let s := (s.wr Obj.twlPackages .p 0 0).updTwill (fun t => { t with changed := s.time.base })
  s.twlStatus

/-- TWL.ENABLE was written or restored (R438): a package that takes part begins to discover, one that does not leaves its fabric. -/
def State.fabricEnabled (s : State) : State :=
  if s.rdN Obj.twlEnable .p 0 = 1 ∧ s.rdN Obj.twlState .p 0 ≠ 0 then s.twlStatus else s.leaveFabric

end Sys2Proof.Machine
end

