-- ==== Sys2Proof/Machine/Power.lean ====
section
/-! DEFINITION. Supplies, sections, thermal and reset (R37–R58, R495). -/

namespace Sys2Proof.Machine

/-! ### Tables -/

/-- The number of rails of a die (R37). -/
def railCount (d : PDie) : Nat := match d with | .c => 5 | _ => 7

/-- Warning level of a rail in mV (R37). -/
def railWarn (d : PDie) (r : Nat) : Nat :=
  match d with
  | .c => match r with | 0 => 700 | 1 => 700 | 2 => 1130 | 3 => 850 | _ => 1660
  | _ => match r with | 0 => 700 | 1 => 700 | 2 => 800 | 3 => 1130 | 4 => 800 | 5 => 1120 | _ => 1660

/-- Reset level of a rail in mV (R37). -/
def railReset (d : PDie) (r : Nat) : Nat :=
  match d with
  | .c => match r with | 0 => 660 | 1 => 660 | 2 => 1080 | 3 => 810 | _ => 1580
  | _ => match r with | 0 => 660 | 1 => 660 | 2 => 760 | 3 => 1080 | 4 => 760 | 5 => 1080 | _ => 1580

/-- The power-up group of a rail (R39). -/
def railGroup (d : PDie) (r : Nat) : Nat :=
  match d with
  | .c => match r with | 0 => 3 | 1 => 1 | 2 => 4 | 3 => 3 | _ => 2
  | _ => match r with | 0 => 3 | 1 => 1 | 2 => 3 | 3 => 4 | 4 => 3 | 5 => 4 | _ => 2

/-- A monitor sample: the voltage truncated to a multiple of 5 mV (R41). -/
def railSample (mv : Nat) : Nat := mv - mv % 5

/-- Junction sensors of a die, and the working ones below which protection is lost (R48, R51). -/
def sensorCount (d : PDie) : Nat := match d with | .c => 4 | _ => 12
def sensorMin (d : PDie) : Nat := match d with | .c => 2 | _ => 4

/-- A temperature in whole °C as sQ9.7 (R17). -/
def degC (t : Int) : Int := t * 128

/-- What a failed sensor, and THERM.TJ while none works, reads: 0x8000 (R51). -/
def tempFailed : Int := -32768

/-- Section numbers (R46). -/
def secCount (d : PDie) : Nat := match d with | .c => 4 | _ => 30
def secLoom : Nat := 16
def secFsy : Nat := 17
def secCnv : Nat := 18
def secScn : Nat := 21
def secEnt : Nat := 26
def secDec : Nat := 27
def secAud : Nat := 28
def secRef : Nat := 29

/-! ### Sections -/

/-- The state of a section: 0 off, 1 waking, 2 on, 3 retention, 4 failed (R45). -/
def State.section (s : State) (d : PDie) (n : Nat) : Nat := s.rdN Obj.pwrSectionState d.die n

/-- An element of a section failed a self-test (R417, R489). -/
def State.elemBad (s : State) (d : MDie) (sec n : Nat) : Bool := decide ((sec, n) ∈ (s.md d).badElems)

/-- A section is on and its resources work: during its self-test in TEST they produce nothing (R45, R489). -/
def State.secOn (s : State) (d : MDie) (n : Nat) : Bool := s.section d.pdie n == 2 && (s.md d).test.bist != some n

/-- The STATUS bits that show whether a media-die section is on. -/
def sectionBits (n : Nat) : List (ObjDef × Nat × Nat) :=
  if 6 ≤ n ∧ n ≤ 13 then [(Obj.quadStatus, n - 6, 1)]
  else match n with
    | 3 => [(Obj.memStatus, 0, 0)] | 4 => [(Obj.memStatus, 0, 1)] | 5 => [(Obj.memStatus, 0, 2)]
    | 16 => [(Obj.loomStatus, 0, 0)] | 18 => [(Obj.cnvStatus, 0, 0)]
    | 19 => [(Obj.compStatus, 0, 0)] | 20 => [(Obj.compStatus, 0, 1)] | 21 => [(Obj.compStatus, 0, 2)]
    | 22 => [(Obj.encStatus, 0, 0), (Obj.motStatus, 0, 0)] | 23 => [(Obj.encStatus, 0, 1), (Obj.motStatus, 0, 1)]
    | 24 => [(Obj.encStatus, 0, 2)] | 25 => [(Obj.encStatus, 0, 3)] | 26 => [(Obj.encStatus, 0, 4)]
    | 27 => [(Obj.decStatus, 0, 0)] | 28 => [(Obj.audStatus, 0, 0)]
    | _ => []

/-- The draw of a powered section in a mode, in units of 10 mW, where R46 gives one figure for it: every section in STANDBY; in
other modes those whose draw is the same at the typical workload and at full load. -/
def sectionDraw (d : PDie) (n : Nat) (m : Mode) : Option Nat :=
  match m, d with
  | .reset, .c => some 130
  | .reset, _ => some 30
  | .standby, .c => (match n with | 0 => some 60 | 1 => some 400 | 2 => some 170 | _ => some 30)
  | .standby, _ => (match n with | 0 => some 30 | 1 => some 140 | 2 => some 60 | 3 => some 30 | 4 => some 30 | 5 => some 50 | _ => some 10)
  | _, .c => (match n with | 0 => some 130 | 1 => some 820 | 2 => some 170 | _ => some 80)
  | _, _ => (match n with | 0 => some 30 | 1 => some 140 | 2 => some 180 | 28 => some 50 | _ => none)

/-- PWR.SECTION.POWER in a mode (R46, R57): 0 for a section that is neither on nor in retention; the draw of R46 where it gives one
figure; elsewhere an estimate between its workloads that the spec does not state (assumption 11). -/
def State.showDraw (s : State) (d : PDie) (n : Nat) (m : Mode) : State :=
  let st := s.section d n
  if st = 2 ∨ st = 3 then
    match sectionDraw d n m with
    | some v => s.wr Obj.pwrSectionPower d.die n (v : Nat)
    | none =>
      let (v, s) := s.free 16
      s.wr Obj.pwrSectionPower d.die n (v : Nat)
  else s.wr Obj.pwrSectionPower d.die n 0

/-- A section takes a state; its STATUS bits and its estimated power follow (R45, R57), and the PLL of a quad whose section is not on is off
(R104). -/
def State.setSection (s : State) (d : PDie) (n st : Nat) : State :=
  let s := s.wr Obj.pwrSectionState d.die n (st : Nat)
  let s := match d with
    | .c => s
    | _ => (sectionBits n).foldl (fun (s : State) (b : ObjDef × Nat × Nat) => s.putBit b.1 d.die b.2.1 b.2.2 (st == 2)) s
  let s := if d ≠ .c ∧ 6 ≤ n ∧ n ≤ 13 ∧ st ≠ 2 then s.clrBit Obj.quadStatus d.die (n - 6) 0 else s
  s.showDraw d n s.mode

/-- Some listed instance of an object on a die satisfies `p`. -/
def State.anyListed (s : State) (o : ObjDef) (d : Die) (p : Nat → Int → Bool) : Bool :=
  s.objs.any (fun e => e.1.index == o.index && e.1.sub == o.sub && e.1.die == d && p e.1.inst e.2)

/-- The listed instances of an object on a die that satisfy `p`, in ascending order. -/
def State.listed (s : State) (o : ObjDef) (d : Die) (p : Nat → Int → Bool) : List Nat :=
  (s.objs.filter (fun e =>
    e.1.index == o.index && e.1.sub == o.sub && e.1.die == d && p e.1.inst e.2)).map (·.1.inst)

/-- The listed instances of a byte object on a die that satisfy `p`, in ascending order. -/
def State.listedBytes (s : State) (o : ObjDef) (d : Die) (p : Nat → List Byte → Bool) : List Nat :=
  (s.blobs.filter (fun e =>
    e.1.index == o.index && e.1.sub == o.sub && e.1.die == d && p e.1.inst e.2)).map (·.1.inst)

/-- A flow descriptor is declared: its KIND byte is not 0 (R126, R128). -/
def descDeclared (b : List Byte) : Bool := fieldAt b 0 1 / 16 != 0

/-- The descriptor of a flow that touches the audio section: one of KIND 2 or 3 (R45, R342). -/
def descHasAudio (b : List Byte) : Bool := fieldAt b 0 1 / 16 == 2 || fieldAt b 0 1 / 16 == 3

/-- Whether a "used" section contains a configured resource (R45, R93). CNV holds the scalers that layers of used compositors name
(R173, R200); the motion sections serve the converters that may borrow (R194, R264); the audio section serves audio flows. A quad
whose lanes an 800GbE port of the quad before it uses counts as used although its own QUAD.MODE is 0 (DEDUCED, assumption 79). -/
def State.sectionUsed (s : State) (d : MDie) (n : Nat) : Bool :=
  let die := d.die
  let eth := s.anyListed Obj.quadMode die (fun _ v => v == 1 || v == 2 || v == 3)
  let flowIn := !(s.listedBytes Obj.flowInDesc die (fun _ b => descDeclared b)).isEmpty
  let flowOut := !(s.listedBytes Obj.flowOutDesc die (fun _ b => descDeclared b)).isEmpty
  let chain := s.anyListed Obj.cnvChainEnable die (fun _ v => v == 1)
  let comp := fun lo => s.anyListed Obj.cmpEnable die (fun i v => v == 1 && decide (lo ≤ i) && decide (i < lo + 4))
  let out := s.anyListed Obj.scnOutEnable die (fun _ v => v == 1)
  let enc := s.anyListed Obj.encChEnable die (fun _ v => v == 1)
  let dec := s.anyListed Obj.decCtxEnable die (fun _ v => v == 1)
  let fsy := s.anyListed Obj.fsySource die (fun _ v => v != 0xFFFF)
  let audio := !(s.listedBytes Obj.flowInDesc die (fun _ b => descHasAudio b)).isEmpty
    || !(s.listedBytes Obj.flowOutDesc die (fun _ b => descHasAudio b)).isEmpty
  let layers := s.anyListed Obj.cmpLayerScaler die (fun i v =>
    v != 0xFF && s.rdN Obj.cmpLayerKind die i != 0 && s.rdN Obj.cmpEnable die (i / 16) == 1)
  let borrow := s.anyListed Obj.cnvChainEnable die (fun i v =>
    v == 1 && decide (s.rdN Obj.cnvChainFrc die i < 4) && s.rdN Obj.cnvFrcMotion die (s.rdN Obj.cnvChainFrc die i) != 2)
  let aud := s.anyListed Obj.audPortEnable die (fun _ v => v == 1) || s.anyListed Obj.audIslRate die (fun _ v => v != 0)
  if 6 ≤ n ∧ n ≤ 13 then
    s.rdN Obj.quadMode die (n - 6) != 0 || (decide (6 < n) && s.rdN Obj.quadMode die (n - 7) == 3)
  else match n with
    | 14 => eth
    | 15 => flowIn || flowOut
    | 16 => flowIn || chain || comp 0 || comp 4 || out || enc || dec
    | 17 => fsy
    | 18 => chain || layers
    | 19 => comp 0
    | 20 => comp 4
    | 21 => out
    | 22 => enc || borrow
    | 23 => enc || borrow
    | 24 => enc
    | 25 => enc
    | 26 => enc
    | 27 => dec
    | 28 => aud || audio
    | 29 => enc
    | _ => true

/-- Whether R45 and R46 want a media-die section on in a mode. -/
def State.sectionWanted (s : State) (d : MDie) (n : Nat) (m : Mode) : Bool :=
  match m with
  | .reset => n == 0
  | .boot => decide (n ≤ 5)
  | .standby => decide (n ≤ 2) || n == 5 || (decide (6 ≤ n) && decide (n ≤ 13) && s.sectionUsed d n)
  | .configure => true
  | .test => true
  | _ => decide (n ≤ 5) || s.sectionUsed d n

/-- The sections of a die take what R45 gives them in a mode: those not wanted go off (the DRAM PHYs to retention
in STANDBY), those wanted and not on are queued to wake in ascending number (R47). A failed section stays
failed. -/
def State.powerForMode (s : State) (d : MDie) (m : Mode) : State :=
  let nums := List.range 30
  let s := nums.foldl (fun s n =>
    if s.section d.pdie n = 4 then s
    else if s.sectionWanted d n m then s
    else if (n = 3 ∨ n = 4) ∧ m = .standby then s.setSection d.pdie n 3
    else if s.section d.pdie n = 0 then s else s.setSection d.pdie n 0) s
  let s := nums.foldl (fun s n => s.showDraw d.pdie n m) s
  let q := nums.filter (fun n => s.sectionWanted d n m && (s.section d.pdie n == 0 || s.section d.pdie n == 3))
  s.updPower d.pdie (fun p => { p with wakeQueue := q })

/-! ### Reset -/

/-- The objects whose values an AO section holds through a reset that spares it (R53, R474): the cause, the peak and the straps. -/
def aoObject (a : ObjAddr) : Bool :=
  (a.index == 0x1105 && a.sub == 1) || (a.index == 0x1103 && a.sub == 2) || (a.index == 0x1008 && a.sub == 1)

/-- An address names an object flagged P (R26, R30). -/
def persistAt (a : ObjAddr) : Bool := match objAt a.index a.sub with | some o => o.persist | none => false

/-- A media die is reset alone with a cause (R53, R495): everything it holds is lost but its AO records and the
objects flagged P, whose values MRAM holds; it waits to return. In SELVEDGE it leaves the pair as OUT, with one last heartbeat
(R412). -/
def State.resetMedia (s : State) (d : MDie) (cause : Nat) (run : RunState) : State :=
  let keep := fun (a : ObjAddr) => a.die != d.die || aoObject a || persistAt a
  let ran := match s.mode with
    | .service => (s.listed Obj.encChState d.die (fun _ v => v == 2 || v == 4), s.listed Obj.flowOutState d.die (fun _ v => v == 2))
    | .recovery => (s.listed Obj.encChState d.die (fun _ v => v == 2 || v == 4), s.listed Obj.flowOutState d.die (fun _ v => v == 2))
    | _ => ([], [])
  let s := { s with objs := s.objs.filter (fun e => keep e.1), blobs := s.blobs.filter (fun e => keep e.1),
                    recov := { s.recov with ran := tabSet s.recov.ran d.num ran } }
  let paired := s.mode == .selvedge && s.rdN Obj.slvState d.die 0 != 5
  let seq := (s.md d).slv.hbSeq
  let errs := (s.md d).slv.errCount
  let s := if paired then s.send (.pair d (heartbeatBytes d 5 seq s.pair.gen errs)) else s
  let s := (s.fabricReset d).updMd d (fun _ => MediaDie.start)
  let s := s.updPower d.pdie (fun p => { PowerSt.start with run := run, aoDip := p.aoDip })
  let s := s.wr Obj.uciState .c d.num 0
  let s := s.wr Obj.rstCause d.die 0 (cause : Nat)
  if paired then (s.wr Obj.slvState d.die 0 5).raise .c 0x3208 d.num (p16 [d.num, cause])
  else if s.mode = .selvedge then s.wr Obj.slvState d.die 0 5 else s

/-- Die C is reset alone with a cause (R53): the media dies keep running; Die C's sessions, RAM log and servo are
lost, the modes and the fabric stay as its AO section and the media dies hold them. -/
def State.resetDieC (s : State) (cause : Nat) (run : RunState) : State :=
  let keep := fun (a : ObjAddr) => a.die != .c || aoObject a || persistAt a
  let s := { s with objs := s.objs.filter (fun e => keep e.1), blobs := s.blobs.filter (fun e => keep e.1),
                    ramLog := [], vol := VolSt.start, sec := { s.sec with token := none },
                    boot := { s.boot with ready := false, retrying := false } }
  let s := (s.wr Obj.volSessions .p 0 0).wr Obj.volStatus .p 0 0
  let s := { s with time := { TimeSt.start with base := s.time.base } }
  let s := s.updPower .c (fun p => { PowerSt.start with run := run, aoDip := p.aoDip })
  s.wr Obj.rstCause .c 0 (cause : Nat)

/-- All three dies are reset (R53): with `ao` the AO sections too. MRAM is preserved. A thermal shutdown does not outlast it: BOOT brings
the die up at any THERM.TJ, and two samples shut it down again (DESIGN CHOICE, assumption 80: R50 says when the die starts again after
a shutdown and R53 that BOOT follows this reset, and neither which of the two holds). -/
def State.resetPackage (s : State) (cause : Nat) (ao : Bool) : State :=
  let keep := fun (a : ObjAddr) => persistAt a || (!ao && aoObject a)
  let pw := fun (p : PowerSt) => { PowerSt.start with aoDip := if ao then none else p.aoDip }
  { State.reset with
    objs := (s.objs.filter (fun e => keep e.1)), blobs := s.blobs.filter (fun e => keep e.1),
    mram := s.mram, powerA := pw s.powerA, powerB := pw s.powerB, powerC := pw s.powerC, seqHold := s.seqHold,
    boot := { s.boot with ready := false, retrying := false, reattach := [] }, sec := { s.sec with token := none }, sent := s.sent, freeCtr := s.freeCtr, pending := s.pending }
  |>.wr Obj.rstCause .a 0 (cause : Nat) |>.wr Obj.rstCause .b 0 (cause : Nat) |>.wr Obj.rstCause .c 0 (cause : Nat)

/-- Event 0x1102 after a rail-level reset (R43, R53): the rail and the lowest voltage that the die's AO section recorded. -/
def State.dipReported (s : State) (d : PDie) (cause : Nat) : State :=
  match (s.power d).aoDip with
  | some (rail, mv) => if cause = 2 then s.raise .c 0x1102 rail (p16 [rail, mv]) else s
  | none => s

/-- What Die C does on receiving a record of a media die: a brown-out event waits to be counted (R42, R44); after event 0x1120 of a
rail-level reset, event 0x1102 follows (R53). -/
def State.received (s : State) (d : MDie) (r : EventRec) : State :=
  if r.code = 0x1101 then { s with brownouts := s.brownouts ++ [(d.pdie, r.inst)] }
  else if r.code = 0x1120 ∧ r.payload = p16 [2] then s.dipReported d.pdie 2
  else s

/-- A boot failure (R44, R476, R477): step and cause are recorded, `C_SYS00_FAULT_N` is low for 1 s, BOOT starts again from B1; after
three in a row under a slot the other one is taken, after six BOOT stops. -/
def State.bootFail (s : State) (step cause : Nat) : State :=
  let s := (s.persistNum Obj.bootFailStep .p 0 (step : Nat)).persistNum Obj.bootFailCause .p 0 (cause : Nat)
  let s := s.bumpNow Obj.bootFailCount .p 0
  let n := s.boot.failures + 1
  let under := s.boot.slotFailures + 1
  let again := fun (p : PowerSt) => if p.run = .running then { p with run := .held, wakeQueue := [] } else p
  let s := if s.mode = .boot then ((s.updPower .a again).updPower .b again).updPower .c again
    else s.updPower .c (fun p => if p.run = .running then { p with run := .resetAlone } else p)
  { s with boot := { s.boot with
      failures := n, unreported := true, faultLeft := nsPerSec, halted := decide (6 ≤ n), ready := false, dips := 0,
      slotFailures := if under = 3 then 0 else under, fallback := if under = 3 then !s.boot.fallback else s.boot.fallback } }

/-- Die C is reset with a cause; within BOOT that is a boot failure as well, in step B8 once steps B1 to B7 are done (R53, R476). -/
def State.dieCFails (s : State) (cause fail : Nat) (run : RunState) : State :=
  let booting := s.mode == .boot || s.boot.ready
  let s := s.resetDieC cause run
  if booting then s.bootFail 8 fail else s

/-- A thermal critical media die or Die C hands the records its arbiter holds to Die C within the millisecond
before it is off (R50, R86; assumption 8). -/
def State.drainArbiter (s : State) (d : MDie) : State :=
  if s.reachable d then
    let s' := (s.md d).arb.buf.foldl (fun s r => (s.logRecord r).received d r) s
    s'.updMd d (fun m => { m with arb := { m.arb with buf := [] } })
  else s

/-! ### Meanings -/

/-- SEQUENCE_FAULT (R40). -/
def execSequenceFault (d : PDie) (rail : Nat) (s : State) : Out :=
  if railCount d ≤ rail then .fault .noSuchUnit
  else
    when (decide (3 ≤ railGroup d rail)) s
      (let m := { s.mram with seqFault := some (s.mram.seqFault.getD (d, rail)) }
       { s with mram := m, seqHold := true }.resetPackage 6 false)

/-- PORST_ASSERT (R40, R52, R53): low for at least 10 µs; `inRange` says all rails are in range meanwhile. -/
def execPorstAssert (inRange : Bool) (s : State) : Out :=
  .next ({ s with seqHold := s.seqHold && !inRange, boot := { BootSt.start with fallback := s.boot.fallback, unreported := s.boot.unreported } }.resetPackage 0 true)

/-- A warm reset of the package with a cause; BOOT begins when it ends, unless a sequence fault hold lasts
(R40, R53). -/
def State.warmReset (s : State) (cause : Nat) : State :=
  let s := s.resetPackage cause false
  if s.seqHold then s.wr Obj.rstCause .a 0 6 |>.wr Obj.rstCause .b 0 6 |>.wr Obj.rstCause .c 0 6
  else s.setMode .boot

/-- WRST_ASSERT (R53). -/
def execWrstAssert (s : State) : Out := .next (s.warmReset 1)

/-- RAIL_WARNING_CROSSING (R41, R42): `first` is the instant of the first sample below the level, `mv` the lowest
voltage so far. Nothing is counted while the die is in RESET. -/
def execRailWarningCrossing (d : PDie) (rail first mv : Nat) (s : State) : Out :=
  if railCount d ≤ rail then .fault .noSuchUnit
  else
    when (s.up d && decide (railSample mv < railWarn d rail) && decide (rail ∉ (s.power d).dips.map (·.1))) s
      (((s.updPower d (fun p => { p with dips := tabSet p.dips rail ⟨first, railSample mv⟩ })).clrBit
        Obj.pwrStatus d.die 0 rail).wr Obj.pwrRailVoltage d.die rail (railSample mv : Nat))

/-- The duration a dip reports: from the first sample below the level to the last, in whole µs rounded up, at
least 1 and at most 65,535 (R42). -/
def dipMicros (first last : Nat) : Nat := min 65535 (max 1 (ceilDiv (last - first) 1000))

/-- A dip on a die schedules its pass once: while one is pending or running it covers the dip (R42, R44). On a media die that is a scrub
pass and an eye check of each active channel; on Die C a read-verify pass over the dictionary image. -/
def State.scheduleDipPass (s : State) (d : PDie) : State :=
  let eyes := !(s.power d).eyeDue
  let s := s.updPower d (fun p => { p with scrubDue := true, eyeDue := match d with | .c => p.eyeDue | _ => true })
  match d with
  | .c => s
  | _ =>
    if eyes then
      (upto 12 (fun c => s.rdN Obj.memChState d.die c == 3)).foldl (fun (s : State) c => s.setBit Obj.memChStatus d.die c 3) s
    else s

/-- A warning dip during a BOOT step (R44): Die C repeats the step once, which changes nothing that the step did; a second one within
it ends BOOT with a boot failure, cause 3. In the model a dip between BOOT_START and BOOT_END falls into step B8, and one within
steps B1 to B7 comes with BOOT_START or BOOT_FAILURE (assumption 60). -/
def State.bootDip (s : State) : State :=
  if s.mode = .boot ∧ s.boot.ready then
    if s.boot.dips = 0 then { s with boot := { s.boot with dips := 1 } } else s.bootFail 8 3
  else s

/-- RAIL_RECOVERY (R42, R44): `last` is the instant of the last sample below the level, `mv` the lowest voltage,
`volt` the voltage at recovery. Die C receives its own event at once. -/
def execRailRecovery (d : PDie) (rail last mv volt : Nat) (s : State) : Out :=
  if railCount d ≤ rail then .fault .noSuchUnit
  else
    match (s.power d).dips.find? (fun e => e.1 == rail) with
    | none => .next s
    | some (_, dip) =>
      let low := min dip.lowest (railSample mv)
      when (s.up d && decide (railReset d rail ≤ low) && decide (railWarn d rail + 15 ≤ railSample volt)) s
        (let s := s.updPower d (fun p => { p with dips := tabDel p.dips rail })
         let s := s.setBit Obj.pwrStatus d.die 0 rail
         let s := s.wr Obj.pwrRailVoltage d.die rail (railSample volt : Nat)
         let s := s.setBit Obj.pwrSticky d.die 0 rail
         let s := s.persistNum Obj.pwrRailDipMin d.die rail (low : Nat)
         let s := s.raise d 0x1101 rail (p16 [rail, low, dipMicros dip.firstNs last])
         let s := match d with | .c => { s with brownouts := s.brownouts ++ [(PDie.c, rail)] } | _ => s
         (s.scheduleDipPass d).bootDip)

/-- BROWNOUT_EVENT_RECEIVED (R42, R44): Die C counts the oldest event 0x1101 of a die that reached it. -/
def execBrownoutEventReceived (d : PDie) (s : State) : Out :=
  match s.brownouts.find? (fun e => e.1 == d) with
  | none => .next s
  | some (_, rail) =>
    when (match d with | .c => s.up .c | .a => s.reachable .a | .b => s.reachable .b) s
      (let s := { s with brownouts := s.brownouts.erase (d, rail) }
       (s.bumpNow Obj.pwrRailBrownoutCount d.die rail).bumpNow Obj.pwrBrownoutCount d.die 0)

/-- RAIL_RESET_CROSSING (R43, R53): a dip that reaches the reset level is a reset and no brown-out. -/
def execRailResetCrossing (d : PDie) (rail mv : Nat) (s : State) : Out :=
  if railCount d ≤ rail then .fault .noSuchUnit
  else
    when (s.up d && decide (railSample mv < railReset d rail)) s
      (let s := s.updPower d (fun p => { p with aoDip := some (rail, railSample mv) })
       match d with
       | .a => s.resetMedia .a 2 .resetAlone
       | .b => s.resetMedia .b 2 .resetAlone
       | .c => s.dieCFails 2 5 .resetAlone)

/-- SECTION_WAKE (R47): one section of a media die at a time, in ascending number. -/
def execSectionWake (d : MDie) (s : State) : Out :=
  match (s.power d.pdie).wakeQueue with
  | [] => .next s
  | n :: r =>
    when (s.reachable d && (List.range 30).all (fun k => s.section d.pdie k != 1)) s
      ((s.updPower d.pdie (fun p => { p with wakeQueue := r })).setSection d.pdie n 1)

/-- SECTION_WAKE_TIMEOUT (R47): the section goes to failed and off, and Die C raises 0x1104. -/
def execSectionWakeTimeout (d : MDie) (sec : Nat) (s : State) : Out :=
  if 30 ≤ sec then .fault .noSuchUnit
  else when (s.section d.pdie sec == 1) s ((s.setSection d.pdie sec 4).raise .c 0x1104 sec (p16 [sec]))

/-- A sensor's reading and whether its self-check passes. -/
def sensorBad (r : Int × Bool) : Bool := decide (r.1 < degC (-40)) || decide (degC 150 < r.1) || !r.2

/-- The readings THERM.SENSOR.TEMP shows: a failed sensor stays failed until its self-check next runs (R51). -/
def State.sensorShown (s : State) (d : PDie) (readings : List (Int × Bool)) (i : Nat) : Int :=
  let r := readings.getD i (0, false)
  if s.rd Obj.thermSensorTemp d.die i = tempFailed ∨ sensorBad r then tempFailed else r.1

/-- The junction limit below which R51 warns, by ordering code. -/
def State.lowerLimit (s : State) : Int := if s.rd Obj.idGrade .p 0 = 1 then degC (-20) else degC 0

/-- What one sample of a die's junction sensors brings (R48–R51), the die running; the events of one sample are
accepted in ascending order of code (R87). Where several working sensors share the highest reading, events 0x1110 and 0x1111 name the
lowest of their numbers (DESIGN CHOICE, assumption 81). -/
def State.thermalSample (s : State) (d : PDie) (readings : List (Int × Bool)) : State :=
  let n := sensorCount d
  let shown := (List.range n).map (s.sensorShown d readings)
  let newFailed := upto n (fun i =>
    decide (s.rd Obj.thermSensorTemp d.die i ≠ tempFailed) && decide (shown.getD i 0 = tempFailed))
  let working := shown.filter (fun v => decide (v ≠ tempFailed))
  let s := (List.range n).foldl (fun s i => s.wr Obj.thermSensorTemp d.die i (shown.getD i 0)) s
  match working with
  | [] =>
    let s := s.wr Obj.thermTj d.die 0 tempFailed
    let s := s.updPower d (fun p => { p with critRun := 0 })
    let s := newFailed.foldl (fun s i => (s.raise d 0x1112 i (p16 [i])).setBit Obj.thermSticky d.die 0 2) s
    if s.bit Obj.thermStatus d.die 0 2 then s
    else (s.setBit Obj.thermStatus d.die 0 2).raise d 0x1114 0 (p16 [0])
  | v :: vs =>
    let tj := vs.foldl max v
    let hot := ((List.range n).find? (fun i => decide (shown.getD i 0 = tj))).getD 0
    let s := s.wr Obj.thermTj d.die 0 tj
    let s := s.wr Obj.thermTjPeak d.die 0 (max tj (s.rd Obj.thermTjPeak d.die 0))
    let warned := s.bit Obj.thermStatus d.die 0 0
    let s :=
      if degC 100 ≤ tj ∧ ¬ warned then
        (((s.setBit Obj.thermStatus d.die 0 0).setBit Obj.thermSticky d.die 0 0).bump Obj.thermCount d.die 0).raise d
          0x1110 hot (p16 [hot, tj])
      else if tj < degC 95 then s.clrBit Obj.thermStatus d.die 0 0
      else s
    let crit := if degC 115 ≤ tj then (s.power d).critRun + 1 else 0
    let s := s.updPower d (fun p => { p with critRun := crit })
    let s := if crit = 2 then s.raise d 0x1111 hot (p16 [hot, tj]) else s
    let s := newFailed.foldl (fun s i => (s.raise d 0x1112 i (p16 [i])).setBit Obj.thermSticky d.die 0 2) s
    let s :=
      if tj < s.lowerLimit then
        if s.bit Obj.thermStatus d.die 0 1 then s
        else ((s.setBit Obj.thermStatus d.die 0 1).setBit Obj.thermSticky d.die 0 1).raise d 0x1113 0 (p16 [tj])
      else s.clrBit Obj.thermStatus d.die 0 1
    let s :=
      if working.length < sensorMin d then
        if s.bit Obj.thermStatus d.die 0 2 then s
        else (s.setBit Obj.thermStatus d.die 0 2).raise d 0x1114 0 (p16 [working.length])
      else s
    if crit = 2 then
      match d with
      | .a => (s.drainArbiter .a).resetMedia .a 3 .shutdown
      | .b => (s.drainArbiter .b).resetMedia .b 3 .shutdown
      | .c => s.dieCFails 3 5 .shutdown
    else s

/-- THERMAL_SAMPLE (R48–R51): one reading in sQ9.7 and one self-check per sensor. A die that is shut down only
shows its readings and its peak. -/
def execThermalSample (d : PDie) (readings : List (Int × Bool)) (s : State) : Out :=
  if readings.length ≠ sensorCount d then .fault .noSuchUnit
  else if s.up d then .next (s.thermalSample d readings)
  else
    when ((s.power d).run == .shutdown) s
      (let shown := (List.range (sensorCount d)).map (s.sensorShown d readings)
       let working := shown.filter (fun v => decide (v ≠ tempFailed))
       let s := (List.range (sensorCount d)).foldl (fun s i => s.wr Obj.thermSensorTemp d.die i (shown.getD i 0)) s
       match working with
       | [] => s.wr Obj.thermTj d.die 0 tempFailed
       | v :: vs =>
         let tj := vs.foldl max v
         (s.wr Obj.thermTj d.die 0 tj).wr Obj.thermTjPeak d.die 0 (max tj (s.rd Obj.thermTjPeak d.die 0)))

/-- A die shut down under R50 may start again: its THERM.TJ lies below 95.0 °C, and some sensor works. -/
def State.cooled (s : State) (d : PDie) : Bool :=
  (s.power d).run == .shutdown && decide (s.rd Obj.thermTj d.die 0 < degC 95)
    && decide (s.rd Obj.thermTj d.die 0 ≠ tempFailed)

/-- DIE_C_THERMAL_RESTART (R50): C_AO restarts Die C, which then reboots and re-attaches (R53). -/
def execDieCThermalRestart (s : State) : Out :=
  when (s.cooled .c) s (s.updPower .c (fun p => { p with run := .resetAlone }))

/-- DIE_C_WATCHDOG_EXPIRY (R53, R476): two seconds without firmware service. -/
def execDieCWatchdogExpiry (s : State) : Out := when (s.up .c) s (s.dieCFails 4 4 .resetAlone)

/-- A request on an object is answered with a status (R457). -/
def State.ans (s : State) (a : Status) : State := { s with answer := a }

/-! ### Where a write lands (R242, R401, R413) -/

/-- The mode is SELVEDGE. -/
def State.inSelvedge (s : State) : Bool := s.mode == .selvedge

/-- A die of the pair takes mirrored writes (R413): PAIRED and SOLO; ALIGNING and SPLIT where it is the owner. -/
def State.mirrors (s : State) (d : MDie) : Bool :=
  let st := s.rdN Obj.slvState d.die 0
  st == 2 || st == 3 || ((st == 1 || st == 4) && s.rdN Obj.slvOwner .p 0 == d.num)

/-- The media dies a write of a commit, control or request reaches, with the instant it lands: its own die's time, or for
die P the time base plus 100 µs on both. In SELVEDGE a write at die A is one at die P, and only dies that take mirrored
writes are reached (R242, R401, R413). -/
def State.landOn (s : State) (d : Die) : List (MDie × Instant) :=
  let both := [(MDie.a, Instant.ofNs (s.time.base + 100000)), (MDie.b, Instant.ofNs (s.time.base + 100000))]
  if s.inSelvedge then
    match d with
    | .a => both.filter (fun x => s.mirrors x.1)
    | .p => both.filter (fun x => s.mirrors x.1)
    | _ => []
  else
    match d with
    | .a => [(.a, .ofNs (s.now .a))]
    | .b => [(.b, .ofNs (s.now .b))]
    | .p => both
    | .c => []

/-- A write of a mirrored object or of one that exists on dies A, B and P: made on every die it reaches, or, where one of
them refuses it, refused on all, with what the refusing die does (R401). -/
def State.mirror (s : State) (d : Die) (f : MDie → Instant → State → State) : State :=
  let l := s.landOn d
  match l with
  | [] => s.ans .access
  | _ =>
    match l.find? (fun x => !s.reachable x.1) with
    | some x => s.ans (.unreachable x.1.num)
    | none =>
      let s := s.ans .ok
      let bad := l.filter (fun x => (f x.1 x.2 s).answer != .ok)
      let s := if s.inSelvedge ∧ bad.isEmpty then { s with pair := { s.pair with gen := (s.pair.gen + 1) % 65536 } } else s
      (if bad.isEmpty then l else bad).foldl (fun s x => f x.1 x.2 s) s

/-- RST_REQUEST_RESTART (R50, R57): accepted only while the die is shut down and below 95.0 °C. -/
def execRstRequestRestart (d : MDie) (s : State) : Out :=
  when s.serverUp s
    (if s.cooled d.pdie then (s.updPower d.pdie (fun p => { p with run := .resetAlone })).ans .ok else s.ans .access)

/-- RST_REQUEST_DIE_RESET (R53): cause 5. -/
def execRstRequestDieReset (d : MDie) (s : State) : Out :=
  when (s.serverUp && s.up d.pdie) s ((s.resetMedia d 5 .resetAlone).ans .ok)

/-- RST_REQUEST_WARM_PACKAGE (R53): as C_SYS00_WRST_N, with cause 5. -/
def execRstRequestWarmPackage (s : State) : Out := when s.serverUp s ((s.warmReset 5).ans .ok)

end Sys2Proof.Machine
end

