-- ==== Sys2Proof/Machine/Lanes.lean ====
section
/-! DEFINITION. Lanes, quads and ports, and the equalization table (R92–R109). The commands that take a port
down stand in Machine/LaneLinks.lean, since a Twill link goes down with its port. -/

namespace Sys2Proof.Machine

/-- A lane that has no transition running, no settings, and whose precoders are in their reset state. -/
def LaneSt.start : LaneSt :=
  { target := none, held := none, cycle := false, eq := none, gen := 0, run := 0, txPrev := 0, rxPrev := 0 }

/-- A lane beyond its objects. -/
def State.lane (s : State) (d : MDie) (l : Nat) : LaneSt := tabGet (s.md d).lanes l LaneSt.start

/-- A state with a lane changed. -/
def State.updLane (s : State) (d : MDie) (l : Nat) (f : LaneSt → LaneSt) : State :=
  s.updMd d (fun m => { m with lanes := tabUpd m.lanes l LaneSt.start f })

/-- An empty cage: `_RST_N` low, `_LPM` high (R112). -/
def CageSt.start : CageSt :=
  { step := .empty, info := none, rstN := false, lpm := true, noAck := 0, stale := false, biasSum := List.replicate 8 0, polls := 0 }

/-- The state of a cage. -/
def State.cage (s : State) (d : MDie) (n : Nat) : CageSt := tabGet (s.md d).cages n CageSt.start

/-- A state with a cage's state changed. -/
def State.updCage (s : State) (d : MDie) (n : Nat) (f : CageSt → CageSt) : State :=
  s.updMd d (fun m => { m with cages := tabUpd m.cages n CageSt.start f })

/-- A cage is served: an odd cage beside an 8-wide even one is not (R94). -/
def State.cageServed (s : State) (d : MDie) (n : Nat) : Bool :=
  !(n % 2 == 1 && s.rdN Obj.cageWidth d.die (n - 1) == 8)

/-- The lanes a cage's host side uses (R94). -/
def State.cageLanes (s : State) (d : MDie) (n : Nat) : List Nat :=
  (List.range (s.rdN Obj.cageWidth d.die n)).map (· + 4 * n)

/-- The cage a lane is routed to (R94). -/
def State.laneCage (s : State) (d : MDie) (lane : Nat) : Nat :=
  if s.cageServed d (lane / 4) then lane / 4 else lane / 4 - 1

/-- The lanes of the port or link that holds a lane, first lane first; none where no port is configured
(R92, R93). -/
def State.portLanes (s : State) (d : MDie) (lane : Nat) : List Nat :=
  let q := lane / 4
  match s.quad d q with
  | 1 => [lane]
  | 2 => (List.range 4).map (· + 4 * q)
  | 3 => if q % 2 = 0 then (List.range 8).map (· + 4 * q) else []
  | 4 => (List.range 4).map (· + 4 * q)
  | _ => if q % 2 = 1 ∧ s.quad d (q - 1) = 3 then (List.range 8).map (· + 4 * (q - 1)) else []

/-- A lane is the first lane of a configured port. -/
def State.firstLane (s : State) (d : MDie) (lane : Nat) : Bool := (s.portLanes d lane).head? == some lane

/-- A port is up (LANE.STATUS bit 2 of its first lane, R99). -/
def State.portUp (s : State) (d : MDie) (lane : Nat) : Bool := s.bit Obj.laneStatus d.die lane 2

/-- LANE.STATE of a lane (R104): 0 off, 1 deep, 2 shallow, 3 active, 4 changing. -/
def State.laneState (s : State) (d : MDie) (lane : Nat) : Nat := s.rdN Obj.laneState d.die lane

/-- The state LANE.STATE.REQUEST asks for (R104, R105). -/
def laneTarget (req : Nat) : Nat := match req with | 0 => 3 | 1 => 2 | _ => 1

/-- The lane's CDR no longer runs: it has no lock and no frozen integrator (R104, R106). -/
def State.cdrOff (s : State) (d : MDie) (lane : Nat) : State :=
  (s.clrBit Obj.laneStatus d.die lane 0).clrBit Obj.laneStatus d.die lane 3

/-- A transition of a lane starts; on the way to deep its CDR goes off (R104). -/
def State.startLane (s : State) (d : MDie) (lane target : Nat) : State :=
  let s := if target = 1 then s.cdrOff d lane else s
  (s.updLane d lane (fun l => { l with target := some target, held := none })).wr Obj.laneState d.die lane 4

/-- A lane is asked for a state: held while a transition runs, nothing where it is there already or it is off, otherwise a
transition starts (R105). -/
def State.requestLane (s : State) (d : MDie) (lane target : Nat) : State :=
  match s.laneState d lane with
  | 0 => s
  | 4 => s.updLane d lane (fun l => { l with held := some target })
  | st => if st = target then s else s.startLane d lane target

/-- A lane belongs to a Twill link that is parked (R435). -/
def State.parked (s : State) (d : MDie) (lane : Nat) : Bool := s.quad d (lane / 4) == 4 && s.tlinkState d (lane / 4) == 4

/-- What the mode and LANE.STATE.REQUEST ask of a lane (R104, R105), at most shallow where its link is parked (R435): 0 where its quad's section is not on. -/
def State.laneAsked (s : State) (d : MDie) (lane : Nat) (m : Mode) : Nat :=
  if ¬ s.secOn d (6 + lane / 4) then 0
  else
    match s.portLanes d lane with
    | [] => 1
    | first :: _ =>
      let most := if s.parked d lane then 2 else 3
      match m with
      | .configure => most
      | .test => most
      | .service => min most (laneTarget (s.rdN Obj.laneStateRequest d.die first))
      | .selvedge => min most (laneTarget (s.rdN Obj.laneStateRequest d.die first))
      | .recovery => min most (laneTarget (s.rdN Obj.laneStateRequest d.die first))
      | _ => 1

/-- An identified module keeps the lanes of its cage off: it is unsupported, or no row is selected for it (R103, R111). -/
def State.cageOff (s : State) (d : MDie) (n : Nat) : Bool :=
  s.bit Obj.cageStatus d.die n 1 && (!s.bit Obj.cageStatus d.die n 3 || s.bit Obj.cageStatus d.die n 7)

/-- What a lane is to be in a mode: what it is asked for, once its cage's module has its data path configured (R112, step 6), and deep
until then; off where the module keeps it off (R103, R111). -/
def State.laneWanted (s : State) (d : MDie) (lane : Nat) (m : Mode) : Nat :=
  let n := s.laneCage d lane
  let w := s.laneAsked d lane m
  if w = 0 ∨ s.cageOff d n then 0
  else
    match (s.cage d n).step with
    | .dataPath => w
    | .done => w
    | _ => 1

/-- The quad PLL runs while a lane of the quad is shallow or active, or on its way (R104). -/
def State.pllFollows (s : State) (d : MDie) (q : Nat) : State :=
  let need := (List.range 4).any (fun k => decide (2 ≤ s.laneState d (4 * q + k)))
  if need then s else s.clrBit Obj.quadStatus d.die q 0

/-- A lane goes off (R104). -/
def State.laneOff (s : State) (d : MDie) (lane : Nat) : State :=
  ((s.wr Obj.laneState d.die lane 0).cdrOff d lane).updLane d lane (fun x => { LaneSt.start with eq := x.eq })

/-- The lanes of a die follow a mode (R105). A lane whose section came on starts in deep; one whose section went off
is off. -/
def State.lanesForMode (s : State) (d : MDie) (m : Mode) : State :=
  let s := (List.range 32).foldl (fun (s : State) lane =>
    let w := s.laneWanted d lane m
    if w = 0 then
      if s.laneState d lane = 0 then s else s.laneOff d lane
    else
      let s := if s.laneState d lane = 0 then s.wr Obj.laneState d.die lane 1 else s
      s.requestLane d lane w) s
  (List.range 8).foldl (fun (s : State) q => s.pllFollows d q) s

/-- CDR_FREEZE (R106): 1 µs without a symbol transition. -/
def execCdrFreeze (d : MDie) (lane : Fin 32) (s : State) : Out :=
  when (s.up d.pdie && s.bit Obj.laneStatus d.die lane.val 0) s (s.setBit Obj.laneStatus d.die lane.val 3)

/-- CDR_REACQUIRE (R106): the next transition; the symbols of re-acquisition count as FEC symbol errors. -/
def execCdrReacquire (d : MDie) (lane : Fin 32) (symbols : Nat) (s : State) : Out :=
  when (s.up d.pdie && s.bit Obj.laneStatus d.die lane.val 3) s
    ((s.clrBit Obj.laneStatus d.die lane.val 3).addCount Obj.laneFecSymbols d.die lane.val symbols)

/-- FEC_DEGRADE_CHECK (R98, R99, R118): one second's corrected 10-bit symbols of a lane, and, on a port's first lane,
the port's corrected and uncorrectable codewords of that second, to which those still to be injected are added (R491). With
LANE.FEC.BYPASS nothing is corrected. -/
def execFecDegradeCheck (d : MDie) (lane : Fin 32) (symbols corrected uncorrected : Nat) (s : State) : Out :=
  when (s.up d.pdie) s
    (let l := lane.val
     let byp := s.rdN Obj.laneFecBypass d.die l == 1
     let symbols := symbols + tabGet (s.md d).test.symbols l 0
     let uncorrected := uncorrected + (if s.firstLane d l then tabGet (s.md d).test.codewords l 0 else 0)
     let s := s.updMd d (fun m =>
       { m with test := { m.test with symbols := tabDel m.test.symbols l, codewords := tabDel m.test.codewords l } })
     let n := if byp then 0 else symbols
     let s := s.addCount Obj.laneFecSymbols d.die l n
     let s := if s.firstLane d l then
         let s := s.addCount Obj.laneFecCorrected d.die l (if byp then 0 else corrected)
         let s := s.addCount Obj.laneFecUncorrected d.die l uncorrected
         if 0 < uncorrected then s.setBit Obj.laneSticky d.die l 4 else s
       else s
     let thr := s.rdN Obj.laneFecDegrade d.die l
     if thr < n ∧ ¬ s.bit Obj.laneStatus d.die l 4 then
       ((s.setBit Obj.laneStatus d.die l 4).setBit Obj.laneSticky d.die l 3).raise d.pdie 0x1303 l
         (payloadOf [(16, l), (32, n)])
     else if n < thr then s.clrBit Obj.laneStatus d.die l 4
     else s)

/-- QUAD_PLL_RELOCK (R99). -/
def execQuadPllRelock (d : MDie) (quad : Fin 8) (s : State) : Out :=
  when (s.up d.pdie && s.secOn d (6 + quad.val)) s (s.setBit Obj.quadStatus d.die quad.val 0)

/-! ### The equalization table (R101–R103) -/

/-- Bytes of a class entry, and of a row. -/
def eqClass (t : List Byte) (n : Nat) : List Byte := bytesAt t (32 + 32 * n) 32
def eqRow (t : List Byte) (n : Nat) : List Byte :=
  bytesAt t (32 + 32 * fieldAt t 6 2 + 144 * n) 144

/-- The lane record `k` of a row as 128 bits, and a field `[hi:lo]` of it. -/
def eqLane (row : List Byte) (k : Nat) : Nat := fieldAt row (16 + 16 * k) 16
def eqField (v hi lo : Nat) : Nat := bitsOf v hi lo

/-- A class entry lies in its ranges (R101). -/
def eqClassOk (t : List Byte) (n : Nat) : Bool :=
  let e := eqClass t n
  decide (fieldAt e 0 1 ≤ 15) && decide (fieldAt e 1 1 ≤ 15) && decide (fieldAt e 7 1 ≤ 16)
    && fieldAt e 24 8 == 0
    && (List.range n).all (fun m => fieldAt (eqClass t m) 0 1 != fieldAt e 0 1)

/-- A FIR tap in sQ2.6 lies in the transmitter's range (R108). -/
def tapOk (lo hi v : Int) : Bool := decide (lo ≤ v) && decide (v ≤ hi)

/-- A lane record lies in its ranges, its taps in those of the transmitter, and their magnitudes sum to at most
1.0 (R101, R102, R108). -/
def eqLaneOk (v : Nat) : Bool :=
  let tap := fun hi => signed 8 (bitsOf v hi (hi - 7))
  let c3 := tap 127
  let c2 := tap 119
  let c1 := tap 111
  let c0 := tap 103
  let p1 := tap 95
  tapOk (-16) 16 c3 && tapOk (-16) 16 c2 && tapOk (-32) 0 c1 && tapOk 32 64 c0 && tapOk (-24) 0 p1
    && decide (mag c3 + mag c2 + mag c1 + mag c0 + mag p1 ≤ 64)
    && decide (bitsOf v 87 80 ≤ 31) && decide (bitsOf v 79 72 ≤ 15) && decide (bitsOf v 71 64 ≤ 63)
    && bitsOf v 11 0 == 0

/-- The sort key of a row (R101). -/
def eqRowKey (row : List Byte) : Nat := fieldAt row 0 3

/-- A row's own fields are good: DIE, CAGE, LANES, a class that an entry names, lane records, reserved bytes
(R101, R102). -/
def eqRowOk (t row : List Byte) : Bool :=
  let lanes := fieldAt row 3 1
  decide (fieldAt row 0 1 ≤ 1) && decide (fieldAt row 1 1 ≤ 7)
    && (lanes == 4 || (lanes == 8 && fieldAt row 1 1 % 2 == 0))
    && (List.range (fieldAt t 6 2)).any (fun n => fieldAt (eqClass t n) 0 1 == fieldAt row 2 1)
    && fieldAt row 4 12 == 0
    && (List.range 8).all (fun k => if k < lanes then eqLaneOk (eqLane row k) else eqLane row k == 0)

/-- The header and length are good (R101, R102). -/
def eqHeaderOk (t : List Byte) : Bool :=
  fieldAt t 0 4 == 0x45515442 && fieldAt t 4 2 == 1 && decide (fieldAt t 6 2 ≤ 16) && decide (fieldAt t 8 2 ≤ 256)
    && fieldAt t 10 2 == 0 && fieldAt t 24 8 == 0
    && t.length == 32 + 32 * fieldAt t 6 2 + 144 * fieldAt t 8 2 + 4

/-- The checks of R102: none passed over, or the reason (1 header, 2 CRC, 3 order or duplicate, 4 range) and the
first offending entry or row; 0 for reasons 1 and 2, where none offends (DESIGN CHOICE, assumption 85). -/
def eqCheck (t : List Byte) : Option (Nat × Nat) :=
  if ¬ eqHeaderOk t then some (1, 0)
  else if fieldAt t (t.length - 4) 4 ≠ crc32 (t.take (t.length - 4)) then some (2, 0)
  else
    let rows := fieldAt t 8 2
    match (List.range rows).find? (fun n => decide (0 < n) && decide (eqRowKey (eqRow t n) ≤ eqRowKey (eqRow t (n - 1)))) with
    | some n => some (3, n)
    | none =>
      match (List.range (fieldAt t 6 2)).find? (fun n => !eqClassOk t n) with
      | some n => some (4, n)
      | none => ((List.range rows).find? (fun n => !eqRowOk t (eqRow t n))).map (fun n => (4, n))

/-- LANE_EQ_TABLE_WRITE (R102): checked as a whole; writable in CONFIGURE only (R25). -/
def execLaneEqTableWrite (t : List Byte) (s : State) : Out :=
  when s.serverUp s
    (if s.mode ≠ .configure then s.ans .access
     else if 37412 < t.length then s.ans .length
     else
       match eqCheck t with
       | some (r, n) => (s.raise .c 0x1330 0 (p16 [r, n])).ans (.rejected 0x1330)
       | none => (s.persistBytes Obj.laneEqTable .p 0 t).ans .ok)

/-- The class of a module: that of the first entry, in table order, that matches (R101, R103). -/
def eqClassify (t : List Byte) (m : ModuleInfo) : Option Nat :=
  ((List.range (fieldAt t 6 2)).find? (fun n =>
    let e := eqClass t n
    let bits := fieldAt e 1 1
    let len := fieldAt e 7 1
    (!bits.testBit 0 || fieldAt e 2 1 == m.identifier) && (!bits.testBit 1 || fieldAt e 3 1 == m.mediaType)
      && (!bits.testBit 2 || bytesAt e 4 3 == m.oui)
      && (!bits.testBit 3 || bytesAt e 8 len == m.part.take len))).map (fun n => fieldAt (eqClass t n) 0 1)

/-- The row whose key is (die, cage, class), if the table holds it (R103). -/
def eqFind (t : List Byte) (d cage cls : Nat) : Option (List Byte) :=
  ((List.range (fieldAt t 8 2)).map (eqRow t)).find? (fun r => eqRowKey r == (d * 256 + cage) * 256 + cls)

/-- A lane whose settings changed passes through deep before it is what it was or was to be (R103); in a transition it does so when
that completes. -/
def State.cycleLane (s : State) (d : MDie) (lane : Nat) : State :=
  match s.laneState d lane with
  | 3 => (s.startLane d lane 1).requestLane d lane 3
  | 2 => (s.startLane d lane 1).requestLane d lane 2
  | 4 => s.updLane d lane (fun x => { x with cycle := true, held := x.held.orElse (fun _ => x.target) })
  | _ => s

/-! ### Symbols (R96, R97, R100, R107) -/

/-- The Gray symbol of a bit pair, and the level that carries it (R96). -/
def grayOf (a b : Bool) : Nat := match a, b with | false, false => 0 | false, true => 1 | true, true => 2 | true, false => 3
def levelOf (g : Nat) : PamLevel := match g with | 0 => .neg1 | 1 => .negThird | 2 => .posThird | _ => .pos1

/-- The Gray symbol of a level, and its bit pair. -/
def levelGray : PamLevel → Nat | .neg1 => 0 | .negThird => 1 | .posThird => 2 | .pos1 => 3
def grayBits (g : Nat) : Bool × Bool :=
  match g with | 0 => (false, false) | 1 => (false, true) | 2 => (true, true) | _ => (true, false)

/-- A level with its polarity inverted. -/
def levelInvert : PamLevel → PamLevel | .neg1 => .pos1 | .negThird => .posThird | .posThird => .negThird | .pos1 => .neg1

/-- One Gray symbol through the transmitter's precoder: the symbol sent, and the new state (R97). -/
def precode (g prev : Nat) : Nat := (g + 4 - prev) % 4

/-- One symbol through the receiver's precoder: the Gray symbol recovered. -/
def unprecode (p prev : Nat) : Nat := (p + prev) % 4

/-- Bit `n` of the lane record in force (R101). -/
def State.eqBit (s : State) (d : MDie) (lane n : Nat) : Bool := (((s.lane d lane).eq).getD 0).testBit n

/-- The precoders of transmitter and receiver are on: always on a Twill quad; else as the row's flags say (R97). -/
def State.txPre (s : State) (d : MDie) (lane : Nat) : Bool := s.quad d (lane / 4) == 4 || s.eqBit d lane 15
def State.rxPre (s : State) (d : MDie) (lane : Nat) : Bool := s.quad d (lane / 4) == 4 || s.eqBit d lane 14

/-- A level through the polarity of a direction: inverted where the row says so (R94, R101). -/
def polar (inv : Bool) (v : PamLevel) : PamLevel := if inv then levelInvert v else v

/-- Symbol `n` of a test pattern (R107): codes 1 to 3 as Clause 120 defines them, the square wave, the user's 32 symbols. -/
def patternSymbol (code user n : Nat) : Nat :=
  match code with
  | 4 => if n % 16 < 8 then 3 else 0
  | 5 => bitsOf user (63 - 2 * (n % 32)) (62 - 2 * (n % 32))
  | c => grayOf (Config.patternBit c (2 * n)) (Config.patternBit c (2 * n + 1))

/-- A lane's transmitter sends Gray symbols of its generator: the levels sent, and the precoder's new state. -/
def sendGray (pre inv : Bool) (prev : Nat) : List Nat → List PamLevel × Nat
  | [] => ([], prev)
  | g :: r =>
    let p := if pre then precode g prev else g
    let (l, e) := sendGray pre inv p r
    (polar inv (levelOf p) :: l, e)

/-- What a lane's receiver recovers from levels, and the precoder's new state. -/
def recvGray (pre inv : Bool) (prev : Nat) : List PamLevel → List Nat × Nat
  | [] => ([], prev)
  | v :: r =>
    let p := levelGray (polar inv v)
    let (l, e) := recvGray pre inv p r
    ((if pre then unprecode p prev else p) :: l, e)

/-- A checker: locked, its run of correct or wrong symbols, bits compared, bit errors, lock lost. -/
structure Checker where
  locked : Bool
  run : Nat
  bits : Nat
  errors : Nat
  lost : Bool
deriving DecidableEq, Repr

/-- Bits in which two Gray symbols differ. -/
def grayErrors (a b : Nat) : Nat :=
  (if (grayBits a).1 = (grayBits b).1 then 0 else 1) + (if (grayBits a).2 = (grayBits b).2 then 0 else 1)

/-- One symbol at the checker (R107): 64 consecutive correct ones lock it, 64 consecutive wrong ones take the lock. -/
def Checker.take (c : Checker) (g want : Nat) : Checker :=
  if c.locked then
    let c := { c with bits := c.bits + 2, errors := c.errors + grayErrors g want, run := if g = want then 0 else c.run + 1 }
    if c.run = 64 then { c with locked := false, run := 0, lost := true } else c
  else
    let n := if g = want then c.run + 1 else 0
    if n = 64 then { c with locked := true, run := 0 } else { c with run := n }

/-- Symbols pass a lane in TEST (R107): `rx` at its receiver, or, in near-end loopback, what its own generator sends. They reach the checker
from place `phase` of its pattern on, after polarity and precoder; meanwhile the transmitter sends as many symbols of its pattern, or, in
far-end loopback, those received. -/
def State.runChecker (s : State) (d : MDie) (lane phase : Nat) (rx : List PamLevel) : State :=
  let x := s.lane d lane
  let user := s.rdN Obj.lanePatternUser d.die lane
  let tx := s.rdN Obj.lanePatternTx d.die lane
  let loop := s.rdN Obj.laneLoopback d.die lane
  let (own, txPrev) := sendGray (s.txPre d lane) (s.eqBit d lane 13) x.txPrev
    ((List.range rx.length).map (fun k => patternSymbol tx user (x.gen + k)))
  let seen := if loop = 1 ∧ tx ≠ 0 then own else rx
  let (gray, rxPrev) := recvGray (s.rxPre d lane) (s.eqBit d lane 12) x.rxPrev seen
  let code := s.rdN Obj.lanePatternRx d.die lane
  let c := (gray.zipIdx).foldl (fun (c : Checker) (e : Nat × Nat) => c.take e.1 (patternSymbol code user (phase + e.2)))
    { locked := s.bit Obj.laneStatus d.die lane 5, run := x.run, bits := 0, errors := 0, lost := false }
  let s := s.updLane d lane (fun x => { x with rxPrev := rxPrev, run := c.run })
  let s := if tx = 0 then s else s.updLane d lane (fun x => { x with gen := x.gen + rx.length, txPrev := txPrev })
  let s := s.putBit Obj.laneStatus d.die lane 5 c.locked
  let s := if c.lost then s.setBit Obj.laneSticky d.die lane 5 else s
  let s := (s.addCount Obj.lanePatternBits d.die lane c.bits).addCount Obj.lanePatternErrors d.die lane c.errors
  if loop = 2 then s.send (.symbols d lane rx)
  else if tx ≠ 0 then s.send (.symbols d lane own)
  else s

/-- PATTERN_CHECKER_LOCK (R107): symbols reach a checker in TEST that is not locked. -/
def execPatternCheckerLock (d : MDie) (x : CheckerInput) (s : State) : Out :=
  when (s.up d.pdie && s.mode == .test && s.rdN Obj.lanePatternRx d.die x.lane.val != 0 && !s.bit Obj.laneStatus d.die x.lane.val 5) s
    (s.runChecker d x.lane.val x.phase x.rx)

/-- PATTERN_CHECKER_LOSS (R107): symbols reach a locked checker, which counts bits and errors; the counts stay across a relock. -/
def execPatternCheckerLoss (d : MDie) (lane : Fin 32) (phase : Nat) (rx : List PamLevel) (s : State) : Out :=
  when (s.up d.pdie && s.bit Obj.laneStatus d.die lane.val 5) s (s.runChecker d lane.val phase rx)

end Sys2Proof.Machine
end

