-- ==== Sys2Proof/Machine/Modules.lean ====
section
/-! DEFINITION. Pluggable modules and wear records (R94, R110–R117). Removal stands in Machine/LaneLinks.lean. -/

namespace Sys2Proof.Machine

/-- Some lane of the cage is to be active or shallow in a mode (R105, R112). -/
def State.cageActive (s : State) (d : MDie) (n : Nat) (m : Mode) : Bool :=
  (s.cageLanes d n).any (fun l => decide (2 ≤ s.laneAsked d l m))

/-- A module acknowledged a transaction: the count of failures starts over (R113). -/
def State.cageAck (s : State) (d : MDie) (n : Nat) : State := s.updCage d n (fun c => { c with noAck := 0 })

/-- A cage's bus carries transactions: the cage is served, and no management fault stands (R94, R113). -/
def State.busOpen (s : State) (d : MDie) (n : Nat) : Bool :=
  s.serverUp && s.up d.pdie && s.cageServed d n && !s.bit Obj.cageStatus d.die n 5

/-- CMIS writes on a cage's bus (R111). -/
def State.cmis (s : State) (d : MDie) (n : Nat) (w : List CmisWrite) : State := w.foldl (fun s x => s.send (.cmis d n x)) s

/-- MODULE_INSERTED (R112, step 1): `_PRS_N` has stayed low for 50 ms; `_RST_N` is released. -/
def execModuleInserted (d : MDie) (cage : Fin 8) (s : State) : Out :=
  when (s.serverUp && s.up d.pdie && s.cageServed d cage.val && (s.cage d cage.val).step == .empty) s
    (let n := cage.val
     let s := s.setBit Obj.cageStatus d.die n 0
     let s := s.setBit Obj.cageSticky d.die n 0
     let s := s.bump Obj.cageCount d.die n
     let s := s.updCage d n (fun _ => { CageSt.start with step := .polling, rstN := true })
     s.raise .c 0x1310 n (p16 [n]))

/-- A field of a wear record made `v` (R114). -/
def wearSet (r : List Byte) (ofs len v : Nat) : List Byte := overlay r ofs (natBe len v)

/-- PTP seconds of the time base. -/
def State.seconds (s : State) : Nat := s.time.base / nsPerSec

/-- A wear record is valid, and holds a module's key (R114). -/
def wearValid (r : List Byte) : Bool := (fieldAt r 3 1).testBit 7
def wearKeyIs (r : List Byte) (m : ModuleInfo) : Bool := wearValid r && bytesAt r 0 3 == m.oui && bytesAt r 4 16 == m.serial

/-- The record numbers in use by cages (R117). -/
def State.wearInUse (s : State) : List Nat :=
  [MDie.a, MDie.b].flatMap (fun d => (List.range 8).map (fun n => s.rdN Obj.cageWearRecord d.die n))

/-- The record slot for a module: its own, else an invalid one, else the oldest LAST.SEEN among modules not present;
the flag says a record is replaced (R117). -/
def State.wearSlot (s : State) (m : ModuleInfo) : Nat × Bool :=
  let recs := fun n => s.rdBytes Obj.wearRecord .p n
  match (List.range 512).find? (fun n => wearKeyIs (recs n) m) with
  | some n => (n, false)
  | none =>
    match (List.range 512).find? (fun n => !wearValid (recs n)) with
    | some n => (n, false)
    | none =>
      let free := (List.range 512).filter (fun n => decide (n ∉ s.wearInUse))
      match free with
      | [] => (0, true)
      | n :: ns => (ns.foldl (fun best k => if fieldAt (recs k) 42 6 < fieldAt (recs best) 42 6 then k else best) n, true)

/-- A new wear record (R114). -/
def wearNew (m : ModuleInfo) (t : Nat) : List Byte :=
  let r := List.replicate 96 (0 : Byte)
  let r := overlay r 0 m.oui
  let r := wearSet r 3 1 0x80
  let r := overlay r 4 (m.serial.take 16)
  let r := overlay r 20 (m.part.take 16)
  let r := wearSet r 36 6 t
  wearSet r 42 6 t

/-- The cage of another present module with the same key, as die × 256 + cage (R117). -/
def State.wearTwin (s : State) (d : MDie) (cage : Nat) (m : ModuleInfo) : Option Nat :=
  ([MDie.a, MDie.b].flatMap (fun e => (List.range 8).map (fun n => (e, n)))).findSome? (fun p =>
    if p.1 = d ∧ p.2 = cage then none
    else match (s.cage p.1 p.2).info with
      | some k => if k.oui == m.oui && k.serial == m.serial then some (p.1.num * 256 + p.2) else none
      | none => none)

/-- The lanes of a cage take the settings of a row (R100), or have none. -/
def State.setRow (s : State) (d : MDie) (cage : Nat) (row : Option (List Byte)) : State :=
  ((s.cageLanes d cage).zipIdx).foldl (fun (s : State) (lk : Nat × Nat) =>
    s.updLane d lk.1 (fun x => { x with eq := row.map (fun r => eqLane r lk.2) })) s

/-- Class and row are selected for an identified module from the table in force (R103): CAGE.MODULE.CLASS,
CAGE.STATUS bit 3 and the lanes' settings follow, and a missing row raises 0x1313. -/
def State.selectRow (s : State) (d : MDie) (cage : Nat) (m : ModuleInfo) : State :=
  let cls := eqClassify s.eqTable m
  let s := s.wr Obj.cageModuleClass d.die cage (((cls.getD 0xFF) : Nat) : Int)
  let row := cls.bind (eqFind s.eqTable d.num cage)
  let s := s.setRow d cage row
  match row with
  | some _ => s.setBit Obj.cageStatus d.die cage 3
  | none => (s.clrBit Obj.cageStatus d.die cage 3).raise .c 0x1313 cage (p16 [cage, cls.getD 0xFF])

/-- The module may go to high power: its row is selected, it is supported and within the cage limit (R111–R113). -/
def State.cageReady (s : State) (d : MDie) (n : Nat) : Bool :=
  s.bit Obj.cageStatus d.die n 3 && !s.bit Obj.cageStatus d.die n 7 && !s.bit Obj.cageStatus d.die n 8

/-- Step 5 begins where the cage's lanes are to be active in a mode (R112): the module is asked for high power, and `_LPM` goes low. -/
def State.powerUpCage (s : State) (d : MDie) (n : Nat) (m : Mode) : State :=
  if (s.cage d n).step == .identified && s.cageReady d n && s.cageActive d n m then
    (s.cmis d n [.lowPower false false]).updCage d n (fun c => { c with step := .powering, lpm := false })
  else s

/-- The cages of a die follow a mode: those whose lanes become active run steps 5 and 6 (R112). -/
def State.cagesFollow (s : State) (d : MDie) (m : Mode) : State :=
  (List.range 8).foldl (fun (s : State) n => s.powerUpCage d n m) s

/-- The CMIS writes of a data path start (R100, R102, R111): the application of each lane, then the row's module-side targets, with
adaptive equalization off; a field whose control the module does not advertise is skipped. -/
def State.dataPathWrites (s : State) (d : MDie) (n : Nat) : List CmisWrite :=
  match (s.cage d n).info with
  | none => []
  | some m =>
    let lanes := ((s.cageLanes d n).zipIdx).filter (fun lk => decide (2 ≤ s.laneAsked d lk.1 s.mode))
    let hosts := lanes.map (fun lk => lk.2 + 1)
    .dpConfig hosts :: lanes.flatMap (fun lk =>
      let v := ((s.lane d lk.1).eq).getD 0
      let k := lk.2 + 1
      (if m.hasInEq then [CmisWrite.adaptiveOff k, .inputEq k (bitsOf v 31 28)] else [])
        ++ (if m.hasPre then [CmisWrite.outPre k (bitsOf v 23 20)] else [])
        ++ (if m.hasPost then [CmisWrite.outPost k (bitsOf v 19 16)] else [])
        ++ (if m.hasAmp then [CmisWrite.outAmp k (bitsOf v 27 24)] else [])) ++ [.applyInit hosts]
/-- Identification (R111–R113, R117): steps 3 and 4, and the start of step 5 where the cage's lanes are to be
active. -/
def State.identify (s : State) (d : MDie) (cage : Nat) (m : ModuleInfo) : State :=
  let s := s.wrBytes Obj.cageModuleId d.die cage (m.vendor ++ m.oui ++ m.part ++ m.rev ++ m.serial ++ m.date)
  let s := s.setBit Obj.cageStatus d.die cage 1
  let twin := s.wearTwin d cage m
  let s := s.updCage d cage (fun c => { c with step := .identified, info := some m, noAck := 0 })
  let s := if m.revision < 0x40 then
      (s.setBit Obj.cageStatus d.die cage 7).raise .c 0x1319 cage (p16 [cage, 1])
    else if ¬ m.appMatches then (s.setBit Obj.cageStatus d.die cage 7).raise .c 0x1319 cage (p16 [cage, 2])
    else s
  let s := s.selectRow d cage m
  let s := if s.rdN Obj.cagePowerMax d.die cage < m.maxPower then
      (s.setBit Obj.cageStatus d.die cage 8).raise .c 0x1314 cage (p16 [cage, m.maxPower])
    else s
  let s := match twin with
    | some other => (s.wr Obj.cageWearRecord d.die cage 0xFFFF).raise .c 0x1318 cage (p16 [cage, other])
    | none =>
      let (n, replaced) := s.wearSlot m
      let s := if replaced then s.raise .c 0x1321 n (p16 [n]) else s
      let old := s.rdBytes Obj.wearRecord .p n
      let r := if wearKeyIs old m then wearSet old 42 6 s.seconds else wearNew m s.seconds
      (s.wrBytes Obj.wearRecord .p n r).wr Obj.cageWearRecord d.die cage (n : Nat)
  let s := s.raise .c 0x1312 cage
    (p16 [cage, s.rd Obj.cageModuleClass d.die cage, s.rd Obj.cageWearRecord d.die cage])
  let s := if s.cageOff d cage then (s.cageLanes d cage).foldl (fun (s : State) l => s.laneOff d l) s else s
  s.powerUpCage d cage s.mode

/-- MODULE_STATE_POLL (R112, steps 2–4): `lowPwr` says the module reports ModuleLowPwr, `info` what identification
then reads; each poll is acknowledged. -/
def execModuleStatePoll (d : MDie) (cage : Fin 8) (lowPwr : Bool) (info : ModuleInfo) (s : State) : Out :=
  when (s.busOpen d cage.val && (s.cage d cage.val).step == .polling) s
    (if lowPwr then s.identify d cage.val info else s.cageAck d cage.val)

/-- MODULE_READY_TIMEOUT (R112): no ModuleLowPwr within 2,000 ms. -/
def execModuleReadyTimeout (d : MDie) (cage : Fin 8) (st : Nat) (s : State) : Out :=
  when (s.serverUp && s.cageServed d cage.val && (s.cage d cage.val).step == .polling) s
    ((s.updCage d cage.val (fun c => { c with step := .stuck })).raise .c 0x1315 cage.val (p16 [cage.val, st]))

/-- MODULE_READY (R112, steps 5 and 6): the module is in high power, its data path is configured and applied, and its host lanes leave
deep for what the mode wants. -/
def execModuleReady (d : MDie) (cage : Fin 8) (s : State) : Out :=
  when (s.busOpen d cage.val && (s.cage d cage.val).step == .powering) s
    (let s := (s.setBit Obj.cageStatus d.die cage.val 2).updCage d cage.val (fun c => { c with step := .dataPath, noAck := 0 })
     let s := s.cmis d cage.val (s.dataPathWrites d cage.val)
     (s.cageLanes d cage.val).foldl (fun s l => s.requestLane d l (s.laneWanted d l s.mode)) s)

/-- DATAPATH_ACTIVATED (R112, step 6): the module reports its data path as activated. -/
def execDatapathActivated (d : MDie) (cage : Fin 8) (s : State) : Out :=
  when (s.busOpen d cage.val && (s.cage d cage.val).step == .dataPath) s
    ((s.setBit Obj.cageStatus d.die cage.val 4).updCage d cage.val (fun c => { c with step := .done, noAck := 0 }))

/-- MODULE_INTERRUPT (R113): the latched flags read after `_INT_N`, as page and byte (page × 256 + byte) and value;
the data path stays as it is. -/
def execModuleInterrupt (d : MDie) (cage : Fin 8) (flags : List (Nat × Nat)) (s : State) : Out :=
  when (s.busOpen d cage.val && s.bit Obj.cageStatus d.die cage.val 1) s
    ((flags.filter (fun f => f.2 != 0)).foldl (fun s f =>
      (s.setBit Obj.cageSticky d.die cage.val 2).raise .c 0x1316 cage.val (p16 [cage.val, f.1, f.2])) (s.cageAck d cage.val))

/-- MGMT_BUS_NO_ACK (R113): a transaction, or a retry of it, without acknowledge; the fourth in a row, after 3 retries, is a fault. -/
def execMgmtBusNoAck (d : MDie) (cage : Fin 8) (s : State) : Out :=
  when (s.busOpen d cage.val && s.bit Obj.cageStatus d.die cage.val 0) s
    (let k := (s.cage d cage.val).noAck + 1
     let s := s.updCage d cage.val (fun c => { c with noAck := k })
     if k ≤ 3 then s
     else
       ((s.setBit Obj.cageStatus d.die cage.val 5).setBit Obj.cageSticky d.die cage.val 3
         |>.updCage d cage.val (fun c => { c with stale := true })).raise .c 0x1317 cage.val (p16 [cage.val]))

/-- MGMT_BUS_RETRY (R113): the retry of a faulted bus every 10 s; `ok` says it was acknowledged. -/
def execMgmtBusRetry (d : MDie) (cage : Fin 8) (ok : Bool) (s : State) : Out :=
  when (s.serverUp && s.up d.pdie && s.cageServed d cage.val && s.bit Obj.cageStatus d.die cage.val 5 && ok) s
    ((s.clrBit Obj.cageStatus d.die cage.val 5).updCage d cage.val (fun c => { c with noAck := 0 }))

/-- MONITOR_POLL (R110, R113, R115): skipped and counted when delayed beyond 1 s; otherwise the temperature in sQ8.8
and one laser bias per lane. -/
def execMonitorPoll (d : MDie) (cage : Fin 8) (delayed : Bool) (temp : Int) (bias : List Nat) (s : State) : Out :=
  when (s.busOpen d cage.val && s.bit Obj.cageStatus d.die cage.val 1) s
    (if delayed then s.bump Obj.cagePollSkipCount d.die cage.val
     else
       (s.wr Obj.cageModuleTemp d.die cage.val temp).updCage d cage.val (fun c =>
         { c with noAck := 0, stale := false, polls := c.polls + 1,
                  biasSum := (List.range 8).map (fun k => c.biasSum.getD k 0 + bias.getD k 0) }))

/-- The cages whose module is in high power and holds a wear record. -/
def State.wearCages (s : State) : List (MDie × Nat) :=
  ([MDie.a, MDie.b].flatMap (fun d => (List.range 8).map (fun n => (d, n)))).filter (fun p =>
    s.bit Obj.cageStatus p.1.die p.2 2 && s.rdN Obj.cageWearRecord p.1.die p.2 != 0xFFFF)

/-- A pre-failure condition is met once: the event, the record's flag, CAGE.STATUS bit 6, CAGE.STICKY bit 4
(R116). Reason 1 flags bit 5, 2 bit 4, 3 bit 3. -/
def State.wearWarn (s : State) (d : MDie) (cage n reason : Nat) (met : Bool) (value : Int) : State :=
  let r := s.rdBytes Obj.wearRecord .p n
  let bit := 6 - reason
  if met ∧ ¬ (fieldAt r 3 1).testBit bit then
    let s := s.wrBytes Obj.wearRecord .p n (wearSet r 3 1 (withBit (fieldAt r 3 1) bit true))
    ((s.setBit Obj.cageStatus d.die cage 6).setBit Obj.cageSticky d.die cage 4).raise .c 0x1320 cage
      (payloadOf [(16, cage), (16, n), (16, reason), (32, value)])
  else s

/-- The minute and heat conditions of R116 for a record. Event 0x1320 carries the record's count, in minutes (DESIGN CHOICE,
assumption 86). -/
def State.wearMinuteWarn (s : State) (d : MDie) (cage n : Nat) : State :=
  let r := s.rdBytes Obj.wearRecord .p n
  let on := fieldAt r 48 4
  let hot := fieldAt r 52 4
  let s := s.wearWarn d cage n 2 (decide (60 * s.rdN Obj.wearHoursLimit .p 0 ≤ on)) on
  s.wearWarn d cage n 3 (decide (60 * s.rdN Obj.wearHotLimit .p 0 ≤ hot)) hot

/-- WEAR_MINUTE_UPDATE (R115, R116). A stale monitor adds nothing to heat and temperature. -/
def execWearMinuteUpdate (s : State) : Out :=
  when s.serverUp s
    (s.wearCages.foldl (fun s p =>
      let (d, cage) := p
      let n := s.rdN Obj.cageWearRecord d.die cage
      let r := s.rdBytes Obj.wearRecord .p n
      let t := shrFlr (s.rd Obj.cageModuleTemp d.die cage) 8
      let stale := (s.cage d cage).stale
      let r := wearSet r 48 4 (fieldAt r 48 4 + 1)
      let r := if stale then r else
        let r := if (s.rdN Obj.wearHotTemp .p 0 : Int) * 256 ≤ s.rd Obj.cageModuleTemp d.die cage
          then wearSet r 52 4 (fieldAt r 52 4 + 1) else r
        wearSet r 56 4 (fieldAt r 56 4 + (satU t 31).toNat)
      let r := wearSet r 42 6 s.seconds
      (s.wrBytes Obj.wearRecord .p n r).wearMinuteWarn d cage n) s)

/-- The hourly averages of a record: `div_flr(sum, n)` for each lane with a bias monitor, nothing where no poll was
valid (R115). -/
def wearAverages (r : List Byte) (c : CageSt) : List Byte :=
  match c.info with
  | none => r
  | some m =>
    if c.polls = 0 then r
    else (List.range m.biasLanes).foldl (fun r k => wearSet r (80 + 2 * k) 2 (c.biasSum.getD k 0 / c.polls % 65536)) r

/-- The baseline is set once, from the first hourly average after POWER.ON.MIN reaches 1,440 (R115). -/
def wearBaseline (r : List Byte) (c : CageSt) : List Byte :=
  if c.polls ≠ 0 ∧ 1440 ≤ fieldAt r 48 4 ∧ ¬ (fieldAt r 3 1).testBit 6 then
    wearSet (overlay r 64 (bytesAt r 80 16)) 3 1 (withBit (fieldAt r 3 1) 6 true)
  else r

/-- The drift of each lane that has one, in permille (R115). -/
def wearDrifts (r : List Byte) (lanes : Nat) : List (Int × Nat) :=
  if ¬ (fieldAt r 3 1).testBit 6 then []
  else ((List.range lanes).filter (fun k => decide (1 ≤ fieldAt r (64 + 2 * k) 2))).map (fun k =>
    let base : Int := fieldAt r (64 + 2 * k) 2
    let avg : Int := fieldAt r (80 + 2 * k) 2
    (divFlr ((avg - base) * 1000) base, k))

/-- The largest drift, with its lane. -/
def wearMax : List (Int × Nat) → Option (Int × Nat)
  | [] => none
  | x :: xs => some (xs.foldl (fun b y => if b.1 < y.1 then y else b) x)

/-- The sums of an hour start over in every cage (R115). -/
def State.wearHourOver (s : State) : State :=
  [MDie.a, MDie.b].foldl (fun (s : State) d => s.updMd d (fun m =>
    { m with cages := m.cages.map (fun e => (e.1, { e.2 with biasSum := List.replicate 8 0, polls := 0 })) })) s

/-- WEAR_HOUR_UPDATE (R115, R116). A drift outside S16 has no stated value in the record (assumption 4). -/
def execWearHourUpdate (s : State) : Out :=
  when s.serverUp s
    ((s.wearCages.foldl (fun s p =>
      let (d, cage) := p
      let n := s.rdN Obj.cageWearRecord d.die cage
      let c := s.cage d cage
      let r := wearBaseline (wearAverages (s.rdBytes Obj.wearRecord .p n) c) c
      let lanes := (c.info.map (·.biasLanes)).getD 0
      match wearMax (wearDrifts r lanes) with
      | none => (s.wrBytes Obj.wearRecord .p n (wearSet r 42 6 s.seconds)).wearMinuteWarn d cage n
      | some (dr, lane) =>
        let (v, s) := if -32768 ≤ dr ∧ dr ≤ 32767 then (dr, s) else
          let (f, s) := s.free 16
          (signed 16 f, s)
        let r := wearSet (wearSet r 60 2 (lowBits 16 v)) 62 1 lane
        let s := s.wrBytes Obj.wearRecord .p n (wearSet r 42 6 s.seconds)
        let s := s.wearWarn d cage n 1 (decide ((s.rdN Obj.wearBiasLimit .p 0 : Int) ≤ v)) v
        s.wearMinuteWarn d cage n) s).wearHourOver)

/-- The wear records in MRAM become the running ones (R115). -/
def State.flushWear (s : State) : State :=
  { s with mram := { s.mram with blobs :=
      (s.blobs.filter (fun e => e.1.index == 0x1320)).foldl (fun m e => mapPut m e.1 e.2) s.mram.blobs } }

/-- WEAR_RECORD_FLUSH (R115). -/
def execWearRecordFlush (s : State) : Out := when (s.up .c) s s.flushWear

/-- A module that is in high power or on its way goes to low power, its data path stopped (R111, R112). -/
def State.powerDownCage (s : State) (d : MDie) (n : Nat) : State :=
  let x := (s.cage d n).step
  if x ∈ [CageStep.powering, .dataPath, .done] then
    let hosts := (List.range (s.cageLanes d n).length).map (· + 1)
    let s := if x = .powering then s else s.cmis d n [.deinit hosts]
    (((s.cmis d n [.lowPower false true]).clrBit Obj.cageStatus d.die n 2).clrBit Obj.cageStatus d.die n 4).updCage d n
      (fun c => { c with step := .identified })
  else s

/-- Modules go to low power on entry to STANDBY, but where CAGE.STANDBY.KEEP is 1 (R112). -/
def State.modulesStandby (s : State) : State :=
  ([MDie.a, MDie.b].flatMap (fun d => (List.range 8).map (fun n => (d, n)))).foldl (fun s p =>
    if s.up p.1.pdie && s.rdN Obj.cageStandbyKeep p.1.die p.2 == 0 then s.powerDownCage p.1 p.2 else s) s

/-- A cage is no longer served (R94): the FLP8840 leaves its module alone and holds `_RST_N` low. -/
def State.cageUnserved (s : State) (d : MDie) (n : Nat) : State :=
  let s := s.updCage d n (fun _ => CageSt.start)
  ((s.wr Obj.cageStatus d.die n 0).wr Obj.cageModuleClass d.die n 0xFF).wr Obj.cageWearRecord d.die n 0xFFFF

end Sys2Proof.Machine
end

