-- ==== Sys2Proof/Machine/Stream.lean ====
section
/-! DEFINITION. Flows, the duplicate merge, queues and the cell pool (R120–R135, R139). -/

namespace Sys2Proof.Machine

/-! ### Descriptors (R126–R128) -/

/-- Bits `[hi:lo]` of a 64-byte descriptor. -/
def descBits (b : List Byte) (hi lo : Nat) : Nat := bitsOf (beNat b) hi lo

/-- KIND of a descriptor (R123, R126). -/
def descKind (b : List Byte) : Nat := descBits b 511 508

/-- LEG1.PORT and LEG2.PORT of a descriptor, counted 1 and 2; 0xFF is no leg. -/
def descPort (b : List Byte) (leg : Nat) : Nat := if leg = 1 then descBits b 495 488 else descBits b 487 480

/-- LEGn.VLAN. -/
def descVlan (b : List Byte) (leg : Nat) : Nat := if leg = 1 then descBits b 479 464 else descBits b 463 448

/-- LEGn.DST. -/
def descDst (b : List Byte) (leg : Nat) : Nat := if leg = 1 then descBits b 447 416 else descBits b 383 352

/-- LEGn.SRC of an ingress descriptor. -/
def descSrc (b : List Byte) (leg : Nat) : Nat := if leg = 1 then descBits b 415 384 else descBits b 351 320

/-- LEGn.UDP. -/
def descUdp (b : List Byte) (leg : Nat) : Nat := if leg = 1 then descBits b 319 304 else descBits b 303 288

/-- The legs of a descriptor. -/
def descLegs (b : List Byte) : List Nat := if descPort b 2 = 0xFF then [1] else [1, 2]

/-- QUEUE of an ingress descriptor, QUEUE1 and QUEUE2 of an egress one. -/
def descQueue (b : List Byte) (leg : Nat) : Nat := if leg = 2 then descBits b 223 212 else descBits b 191 180

/-- TARGET of an ingress descriptor, SOURCE of an egress one. -/
def descTarget (b : List Byte) : Nat := descBits b 175 160

/-- MERGE.DEPTH and LEG.TIMEOUT of an ingress descriptor, CHANNELS of either. -/
def descDepth (b : List Byte) : Nat := descBits b 223 208
def descTimeout (b : List Byte) : Nat := descBits b 207 192
def descChannels (b : List Byte) : Nat := descBits b 231 224

/-- SAMPLING, DEPTH, COLORIMETRY, TCS, RANGE (R127). -/
def descSampling (b : List Byte) : Nat := descBits b 255 252
def descBitDepth (b : List Byte) : Nat := descBits b 251 248
def descColor (b : List Byte) : Nat := descBits b 247 244
def descTcs (b : List Byte) : Nat := descBits b 243 240
def descRange (b : List Byte) : Nat := descBits b 239 238

/-- SEQ.INIT of an egress descriptor (R128). -/
def descSeqInit (b : List Byte) : Nat := descBits b 399 384

/-- Descriptors are in force from leaving CONFIGURE until the next entry into it or STANDBY (R129, R130). -/
def State.inForce (s : State) : Bool :=
  match s.mode with | .service => true | .selvedge => true | .test => true | .recovery => true | _ => false

/-- The instant from which the stop rule stops the streams of a die: all of them toward CONFIGURE, those of Die B toward SELVEDGE
(R482, R483). -/
def State.stopFrom (s : State) (d : MDie) : Option Nat :=
  match s.trans with
  | none => none
  | some t => if t.target = .selvedge ∧ d = .a then none else some t.instant

/-- The ingress descriptor of a flow. -/
def State.inDesc (s : State) (d : MDie) (f : Nat) : List Byte := s.rdBytes Obj.flowInDesc d.die f

/-- The egress descriptor of a flow. -/
def State.outDesc (s : State) (d : MDie) (f : Nat) : List Byte := s.rdBytes Obj.flowOutDesc d.die f

/-- The declared ingress and egress flows. -/
def State.inFlows (s : State) (d : MDie) : List Nat := s.listedBytes Obj.flowInDesc d.die (fun _ b => descKind b != 0)
def State.outFlows (s : State) (d : MDie) : List Nat := s.listedBytes Obj.flowOutDesc d.die (fun _ b => descKind b != 0)

/-! ### State of the network block -/

/-- A queue that holds nothing, with the defaults of its objects in force. Its token bucket is unshaped and full (DESIGN CHOICE, assumption
94). -/
def QueueSt.start : QueueSt :=
  { limit := 256, reserve := 0, cls := 5, quantum := 9216, overhead := 20, pkts := [], taken := 0, deficit := 0, rem := 0, rate := 0,
    burst := 9216, held := false }

/-- An ingress flow that has not started. -/
def FlowInSt.start : FlowInSt :=
  { started := false, high := 0, unseen := [], done := [], runSeq := 0, runLen := 0, frame := 0, ts := none, cur := [], shown := [],
    offRun := 0, goodFrames := 0 }

/-- A port with the address objects' defaults. -/
def PortSt.start : PortSt :=
  { mac := 0, ip := 0, prefixLen := 24, gateway := 0, maxUdp := 0, fifo := [], arp := [], echoSecond := 0, echoes := 0,
    ring := [], tx := none, gates := none, pending := none }

/-- A state with the network block of a die changed. -/
def State.updNet (s : State) (d : MDie) (f : NetSt → NetSt) : State := s.updMd d (fun m => { m with net := f m.net })

/-- The network block's parts. -/
def State.queue (s : State) (d : MDie) (q : Nat) : QueueSt := tabGet (s.md d).net.queues q QueueSt.start
def State.flowIn (s : State) (d : MDie) (f : Nat) : FlowInSt := tabGet (s.md d).net.flowsIn f FlowInSt.start
def State.port (s : State) (d : MDie) (p : Nat) : PortSt := tabGet (s.md d).net.ports p PortSt.start
def State.flowOut (s : State) (d : MDie) (f : Nat) : FlowOutSt :=
  tabGet (s.md d).net.flowsOut f { seq := descSeqInit (s.outDesc d f), run := false, pend := none, since := 0, resume := false }

/-- A state with a part of the network block changed. -/
def State.updQueue (s : State) (d : MDie) (q : Nat) (f : QueueSt → QueueSt) : State :=
  s.updNet d (fun n => { n with queues := tabSet n.queues q (f (s.queue d q)) })
def State.updFlowIn (s : State) (d : MDie) (k : Nat) (f : FlowInSt → FlowInSt) : State :=
  s.updNet d (fun n => { n with flowsIn := tabSet n.flowsIn k (f (s.flowIn d k)) })
def State.updFlowOut (s : State) (d : MDie) (k : Nat) (f : FlowOutSt → FlowOutSt) : State :=
  s.updNet d (fun n => { n with flowsOut := tabSet n.flowsOut k (f (s.flowOut d k)) })
def State.updPort (s : State) (d : MDie) (p : Nat) (f : PortSt → PortSt) : State :=
  s.updNet d (fun n => { n with ports := tabSet n.ports p (f (s.port d p)) })

/-! ### The cell pool (R134, R135) -/

/-- Cells of a packet of `n` bytes from the IPv4 header. -/
def cellsOf (n : Nat) : Nat := (n + 16 + 255) / 256

/-- Depth of a queue in cells. -/
def State.depth (s : State) (d : MDie) (q : Nat) : Nat := s.rdN Obj.queDepth d.die q

/-- RESERVE not used by a queue. -/
def State.unusedOf (s : State) (d : MDie) (q : Nat) : Nat := (s.queue d q).reserve - s.depth d q

/-- The sum over all queues of max(0, RESERVE − depth); a queue that is not listed reserves nothing. -/
def State.unusedReserve (s : State) (d : MDie) : Nat :=
  sumOver ((s.md d).net.queues.filter (fun e => e.2.reserve != 0)) (fun e => e.2.reserve - s.depth d e.1)

/-- A queue admits a packet of `c` cells (R135). -/
def State.admits (s : State) (d : MDie) (q c : Nat) : Bool :=
  decide (s.depth d q + c ≤ (s.queue d q).limit)
    && decide (c + s.unusedReserve d ≤ s.unusedOf d q + s.rdN Obj.poolFree d.die 0)

/-- A queue's depth becomes `n`: the pool's free count, QUE.STATUS bit 1 and the watermark follow (R134, R398). -/
def State.setDepth (s : State) (d : MDie) (q n : Nat) : State :=
  let old := s.depth d q
  let s := s.wr Obj.poolFree d.die 0 (((s.rdN Obj.poolFree d.die 0 + old - n : Nat)) : Int)
  let s := s.wr Obj.queDepth d.die q (n : Nat)
  let s := s.putBit Obj.queStatus d.die q 1 (decide ((s.queue d q).limit ≤ n))
  s.watermark d .queue q n

/-- A packet that its queue does not admit is discarded whole (R135). -/
def State.refusePkt (s : State) (d : MDie) (q flow : Nat) (egress : Bool) : State :=
  let told := s.bit Obj.queSticky d.die q 1
  let s := (s.bump Obj.queDropCount d.die q).setBit Obj.queSticky d.die q 1
  let s := if egress ∧ flow < 4096 then s.setBit Obj.flowOutSticky d.die flow 0 else s
  if told then s else s.raise d.pdie (if egress then 0x1412 else 0x1411) q (p16 [q, flow])

/-- QUEUE_ADMISSION (R135): a packet is queued whole or discarded whole. -/
def State.enqueue (s : State) (d : MDie) (q : Nat) (p : Pkt) (egress : Bool) : State :=
  let c := cellsOf p.len
  if s.admits d q c then
    (s.updQueue d q (fun x => { x with pkts := x.pkts ++ [p] })).setDepth d q (s.depth d q + c)
  else s.refusePkt d q p.flow egress

/-- The head packet leaves its queue and its remaining cells are free (R397). -/
def State.dequeue (s : State) (d : MDie) (q : Nat) : State :=
  match (s.queue d q).pkts with
  | [] => s
  | p :: rest =>
    let left := cellsOf p.len - (s.queue d q).taken
    (s.updQueue d q (fun x => { x with pkts := rest, taken := 0 })).setDepth d q (s.depth d q - left)

/-! ### The duplicate merge (R131) -/

/-- Signed distance of two RTP sequence numbers. -/
def seqDist (seq high : Nat) : Int := (((seq : Int) - high + 32768) % 65536) - 32768

/-- What the merge stage does with a packet. -/
inductive MergeAct where
  | deliver | dup | late
  /-- delivered after a resynchronization -/
  | resync
deriving DecidableEq, Repr

/-- The numbers from `high + 1` to `seq − 1`, of which there are `n − 1` when `seq` lies `n` above `high`. -/
def numbersBetween (high n : Nat) : List Nat := (List.range (n - 1)).map (fun k => (high + 1 + k) % 65536)

/-- The numbers of a list that lie in the window of `depth` at and below `high`. -/
def inWindow (high depth : Nat) (l : List Nat) : List Nat :=
  l.filter (fun n => decide (-(depth : Int) < seqDist n high) && decide (seqDist n high ≤ 0))

/-- A window resynchronized at `seq`: every other number CLOSED. -/
def FlowInSt.restart (f : FlowInSt) (seq : Nat) : FlowInSt :=
  { f with started := true, high := seq, unseen := [], done := [seq], runLen := 0 }

/-- The merge rule of R131: the flow after a packet, the action, and the sequence numbers counted as gaps. -/
def mergeStep (f : FlowInSt) (depth seq : Nat) : FlowInSt × MergeAct × Nat :=
  if ¬ f.started then (f.restart seq, .deliver, 0)
  else
    let dist := seqDist seq f.high
    if 0 < dist ∧ dist < depth then
      let unseen := f.unseen ++ numbersBetween f.high dist.toNat
      let kept := inWindow seq depth unseen
      ({ f with high := seq, unseen := kept, done := inWindow seq depth (f.done ++ [seq]), runLen := 0 }, .deliver,
        unseen.length - kept.length)
    else if (depth : Int) ≤ dist then (f.restart seq, .resync, f.unseen.length)
    else if -(depth : Int) < dist then
      if seq ∈ f.done then ({ f with runLen := 0 }, .dup, 0)
      else if seq ∈ f.unseen then
        ({ f with unseen := f.unseen.filter (fun n => n != seq), done := f.done ++ [seq], runLen := 0 }, .deliver, 0)
      else ({ f with runLen := 0 }, .late, 0)
    else
      let len := if 0 < f.runLen ∧ seq = (f.runSeq + 1) % 65536 then f.runLen + 1 else 1
      if 8 ≤ len then (f.restart seq, .resync, f.unseen.length)
      else ({ f with runSeq := seq, runLen := len }, .late, 0)

/-! ### Legs and flows up and down (R132) -/

/-- A packet arrives on a leg: the leg and the flow come up where they were down. -/
def State.legUp (s : State) (d : MDie) (f leg : Nat) : State :=
  let s := if s.bit Obj.flowInStatus d.die f leg then s
    else (s.setBit Obj.flowInStatus d.die f leg).raise d.pdie 0x1404 f (p16 [f, leg])
  if s.bit Obj.flowInStatus d.die f 0 then s
  else (s.setBit Obj.flowInStatus d.die f 0).raise d.pdie 0x1401 f (p16 [f])

/-- LEG_TIMEOUT (R132), the network block's part: no packet on a leg for LEG.TIMEOUT. -/
def State.legDown (s : State) (d : MDie) (f leg : Nat) : State :=
  if ¬ s.bit Obj.flowInStatus d.die f leg then s
  else
    let s := ((s.clrBit Obj.flowInStatus d.die f leg).setBit Obj.flowInSticky d.die f 1).raise d.pdie 0x1403 f (p16 [f, leg])
    if s.bit Obj.flowInStatus d.die f 1 || s.bit Obj.flowInStatus d.die f 2 then s
    else ((s.clrBit Obj.flowInStatus d.die f 0).setBit Obj.flowInSticky d.die f 0).raise d.pdie 0x1402 f (p16 [f])

/-- A packet's legs are counted, and it passes the merge stage (R131): the action with the state after it. -/
def State.merge (s : State) (d : MDie) (f leg : Nat) (seq : Nat) : State × MergeAct :=
  let s := s.bump (if leg = 1 then Obj.flowInLeg1Count else Obj.flowInLeg2Count) d.die f
  let s := s.legUp d f leg
  let (st, act, gaps) := mergeStep (s.flowIn d f) (descDepth (s.inDesc d f)) seq
  let s := s.updFlowIn d f (fun _ => st)
  let s := if gaps = 0 then s else (s.addCount Obj.flowInGapCount d.die f gaps).setBit Obj.flowInSticky d.die f 4
  match act with
  | .dup => (s.bump Obj.flowInDupCount d.die f, act)
  | .late => (s.bump Obj.flowInLateCount d.die f, act)
  | .deliver => (s.bump Obj.flowInCount d.die f, act)
  | .resync =>
    ((((s.bump Obj.flowInCount d.die f).bump Obj.flowInResyncCount d.die f).setBit Obj.flowInSticky d.die f 2).raise d.pdie
      0x1405 f (p16 [f, seq]), act)

/-- Bytes from the IPv4 header of a datagram: 20 of IPv4, 8 of UDP. -/
def udpTotal (size : Nat) : Nat := size + 28

/-- A delivered packet asks its flow's queue for cells (R131, R135). -/
def State.queueIngress (s : State) (d : MDie) (f leg : Nat) (u : Udp) : State :=
  s.enqueue d (descQueue (s.inDesc d f) 1)
    { kind := .media, port := 0, flow := f, leg := leg, len := udpTotal u.size, rtp := u.rtp, arrival := s.now d.pdie,
      poison := false, release := none, interval := 0, ready := true } false

/-! ### The video depacketizer (R124, R133) -/

/-- Active size of a family: width and height (R124). -/
def activeSize (fam : Nat) : Nat × Nat :=
  match fam with
  | 1 => (720, 486) | 2 => (720, 576) | 3 => (1280, 720) | 4 => (1920, 1080) | 5 => (1920, 1080) | 6 => (3840, 2160)
  | 7 => (7680, 4320) | _ => (0, 0)

/-- Key of a picture position. -/
def pixKey (row col : Nat) : Nat := row * 16384 + col

/-- Black at a depth and range, in YCbCr or RGB (R133). -/
def blackPix (depth range : Nat) (rgb : Bool) : Pix :=
  let y := if range = 1 then 0 else 16 * 2 ^ (depth - 8)
  if rgb then ⟨y, y, y⟩ else ⟨y, 2 ^ (depth - 1), 2 ^ (depth - 1)⟩

/-- Bits of a DEPTH code (R127). -/
def depthBits (c : Nat) : Nat := match c with | 0 => 8 | 1 => 10 | _ => 12

/-- The samples of a header placed in a picture. -/
def placeSeg (t : Tab Pix) (g : Seg) : Tab Pix :=
  (g.pix.zipIdx).foldl (fun t pk => tabSet t (pixKey g.row (g.col + pk.2)) pk.1) t

/-- A position of a picture whose missing samples are replaced (R133): the sample received, or the nearest one before it on its line, or
`lead` where none precedes; black on a line of which nothing arrived. -/
def concealAt (t : Tab Pix) (black : Pix) (lead : Nat → Pix) (row col : Nat) : Pix :=
  match (List.range (col + 1)).reverse.findSome? (fun c => (t.find? (fun e => e.1 == pixKey row c)).map (·.2)) with
  | some p => p
  | none => if t.any (fun e => decide (e.1 / 16384 = row)) then lead row else black

/-- Some rows of a picture with their missing samples replaced (R133). -/
def concealRows (t : Tab Pix) (rows : List Nat) (width : Nat) (black : Pix) (lead : Nat → Pix) : Tab Pix :=
  rows.flatMap (fun row => (List.range width).map (fun c => (pixKey row c, concealAt t black lead row c)))

/-- What replaces a missing sample that no received one precedes, in a frame (R133). -/
def leadPix (frame : Nat) (row : Nat) : Pix :=
  let v := Config.leadSample frame row
  ⟨v, v, v⟩

/-- The raster line of a row of the frame (R74): the rows of an interlaced frame lie in its two fields in turn. -/
def rowLine (fam row : Nat) : Nat :=
  if interlaced fam then
    (if row % 2 = 0 then (activeLines1 fam).1 else ((activeLines2 fam).map (·.1)).getD 1) + row / 2
  else (activeLines1 fam).1 + row

/-- The 90 kHz timestamp of a raster frame's alignment point (R133, R305). -/
def rtpOf (f : Format) (m : Nat) : Nat := m * 90000 * f.den / f.num % 2 ^ 32

/-- Signed distance of two RTP timestamps. -/
def tsDist (a b : Nat) : Int := (((a : Int) - b + 2 ^ 31) % 2 ^ 32) - 2 ^ 31

/-- The timestamp rule of R133 and R157 for a synchronous frame: three consecutive frames more than one tick away set
FLOW.IN.STATUS bit 3, three on the raster clear it. -/
def State.checkTimestamp (s : State) (d : MDie) (f ts : Nat) : State :=
  let fm := fmt (s.rdN Obj.flowInFormat d.die f)
  let c := coordOf fm (s.rdN Obj.flowInOfs d.die f) (s.now d.pdie)
  let off := tsDist ts (rtpOf fm (c.frame - 1))
  let st := s.flowIn d f
  if 1 < mag off then
    let n := st.offRun + 1
    let s := s.updFlowIn d f (fun x => { x with offRun := n, goodFrames := 0 })
    if n = 3 ∧ ¬ s.bit Obj.flowInStatus d.die f 3 then
      ((s.setBit Obj.flowInStatus d.die f 3).setBit Obj.flowInSticky d.die f 3).raise d.pdie 0x1406 f
        (payloadOf [(16, f), (32, off)])
    else s
  else
    let n := st.goodFrames + 1
    let s := s.updFlowIn d f (fun x => { x with offRun := 0, goodFrames := n })
    if 3 ≤ n then s.clrBit Obj.flowInStatus d.die f 3 else s

/-- FLOW_SWITCH_LINE (R133), the depacketizer's part: the frame received until now is completed. A missing sample with no received one
before it on its line takes a value the spec does not state (`Config.leadSample`). -/
def State.completeFrame (s : State) (d : MDie) (f : Nat) : State :=
  let b := s.inDesc d f
  let st := s.flowIn d f
  let (w, h) := activeSize (s.rdN Obj.flowInFormat d.die f / 256)
  let black := blackPix (depthBits (descBitDepth b)) (descRange b) (descSampling b == 2)
  let fm := fmt (s.rdN Obj.flowInFormat d.die f)
  let now := (coordOf fm (s.rdN Obj.flowInOfs d.die f) (s.now d.pdie)).frame
  let s := s.addCount Obj.flowInConcealCount d.die f (w * h - st.cur.length)
  let s := match st.ts with
    | some ts => if descBits b 507 507 = 1 then s.checkTimestamp d f ts else s
    | none => s
  s.updFlowIn d f (fun x =>
    { x with frame := now, ts := none, cur := [], shown := concealRows st.cur (List.range h) w black (leadPix (now - 1)) })

/-! ### Egress flows (R128, R139) -/

/-- The raster of an egress flow: format and offset. -/
def State.outRaster (s : State) (d : MDie) (f : Nat) : Format × Nat :=
  (fmt (s.rdN Obj.flowOutFormat d.die f), s.rdN Obj.flowOutOfs d.die f)

/-- FLOW.OUT.STATE (R143): 0 stopped, 1 start pending, 2 running, 3 stop pending, 4 held. -/
def State.outState (s : State) (d : MDie) (f : Nat) : Nat := s.rdN Obj.flowOutState d.die f

/-- The instant at or after which a control requested now lands: the flow raster's next switch line for a video
flow, and for the others the packet boundary that follows the same instant (R139). -/
def State.controlInstant (s : State) (d : MDie) (f : Nat) (from_ : Instant) : Nat :=
  let (fm, ofs) := s.outRaster d f
  (instantOf fm ofs (landing fm ofs (switchLine fm.family) from_)).ceilNs

/-- An egress flow is requested to start or stop from an instant on (R139): a later control replaces a pending one. -/
def State.flowControl (s : State) (d : MDie) (f : Nat) (start : Bool) (from_ : Instant) : State :=
  let st := s.outState d f
  if (start ∧ st = 2) ∨ (start = false ∧ st = 0) then s
  else
    let t := s.controlInstant d f from_
    let s := s.updFlowOut d f (fun x => { x with pend := some (start, t) })
    s.wr Obj.flowOutState d.die f (if start then 1 else 3)

/-- An egress flow is declared and in force. -/
def State.outLive (s : State) (d : MDie) (f : Nat) : Bool := s.inForce && descKind (s.outDesc d f) != 0

/-- FLOW_OUT_START (R139). -/
def execFlowOutStart (d : MDie) (flow : Fin 4096) (s : State) : Out :=
  when s.serverUp s (s.mirror d.die (fun d t s =>
    if s.outLive d flow.val then ((s.wr Obj.flowOutControl d.die flow.val 1).flowControl d flow.val true t).ans .ok
     else s.ans (.noEffect (s.outState d flow.val))))

/-- FLOW_OUT_STOP (R139). -/
def execFlowOutStop (d : MDie) (flow : Fin 4096) (s : State) : Out :=
  when s.serverUp s (s.mirror d.die (fun d t s =>
    if s.outLive d flow.val then ((s.wr Obj.flowOutControl d.die flow.val 2).flowControl d flow.val false t).ans .ok
     else s.ans (.noEffect (s.outState d flow.val))))

/-! ### Parity of queue words (R394) -/

/-- A word fails its parity (R394): it keeps its place with a poison tag. -/
def State.parityError (s : State) (d : MDie) (place number : Nat) : State :=
  ((s.bump Obj.busParityCount d.die 0).setBit Obj.busSticky d.die 0 2).raise d.pdie 0x3105 number (p16 [place, number])

/-- Words of a network queue are popped: as many as an injection still spoils fail their parity, and `bad` more (R394, R491). -/
def State.popWords (s : State) (d : MDie) (q words bad : Nat) : State × Bool :=
  let k := min words (tabGet (s.md d).bus.words q 0)
  let s := if k = 0 then s else s.updMd d (fun m => { m with bus := { m.bus with words := tabUpd m.bus.words q 0 (· - k) } })
  let n := min words (k + bad)
  if n = 0 then (s, false)
  else ((List.range n).foldl (fun (s : State) _ => s.parityError d 2 q) (s.setBit Obj.queSticky d.die q 2), true)

end Sys2Proof.Machine
end

