-- ==== Sys2Proof/Machine/Net.lean ====
section
/-! DEFINITION. Ports: reception and non-media traffic (R120–R122, R130), egress scheduling, shapers, pacing and gate
lists (R136–R142, R488). -/

namespace Sys2Proof.Machine

/-! ### Ports and non-media traffic (R120–R122) -/

/-- A port of a die carries Ethernet (R93). -/
def State.ethPort (s : State) (d : MDie) (p : Nat) : Bool :=
  s.firstLane d p && decide (s.quad d (p / 4) ≤ 3)

/-- The queue that carries a port's non-media traffic: one of 4,088 to 4,095 for each quad (R121; assumption 9). -/
def ctlQueue (p : Nat) : Nat := 4088 + p / 4

/-- A frame is discarded and counted (R120–R122, R130). -/
def State.discardFrame (s : State) (d : MDie) (p : Nat) : State :=
  (s.bump Obj.netPortCount d.die p).setBit Obj.netPortSticky d.die p 0

/-- A packet of the die's own on a port: queued in class 7. -/
def State.ownPacket (s : State) (d : MDie) (p : Nat) (kind : PktKind) (len : Nat) : State :=
  s.enqueue d (ctlQueue p)
    { kind := kind, port := p, flow := 0xFFFF, leg := 1, len := len,
      rtp := { pt := 0, ssrc := 0, seq := 0, ts := 0, marker := false, segs := [], audio := [], data := [] },
      arrival := s.now d.pdie, poison := false, release := none, interval := 0, ready := true } true

/-- Bytes of an ARP packet and of an IGMPv3 report with one group record, from behind the Ethernet header. -/
def arpLen : Nat := 28
def igmpLen : Nat := 40

/-- The next hop of a destination on a port: none for a multicast, the address itself on the port's subnet, else the
gateway (R121); where there is none, 0.0.0.0 is asked for, and the flow is held (DESIGN CHOICE, assumption 93). -/
def nextHop (pt : PortSt) (dst : Nat) : Option Nat :=
  if dst / 2 ^ 28 = 14 then none
  else if dst / 2 ^ (32 - pt.prefixLen) = pt.ip / 2 ^ (32 - pt.prefixLen) then some dst
  else some pt.gateway

/-- A next hop is resolved on a port. -/
def PortSt.resolved (pt : PortSt) (hop : Option Nat) : Bool :=
  match hop with
  | none => true
  | some ip => (tabGet pt.arp ip none).isSome

/-- A next hop is asked for where it is not resolved: an ARP request leaves the port (R121). -/
def State.askHop (s : State) (d : MDie) (p : Nat) (hop : Option Nat) : State :=
  match hop with
  | none => s
  | some ip =>
    if (s.port d p).resolved hop then s
    else (s.updPort d p (fun x => { x with arp := tabSet x.arp ip none })).ownPacket d p (.arpRequest ip) arpLen

/-- The next hop of a leg of an egress flow. -/
def State.legHop (s : State) (d : MDie) (f leg : Nat) : Option Nat :=
  let b := s.outDesc d f
  nextHop (s.port d (descPort b leg)) (descDst b leg)

/-- All next hops of an egress flow are resolved. -/
def State.hopsResolved (s : State) (d : MDie) (f : Nat) : Bool :=
  (descLegs (s.outDesc d f)).all (fun leg =>
    (s.port d (descPort (s.outDesc d f) leg)).resolved (s.legHop d f leg))

/-- A flow whose next hops are all resolved runs again (R121). -/
def State.releaseHeld (s : State) (d : MDie) : State :=
  (s.outFlows d).foldl (fun s f =>
    if s.outState d f = 4 ∧ s.hopsResolved d f then s.wr Obj.flowOutState d.die f 2 else s) s

/-- The membership reports of a port: one for every ingress leg on it, source-specific where the leg filters on
source (R121); none while no descriptor is in force (R130). -/
def State.igmpReports (s : State) (d : MDie) (p : Nat) : State :=
  if ¬ s.inForce then s
  else
    (s.inFlows d).foldl (fun s f =>
      let b := s.inDesc d f
      (descLegs b).foldl (fun s leg =>
        if descPort b leg = p then
          s.ownPacket d p (.igmpReport (descDst b leg) (if descBits b 506 506 = 1 then some (descSrc b leg) else none)) igmpLen
        else s) s) s

/-- The UDP size limit of a port (R122). -/
def PortSt.udpLimit (pt : PortSt) : Nat := if pt.maxUdp = 0 then 1460 else 8960

/-- An ingress leg matches a datagram on a port (R129). -/
def legMatches (b : List Byte) (leg p : Nat) (u : Udp) : Bool :=
  descPort b leg == p && descVlan b leg == u.vlan && descDst b leg == u.dst && descUdp b leg == u.port
    && (descBits b 506 506 == 0 || descSrc b leg == u.src)

/-- The flow and leg a datagram belongs to. -/
def State.findLeg (s : State) (d : MDie) (p : Nat) (u : Udp) : Option (Nat × Nat) :=
  if ¬ s.inForce then none
  else (s.inFlows d).findSome? (fun f =>
    ((descLegs (s.inDesc d f)).find? (fun leg => legMatches (s.inDesc d f) leg p u)).map (fun leg => (f, leg)))

/-- PT and SSRC pass a descriptor's filters (R126, R130). -/
def rtpMatches (b : List Byte) (r : Rtp) : Bool :=
  (descBits b 503 496 == 255 || descBits b 503 496 == r.pt) && (descBits b 505 505 == 0 || descBits b 287 256 == r.ssrc)

/-- Bytes that wait in a port's receive FIFO (R122). -/
def PortSt.fifoBytes (pt : PortSt) : Nat := sumOver pt.fifo (fun e => e.2.2.2)

/-- A datagram is classified (R121, R122, R130): to its flow's leg, or discarded; a video packet with more than three sample row data headers
is not accepted (R124; counted as discarded, DESIGN CHOICE, assumption 97). -/
def State.rxUdp (s : State) (d : MDie) (p len : Nat) (u : Udp) : State :=
  if ¬ u.clean ∨ (s.port d p).udpLimit < u.size then s.discardFrame d p
  else
    match s.findLeg d p u with
    | none => s.discardFrame d p
    | some (f, leg) =>
      if ¬ rtpMatches (s.inDesc d f) u.rtp then s.bump Obj.flowInRejectCount d.die f
      else if descKind (s.inDesc d f) = 1 ∧ 3 < u.rtp.segs.length then s.discardFrame d p
      else s.updPort d p (fun x => { x with fifo := x.fifo ++ [(f, leg, u, len)] })

/-- ICMP echo replies a port sends in one second (R121). -/
def echoMax : Nat := 100

/-- An echo request addressed to the port is answered, at most 100 in a second of the die's time (R121;
assumption 9). -/
def State.rxEcho (s : State) (d : MDie) (p dst src mac len : Nat) : State :=
  let pt := s.port d p
  if dst ≠ pt.ip then s.discardFrame d p
  else
    let sec := s.now d.pdie / nsPerSec
    let n := if pt.echoSecond = sec then pt.echoes else 0
    if echoMax ≤ n then s.discardFrame d p
    else
      (s.updPort d p (fun x => { x with echoSecond := sec, echoes := n + 1, arp := tabSet x.arp src (some mac) })).ownPacket
        d p (.echo src) (len - 18)

/-- A frame that passed the MAC is classified (R121, R130). -/
def State.classify (s : State) (d : MDie) (p : Nat) (f : Frame) : State :=
  let pt := s.port d p
  match f.body with
  | .pause => s.discardFrame d p
  | .ipv6 => s.discardFrame d p
  | .other => s.discardFrame d p
  | .ptp => s
  | .igmpQuery => s.igmpReports d p
  | .arpRequest target ip mac =>
    if target = pt.ip then s.ownPacket d p (.arpReply ip mac) arpLen else s.discardFrame d p
  | .arpReply ip mac =>
    let s := s.updPort d p (fun x => { x with arp := tabSet x.arp ip (some mac) })
    let s := if ip = pt.gateway ∧ pt.gateway ≠ 0 then s.setBit Obj.netPortStatus d.die p 1 else s
    s.releaseHeld d
  | .icmpEcho dst src mac => s.rxEcho d p dst src mac f.len
  | .udp u => s.rxUdp d p f.len u

/-- RX_FRAME (R120–R122, R130): the receive MAC of a port that is up takes a frame. PTP messages pass to Die C as
commands of their own (R60). -/
def execRxFrame (d : MDie) (port : Fin 32) (f : Frame) (s : State) : Out :=
  let p := port.val
  when (s.up d.pdie && s.ethPort d p && s.portUp d p) s
    (if ¬ f.good ∨ f.len < 64 ∨ 9216 < f.len then s.discardFrame d p
     else match f.body with
       | .pause => s.discardFrame d p
       | _ =>
         if 65536 < (s.port d p).fifoBytes + f.len then
           (s.bump Obj.netPortRxOverrunCount d.die p).setBit Obj.netPortSticky d.die p 1
         else s.classify d p f)

/-- ARP_UNRESOLVED_TIMEOUT (R121): 1 s without an answer; the flows that need the next hop are held and it is asked
for again. -/
def execArpUnresolvedTimeout (d : MDie) (port : Fin 32) (ip : Nat) (s : State) : Out :=
  let p := port.val
  when (s.up d.pdie && (tabGet (s.port d p).arp ip (some 0)).isNone) s
    (let s := (s.setBit Obj.netPortSticky d.die p 2).raise d.pdie 0x1420 p (payloadOf [(16, p), (32, ip)])
     let s := if ip = (s.port d p).gateway then s.clrBit Obj.netPortStatus d.die p 1 else s
     let s := (s.outFlows d).foldl (fun s f =>
       if s.outState d f = 2 ∧ (descLegs (s.outDesc d f)).any (fun leg =>
           descPort (s.outDesc d f) leg == p && s.legHop d f leg == some ip) then
         (s.wr Obj.flowOutState d.die f 4).setBit Obj.flowOutSticky d.die f 1
       else s) s
     s.ownPacket d p (.arpRequest ip) arpLen)

/-! ### Gate lists (R140–R142) -/

/-- The segments of a cycle in scaled units: states and end, the last one ended by the cycle, the list cut there. -/
def gateSegs (cycle scale acc : Nat) : List (Nat × Nat) → List (Nat × Nat)
  | [] => []
  | [(st, _)] => [(st, cycle)]
  | (st, i) :: r =>
    let e := acc + i * scale
    if cycle ≤ e then [(st, cycle)] else (st, e) :: gateSegs cycle scale e r

/-- A set's scale (units per ns), cycle length and segments, for a base instant. An empty list leaves every gate
open (assumption 10). -/
structure GatePlan where
  scale : Nat
  cycle : Nat
  segs : List (Nat × Nat)
  base : Instant
deriving DecidableEq, Repr

/-- The plan of a set on a die's Reference Raster. -/
def gatePlan (f : Format) (g : GateSet) : GatePlan :=
  let b := instantOf f 0 g.base
  let scale := b.d * g.den * 1000
  let cycle := g.num * b.d * 1000
  let segs := gateSegs cycle scale 0 g.list
  { scale := scale, cycle := cycle, segs := if segs = [] then [(255, cycle)] else segs, base := b }

/-- Scaled units since the base at an instant of `ps` picoseconds, 0 before it. -/
def GatePlan.units (g : GatePlan) (den ps : Nat) : Nat := ps * g.base.d * den - g.base.n * 1000 * den

/-- A class is open in a state byte. -/
def classOpen (st c : Nat) : Bool := st.testBit c

/-- Units for which a class stays open from a phase on: 0 while closed, none while it never closes. Two passes over
the segments cover one whole cycle from any phase. -/
def openUnits (segs : List (Nat × Nat)) (cycle phase c : Nat) : Option Nat :=
  if segs.all (fun e => classOpen e.1 c) then none
  else
    let two := segs ++ segs.map (fun e => (e.1, e.2 + cycle))
    let ahead := two.filter (fun e => decide (phase < e.2))
    let run := ahead.takeWhile (fun e => classOpen e.1 c)
    match run.getLast? with
    | none => some 0
    | some e => some (e.2 - phase)

/-- Picoseconds, rounded down, for which a class of a running set stays open from `ps` on; none for ever. -/
def GatePlan.openPs (g : GatePlan) (den ps c : Nat) : Option Nat :=
  (openUnits g.segs g.cycle (g.units den ps % g.cycle) c).map (fun u => u * 1000 / g.scale)

/-- The longest open interval of a class in one whole cycle, in picoseconds; none where it is always open (R142). -/
def GatePlan.longestPs (g : GatePlan) (c : Nat) : Option Nat :=
  if g.segs.all (fun e => classOpen e.1 c) then none
  else
    let starts := 0 :: (g.segs.map (·.2)).dropLast
    some ((starts.foldl (fun m ph => max m ((openUnits g.segs g.cycle ph c).getD 0)) 0) * 1000 / g.scale)

/-- Picoseconds for which a class's gate of a port stays open from `ps` on, judged on the sequence that will apply, a
pending set's start included; none for ever (R142). -/
def State.gateOpenPs (s : State) (d : MDie) (p c ps : Nat) : Option Nat :=
  let f := fmt (s.md d).time.refFormat
  let pt := s.port d p
  let cur := match pt.gates with
    | none => none
    | some g => (gatePlan f g).openPs g.den ps c
  match pt.pending with
  | none => cur
  | some (g, start) =>
    let at_ := start.ceilNs * 1000
    let reaches : Bool := match cur with | none => true | some o => decide (at_ ≤ ps + o)
    if ps < at_ ∧ reaches = true then
      let after := if g.enable then (gatePlan f g).openPs g.den at_ c else none
      after.map (fun o => at_ - ps + o)
    else cur

/-! ### The scheduler (R136) -/

/-- Duration of a frame on a port in picoseconds: 100 Gbit/s for each lane (R93). -/
def State.framePs (s : State) (d : MDie) (p len : Nat) : Nat := len * 80 / max 1 (s.portLanes d p).length

/-- A flow's legs on a port: (queue, flow, leg), by ascending queue. -/
def State.portQueues (s : State) (d : MDie) (p : Nat) : List Nat :=
  let qs := (s.outFlows d).flatMap (fun f =>
    let b := s.outDesc d f
    ((descLegs b).filter (fun leg => descPort b leg == p)).map (descQueue b))
  sortBy (fun a b => decide (a ≤ b)) (qs ++ [ctlQueue p])

/-- The class of a queue: 7 for the die's own traffic (R121, R136). -/
def State.classOf (s : State) (d : MDie) (q : Nat) : Nat := if 4088 ≤ q then 7 else (s.queue d q).cls

/-- The queues of a class on a port. -/
def State.classRing (s : State) (d : MDie) (p tc : Nat) : List Nat := (s.portQueues d p).filter (fun q => s.classOf d q == tc)

/-- Ethernet length of a packet from destination address to FCS; an IEEE 802.1Q tag adds 4 bytes. -/
def State.frameLen (s : State) (d : MDie) (p : Pkt) : Nat :=
  let tag := if p.flow < 4096 ∧ descVlan (s.outDesc d p.flow) p.leg ≠ 0xFFFF then 4 else 0
  max 64 (p.len + 18 + tag)

/-- A queue's packets are paced: its flow is a video flow (R138). -/
def State.paced (s : State) (d : MDie) (p : Pkt) : Bool :=
  decide (p.flow < 4096) && descKind (s.outDesc d p.flow) == 1

/-- A queue is eligible at `ps` (R136): not empty, its flow not held and its next hop known, the shaper unshaped or
out of debt, a paced head released, and the frame ending before its gate closes. -/
def State.eligible (s : State) (d : MDie) (p tc ps q : Nat) : Bool :=
  match (s.queue d q).pkts with
  | [] => false
  | h :: _ =>
    let own := decide (4096 ≤ h.flow)
    let hop := own || (s.outState d h.flow != 4 && (s.port d p).resolved (s.legHop d h.flow h.leg))
    let shaped := (s.queue d q).rate == 0 || s.paced d h || decide (0 ≤ s.rd Obj.shpTokens d.die q)
    let gate := match s.gateOpenPs d p tc ps with
      | none => true
      | some o => decide (s.framePs d p (s.frameLen d h) ≤ o)
    (!own || h.port == p) && hop && shaped && (!s.paced d h || h.ready) && gate

/-- Length of a queue's head frame. -/
def State.headLen (s : State) (d : MDie) (q : Nat) : Nat :=
  match (s.queue d q).pkts with | [] => 0 | h :: _ => s.frameLen d h

/-- Key of a class ring. -/
def ringKey (tc : Nat) : Nat := tc

/-- The deficit round robin of R136 over a class's ring: `fuel` queues are still to be looked at. -/
def State.pickLoop (s : State) (d : MDie) (p tc ps : Nat) (ring : List Nat) : Nat → State × Option Nat
  | 0 => (s, none)
  | fuel + 1 =>
    let (cur, fresh) := tabGet (s.port d p).ring tc (0, true)
    let cur := if ring.length ≤ cur then 0 else cur
    let q := ring.getD cur 0
    let next := fun (s : State) =>
      (s.updPort d p (fun x => { x with ring := tabSet x.ring tc (if cur + 1 = ring.length then 0 else cur + 1, true) })).pickLoop
        d p tc ps ring fuel
    if s.eligible d p tc ps q then
      let s := if fresh then
          (s.updQueue d q (fun x => { x with deficit := x.deficit + x.quantum })).updPort d p
            (fun x => { x with ring := tabSet x.ring tc (cur, false) })
        else s
      if (s.headLen d q : Int) ≤ (s.queue d q).deficit then (s, some q) else next s
    else next s

/-- The pick of a class. -/
def State.pick (s : State) (d : MDie) (p tc ps : Nat) : State × Option Nat :=
  let ring := s.classRing d p tc
  s.pickLoop d p tc ps ring ring.length

/-- The pick of a port: classes from 7 down to 0 (R136). -/
def State.pickPort (s : State) (d : MDie) (p ps : Nat) : Nat → State × Option (Nat × Nat)
  | 0 => (s, none)
  | n + 1 =>
    match s.pick d p n ps with
    | (s, some q) => (s, some (n, q))
    | (s, none) => s.pickPort d p ps n

/-- GATE_HEAD_FRAME_DISCARD (R142): head frames of a port longer than every open interval of their class. -/
def State.discardUnfit (s : State) (d : MDie) (p : Nat) : State :=
  match (s.port d p).gates with
  | none => s
  | some g =>
    let plan := gatePlan (fmt (s.md d).time.refFormat) g
    (s.portQueues d p).foldl (fun s q =>
      match (s.queue d q).pkts with
      | [] => s
      | h :: _ =>
        let len := s.frameLen d h
        match plan.longestPs (s.classOf d q) with
        | none => s
        | some ps =>
          if (h.flow < 4096 ∨ h.port = p) ∧ ps < s.framePs d p len then
            ((s.dequeue d q).bump Obj.queDropCount d.die q).raise d.pdie 0x1503 q (p16 [p, q, len])
          else s) s

/-- A paced packet that leaves more than one packet interval after its release is late (R138). -/
def State.countLate (s : State) (d : MDie) (h : Pkt) : State :=
  match h.release with
  | none => s
  | some r =>
    let t := s.now d.pdie
    if r + h.interval < t then
      let (fm, _) := s.outRaster d h.flow
      let samples := (t - r) * fm.num * fm.perFrame / (fm.den * nsPerSec)
      let told := s.bit Obj.flowOutSticky d.die h.flow 2
      let s := (s.bump Obj.paceLateCount d.die h.flow).setBit Obj.flowOutSticky d.die h.flow 2
      if told then s else s.raise d.pdie 0x1504 h.flow (payloadOf [(16, h.flow), (32, samples)])
    else s

/-- The headers of a media packet that leaves a port (R126, R128): DSCP is 34 where an uncompressed, audio or ancillary flow has 0; the
source address is the port's. -/
def State.mediaHdr (s : State) (d : MDie) (p : Nat) (h : Pkt) : Option NetHdr :=
  if 4096 ≤ h.flow then none
  else
    let b := s.outDesc d h.flow
    let pt := s.port d p
    let dscp := descBits b 349 344
    some { srcMac := pt.mac, hop := (s.legHop d h.flow h.leg).bind (fun ip => tabGet pt.arp ip none), tag := descVlan b h.leg,
           src := pt.ip, dst := descDst b h.leg, srcPort := descBits b 415 400, dstPort := descUdp b h.leg,
           dscp := if dscp = 0 ∧ descKind b ≤ 4 then 34 else dscp, ttl := descBits b 343 336 }

/-- One frame of a queue is sent (R136, R137, R488): the deficit and the token bucket pay for it; in TEST a port
whose TEST.EGRESS bit is 0 discards a flow's packet behind the scheduler. -/
def State.sendHead (s : State) (d : MDie) (p tc q : Nat) : State :=
  match (s.queue d q).pkts with
  | [] => s
  | h :: rest =>
    let len := s.frameLen d h
    let ps := s.now d.pdie * 1000
    let s := s.dequeue d q
    let s := s.updQueue d q (fun x => { x with deficit := if rest = [] then 0 else x.deficit - len })
    let s := if s.paced d h then s
      else s.wr Obj.shpTokens d.die q (s.rd Obj.shpTokens d.die q - (len + (s.queue d q).overhead) * 256)
    let s := s.updPort d p (fun x => { x with tx := some (tc, ps, ps + s.framePs d p len, false) })
    let s := if h.flow < 4096 then s.countLate d h else s
    let (s, bad) := s.popWords d q (ceilDiv (h.len + 16) 4) 0
    let h := { h with poison := h.poison || bad }
    if s.mode = .test ∧ h.flow < 4096 ∧ ¬ s.bit Obj.testEgress d.die 0 p then s.bump Obj.testEgressDropCount d.die 0
    else
      let s := if h.flow < 4096 ∧ h.leg = 1 then s.bump Obj.flowOutCount d.die h.flow else s
      s.send (.frame d p (s.mediaHdr d p h) h)

/-- The transmitter of a port is free at `ps`. -/
def State.txFree (s : State) (d : MDie) (p ps : Nat) : Bool :=
  match (s.port d p).tx with | none => true | some (_, _, e, _) => decide (e ≤ ps)

/-- EGRESS_SCHEDULE (R136–R138, R142). -/
def execEgressSchedule (d : MDie) (port : Fin 32) (s : State) : Out :=
  let p := port.val
  let ps := s.now d.pdie * 1000
  when (s.up d.pdie && s.ethPort d p && s.portUp d p && s.txFree d p ps) s
    (match (s.discardUnfit d p).pickPort d p ps 8 with
     | (s, none) => s
     | (s, some (tc, q)) => s.sendHead d p tc q)

/-! ### Shapers and pacing (R137, R138) -/

/-- The refill period in ns (R143). -/
def refillNs (code : Nat) : Nat := 250 * 2 ^ code

/-- One refill of a token bucket (R137). -/
def State.refill (s : State) (d : MDie) (q period : Nat) : State :=
  let x := s.queue d q
  let tok := s.rd Obj.shpTokens d.die q
  let rate := s.rdN Obj.shpRate d.die q
  let burst := s.rdN Obj.shpBurst d.die q
  let tok := if x.held ∧ x.rate = 0 then (burst * 256 : Int) else tok
  let x := if x.held then { x with rate := rate, burst := burst, held := false } else x
  if x.rate = 0 then (s.updQueue d q (fun _ => x)).wr Obj.shpTokens d.die q tok
  else
    let acc := x.rate * period * 32 + x.rem
    let inc := acc / nsPerSec
    let cap : Int := x.burst * 256
    let x := { x with rem := acc - inc * nsPerSec }
    (s.updQueue d q (fun _ => x)).wr Obj.shpTokens d.die q (if cap < tok + inc then cap else tok + inc)

/-- The queues whose token bucket a refill changes: those with a rate in force or a held write; at an unshaped one without a write a refill
does nothing. -/
def State.shapedQueues (s : State) (d : MDie) : List Nat :=
  ((s.md d).net.queues.filter (fun e => e.2.held || e.2.rate != 0)).map (·.1)

/-- SHAPER_REFILL (R76, R137): a refill cue of a die, for every token bucket. -/
def execShaperRefill (d : MDie) (s : State) : Out :=
  when (s.up d.pdie) s ((s.shapedQueues d).foldl (fun s q => s.refill d q (refillNs (s.md d).net.period)) s)

/-- The first line share of R138: samples of the frame, or of field 1 and field 2 of an interlaced one. -/
def paceSamples (f : Format) (field : Nat) : Nat :=
  if interlaced f.family then
    (if field = 1 then field2Line f.family - 1 else f.lines - (field2Line f.family - 1)) * f.samples
  else f.lines * f.samples

/-- Active lines of a frame (R74). -/
def paceActive (fam : Nat) : Nat :=
  let (a, b) := activeLines1 fam
  let (c, e) := (activeLines2 fam).getD (1, 0)
  (b + 1 - a) + (e + 1 - c)

/-- R(k) of R138 in samples of the frame: the TRO, then k × A × LS / (NP × B); A / B is the active lines of the frame by all its lines. -/
def paceSample (f : Format) (tro : Nat) (linear : Bool) (field np k : Nat) : Nat :=
  let tro := if tro = 0xFFFFFFFF then ((activeLines1 f.family).1 - 1) * f.samples else tro
  let ls := paceSamples f field
  let a := if linear then f.lines else paceActive f.family
  let start := if field = 2 then (field2Line f.family - 1) * f.samples else 0
  start + tro + k * a * ls / (np * f.lines)

/-- Release instant and packet interval, in ns, of packet `k` of `np` of a frame or field of a video flow (R138). -/
def State.paceOf (s : State) (d : MDie) (f frame field np k : Nat) : Nat × Nat :=
  let (fm, ofs) := s.outRaster d f
  let b := s.outDesc d f
  let linear := descBits b 507 507 == 1
  let tro := s.rdN Obj.paceTro d.die f
  let r := paceSample fm tro linear field np k
  let r' := paceSample fm tro linear field np (k + 1)
  let i := instantOf fm ofs ⟨frame, 1, r⟩
  (i.ceilNs, (r' - r) * fm.den * nsPerSec / (fm.num * fm.perFrame))

/-- PACED_PACKET_RELEASE (R138): the release instant of the head packet of a leg's queue has come. -/
def execPacedPacketRelease (d : MDie) (flow : Fin 4096) (leg : Fin 2) (s : State) : Out :=
  let q := descQueue (s.outDesc d flow.val) (leg.val + 1)
  match (s.queue d q).pkts with
  | [] => .next s
  | h :: rest =>
    when (s.up d.pdie && s.paced d h && h.flow == flow.val
        && (match h.release with | none => true | some r => decide (r ≤ s.now d.pdie))) s
      (s.updQueue d q (fun x => { x with pkts := { h with ready := true } :: rest }))

/-- FLOW_CONTROL_LANDING (R121, R139): a pending control lands; a started flow asks for its next hops. -/
def execFlowControlLanding (d : MDie) (flow : Fin 4096) (s : State) : Out :=
  let f := flow.val
  match (s.flowOut d f).pend with
  | none => .next s
  | some (start, t) =>
    when (s.up d.pdie && decide (t ≤ s.now d.pdie)) s
      (let s := s.updFlowOut d f (fun x => { x with pend := none, since := t, run := start })
       let s := s.wr Obj.flowOutState d.die f (if start then 2 else 0)
       if start then
         (descLegs (s.outDesc d f)).foldl (fun s leg => s.askHop d (descPort (s.outDesc d f) leg) (s.legHop d f leg)) s
       else s)

/-! ### Gate commits (R140, R141) -/

/-- The entries of GATE.LIST: states and interval. -/
def gateEntries (l : List Byte) : List (Nat × Nat) :=
  (List.range (l.length / 8)).map (fun n => (fieldAt l (8 * n) 1, fieldAt l (8 * n + 4) 4))

/-- Whether a GATE.LIST lies in its ranges (R140). -/
def gateListOk (l : List Byte) : Bool :=
  l.length % 8 == 0 && decide (l.length ≤ 2048) && (List.range (l.length / 8)).all (fun n =>
    fieldAt l (8 * n + 1) 3 == 0 && decide (100 ≤ fieldAt l (8 * n + 4) 4) && decide (fieldAt l (8 * n + 4) 4 ≤ 1000000000))

/-- A coordinate as 10 bytes, and back (R140). -/
def coordBytes (c : Coord) : List Byte := natBe 6 c.frame ++ natBe 2 c.line ++ natBe 2 c.sample
def coordOfBytes (l : List Byte) : Coord := ⟨fieldAt l 0 6, fieldAt l 6 2, fieldAt l 8 2⟩

/-- The shadow gate set of a port. -/
def State.gateShadow (s : State) (d : MDie) (p : Nat) : GateSet :=
  { enable := s.rdN Obj.gateEnable d.die p == 1, base := coordOfBytes (s.rdBytes Obj.gateBase d.die p),
    num := s.rdN Obj.gateCycleNum d.die p, den := s.rdN Obj.gateCycleDen d.die p,
    list := gateEntries (s.rdBytes Obj.gateList d.die p) }

/-- The start of a set committed at `t` ns: the base where it lies at or after the commit, else the first cycle start
after it (R141). -/
def gateStart (f : Format) (g : GateSet) (t : Nat) : Instant :=
  let b := instantOf f 0 g.base
  if (Instant.ofNs t).le b then b
  else
    let n := (t * b.d - b.n) * g.den / (g.num * b.d) + 1
    ⟨b.n * g.den + n * g.num * b.d, b.d * g.den⟩

/-- The cycle time lies in its range of 1,000 to 10^9 ns (R140). -/
def GateSet.cycleOk (g : GateSet) : Bool := decide (1000 * g.den ≤ g.num) && decide (g.num ≤ 1000000000 * g.den)

/-- The shadow values of a port become pending, their start computed from `t` (R141). -/
def State.commitGates (s : State) (d : MDie) (p t : Nat) : State :=
  let g := s.gateShadow d p
  let f := fmt (s.md d).time.refFormat
  let st := gateStart f g t
  let s := s.updPort d p (fun x => { x with pending := some (g, st) })
  let s := s.wrBytes Obj.gateStart d.die p (coordBytes (coordOf f 0 st.ceilNs))
  s.wr Obj.gateState d.die p (if (s.port d p).gates.isSome then 3 else 2)

/-- GATE_COMMIT (R141): a cycle outside its range is refused (R15, R140). -/
def execGateCommit (d : MDie) (port : Fin 32) (s : State) : Out :=
  when s.serverUp s (s.mirror d.die (fun d t s =>
    if (s.gateShadow d port.val).cycleOk then (s.commitGates d port.val t.ceilNs).ans .ok else s.ans .range))

/-- A frame still on the wire whose gate is closed is counted once (R142). -/
def State.gateOverrun (s : State) (d : MDie) (p : Nat) : State :=
  let ps := s.now d.pdie * 1000
  match (s.port d p).tx with
  | some (tc, st, e, false) =>
    if ps < e ∧ s.gateOpenPs d p tc ps = some 0 then
      ((s.updPort d p (fun x => { x with tx := some (tc, st, e, true) })).bump Obj.gateCount d.die p).raise d.pdie 0x1505 p
        (p16 [p, tc])
    else s
  | _ => s

/-- GATE_SET_START (R141): the pending set becomes operative; one with GATE.ENABLE 0 opens every gate. -/
def execGateSetStart (d : MDie) (port : Fin 32) (s : State) : Out :=
  let p := port.val
  match (s.port d p).pending with
  | none => .next s
  | some (g, st) =>
    when (s.up d.pdie && st.le (.ofNs (s.now d.pdie))) s
      (let s := s.updPort d p (fun x => { x with pending := none, gates := if g.enable then some g else none })
       let s := s.wr Obj.gateState d.die p (if g.enable then 1 else 0)
       (s.raise d.pdie 0x1501 p (p16 [p, if g.enable then 1 else 0])).gateOverrun d p)

/-- GATE_ENTRY_BOUNDARY (R140, R142): the states of the entry that begins now apply. -/
def execGateEntryBoundary (d : MDie) (port : Fin 32) (s : State) : Out :=
  when (s.up d.pdie && (s.port d port.val).gates.isSome) s ((s.gateOverrun d port.val).discardUnfit d port.val)

end Sys2Proof.Machine
end

