-- ==== Sys2Proof/Machine/TwillBase.lean ====
section
/-! DEFINITION. The Twill fabric's paths and channels (R428–R435). -/

namespace Sys2Proof.Machine

/-! ### Paths (R428, R429) -/

/-- A path under construction. -/
structure TPath where
  cost : Nat
  parked : Nat
  edges : Nat
  delay : Nat
  hops : List TwlHop
  id : Nat
  die : Nat
deriving DecidableEq, Repr

/-- The number by which hops are compared: device ID, die, quad. -/
def TwlHop.key (h : TwlHop) : Nat := (h.id * 256 + h.die) * 256 + h.quad

/-- A list of numbers is lower, compared in order. -/
def lexLt : List Nat → List Nat → Bool
  | [], [] => false
  | [], _ => true
  | _, [] => false
  | a :: as, b :: bs => decide (a < b) || (a == b && lexLt as bs)

/-- A path is better: lower cost, then fewer parked links, then fewer edges, then the lower hop sequence (R428,
R435). -/
def TPath.better (a b : TPath) : Bool :=
  decide (a.cost < b.cost) || (a.cost == b.cost &&
    (decide (a.parked < b.parked) || (a.parked == b.parked &&
      (decide (a.edges < b.edges) || (a.edges == b.edges && lexLt (a.hops.map TwlHop.key) (b.hops.map TwlHop.key))))))

/-- The best of some paths. -/
def bestPath : List TPath → Option TPath
  | [] => none
  | p :: ps => some (ps.foldl (fun b q => if q.better b then q else b) p)

/-- One best path for each node. -/
def prunePaths (l : List TPath) : List TPath :=
  (((l.map (fun p => p.id * 2 + p.die)).eraseDups).filterMap (fun n => bestPath (l.filter (fun p => p.id * 2 + p.die == n))))

/-- A path continued over a Twill edge with a free slot. -/
def TPath.over (p : TPath) (refused : List TwlHop) (r : TwlRec) : Option TPath :=
  let h : TwlHop := ⟨r.id, r.die, r.quad⟩
  if r.id = p.id ∧ r.die = p.die ∧ (r.state = 3 ∨ r.state = 4) ∧ r.out < twlSlots ∧ h ∉ refused then
    some { cost := p.cost + r.cost, parked := p.parked + (if r.state = 4 then 1 else 0), edges := p.edges + 1,
           delay := p.delay + r.delay, hops := p.hops ++ [h], id := r.rid, die := r.rdie }
  else none

/-- A path continued over the bridge of the package it is in. -/
def TPath.bridged (p : TPath) (refused : List TwlHop) : Option TPath :=
  let h : TwlHop := ⟨p.id, p.die, 0xFF⟩
  if h ∈ refused then none
  else some { p with cost := p.cost + 1, edges := p.edges + 1, delay := p.delay + 1000, hops := p.hops ++ [h], die := 1 - p.die }

/-- The paths of one Twill edge more, then over bridges. -/
def pathLayer (recs : List TwlRec) (refused : List TwlHop) (front : List TPath) : List TPath :=
  let next := prunePaths (front.flatMap (fun p => recs.filterMap (p.over refused)))
  prunePaths (next ++ next.filterMap (fun p => p.bridged refused))

/-- All best paths with at most `n` more Twill edges, layer by layer. -/
def pathLayers (recs : List TwlRec) (refused : List TwlHop) : Nat → List TPath → List TPath
  | 0, _ => []
  | n + 1, front =>
    let next := pathLayer recs refused front
    next ++ pathLayers recs refused n next

/-- The path of R428 from a source die to a die of this package, avoiding refused hops, over at most TWL.HOP.MAX Twill
edges. -/
def State.findPath (s : State) (dev srcDie : Nat) (d : MDie) (refused : List TwlHop) : Option TPath :=
  let recs := s.ownRecs ++ s.twill.recs
  let p0 : TPath := { cost := 0, parked := 0, edges := 0, delay := 0, hops := [], id := dev, die := srcDie }
  let start := p0 :: (p0.bridged refused).toList
  bestPath ((pathLayers recs refused (s.rdN Obj.twlHopMax .p 0) start).filter (fun p => p.id == s.twlId && p.die == d.num))

/-- D of R429 in ns. -/
def TPath.total (p : TPath) : Nat :=
  let twill := (p.hops.filter (fun h => h.quad != 0xFF)).length
  p.delay + 200 * (twill - 1) + 2000

/-- P of R429: whole lines of the route's format that cover the path delay. -/
def twlLines (f : Format) (total : Nat) : Nat := ceilDiv (total * f.num * f.lines) (f.den * nsPerSec)

/-! ### Channels (R431, R432) -/

/-- The lowest number below `n` that a table does not hold, offset by a base. -/
def lowestFree {α : Type} (t : Tab α) (base n : Nat) : Option Nat :=
  (List.range n).find? (fun k => (t.find? (fun e => e.1 == base + k)).isNone)

/-- The receive channel of a die that carries a source member, if there is one. -/
def State.rxFor (s : State) (d : MDie) (dev srcDie port : Nat) : Option Nat :=
  (s.twill.rx.find? (fun e => decide (e.1 / 256 = d.num) && e.2.device == dev && e.2.srcDie == srcDie && e.2.port == port)).map
    (fun e => e.1 % 256)

/-- A parked link that an allocation chooses is woken: its lanes leave shallow (R435). -/
def State.wakeLink (s : State) (d : MDie) (q : Nat) : State :=
  (List.range 4).foldl (fun s k => s.requestLane d (4 * q + k) 3) s

/-- A receive channel is asked for along a path: ALLOC leaves toward the source over the link it will arrive on
(R432). -/
def State.sendAlloc (s : State) (d : MDie) (rx : Nat) (c : TwlRx) : State :=
  match s.pathEntry c.path with
  | none => s
  | some l =>
    if s.tlinkState l.1 l.2 = 4 then s.wakeLink l.1 l.2
    else s.twlSend l (s.twlMsg c.device (.alloc d.num rx c.srcDie c.port c.path))

/-- A receive channel is allocated for a source member, sharing one the die already has: its number, or none where
there is no channel or no path (R428, R431, R432). -/
def State.allocRx (s : State) (d : MDie) (dev srcDie base member : Nat) (f : Format) : State × Option Nat :=
  let port := base + member
  match s.rxFor d dev srcDie port with
  | some n => (s, some n)
  | none =>
    match lowestFree s.twill.rx (d.num * 256) twlChannels, s.findPath dev srcDie d [] with
    | some n, some p =>
      let c : TwlRx := { device := dev, srcDie := srcDie, port := port, path := p.hops, refused := [], seq := none,
                         line := 0, pic := ⟨[], [], 0⟩, anc := ⟨[], [], 0⟩, src := none, lost := none, audio := [], tried := s.twlGen }
      let s := s.updTwill (fun t => { t with rx := tabSet t.rx (twlKey d n) c })
      let s := s.wr Obj.twlChState d.die n 1
      let s := s.wr Obj.twlChSource d.die n ((3 * 2 ^ 30 + dev * 2 ^ 24 + srcDie * 2 ^ 22 + member * 256 + base : Nat) : Int)
      let s := s.wrBytes Obj.twlChPath d.die n (pathBytes p.hops)
      let s := s.wr Obj.twlChDelay d.die n (twlLines f p.total : Nat)
      (s.refreshTopology.sendAlloc d n c, some n)
    | _, _ => (s, none)

end Sys2Proof.Machine
end

