-- ==== Sys2Proof/Machine/Loom.lean ====
section
/-! DEFINITION. Loom: ports, bonds, routes, group commits, switch lines, loss policy (R145–R156, R164–R167). -/

namespace Sys2Proof.Machine

/-! ### Attributes, producers and consumers (R126, R145–R148, R195) -/

/-- What R150 compares, with the raster's offset: format code, sampling, depth, colorimetry, TCS, range. -/
structure Attr where
  format : Nat
  ofs : Nat
  sampling : Nat
  depth : Nat
  color : Nat
  tcs : Nat
  range : Nat
deriving DecidableEq, Repr

/-- Attributes from a format, an offset and an ATTR word (R195). -/
def Attr.ofWord (format ofs w : Nat) : Attr :=
  ⟨format, ofs, bitsOf w 15 12, bitsOf w 11 8, bitsOf w 7 4, bitsOf w 3 2, bitsOf w 1 0⟩

/-- Two attribute sets agree in everything but the offset. -/
def Attr.same (a b : Attr) : Bool :=
  a.format == b.format && a.sampling == b.sampling && a.depth == b.depth && a.color == b.color && a.tcs == b.tcs
    && a.range == b.range

/-- Whether an attribute set is one of R124 and R127. -/
def Attr.valid (a : Attr) : Bool :=
  (formatOf a.format).isSome && decide (a.sampling ≤ 2) && decide (a.depth ≤ 2) && decide (a.color ≤ 3) && decide (a.tcs ≤ 2)
    && decide (a.range ≤ 1) && (a.depth != 0 || a.sampling == 0) && (a.tcs == 0 || decide (2 ≤ a.color))

/-- Bits of a picture position: 2 × depth for YCbCr-4:2:2, 3 × depth otherwise (R147). -/
def Attr.bits (a : Attr) : Nat := (if a.sampling = 0 then 2 else 3) * depthBits a.depth

/-- The bond of a raster: the smallest of 1, 2, 4 and 8 that carries its packed active rate (R147). -/
def bondOf (a : Attr) : Option Nat :=
  let f := fmt a.format
  let (w, h) := activeSize f.family
  [1, 2, 4, 8].find? (fun n => decide (w * h * a.bits * f.num ≤ n * 10700000000 * f.den))

/-- Producer of a source port as LOOM.SRC.BIND codes it: kind and number (R170). -/
def State.srcBind (s : State) (d : MDie) (p : Nat) : Nat × Nat :=
  let v := s.rdN Obj.loomSrcBind d.die p
  (v / 4096, v % 4096)

/-- Consumer of a destination port as LOOM.DST.BIND codes it. -/
def State.dstBind (s : State) (d : MDie) (p : Nat) : Nat × Nat :=
  let v := s.rdN Obj.loomDstBind d.die p
  (v / 4096, v % 4096)

/-- The synchronizer that serves a source port. -/
def State.fsyOf (s : State) (d : MDie) (p : Nat) : Option Nat :=
  (s.listed Obj.fsySource d.die (fun _ v => v == (p : Int))).head?

/-- The synchronizer that a source port stands behind: one of an unsynchronized flow, or of a decoder; a flow declared synchronous enters
through its port's ring and nothing else (R157, R158). -/
def State.fsyFor (s : State) (d : MDie) (p : Nat) : Option Nat :=
  let (kind, n) := s.srcBind d p
  if kind = 2 ∨ (kind = 1 ∧ descBits (s.inDesc d n) 507 507 = 0) then s.fsyOf d p else none

/-- Attributes of a video flow. -/
def State.flowAttr (s : State) (d : MDie) (f : Nat) : Attr :=
  let b := s.inDesc d f
  ⟨s.rdN Obj.flowInFormat d.die f, s.rdN Obj.flowInOfs d.die f, descSampling b, descBitDepth b, descColor b, descTcs b,
    descRange b⟩

/-- Attributes a producer gives its source port (R150, R151). Behind a synchronizer the offset is FSY.OFS. -/
def State.srcAttr (s : State) (d : MDie) (p : Nat) : Option Attr :=
  let (kind, n) := s.srcBind d p
  let a := match kind with
    | 1 => some (s.flowAttr d n)
    | 2 => some (Attr.ofWord (s.rdN Obj.decCtxFormat d.die n) 0 (s.rdN Obj.decCtxAttr d.die n))
    | 3 => some (Attr.ofWord (s.rdN Obj.cnvChainOutFormat d.die n) (s.rdN Obj.cnvChainOutOfs d.die n) (s.rdN Obj.cnvChainOutAttr d.die n))
    | 4 => some (Attr.ofWord (s.rdN Obj.cmpFormat d.die n) (s.rdN Obj.cmpOfs d.die n) (s.rdN Obj.cmpAttr d.die n))
    | _ => none
  a.map (fun a => match s.fsyFor d p with
    | some k => { a with ofs := s.rdN Obj.fsyOfs d.die k }
    | none => a)

/-- Attributes the consumer of a destination port declares (R150). -/
def State.dstAttr (s : State) (d : MDie) (p : Nat) : Option Attr :=
  let (kind, n) := s.dstBind d p
  match kind with
  | 1 => some (Attr.ofWord (s.rdN Obj.scnOutFormat d.die n) (s.rdN Obj.scnOutOfs d.die n) (s.rdN Obj.scnOutAttr d.die n))
  | 2 => some (Attr.ofWord (s.rdN Obj.cnvChainInFormat d.die n) (s.rdN Obj.cnvChainInOfs d.die n) (s.rdN Obj.cnvChainInAttr d.die n))
  | 3 => some (Attr.ofWord (s.rdN Obj.cmpLayerInFormat d.die n) (s.rdN Obj.cmpLayerInOfs d.die n) (s.rdN Obj.cmpLayerInAttr d.die n))
  | 4 => some (Attr.ofWord (s.rdN Obj.encChFormat d.die n) (s.rdN Obj.encChOfs d.die n) (s.rdN Obj.encChAttr d.die n))
  | _ => none

/-- The section a producer runs in (R46, R146). -/
def producerSection (kind n : Nat) : Nat :=
  match kind with | 1 => 15 | 2 => 27 | 3 => 18 | _ => if n < 4 then 19 else 20

/-- The raster a destination switches on: format and offset of its consumer, the format's defaults without one. -/
def State.dstRaster (s : State) (d : MDie) (p : Nat) : Format × Nat :=
  match s.dstAttr d p with | some a => (fmt a.format, a.ofs) | none => (fmt 0x0607, 0)

/-! ### Routes (R149–R151) -/

/-- Fields of a route word. -/
def routeKind (r : Nat) : Nat := bitsOf r 31 30
def routeDevice (r : Nat) : Nat := bitsOf r 29 24
def routeDie (r : Nat) : Nat := bitsOf r 23 22
def routePort (r : Nat) : Nat := bitsOf r 7 0

/-- Whether a route word is well coded (R149). -/
def routeCoded (r : Nat) : Bool :=
  bitsOf r 21 8 == 0 && (routeKind r == 3 || (routeDevice r == 0 && routeDie r == 0)) && decide (routeDie r ≤ 1)

/-- A destination's state. -/
def DstSt.start : DstSt :=
  { pend := none, primary := 0, breakaway := false, lost := none, heldFrames := 0, freeSince := none, followDue := none,
    turn := ⟨(0, true), (0, true), 0⟩ }

/-- The state of a destination port. -/
def State.dst (s : State) (d : MDie) (p : Nat) : DstSt := tabGet (s.md d).loom.dst p DstSt.start

/-- A state with a destination's state changed. -/
def State.updDst (s : State) (d : MDie) (p : Nat) (f : DstSt → DstSt) : State :=
  s.updMd d (fun m => { m with loom := { m.loom with dst := tabSet m.loom.dst p (f (s.dst d p)) } })

/-- The route in force at a destination. -/
def State.activeRoute (s : State) (d : MDie) (p : Nat) : Nat := s.rdN Obj.loomRouteActive d.die p

/-- The routes a destination holds resources for: in force, pending, primary behind a backup, and backup. -/
def State.heldRoutes (s : State) (d : MDie) (p : Nat) : List Nat :=
  ([s.activeRoute d p, (s.dst d p).primary, s.rdN Obj.loomDstBackup d.die p] ++
    ((s.dst d p).pend.map (·.route)).toList).eraseDups.filter (fun r => r != 0)

/-- The destinations of a die that have a consumer, or a route: the others feed black to nobody and keep no route but 0. -/
def State.dsts (s : State) (d : MDie) : List Nat :=
  let l := s.listed Obj.loomDstBind d.die (fun _ v => decide (4096 ≤ v))
  l ++ ((s.listed Obj.loomRouteSource d.die (fun _ v => v != 0) ++ s.listed Obj.loomRouteActive d.die (fun _ v => v != 0)).eraseDups).filter
    (fun p => decide (p ∉ l))

/-- The destinations of a die that have a consumer. -/
def State.boundDsts (s : State) (d : MDie) : List Nat := s.listed Obj.loomDstBind d.die (fun _ v => decide (4096 ≤ v))

/-- The media die a local route's source lies on. -/
def routeSource (d : MDie) (r : Nat) : MDie := if routeKind r = 2 then d.other else d

/-- The bond of a destination, by its consumer's raster. -/
def State.dstBond (s : State) (d : MDie) (p : Nat) : Nat := ((s.dstAttr d p).bind bondOf).getD 1

/-- Source port members of a route of kind 1 or 2 taken by a destination. -/
def State.routeMembers (s : State) (d : MDie) (p r : Nat) : List Nat :=
  (List.range (s.dstBond d p)).map (· + routePort r)

/-- The source members of die `e` that destinations of the other die hold routes to: the bridge outputs needed. -/
def State.bridgeNeeds (s : State) (e : MDie) : List Nat :=
  let o := e.other
  ((s.dsts o).flatMap (fun p =>
    ((s.heldRoutes o p).filter (fun r => routeKind r == 2)).flatMap (s.routeMembers o p))).eraseDups

/-- Bridge channels that Twill paths of this package hold from die `e` to the other (R428): one per receive or transmit
channel that crosses. -/
def State.twlBridges (s : State) (e : MDie) : Nat :=
  let crosses := fun (path : List TwlHop) => path.any (fun h => h.id == s.twlId && h.quad == 0xFF && h.die == e.num)
  (s.twill.rx.filter (fun c => crosses c.2.path)).length + (s.twill.tx.filter (fun c => crosses c.2.path)).length

/-- The bridge outputs of a die follow the routes: those no longer needed are freed, each new one takes the lowest free
number (R146, R155). -/
def State.syncBridge (s : State) (e : MDie) : State :=
  let need := s.bridgeNeeds e
  let kept := (s.md e).loom.bridgeOut.filter (fun c => decide (c.2 ∈ need))
  let tab := need.foldl (fun t m =>
    if t.any (fun c => c.2 == m) then t
    else match lowestFree t 0 128 with | some n => tabSet t n m | none => t) kept
  let s := s.updMd e (fun m => { m with loom := { m.loom with bridgeOut := tab } })
  let n := tab.length + s.twlBridges e
  (s.wr Obj.loomBridgeTxUsed e.die 0 (n : Nat)).wr Obj.loomBridgeRxUsed e.other.die 0 (n : Nat)

/-- Read taps of a source port: one for each local route to it, each bridge output and each Twill transmit channel
(R146). -/
def State.tapsOf (s : State) (e : MDie) (p : Nat) : Nat :=
  let loc := sumOver (s.dsts e) (fun q =>
    ((s.heldRoutes e q).filter (fun r => routeKind r == 1 && decide (p ∈ s.routeMembers e q r))).length)
  let br := ((s.md e).loom.bridgeOut.filter (fun c => c.2 == p)).length
  let tw := (s.twill.tx.filter (fun c => decide (c.1 / 256 = e.num) && c.2.port == p)).length
  loc + br + tw

/-- The source ports of a die that have a producer: every member of its bond shows it (R148, R170). -/
def State.srcPorts (s : State) (d : MDie) : List Nat :=
  (s.listed Obj.loomSrcBind d.die (fun _ v => decide (4096 ≤ v)))

/-- Bridge outputs and tap counts follow the routes on both dies. -/
def State.refreshLoom (s : State) : State :=
  let s := mdies.foldl (fun s e => s.syncBridge e) s
  mdies.foldl (fun s e => (s.srcPorts e).foldl (fun (s : State) p => s.wr Obj.loomSrcTaps e.die p (s.tapsOf e p : Nat)) s) s

/-- Router input or output channels of a source or destination port (R167). -/
def State.srcAudio (s : State) (d : MDie) (p : Nat) : Nat × Nat :=
  (s.rdN Obj.loomSrcAudioFirst d.die p, s.rdN Obj.loomSrcAudioCount d.die p)
def State.dstAudio (s : State) (d : MDie) (p : Nat) : Nat × Nat :=
  (s.rdN Obj.loomDstAudioFirst d.die p, s.rdN Obj.loomDstAudioCount d.die p)

/-- Item 6 of R150: followed audio in banks of one rate; a bank is 256 channels (R328). -/
def State.audioBanksOk (s : State) (d : MDie) (p r : Nat) : Bool :=
  let e := routeSource d r
  let (sf, sc) := s.srcAudio e (routePort r)
  let (df, dc) := s.dstAudio d p
  if s.rdN Obj.loomRouteAudio d.die p = 1 ∨ sc = 0 ∨ dc = 0 ∨ sf = 0xFFFF ∨ df = 0xFFFF then true
  else (List.range (min sc dc)).all (fun i =>
    s.rdN Obj.audBankRate e.die ((sf + i) / 256) == s.rdN Obj.audBankRate d.die ((df + i) / 256))

/-- N_c of R408: the smallest number of lines that last at least 8 µs. -/
def compareLines (f : Format) : Nat := ceilDiv (8000 * f.num * f.lines) (f.den * nsPerSec)

/-- The minimum lag of a path in lines: 2 on a die, 3 over the bridge or Twill, with Twill's path delay, and for an
output in SELVEDGE its compare lines (R151, R408). -/
def State.minLag (s : State) (d : MDie) (p r twill : Nat) (sel : Bool) (f : Format) : Nat :=
  (if routeKind r = 1 then 2 else 3) + twill + (if sel ∧ (s.dstBind d p).1 = 1 then compareLines f else 0)

/-- Items 1 to 3 and 6 of R150 for a route within the package, with the tap and bridge limits: the reason it fails, if
any. `sel` asks for the lags of SELVEDGE. A port that is not the first of its bond counts as one without a producer (DESIGN CHOICE,
assumption 98). -/
def State.localRouteCheck (s : State) (d : MDie) (p r : Nat) (sel : Bool) : Option Nat :=
  let e := routeSource d r
  match s.srcAttr e (routePort r), s.dstAttr d p with
  | some a, some b =>
    let (k, n) := s.srcBind e (routePort r)
    let f := fmt b.format
    let lo := s.minLag d p r 0 sel f * f.samples
    if ¬ s.secOn e (producerSection k n) ∨ routePort r % max 1 (s.rdN Obj.loomSrcBond e.die (routePort r)) ≠ 0 then some 5
    else if ¬ a.same b then some 1
    else if b.ofs < a.ofs + lo ∨ a.ofs + 14 * f.samples < b.ofs then some 2
    else
      let members := s.routeMembers d p r
      let held := decide (r ∈ s.heldRoutes d p)
      let newTap := fun m => if routeKind r = 1 then !held else !((s.md e).loom.bridgeOut.any (fun c => c.2 == m))
      if members.any (fun m => newTap m && decide (64 ≤ s.tapsOf e m)) then some 3
      else
        let fresh := if routeKind r = 2 then (members.filter newTap).length else 0
        if 128 < (s.md e).loom.bridgeOut.length + s.twlBridges e + fresh then some 4
        else if ¬ s.audioBanksOk d p r then some 7
        else none
  | none, _ => some 5
  | _, none => some 1

/-- Attributes that another package told of a source. -/
def toldAttr (x : TwlSrc) : Attr := ⟨x.format, x.ofs, x.sampling, x.depth, x.color, x.tcs, x.range⟩

/-- What this package tells of a source port to another one. -/
def State.srcTold (s : State) (e : MDie) (port : Nat) : TwlSrc :=
  let (k, n) := s.srcBind e port
  let first := port - port % max 1 (s.rdN Obj.loomSrcBond e.die port)
  let a := (s.srcAttr e port).getD ⟨0, 0, 0, 0, 0, 0, 0⟩
  let (f, c) := s.srcAudio e first
  { on := s.secOn e (producerSection k n), format := a.format, ofs := a.ofs, sampling := a.sampling, depth := a.depth, color := a.color,
    tcs := a.tcs, range := a.range,
    rates := if f = 0xFFFF then [] else (List.range c).map (fun i => s.rdN Obj.audBankRate e.die ((f + i) / 256)) }

/-- What is known of the source of a Twill route: what its package told of member 0 with ALLOC ACK. -/
def State.twlSource (s : State) (d : MDie) (r : Nat) : Option TwlSrc :=
  match s.rxFor d (routeDevice r) (routeDie r) (routePort r) with
  | some n => (tabGet (s.twill.rx.map (fun e => (e.1, e.2.src))) (twlKey d n) none)
  | none => none

/-- The lag of a route in samples: the destination's offset less the source's (R151), 0 while the offset of a source on another package
is not yet known. -/
def State.lagOf (s : State) (d : MDie) (p r : Nat) : Nat :=
  let b := ((s.dstAttr d p).map (·.ofs)).getD 0
  let a := if routeKind r = 3 then (s.twlSource d r).map (·.ofs) else (s.srcAttr (routeSource d r) (routePort r)).map (·.ofs)
  match a with | some a => b - a | none => 0

/-- The lag window of a Twill route whose path delay is `lines`: R151 with the P of R429. A source of which nothing is known passes until
its package answers. -/
def State.twillLagOk (s : State) (d : MDie) (p r lines : Nat) (sel : Bool) : Bool :=
  match s.twlSource d r, s.dstAttr d p with
  | some a, some b =>
    let f := fmt b.format
    decide (a.ofs + s.minLag d p r lines sel f * f.samples ≤ b.ofs) && decide (b.ofs ≤ a.ofs + 14 * f.samples)
  | _, _ => true

/-- Items 1 to 3 and 6 of R150 for a Twill route whose source is known, with its path delay in lines: the reason it fails. -/
def State.twillRouteCheck (s : State) (d : MDie) (p r lines : Nat) (sel : Bool) : Option Nat :=
  match s.twlSource d r, s.dstAttr d p with
  | some a, some b =>
    let (df, dc) := s.dstAudio d p
    if ¬ a.on then some 5
    else if ¬ (toldAttr a).same b then some 1
    else if ¬ s.twillLagOk d p r lines sel then some 2
    else if s.rdN Obj.loomRouteAudio d.die p ≠ 1 ∧ df ≠ 0xFFFF ∧ ¬ (a.rates.zipIdx.take dc).all (fun x =>
        x.1 == s.rdN Obj.audBankRate d.die ((df + x.2) / 256)) then some 7
    else none
  | none, _ => none
  | _, none => some 1

/-- A Twill route takes its receive channels (R431, R432): the reason it fails, or the channels still unanswered. -/
def State.takeTwill (s : State) (d : MDie) (p r : Nat) (sel : Bool) : Except Nat (State × List (MDie × Nat)) :=
  if (s.dstAttr d p).isNone then .error 1
  else
    (List.range (s.dstBond d p)).foldl (fun (acc : Except Nat (State × List (MDie × Nat))) m =>
      match acc with
      | .error e => .error e
      | .ok (s, w) =>
        match s.allocRx d (routeDevice r) (routeDie r) (routePort r) m (s.dstRaster d p).1 with
        | (_, none) => .error 4
        | (s, some n) =>
          match s.twillRouteCheck d p r (s.rdN Obj.twlChDelay d.die n) sel with
          | some e => .error e
          | none => .ok (s, if s.rdN Obj.twlChState d.die n = 1 then w ++ [(d, n)] else w)) (.ok (s, []))

/-- A route that the destination takes on commit: checked, and its resources held. Reason, or the state and the
receive channels still unanswered. -/
def State.takeRoute (s : State) (d : MDie) (p r : Nat) (pend : PendRoute) (sel : Bool) :
    Except Nat (State × List (MDie × Nat)) :=
  let put := fun (s : State) =>
    ((s.updDst d p (fun x => { x with pend := some pend })).wr Obj.loomRoutePending d.die p (r : Nat)).refreshLoom
  if ¬ routeCoded r then .error 1
  else match routeKind r with
  | 0 => .ok (put s, [])
  | 3 =>
    match s.takeTwill d p r sel with
    | .error e => .error e
    | .ok (s, w) => .ok (put s, w)
  | _ =>
    match s.localRouteCheck d p r sel with
    | some e => .error e
    | none => .ok (put s, [])

/-! ### Group commits (R152, R153, R432) -/

/-- Where a commit at instant `t` lands on a raster (R153, R432): the instant in ns of the switch line, and whether the
commit missed the switch line before it. A route over Twill needs 250 µs, any other more than one line. -/
def routeLanding (f : Format) (ofs : Nat) (t : Instant) (twill : Bool) : Nat × Bool :=
  let c := landing f ofs (switchLine f.family) t
  let next : Coord := { c with frame := c.frame + 1 }
  let onTime := if twill then (t.addNs 250000).le (instantOf f ofs c)
    else t.lt (instantOf f ofs { c with line := c.line - 1 })
  if onTime then ((instantOf f ofs c).ceilNs, false) else ((instantOf f ofs next).ceilNs, true)

/-- The destinations of a group on a die. -/
def State.groupDsts (s : State) (d : MDie) (g : Nat) : List Nat :=
  (s.dsts d).filter (fun p => s.rdN Obj.loomRouteGroup d.die p == g)

/-- A rejected commit: event 0x1601, LOOM.STICKY bit 0, LOOM.COUNT (R150). -/
def State.loomReject (s : State) (d : MDie) (reason group dst : Nat) : State :=
  ((s.setBit Obj.loomSticky d.die 0 0).bump Obj.loomCount d.die 0).raise .c 0x1601 dst (p16 [reason, group, dst])

/-- Every destination of a commit takes its shadow route; the reason and the first failing destination otherwise. -/
def State.takeGroup (s : State) (g : Nat) (t : Instant) (sel : Bool) (l : List (MDie × Nat)) :
    Except (Nat × MDie × Nat) (State × List (MDie × Nat)) :=
  let twill := l.any (fun x => routeKind (s.rdN Obj.loomRouteSource x.1.die x.2) == 3)
  l.foldl (fun acc x =>
    match acc with
    | .error e => .error e
    | .ok (s, w) =>
      let r := s.rdN Obj.loomRouteSource x.1.die x.2
      let (f, ofs) := s.dstRaster x.1 x.2
      let (land, _) := routeLanding f ofs t twill
      let pend : PendRoute := ⟨r, g, land, s.rdN Obj.loomRouteAudio x.1.die x.2 == 1⟩
      match s.takeRoute x.1 x.2 r pend sel with
      | .error e => .error (e, x.1, x.2)
      | .ok (s, w') => .ok (s, w ++ w')) (.ok (s, []))

/-- A commit that missed its switch line: LOOM.DST.STICKY bit 0 and event 0x1602 (R153). -/
def State.markLate (s : State) (g : Nat) (t : Instant) (l : List (MDie × Nat)) : State :=
  let twill := l.any (fun x => routeKind (s.rdN Obj.loomRouteSource x.1.die x.2) == 3)
  l.foldl (fun s x =>
    let (f, ofs) := s.dstRaster x.1 x.2
    if (routeLanding f ofs t twill).2 then
      (s.setBit Obj.loomDstSticky x.1.die x.2 0).raise .c 0x1602 x.2 (p16 [x.2, g])
    else s) s

/-- A group is committed on the named dies at an instant (R150, R152): all of it, or none of it. -/
def State.commitGroup (s : State) (ds : List MDie) (g : Nat) (t : Instant) : State :=
  let l := ds.flatMap (fun d => (s.groupDsts d g).map (fun p => (d, p)))
  let old := l.map (fun x => (x.1, x.2, (s.dst x.1 x.2).pend))
  match s.takeGroup g t s.inSelvedge l with
  | .error (e, d, p) => (s.loomReject d e g p).ans (.rejected 0x1601)
  | .ok (s, wait) =>
    let s := s.markLate g t l
    if wait = [] then s.ans .ok
    else s.updTwill (fun w => { w with open_ := w.open_ ++ [{ group := g, dsts := old, backup := none, wait := wait }] })

/-- A commit that fails at the source or on its way is rejected: its destinations hold again what they held before (R150, R431, R432). A
write of a backup route is refused as R15 states. -/
def State.rejectOpen (s : State) (c : OpenCommit) (dst : MDie × Nat) (reason : Nat) : State :=
  let s := s.updTwill (fun w => { w with open_ := w.open_.filter (fun x => x != c) })
  match c.backup with
  | some b => (s.persistNum Obj.loomDstBackup dst.1.die dst.2 (b : Nat)).refreshLoom.ans .range
  | none =>
  let s := c.dsts.foldl (fun (s : State) x =>
    (s.updDst x.1 x.2.1 (fun y => { y with pend := x.2.2 })).wr Obj.loomRoutePending x.1.die x.2.1
      ((match x.2.2 with | some p => p.route | none => 0xFFFFFFFF : Nat) : Int)) s
  ((s.refreshLoom).loomReject dst.1 reason c.group dst.2).ans (.rejected 0x1601)

/-- Loom commits are taken: the section is on, and the mode lets it run (R156). -/
def State.loomOn (s : State) (d : MDie) : Bool := s.up d.pdie && s.secOn d 16

/-- The commits at die P whose instant has come are made, in order (R152): shadow routes are taken as they stand then. -/
def State.runDue (s : State) : State :=
  let ready := s.twill.due.filter (fun c => c.2.2.le (Instant.ofNs s.time.base))
  if ready = [] then s
  else
    let s := s.updTwill (fun w => { w with due := w.due.filter (fun c => !c.2.2.le (Instant.ofNs s.time.base)) })
    ready.foldl (fun (s : State) c => s.commitGroup (c.1.filter (fun d => s.loomOn d)) c.2.1 c.2.2) s

/-- A write of LOOM.GROUP.COMMIT: the group is committed on every die the write reaches, on all or on none, at once or at the one instant
of a commit for both dies; the answer comes with the commit (R152, R401). -/
def State.commitWrite (s : State) (d : Die) (g : Nat) : State :=
  let s := s.runDue
  match s.landOn d with
  | [] => s.ans .access
  | x :: l =>
    match (x :: l).find? (fun y => !s.reachable y.1) with
    | some y => s.ans (.unreachable y.1.num)
    | none =>
      let ds := x.1 :: l.map (·.1)
      if x.2.le (Instant.ofNs (s.now x.1.pdie)) then s.commitGroup ds g x.2
      else s.updTwill (fun w => { w with due := w.due ++ [(ds, g, x.2)] })

/-- LOOM_GROUP_COMMIT (R152). -/
def execLoomGroupCommit (d : MDie) (group : Fin 256) (s : State) : Out :=
  when (s.serverUp && s.loomOn d) s (s.commitWrite d.die group.val)

/-- LOOM_GROUP_COMMIT_PACKAGE (R152): both media dies, at Die C's time plus 100 µs. -/
def execLoomGroupCommitPackage (group : Fin 256) (s : State) : Out := when s.serverUp s (s.commitWrite .p group.val)

/-- Twill channels that no destination of the die takes any more are freed (R432). -/
def State.freeIdleRx (s : State) (d : MDie) : State :=
  let needed := (s.dsts d).flatMap (fun p =>
    ((s.heldRoutes d p).filter (fun r => routeKind r == 3)).flatMap (fun r =>
      (List.range (s.dstBond d p)).map (fun m => (routeDevice r, routeDie r, routePort r + m))))
  ((s.twill.rx.filter (fun e => decide (e.1 / 256 = d.num) &&
    decide ((e.2.device, e.2.srcDie, e.2.port) ∉ needed))).map (fun e => e.1 % 256)).foldl (fun s n => s.freeRx d n) s

/-- A backup route is checked and its resources are held (R150, R165): the reason it fails, or the state and the Twill channels still
unanswered. -/
def State.takeBackup (s : State) (d : MDie) (p r : Nat) (sel : Bool) : Except Nat (State × List (MDie × Nat)) :=
  let put := fun (s : State) => (s.persistNum Obj.loomDstBackup d.die p (r : Nat)).refreshLoom
  if ¬ routeCoded r then .error 1
  else match routeKind r with
  | 0 => .ok (put s, [])
  | 3 =>
    match s.takeTwill d p r sel with
    | .error e => .error e
    | .ok (s, w) => .ok (put s, w)
  | _ => match s.localRouteCheck d p r sel with | some e => .error e | none => .ok (put s, [])

/-- LOOM_DST_BACKUP_WRITE (R150, R166): checked by the route rules, refused as R15 states where it fails. While the
backup is in use it takes effect at the next switch line. -/
def execLoomDstBackupWrite (d : MDie) (dst : Fin 256) (route : Nat) (s : State) : Out :=
  let p := dst.val
  when s.serverUp s (s.mirror d.die (fun d _ s =>
    if 2 ^ 32 ≤ route then s.ans .range
    else match s.takeBackup d p route s.inSelvedge with
    | .error _ => s.ans .range
    | .ok (t, w) =>
      let t := if w = [] then t
        else t.updTwill (fun x => { x with open_ := x.open_ ++
          [{ group := 0xFFFF, dsts := [(d, p, none)], backup := some (s.rdN Obj.loomDstBackup d.die p), wait := w }] })
      (t.freeIdleRx d).ans .ok))

/-! ### Loss (R164, R165) -/

/-- The loss cause of a producer on a die, if its output is lost: 1 flow down, 2 off raster, 3 producer stopped
(R164). -/
def State.producerLoss (s : State) (e : MDie) (port : Nat) : Option Nat :=
  let (k, n) := s.srcBind e port
  match k with
  | 1 =>
    if ¬ s.bit Obj.flowInStatus e.die n 0 then some 1
    else if s.bit Obj.flowInStatus e.die n 3 then some 2 else none
  | 2 => if s.rdN Obj.decCtxState e.die n = 0 ∨ s.rdN Obj.decCtxState e.die n = 3 then some 3 else none
  | 3 => if s.bit Obj.cnvChainStatus e.die n 0 then none else some 3
  | 4 => if s.bit Obj.cmpStatus e.die n 0 then none else some 3
  | _ => some 3

/-- The die bridge is up (LOOM.STATUS bit 1). -/
def State.bridgeUp (s : State) : Bool := s.bit Obj.loomStatus .a 0 1 && s.bit Obj.loomStatus .b 0 1

/-- The cause for which a route's source is lost to a destination now, if it is (R164). Black is never lost. -/
def State.routeLoss (s : State) (d : MDie) (p r : Nat) : Option Nat :=
  match routeKind r with
  | 0 => none
  | 3 =>
    let ch := (List.range (s.dstBond d p)).map (fun m => s.rxFor d (routeDevice r) (routeDie r) (routePort r + m))
    if ch.all (fun c => match c with | some n => s.rdN Obj.twlChState d.die n == 2 | none => false) then
      match ch.findSome? (fun c => c.bind (fun n => tabGet (s.twill.rx.map (fun e => (e.1, e.2.lost))) (twlKey d n) none)) with
      | some c => some c
      | none =>
        match s.twlSource d r, s.dstAttr d p with
        | some a, some b => if (toldAttr a).same b then none else some 4
        | _, _ => none
    else some 5
  | k =>
    let e := routeSource d r
    match s.producerLoss e (routePort r) with
    | some c => some c
    | none =>
      match s.srcAttr e (routePort r), s.dstAttr d p with
      | some a, some b =>
        if ¬ a.same b then some 4
        else if k = 2 ∧ ¬ s.bridgeUp then some 5 else none
      | _, _ => some 3

/-- What the package of a Twill source reports of it is noted with the receive channels of a route: the cause for which it is lost, or
none. -/
def State.noteRemote (s : State) (d : MDie) (p r : Nat) (cause : Option Nat) : State :=
  if routeKind r ≠ 3 then s
  else (List.range (s.dstBond d p)).foldl (fun (s : State) m =>
    match s.rxFor d (routeDevice r) (routeDie r) (routePort r + m) with
    | some n => s.updTwill (fun t => { t with rx := t.rx.map (fun e => if e.1 = twlKey d n then (e.1, { e.2 with lost := cause }) else e) })
    | none => s) s

/-- A destination's primary route is found lost, or free of loss (R164); while the destination is on its backup the second counts toward
the 1 s of R165. -/
def State.judgeLoss (s : State) (d : MDie) (p : Nat) : State :=
  let r := (s.dst d p).primary
  match s.routeLoss d p r with
  | none => s.updDst d p (fun x => { x with freeSince := some (x.freeSince.getD (s.now d.pdie)) })
  | some c =>
    let s := s.updDst d p (fun x => { x with lost := some (x.lost.getD c), freeSince := none })
    if c = 4 then s.setBit Obj.loomDstSticky d.die p 2 else s

/-- SOURCE_LOSS_DETECT (R164): the loss is noted, or its end. `x.remote` is what the package of a source over Twill reports of that source:
0, or cause 1 to 4 (its message is firmware traffic, R423). -/
def execSourceLossDetect (d : MDie) (x : LossReport) (s : State) : Out :=
  let p := x.dst.val
  when (s.loomOn d) s
    ((s.noteRemote d p (s.dst d p).primary (if x.remote.val = 0 then none else some x.remote.val)).judgeLoss d p)

/-- What LOOM.SRC.STATUS of a source port shows (R170): producing, lost, off raster, behind a synchronizer. -/
def State.srcStatus (s : State) (e : MDie) (p : Nat) : Nat :=
  let (k, n) := s.srcBind e p
  if k = 0 then 0
  else
    let c := s.producerLoss e p
    let on := s.secOn e secLoom && s.secOn e (producerSection k n)
    (if on ∧ c.isNone then 1 else 0) + (if on ∧ c.isSome then 2 else 0)
      + (if k = 1 ∧ s.bit Obj.flowInStatus e.die n 3 then 4 else 0) + (if (s.fsyFor e p).isSome then 8 else 0)

/-- A destination shows black, or its route: LOOM.DST.STATUS bits 0 and 3. -/
def State.showBlack (s : State) (d : MDie) (p : Nat) (black : Bool) : State :=
  (s.putBit Obj.loomDstStatus d.die p 0 (!black)).putBit Obj.loomDstStatus d.die p 3 black

/-- The switch line of a destination's raster that the die's time has reached (R74). -/
def State.switchInstant (s : State) (d : MDie) (p : Nat) : Instant :=
  let (f, ofs) := s.dstRaster d p
  instantOf f ofs ⟨(coordOf f ofs (s.now d.pdie)).frame, switchLine f.family, 0⟩

/-- Followed audio of a destination is due to go over to what the destination shows from this switch line on (R167, R168). -/
def State.followDue (s : State) (d : MDie) (p : Nat) : State :=
  s.updDst d p (fun x => { x with followDue := if x.breakaway then none else some (s.switchInstant d p) })

/-- A destination switches to a route at its switch line (R154, R167): LOOM.ROUTE.ACTIVE, LOOM.DST.LAG, the switch
count; followed audio is due to switch. -/
def State.switchTo (s : State) (d : MDie) (p r : Nat) : State :=
  let s := s.wr Obj.loomRouteActive d.die p (r : Nat)
  let s := s.wr Obj.loomDstLag d.die p (if routeKind r = 0 then 0 else (s.lagOf d p r : Nat))
  let s := s.bump Obj.loomDstCount d.die p
  ((s.followDue d p).showBlack d p (routeKind r == 0)).refreshLoom

/-- A pending route lands (R153, R166): it becomes the primary route, ends the loss policy and the backup. -/
def State.landRoute (s : State) (d : MDie) (p : Nat) (pr : PendRoute) : State :=
  let s := s.updDst d p (fun x =>
    { x with pend := none, primary := pr.route, breakaway := pr.breakaway, lost := none, heldFrames := 0, freeSince := none })
  let s := s.wr Obj.loomRoutePending d.die p 0xFFFFFFFF
  let s := (s.clrBit Obj.loomDstStatus d.die p 1).clrBit Obj.loomDstStatus d.die p 2
  (s.switchTo d p pr.route).freeIdleRx d

/-- A route's source stands behind a frame synchronizer (R165). -/
def State.behindFsy (s : State) (d : MDie) (r : Nat) : Bool :=
  routeKind r != 3 && routeKind r != 0 && (s.fsyFor (routeSource d r) (routePort r)).isSome

/-- Followed audio of a destination goes to what it now shows. -/
def State.followBlack (s : State) (d : MDie) (p : Nat) : State :=
  (s.showBlack d p true).followDue d p

/-- The loss policy begins at a switch line (R164, R165). -/
def State.beginLoss (s : State) (d : MDie) (p cause : Nat) : State :=
  let s := (s.setBit Obj.loomDstStatus d.die p 2).setBit Obj.loomDstSticky d.die p 1
  let s := s.raise .c 0x1603 p (p16 [p, cause])
  let s := s.updDst d p (fun x => { x with heldFrames := 0, freeSince := none })
  match s.rdN Obj.loomDstLoss d.die p with
  | 1 => if s.behindFsy d (s.dst d p).primary then s else s.followBlack d p
  | 2 =>
    let b := s.rdN Obj.loomDstBackup d.die p
    let s := (s.setBit Obj.loomDstStatus d.die p 1).raise .c 0x1605 p (p16 [p])
    let s := s.switchTo d p b
    if (s.routeLoss d p b).isSome then s.followBlack d p else s
  | _ => s.followBlack d p

/-- A source returns (R164): the destination shows it again. -/
def State.endLoss (s : State) (d : MDie) (p : Nat) : State :=
  let s := (s.clrBit Obj.loomDstStatus d.die p 2).raise .c 0x1604 p (p16 [p])
  let s := (s.updDst d p (fun x => { x with lost := none })).followDue d p
  s.showBlack d p (routeKind (s.dst d p).primary == 0)

/-- A destination on its backup shows the backup route as written, or black while it is lost too (R165, R166). -/
def State.stayLost (s : State) (d : MDie) (p : Nat) : State :=
  let b := s.rdN Obj.loomDstBackup d.die p
  let s := if s.activeRoute d p = b then s else s.switchTo d p b
  let black := (s.routeLoss d p b).isSome || routeKind b == 0
  if s.bit Obj.loomDstStatus d.die p 3 == black then s
  else if black then s.followBlack d p
  else (s.showBlack d p false).followDue d p

/-- A destination stays on its backup; its primary has been free of loss since `t0`. -/
def State.stayBackup (s : State) (d : MDie) (p : Nat) (t0 : Option Nat) : State :=
  (s.updDst d p (fun y => { y with freeSince := t0 })).stayLost d p

/-- A destination on its backup at a switch line (R165, R166): it returns to its primary once that was free of loss for
1 s under LOOM.DST.REVERT, follows a written backup, and shows black while the backup is lost. -/
def State.onBackup (s : State) (d : MDie) (p : Nat) : State :=
  let x := s.dst d p
  let t := s.now d.pdie
  match s.routeLoss d p x.primary, x.freeSince with
  | none, some t0 =>
    if t0 + nsPerSec ≤ t ∧ s.rdN Obj.loomDstRevert d.die p = 1 then
      let s := (s.clrBit Obj.loomDstStatus d.die p 1).clrBit Obj.loomDstStatus d.die p 2
      let s := (s.setBit Obj.loomDstSticky d.die p 3).raise .c 0x1606 p (p16 [p])
      let s := s.updDst d p (fun y => { y with lost := none, freeSince := none })
      s.switchTo d p x.primary
    else s.stayBackup d p (some t0)
  | none, none => s.stayBackup d p (some t)
  | some _, _ => s.stayBackup d p none

/-- A switch line of a destination: a pending route lands, or the loss policy begins, goes on or ends (R153, R164–R166, R168). -/
def State.dstSwitch (s : State) (d : MDie) (p : Nat) : State :=
  let x := s.dst d p
  let t := s.now d.pdie
  let due := match x.pend with
    | some pr => if pr.land ≤ t ∧ s.twill.open_.all (fun c => !(c.dsts.any (fun y => y.1 == d && y.2.1 == p))) then some pr else none
    | none => none
  match due with
  | some pr => s.landRoute d p pr
  | none =>
    if s.bit Obj.loomDstStatus d.die p 1 then s.onBackup d p
    else if s.bit Obj.loomDstStatus d.die p 2 then
      match s.routeLoss d p x.primary with
      | none => s.endLoss d p
      | some _ =>
        let n := x.heldFrames + 1
        let s := s.updDst d p (fun y => { y with heldFrames := n })
        let hold := s.rdN Obj.loomDstHold d.die p
        if s.rdN Obj.loomDstLoss d.die p = 1 ∧ hold ≠ 0 ∧ hold ≤ n ∧ ¬ s.bit Obj.loomDstStatus d.die p 3 then s.followBlack d p
        else s
    else
      match x.lost, s.routeLoss d p x.primary with
      | some c, some _ => s.beginLoss d p c
      | some _, none => s.updDst d p (fun y => { y with lost := none })
      | none, _ => s

/-- DST_SWITCH_LINE (R153, R154): what the switch line leaves is what the destination shows from its frame on. -/
def State.dstSwitchLine (s : State) (d : MDie) (p : Nat) : State :=
  let s := s.runDue.dstSwitch d p
  let (f, ofs) := s.dstRaster d p
  let fr := (coordOf f ofs (s.now d.pdie)).frame
  s.updDst d p (fun x => { x with turn := x.turn.put fr (s.activeRoute d p, s.bit Obj.loomDstStatus d.die p 3) })

/-- DIE_BRIDGE_DOWN (R164): LOOM.STATUS bit 1 of both dies clears, and LOOM.STICKY bit 1 is set where bridge channels
were held. -/
def execDieBridgeDown (s : State) : Out :=
  .next (mdies.foldl (fun (s : State) e =>
    if s.up e.pdie then
      let s := s.clrBit Obj.loomStatus e.die 0 1
      if s.rdN Obj.loomBridgeTxUsed e.die 0 + s.rdN Obj.loomBridgeRxUsed e.die 0 = 0 then s else s.setBit Obj.loomSticky e.die 0 1
    else s) s)

/-- DIE_BRIDGE_RESTORED (R164): it carries again while both media dies run. -/
def execDieBridgeRestored (s : State) : Out :=
  when (s.up .a && s.up .b) s (mdies.foldl (fun (s : State) e => s.setBit Obj.loomStatus e.die 0 1) s)

/-! ### Configuration (R146, R150, R156) -/

/-- Every destination of a die takes a route as its pending route where it passes R150, black otherwise; backup routes
that fail are cleared (R150, R156). -/
def State.loomTake (s : State) (d : MDie) (route : Nat → Nat) (sel : Bool) : State :=
  let t := Instant.ofNs (s.now d.pdie)
  (s.dsts d).foldl (fun (s : State) p =>
    let s := s.wr Obj.loomDstBond d.die p (s.dstBond d p : Nat)
    let (f, ofs) := s.dstRaster d p
    let land := (instantOf f ofs (landing f ofs (switchLine f.family) t)).ceilNs
    let r := route p
    let pr : PendRoute := ⟨r, s.rdN Obj.loomRouteGroup d.die p, land, s.rdN Obj.loomRouteAudio d.die p == 1⟩
    let s : State := match s.takeRoute d p r pr sel with
      | .ok (s, w) =>
        if w = [] then s
        else s.updTwill (fun x => { x with open_ := x.open_ ++ [{ group := pr.group, dsts := [(d, p, none)], backup := none, wait := w }] })
      | .error e =>
        let black := { pr with route := 0 }
        (((s.updDst d p (fun x => { x with pend := some black })).wr Obj.loomRoutePending d.die p 0).setBit
          Obj.loomSticky d.die 0 0).raise .c 0x1601 p (p16 [e, pr.group, p])
    match s.takeBackup d p (s.rdN Obj.loomDstBackup d.die p) sel with
    | .error _ => s.persistNum Obj.loomDstBackup d.die p 0
    | .ok (s, w) =>
      if w = [] then s
      else s.updTwill (fun x => { x with open_ := x.open_ ++ [{ group := 0xFFFF, dsts := [(d, p, none)], backup := some 0, wait := w }] })) s

/-- On leaving CONFIGURE every destination takes its shadow route (R156). -/
def State.loomLeaveConfigure (s : State) (sel : Bool) : State :=
  mdies.foldl (fun (s : State) d =>
    if s.up d.pdie then s.loomTake d (fun p => s.rdN Obj.loomRouteSource d.die p) sel else s) s

/-- Loom's section goes off: routes in force, pending routes and bridge channels end (R156). -/
def State.loomOff (s : State) (d : MDie) : State :=
  let s := (s.dsts d).foldl (fun (s : State) p =>
    ((((s.wr Obj.loomRouteActive d.die p 0).wr Obj.loomRoutePending d.die p 0xFFFFFFFF).wr Obj.loomDstStatus d.die p 0).wr
      Obj.loomDstLag d.die p 0).updDst d p (fun _ => DstSt.start)) s
  (s.freeIdleRx d).refreshLoom

end Sys2Proof.Machine
end

