-- ==== Sys2Proof/Machine/FrameSync.lean ====
section
/-! DEFINITION. Frame synchronizers (R157–R163), and what a source port shows. The read decision's command stands in
Machine/Selvedge.lean, since the owner decides for its partner there. -/

namespace Sys2Proof.Machine

/-- An empty ring. -/
def FsySt.start : FsySt :=
  { writing := none, unread := [], shown := ⟨none, none, 0⟩, rateCount := 0, rateStart := 0, decision := none }

/-- A synchronizer's ring. -/
def State.fsy (s : State) (d : MDie) (n : Nat) : FsySt := tabGet (s.md d).loom.fsy n FsySt.start

/-- A state with a synchronizer's ring changed. -/
def State.updFsy (s : State) (d : MDie) (n : Nat) (f : FsySt → FsySt) : State :=
  s.updMd d (fun m => { m with loom := { m.loom with fsy := tabSet m.loom.fsy n (f (s.fsy d n)) } })

/-- FSY.SOURCE of a synchronizer, where it serves a port. -/
def State.fsyPort (s : State) (d : MDie) (n : Nat) : Option Nat :=
  let v := s.rdN Obj.fsySource d.die n
  if v = 0xFFFF then none else some v

/-- The bond of the source port a synchronizer serves, and its member number in it (R148, R158). -/
def State.fsyMember (s : State) (d : MDie) (n : Nat) : Nat × Nat :=
  match s.fsyPort d n with
  | none => (1, 0)
  | some p =>
    let b := max 1 (s.rdN Obj.loomSrcBond d.die p)
    (b, p % b)

/-- The synchronizers of the bond that a member-0 synchronizer decides for. -/
def State.fsyBond (s : State) (d : MDie) (n : Nat) : List Nat :=
  match s.fsyPort d n with
  | none => []
  | some p =>
    let (b, m) := s.fsyMember d n
    (List.range b).filterMap (fun k => s.fsyOf d (p - m + k))

/-- FSY.FILL becomes the number of unread frames; the watermark follows (R162, R398). -/
def State.setFill (s : State) (d : MDie) (n : Nat) : State :=
  let k := (s.fsy d n).unread.length
  (s.wr Obj.fsyFill d.die n (k : Nat)).watermark d .fsy n k

/-- A drop: counted, and reported by the first after FSY.STICKY bit 2 was cleared (R161). -/
def State.fsyDrop (s : State) (d : MDie) (n : Nat) : State :=
  let told := s.bit Obj.fsySticky d.die n 2
  let s := ((s.updFsy d n (fun x => { x with unread := x.unread.drop 1 })).bump Obj.fsyDropCount d.die n).setBit
    Obj.fsySticky d.die n 2
  let s := if told then s else s.raise d.pdie 0x1611 n (p16 [n])
  s.setFill d n

/-- A repeat: counted, and reported by the first after FSY.STICKY bit 1 was cleared (R161). -/
def State.fsyRepeat (s : State) (d : MDie) (n : Nat) : State :=
  let told := s.bit Obj.fsySticky d.die n 1
  let s := (s.bump Obj.fsyRepeatCount d.die n).setBit Obj.fsySticky d.die n 1
  if told then s else s.raise d.pdie 0x1610 n (p16 [n])

/-- Active size of the raster a synchronizer writes (R124, R163). -/
def State.fsySize (s : State) (d : MDie) (n : Nat) : Nat × Nat := activeSize (s.rdN Obj.fsyFormat d.die n / 256)

/-- The attributes of the source port a synchronizer serves, the defaults where it has no producer. -/
def State.fsyAttr (s : State) (d : MDie) (n : Nat) : Attr :=
  ((s.fsyPort d n).bind (fun p => s.srcAttr d (p - (s.fsyMember d n).2))).getD ⟨0x0607, 0, 0, 1, 1, 0, 0⟩

/-- The ingress flow behind a synchronizer, if a flow produces its port. -/
def State.fsyFlow (s : State) (d : MDie) (n : Nat) : Option Nat :=
  match s.fsyPort d n with
  | none => none
  | some p => let (k, f) := s.srcBind d (p - (s.fsyMember d n).2); if k = 1 then some f else none

/-- The lines of a bond member: the rows it carries (R148). -/
def memberRows (bond member height : Nat) : List Nat := (List.range height).filter (fun r => decide (r % bond = member))

/-- The frame being written completes (R159): missing samples are replaced and counted with its flow, and the frame
waits unread. -/
def State.fsyComplete (s : State) (d : MDie) (n : Nat) : State :=
  match (s.fsy d n).writing with
  | none => s
  | some pic =>
    let (w, h) := s.fsySize d n
    let (bond, m) := s.fsyMember d n
    let a := s.fsyAttr d n
    let rows := memberRows bond m h
    let full := concealRows pic.pix rows w (blackPix (depthBits a.depth) a.range (a.sampling == 2)) (leadPix pic.ts)
    let s := match s.fsyFlow d n with
      | some f => s.addCount Obj.flowInConcealCount d.die f (w * rows.length - pic.pix.length)
      | none => s
    let s := s.updFsy d n (fun x => { x with writing := none, unread := x.unread ++ [{ pic with pix := full, done := s.now d.pdie }] })
    (s.setBit Obj.fsyStatus d.die n 1).setFill d n

/-- The writer starts a frame (R159, R160): the frame before completes, and the oldest unread one is overwritten when
the ring is full. -/
def State.fsyStartFrame (s : State) (d : MDie) (n ts : Nat) : State :=
  let s := s.fsyComplete d n
  let s := if (s.fsy d n).unread.length + 2 = s.rdN Obj.fsySlots d.die n then s.fsyDrop d n else s
  let held := ((s.fsyPort d n).map (fun p => tabGet (s.md d).loom.anc p (0, []))).getD (0, [])
  s.updFsy d n (fun x =>
    { x with writing := some { ts := ts, pix := [], anc := if held.1 = ts then held.2 else [], done := 0 },
             rateStart := if x.rateCount = 0 then s.now d.pdie else x.rateStart, rateCount := x.rateCount + 1 })

/-- A synchronizer runs: it serves a port and its section is on. -/
def State.fsyRuns (s : State) (d : MDie) (n : Nat) : Bool := s.bit Obj.fsyStatus d.die n 0 && s.secOn d secFsy

/-- FSY_WRITER_FRAME_START (R159, R160): `ts` is the RTP timestamp of the packet that follows a marker packet. -/
def execFsyWriterFrameStart (d : MDie) (n : Fin 32) (ts : Nat) (s : State) : Out :=
  when (s.up d.pdie && s.fsyRuns d n.val) s (s.fsyStartFrame d n.val ts)

/-- FSY_FRAME_COMPLETE (R159): the marker packet is written. -/
def execFsyFrameComplete (d : MDie) (n : Fin 32) (s : State) : Out :=
  when (s.up d.pdie && s.fsyRuns d n.val) s (s.fsyComplete d n.val)

/-- The samples of a video packet enter the frames being written by the synchronizers of its flow's bond (R148,
R159). -/
def State.fsyWrite (s : State) (d : MDie) (port : Nat) (segs : List Seg) : State :=
  let bond := max 1 (s.rdN Obj.loomSrcBond d.die port)
  (List.range bond).foldl (fun s m =>
    match s.fsyOf d (port + m) with
    | none => s
    | some n =>
      let mine := segs.filter (fun g => decide (g.row % bond = m))
      s.updFsy d n (fun x => { x with writing := x.writing.map (fun p => { p with pix := mine.foldl placeSeg p.pix }) })) s

/-- Frames that a read decision now counts: one that completes in the same cycle counts only from the next decision (R159). -/
def State.fsyReady (s : State) (d : MDie) (n : Nat) : List Picture :=
  (s.fsy d n).unread.takeWhile (fun p => decide (p.done < s.now d.pdie))

/-- The coordinate on a synchronizer's raster. -/
def State.fsyCoord (s : State) (d : MDie) (n : Nat) : Coord :=
  coordOf (fmt (s.rdN Obj.fsyFormat d.die n)) (s.rdN Obj.fsyOfs d.die n) (s.now d.pdie)

/-- One synchronizer reads: `drops` unread frames are discarded, then the oldest unread one is shown, or the shown one
repeated where none waits (R160). Before the first frame completed it outputs black and counts nothing. -/
def State.fsyShow (s : State) (d : MDie) (n drops : Nat) : State :=
  let s := (List.range drops).foldl (fun s _ => s.fsyDrop d n) s
  let fr := (s.fsyCoord d n).frame
  match s.fsyReady d n with
  | [] =>
    if s.bit Obj.fsyStatus d.die n 1 then (s.updFsy d n (fun x => { x with shown := x.shown.put fr x.shown.now })).fsyRepeat d n else s
  | p :: _ => (s.updFsy d n (fun x => { x with unread := x.unread.drop 1, shown := x.shown.put fr (some p) })).setFill d n

/-- What the reader of member 0 decides: how many unread frames to discard (R160). -/
def State.fsyDrops (s : State) (d : MDie) (n : Nat) : Nat :=
  if s.rdN Obj.fsyPolicy d.die n = 1 then (s.fsyReady d n).length - 1 else 0

/-- The read decision of a synchronizer that is member 0 of its bond, for every member (R160). -/
def State.fsyRead (s : State) (d : MDie) (n drops : Nat) : State := (s.fsyBond d n).foldl (fun s k => s.fsyShow d k drops) s

/-- FSY_RATE_MEASUREMENT (R162): over 64 input frames, in parts per billion, rounded toward −∞ (DESIGN CHOICE, assumption 95); event 0x1612
each time the magnitude rises above 1,000,000. -/
def execFsyRateMeasurement (d : MDie) (n : Fin 32) (s : State) : Out :=
  let k := n.val
  let x := s.fsy d k
  let t := s.now d.pdie
  when (s.up d.pdie && s.fsyRuns d k && decide (64 < x.rateCount) && decide (x.rateStart < t)) s
    (let f := fmt (s.rdN Obj.fsyFormat d.die k)
     let nominal : Int := 64 * f.den * nsPerSec * 1000000000
     let rate := divFlr nominal (f.num * (t - x.rateStart : Nat)) - 1000000000
     let old := s.rd Obj.fsyRate d.die k
     let (v, s) := if satS rate 32 = rate then (rate, s) else
       let (w, s) := s.free 32
       (signed 32 w, s)
     let s := (s.wr Obj.fsyRate d.die k v).updFsy d k (fun y => { y with rateCount := 1, rateStart := t })
     if mag old ≤ 1000000 ∧ 1000000 < mag v then s.raise d.pdie 0x1612 k (payloadOf [(16, k), (32, v)]) else s)

/-- The input of the synchronizers behind a flow's port is lost, or back (R164, R170). -/
def State.fsyInput (s : State) (d : MDie) (port : Nat) (lost : Bool) : State :=
  let bond := max 1 (s.rdN Obj.loomSrcBond d.die port)
  (List.range bond).foldl (fun s m =>
    match s.fsyOf d (port + m) with
    | none => s
    | some n =>
      if lost ∧ ¬ s.bit Obj.fsyStatus d.die n 3 then
        ((s.setBit Obj.fsyStatus d.die n 3).setBit Obj.fsySticky d.die n 3).raise d.pdie 0x1613 n (p16 [n])
      else if lost then s else s.clrBit Obj.fsyStatus d.die n 3) s

/-- A poisoned DRAM read of a synchronizer (R159): the samples of its words, of a line of the frame shown, are replaced and counted as R133
states, and FSY.STICKY bit 4 is set. -/
def State.fsyPoison (s : State) (d : MDie) (n row col samples : Nat) : State :=
  let (w, _) := s.fsySize d n
  let a := s.fsyAttr d n
  let bad := fun (k : Nat) => k / 16384 == row && decide (pixKey row col ≤ k) && decide (k < pixKey row (col + samples))
  let fix := fun (pic : Picture) =>
    let left := pic.pix.filter (fun e => !bad e.1)
    let line := concealRows left [row] w (blackPix (depthBits a.depth) a.range (a.sampling == 2)) (leadPix pic.ts)
    { pic with pix := left.filter (fun e => decide (e.1 / 16384 ≠ row)) ++ line }
  let s := s.updFsy d n (fun x => { x with shown := { x.shown with now := x.shown.now.map fix } })
  let s := match s.fsyFlow d n with
    | some f => s.addCount Obj.flowInConcealCount d.die f (min samples (w - col))
    | none => s
  s.setBit Obj.fsySticky d.die n 4

/-- Some destination has read a row of the frame now on a synchronous flow's raster at its own raster instant: what arrives for it is
late (R157). -/
def State.rowRead (s : State) (d : MDie) (f row : Nat) : Bool :=
  let x := s.flowIn d f
  let port := descTarget (s.inDesc d f)
  mdies.any (fun e => (s.boundDsts e).any (fun p =>
    let r := s.activeRoute e p
    let (fm, ofs) := s.dstRaster e p
    (routeKind r == 1 || routeKind r == 2) && routeSource e r == d && routePort r == port
      && (instantOf fm ofs ⟨x.frame, rowLine fm.family row, 0⟩).le (Instant.ofNs (s.now d.pdie))))

/-- A video packet's samples are placed by row and offset (R133); those of a line that a destination has read are discarded (R157). -/
def State.depacketize (s : State) (d : MDie) (f : Nat) (r : Rtp) : State :=
  let segs := r.segs.filter (fun g => !s.rowRead d f g.row)
  s.updFlowIn d f (fun x => { x with ts := some (x.ts.getD r.ts), cur := segs.foldl placeSeg x.cur })

/-- An ancillary packet of a frame joins the frame it belongs to (R145, R161): by its RTP timestamp one that the port's synchronizer writes,
keeps or shows; at the port itself the newest frame's packets stand together. -/
def State.takeAnc (s : State) (d : MDie) (port ts : Nat) (data : List Byte) : State :=
  let s := s.updMd d (fun m =>
    let old := tabGet m.loom.anc port (ts, [])
    { m with loom := { m.loom with anc := tabSet m.loom.anc port (ts, (if old.1 = ts then old.2 else []) ++ [data]) } })
  match s.fsyFor d port with
  | none => s
  | some n =>
    let join := fun (p : Picture) => if p.ts = ts then { p with anc := p.anc ++ [data] } else p
    s.updFsy d n (fun x => { x with writing := x.writing.map join, unread := x.unread.map join,
                                    shown := { x.shown with now := x.shown.now.map join } })

/-! ### What ports show -/

/-- A sample stored at a position of a picture. -/
def pixStored (t : Tab Pix) (row col : Nat) : Option Pix := (t.find? (fun x => x.1 == pixKey row col)).map (·.2)

/-- The sample of a frame that a source port of a die carries at a row and column, from a flow's ring or a synchronizer; none where it shows
black or comes from a block downstream (R157, R159). -/
def State.portSample (s : State) (e : MDie) (port fr row col : Nat) : Option Pix :=
  let (k, n) := s.srcBind e port
  let bond := max 1 (s.rdN Obj.loomSrcBond e.die port)
  match s.fsyFor e (port + row % bond) with
  | some f => (((s.fsy e f).shown.held fr).map (·.pix)).bind (fun t => pixStored t row col)
  | none =>
    if k ≠ 1 then none
    else
      let x := s.flowIn e n
      let b := s.inDesc e n
      if fr < x.frame then pixStored x.shown row col
      else some (concealAt x.cur (blackPix (depthBits (descBitDepth b)) (descRange b) (descSampling b == 2)) (leadPix x.frame) row col)

end Sys2Proof.Machine
end

