-- ==== Sys2Proof/Machine/Pixel.lean ====
section
/-! DEFINITION. Arithmetic of samples: scaler (R179, R180, R182), colour unit (R185), output stage (R187), blending (R202,
R204, R205, R207), converter interpolation (R191), CRC streams (R217). All of it is integer and exact. -/

namespace Sys2Proof.Machine

/-- Component `k` of a picture position. -/
def comp (p : Pix) (k : Nat) : Nat := match k with | 0 => p.c0 | 1 => p.c1 | _ => p.c2

/-- A picture position from its components. -/
def pixOf (f : Nat → Nat) : Pix := ⟨f 0, f 1, f 2⟩

/-- A sum of eight terms. -/
def sum8 (f : Nat → Int) : Int := (List.range 8).foldl (fun a t => a + f t) 0

/-- A rectangle of a DOMAIN of 8 bytes: x, y, w, h (R178). -/
def rectOf (b : List Byte) : Rect := ⟨fieldAt b 0 2, fieldAt b 2 2, fieldAt b 4 2, fieldAt b 6 2⟩

/-- The rectangle meant: all zeros is the full picture (R178). -/
def Rect.orFull (r : Rect) (size : Nat × Nat) : Rect := if r.w = 0 ∧ r.h = 0 ∧ r.x = 0 ∧ r.y = 0 then ⟨0, 0, size.1, size.2⟩ else r

/-- A position lies in a rectangle. -/
def Rect.has (r : Rect) (row col : Nat) : Bool :=
  decide (r.x ≤ col) && decide (col < r.x + r.w) && decide (r.y ≤ row) && decide (row < r.y + r.h)

/-! ### Scaler -/

/-- step and init of an axis (R179). -/
def sclStep (sw dw : Nat) : Int := divFlr ((sw * 2 ^ 20 + dw / 2 : Nat) : Int) dw
def sclInit (step : Int) : Int := divFlr (step - 1048576) 2

/-- Source index and phase of a position q (R179). -/
def sclPhase (q : Int) : Int × Nat :=
  let p := shrRhu q 14
  let i := shrFlr p 6
  (i, (p - 64 * i).toNat)

/-- Vertical position of output line `y` of the rectangle, in source picture lines; an interlaced source has parity
`ks` (R179). -/
def sclV (sh dh y : Nat) (inter : Bool) (ks : Nat) : Int × Nat :=
  let st := sclStep sh dh
  let q := sclInit st + y * st - (if inter then (ks * 2 ^ 20 : Nat) else 0 : Nat)
  sclPhase (shrFlr q (if inter then 1 else 0))

/-- Horizontal position of output sample `x`; a chroma sample of a 4:2:2 source lies at half of it (R179). -/
def sclH (sw dw x : Nat) (half : Bool) : Int × Nat :=
  let st := sclStep sw dw
  let q := sclInit st + x * st
  sclPhase (if half then shrFlr q 1 else q)

/-- Tap `t` of phase `ph` of a coefficient set (R181). -/
def coefAt (set_ : List Byte) (ph t : Nat) : Int := signed 16 (fieldAt set_ (2 * (8 * ph + t)) 2)

/-- An input to the scaler: frame-line picture, attributes that decide its layout, field parity. -/
structure SclIn where
  pic : Nat → Nat → Pix
  sampling : Nat
  depth : Nat
  inter : Bool
  ks : Nat

/-- One component of the scaler's output at a line and sample of the rectangle (R180). -/
def sclComp (i : SclIn) (c : SclCfg) (cv chY chC : List Byte) (y x k : Nat) : Nat :=
  let half := i.sampling == 0 && k != 0
  let hp := if i.inter then c.src.h / 2 else c.src.h
  let (iv, pv) := sclV c.src.h c.dst.h y i.inter i.ks
  let (ih, ph) := sclH c.src.w c.dst.w x half
  let ch := if k = 0 ∨ i.sampling = 2 then chY else chC
  let rowOf := fun (t : Nat) =>
    let r := (clip3 0 (hp - 1 : Nat) (iv - 3 + t)).toNat
    if i.inter then 2 * (c.src.y / 2 + r) + i.ks else c.src.y + r
  let wp := if half then c.src.w / 2 else c.src.w
  let colOf := fun (t : Nat) =>
    let n := (clip3 0 (wp - 1 : Nat) (ih - 3 + t)).toNat
    if half then c.src.x + 2 * n else c.src.x + n
  let v := fun (col : Nat) => satS (shrRne (sum8 (fun t =>
    coefAt cv pv t * ((comp (i.pic (rowOf t) col) k * 2 ^ (12 - i.depth) : Nat) : Int))) 8) 16
  (clip3 0 4095 (shrRne (sum8 (fun t => coefAt ch ph t * v (colOf t))) 12)).toNat

/-- The scaler's 4:4:4 output at a line and sample of the rectangle (R180). -/
def sclAt (i : SclIn) (c : SclCfg) (cv chY chC : List Byte) (y x : Nat) : Pix := pixOf (sclComp i c cv chY chC y x)

/-- The last source picture line that output line `y` reads, counted from the crop's first line (R176, R182). -/
def sclLast (c : SclCfg) (y : Nat) (inter : Bool) (ks : Nat) : Nat :=
  let hp := if inter then c.src.h / 2 else c.src.h
  (clip3 0 (hp - 1 : Nat) ((sclV c.src.h c.dst.h y inter ks).1 + (c.vtaps / 2 : Nat))).toNat

/-! ### Colour unit -/

/-- Entry `i` of table `k` of a LUT object (R186). -/
def lutEntry (b : List Byte) (k i : Nat) : Int := fieldAt b (2 * (1025 * k + i)) 2

/-- `lut` of R185. -/
def lutAt (b : List Byte) (k : Nat) (x : Int) : Int :=
  let i := (shrFlr x 5).toNat
  if 1024 ≤ i then lutEntry b k 1024
  else lutEntry b k i + shrRne ((lutEntry b k (i + 1) - lutEntry b k i) * (x - 32 * i)) 5

/-- Coefficient (j, i) and offset j of a matrix object (R186). -/
def matAt (b : List Byte) (j i : Nat) : Int := signed 16 (fieldAt b (2 * (3 * j + i)) 2)
def matOfs (b : List Byte) (j : Nat) : Int := signed 16 (fieldAt b (18 + 2 * j) 2)

/-- A row of a matrix applied to three values. -/
def matRow (b : List Byte) (j : Nat) (x : Nat → Int) : Int := matAt b j 0 * x 0 + matAt b j 1 * x 1 + matAt b j 2 * x 2

/-- The colour unit (R185). -/
def colourUnit (u : CuCfg) (p : Pix) : Pix :=
  let x := fun j => (comp p j : Int) - matOfs u.matIn j
  let a := fun j => lutAt u.lutPre j (clip3 0 32768 (shrRne (matRow u.matIn j x) 10))
  let b := fun j => lutAt u.lutPost j (clip3 0 32768 (shrRne (matRow u.mat j a) 13))
  pixOf (fun j => (clip3 0 4095 (shrRne (matRow u.matOut j b) 16 + matOfs u.matOut j)).toNat)

/-! ### Output stage -/

/-- CLIP.MIN and CLIP.MAX of a component (R187). -/
def clipMin (b : List Byte) (k : Nat) : Nat := fieldAt b (4 * k) 2
def clipMax (b : List Byte) (k : Nat) : Nat := fieldAt b (4 * k + 2) 2

/-- Depth reduction of one component (R187). -/
def reduceComp (clip : List Byte) (depth k e : Nat) : Nat :=
  (clip3 (shrFlr (clipMin clip k) (12 - depth)) (shrFlr (clipMax clip k) (12 - depth)) (shrRne e (12 - depth))).toNat

/-- Depth reduction; a position without chroma samples keeps 0 for them. -/
def reducePix (clip : List Byte) (depth : Nat) (chroma : Bool) (p : Pix) : Pix :=
  if chroma then pixOf (fun k => reduceComp clip depth k (comp p k)) else ⟨reduceComp clip depth 0 p.c0, 0, 0⟩

/-- Chroma decimation of a line to 4:2:2 (R187). -/
def decimate (line : Nat → Pix) (width col : Nat) : Pix :=
  if col % 2 = 1 then ⟨(line col).c0, 0, 0⟩
  else
    let f := fun k =>
      (shrRne ((comp (line (col - 1)) k + 2 * comp (line col) k + comp (line (min (width - 1) (col + 1))) k : Nat) : Int) 2).toNat
    ⟨(line col).c0, f 1, f 2⟩

/-- A line at the sampling of its attributes. -/
def sampled (sampling : Nat) (line : Nat → Pix) (width col : Nat) : Pix :=
  if sampling = 0 then decimate line width col else line col

/-- A position carries chroma samples at a sampling. -/
def hasChroma (sampling col : Nat) : Bool := sampling != 0 || col % 2 == 0

/-- A picture as a table. -/
def tabulate (w h : Nat) (f : Nat → Nat → Pix) : Tab Pix :=
  (List.range h).flatMap (fun r => (List.range w).map (fun c => (pixKey r c, f r c)))

/-- A stored picture at a position, black where it holds none. -/
def pictureAt (t : Tab Pix) (black : Pix) (row col : Nat) : Pix := ((t.find? (fun e => e.1 == pixKey row col)).map (·.2)).getD black

/-! ### Converter interpolation -/

/-- `fetch` of R191 on one component's plane of a size, at a position in 1/16 sample. -/
def frcFetch (plane : Nat → Nat → Nat) (w h : Nat) (x16 y16 : Int) : Int :=
  let ix := shrFlr x16 4
  let fx := x16 - 16 * ix
  let iy := shrFlr y16 4
  let fy := y16 - 16 * iy
  let at_ := fun (x y : Int) => (plane (clip3 0 (h - 1 : Nat) y).toNat (clip3 0 (w - 1 : Nat) x).toNat : Int)
  shrRne (at_ ix iy * (16 - fx) * (16 - fy) + at_ (ix + 1) iy * fx * (16 - fy) + at_ ix (iy + 1) * (16 - fx) * fy +
    at_ (ix + 1) (iy + 1) * fx * fy) 8

/-- One component between two pictures at phase `ph` under vector `v` (R191). -/
def frcComp (a b : Nat → Nat → Nat) (w h row col ph : Nat) (vx vy : Int) (half : Bool) : Nat :=
  let wt := shrRhu ph 8
  let dAx := shrRne (ph * vx) 16
  let dAy := shrRne (ph * vy) 16
  let dBx := dAx - vx
  let dBy := dAy - vy
  let ax := if half then shrRne dAx 1 else dAx
  let bx := if half then shrRne dBx 1 else dBx
  let fa := frcFetch a w h (col * 16 + ax) (row * 16 + dAy)
  let fb := frcFetch b w h (col * 16 + bx) (row * 16 + dBy)
  (shrRne (fa * (256 - wt) + fb * wt) 8).toNat

/-- A picture position between two stored pictures (R191); the chroma of 4:2:2 lies on even columns. -/
def frcPix (a b : Nat → Nat → Pix) (sampling w h row col ph : Nat) (vx vy : Int) : Pix :=
  if sampling = 0 then
    let c := fun k => frcComp (fun r x => comp (a r (2 * x)) k) (fun r x => comp (b r (2 * x)) k) (w / 2) h row (col / 2) ph vx vy true
    let y := frcComp (fun r x => (a r x).c0) (fun r x => (b r x).c0) w h row col ph vx vy false
    if col % 2 = 0 then ⟨y, c 1, c 2⟩ else ⟨y, 0, 0⟩
  else pixOf (fun k => frcComp (fun r x => comp (a r x) k) (fun r x => comp (b r x) k) w h row col ph vx vy false)

/-! ### Keys and blending -/

/-- `key` of R204. -/
def keyAt (l : LayerCfg) (y : Nat) : Int := clip3 0 4096 (shrRne (((y : Int) - l.keyClip) * l.keyGain) 8)

/-- A surface sample's codes and alpha (R202). -/
def surfSample (fmt : Nat) (b : List Byte) : Pix × Int :=
  if fmt = 0 then (pixOf (fun k => fieldAt b k 1 * 16), shrRne (fieldAt b 3 1 * 4112 : Nat) 8)
  else
    let a := fieldAt b 6 2 / 16
    (pixOf (fun k => fieldAt b (2 * k) 2 / 16), ((a + a / 2048 : Nat) : Int))

/-- Bytes per sample of a surface format (R202). -/
def surfBytes (fmt : Nat) : Nat := if fmt = 0 then 4 else 8

/-- `lut12` of R205. -/
def lut12 (b : List Byte) (k c : Nat) : Int := clip3 0 32768 (lutAt b k ((c * 8 : Nat) : Int))

/-- BLACK of R205. -/
def blendBlack (sampling range : Nat) : Pix := blackPix 12 range (sampling == 2)

/-- P of a layer (R205). -/
def blendP (pre : List Byte) (black : Pix) (premul : Bool) (c : Pix) (a : Int) (k : Nat) : Int :=
  let bk := lut12 pre k (comp black k)
  let v := lut12 pre k (comp c k)
  if premul then v - shrRne (bk * a) 12 else shrRne ((v - bk) * a) 12

/-- One blending step (R205). -/
def blendStep (acc p a : Int) : Int := clip3 (-32768) 32768 (p + shrRne (acc * (4096 - a)) 12)

/-- One press step (R207). -/
def pressStep (f : FeltPix) (p : Nat → Int) (a : Int) : FeltPix :=
  let g := fun (x : Int) (k : Nat) => clip3 (-32768) 32767 (p k + shrRne (x * (4096 - a)) 12)
  ⟨g f.p0 0, g f.p1 1, g f.p2 2, (shrRne (f.t * (4096 - a)) 12).toNat⟩

/-- FP of a Felt sample. -/
def FeltPix.fp (f : FeltPix) (k : Nat) : Int := match k with | 0 => f.p0 | 1 => f.p1 | _ => f.p2

/-- The Felt step (R207). -/
def feltStep (f : FeltPix) (acc : Int) (k : Nat) : Int := clip3 (-32768) 32768 (f.fp k + shrRne (acc * f.t) 12)

/-- A compositor's output code from the accumulated blend (R205). -/
def blendOut (pre post : List Byte) (black : Pix) (acc : Int) (k : Nat) : Nat :=
  (clip3 0 4095 (shrRne (lutAt post k (clip3 0 32768 (acc + lut12 pre k (comp black k)))) 3)).toNat

/-! ### CRC streams -/

/-- A component value as two bytes, low byte first (R217). -/
def crcWord (v : Nat) : List Byte := [BitVec.ofNat 8 v, BitVec.ofNat 8 (v / 256)]

/-- The bytes of one row of a rectangle (R217). -/
def crcRow (pic : Nat → Nat → Pix) (sampling row x w : Nat) : List Byte :=
  (List.range w).flatMap (fun i =>
    let p := pic row (x + i)
    if sampling = 2 then crcWord p.c0 ++ crcWord p.c1 ++ crcWord p.c2
    else if sampling = 1 then crcWord p.c1 ++ crcWord p.c0 ++ crcWord p.c2
    else if i % 2 = 0 then crcWord p.c1 ++ crcWord p.c0
    else crcWord (pic row (x + i - 1)).c2 ++ crcWord p.c0)

/-- The rows of a rectangle in the order R217 takes them. -/
def crcRows (r : Rect) (inter : Bool) : List Nat :=
  let rows := (List.range r.h).map (· + r.y)
  if inter then rows.filter (fun n => n % 2 == 0) ++ rows.filter (fun n => n % 2 == 1) else rows

/-- The CRC of a rectangle of a picture (R217). -/
def crcOf (pic : Nat → Nat → Pix) (sampling : Nat) (r : Rect) (inter : Bool) : Nat :=
  crc32 ((crcRows r inter).flatMap (fun row => crcRow pic sampling row r.x r.w))

end Sys2Proof.Machine
end

