-- ==== Sys2Proof/Machine/Alloc.lean ====
section
/-! DEFINITION. DRAM allocation and bandwidth admission (R358, R496). -/

namespace Sys2Proof.Machine

/-- Bytes of an allocation block (R358). -/
def blockBytes : Nat := 2097152

/-- N: the number of enabled channels (R355). -/
def State.memN (s : State) (d : MDie) : Nat := (upto 12 (fun c => s.bit Obj.memChEnabled d.die 0 c)).length

/-- Blocks of the address map (R356, R358). -/
def State.memBlocks (s : State) (d : MDie) : Nat := s.rdN Obj.memCapacity d.die 0 / blockBytes

/-- A run placed among runs in ascending order. -/
def insertRun (r : Nat × Nat) : List (Nat × Nat) → List (Nat × Nat)
  | [] => [r]
  | x :: l => if r.1 < x.1 then r :: x :: l else x :: insertRun r l

/-- All runs held on a die, in ascending order. -/
def heldRuns (l : List Store) : List (Nat × Nat) := (l.flatMap (·.runs)).foldr insertRun []

/-- The lowest free blocks below `cap`, `need` of them, from `pos` on, past the held runs (R358). -/
def takeBlocks (cap need pos : Nat) : List (Nat × Nat) → List (Nat × Nat)
  | [] =>
    let n := min need (cap - pos)
    if n = 0 then [] else [(pos, n)]
  | x :: l =>
    let n := min need (x.1 - pos)
    (if n = 0 then [] else [(pos, n)]) ++ takeBlocks cap (need - n) (max pos (x.1 + x.2)) l

/-- Blocks of a list of runs. -/
def runBlocks (l : List (Nat × Nat)) : Nat := sumOver l (·.2)

/-- MEM.FREE and MEM.BW.COMMITTED follow the stores; the sum in MB/s is rounded up. -/
def State.refreshMem (s : State) (d : MDie) : State :=
  let used := runBlocks (heldRuns (s.md d).stores)
  let s := s.wr Obj.memFree d.die 0 (((s.memBlocks d - used) * blockBytes : Nat) : Int)
  s.wr Obj.memBwCommitted d.die 0 (ceilDiv (sumOver (s.md d).stores (·.traffic)) 1000000 : Nat)

/-- A state with the stores of a die changed. -/
def State.updStores (s : State) (d : MDie) (f : List Store → List Store) : State :=
  (s.updMd d (fun m => { m with stores := f m.stores })).refreshMem d

/-- The store is that of a subject's instance. -/
def Store.isOf (x : Store) (subject inst : Nat) : Bool := x.subject == subject && x.inst == inst

/-- The stores of a subject's instance are given back. -/
def State.freeStores (s : State) (d : MDie) (subject inst : Nat) : State :=
  s.updStores d (fun l => l.filter (fun x => !x.isOf subject inst))

/-- A number that fits a 32-bit item, or a free value: the spec states no code for a larger one. -/
def State.item32 (s : State) (n : Nat) : Nat × State := if n < 2 ^ 32 then (n, s) else s.free 32

/-- A refused allocation (R358): event 0x300F of the die that is short, MEM.STICKY bit 1, MEM.COUNT. -/
def State.memRefuse (s : State) (d : MDie) (kind subject short : Nat) : State :=
  let (n, s) := s.item32 short
  ((s.setBit Obj.memSticky d.die 0 1).bump Obj.memCount d.die 0).raise d.pdie 0x300F subject
    (payloadOf [(16, kind), (16, subject), (32, n)])

/-- The stores of a subject's instance become stores of the given bytes with a declared traffic in bytes per second
(R358): lowest free blocks first, the ones it held given back. Kind and shortfall of the refusal where they do not
fit. -/
def State.allocStores (s : State) (d : MDie) (subject inst : Nat) (parts : List Nat) (traffic : Nat) :
    Except (Nat × Nat) State :=
  let rest := (s.md d).stores.filter (fun x => !x.isOf subject inst)
  let need := sumOver parts (fun b => ceilDiv b blockBytes)
  let cap := s.memBlocks d
  let held := heldRuns rest
  let avail := cap - runBlocks held
  let total := (sumOver rest (·.traffic) + traffic) * 12
  let limit := s.rdN Obj.memBwLimit d.die 0 * 1000000 * s.memN d
  if avail < need then .error (1, (need - avail) * blockBytes)
  else if limit < total then .error (2, ceilDiv (total - limit) 12000000)
  else
    .ok (s.updStores d (fun _ =>
      rest ++ [{ subject := subject, inst := inst, runs := takeBlocks cap need 0 held, traffic := traffic }]))

/-- First byte of the first block of a subject's stores. -/
def State.storeBase (s : State) (d : MDie) (subject inst : Nat) : Option Nat :=
  match (s.md d).stores.find? (fun x => x.isOf subject inst) with
  | none => none
  | some x => x.runs.head?.map (fun r => r.1 * blockBytes)

end Sys2Proof.Machine
end

