-- ==== Sys2Proof/Machine/Engines.lean ====
section
/-! DEFINITION. Loads, placement and admission on the motion and pixel engines, and the motion share of the reference store
(R175, R221–R223, R227–R229, R264–R266). -/

namespace Sys2Proof.Machine

/-- The picture rate of a raster (R175). -/
def pictureRate (f : Format) : Nat × Nat := if interlaced f.family then (2 * f.num, f.den) else (f.num, f.den)

/-- CTU size of a code of ENC.CH.CTU. -/
def ctuSize (code : Nat) : Nat := 32 * 2 ^ code

/-- Active size of one picture: a frame, or a field (R223). -/
def pictureSize (fam : Nat) : Nat × Nat :=
  let (w, h) := activeSize fam
  if interlaced fam then (w, h / 2) else (w, h)

/-- Coded picture size (R223). -/
def codedSize (fam : Nat) : Nat × Nat :=
  let (w, h) := pictureSize fam
  (8 * ceilDiv w 8, 8 * ceilDiv h 8)

/-- Engine capacity R in luma samples per second (R227). -/
def engineCapacity : Nat := 4200000000

/-- A producer on an engine: load in luma samples per 1,001 s (R227), row period as a fraction of a second, the samples
of B (R229), whether it is Live. -/
structure Producer where
  load : Nat
  rowNum : Nat
  rowDen : Nat
  block : Nat
  live : Bool

/-- The producer of a raster at a CTU size; a Deferred channel counts a full CTU row in B (R229). -/
def producerOf (format c : Nat) (live : Bool) : Producer :=
  let f := fmt format
  let (w, h) := codedSize f.family
  let (n, d) := pictureRate f
  { load := ceilDiv w c * ceilDiv h c * c * c * n * (1001 / d), rowNum := c * f.den, rowDen := f.num * f.lines,
    block := if live then c * c else ceilDiv w c * c * c, live := live }

/-- The shortest row period of a list of producers. -/
def minRow : List Producer → Option (Nat × Nat)
  | [] => none
  | p :: l => match minRow l with
    | none => some (p.rowNum, p.rowDen)
    | some (n, d) => if p.rowNum * d < n * p.rowDen then some (p.rowNum, p.rowDen) else some (n, d)

/-- The admission test of an engine (R229), by cross-multiplication. -/
def admitted (l : List Producer) : Bool :=
  let live := l.filter (·.live)
  match minRow live with
  | none => true
  | some (pn, pd) =>
    let u := sumOver live (·.load)
    let b := l.foldl (fun m p => max m p.block) 0
    decide (u * pn + b * 1001 * pd ≤ engineCapacity * 1001 * pn)

/-- The encode channels in use on a die (R221). -/
def State.encChannels (s : State) (d : MDie) : List Nat := s.listed Obj.encChEnable d.die (fun _ v => v == 1)

/-- A channel is Live (R222). -/
def State.encLive (s : State) (d : MDie) (c : Nat) : Bool := decide (s.rdN Obj.encChPriority d.die c < 2)

/-- CTU size of a channel. -/
def State.encCtu (s : State) (d : MDie) (c : Nat) : Nat := ctuSize (s.rdN Obj.encChCtu d.die c)

/-- The producer a channel is. -/
def State.encProducer (s : State) (d : MDie) (c : Nat) : Producer :=
  producerOf (s.rdN Obj.encChFormat d.die c) (s.encCtu d c) (s.encLive d c)

/-- The engine pair of a channel, 0xFF none. -/
def State.encEngine (s : State) (d : MDie) (c : Nat) : Nat := s.rdN Obj.encChEngine d.die c

/-- The chain that holds a frame-rate converter. -/
def State.frcChain (s : State) (d : MDie) (m : Nat) : Option Nat :=
  (s.listed Obj.cnvChainFrc d.die (fun n v => v == (m : Int) && s.rd Obj.cnvChainEnable d.die n == 1)).head?

/-- The producer a borrowing converter is (R264). -/
def State.frcProducer (s : State) (d : MDie) (n : Nat) : Producer := producerOf (s.rdN Obj.cnvChainInFormat d.die n) 64 true

/-- Borrowers placed on an engine, by converter. -/
def State.borrowersOn (s : State) (d : MDie) (e : Nat) : List Nat := upto 4 (fun m => s.rdN Obj.motFrcEngine d.die m == e)

/-- Channels placed on a pair. -/
def State.channelsOn (s : State) (d : MDie) (e : Nat) : List Nat := upto 48 (fun c => s.encEngine d c == e)

/-- The producers on the motion engine of a pair, which include those of its pixel engine. -/
def State.producersOn (s : State) (d : MDie) (e : Nat) : List Producer :=
  (s.channelsOn d e).map (s.encProducer d) ++
    (s.borrowersOn d e).filterMap (fun m => (s.frcChain d m).map (s.frcProducer d))

/-- Load in samples per second of a list of producers: Live and borrowed ones count (R246, R269). -/
def loadOf (l : List Producer) : Nat := sumOver (l.filter (·.live)) (·.load) / 1001

/-- Bytes of the motion share a producer holds (R266). -/
def motionBytes (format c : Nat) : Nat := 2 * (codedSize (fmt format).family).1 * (c + 168) * 21 / 16

/-- Bytes of the share that the motion engines may hold. -/
def motionShare : Nat := 67108864

/-- Bytes of the share held by every placed producer of a die. -/
def State.motionUsed (s : State) (d : MDie) : Nat :=
  sumOver (upto 48 (fun c => decide (s.encEngine d c < 2)))
      (fun c => motionBytes (s.rdN Obj.encChFormat d.die c) (s.encCtu d c)) +
    sumOver (upto 4 (fun m => decide (s.rdN Obj.motFrcEngine d.die m < 2)))
      (fun m => match s.frcChain d m with
        | some n => motionBytes (s.rdN Obj.cnvChainInFormat d.die n) 64
        | none => 0)

/-- The load objects of the engines follow the placements (R246, R269). -/
def State.refreshEngines (s : State) (d : MDie) : State :=
  let s := [0, 1].foldl (fun (s : State) e =>
    let chans := s.channelsOn d e
    let enc := loadOf (chans.map (s.encProducer d))
    let s := s.wr Obj.encEngLoad d.die e (enc : Nat)
    let s := s.wr Obj.encEngChannels d.die e (sumOver chans (fun c => 2 ^ c) : Nat)
    let s := s.wr Obj.motEngLoad d.die e (loadOf (s.producersOn d e) : Nat)
    s.wr Obj.motEngBorrow d.die e (sumOver (s.borrowersOn d e) (fun m => 2 ^ m) : Nat)) s
  let s := (s.encChannels d).foldl (fun (s : State) c =>
    s.wr Obj.motChRefBytes d.die c
      (if s.encEngine d c < 2 then motionBytes (s.rdN Obj.encChFormat d.die c) (s.encCtu d c) else 0 : Nat)) s
  s.wr Obj.motRefUsed d.die 0 (s.motionUsed d : Nat)

/-- The sections of an engine pair: MOT0, MOT1 and PIX0, PIX1. -/
def secMot (e : Nat) : Nat := 22 + e
def secPix (e : Nat) : Nat := 24 + e

/-- The engines in the order a placement tries them: the lower committed load first, number 0 on equal loads (R229,
R264). -/
def byLoad (l0 l1 : Nat) : List Nat := if l1 < l0 then [1, 0] else [0, 1]

/-- The pair a channel is placed on, if one admits it (R229). -/
def State.pairFor (s : State) (d : MDie) (c : Nat) : Option Nat :=
  (byLoad (s.rdN Obj.encEngLoad d.die 0) (s.rdN Obj.encEngLoad d.die 1)).find? (fun e =>
    s.secOn d (secMot e) && s.secOn d (secPix e) && admitted (s.producersOn d e ++ [s.encProducer d c]))

/-- The motion engine a borrower is placed on, if one admits it (R264). -/
def State.engineFor (s : State) (d : MDie) (chain : Nat) : Option Nat :=
  (byLoad (s.rdN Obj.motEngLoad d.die 0) (s.rdN Obj.motEngLoad d.die 1)).find? (fun e =>
    s.secOn d (secMot e) && admitted (s.producersOn d e ++ [s.frcProducer d chain]))

/-- A commit that exceeds the motion share (R266): event 0x2101, MOT.STICKY bit 0, MOT.REF.SHORT, MOT.COUNT. -/
def State.shareRefuse (s : State) (d : MDie) (kind n short : Nat) : State :=
  (((s.setBit Obj.motSticky d.die 0 0).bump Obj.motCount d.die 0).wr Obj.motRefShort d.die 0 (short : Nat)).raise d.pdie
    0x2101 n (payloadOf [(16, kind), (16, n), (32, short)])

/-- A channel is placed, with its share of the reference store (R229, R266); none where no pair admits it. -/
def State.placeChannel (s : State) (d : MDie) (c : Nat) : State × Bool :=
  if s.encEngine d c < 2 then (s, true)
  else match s.pairFor d c with
  | none => (s, false)
  | some e =>
    let need := s.motionUsed d + motionBytes (s.rdN Obj.encChFormat d.die c) (s.encCtu d c)
    if motionShare < need then (s.shareRefuse d 1 c (need - motionShare), false)
    else ((s.wr Obj.encChEngine d.die c (e : Nat)).refreshEngines d, true)

/-- A borrower is placed (R264, R266). -/
def State.placeBorrower (s : State) (d : MDie) (m chain : Nat) : State × Bool :=
  if s.rdN Obj.motFrcEngine d.die m < 2 then (s, true)
  else match s.engineFor d chain with
  | none => (s, false)
  | some e =>
    let need := s.motionUsed d + motionBytes (s.rdN Obj.cnvChainInFormat d.die chain) 64
    if motionShare < need then (s.shareRefuse d 2 m (need - motionShare), false)
    else ((s.wr Obj.motFrcEngine d.die m (e : Nat)).refreshEngines d, true)

/-- A borrower gives its engine back. -/
def State.dropBorrower (s : State) (d : MDie) (m : Nat) : State := (s.wr Obj.motFrcEngine d.die m 0xFF).refreshEngines d

end Sys2Proof.Machine
end

