-- ==== Sys2Proof/Machine/Images.lean ====
section
/-! DEFINITION. What a chain, a compositor and a port show: sample values as functions of the state (R149, R172–R187,
R198–R207, R210). -/

namespace Sys2Proof.Machine

/-- A chain that never ran. -/
def ChainSt.start : ChainSt :=
  { work := none, pend := none, store := [], fields := [], searched := 0, pics := 0, ready := false, shown := ⟨[], [], 0⟩, old := none, jobs := [] }

/-- A compositor that never ran. -/
def CmpSt.start : CmpSt :=
  { pend := none, staged := none, work := none, lateUntil := none, queued := false, pressing := none, lost := 0, fresh := none,
    felt := none, old := none, stagedFelt := none, gone := [], rest := none }

/-- An output that never ran. -/
def OutSt.start : OutSt :=
  { pend := none, staged := none, work := none, lateUntil := none, next := none, swapped := false, learnt := [], bad := [] }

/-- Parts of a die's video state. -/
def State.chain (s : State) (d : MDie) (n : Nat) : ChainSt := tabGet (s.md d).video.chains n ChainSt.start
def State.cmp (s : State) (d : MDie) (n : Nat) : CmpSt := tabGet (s.md d).video.cmps n CmpSt.start
def State.outp (s : State) (d : MDie) (n : Nat) : OutSt := tabGet (s.md d).video.outs n OutSt.start

/-- A state with a part of a die's video state changed. -/
def State.updVideo (s : State) (d : MDie) (f : VideoSt → VideoSt) : State := s.updMd d (fun m => { m with video := f m.video })
def State.updChain (s : State) (d : MDie) (n : Nat) (f : ChainSt → ChainSt) : State :=
  s.updVideo d (fun v => { v with chains := tabSet v.chains n (f (s.chain d n)) })
def State.updCmp (s : State) (d : MDie) (n : Nat) (f : CmpSt → CmpSt) : State :=
  s.updVideo d (fun v => { v with cmps := tabSet v.cmps n (f (s.cmp d n)) })
def State.updOutp (s : State) (d : MDie) (n : Nat) (f : OutSt → OutSt) : State :=
  s.updVideo d (fun v => { v with outs := tabSet v.outs n (f (s.outp d n)) })

/-- A picture as a function of row and column. -/
abbrev Img := Nat → Nat → Pix

/-- A picture whose samples the spec leaves open. -/
def freeImg (ctr depth : Nat) : Img := fun r c =>
  pixOf (fun k => Config.freeValue (ctr + 3 * pixKey r c + k) % 2 ^ depth)

/-- Input and output attributes of a chain (R172). -/
def State.chainIn (s : State) (d : MDie) (n : Nat) : Attr :=
  Attr.ofWord (s.rdN Obj.cnvChainInFormat d.die n) (s.rdN Obj.cnvChainInOfs d.die n) (s.rdN Obj.cnvChainInAttr d.die n)
def State.chainOut (s : State) (d : MDie) (n : Nat) : Attr :=
  Attr.ofWord (s.rdN Obj.cnvChainOutFormat d.die n) (s.rdN Obj.cnvChainOutOfs d.die n) (s.rdN Obj.cnvChainOutAttr d.die n)

/-- Attributes of a compositor, an output and a layer's Loom input. -/
def State.cmpAttr (s : State) (d : MDie) (n : Nat) : Attr :=
  Attr.ofWord (s.rdN Obj.cmpFormat d.die n) (s.rdN Obj.cmpOfs d.die n) (s.rdN Obj.cmpAttr d.die n)
def State.outAttr (s : State) (d : MDie) (n : Nat) : Attr :=
  Attr.ofWord (s.rdN Obj.scnOutFormat d.die n) (s.rdN Obj.scnOutOfs d.die n) (s.rdN Obj.scnOutAttr d.die n)
def State.layerAttr (s : State) (d : MDie) (k : Nat) : Attr :=
  Attr.ofWord (s.rdN Obj.cmpLayerInFormat d.die k) (s.rdN Obj.cmpLayerInOfs d.die k) (s.rdN Obj.cmpLayerInAttr d.die k)

/-- The bytes of a coefficient set. -/
def State.coefSet (s : State) (d : MDie) (n : Nat) : List Byte := s.rdBytes Obj.cnvCoefSet d.die n

/-- A scaler configuration with its full-picture rectangles filled in. -/
def SclCfg.filled (c : SclCfg) (src dst : Nat × Nat) : SclCfg := { c with src := c.src.orFull src, dst := c.dst.orFull dst }

/-- The set of a chain in force in a frame of its output (R174). -/
def ChainSt.set (c : ChainSt) (fr : Nat) : Option ChainCfg :=
  match c.old with
  | some (g, f) => if fr < f then some g else c.work
  | none => c.work

/-- The set and Felt surface of a compositor in force in a frame (R211). -/
def CmpSt.set (c : CmpSt) (fr : Nat) : Option CmpCfg × Option (Rect × List FeltPix) :=
  match c.old with
  | some (g, x, f) => if fr < f then (some g, x) else (c.work, c.felt)
  | none => (c.work, c.felt)

/-- The input frame, and the field of it, that a row of an output frame shows where both rasters have one picture rate: the picture of one
number, a field counting as one picture (R175, R199). -/
def sourceField (fi fo : Nat) (fr row : Nat) : Nat × Nat :=
  match interlaced fi, interlaced fo with
  | true, false => (fr / 2, fr % 2)
  | false, true => (2 * fr + row % 2, 0)
  | true, true => (fr, row % 2)
  | false, false => (fr, 0)

/-- A position of a chain's picture at 12 bits, before frame store and converter (R179–R187): scaled, coloured, filled,
decimated. `par` is the parity of the field that an interlaced input gives it. -/
def State.chainPixel (s : State) (d : MDie) (n : Nat) (g : ChainCfg) (src : Img) (par row col : Nat) : Pix :=
  let a := s.chainIn d n
  let b := s.chainOut d n
  let fi := (fmt a.format).family
  let fo := (fmt b.format).family
  let (w, _) := activeSize fo
  let c := g.scl.filled (activeSize fi) (activeSize fo)
  let i : SclIn := { pic := src, sampling := a.sampling, depth := depthBits a.depth, inter := interlaced fi, ks := par }
  let line := fun x =>
    if c.dst.has row x then
      colourUnit g.cu (sclAt i c (s.coefSet d c.setV) (s.coefSet d c.setHY) (s.coefSet d c.setHC) (row - c.dst.y) (x - c.dst.x))
    else blendBlack b.sampling b.range
  sampled b.sampling line w col

/-- A chain runs in frame mode: it holds a converter or CNV.CHAIN.MODE is 1 (R177). -/
def State.frameMode (s : State) (d : MDie) (n : Nat) : Bool :=
  s.rdN Obj.cnvChainFrc d.die n != 0xFF || s.rdN Obj.cnvChainMode d.die n == 1

/-- The destination port of a consumer. -/
def State.dstOf (s : State) (d : MDie) (kind n : Nat) : Option Nat :=
  (s.listed Obj.loomDstBind d.die (fun _ v => v == ((kind * 4096 + n : Nat) : Int))).head?

/-- Black at the depth, range and sampling of attributes (R149). -/
def Attr.black (a : Attr) : Pix := blackPix (depthBits a.depth) a.range (a.sampling == 2)

/-- A byte of the graphics region; one never loaded holds what the spec leaves undefined (R201). -/
def State.surfByte (s : State) (d : MDie) (a : Nat) : Byte :=
  (((s.md d).video.surf.find? (fun e => e.1 == a)).map (·.2)).getD (Config.freeByte a)

/-- The bytes of a surface sample of a layer's crop (R202). -/
def State.surfPix (s : State) (d : MDie) (l : LayerCfg) (y x : Nat) : Pix × Int :=
  let n := surfBytes l.surfFmt
  let a := l.addr + (l.scl.src.y + y) * l.pitch + (l.scl.src.x + x) * n
  surfSample l.surfFmt ((List.range n).map (fun k => s.surfByte d (a + k)))

/-- An unscaled Loom sample as 12-bit 4:4:4 codes (R199, R200). -/
def alignLoom (a : Attr) (pic : Img) (w row col : Nat) : Pix :=
  let up := fun (v : Nat) => v * 2 ^ (12 - depthBits a.depth)
  let p := pic row col
  if a.sampling = 0 then
    let c := fun (x k : Nat) => up (comp (pic row x) k)
    let ch := fun k =>
      if col % 2 = 0 then c col k
      else (shrRne ((c (col - 1) k + c (min (col + 1) (w - 1 - (w - 1) % 2)) k : Nat) : Int) 1).toNat
    ⟨up p.c0, ch 1, ch 2⟩
  else pixOf (fun k => up (comp p k))

/-- A layer's 12-bit codes at a position of its DST, and the alpha its surface carries (R199, R200, R202). The alpha of a
scaled surface is one the spec does not state. `loom` gives the frames of the layer's destination. -/
def State.layerCodes (s : State) (d : MDie) (cmp k : Nat) (l : LayerCfg) (loom : Nat → Img) (fr row col : Nat) : Pix × Int :=
  let b := s.cmpAttr d cmp
  let fo := (fmt b.format).family
  let a := s.layerAttr d (cmp * 16 + k)
  let fi := (fmt a.format).family
  let size := activeSize fo
  let c := l.scl.filled (if l.kind = 1 then activeSize fi else size) size
  let y := row - c.dst.y
  let x := col - c.dst.x
  if l.kind = 3 then (pixOf (fun j => fieldAt l.colour (2 * j) 2), fieldAt l.colour 6 2)
  else if l.scaler = 0xFF then
    if l.kind = 2 then s.surfPix d { l with scl := c } y x
    else (alignLoom a (loom (sourceField fi fo fr row).1) (activeSize fi).1 (c.src.y + y) (c.src.x + x), 0)
  else
    let cv := s.coefSet d c.setV
    let hy := s.coefSet d c.setHY
    let hc := s.coefSet d c.setHC
    if l.kind = 2 then
      let g := { l with scl := { c with src := ⟨0, 0, 0, 0⟩ } }
      let smp := if b.sampling = 2 then 2 else 1
      let i : SclIn := ⟨fun r q => (s.surfPix d g r q).1, smp, 12, false, 0⟩
      (sclAt i c cv hy hc y x, ((Config.freeValue (s.freeCtr + pixKey row col) % 4097 : Nat) : Int))
    else
      let (f, ks) := sourceField fi fo fr row
      let i : SclIn := { pic := loom f, sampling := a.sampling, depth := depthBits a.depth, inter := interlaced fi, ks := ks }
      (sclAt i c cv hy hc y x, 0)

/-- The layer at an index of a captured set. -/
def CmpCfg.layer? (g : CmpCfg) (k : Nat) : Option LayerCfg := g.layers[k]?

/-- Layer `k` gives the key of the layer below it, whose own key fields count unless it gives a key itself (R204). -/
def CmpCfg.keySource (g : CmpCfg) : Nat → Bool
  | 0 => false
  | j + 1 => !CmpCfg.keySource g j && (match g.layer? j with | some l => l.kind != 0 && l.keyMode == 3 | none => false)

/-- The layers that are blended, in order (R205). -/
def CmpCfg.blended (g : CmpCfg) : List Nat :=
  (List.range g.layers.length).filter (fun k =>
    (match g.layer? k with | some l => l.kind != 0 | none => false) && !g.keySource k)

/-- The layers of the Felt run (R206). -/
def CmpCfg.run (g : CmpCfg) : List Nat :=
  if g.felt then g.blended.filter (fun k => match g.layer? k with | some l => l.static | none => false) else []

/-- DST of a layer with all zeros read as the full picture. -/
def LayerCfg.dstRect (l : LayerCfg) (size : Nat × Nat) : Rect := l.scl.dst.orFull size

/-- Codes and alpha `a` of a layer at a position (R204); `codes` gives every layer's codes there. -/
def layerAlpha (g : CmpCfg) (size : Nat × Nat) (codes : Nat → Pix × Int) (k row col : Nat) : Int :=
  match g.layer? k with
  | none => 0
  | some l =>
    if (l.dstRect size).has row col then
      let ak : Int := match l.keyMode with
        | 0 => if l.kind = 3 then (codes k).2 else 4096
        | 1 => (codes k).2
        | 2 => keyAt l (codes k).1.c0
        | _ => keyAt l (codes (k + 1)).1.c0
      shrRne ((if l.keyInvert then 4096 - ak else ak) * l.opacity) 12
    else 0

/-- The Felt sample at a position of a pressed surface (R207). -/
def feltAt (f : Rect × List FeltPix) (row col : Nat) : Option FeltPix :=
  if f.1.has row col then f.2[(row - f.1.y) * f.1.w + (col - f.1.x)]? else none

/-- A run covers a sample of a layer. -/
def LostRun.covers (x : LostRun) (frame layer row col : Nat) : Bool :=
  x.frame == frame && x.layer == layer && x.row == row && decide (x.col ≤ col) && decide (col < x.col + x.count)

/-- The frame in which the sample of a row that a compositor asked for at an instant is blended, and the instant of that row (R203). -/
def State.blendOf (s : State) (d : MDie) (n row since : Nat) : Nat × Instant :=
  let a := s.cmpAttr d n
  let f := fmt a.format
  let c := landing f a.ofs (rowLine f.family row) (.ofNs since)
  (c.frame, instantOf f a.ofs c)

/-- Samples that a compositor waits for although their line has been blended (R203). -/
def State.overdue (s : State) (d : MDie) (n : Nat) : List LostRun :=
  (s.md d).ram.pieces.filterMap (fun p =>
    match p.req.use with
    | .surface k layer row col count =>
      let (fr, t) := s.blendOf d n row p.enter
      if k.val = n ∧ t.lt (.ofNs (s.now d.pdie)) then some ⟨fr, layer, row, col, count⟩ else none
    | _ => none)

/-- A compositor's 12-bit 4:4:4 output at a position (R205–R207); `gone` tells the layers, 0xFF the Felt surface, whose sample there is
transparent: nothing of it is blended (R203). -/
def cmpPixel (g : CmpCfg) (felt : Option (Rect × List FeltPix)) (b : Attr) (codes : Nat → Nat → Nat → Pix × Int)
    (gone : Nat → Bool) (row col : Nat) : Pix :=
  let size := activeSize (fmt b.format).family
  let black := blendBlack b.sampling b.range
  let at_ := fun k => codes k row col
  let run := if felt.isSome then g.run else []
  pixOf (fun j =>
    let start : Int := lut12 g.lutPre j (fieldAt g.bg (2 * j) 2) - lut12 g.lutPre j (comp black j)
    let acc := g.blended.foldl (fun acc k =>
      if k ∈ run then
        if run.head? = some k ∧ ¬ gone 0xFF then
          match felt.bind (fun f => feltAt f row col) with
          | some f => feltStep f acc j
          | none => acc
        else acc
      else if gone k then acc
      else
        match g.layer? k with
        | none => acc
        | some l =>
          let a := layerAlpha g size at_ k row col
          blendStep acc (blendP g.lutPre black l.premul (at_ k).1 a j) a) start
    blendOut g.lutPre g.lutPost black acc j)

/-- A compositor is silent in a frame: one between the frame completed under the old time and the first one under the new (R215). -/
def CmpSt.silent (c : CmpSt) (fr : Nat) : Bool :=
  match c.rest with
  | some r => fr != r.frame && decide (fr < r.first)
  | none => false

/-- A compositor's output picture in a frame, over what its layers' destination ports show (R198–R205). -/
def State.cmpImg (s : State) (dst : MDie → Nat → Nat → Img) (e : MDie) (n fr : Nat) : Img :=
  let a := s.cmpAttr e n
  match (s.cmp e n).set fr with
  | (none, _) => fun _ _ => a.black
  | (some g, felt) =>
    if (g.felt ∧ felt.isNone ∧ g.run ≠ []) ∨ (s.cmp e n).silent fr then fun _ _ => a.black
    else
      let lost := ((s.cmp e n).gone ++ s.overdue e n).filter (fun x => x.frame == fr)
      let codes := fun l row col =>
        match g.layer? l with
        | none => (⟨0, 0, 0⟩, 0)
        | some y =>
          let img := match s.dstOf e 3 (n * 16 + l) with
            | some p => dst e p
            | none => fun _ _ _ => (s.layerAttr e (n * 16 + l)).black
          s.layerCodes e n l y img fr row col
      let w := (activeSize (fmt a.format).family).1
      fun row col =>
        reducePix g.clip (depthBits a.depth) (hasChroma a.sampling col)
          (sampled a.sampling (fun x => cmpPixel g felt a codes (fun l => lost.any (fun r => r.covers fr l row x)) row x) w col)

/-- A chain's output picture in a frame, over what its destination port shows (R176, R177). -/
def State.chainImg (s : State) (dst : MDie → Nat → Nat → Img) (e : MDie) (n fr : Nat) : Img :=
  let a := s.chainOut e n
  let c := s.chain e n
  match c.set fr, s.dstOf e 2 n with
  | some g, some p =>
    if s.frameMode e n then pictureAt (c.shown.held fr) a.black
    else if c.pics < 2 then fun _ _ => a.black
    else fun row col =>
      let (f, par) := sourceField (fmt (s.chainIn e n).format).family (fmt a.format).family fr row
      reducePix g.cu.clip (depthBits a.depth) (hasChroma a.sampling col) (s.chainPixel e n g (dst e p f) par row col)
  | _, _ => fun _ _ => a.black

/-- A sample of a line of packed samples as Loom carries it (PRESUMED: the pixel groups of ST 2110-20, assumption 101); none where a byte of
it is missing. -/
def unpackAt (sampling depth : Nat) (l : List (Option Byte)) (col : Nat) : Option Pix :=
  let value := fun (i : Nat) =>
    let b0 := i * depth / 8
    let b1 := (i * depth + depth - 1) / 8
    ((List.range (b1 + 1 - b0)).foldl (fun (acc : Option Nat) k =>
      match acc, l[b0 + k]? with
      | some n, some (some b) => some (n * 256 + b.toNat)
      | _, _ => none) (some 0)).map (fun n => n / 2 ^ (8 * (b1 + 1) - i * depth - depth) % 2 ^ depth)
  let of3 := fun (x y z : Option Nat) => match x, y, z with | some x, some y, some z => some (⟨x, y, z⟩ : Pix) | _, _, _ => none
  if sampling = 2 then of3 (value (3 * col)) (value (3 * col + 1)) (value (3 * col + 2))
  else if sampling = 1 then of3 (value (3 * col + 1)) (value (3 * col)) (value (3 * col + 2))
  else of3 (value (4 * (col / 2) + 1 + 2 * (col % 2))) (value (4 * (col / 2))) (value (4 * (col / 2) + 2))

/-- What a Twill channel carries of a frame at a position, missing samples replaced (R133, R155, R422). -/
def State.twillPix (s : State) (d : MDie) (b : Attr) (r fr row col : Nat) : Pix :=
  let bond := (bondOf b).getD 1
  match s.rxFor d (routeDevice r) (routeDie r) (routePort r + row % bond) with
  | none => b.black
  | some n =>
    let lines := tabGet (s.twill.rx.map (fun e => (e.1, e.2.pic.held fr))) (twlKey d n) []
    let l := tabGet lines (rowLine (fmt b.format).family row) []
    if l.isEmpty then b.black
    else ((List.range (col + 1)).reverse.findSome? (unpackAt b.sampling (depthBits b.depth) l)).getD (leadPix fr row)

/-- Before the switch line at which the loss policy begins, the lines that a lost source no longer gives are missing (R133, R164): of a
stopped producer without a synchronizer, of a channel that is down. -/
def State.linesGone (s : State) (d : MDie) (p r fr : Nat) : Bool :=
  let (f, ofs) := s.dstRaster d p
  decide ((coordOf f ofs (s.now d.pdie)).frame ≤ fr) &&
    (match s.routeLoss d p r with
     | some 3 => !s.behindFsy d r
     | some 5 => true
     | _ => false)

/-- What a destination shows in a frame, over what source ports show (R149, R154, R164, R165). -/
def State.routeImg (s : State) (src : MDie → Nat → Img) (d : MDie) (p fr : Nat) : Img :=
  match s.dstAttr d p with
  | none => freeImg s.freeCtr 12
  | some b =>
    let (r, black) := (s.dst d p).turn.held fr
    if routeKind r = 0 ∨ black ∨ s.linesGone d p r fr then fun _ _ => b.black
    else if routeKind r = 3 then s.twillPix d b r fr
    else src (routeSource d r) (routePort r)

/-- Cascaded conversions and compositions followed when a sample is traced to its origin; what lies deeper is left
open. -/
def traceDepth : Nat := 16

/-- What a source port of a die shows in a frame of its raster, traced through chains and compositors. -/
def State.portImg (s : State) : Nat → Nat → MDie → Nat → Img
  | 0, _, e, port => freeImg s.freeCtr (match s.srcAttr e port with | some a => depthBits a.depth | none => 12)
  | fuel + 1, fr, e, port =>
    let dstImg : MDie → Nat → Nat → Img := fun d p f => s.routeImg (State.portImg s fuel f) d p f
    let (k, n) := s.srcBind e port
    match s.srcAttr e port with
    | none => fun _ _ => ⟨0, 0, 0⟩
    | some a =>
      if k = 3 then s.chainImg dstImg e n fr
      else if k = 4 then s.cmpImg dstImg e n fr
      else fun row col => (s.portSample e port fr row col).getD a.black

/-- What a destination port shows in a frame of its raster (R149, R165). -/
def State.dstImg (s : State) (d : MDie) (p fr : Nat) : Img := s.routeImg (s.portImg traceDepth fr) d p fr

/-- What a consumer's destination shows in a frame; black where it has none. -/
def State.inputImg (s : State) (d : MDie) (kind n : Nat) (a : Attr) (fr : Nat) : Img :=
  match s.dstOf d kind n with | some p => s.dstImg d p fr | none => fun _ _ => a.black

/-- The frame of its raster that an output is in: the one it completes where it goes over to another raster (R214). -/
def State.outFrame (s : State) (d : MDie) (m : Nat) : Nat :=
  match (s.outp d m).next with
  | some r => r.frame
  | none => (coordOf (fmt (s.outAttr d m).format) (s.outAttr d m).ofs (s.now d.pdie)).frame

/-- An output is silent: the last active line of the frame it completes has ended, its new raster has not begun (R214). -/
def State.outSilent (s : State) (d : MDie) (m : Nat) : Bool :=
  match (s.outp d m).next with
  | some r => r.quiet.le (.ofNs (s.now d.pdie))
  | none => false

/-- A compositor feeds an output directly: it runs, on the output's raster and attributes (R210, R215). -/
def State.feeds (s : State) (d : MDie) (n m : Nat) : Bool :=
  let a := s.outAttr d m
  (s.cmpAttr d n).same a && (s.cmpAttr d n).ofs == a.ofs && s.bit Obj.cmpStatus d.die n 0

/-- The source of an output gives nothing in the frame now: a Loom destination without a route or under the loss policy, a compositor that
does not run or does not match (R210, R215). -/
def State.outBlack (s : State) (d : MDie) (m : Nat) : Bool :=
  match (s.outp d m).work with
  | none => false
  | some g =>
    if g.source / 4096 = 1 then !s.feeds d (g.source % 4096) m
    else match s.dstOf d 1 m with
      | none => true
      | some p =>
        let (r, black) := (s.dst d p).turn.held (s.outFrame d m)
        black || routeKind r == 0

/-- SCN.OUT.STATUS as it reads: bits 0 and 1 as held, bit 2 silent in a discontinuity, bit 3 sending black (R219). -/
def State.outStatus (s : State) (d : MDie) (m : Nat) : Nat :=
  s.rdN Obj.scnOutStatus d.die m % 4 + (if s.outSilent d m then 4 else 0) + (if s.outBlack d m ∧ ¬ s.outSilent d m then 8 else 0)

/-- What an output hands to its packetizers in a frame (R210). -/
def State.outputImg (s : State) (d : MDie) (m fr : Nat) : Img :=
  let a := s.outAttr d m
  match (s.outp d m).work with
  | none => fun _ _ => a.black
  | some g =>
    if g.source / 4096 = 1 then
      if s.feeds d (g.source % 4096) m then s.cmpImg s.dstImg d (g.source % 4096) fr else fun _ _ => a.black
    else s.inputImg d 1 m a fr

/-! ### Ancillary data (R145, R161, R209, R210) -/

/-- The ancillary data of a frame that a Twill channel carries, a line's as one packet (assumption 101). -/
def State.twillAnc (s : State) (d : MDie) (r fr : Nat) : List (List Byte) :=
  match s.rxFor d (routeDevice r) (routeDie r) (routePort r) with
  | none => []
  | some n => (tabGet (s.twill.rx.map (fun e => (e.1, e.2.anc.held fr))) (twlKey d n) []).map (·.2)

/-- The ancillary packets of a destination in a frame, over those of source ports. -/
def State.routeAnc (s : State) (src : MDie → Nat → List (List Byte)) (d : MDie) (p fr : Nat) : List (List Byte) :=
  let (r, black) := (s.dst d p).turn.held fr
  if black ∨ routeKind r = 0 then []
  else if routeKind r = 3 then s.twillAnc d r fr
  else src (routeSource d r) (routePort r)

/-- The destination of the layer whose ancillary data a compositor passes in a frame, and the frame of that layer's raster (R209). -/
def State.cmpAncDst (s : State) (e : MDie) (n fr : Nat) : Option (Nat × Nat) :=
  match ((s.cmp e n).set fr).1 with
  | none => none
  | some g =>
    if g.anc = 0xFF then none
    else (s.dstOf e 3 (n * 16 + g.anc)).map (fun p =>
      (p, (sourceField (fmt (s.layerAttr e (n * 16 + g.anc)).format).family (fmt (s.cmpAttr e n).format).family fr 0).1))

/-- The ancillary packets that a source port of a die carries in a frame: those of the frame its synchronizer shows, or of its flow; of a
compositor those of the layer it names. -/
def State.portAnc (s : State) : Nat → Nat → MDie → Nat → List (List Byte)
  | 0, _, _, _ => []
  | fuel + 1, fr, e, port =>
    let (k, n) := s.srcBind e port
    if k = 4 then
      match s.cmpAncDst e n fr with
      | some (p, f) => s.routeAnc (State.portAnc s fuel f) e p f
      | none => []
    else
      match s.fsyFor e port with
      | some f => (((s.fsy e f).shown.held fr).map (·.anc)).getD []
      | none => (tabGet (s.md e).loom.anc port (0, [])).2

/-- The ancillary packets that an output carries in a frame: those of its Loom source, or of the layer its compositor names (R210). -/
def State.outAnc (s : State) (d : MDie) (m fr : Nat) : List (List Byte) :=
  let src := match (s.outp d m).work with | some g => g.source | none => 0
  let dst := if src / 4096 = 1 then s.cmpAncDst d (src % 4096) fr else (s.dstOf d 1 m).map (fun p => (p, fr))
  match dst with
  | none => []
  | some (p, f) => s.routeAnc (s.portAnc traceDepth f) d p f

end Sys2Proof.Machine
end

