-- ==== Sys2Proof/Machine/Conversion.lean ====
section
/-! DEFINITION. Conversion chains: commit checks, application, coefficient sets (R172–R188, R194, R264). The converter's
pictures stand in Machine/Converter.lean, since they read motion fields. -/

namespace Sys2Proof.Machine

/-! ### Scaler configurations and coefficient sets (R173, R178, R181–R184) -/

/-- The chain's shadow set, captured (R174). -/
def State.chainShadow (s : State) (d : MDie) (n : Nat) : ChainCfg :=
  let m := s.rdN Obj.cnvChainFrc d.die n
  { scl := { src := rectOf (s.rdBytes Obj.cnvSclSrc d.die n), dst := rectOf (s.rdBytes Obj.cnvSclDst d.die n),
             vtaps := s.rdN Obj.cnvSclVtaps d.die n, setV := s.rdN Obj.cnvSclSetV d.die n,
             setHY := s.rdN Obj.cnvSclSetHy d.die n, setHC := s.rdN Obj.cnvSclSetHc d.die n },
    cu := { matIn := s.rdBytes Obj.cnvCuMatrixIn d.die n, lutPre := s.rdBytes Obj.cnvCuLutPre d.die n,
            mat := s.rdBytes Obj.cnvCuMatrix d.die n, lutPost := s.rdBytes Obj.cnvCuLutPost d.die n,
            matOut := s.rdBytes Obj.cnvCuMatrixOut d.die n, clip := s.rdBytes Obj.cnvCuClip d.die n },
    confMin := s.rdN Obj.cnvFrcConfMin d.die m, fallback := s.rdN Obj.cnvFrcFallback d.die m,
    sceneMax := s.rdN Obj.cnvFrcSceneMax d.die m, lambda := s.rdN Obj.motFrcLambda d.die m,
    gain := s.rdN Obj.motFrcConfGain d.die m }

/-- The set a compositor committed last, in force or on its way. -/
def CmpSt.latest (c : CmpSt) : Option CmpCfg := c.pend.orElse (fun _ => c.staged.orElse (fun _ => c.work))

/-- A layer is a configuration of a scaler (R200). -/
def LayerCfg.usesScaler (l : LayerCfg) : Bool := decide (1 ≤ l.kind) && decide (l.kind ≤ 2) && l.scaler != 0xFF

/-- The layers of a captured set that name a scaler. -/
def CmpCfg.onScaler (g : CmpCfg) (n : Nat) : List LayerCfg := g.layers.filter (fun l => l.usesScaler && l.scaler == n)

/-- Every scaler configuration in force or on its way on a die: chains, then layers (R181). -/
def State.sclConfigs (s : State) (d : MDie) : List SclCfg :=
  (s.md d).video.chains.flatMap (fun c => (c.2.work.map (·.scl)).toList ++ (c.2.pend.map (fun p => p.1.scl)).toList) ++
    (s.md d).video.cmps.flatMap (fun c =>
      (c.2.work.toList ++ c.2.staged.toList ++ c.2.pend.toList).flatMap (fun g => (g.layers.filter (·.usesScaler)).map (·.scl)))

/-- A configuration names a coefficient set. -/
def SclCfg.names (c : SclCfg) (n : Nat) : Bool := c.setV == n || c.setHY == n || c.setHC == n

/-- CNV.COEF.USERS of every set follows the configurations (R181). -/
def State.refreshCoefs (s : State) (d : MDie) : State :=
  let l := s.sclConfigs d
  (List.range 64).foldl (fun (s : State) n =>
    let u := (l.filter (fun c => c.names n)).length
    if s.rdN Obj.cnvCoefUsers d.die n = u then s else s.wr Obj.cnvCoefUsers d.die n (u : Nat)) s

/-- A rectangle lies in a picture of a size, on even positions where the sampling or the scan asks for them (R178). -/
def rectOk (r : Rect) (size : Nat × Nat) (sampling : Nat) (inter : Bool) : Bool :=
  decide (0 < r.w) && decide (0 < r.h) && decide (r.x + r.w ≤ size.1) && decide (r.y + r.h ≤ size.2)
    && (sampling != 0 || (r.x % 2 == 0 && r.w % 2 == 0)) && (!inter || (r.y % 2 == 0 && r.h % 2 == 0))

/-- The ratio of an axis lies in 1/16 to 8 (R178). -/
def ratioOk (sw dw : Nat) : Bool := decide (dw ≤ 16 * sw) && decide (sw ≤ 8 * dw)

/-- A coefficient set is empty: all 0 (R181). -/
def coefEmpty (b : List Byte) : Bool := b.all (fun x => x == 0)

/-- The taps that VTAPS leaves out are 0 in every phase (R182). -/
def vtapsOk (b : List Byte) (t : Nat) : Bool :=
  (List.range 64).all (fun ph => (List.range 8).all (fun k => (decide (4 - t / 2 ≤ k) && decide (k ≤ 3 + t / 2)) || coefAt b ph k == 0))

/-- The coefficient sets of a configuration may be used (R181, R182). -/
def State.coefsOk (s : State) (d : MDie) (c : SclCfg) : Bool :=
  !coefEmpty (s.coefSet d c.setV) && !coefEmpty (s.coefSet d c.setHY) && !coefEmpty (s.coefSet d c.setHC)
    && vtapsOk (s.coefSet d c.setV) c.vtaps

/-- Line buffer samples of a configuration whose rectangles are filled in (R183). -/
def SclCfg.lineSamples (c : SclCfg) : Nat := c.vtaps * c.src.w

/-- Throughput of a configuration over 1,001 s (R184). -/
def SclCfg.rate1001 (c : SclCfg) (f : Format) : Nat :=
  let (n, d) := pictureRate f
  max (c.src.w * c.src.h) (c.dst.w * c.dst.h) * n * (1001 / d)

/-- Samples of a scaler's line buffer, and its throughput over 1,001 s. -/
def lineBuffer : Nat := 61440
def sclThroughput : Nat := 6000000000 * 1001

/-! ### Timing (R176) -/

/-- The raster line that carries line `r` of picture `pic` of a raster, with its frame: for an interlaced raster picture
2f is field 1 of frame f, 2f + 1 its field 2. -/
def pictureLine (f : Format) (pic r : Nat) : Coord :=
  if interlaced f.family then
    if pic % 2 = 0 then ⟨pic / 2, (activeLines1 f.family).1 + r, 0⟩
    else ⟨pic / 2, ((activeLines2 f.family).getD (1, 0)).1 + r, 0⟩
  else ⟨pic, (activeLines1 f.family).1 + r, 0⟩

/-- The sum of two instants. -/
def Instant.add (a b : Instant) : Instant := ⟨a.n * b.d + b.n * a.d, a.d * b.d⟩

/-- The duration of lines of a raster as an instant. -/
def linesDur (f : Format) (n : Nat) : Instant := ⟨n * f.den * nsPerSec, f.num * f.lines⟩

/-- The check of R176 at one line of the output rectangle, for one picture number. -/
def lineTimed (a b : Attr) (c : SclCfg) (pic y : Nat) : Bool :=
  let fi := fmt a.format
  let fo := fmt b.format
  let ii := interlaced fi.family
  let io := interlaced fo.family
  let yy := if io then 2 * (y / 2) + pic % 2 else y
  let j := (if ii then c.src.y / 2 else c.src.y) + sclLast c yy ii (pic % 2)
  let p := instantOf fi a.ofs (let k := pictureLine fi pic j; { k with line := k.line + 1 })
  let row := if io then (c.dst.y + yy) / 2 else c.dst.y + yy
  let t := instantOf fo b.ofs (pictureLine fo pic row)
  p.le t && t.le (p.add (linesDur fo 12))

/-- The check of R176 at the first and the last line of the output rectangle. -/
def lineModeOk (a b : Attr) (c : SclCfg) : Bool :=
  let pics := if interlaced (fmt a.format).family || interlaced (fmt b.format).family then [0, 1] else [0]
  pics.all (fun p => lineTimed a b c p 0 && lineTimed a b c p (c.dst.h - 1))

/-! ### Rates and converters (R175, R188, R189) -/

/-- Two rates are equal. -/
def rateEq (a b : Nat × Nat) : Bool := a.1 * b.2 == b.1 * a.2

/-- The rate pairs of R188. -/
def frcPairs : List ((Nat × Nat) × (Nat × Nat)) :=
  [((24000, 1001), (24, 1)), ((25, 1), (30000, 1001)), ((25, 1), (30, 1)), ((30000, 1001), (30, 1)), ((50, 1), (60000, 1001)),
   ((50, 1), (60, 1)), ((60000, 1001), (60, 1)), ((100, 1), (120000, 1001)), ((100, 1), (120, 1)), ((120000, 1001), (120, 1))]

/-- A converter's rates and picture size are among those of R188. -/
def frcOk (a b : Attr) : Bool :=
  let fo := fmt b.format
  let ra := pictureRate (fmt a.format)
  let rb := pictureRate fo
  let (w, h) := activeSize fo.family
  let lim := fun (r : Nat × Nat) => decide (r.1 ≤ (if w ≤ 3840 ∧ h ≤ 2160 then 120 else 60) * r.2)
  !interlaced fo.family && frcPairs.any (fun p => (rateEq ra p.1 && rateEq rb p.2) || (rateEq ra p.2 && rateEq rb p.1))
    && lim ra && lim rb

/-- Bytes of a stored picture: 12 bits a sample (R177, R189). -/
def storedBytes (b : Attr) : Nat :=
  let (w, h) := pictureSize (fmt b.format).family
  w * h * (if b.sampling = 0 then 24 else 36) / 8

/-- Bytes per second of pictures of a size at a rate, rounded up. -/
def bytesRate (bytes : Nat) (r : Nat × Nat) : Nat := ceilDiv (bytes * r.1) r.2

/-- The conditions of R194 and R263 under which a converter rides an encode channel: the lowest channel that meets
them. -/
def State.rides (s : State) (d : MDie) (n : Nat) (g : ChainCfg) : Option Nat :=
  let a := s.chainIn d n
  let b := s.chainOut d n
  let size := activeSize (fmt a.format).family
  let full : Rect := ⟨0, 0, size.1, size.2⟩
  let c := g.scl.filled size (activeSize (fmt b.format).family)
  if interlaced (fmt a.format).family || interlaced (fmt b.format).family || !(c.src == full && c.dst == full) then none
  else match s.dstOf d 2 n with
  | none => none
  | some p =>
    let r := s.activeRoute d p
    if routeKind r = 0 then none
    else (s.encChannels d).find? (fun ch =>
      s.encLive d ch && decide (s.rdN Obj.encChStructure d.die ch < 2) && s.rdN Obj.encChState d.die ch == 2 &&
        (match s.dstOf d 4 ch with | some q => s.activeRoute d q == r | none => false))

/-! ### Commit (R173, R174) -/

/-- Subject index of the chain's stores (R358). -/
def subjChain : Nat := 0x1701

/-- A rejected chain commit. -/
def State.cnvReject (s : State) (d : MDie) (n reason : Nat) : State :=
  let s := (s.setBit Obj.cnvSticky d.die 0 0).bump Obj.cnvCount d.die 0
  let s := (s.setBit Obj.cnvChainSticky d.die n 1).wr Obj.cnvChainReject d.die n (reason : Nat)
  (s.raise d.pdie 0x1703 n (p16 [n, reason])).ans (.rejected 0x1703)

/-- A commit that exceeds a scaler's line buffer (R183). -/
def State.lineShort (s : State) (d : MDie) (scaler short : Nat) : State :=
  ((s.setBit Obj.cnvSclSticky d.die scaler 0).wr Obj.cnvSclShort d.die scaler (short : Nat)).raise d.pdie 0x1702 scaler
    (payloadOf [(16, scaler), (32, short)])

/-- The reason for which a chain's shadow set fails, lowest check first: section, geometry and scaler, rates and
converter, coefficient sets, throughput, line timing (R173–R188). The spec gives the checks no order. -/
def State.chainFault (s : State) (d : MDie) (n : Nat) (g : ChainCfg) : Option Nat :=
  let a := s.chainIn d n
  let b := s.chainOut d n
  let fi := fmt a.format
  let fo := fmt b.format
  let c := g.scl.filled (activeSize fi.family) (activeSize fo.family)
  let m := s.rdN Obj.cnvChainFrc d.die n
  let borrows := decide (m ≠ 0xFF ∧ s.rdN Obj.cnvFrcMotion d.die m ≠ 2)
  if ¬ s.secOn d secCnv ∨ s.elemBad d secCnv n then some 6
  else if borrows ∧ ¬ s.secOn d (secMot 0) ∧ ¬ s.secOn d (secMot 1) then some 6
  else if s.rdN Obj.cnvSclOwner d.die n / 4096 = 2 then some 7
  else if ¬ (rectOk c.src (activeSize fi.family) a.sampling (interlaced fi.family) ∧
      rectOk c.dst (activeSize fo.family) b.sampling (interlaced fo.family) ∧ ratioOk c.src.w c.dst.w ∧ ratioOk c.src.h c.dst.h) then
    some 7
  else if m = 0xFF ∧ ¬ rateEq (pictureRate fi) (pictureRate fo) then some 4
  else if m ≠ 0xFF ∧ (¬ frcOk a b ∨ s.frcChain d m ≠ some n) then some 4
  else if ¬ s.coefsOk d c then some 2
  else if sclThroughput < c.rate1001 fi then some 1
  else if ¬ s.frameMode d n ∧ ¬ lineModeOk a b c then some 3
  else none

/-- DRAM stores of a chain in frame mode: bytes and declared traffic (R177, R189). -/
def State.chainStores (s : State) (d : MDie) (n : Nat) : List Nat × Nat :=
  let a := s.chainIn d n
  let b := s.chainOut d n
  let bytes := storedBytes b
  let ri := pictureRate (fmt a.format)
  let ro := pictureRate (fmt b.format)
  let m := s.rdN Obj.cnvChainFrc d.die n
  if m ≠ 0xFF then ([(s.rdN Obj.cnvFrcDelay d.die m + 2) * bytes], bytesRate bytes ri + 2 * bytesRate bytes ro)
  else if s.frameMode d n then ([3 * bytes], 2 * bytesRate bytes ro)
  else ([], 0)

/-- Converters that should borrow and have no engine are placed (R265), in ascending number: one whose engine was just lost and that does
not fit is reported, with MOT.STICKY bit 2 and event 0x2103, and stops borrowing. Later attempts are silent (DEDUCED, assumption 112). -/
def State.replaceBorrowers (s : State) (d : MDie) : State :=
  let tell := (s.md d).unborrowed
  let s := s.updMd d (fun m => { m with unborrowed := [] })
  (List.range 4).foldl (fun (s : State) m =>
    match s.frcChain d m with
    | none => s
    | some n =>
      if s.rdN Obj.motFrcEngine d.die m < 2 ∨ s.rdN Obj.cnvFrcMotion d.die m = 2 ∨ (s.chain d n).work.isNone then s
      else match s.placeBorrower d m n with
      | (s1, true) => s1
      | (_, false) => if m ∈ tell then (s.setBit Obj.motSticky d.die 0 2).raise d.pdie 0x2103 m (p16 [m]) else s) s

/-- A chain's set is committed from an instant on (R174): checked, its resources taken, then pending; the answer says
whether it passed. -/
def State.chainCommit (s : State) (d : MDie) (n : Nat) (t : Instant) : State × Bool :=
  let g := s.chainShadow d n
  let b := s.chainOut d n
  let c := g.scl.filled (activeSize (fmt (s.chainIn d n).format).family) (activeSize (fmt b.format).family)
  let m := s.rdN Obj.cnvChainFrc d.die n
  match s.chainFault d n g with
  | some 1 => ((s.setBit Obj.cnvSclSticky d.die n 1).cnvReject d n 1, false)
  | some r => (s.cnvReject d n r, false)
  | none =>
    if lineBuffer < c.lineSamples then
      let s := ((s.setBit Obj.cnvSticky d.die 0 0).bump Obj.cnvCount d.die 0).setBit Obj.cnvChainSticky d.die n 1
      ((s.lineShort d n (c.lineSamples - lineBuffer)).ans (.rejected 0x1702), false)
    else
      let (s1, placed) := if m = 0xFF ∨ s.rdN Obj.cnvFrcMotion d.die m = 2 then (s, true) else s.placeBorrower d m n
      if ¬ placed then (s1.cnvReject d n 5, false)
      else
        let (parts, traffic) := s.chainStores d n
        match s1.allocStores d subjChain n parts traffic with
        | .error (kind, short) => ((s.cnvReject d n 8).memRefuse d kind subjChain short, false)
        | .ok s =>
          let f := fmt b.format
          let (land, late) := routeLanding f b.ofs t false
          let s := s.updChain d n (fun x => { x with pend := some (g, land) })
          let s := (s.wr Obj.cnvSclOwner d.die n (4096 + n : Nat)).wr Obj.cnvSclLinebufUsed d.die n (c.lineSamples : Nat)
          let s := (s.setBit Obj.cnvChainStatus d.die n 2).refreshCoefs d
          let s := if late then (s.setBit Obj.cnvChainSticky d.die n 0).raise d.pdie 0x1701 n (p16 [n]) else s
          ((s.replaceBorrowers d).ans .ok, true)

/-- A chain is in use (R172). -/
def State.chainUsed (s : State) (d : MDie) (n : Nat) : Bool := s.rd Obj.cnvChainEnable d.die n == 1

/-- CNV_CHAIN_COMMIT (R174). A chain that is not in use has nothing to commit. -/
def execCnvChainCommit (d : MDie) (chain : Fin 32) (s : State) : Out :=
  when s.serverUp s (s.mirror d.die (fun d t s =>
    if s.chainUsed d chain.val then (s.chainCommit d chain.val t).1 else s.ans .ok))

/-- CHAIN_CONFIG_APPLY (R174): the committed set applies from its output picture on; a chain that starts shows black until
its first complete picture. A converter's store begins afresh, so that no output picture is blended from pictures of two sets; a frame
store keeps its pictures, each of one set (R193; DEDUCED, assumption 102). -/
def execChainConfigApply (d : MDie) (chain : Fin 32) (s : State) : Out :=
  let n := chain.val
  match (s.chain d n).pend with
  | none => .next s
  | some (g, land) =>
    when (s.up d.pdie && s.secOn d secCnv && decide (land ≤ s.now d.pdie)) s
      (let fresh := (s.chain d n).work.isNone
       let b := s.chainOut d n
       let frame := (coordOf (fmt b.format) b.ofs (s.now d.pdie)).frame
       let blends := s.rdN Obj.cnvChainFrc d.die n != 0xFF
       let s := s.updChain d n (fun x => { x with
         work := some g, pend := none, ready := false, old := x.work.map (fun w => (w, frame)), store := if blends then [] else x.store })
       let s := ((s.clrBit Obj.cnvChainStatus d.die n 2).setBit Obj.cnvChainStatus d.die n 0).bump Obj.cnvChainCount d.die n
       let s := if fresh then s.setBit Obj.cnvChainStatus d.die n 1 else s
       let m := s.rdN Obj.cnvChainFrc d.die n
       let s := if m = 0xFF then s else s.setBit Obj.cnvFrcStatus d.die m 0
       s.refreshCoefs d)

/-! ### Coefficient sets (R181) -/

/-- Sum of a phase of a coefficient set. -/
def coefSum (b : List Byte) (ph : Nat) : Int := sum8 (coefAt b ph)

/-- A phase obeys R181: every tap in −2,048 to 2,047, and a sum of 1,024. -/
def coefPhaseOk (b : List Byte) (ph : Nat) : Bool :=
  (List.range 8).all (fun t => decide (-2048 ≤ coefAt b ph t) && decide (coefAt b ph t ≤ 2047)) && coefSum b ph == 1024

/-- CNV_COEF_SET_WRITE (R181). A write of all 0 fails like any other whose phases do not sum to 1,024; Die C raises the event. -/
def execCnvCoefSetWrite (d : MDie) (set_ : Fin 64) (data : List Byte) (s : State) : Out :=
  let n := set_.val
  when s.serverUp s (s.mirror d.die (fun d _ s =>
    if data.length ≠ 1024 then s.ans .length
     else if s.rdN Obj.cnvCoefUsers d.die n ≠ 0 then s.ans .access
     else match (List.range 64).find? (fun ph => !coefPhaseOk data ph) with
     | some ph =>
       (((s.setBit Obj.cnvSticky d.die 0 1).bump Obj.cnvCount d.die 0).raise .c 0x1704 n
         (p16 [n, ph, coefSum data ph])).ans (.rejected 0x1704)
     | none => (s.persistBytes Obj.cnvCoefSet d.die n data).ans .ok))

/-! ### Pictures entering a chain (R177, R189) -/

/-- Pictures a chain's store keeps (R177, R189). -/
def State.storeDepth (s : State) (d : MDie) (n : Nat) : Nat :=
  let m := s.rdN Obj.cnvChainFrc d.die n
  if m = 0xFF then 3 else s.rdN Obj.cnvFrcDelay d.die m + 2

/-- At the switch line of a chain's input the frame before it has passed: a running chain in frame mode has stored it by its number, a field
at a time, and the riding state follows (R177, R189, R190, R194). The frame that was under way when the chain began is not whole and is
not stored; in line mode the next one is the chain's first complete picture (R174). -/
def State.chainInput (s : State) (d : MDie) (n : Nat) : State :=
  match (s.chain d n).work with
  | none => s
  | some g =>
    let a := s.chainIn d n
    let b := s.chainOut d n
    let frame := (coordOf (fmt a.format) a.ofs (s.now d.pdie)).frame - 1
    let img := s.inputImg d 2 n a frame
    let (w, h) := activeSize (fmt b.format).family
    let pic := fun par => tabulate w h (s.chainPixel d n g img par)
    let add := if interlaced (fmt a.format).family then [(2 * frame, pic 0), (2 * frame + 1, pic 1)] else [(frame, pic 0)]
    let s := s.updChain d n (fun x =>
      { x with pics := x.pics + 1, store := if s.frameMode d n ∧ x.pics ≠ 0 then keepNewest (s.storeDepth d n) (x.store ++ add) else x.store })
    let s := if 2 ≤ (s.chain d n).pics ∧ ¬ s.frameMode d n then s.clrBit Obj.cnvChainStatus d.die n 1 else s
    let m := s.rdN Obj.cnvChainFrc d.die n
    if m = 0xFF then s
    else
      let ride := if s.rdN Obj.cnvFrcMotion d.die m = 1 then none else s.rides d n g
      let s := s.putBit Obj.cnvFrcStatus d.die m 1 ride.isSome
      let s := s.putBit Obj.cnvFrcStatus d.die m 2 (ride.isNone && decide (s.rdN Obj.motFrcEngine d.die m < 2))
      s.wr Obj.cnvFrcChannel d.die m (match ride with | some c => c | none => 0xFF : Nat)

end Sys2Proof.Machine
end

