-- ==== Sys2Proof/Machine/Composition.lean ====
section
/-! DEFINITION. Compositors, Felt surfaces, scan-out outputs and CRC rectangles (R197–R218). -/

namespace Sys2Proof.Machine

/-- Subject indexes of the stores of the graphics region and of a compositor (R358). -/
def subjRegion : Nat := 0x1800
def subjFelt : Nat := 0x1803

/-! ### Surfaces (R201) -/

/-- Bytes of the graphics region. -/
def State.regionBytes (s : State) (d : MDie) : Nat := s.rdN Obj.compSurfSize d.die 0 * 1048576

/-- COMP_SURF_DATA_WRITE (R201). -/
def execCompSurfDataWrite (d : MDie) (data : List Byte) (s : State) : Out :=
  when s.serverUp s (s.mirror d.die (fun d _ s =>
    let o := s.rdN Obj.compSurfOffset d.die 0
     if 65536 < data.length then s.ans .length
     else if s.regionBytes d < o + data.length then s.ans .range
     else
       let s := s.updVideo d (fun v => { v with surf := data.zipIdx.foldl (fun t b => tabSet t (o + b.2) b.1) v.surf })
       (s.wr Obj.compSurfOffset d.die 0 ((o + data.length : Nat) : Int)).ans .ok))

/-! ### Compositor shadow sets (R211) -/

/-- A layer's objects, captured. -/
def State.layerShadow (s : State) (d : MDie) (k : Nat) : LayerCfg :=
  { kind := s.rdN Obj.cmpLayerKind d.die k, scaler := s.rdN Obj.cmpLayerScaler d.die k,
    scl := { src := rectOf (s.rdBytes Obj.cmpLayerSrc d.die k), dst := rectOf (s.rdBytes Obj.cmpLayerDst d.die k),
             vtaps := s.rdN Obj.cmpLayerVtaps d.die k, setV := s.rdN Obj.cmpLayerSetV d.die k,
             setHY := s.rdN Obj.cmpLayerSetHy d.die k, setHC := s.rdN Obj.cmpLayerSetHc d.die k },
    addr := s.rdN Obj.cmpLayerAddr d.die k, pitch := s.rdN Obj.cmpLayerPitch d.die k,
    surfFmt := s.rdN Obj.cmpLayerSurfFmt d.die k, premul := s.rd Obj.cmpLayerPremul d.die k == 1,
    colour := s.rdBytes Obj.cmpLayerColour d.die k, keyMode := s.rdN Obj.cmpLayerKeyMode d.die k,
    keyClip := s.rdN Obj.cmpLayerKeyClip d.die k, keyGain := s.rdN Obj.cmpLayerKeyGain d.die k,
    keyInvert := s.rd Obj.cmpLayerKeyInvert d.die k == 1, opacity := s.rdN Obj.cmpLayerOpacity d.die k,
    static := s.rd Obj.cmpLayerStatic d.die k == 1 }

/-- CMP.BG of a compositor; until it is written, BLACK of the compositor's sampling and range (R205, R209). -/
def State.cmpBgBytes (s : State) (d : MDie) (n : Nat) : List Byte :=
  match mapGet s.blobs (Obj.cmpBg.addr d.die n) with
  | some b => b
  | none =>
    let a := s.cmpAttr d n
    [0, 1, 2].flatMap (fun k => natBe 2 (comp (blendBlack a.sampling a.range) k))

/-- A compositor's shadow set, captured. -/
def State.cmpShadow (s : State) (d : MDie) (n : Nat) : CmpCfg :=
  { latch := s.rdN Obj.cmpLatch d.die n, bg := s.cmpBgBytes d n, lutPre := s.rdBytes Obj.cmpLutPre d.die n,
    lutPost := s.rdBytes Obj.cmpLutPost d.die n, clip := s.rdBytes Obj.cmpClip d.die n, anc := s.rdN Obj.cmpAncLayer d.die n,
    felt := s.rd Obj.cmpFeltEnable d.die n == 1,
    layers := (List.range 16).map (fun l => s.layerShadow d (n * 16 + l)) }

/-- First active line of field 1 of a raster. -/
def firstActive (f : Format) : Nat := (activeLines1 f.family).1

/-- The latch line in force: 0 is the switch line (R212). -/
def latchLine (f : Format) (latch : Nat) : Nat := if latch = 0 then switchLine f.family else latch

/-- A latch line is allowed (R212). -/
def latchOk (f : Format) (latch : Nat) : Bool := latch == 0 || (decide (2 ≤ latch) && decide (latch + 1 ≤ firstActive f))

/-- A commit instant lies in the late zone of a raster: the frame of the zone (R212). -/
def lateFrame (f : Format) (ofs latch : Nat) (t : Instant) : Option Nat :=
  let c := coordOf f ofs (t.n / t.d)
  if latchLine f latch - 1 ≤ c.line ∧ c.line < firstActive f then some c.frame else none

/-! ### Checks (R199–R206) -/

/-- A layer's rectangles with all zeros filled in. -/
def State.layerRects (s : State) (d : MDie) (n k : Nat) (l : LayerCfg) : SclCfg :=
  let out := activeSize (fmt (s.cmpAttr d n).format).family
  let c := l.scl.filled (if l.kind = 1 then activeSize (fmt (s.layerAttr d (n * 16 + k)).format).family else out) out
  if l.scaler = 0xFF then { c with vtaps := 0 } else c

/-- The key rules of R204 for layer `k`; the key fields of a layer that gives a key are ignored. -/
def keyOk (g : CmpCfg) (size : Nat × Nat) (k : Nat) (l : LayerCfg) : Bool :=
  g.keySource k || match l.keyMode with
  | 0 => true
  | 1 => l.kind == 2
  | 2 => l.kind != 3
  | _ => l.kind != 3 && decide (k < 15) &&
    (match g.layer? (k + 1) with
     | some m => decide (1 ≤ m.kind) && decide (m.kind ≤ 2) && m.dstRect size == l.dstRect size
     | none => false)

/-- The surface rules of R202. -/
def State.surfOk (s : State) (d : MDie) (l : LayerCfg) (c : SclCfg) : Bool :=
  let n := surfBytes l.surfFmt
  l.addr % 256 == 0 && l.pitch % 256 == 0 && decide ((c.src.x + c.src.w) * n ≤ l.pitch)
    && decide (l.addr + (c.src.y + c.src.h - 1) * l.pitch + (c.src.x + c.src.w) * n ≤ s.regionBytes d)

/-- The geometry of a layer (R200). -/
def State.layerGeomOk (s : State) (d : MDie) (n k : Nat) (l : LayerCfg) : Bool :=
  let b := s.cmpAttr d n
  let fo := (fmt b.format).family
  let a := s.layerAttr d (n * 16 + k)
  let fi := (fmt a.format).family
  let c := s.layerRects d n k l
  rectOk c.dst (activeSize fo) b.sampling (interlaced fo) &&
    (match l.kind with
     | 1 => rectOk c.src (activeSize fi) a.sampling (interlaced fi)
     | 2 => decide (0 < c.src.w) && decide (0 < c.src.h) && s.surfOk d l c
     | _ => l.scaler == 0xFF) &&
    (l.kind == 3 ||
      (if l.scaler = 0xFF then c.src.w == c.dst.w && c.src.h == c.dst.h && (l.kind == 2 || interlaced fi == interlaced fo)
       else ratioOk c.src.w c.dst.w && ratioOk c.src.h c.dst.h))

/-- The Loom rules of a layer (R199): attributes, then timing. -/
def State.layerLoomFault (s : State) (d : MDie) (n k : Nat) (l : LayerCfg) : Option Nat :=
  let b := s.cmpAttr d n
  let a := s.layerAttr d (n * 16 + k)
  if ¬ (a.color = b.color ∧ a.tcs = b.tcs ∧ a.range = b.range ∧ (a.sampling = 2 ↔ b.sampling = 2) ∧
      rateEq (pictureRate (fmt a.format)) (pictureRate (fmt b.format))) then some 1
  else if ¬ lineModeOk a b (s.layerRects d n k l) then some 3
  else none

/-- The reason a layer fails, before scaler resources. -/
def State.layerFault (s : State) (d : MDie) (n : Nat) (g : CmpCfg) (k : Nat) : Option Nat :=
  match g.layer? k with
  | none => none
  | some l =>
    if l.kind = 0 then none
    else if ¬ s.layerGeomOk d n k l ∨ ¬ keyOk g (activeSize (fmt (s.cmpAttr d n).format).family) k l then some 2
    else if l.kind = 1 then s.layerLoomFault d n k l
    else none

/-- The layers of every compositor but `n` that a scaler serves, with their compositors. -/
def State.otherLayers (s : State) (d : MDie) (n scaler : Nat) : List (Nat × Nat × LayerCfg) :=
  (s.md d).video.cmps.flatMap (fun c =>
    if c.1 = n then []
    else match c.2.latest with
      | none => []
      | some g => (g.layers.zipIdx.filter (fun l => l.1.usesScaler && l.1.scaler == scaler)).map (fun l => (c.1, l.2, l.1)))

/-- What a scaler is asked for by a compositor's set, with its other layers: layers, line buffer samples, throughput. -/
def State.scalerDemand (s : State) (d : MDie) (n : Nat) (g : CmpCfg) (scaler : Nat) : Nat × Nat × Nat :=
  let own := (g.layers.zipIdx.filter (fun l => l.1.usesScaler && l.1.scaler == scaler)).map (fun l => (n, l.2, l.1))
  (own ++ s.otherLayers d n scaler).foldl (fun (acc : Nat × Nat × Nat) x =>
    let c := s.layerRects d x.1 x.2.1 x.2.2
    let f := fmt (s.cmpAttr d x.1).format
    (acc.1 + 1, acc.2.1 + c.lineSamples, acc.2.2 + c.rate1001 f)) (0, 0, 0)

/-- Why a scaler refuses a layer. -/
inductive SclFault where
  | off | held | coef | rate
  | line (short : Nat)

/-- The scaler's answer to a compositor's set for one layer (R173, R181–R184). -/
def State.scalerFault (s : State) (d : MDie) (n : Nat) (g : CmpCfg) (k : Nat) (l : LayerCfg) : Option SclFault :=
  let (count, lines, rate) := s.scalerDemand d n g l.scaler
  if ¬ s.secOn d secCnv ∨ s.elemBad d secCnv l.scaler then some .off
  else if s.rdN Obj.cnvSclOwner d.die l.scaler / 4096 = 1 ∨ 16 < count ∨ 32 ≤ l.scaler then some .held
  else if ¬ s.coefsOk d (s.layerRects d n k l) then some .coef
  else if lineBuffer < lines then some (.line (lines - lineBuffer))
  else if sclThroughput < rate then some .rate
  else none

/-- The Felt rules of R206. -/
def feltOk (g : CmpCfg) : Bool :=
  let on := (g.layers.zipIdx.filter (fun l => l.1.kind != 0)).map (fun l => (l.2, l.1.static))
  let flags := on.map (·.2)
  let body := (flags.dropWhile (fun b => !b)).reverse.dropWhile (fun b => !b)
  !g.felt || (body.all (fun b => b) &&
    g.layers.zipIdx.all (fun l => l.1.kind == 0 || !l.1.static || (l.1.kind != 1 && l.1.keyMode != 3 && !g.keySource l.2)))

/-- The Felt rectangle of a set: the bounding rectangle of its run, widened to even x and w (R207). -/
def CmpCfg.feltRect (g : CmpCfg) (size : Nat × Nat) : Rect :=
  let rs := g.run.filterMap (fun k => (g.layer? k).map (fun l => l.dstRect size))
  match rs with
  | [] => ⟨0, 0, 0, 0⟩
  | r :: l =>
    let x0 := l.foldl (fun m q => min m q.x) r.x
    let y0 := l.foldl (fun m q => min m q.y) r.y
    let x1 := l.foldl (fun m q => max m (q.x + q.w)) (r.x + r.w)
    let y1 := l.foldl (fun m q => max m (q.y + q.h)) (r.y + r.h)
    let x := x0 - x0 % 2
    let w := x1 - x
    ⟨x, y0, w + w % 2, y1 - y0⟩

/-- Surface and Felt reads of a set, in bytes per second (R207, R496). -/
def State.cmpTraffic (s : State) (d : MDie) (n : Nat) (g : CmpCfg) : Nat :=
  let f := fmt (s.cmpAttr d n).format
  let r := g.feltRect (activeSize f.family)
  let layers := sumOver (g.layers.zipIdx.filter (fun l => l.1.kind == 2)) (fun l =>
    let c := s.layerRects d n l.2 l.1
    c.src.w * c.src.h * surfBytes l.1.surfFmt)
  ceilDiv ((8 * r.w * r.h + layers) * f.num) f.den

/-- The section of a compositor. -/
def secCmp (n : Nat) : Nat := if n < 4 then 19 else 20

/-! ### Presses (R206–R208) -/

/-- A set needs a press before it may apply: its run differs from the working set's, or the press is forced (R208). -/
def pressNeeded (work : Option CmpCfg) (g : CmpCfg) (forced : Bool) : Bool :=
  g.felt && g.run != [] &&
    (forced || (match work with
      | none => true
      | some w => !w.felt || w.run != g.run || w.lutPre != g.lutPre ||
          g.run.any (fun k => w.layer? k != g.layer? k)))

/-- CMP.FELT.STATE and CMP.STATUS bits 2 and 3 follow the compositor. -/
def State.showFelt (s : State) (d : MDie) (n : Nat) : State :=
  let c := s.cmp d n
  let p := c.queued || c.pressing.isSome
  let s := (s.putBit Obj.cmpStatus d.die n 2 c.pressing.isSome).putBit Obj.cmpStatus d.die n 3 c.felt.isSome
  s.wr Obj.cmpFeltState d.die n ((if p then 1 else 0) + (if c.felt.isSome then 2 else 0) : Nat)

/-- A press queued for a compositor, abandoning one it waited for or ran; the surface of a staged set is out of its reach (R208). -/
def State.queuePress (s : State) (d : MDie) (n : Nat) (need : Bool) : State :=
  let s := s.updVideo d (fun v =>
    { v with pressQueue := v.pressQueue.filter (fun k => k != n) ++ (if need then [n] else []) })
  (s.updCmp d n (fun x => { x with queued := need, pressing := none, fresh := none, lost := 0 })).showFelt d n

/-! ### Commits (R211, R212) -/

/-- A rejected compositor commit; the layer is free where no layer is at fault. -/
def State.cmpReject (s : State) (d : MDie) (n reason : Nat) (layer : Option Nat) : State :=
  let (v, s) := match layer with | some k => (k, s) | none => s.free 16
  let s := (s.setBit Obj.compSticky d.die 0 0).bump Obj.compCount d.die 0
  let s := if n < 8 then (s.setBit Obj.cmpSticky d.die n 1).wr Obj.cmpReject d.die n (reason : Nat) else s
  (s.raise d.pdie 0x1802 n (p16 [n, reason, v])).ans (.rejected 0x1802)

/-- The scaler's own event beside a rejected compositor commit (R173, R183). -/
def State.scalerReject (s : State) (d : MDie) (scaler : Nat) : SclFault → State
  | .line short => s.lineShort d scaler short
  | .off => s.raise d.pdie 0x1703 scaler (p16 [scaler, 6])
  | .held => s.raise d.pdie 0x1703 scaler (p16 [scaler, 7])
  | .coef => s.raise d.pdie 0x1703 scaler (p16 [scaler, 2])
  | .rate => (s.setBit Obj.cnvSclSticky d.die scaler 1).raise d.pdie 0x1703 scaler (p16 [scaler, 1])

/-- Owners and line buffers of the scalers follow the layers (R195). -/
def State.refreshScalers (s : State) (d : MDie) : State :=
  (List.range 32).foldl (fun (s : State) k =>
    if s.rdN Obj.cnvSclOwner d.die k / 4096 = 1 then s
    else
      let l := s.otherLayers d 0xFFFF k
      let n := l.length
      let owner := if n = 0 then 0 else 8192 + n
      if s.rdN Obj.cnvSclOwner d.die k = owner ∧ n = 0 then s
      else
        (s.wr Obj.cnvSclOwner d.die k (owner : Nat)).wr Obj.cnvSclLinebufUsed d.die k
          (sumOver l (fun x => (s.layerRects d x.1 x.2.1 x.2.2).lineSamples) : Nat)) s

/-- A compositor's shadow set is committed at an instant (R208, R211): checked, its resources taken, captured as the
pending set. It is compared with the set that will be in force when it applies; where it replaces a set that waits for its press, a new
press is queued. `judged` holds but on leaving CONFIGURE, where no commit is late. -/
def State.cmpCommit (s : State) (d : MDie) (n : Nat) (t : Instant) (forced judged : Bool) : State × Bool :=
  let g := s.cmpShadow d n
  let b := s.cmpAttr d n
  let f := fmt b.format
  if ¬ s.secOn d (secCmp n) ∨ s.elemBad d (secCmp n) (n % 4) then (s.cmpReject d n 6 none, false)
  else if ¬ latchOk f g.latch then (s.cmpReject d n 2 none, false)
  else match (List.range 16).findSome? (fun k => (s.layerFault d n g k).map (fun r => (k, r))) with
  | some (k, r) => (s.cmpReject d n r (some k), false)
  | none =>
    match (g.layers.zipIdx.filter (fun l => l.1.usesScaler)).findSome? (fun l =>
        (s.scalerFault d n g l.2 l.1).map (fun e => (l.2, l.1.scaler, e))) with
    | some (k, sc, e) => ((s.cmpReject d n 4 (some k)).scalerReject d sc e, false)
    | none =>
      if ¬ feltOk g then (s.cmpReject d n 5 none, false)
      else
        let r := if g.felt then g.feltRect (activeSize f.family) else ⟨0, 0, 0, 0⟩
        let bytes := 16 * r.w * r.h
        match s.allocStores d subjFelt n (if bytes = 0 then [] else [bytes]) (s.cmpTraffic d n g) with
        | .error (kind, short) => ((s.cmpReject d n 5 none).memRefuse d kind subjFelt short, false)
        | .ok s =>
          let latch := match (s.cmp d n).work with | some w => w.latch | none => g.latch
          let late := if judged then lateFrame f b.ofs latch t else none
          let c := s.cmp d n
          let need := pressNeeded (c.staged.orElse (fun _ => c.work)) g (forced || c.queued || c.pressing.isSome)
          let s := s.updCmp d n (fun x => { x with pend := some g, lateUntil := late })
          let s := (s.queuePress d n need).setBit Obj.cmpStatus d.die n 1
          let s := s.wr Obj.cmpFeltBytes d.die n (bytes : Nat)
          let s := (s.refreshScalers d).refreshCoefs d
          let s := if late.isSome then
              ((s.setBit Obj.cmpSticky d.die n 0).bump Obj.cmpLateCount d.die n).raise d.pdie 0x1801 n (p16 [1, n])
            else s
          (s.ans .ok, true)

/-- A compositor is in use (R197). -/
def State.cmpUsed (s : State) (d : MDie) (n : Nat) : Bool := s.rd Obj.cmpEnable d.die n == 1

/-- CMP_COMMIT (R211). A compositor that is not in use has nothing to commit. -/
def execCmpCommit (d : MDie) (n : Fin 8) (s : State) : Out :=
  when s.serverUp s (s.mirror d.die (fun d t s =>
    if s.cmpUsed d n.val then (s.cmpCommit d n.val t false true).1 else s.ans .ok))

/-- CMP_FELT_REBUILD (R208): a commit that always presses. -/
def execCmpFeltRebuild (d : MDie) (n : Fin 8) (s : State) : Out :=
  when s.serverUp s (s.mirror d.die (fun d t s =>
    if s.cmpUsed d n.val then (s.cmpCommit d n.val t true true).1 else s.ans .ok))

/-- FELT_PRESS_START (R197, R208): the presses of a section run one at a time, in order of request. -/
def execFeltPressStart (d : MDie) (n : Fin 8) (s : State) : Out :=
  let k := n.val
  let c := s.cmp d k
  let mates := (List.range 8).filter (fun j => secCmp j == secCmp k)
  let turn := ((s.md d).video.pressQueue.find? (fun j => secCmp j == secCmp k)) == some k
  match c.pend with
  | none => .next s
  | some g =>
    when (s.up d.pdie && s.secOn d (secCmp k) && c.queued && turn && mates.all (fun j => (s.cmp d j).pressing.isNone)) s
      (let r := g.feltRect (activeSize (fmt (s.cmpAttr d k).format).family)
       let t := s.now d.pdie + ceilDiv (r.w * r.h * g.run.length) 2
       let s := s.updVideo d (fun v => { v with pressQueue := v.pressQueue.filter (fun j => j != k) })
       (s.updCmp d k (fun x => { x with queued := false, pressing := some t })).showFelt d k)

/-- The surface a press writes (R207). -/
def State.pressSurface (s : State) (d : MDie) (n : Nat) (g : CmpCfg) : Rect × List FeltPix :=
  let b := s.cmpAttr d n
  let size := activeSize (fmt b.format).family
  let black := blendBlack b.sampling b.range
  let r := g.feltRect size
  let codes := fun row col l => match g.layer? l with
    | some y => s.layerCodes d n l y (fun _ _ _ => black) 0 row col
    | none => (⟨0, 0, 0⟩, 0)
  let at_ := fun row col => g.run.foldl (fun (f : FeltPix) k =>
    match g.layer? k with
    | none => f
    | some l =>
      let a := layerAlpha g size (codes row col) k row col
      pressStep f (blendP g.lutPre black l.premul (codes row col k).1 a) a) ⟨0, 0, 0, 4096⟩
  (r, (List.range r.h).flatMap (fun y => (List.range r.w).map (fun x => at_ (r.y + y) (r.x + x))))

/-- FELT_PRESS_COMPLETE (R207, R208). -/
def execFeltPressComplete (d : MDie) (n : Fin 8) (s : State) : Out :=
  let k := n.val
  match (s.cmp d k).pressing, (s.cmp d k).pend with
  | some t, some g =>
    when (s.up d.pdie && s.secOn d (secCmp k) && decide (t ≤ s.now d.pdie)) s
      (let f := s.pressSurface d k g
       ((s.updCmp d k (fun x => { x with pressing := none, fresh := some f })).bump Obj.cmpFeltCount d.die k).showFelt d k)
  | _, _ => .next s

/-! ### Outputs (R210, R211, R216) -/

/-- An output's shadow set, captured. -/
def State.outShadow (s : State) (d : MDie) (m : Nat) : OutCfg :=
  { source := s.rdN Obj.scnOutSource d.die m, latch := s.rdN Obj.scnOutLatch d.die m, discPt := s.rdN Obj.scnOutDiscPt d.die m,
    crc := (List.range 16).map (fun r =>
      { rect := rectOf (s.rdBytes Obj.scnCrcRect d.die (m * 16 + r)), mode := s.rdN Obj.scnCrcMode d.die (m * 16 + r),
        expect := s.rdN Obj.scnCrcExpect d.die (m * 16 + r) }) }

/-- The set an output committed last. -/
def OutSt.latest (o : OutSt) : Option OutCfg := o.pend.orElse (fun _ => o.staged.orElse (fun _ => o.work))

/-- Outputs other than `m` that take a compositor directly (R197). -/
def State.directFeeds (s : State) (d : MDie) (m n : Nat) : Nat :=
  ((s.md d).video.outs.filter (fun o => o.1 != m && (match o.2.latest with | some g => g.source == 4096 + n | none => false))).length

/-- A CRC rectangle lies in the active picture, on even positions for 4:2:2 (R216). -/
def crcRectOk (r : Rect) (size : Nat × Nat) (sampling : Nat) : Bool :=
  r.w == 0 || (decide (r.x + r.w ≤ size.1) && decide (r.y + r.h ≤ size.2) && (sampling != 0 || (r.x % 2 == 0 && r.w % 2 == 0)))

/-- The reason an output's set fails (R210, R212, R216). -/
def State.outFault (s : State) (d : MDie) (m : Nat) (g : OutCfg) : Option Nat :=
  let a := s.outAttr d m
  let f := fmt a.format
  let n := g.source % 4096
  if ¬ s.secOn d secScn ∨ s.elemBad d secScn m then some 5
  else if g.source / 4096 = 1 ∧ ¬ (n < 8 ∧ (s.cmpAttr d n).same a ∧ (s.cmpAttr d n).ofs = a.ofs) then some 1
  else if g.source / 4096 = 1 ∧ 8 ≤ s.directFeeds d m n then some 2
  else if ¬ g.crc.all (fun c => crcRectOk c.rect (activeSize f.family) a.sampling) then some 3
  else if ¬ latchOk f g.latch then some 4
  else none

/-- A rejected output commit or apply. -/
def State.outReject (s : State) (d : MDie) (m reason : Nat) : State :=
  let s := (s.setBit Obj.compSticky d.die 0 1).bump Obj.compCount d.die 0
  let s := (s.setBit Obj.scnOutSticky d.die m 1).wr Obj.scnOutReject d.die m (reason : Nat)
  (s.raise d.pdie 0x1811 m (p16 [m, reason])).ans (.rejected 0x1811)

/-- The raster a pending set is tested on: the new one of a discontinuity, or the running one (R215). -/
def State.outRasterNow (s : State) (d : MDie) (m : Nat) : Format × Nat :=
  match (s.outp d m).next with
  | some r => (fmt r.format, r.ofs)
  | none => (fmt (s.outAttr d m).format, (s.outAttr d m).ofs)

/-- An output's shadow set is committed at an instant (R211, R212); `judged` holds but on leaving CONFIGURE. -/
def State.outCommit (s : State) (d : MDie) (m : Nat) (t : Instant) (judged : Bool) : State × Bool :=
  let g := s.outShadow d m
  match s.outFault d m g with
  | some r => (s.outReject d m r, false)
  | none =>
    let (f, ofs) := s.outRasterNow d m
    let latch := match (s.outp d m).work with | some w => w.latch | none => g.latch
    let late := if judged then lateFrame f ofs latch t else none
    let s := s.updOutp d m (fun x => { x with pend := some g, lateUntil := late })
    let s := s.setBit Obj.scnOutStatus d.die m 1
    let s := if late.isSome then
        ((s.setBit Obj.scnOutSticky d.die m 0).bump Obj.scnOutLateCount d.die m).raise d.pdie 0x1801 m (p16 [2, m])
      else s
    (s.ans .ok, true)

/-- An output is in use (R210). -/
def State.outUsed (s : State) (d : MDie) (m : Nat) : Bool := s.rd Obj.scnOutEnable d.die m == 1

/-- SCN_OUT_COMMIT (R211). An output that is not in use has nothing to commit. -/
def execScnOutCommit (d : MDie) (m : Fin 64) (s : State) : Out :=
  when s.serverUp s (s.mirror d.die (fun d t s =>
    if s.outUsed d m.val then (s.outCommit d m.val t true).1 else s.ans .ok))

/-! ### Guard test and latch (R208, R212) -/

/-- Whether a pending set may move at the guard test of the frame now on a raster: not where it came in that frame's late
zone. -/
def notLate (late : Option Nat) (f : Format) (ofs now : Nat) : Bool := late != some (coordOf f ofs now).frame

/-- The guard test of a compositor: the pending set moves to staging unless a press holds it (R208, R212). After a time step the raster's
first guard line under the new time tests it (R215). -/
def State.cmpGuard (s : State) (d : MDie) (n : Nat) : State :=
  let c := s.cmp d n
  let a := s.cmpAttr d n
  let due : Bool := match c.rest with | some r => decide (r.start ≤ s.now d.pdie) | none => true
  let s := if due ∧ c.rest.isSome then s.updCmp d n (fun x => { x with rest := none }) else s
  if ¬ due ∨ c.pend.isNone ∨ ¬ notLate c.lateUntil (fmt a.format) a.ofs (s.now d.pdie) then s
  else if c.queued ∨ c.pressing.isSome then
    let k := c.lost + 1
    ((s.updCmp d n (fun x => { x with lost := k })).setBit Obj.cmpSticky d.die n 2).raise d.pdie 0x1803 n (p16 [n, k])
  else s.updCmp d n (fun x => { x with staged := x.pend, stagedFelt := x.fresh, pend := none, fresh := none, lateUntil := none })

/-- The guard test of an output (R212); while it goes over to another raster, the new one's first guard line tests the set (R215). -/
def State.outGuard (s : State) (d : MDie) (m : Nat) : State :=
  let o := s.outp d m
  let (f, ofs) := s.outRasterNow d m
  if o.next.isSome ∨ o.pend.isNone ∨ ¬ notLate o.lateUntil f ofs (s.now d.pdie) then s
  else s.updOutp d m (fun x => { x with staged := x.pend, pend := none, lateUntil := none })

/-- GUARD_TEST (R212): of a compositor, or of an output. -/
def execGuardTest (d : MDie) (out : Bool) (n : Fin 64) (s : State) : Out :=
  let k := n.val
  if out then when (s.up d.pdie && s.secOn d secScn) s (s.outGuard d k)
  else if 8 ≤ k then .fault .noSuchUnit
  else when (s.up d.pdie && s.secOn d (secCmp k)) s (s.cmpGuard d k)

/-- The latch of a compositor: staging becomes the working set, with its Felt surface (R208, R212). -/
def State.cmpLatch (s : State) (d : MDie) (n : Nat) : State :=
  let c := s.cmp d n
  match c.staged with
  | none => s
  | some g =>
    let felt := if g.felt ∧ g.run ≠ [] then c.stagedFelt.orElse (fun _ => c.felt) else none
    let a := s.cmpAttr d n
    let frame := (coordOf (fmt a.format) a.ofs (s.now d.pdie)).frame
    let s := s.updCmp d n (fun x => { x with
      work := some g, staged := none, felt := felt, stagedFelt := none, lost := 0, old := x.work.map (fun w => (w, x.felt, frame)) })
    let s := (s.bump Obj.cmpCount d.die n).setBit Obj.cmpStatus d.die n 0
    let s := s.putBit Obj.cmpStatus d.die n 1 (s.cmp d n).pend.isSome
    let r := match felt with | some f => f.1 | none => ⟨0, 0, 0, 0⟩
    let s := s.wrBytes Obj.cmpFeltRect d.die n ([r.x, r.y, r.w, r.h].flatMap (natBe 2))
    (s.showFelt d n).refreshCoefs d

/-- The latch of an output (R212). -/
def State.outLatch (s : State) (d : MDie) (m : Nat) : State :=
  match (s.outp d m).staged with
  | none => s
  | some g =>
    let s := s.updOutp d m (fun x => { x with work := some g, staged := none, learnt := [], bad := [] })
    let s := (s.bump Obj.scnOutCount d.die m).setBit Obj.scnOutStatus d.die m 0
    s.putBit Obj.scnOutStatus d.die m 1 (s.outp d m).pend.isSome

/-- LATCH (R212): of a compositor, or of an output. -/
def execLatch (d : MDie) (out : Bool) (n : Fin 64) (s : State) : Out :=
  let k := n.val
  if out then when (s.up d.pdie && s.secOn d secScn) s (s.outLatch d k)
  else if 8 ≤ k then .fault .noSuchUnit
  else when (s.up d.pdie && s.secOn d (secCmp k)) s (s.cmpLatch d k)

/-! ### Raster discontinuities (R214, R215) -/

/-- The end of the last active line of a frame of a raster. -/
def lastActiveEnd (f : Format) (ofs frame : Nat) : Instant :=
  let last := match activeLines2 f.family with | some l => l.2 | none => (activeLines1 f.family).2
  instantOf f ofs ⟨frame, last + 1, 0⟩

/-- An instant moved by a step. -/
def Instant.shift (t : Instant) (step : Int) : Instant := ⟨((t.n : Int) + step * t.d).toNat, t.d⟩

/-- An output's running raster, left at an instant of the old time under a step: the frame under way completes (R214, R215). -/
def State.outLeaving (s : State) (d : MDie) (m t : Nat) (step : Int) : NextRaster :=
  let a := s.outAttr d m
  let f := fmt a.format
  let frame := (coordOf f a.ofs t).frame
  { format := a.format, ofs := a.ofs, attr := s.rdN Obj.scnOutAttr d.die m, start := 0, cause := 2,
    oldEnd := (instantOf f a.ofs ⟨frame + 1, 1, 0⟩).shift step, frame := frame, quiet := (lastActiveEnd f a.ofs frame).shift step, shift := step }

/-- An output goes over to a raster: its frame under way completes, then silence until the raster's first frame start at
or after the end of the old frame period (R214). -/
def State.outGoOver (s : State) (d : MDie) (m : Nat) (r : NextRaster) : State :=
  let f := fmt r.format
  s.updOutp d m (fun x => { x with next := some { r with start := (instantOf f r.ofs (landing f r.ofs 1 r.oldEnd)).ceilNs } })

/-- A step of the time base at an instant of the old time: an output that runs goes over to its own raster under the new time, one that is
going over to another raster goes on doing so, its old frame moved by the step (R64, R215). -/
def State.outStep (s : State) (d : MDie) (m t : Nat) (step : Int) : State :=
  match (s.outp d m).next with
  | some r => s.outGoOver d m { r with oldEnd := r.oldEnd.shift step, quiet := r.quiet.shift step, shift := r.shift + step }
  | none => if (s.outp d m).work.isNone then s else s.outGoOver d m (s.outLeaving d m t step)

/-- A step of the time base for a compositor that runs: the frame under way completes, and its raster restarts at its next frame start
under the new time (R215). -/
def State.cmpStep (s : State) (d : MDie) (n t : Nat) (step : Int) : State :=
  if (s.cmp d n).work.isNone then s
  else
    let a := s.cmpAttr d n
    let f := fmt a.format
    let frame := match (s.cmp d n).rest with | some r => r.frame | none => (coordOf f a.ofs t).frame
    let c := landing f a.ofs 1 ((instantOf f a.ofs ⟨(coordOf f a.ofs t).frame + 1, 1, 0⟩).shift step)
    s.updCmp d n (fun x => { x with rest := some ⟨frame, c.frame, (instantOf f a.ofs c).ceilNs⟩ })

/-- Checks 3 of R214: the pending raster is valid, and the Loom destination has the bond it needs. -/
def State.pendingOk (s : State) (d : MDie) (m : Nat) (a : Attr) : Bool :=
  a.valid && decide (a.ofs < (fmt a.format).perFrame) &&
    (match s.dstOf d 1 m with
     | some p => some (s.rdN Obj.loomDstBond d.die p) == bondOf a
     | none => true)

/-- SCN_OUT_FORMAT_APPLY (R214, R215). A later apply keeps the old frame and its end. -/
def State.formatApply (s : State) (d : MDie) (m : Nat) (t : Instant) : State × Bool :=
  let pf := s.rdN Obj.scnOutFormatPending d.die m
  let pa := s.rdN Obj.scnOutAttrPending d.die m
  let w := if pa = 0xFFFF then s.rdN Obj.scnOutAttr d.die m else pa
  let a := Attr.ofWord (if pf = 0 then s.rdN Obj.scnOutFormat d.die m else pf) (s.rdN Obj.scnOutOfsPending d.die m) w
  if ¬ s.secOn d secScn then (s.outReject d m 5, false)
  else if ¬ s.pendingOk d m a then (s.outReject d m 6, false)
  else if (s.outAttr d m) = a ∧ (s.outp d m).next.isNone then (s.ans .ok, true)
  else
    let r := ((s.outp d m).next).getD (s.outLeaving d m (t.n / max 1 t.d) 0)
    ((s.outGoOver d m { r with format := a.format, ofs := a.ofs, attr := w, cause := 1 }).ans .ok, true)

/-- SCN_OUT_FORMAT_APPLY (R214). -/
def execScnOutFormatApply (d : MDie) (m : Fin 64) (s : State) : Out :=
  when s.serverUp s (s.mirror d.die (fun d t s => if s.outUsed d m.val then (s.formatApply d m.val t).1 else s.ans .ok))

/-- The egress flows that name an output: KIND 1 and 4 (R128, R210). -/
def State.flowsOfOutput (s : State) (d : MDie) (m : Nat) : List Nat :=
  (s.outFlows d).filter (fun f =>
    let b := s.outDesc d f
    (descKind b == 1 || descKind b == 4) && descTarget b == m)

/-- NEW_RASTER_START (R214): the new raster starts. -/
def execNewRasterStart (d : MDie) (m : Fin 64) (s : State) : Out :=
  let k := m.val
  match (s.outp d k).next with
  | none => .next s
  | some r =>
    when (s.up d.pdie && s.secOn d secScn && decide (r.start ≤ s.now d.pdie)) s
      (let swap := match (s.outp d k).work with | some g => g.discPt != 255 | none => false
       let s := ((s.persistNum Obj.scnOutFormat d.die k (r.format : Nat)).persistNum Obj.scnOutOfs d.die k (r.ofs : Nat)).persistNum
         Obj.scnOutAttr d.die k (r.attr : Nat)
       let s := (s.flowsOfOutput d k).foldl (fun (s : State) f =>
         (s.persistNum Obj.flowOutFormat d.die f (r.format : Nat)).persistNum Obj.flowOutOfs d.die f (r.ofs : Nat)) s
       let s := s.updOutp d k (fun x => { x with next := none, swapped := x.swapped != swap })
       let s := (s.setBit Obj.scnOutSticky d.die k 2).bump Obj.scnOutDiscCount d.die k
       s.raise d.pdie 0x1810 k (p16 [k, r.format, r.cause]))

/-! ### CRC rectangles (R216–R218) -/

/-- A CRC of a frame is compared (R218): `bad` tells of a mismatch since the commit, STATUS bit 1 of one since the last match. -/
def State.crcCompare (s : State) (d : MDie) (m r value expect : Nat) : State :=
  let i := m * 16 + r
  let was := decide (r ∈ (s.outp d m).bad)
  if value = expect then
    let s := s.updOutp d m (fun x => { x with bad := x.bad.filter (fun k => k != r) })
    if s.bit Obj.scnCrcStatus d.die i 1 then (s.clrBit Obj.scnCrcStatus d.die i 1).raise d.pdie 0x1821 i (p16 [i]) else s
  else
    let s := s.updOutp d m (fun x => { x with bad := if was then x.bad else x.bad ++ [r] })
    let s := ((s.setBit Obj.scnCrcStatus d.die i 1).setBit Obj.scnCrcSticky d.die i 0).bump Obj.scnCrcCount d.die i
    if was then s else s.raise d.pdie 0x1820 i (payloadOf [(16, i), (32, value), (32, expect)])

/-- A reference CRC run compares one more frame of a rectangle (R490). -/
def State.crcRunFrame (s : State) (d : MDie) (i : Nat) (bad : Bool) : State :=
  let left := tabGet (s.md d).test.crc i 0
  if s.rdN Obj.testCrcState d.die 0 ≠ 1 ∨ left = 0 then s
  else
    let s := s.updMd d (fun m => { m with test := { m.test with crc := tabSet m.test.crc i (left - 1) } })
    if bad then s.bump Obj.testCrcFails d.die 0 else s

/-- The end of a rectangle's last row in a frame that is sent (R218). Mode 3 compares with the value it learnt: what is written into
SCN.CRC.EXPECT waits for a commit (R211). -/
def State.crcEnd (s : State) (d : MDie) (m r : Nat) (c : CrcCfg) : State :=
  let i := m * 16 + r
  let a := s.outAttr d m
  let f := fmt a.format
  let fr := s.outFrame d m
  let v := crcOf (s.outputImg d m fr) a.sampling c.rect (interlaced f.family)
  let s := (s.wr Obj.scnCrcValue d.die i (v : Nat)).wr Obj.scnCrcFrame d.die i (fr : Nat)
  let s := s.setBit Obj.scnCrcStatus d.die i 0
  match c.mode with
  | 2 => (s.crcRunFrame d i (decide (v ≠ c.expect))).crcCompare d m r v c.expect
  | 3 =>
    match (s.outp d m).learnt.find? (fun e => e.1 == r) with
    | some e => s.crcCompare d m r v e.2
    | none => (s.persistNum Obj.scnCrcExpect d.die i (v : Nat)).updOutp d m (fun x => { x with learnt := tabSet x.learnt r v })
  | _ => s

/-- CRC_RECT_END (R218). A frame that is not sent has no value (R215). -/
def execCrcRectEnd (d : MDie) (rect : Fin 1024) (s : State) : Out :=
  let m := rect.val / 16
  let r := rect.val % 16
  match (s.outp d m).work.bind (fun g => g.crc[r]?) with
  | none => .next s
  | some c =>
    when (s.up d.pdie && s.secOn d secScn && decide (0 < c.rect.w) && decide (c.mode ≠ 0)
        && !s.outSilent d m) s (s.crcEnd d m r c)

/-! ### Leaving CONFIGURE (R174, R201, R208, R211) -/

/-- The objects by which chains, scalers, converters, compositors and outputs show that they run, and what each shows at rest. -/
def videoShown : List (ObjDef × Int) :=
  [(Obj.cnvChainStatus, 0), (Obj.cnvSclOwner, 0), (Obj.cnvSclLinebufUsed, 0), (Obj.cnvFrcStatus, 0), (Obj.cnvFrcChannel, 0xFF),
   (Obj.motFrcEngine, 0xFF), (Obj.cmpStatus, 0), (Obj.cmpFeltState, 0), (Obj.cmpFeltBytes, 0), (Obj.scnOutStatus, 0)]

/-- Chains, compositors and outputs of a die run no more: none is in force in CONFIGURE or STANDBY (R174, R211, R481). -/
def State.videoOff (s : State) (d : MDie) : State :=
  let s := s.updVideo d (fun v => { v with chains := [], cmps := [], outs := [], pressQueue := [] })
  let s := videoShown.foldl (fun (s : State) o =>
    (s.listed o.1 d.die (fun _ v => v != o.2)).foldl (fun (s : State) k => s.wr o.1 d.die k o.2) s) s
  let s := (s.listedBytes Obj.cmpFeltRect d.die (fun _ _ => true)).foldl (fun (s : State) k =>
    s.wrBytes Obj.cmpFeltRect d.die k (List.replicate 8 0)) s
  (s.refreshCoefs d).refreshEngines d

/-- Chains, compositors and outputs of a die take their configurations on leaving CONFIGURE: the graphics region is
allocated, then every one in use commits. False where one is refused. -/
def State.videoLeaveConfigure (s : State) (d : MDie) : State × Bool :=
  let t := Instant.ofNs (s.now d.pdie)
  let s := s.videoOff d
  let (s, ok) := match s.allocStores d subjRegion 0 (if s.regionBytes d = 0 then [] else [s.regionBytes d]) 0 with
    | .ok s => (s, true)
    | .error (kind, short) => ((s.cmpReject d 0xFF 7 none).memRefuse d kind subjRegion short, false)
  let each := fun (n : Nat) (used : State → Nat → Bool) (go : State → Nat → State × Bool) (acc : State × Bool) =>
    (List.range n).foldl (fun (acc : State × Bool) k =>
      if used acc.1 k then
        let (s, o) := go acc.1 k
        (s, acc.2 && o)
      else acc) acc
  let acc := each 32 (fun s k => s.chainUsed d k) (fun s k => s.chainCommit d k t) (s, ok)
  let acc := each 8 (fun s k => s.cmpUsed d k) (fun s k => s.cmpCommit d k t true false) acc
  each 64 (fun s k => s.outUsed d k) (fun s k => s.outCommit d k t false) acc

end Sys2Proof.Machine
end

