-- ==== Sys2Proof/Machine/Motion.lean ====
section
/-! DEFINITION. The motion search as a function of two luma pictures (R250–R261). -/

namespace Sys2Proof.Machine

/-- A luma plane of a size; coordinates beyond it are clamped into it (R250, R256). -/
structure Plane where
  w : Nat
  h : Nat
  at_ : Nat → Nat → Nat

/-- A sample at clamped coordinates. -/
def Plane.get (p : Plane) (y x : Int) : Nat := p.at_ (clip3 0 (p.h - 1 : Nat) y).toNat (clip3 0 (p.w - 1 : Nat) x).toNat

/-- The next level of the pyramid (R250). -/
def Plane.half (p : Plane) : Plane :=
  { w := p.w / 2, h := p.h / 2,
    at_ := fun y x =>
      (shrRhu ((p.get (2 * y) (2 * x) + p.get (2 * y) (2 * x + 1) + p.get (2 * y + 1) (2 * x) + p.get (2 * y + 1) (2 * x + 1) : Nat) : Int)
        2).toNat }

/-- Level ℓ of the pyramid. -/
def Plane.level (p : Plane) : Nat → Plane
  | 0 => p
  | n + 1 => (p.level n).half

/-- A candidate vector with its cost and its SAD. -/
structure Cand where
  x : Int
  y : Int
  cost : Nat
  sad : Nat

/-- The absolute difference of two samples. -/
def absDiff (a b : Nat) : Nat := if a < b then b - a else a - b

/-- The SAD of an 8 × 8 block at a position against a prediction (R257). -/
def sadBlock (cur : Plane) (bx by_ : Nat) (pred : Int → Int → Nat) : Nat :=
  sumOver (List.range 8) (fun j => sumOver (List.range 8) (fun i =>
    absDiff (cur.get (8 * by_ + j) (8 * bx + i)) (pred (8 * by_ + j) (8 * bx + i))))

/-- Significant bits of a number. -/
def sigBits (n : Nat) : Nat := if n = 0 then 0 else n.log2 + 1

/-- `bits` of R257. -/
def mvBits (u : Int) : Nat := if u = 0 then 1 else 2 * sigBits (mag u) + 1

/-- The cost of a candidate `d` of a stage with centre `m` (R257). -/
def mvCost (lambda sad : Nat) (dx dy mx my : Int) : Nat :=
  sad + (shrRhu ((lambda * (mvBits (dx - mx) + mvBits (dy - my)) : Nat) : Int) 4).toNat

/-- The better of an incumbent and a candidate: the incumbent wins on equal cost (R257). -/
def keepBest (b : Option Cand) (c : Cand) : Option Cand :=
  match b with
  | none => some c
  | some x => if c.cost < x.cost then some c else some x

/-- A window centre clamped into the search range of a level (R256). -/
def clampCentre (level : Nat) (rx ry : Nat) (x y : Int) : Int × Int :=
  let h : Int := 144 / 2 ^ level - rx - 1
  let v : Int := 80 / 2 ^ level - ry - 1
  (clip3 (-h) h x, clip3 (-v) v y)

/-- The search of one window, row by row from the top (R254, R257). -/
def searchWindow (cur ref : Plane) (level lambda bx by_ rx ry : Nat) (best : Option Cand) (centre : Int × Int) : Option Cand :=
  let (mx, my) := clampCentre level rx ry centre.1 centre.2
  (List.range (2 * ry + 1)).foldl (fun b (j : Nat) =>
    (List.range (2 * rx + 1)).foldl (fun b (i : Nat) =>
      let dx := mx - rx + i
      let dy := my - ry + j
      let sad := sadBlock cur bx by_ (fun y x => ref.get (y + dy) (x + dx))
      keepBest b ⟨dx, dy, mvCost lambda sad dx dy mx my, sad⟩) b) best

/-- The windows of a block, in order. -/
def searchBlock (cur ref : Plane) (level lambda bx by_ rx ry : Nat) (centres : List (Int × Int)) : Cand :=
  (centres.foldl (fun b c => searchWindow cur ref level lambda bx by_ rx ry b c) none).getD ⟨0, 0, 0, 0⟩

/-- Blocks of 8 × 8 across and down a plane. -/
def blocksOf (p : Plane) : Nat × Nat := (ceilDiv p.w 8, ceilDiv p.h 8)

/-- The vector of a neighbour in a row of results; outside the picture it is (0, 0) (R255). -/
def vecAt (row : List Cand) (n : Nat) : Int × Int := match row[n]? with | some c => (c.x, c.y) | none => (0, 0)

/-- Half-widths of a level in a single pass and in a pass of two (R254). -/
def halfWidths (level : Nat) (two : Bool) : Nat × Nat :=
  match level, two with
  | 2, false => (32, 16)
  | 2, true => (16, 8)
  | 1, _ => (4, 4)
  | _, false => (3, 3)
  | _, true => (2, 2)

/-- A row of level-2 blocks (R255). -/
def row2 (cur ref : Plane) (lambda by_ : Nat) (two : Bool) : List Cand :=
  let (rx, ry) := halfWidths 2 two
  (List.range (blocksOf cur).1).map (fun bx => searchBlock cur ref 2 lambda bx by_ rx ry [(0, 0)])

/-- A row of level-1 blocks from the level-2 row above it in the pyramid and the level-1 row above it in the picture
(R255). -/
def row1 (cur ref : Plane) (lambda by_ : Nat) (two : Bool) (v2 above : List Cand) : List Cand :=
  let (rx, ry) := halfWidths 1 two
  (List.range (blocksOf cur).1).foldl (fun (row : List Cand) bx =>
    let p := vecAt v2 (bx / 2)
    let left := if bx = 0 then (0, 0) else vecAt row (bx - 1)
    let c1 := (2 * p.1, 2 * p.2)
    let centres := if two then [c1, left] else [c1, left, vecAt above bx, (0, 0)]
    row ++ [searchBlock cur ref 1 lambda bx by_ rx ry centres]) []

/-- A row of level-0 blocks (R255). -/
def row0 (cur ref : Plane) (lambda by_ : Nat) (two : Bool) (v1 : List Cand) : List Cand :=
  let (rx, ry) := halfWidths 0 two
  (List.range (blocksOf cur).1).foldl (fun (row : List Cand) bx =>
    let p := vecAt v1 (bx / 2)
    let left := if bx = 0 then (0, 0) else vecAt row (bx - 1)
    row ++ [searchBlock cur ref 0 lambda bx by_ rx ry [(2 * p.1, 2 * p.2), left]]) []

/-- Results of the level-1 rows 0 to `by_` of a picture, the last one (R255). -/
def row1Upto (cur1 ref1 cur2 ref2 : Plane) (lambda : Nat) (two : Bool) : Nat → List Cand
  | 0 => row1 cur1 ref1 lambda 0 two (row2 cur2 ref2 lambda 0 two) []
  | n + 1 =>
    row1 cur1 ref1 lambda (n + 1) two (row2 cur2 ref2 lambda ((n + 1) / 2) two) (row1Upto cur1 ref1 cur2 ref2 lambda two n)

/-! ### Fractions (R258, R259) -/

/-- The quarter-sample filters (R259). -/
def qTap (ph t : Nat) : Int :=
  match ph, t with
  | 1, 0 => -1 | 1, 1 => 4 | 1, 2 => -10 | 1, 3 => 58 | 1, 4 => 17 | 1, 5 => -5 | 1, 6 => 1 | 1, _ => 0
  | 2, 0 => -1 | 2, 1 => 4 | 2, 2 => -11 | 2, 3 => 40 | 2, 4 => 40 | 2, 5 => -11 | 2, 6 => 4 | 2, _ => -1
  | 3, 0 => 0 | 3, 1 => 1 | 3, 2 => -5 | 3, 3 => 17 | 3, 4 => 58 | 3, 5 => -10 | 3, 6 => 4 | 3, _ => -1
  | _, _ => 0

/-- A prediction sample at a quarter-sample vector (R259). -/
def predAt (ref : Plane) (vx vy y x : Int) : Nat :=
  let ix := x + shrFlr vx 2
  let iy := y + shrFlr vy 2
  let fx := (vx % 4).toNat
  let fy := (vy % 4).toNat
  let horiz := fun (yy : Int) => shrFlr (sum8 (fun t => qTap fx t * ref.get yy (ix - 3 + t))) 2
  let p : Int :=
    if fx = 0 ∧ fy = 0 then (ref.get iy ix : Int) * 16
    else if fy = 0 then horiz iy
    else if fx = 0 then shrFlr (sum8 (fun t => qTap fy t * ref.get (iy - 3 + t) ix)) 2
    else shrFlr (sum8 (fun j => qTap fy j * horiz (iy - 3 + j))) 6
  (clip3 0 1023 (shrRhu p 4)).toNat

/-- The order of the eight vectors of a fractional stage (R258). -/
def fracOrder : List (Int × Int) := [(-1, -1), (0, -1), (1, -1), (-1, 0), (1, 0), (-1, 1), (0, 1), (1, 1)]

/-- One fractional stage around a starting vector in quarter samples (R258). -/
def fracStage (cur ref : Plane) (lambda bx by_ : Nat) (step : Int) (start : Cand) : Cand :=
  fracOrder.foldl (fun b o =>
    let dx := start.x + step * o.1
    let dy := start.y + step * o.2
    let sad := sadBlock cur bx by_ (predAt ref dx dy)
    let c : Cand := ⟨dx, dy, mvCost lambda sad dx dy start.x start.y, sad⟩
    if c.cost < b.cost then c else b) start

/-- The pass's vector of a block in quarter samples (R258). -/
def refine (cur ref : Plane) (lambda bx by_ : Nat) (v0 : Cand) : Cand :=
  fracStage cur ref lambda bx by_ 1 (fracStage cur ref lambda bx by_ 2 { v0 with x := 4 * v0.x, y := 4 * v0.y })

/-- The confidence of a SAD at a gain (R260). -/
def confOf (sad gain : Nat) : Nat := (255 - clip3 0 255 (shrRne ((sad * gain : Nat) : Int) 10)).toNat

/-- The record of a block searched in full (R261). -/
def fullRec (gain : Nat) (c : Cand) : MvRec :=
  { x := 4 * c.x, y := 4 * c.y, conf := confOf c.sad gain, fallback := false, poison := false, level := 0, sad := c.sad }

/-- The record of a block of an unsearched picture (R253). -/
def noRefRec : MvRec := { x := 0, y := 0, conf := 0, fallback := false, poison := false, level := 3, sad := 0 }

/-- The record of a block that takes the vector `v` of level `l` (2 or 1), or (0, 0) with `l` = 3 (R239, R261). -/
def coarseRec (cur ref : Plane) (bx by_ l : Nat) (v : Int × Int) : MvRec :=
  let x := if l = 3 then 0 else v.1 * 2 ^ l
  let y := if l = 3 then 0 else v.2 * 2 ^ l
  let sad := sadBlock cur bx by_ (fun j i => ref.get (j + y) (i + x))
  { x := 16 * x, y := 16 * y, conf := 0, fallback := true, poison := false, level := l, sad := sad }

/-- The records of a row of 8 × 8 blocks (R254–R261): the first `done` blocks searched in full, the others with the
coarsest result `lvl` (2, 1, or 3 for none). -/
def searchRow (cur ref : Plane) (lambda gain by_ : Nat) (two : Bool) (done lvl : Nat) : List MvRec :=
  let c1 := cur.level 1
  let c2 := cur.level 2
  let r1 := ref.level 1
  let r2 := ref.level 2
  let v1 := row1Upto c1 r1 c2 r2 lambda two (by_ / 2)
  let v2 := row2 c2 r2 lambda (by_ / 4) two
  ((row0 cur ref lambda by_ two v1).zipIdx).map (fun c =>
    if c.2 < done then fullRec gain (refine cur ref lambda c.2 by_ c.1)
    else coarseRec cur ref c.2 by_ lvl (if lvl = 1 then vecAt v1 (c.2 / 2) else vecAt v2 (c.2 / 4)))

/-! ### Fields (R261, R262) -/

/-- A field just begun. -/
def MotField.start (frame field w h seq : Nat) (noRef : Bool) (two : Bool) (refFrame refField : Nat) : MotField :=
  { frame := frame, field := field, complete := false, noRef := noRef, irap := false, twoPass := two, fellBack := false,
    refFrame := refFrame, refField := refField, blkW := w / 8, blkH := h / 8, seq := seq, recs := [] }

/-- A field with the records of a row of blocks. -/
def MotField.putRow (f : MotField) (by_ : Nat) (l : List MvRec) : MotField :=
  let l := l.take f.blkW
  { f with
    recs := l.zipIdx.foldl (fun t r => tabSet t (by_ * f.blkW + r.2) r.1) f.recs
    fellBack := f.fellBack || l.any (·.fallback)
    complete := f.complete || decide (by_ + 1 = f.blkH) }

/-- The record of the block that contains a luma position (R191). -/
def MotField.recAt (f : MotField) (row col : Nat) : MvRec := tabGet f.recs (row / 8 * f.blkW + col / 8) noRefRec

/-- A ring of the 6 newest fields with the field of a picture changed, or begun (R262). -/
def putField (l : List MotField) (new : MotField) (f : MotField → MotField) : List MotField :=
  if l.any (fun x => x.frame == new.frame && x.field == new.field) then
    l.map (fun x => if x.frame = new.frame ∧ x.field = new.field then f x else x)
  else keepNewest 6 (l ++ [f new])

/-- An 8-byte record (R261). -/
def MvRec.bytes (r : MvRec) : List Byte :=
  natBe 2 (lowBits 16 r.x) ++ natBe 2 (lowBits 16 r.y) ++ natBe 1 r.conf ++
    natBe 1 ((if r.fallback then 128 else 0) + (if r.poison then 64 else 0) + r.level % 4) ++ natBe 2 r.sad

end Sys2Proof.Machine
end

