-- ==== Sys2Proof/Machine/Egress.lean ====
section
/-! DEFINITION. Packets of egress flows: headers from the descriptor (R128), the cuts of R304 and R306, and the hand-over
to the queues of both legs. -/

namespace Sys2Proof.Machine

/-- PT and SSRC of a descriptor (R126, R128). -/
def descPt (b : List Byte) : Nat := descBits b 503 496
def descSsrc (b : List Byte) : Nat := descBits b 287 256

/-- Fresh free bytes. -/
def State.freeBytes (s : State) (n : Nat) : List Byte × State :=
  ((List.range n).map (fun k => Config.freeByte (s.freeCtr + k)), { s with freeCtr := s.freeCtr + n })

/-- Largest RTP payload of an egress flow: the smaller UDP limit of its legs' ports less the RTP header (R122, R304). -/
def State.payloadLimit (s : State) (d : MDie) (f : Nat) : Nat :=
  let b := s.outDesc d f
  (descLegs b).foldl (fun m leg => min m ((s.port d (descPort b leg)).udpLimit)) 8960 - 12

/-- What a producer hands to an egress flow: everything but the header fields the flow gives. -/
structure Payload where
  ts : Nat
  marker : Bool
  segs : List Seg
  audio : List (List Int)
  data : List Byte
  /-- bytes of the RTP payload -/
  size : Nat

/-- A compressed payload. -/
def Payload.ofBytes (ts : Nat) (marker : Bool) (data : List Byte) : Payload :=
  { ts := ts, marker := marker, segs := [], audio := [], data := data, size := data.length }

/-- The packet of a leg (R128, R134): 40 bytes of IPv4, UDP and RTP headers before the payload. -/
def legPacket (b : List Byte) (f leg seq pt : Nat) (p : Payload) (now : Nat) (pace : Option (Nat × Nat)) : Pkt :=
  { kind := .media, port := descPort b leg, flow := f, leg := leg, len := 40 + p.size,
    rtp := { pt := pt, ssrc := descSsrc b, seq := seq % 65536, ts := p.ts, marker := p.marker, segs := p.segs, audio := p.audio,
             data := p.data, ext := if descKind b = 1 then seq / 65536 else 0 },
    arrival := now, poison := false, release := pace.map (·.1), interval := (pace.map (·.2)).getD 0, ready := pace.isNone }

/-- The packets of a payload for every leg, with one RTP sequence number; the flow's number moves on (R128). -/
def State.buildPackets (s : State) (d : MDie) (f pt : Nat) (p : Payload) (pace : Option (Nat × Nat)) : State × List (Nat × Pkt) :=
  let b := s.outDesc d f
  let seq := (s.flowOut d f).seq
  let l := (descLegs b).map (fun leg => (descQueue b leg, legPacket b f leg seq pt p (s.now d.pdie) pace))
  (s.updFlowOut d f (fun x => { x with seq := (seq + 1) % 2 ^ 32 }), l)

/-- A packet is handed to the queues of its legs (R135). -/
def State.pushPackets (s : State) (d : MDie) (l : List (Nat × Pkt)) : State :=
  l.foldl (fun s x => s.enqueue d x.1 x.2 true) s

/-- A flow sends: it runs, is not held for a next hop, and no stop of it has its instant behind it (R121, R139). -/
def State.sends (s : State) (d : MDie) (f : Nat) : Bool :=
  let x := s.flowOut d f
  s.inForce && x.run && s.outState d f != 4
    && (match x.pend with | some (false, t) => decide (s.now d.pdie < t) | _ => true)

/-- Bytes of the RTP header in wire order. -/
def rtpHeader (r : Rtp) : List Byte :=
  natBe 1 128 ++ natBe 1 ((if r.marker then 128 else 0) + r.pt % 128) ++ natBe 2 r.seq ++ natBe 4 r.ts ++ natBe 4 r.ssrc

/-- The bits of sample values packed into bytes, most significant first. -/
def packBits (width : Nat) (l : List Nat) : List Byte :=
  natBe (ceilDiv (l.length * width) 8)
    (l.foldl (fun a v => a * 2 ^ width + v % 2 ^ width) 0 * 2 ^ ((8 - l.length * width % 8) % 8))

/-- The sample values of a segment in pgroup order (R217). -/
def segValues (sampling : Nat) (g : Seg) : List Nat :=
  (g.pix.zipIdx).flatMap (fun p =>
    if sampling = 2 then [p.1.c0, p.1.c1, p.1.c2]
    else if sampling = 1 then [p.1.c1, p.1.c0, p.1.c2]
    else if p.2 % 2 = 0 then [p.1.c1, p.1.c0]
    else [((g.pix[p.2 - 1]?).map (·.c2)).getD 0, p.1.c0])

/-- A row of the frame as a video packet numbers it: the row within its field, with the field bit set for field 2 of an interlaced raster
(R123; ST 2110-20). -/
def rowField (fam row : Nat) : Nat := if interlaced fam ∧ row % 2 = 1 then 2 else 1
def rowWord (fam row : Nat) : Nat := if interlaced fam then row / 2 + (if rowField fam row = 2 then 32768 else 0) else row

/-- The UDP payload of a packet of a raster family in wire order (R123, R124, R405): header, then the payload of its KIND. -/
def udpPayload (fam : Nat) (b : List Byte) (r : Rtp) : List Byte :=
  rtpHeader r ++
    (if descKind b = 1 then
      let w := depthBits (descBitDepth b)
      let body := r.segs.map (fun g => packBits w (segValues (descSampling b) g))
      natBe 2 r.ext ++ ((r.segs.zip body).zipIdx).flatMap (fun x =>
          natBe 2 x.1.2.length ++ natBe 2 (rowWord fam x.1.1.row) ++ natBe 2 (x.1.1.col + (if x.2 + 1 < r.segs.length then 32768 else 0)))
        ++ body.flatMap (fun x => x)
    else if descKind b = 2 ∨ descKind b = 3 then
      let n := if descKind b = 3 then 4 else if descBitDepth b = 0 then 2 else 3
      r.audio.flatMap (fun t => t.flatMap (fun v => natBe n (lowBits (8 * n) v)))
    else r.data)

/-- SLV.STATE of a die (R413). -/
def State.slvState (s : State) (d : MDie) : Nat := s.rdN Obj.slvState d.die 0

/-- In SELVEDGE each die sends its own leg: leg 1 from Die A, leg 2 from Die B (R403). -/
def ownLeg (d : MDie) : Nat := match d with | .a => 1 | .b => 2

/-- A state with a die's part in the pair changed. -/
def State.updSlv (s : State) (d : MDie) (f : SlvSt → SlvSt) : State := s.updMd d (fun m => { m with slv := f m.slv })

/-- The ERR bit of a die for a flow (R406): an internal error event later than the release of the flow's last match. -/
def State.errBit (s : State) (d : MDie) (f : Nat) : Bool :=
  match (s.md d).slv.errAt with
  | none => false
  | some t => decide (tabGet (s.md d).slv.lastMatch f 0 < t)

/-- A packet of the die's own leg as it waits for its compare (R405). -/
def State.heldPkt (s : State) (d : MDie) (f : Nat) (x : Nat × Pkt) : HeldPkt :=
  let w := udpPayload (s.outRaster d f).1.family (s.outDesc d f) x.2.rtp
  { flow := f, seq := x.2.rtp.seq, crc := crc32 w, len := w.length, queue := x.1, pkt := x.2, err := s.errBit d f, at_ := s.now d.pdie }

/-- The compare record of a packet (R405). -/
def HeldPkt.record (h : HeldPkt) : CmpRec :=
  { err := h.err, flow := h.flow, seq := h.seq, crc := h.crc, len := h.len, ts := h.pkt.rtp.ts }

/-- A payload becomes packets and leaves for the queues of its legs (R135). In SELVEDGE only the die's own leg is sent;
while the pair compares, the packet is held until its outcome is decided; a die that stands alone sends at once, with a record
for a partner that rejoins; a die that is OUT sends nothing (R403, R405, R413, R416). -/
def State.emit (s : State) (d : MDie) (f pt : Nat) (p : Payload) (pace : Option (Nat × Nat)) : State :=
  if ¬ s.sends d f then s
  else
    let (s, l) := s.buildPackets d f pt p pace
    if ¬ s.inSelvedge then s.pushPackets d l
    else
      let own := l.filter (fun x => x.2.leg == ownLeg d)
      match s.slvState d with
      | 5 => s
      | 3 =>
        let s := if s.slvState d.other = 6 then own.foldl (fun (s : State) x => s.send (.pair d (compareBytes d (s.heldPkt d f x).record))) s else s
        s.pushPackets d own
      | 4 => s.pushPackets d own
      | _ =>
        own.foldl (fun (s : State) x => s.updSlv d (fun y => { y with built := y.built ++ [s.heldPkt d f x] })) s

/-! ### HEVC and VVC over RTP (R304) -/

/-- A list cut into pieces of at most `n` bytes. -/
def cutBytes (n : Nat) (l : List Byte) : List (List Byte) :=
  if n = 0 then [l] else (List.range (ceilDiv l.length n)).map (fun k => bytesAt l (n * k) n)

/-- The payload header of a packet type that stands over a NAL unit header (RFC 7798, RFC 9328): the type replaced. -/
def payloadHeader (vvc : Bool) (nal : List Byte) (type : Nat) : List Byte :=
  let b0 := fieldAt nal 0 1
  let b1 := fieldAt nal 1 1
  if vvc then natBe 1 b0 ++ natBe 1 (type * 8 + b1 % 8) else natBe 1 (b0 / 128 * 128 + type * 2 + b0 % 2) ++ natBe 1 b1

/-- NAL unit type. -/
def nalType (vvc : Bool) (nal : List Byte) : Nat := if vvc then fieldAt nal 1 1 / 8 else fieldAt nal 0 1 / 2 % 64

/-- A fragmentation unit (R304): HEVC type 49, VVC type 29. -/
def fragUnit (vvc : Bool) (nal : List Byte) (first last : Bool) (body : List Byte) : List Byte :=
  let t := nalType vvc nal
  let fu := (if first then 128 else 0) + (if last then 64 else 0) + (if vvc then t % 32 else t)
  payloadHeader vvc nal (if vvc then 29 else 49) ++ natBe 1 fu ++ body

/-- Fragmentation units of a stretch of a NAL unit whose header is `nal`'s: `begin` and `fin` say whether the stretch
begins and ends the NAL unit. -/
def fragments (vvc : Bool) (limit : Nat) (nal body : List Byte) (begin_ fin : Bool) : List (List Byte) :=
  let cuts := cutBytes (limit - 3) body
  cuts.zipIdx.map (fun c => fragUnit vvc nal (begin_ && c.2 == 0) (fin && c.2 + 1 == cuts.length) c.1)

/-- A whole NAL unit: one packet where it fits, fragmentation units otherwise (R304). -/
def nalPackets (vvc : Bool) (limit : Nat) (nal : List Byte) : List (List Byte) :=
  if nal.length ≤ limit then [nal] else fragments vvc limit nal (nal.drop 2) true true

/-- Payload bytes of an aggregation packet that holds NAL units. -/
def aggSize (l : List (List Byte)) : Nat := 2 + sumOver l (fun n => n.length + 2)

/-- An aggregation packet (R304): HEVC type 48, VVC type 28. -/
def aggPacket (vvc : Bool) (l : List (List Byte)) : List Byte :=
  match l with
  | [] => []
  | [n] => n
  | n :: _ => payloadHeader vvc n (if vvc then 28 else 48) ++ l.flatMap (fun x => natBe 2 x.length ++ x)

/-- NAL units in aggregation packets, filled in order; a larger one goes alone (R304). -/
def aggregate (vvc : Bool) (limit : Nat) (open_ : List (List Byte)) : List (List Byte) → List (List Byte)
  | [] => if open_ = [] then [] else [aggPacket vvc open_]
  | n :: l =>
    if aggSize (open_ ++ [n]) ≤ limit then aggregate vvc limit (open_ ++ [n]) l
    else
      let done := if open_ = [] then [] else [aggPacket vvc open_]
      if aggSize [n] ≤ limit then done ++ aggregate vvc limit [n] l
      else done ++ nalPackets vvc limit n ++ aggregate vvc limit [] l

end Sys2Proof.Machine
end

