-- ==== Sys2Proof/Machine/PairBase.lean ====
section
/-! DEFINITION. Decision records of the pair (R402, R404), and the read decision of frame synchronizers (R160). -/

namespace Sys2Proof.Machine

/-- A media die is the configuration owner (R402). -/
def State.ownsPair (s : State) (d : MDie) : Bool := s.rdN Obj.slvOwner .p 0 == d.num

/-- A die decides for itself: outside SELVEDGE, as the owner, and while it stands alone or split (R404, R414, R415). -/
def State.decides (s : State) (d : MDie) : Bool :=
  !s.inSelvedge || s.ownsPair d || (let st := s.slvState d; st == 0 || st == 3 || st == 4)

/-- The owner sends a decision record while a partner compares or rejoins; none in SPLIT (R404, R415, R416). -/
def State.tellDecision (s : State) (d : MDie) (x : Decision) : State :=
  let st := s.slvState d.other
  if s.inSelvedge ∧ s.ownsPair d ∧ s.slvState d ≠ 4 ∧ (st = 1 ∨ st = 2 ∨ st = 6) then s.send (.pair d (decisionBytes d x)) else s

/-- The first decision a die holds for a resource that satisfies `p`. -/
def State.decisionFor (s : State) (d : MDie) (kind res : Nat) (p : Decision → Bool) : Option Decision :=
  (s.md d).slv.decisions.find? (fun x => x.kind == kind && x.res == res && p x)

/-- A decision is used up. -/
def State.dropDecision (s : State) (d : MDie) (x : Decision) : State :=
  s.updSlv d (fun y => { y with decisions := y.decisions.filter (fun z => z != x) })

/-- A decision is not applied (R404): event 0x320B once until STICKY bit 5 is cleared. -/
def State.decisionMissed (s : State) (d : MDie) (kind res : Nat) : State :=
  let told := s.bit Obj.slvSticky .p 0 5
  let s := (s.bump Obj.slvMirrorMissCount d.die 0).setBit Obj.slvSticky .p 0 5
  if told then s else s.raise d.pdie 0x320B res (p16 [kind, res])

/-! ### The read decision (R160) -/

/-- The timestamp of the frame a read with `drops` discards would show, 0 for a repeat. -/
def State.fsyNext (s : State) (d : MDie) (n drops : Nat) : Nat := ((((s.fsyReady d n).drop drops).head?).map (·.ts)).getD 0

/-- The frame the present switch line of a synchronizer's raster belongs to, on the Reference Raster. -/
def State.refFrame (s : State) (d : MDie) : Nat := (s.coordNow d.pdie).frame

/-- The owner of the pair decides one line ahead of the switch line, and tells its partner (R404). -/
def State.fsyDecide (s : State) (d : MDie) (n : Nat) : State :=
  let k := s.fsyDrops d n
  let ts := s.fsyNext d n k
  let f := s.refFrame d
  (s.updFsy d n (fun x => { x with decision := some (f, k, ts) })).tellDecision d
    { kind := 1, res := n, frame := f, arg1 := k, arg2 := ts }

/-- The frames ahead of the one with a timestamp, where the ring holds it. -/
def aheadOf (ts : Nat) : List Picture → Option Nat
  | [] => none
  | p :: l => if p.ts = ts then some 0 else (aheadOf ts l).map (· + 1)

/-- A decision applied: its frames are discarded and its frame is shown, or the shown one repeated (R404). -/
def State.fsyApply (s : State) (d : MDie) (n drops ts : Nat) : State :=
  if ts = 0 then
    (s.fsyBond d n).foldl (fun s k => if s.bit Obj.fsyStatus d.die k 1 then s.fsyRepeat d k else s) s
  else s.fsyRead d n ((aheadOf ts (s.fsy d n).unread).getD drops)

/-- The partner's part: it applies the owner's record, or decides for itself where it cannot (R404). -/
def State.fsyFollow (s : State) (d : MDie) (n : Nat) : State :=
  match s.decisionFor d 1 n (fun x => decide (s.refFrame d ≤ x.frame + 1)) with
  | some x =>
    let s' := s.dropDecision d x
    if x.arg2 = 0 ∨ (aheadOf x.arg2 (s.fsy d n).unread).isSome then s'.fsyApply d n x.arg1 x.arg2
    else (s'.decisionMissed d 1 n).fsyRead d n (s.fsyDrops d n)
  | none => (s.decisionMissed d 1 n).fsyRead d n (s.fsyDrops d n)

/-- FSY_READ_DECISION (R160, R404): at the switch line of the synchronizer's raster; in SELVEDGE the owner decides on the
line before it. Member 0 of a bond decides for every member. -/
def execFsyReadDecision (d : MDie) (n : Fin 32) (s : State) : Out :=
  let k := n.val
  when (s.up d.pdie && s.fsyRuns d k && (s.fsyMember d k).2 == 0) s
    (if ¬ s.inSelvedge then s.fsyRead d k (s.fsyDrops d k)
     else if s.decides d then
       let c := s.fsyCoord d k
       if c.line + 1 = switchLine (fmt (s.rdN Obj.fsyFormat d.die k)).family ∧ (s.fsy d k).decision.isNone then s.fsyDecide d k
       else
         match (s.fsy d k).decision with
         | some (_, drops, ts) => (s.updFsy d k (fun x => { x with decision := none })).fsyApply d k drops ts
         | none => s.fsyRead d k (s.fsyDrops d k)
     else s.fsyFollow d k)

end Sys2Proof.Machine
end

