-- ==== Sys2Proof/Machine/AudioBase.lean ====
section
/-! DEFINITION. Audio: rates and indices (R328), samples (R329), compacted frames (R336), ramps (R168, R347, R348), port and
router checks (R330–R334, R346, R347). -/

namespace Sys2Proof.Machine

/-! ### Rates and indices (R328) -/

/-- Hz of a rate code. -/
def audHz (c : Nat) : Nat :=
  match c with | 1 => 32000 | 2 => 44100 | 3 => 48000 | 4 => 88200 | 5 => 96000 | 6 => 176400 | 7 => 192000 | _ => 0

/-- The class range of a rate code holds a measured rate in mHz: the nominal rate ±2 %. -/
def audClassHolds (c mhz : Nat) : Bool := decide (980 * audHz c ≤ mhz) && decide (mhz ≤ 1020 * audHz c)

/-- The code of the class range that holds a rate, 0 where none does (R341). -/
def audClassOf (mhz : Nat) : Nat := (([1, 2, 3, 4, 5, 6, 7].find? (fun c => audClassHolds c mhz))).getD 0

/-- The index at an instant in ns, and the first index that begins at or after one. -/
def audIndex (hz t : Nat) : Nat := t * hz / nsPerSec
def audIndexFrom (hz t : Nat) : Nat := ceilDiv (t * hz) nsPerSec

/-- An index has begun at an instant. -/
def audBegun (hz n t : Nat) : Bool := decide (n * nsPerSec ≤ t * hz)

/-- Hz of a bank. -/
def State.bankHz (s : State) (d : MDie) (b : Nat) : Nat := audHz (s.rdN Obj.audBankRate d.die b)

/-- The sum of R328 stays within 196,608,000 samples per second when a bank takes a rate code. -/
def State.bankRateOk (s : State) (d : MDie) (b code : Nat) : Bool :=
  decide (sumOver (List.range 8) (fun k => 256 * (if k = b then audHz code else s.bankHz d k)) ≤ 196608000)

/-! ### Samples (R329) -/

/-- Silence marked valid, and marked invalid. -/
def AudSmp.silence : AudSmp := ⟨0, true⟩
def AudSmp.invalid : AudSmp := ⟨0, false⟩

/-- A code of `w` bits enters the word left-aligned. -/
def audEnter (w : Nat) (v : Int) : Int := v * 2 ^ (32 - w)

/-- The word leaves on an output of `w` bits. -/
def audLeave (w : Nat) (x : AudSmp) : Int := if ¬ x.valid then 0 else if w = 32 then x.v else satS (shrRne x.v (32 - w)) w

/-! ### Compacted frames (R336) -/

/-- Slots of a framing code (R332), bits of a width code (R351). -/
def audSlots (framing : Nat) : Nat := if framing = 0 then 2 else 2 ^ framing
def audBits (width : Nat) : Nat := match width with | 0 => 16 | 1 => 24 | _ => 32

/-- The enabled slots of a mask, in ascending order. -/
def maskSlots (m : Nat) : List Nat := upto 32 (fun n => m.testBit n)

/-- Bytes cut into 64-bit words with the count of valid bytes as tag; the last word is padded with zeros. -/
def audWords (l : List Byte) : List (Nat × Nat × Bool) :=
  (List.range (ceilDiv l.length 8)).map (fun k =>
    let b := bytesAt l (8 * k) 8
    (beNat (b ++ List.replicate (8 - b.length) 0), b.length, false))

/-- A frame packed from the codes of its enabled slots. -/
def audPack (w mask : Nat) (codes : List Int) : AudFrame :=
  { mask := mask, words := audWords (codes.flatMap (fun v => natBe (w / 8) (lowBits w v))) }

/-- The bytes of a frame. -/
def AudFrame.bytes (f : AudFrame) : List Byte := f.words.flatMap (fun x => (natBe 8 x.1).take x.2.1)

/-- A byte of a frame lies in a poisoned word. -/
def AudFrame.bad (f : AudFrame) (n : Nat) : Bool := ((f.words[n / 8]?).map (·.2.2)).getD false

/-- The codes of a frame's enabled slots, each with whether it is free of poison (R338). -/
def audUnpack (w : Nat) (f : AudFrame) : List (Int × Bool) :=
  (List.range (maskSlots f.mask).length).map (fun k =>
    let o := k * (w / 8)
    (signed w (fieldAt f.bytes o (w / 8)), !((List.range (w / 8)).any (fun j => f.bad (o + j)))))

/-- A poisoned word is among those read. -/
def AudFrame.poisoned (f : AudFrame) : Bool := f.words.any (·.2.2)

/-! ### State -/

/-- A state with a die's audio changed. -/
def State.updAud (s : State) (d : MDie) (f : AudioSt → AudioSt) : State := s.updMd d (fun m => { m with audio := f m.audio })

/-- An output channel that no commit reached, a stopped port, an island that was off, an empty playout buffer. -/
def AudOutSt.start : AudOutSt :=
  { layers := [⟨0xFFFF, 0, 0⟩], gOld := 2 ^ 27, gNew := 2 ^ 27, gStart := 0, gE := 0, mute := false, delay := 0, pend := none, hist := [] }
def AudPortSt.start : AudPortSt :=
  { inFifo := [], outFifo := [], inPrimed := false, outPrimed := false, inLast := none, outLast := none, inMask := 0, outMask := 0,
    pend := none, frame := none, n0 := none, armed := none, gate := 0, edges := 0, first := 0, last := 0, told := none }
def AudIslSt.start : AudIslSt := { integ := 0, count := 0, sum := 0, whole := none, good := 0, pulled := 0 }
def AudFlowSt.start : AudFlowSt := { store := [], k := 0, outside := 0, stepDue := false, missAt := none }

def State.audOut (s : State) (d : MDie) (o : Nat) : AudOutSt := tabGet (s.md d).audio.outs o AudOutSt.start
def State.audPort (s : State) (d : MDie) (p : Nat) : AudPortSt := tabGet (s.md d).audio.ports p AudPortSt.start
def State.audIsl (s : State) (d : MDie) (i : Nat) : AudIslSt := tabGet (s.md d).audio.isls i AudIslSt.start
def State.audFlow (s : State) (d : MDie) (f : Nat) : AudFlowSt := tabGet (s.md d).audio.flows f AudFlowSt.start

def State.updAudOut (s : State) (d : MDie) (o : Nat) (f : AudOutSt → AudOutSt) : State :=
  s.updAud d (fun a => { a with outs := tabSet a.outs o (f (s.audOut d o)) })
def State.updAudPort (s : State) (d : MDie) (p : Nat) (f : AudPortSt → AudPortSt) : State :=
  s.updAud d (fun a => { a with ports := tabSet a.ports p (f (s.audPort d p)) })
def State.updAudIsl (s : State) (d : MDie) (i : Nat) (f : AudIslSt → AudIslSt) : State :=
  s.updAud d (fun a => { a with isls := tabSet a.isls i (f (s.audIsl d i)) })
def State.updAudFlow (s : State) (d : MDie) (k : Nat) (f : AudFlowSt → AudFlowSt) : State :=
  s.updAud d (fun a => { a with flows := tabSet a.flows k (f (s.audFlow d k)) })

/-! ### Ports (R331–R334) -/

/-- First input and output channels of a port, where it has any. -/
def State.audInFirst (s : State) (d : MDie) (p : Nat) : Option Nat :=
  let v := s.rdN Obj.audPortInFirst d.die p
  if v = 0xFFFF then none else some v
def State.audOutFirst (s : State) (d : MDie) (p : Nat) : Option Nat :=
  let v := s.rdN Obj.audPortOutFirst d.die p
  if v = 0xFFFF then none else some v

/-- The bank of a port: that of its first input channel, else of its first output channel. -/
def State.audBank (s : State) (d : MDie) (p : Nat) : Option Nat :=
  match s.audInFirst d p with
  | some c => some (c / 256)
  | none => (s.audOutFirst d p).map (· / 256)

/-- Hz of a port's bank, slots and bits of a port. -/
def State.portHz (s : State) (d : MDie) (p : Nat) : Nat := ((s.audBank d p).map (s.bankHz d)).getD 0
def State.portSlots (s : State) (d : MDie) (p : Nat) : Nat := audSlots (s.rdN Obj.audPortFraming d.die p)
def State.portBits (s : State) (d : MDie) (p : Nat) : Nat := audBits (s.rdN Obj.audPortWidth d.die p)
def State.portMaster (s : State) (d : MDie) (p : Nat) : Bool := s.rdN Obj.audPortRole d.die p == 0

/-- A port is in use. -/
def State.audPortUsed (s : State) (d : MDie) (p : Nat) : Bool := s.rd Obj.audPortEnable d.die p == 1

/-- MCK of an island (R333). -/
def State.islMck (s : State) (d : MDie) (i : Nat) : Nat :=
  audHz (s.rdN Obj.audIslRate d.die i) * (match s.rdN Obj.audIslMck d.die i with | 0 => 128 | 1 => 256 | _ => 512)

/-- An audio flow: KIND 2 or 3 (R123). -/
def descAudio (b : List Byte) : Bool := descKind b == 2 || descKind b == 3

/-- Hz and samples per packet of an audio flow, from its SAMPLING code (R125, R127). -/
def audFlowHz (b : List Byte) : Nat := if descSampling b < 2 then 48000 else 96000
def audPerPacket (b : List Byte) : Nat := match descSampling b with | 0 => 48 | 1 => 6 | 2 => 96 | _ => 12

/-- The ingress flow that feeds an input channel. -/
def State.inFlowOf (s : State) (d : MDie) (c : Nat) : Option Nat :=
  (s.inFlows d).find? (fun f =>
    let b := s.inDesc d f
    descAudio b && decide (descTarget b ≤ c) && decide (c < descTarget b + descChannels b))

/-- The port that feeds an input channel under the masks in force, or one whose committed mask will (R330, R334). -/
def State.inPortOf (s : State) (d : MDie) (c : Nat) : Option Nat :=
  (List.range 16).find? (fun p =>
    match s.audInFirst d p with
    | none => false
    | some f =>
      let x := s.audPort d p
      let n := max (maskSlots x.inMask).length ((x.pend.map (fun m => (maskSlots m.1).length)).getD 0)
      s.audPortUsed d p && decide (f ≤ c) && decide (c < f + n))

/-- The fault of a port's configuration with given masks: the reason of event 0x2801 (R330–R334). -/
def State.audPortFault (s : State) (d : MDie) (p im om : Nat) : Option Nat :=
  let slots := s.portSlots d p
  let clock := s.portHz d p * slots * s.portBits d p
  let isl := s.rdN Obj.audPortIsland d.die p
  let spanOk : Option Nat → Nat → Bool := fun first m =>
    match first with
    | none => true
    | some c => decide (m = 0) || decide ((c + (maskSlots m).length - 1) / 256 = c / 256)
  let bankOk : Bool := match s.audInFirst d p, s.audOutFirst d p with
    | some i, some o => i / 256 == o / 256
    | _, _ => true
  if ¬ s.secOn d secAud ∨ s.elemBad d secAud p then some 5
  else if (if s.portMaster d p then 49152000 else 24576000) < clock ∨ (s.portMaster d p ∧ isl < 8 ∧ 49152000 < s.islMck d isl) then some 1
  else if ¬ bankOk ∨ s.portHz d p = 0 then some 2
  else if s.portMaster d p ∧ (8 ≤ isl ∨ audHz (s.rdN Obj.audIslRate d.die isl) ≠ s.portHz d p) then some 3
  else if 2 ^ slots ≤ im ∨ 2 ^ slots ≤ om ∨ ¬ spanOk (s.audInFirst d p) im ∨ ¬ spanOk (s.audOutFirst d p) om then some 4
  else match s.audInFirst d p with
    | none => none
    | some c =>
      if (List.range (maskSlots im).length).any (fun k =>
          (s.inFlowOf d (c + k)).isSome || (match s.inPortOf d (c + k) with | some q => q != p | none => false)) then some 6
      else none

/-- A rejected port commit (R330). -/
def State.audPortReject (s : State) (d : MDie) (p reason : Nat) : State :=
  let s := ((s.setBit Obj.audSticky d.die 0 0).bump Obj.audCount d.die 0).wr Obj.audPortReject d.die p (reason : Nat)
  (s.raise d.pdie 0x2801 p (p16 [p, reason])).ans (.rejected 0x2801)

/-- AUD.IN.PRODUCER of every input channel follows the descriptors and masks (R351). -/
def State.refreshProducers (s : State) (d : MDie) : State :=
  let fl := (s.inFlows d).flatMap (fun f =>
    let b := s.inDesc d f
    if descAudio b then (List.range (descChannels b)).map (fun k => (descTarget b + k, 0x1000 + f)) else [])
  let po := (List.range 16).flatMap (fun p =>
    match s.audInFirst d p with
    | some c => if s.audPortUsed d p then (List.range (maskSlots (s.audPort d p).inMask).length).map (fun k => (c + k, 0x2000 + p)) else []
    | none => [])
  let all := fl ++ po
  let old := (s.listed Obj.audInProducer d.die (fun _ v => v != 0)).filter (fun c => decide (c ∉ all.map (·.1)))
  let s := old.foldl (fun (s : State) c => s.wr Obj.audInProducer d.die c 0) s
  all.foldl (fun (s : State) (x : Nat × Nat) => s.wr Obj.audInProducer d.die x.1 (x.2 : Nat)) s

/-! ### Outputs (R346–R349) -/

/-- Number by which a router input channel of the other media die stands as a source (R167). -/
def farAudioSrc (c : Nat) : Nat := 131072 + c

/-- An input channel is transparent: a KIND 3 flow feeds it (R346). -/
def State.inTransparent (s : State) (d : MDie) (c : Nat) : Bool :=
  let (d, c) := if farAudioSrc 0 ≤ c then (d.other, c - farAudioSrc 0) else (d, c)
  let v := s.rdN Obj.audInProducer d.die c
  decide (c < 2048) && v / 4096 == 1 && descKind (s.inDesc d (v % 4096)) == 3

/-- The destinations whose channel range holds an output channel. -/
def State.dstsOver (s : State) (d : MDie) (o : Nat) : List Nat :=
  (s.boundDsts d).filter (fun p =>
    let (f, c) := s.dstAudio d p
    decide (f ≤ o) && decide (o < f + c))

/-- An output channel lies under follow (R349). -/
def State.underFollow (s : State) (d : MDie) (o : Nat) : Bool :=
  s.inForce && (s.dstsOver d o).any (fun p => !(s.dst d p).breakaway)

/-- The consumers of an output channel: egress flows by KIND, and widths of the output slots that take it. -/
def State.outKinds (s : State) (d : MDie) (o : Nat) : List Nat :=
  ((s.outFlows d).filter (fun f =>
    let b := s.outDesc d f
    descAudio b && decide (descTarget b ≤ o) && decide (o < descTarget b + descChannels b))).map (fun f => descKind (s.outDesc d f))
def State.outWidths (s : State) (d : MDie) (o : Nat) : List Nat :=
  ((List.range 16).filter (fun p =>
    match s.audOutFirst d p with
    | none => false
    | some c => s.audPortUsed d p && decide (c ≤ o) && decide (o < c + (maskSlots (s.audPort d p).outMask).length))).map (s.portBits d)

/-- What an output channel's values break: 1 banks of different rates, 2 transparency (R346, R347). Silence comes from no input channel
and breaks neither. -/
def State.audOutFault (s : State) (d : MDie) (o : Nat) (g : AudSet) : Option Nat :=
  if 2048 ≤ g.src then none
  else if s.bankHz d (g.src / 256) ≠ s.bankHz d (o / 256) then some 1
  else if s.inTransparent d g.src then
    if g.gain ≠ 2 ^ 27 ∨ (s.outKinds d o).any (fun k => k != 3) ∨ (s.outWidths d o).any (fun w => w != 32) then some 2 else none
  else if 3 ∈ s.outKinds d o then some 2 else none

/-- The shadow values of an output channel. -/
def State.audShadow (s : State) (d : MDie) (o : Nat) : AudSet :=
  { src := s.rdN Obj.audOutSource d.die o, gain := s.rd Obj.audOutGain d.die o, mute := s.rdN Obj.audOutMute d.die o == 1,
    delay := s.rdN Obj.audOutDelay d.die o }

/-- e of a ramp code: N = 2^e, 0 for none (R168, R351). -/
def rampE (code : Nat) : Nat := if code = 0 then 0 else code + 3

/-- One crossfade step (R168). -/
def crossfade (old new : AudSmp) (k e : Nat) : AudSmp :=
  { v := satS (shrRne (old.v * (2 ^ e - k) + new.v * k) e) 32, valid := old.valid && new.valid }

/-- The sample an output channel takes from its sources at an index; a transparent source cuts hard (R168, R346, R347). -/
def audSource (n : Nat) (src : Nat → AudSmp) (hard : Nat → Bool) : List AudLayer → AudSmp
  | [] => AudSmp.silence
  | l :: rest => rest.foldl (fun acc x =>
      if x.e = 0 ∨ x.start + 2 ^ x.e ≤ n ∨ hard x.src then src x.src else crossfade acc (src x.src) (n - x.start) x.e) (src l.src)

/-- Layers whose crossfade is over are dropped. -/
def trimLayers (n : Nat) (l : List AudLayer) : List AudLayer :=
  l.foldl (fun acc x => if x.e = 0 ∨ x.start + 2 ^ x.e ≤ n then [x] else acc ++ [x]) []

/-- The gain in force at an index (R348). -/
def AudOutSt.gain (x : AudOutSt) (n : Nat) : Int :=
  if x.gE = 0 ∨ x.gStart + 2 ^ x.gE ≤ n then x.gNew
  else x.gOld + shrRne ((x.gNew - x.gOld) * ((n - x.gStart : Nat) : Int)) x.gE

/-- Gain applied (R348). -/
def audGain (x : AudSmp) (g : Int) : AudSmp := { x with v := if x.valid then satS (shrRne (x.v * g) 27) 32 else 0 }

/-- The source an output channel takes last. -/
def AudOutSt.source (x : AudOutSt) : Nat := (x.layers.getLast?.map (·.src)).getD 0xFFFF

/-- e of the ramp from one source to another: on a transparent channel a hard cut replaces it (R346). -/
def State.rampTo (s : State) (d : MDie) (x : AudOutSt) (src e : Nat) : Nat :=
  if s.inTransparent d src || s.inTransparent d x.source then 0 else e

/-- Committed values apply from an index (R347, R349): under follow the source stays. -/
def AudOutSt.take (x : AudOutSt) (g : AudSet) (n e : Nat) (follow : Bool) : AudOutSt :=
  let layers := if follow ∨ x.source = g.src then x.layers else x.layers ++ [⟨g.src, n, e⟩]
  let target := if g.mute then 0 else g.gain
  let x := if target = x.gNew then x else { x with gOld := x.gain n, gNew := target, gStart := n, gE := e }
  { x with layers := layers, mute := g.mute, delay := g.delay, pend := none }

/-- A rejected router commit (R347). -/
def State.routerReject (s : State) (d : MDie) (group reason ch : Nat) : State :=
  let s := (s.setBit Obj.audSticky d.die 0 1).bump Obj.audCount d.die 0
  (s.raise d.pdie 0x2802 group (p16 [group, reason, ch])).ans (.rejected 0x2802)

/-- The output channels of a group that are not at rest: written ones, and ones a commit or follow reached. -/
def State.audGroupOuts (s : State) (d : MDie) (g : Nat) : List Nat :=
  let touched := s.listed Obj.audOutSource d.die (fun _ _ => true) ++ s.listed Obj.audOutGain d.die (fun _ _ => true) ++
    s.listed Obj.audOutMute d.die (fun _ _ => true) ++ s.listed Obj.audOutDelay d.die (fun _ _ => true) ++ (s.md d).audio.outs.map (·.1)
  let fed := (s.outFlows d).flatMap (fun f =>
    let b := s.outDesc d f
    if descKind b = 3 then (List.range (descChannels b)).map (fun k => descTarget b + k) else [])
  (upto 2048 (fun o => touched.contains o || fed.contains o)).filter (fun o => s.rdN Obj.audOutGroup d.die o == g)

/-- A group's channels are committed from an instant on, all or none (R347). -/
def State.routerCommit (s : State) (d : MDie) (g t : Nat) : State × Bool :=
  let l := s.audGroupOuts d g
  if ¬ s.secOn d secAud then (s.routerReject d g 5 (l.head?.getD 0), false)
  else
    match l.findSome? (fun o => (s.audOutFault d o (s.audShadow d o)).map (fun r => (o, r))) with
    | some (o, r) => (s.routerReject d g r o, false)
    | none =>
      ((l.foldl (fun (s : State) o => s.updAudOut d o (fun x => { x with pend := some (s.audShadow d o, t) })) s).ans .ok, true)

end Sys2Proof.Machine
end

