-- ==== Sys2Proof/Machine/Audio.lean ====
section
/-! DEFINITION. Audio at work: router ticks, port frames, slips and clock faults, islands, playout, packets, commits and
starts (R335–R350), and audio that follows video (R167, R168). -/

namespace Sys2Proof.Machine

/-! ### Fills and slips (R337, R398, R404) -/

/-- Frames a port FIFO holds. -/
def audFifoMax : Nat := 64

/-- AUD.PORT.FILL and the watermark follow the FIFOs. -/
def State.audFill (s : State) (d : MDie) (p : Nat) : State :=
  let x := s.audPort d p
  let i := x.inFifo.length
  let o := x.outFifo.length
  (s.wr Obj.audPortFill d.die p (256 * i + o : Nat)).watermark d .audPort p (max i o)

/-- A slip: counted, and reported by the first after STICKY bit 1 was cleared. -/
def State.audSlip (s : State) (d : MDie) (p kind : Nat) : State :=
  let told := s.bit Obj.audPortSticky d.die p 1
  let s := ((s.bump Obj.audPortSlipCount d.die p).setBit Obj.audPortSticky d.die p 1).setBit Obj.audSticky d.die 0 2
  if told then s else s.raise d.pdie 0x2804 p (p16 [p, kind])

/-- Whether a slip happens at an index: where its condition holds, told to the partner; on the partner where the owner's
record says so (R404). -/
def State.slipNow (s : State) (d : MDie) (p kind n : Nat) (need : Bool) : Bool × State :=
  if s.decides d then
    (need, if need then s.tellDecision d { kind := 2, res := p, frame := s.refFrame d, arg1 := kind, arg2 := n % 2 ^ 32 } else s)
  else
    match s.decisionFor d 2 p (fun x => x.arg1 == kind && x.arg2 == n % 2 ^ 32) with
    | some x => (true, s.dropDecision d x)
    | none => (need, if need then s.decisionMissed d 2 p else s)

/-- A poisoned FIFO word was read (R338): event 0x2831 once until STICKY bit 5 is cleared. -/
def State.audPoisonRead (s : State) (d : MDie) (p : Nat) : State :=
  let told := s.bit Obj.audPortSticky d.die p 5
  let s := s.setBit Obj.audPortSticky d.die p 5
  if told then s else s.raise d.pdie 0x2831 p (p16 [p])

/-! ### Inputs of a router tick (R337, R343) -/

/-- Samples kept of an input channel: as many as AUD.OUT.DELAY reaches back (R347). -/
def audHistory : Nat := 9601

/-- An input channel's sample at an index. -/
def State.putAudIn (s : State) (d : MDie) (n : Nat) (x : Nat × AudSmp) : State :=
  s.updAud d (fun a => { a with ins := tabUpd a.ins x.1 [] (fun l => ((n, x.2) :: l).take audHistory) })

/-- The sample of an input channel at an index: silence, marked valid, where it has no producer (R334). -/
def State.audIn (s : State) (d : MDie) (c n : Nat) : AudSmp :=
  match (tabGet (s.md d).audio.ins c []).find? (fun e => e.1 == n) with
  | some e => e.2
  | none => AudSmp.silence

/-- The channels a port's frame gives, in the router's word. -/
def State.audFrameIn (s : State) (d : MDie) (p first : Nat) (f : AudFrame) : List (Nat × AudSmp) :=
  (audUnpack (s.portBits d p) f).zipIdx.map (fun x =>
    (first + x.2, if x.1.2 then ⟨audEnter (s.portBits d p) x.1.1, true⟩ else AudSmp.invalid))

/-- A tick takes a frame from a running port's input FIFO, the last one again where it is empty (R337). -/
def State.audTakeIn (s : State) (d : MDie) (p n first : Nat) : State :=
  let (slip, s) := s.slipNow d p 2 n (s.audPort d p).inFifo.isEmpty
  let s := if slip then s.audSlip d p 2
    else s.updAudPort d p (fun x => { x with inFifo := x.inFifo.drop 1, inLast := x.inFifo.head? })
  match (s.audPort d p).inLast with
  | none => s
  | some f =>
    let s := (s.audFrameIn d p first f).foldl (fun s x => s.putAudIn d n x) s
    (if f.poisoned ∧ ¬ slip then s.audPoisonRead d p else s).audFill d p

/-- What a port gives its channels at a tick (R337, R342, R350): invalid silence unless it runs and its FIFO reached the
target. -/
def State.audTickIn (s : State) (d : MDie) (n : Nat) (p : Nat) : State :=
  match s.audInFirst d p with
  | none => s
  | some first =>
    let x := s.audPort d p
    let ready := s.rdN Obj.audPortState d.die p == 2 && (x.inPrimed || decide (s.rdN Obj.audPortFifoTarget d.die p ≤ x.inFifo.length))
    if ready then (s.updAudPort d p (fun x => { x with inPrimed := true })).audTakeIn d p n first
    else (List.range (maskSlots x.inMask).length).foldl (fun s k => s.putAudIn d n (first + k, AudSmp.invalid)) s

/-- What a playout buffer gives its channels at a tick (R343): an index with no stored sample plays invalid and counts. -/
def State.audTickFlow (s : State) (d : MDie) (n : Nat) (f : Nat) : State :=
  let b := s.inDesc d f
  let x := s.audFlow d f
  let key := n % 2 ^ 32
  let chans := List.range (descChannels b)
  match x.store.find? (fun e => e.1 == key) with
  | some e =>
    let s := s.updAudFlow d f (fun y => { y with store := y.store.filter (fun z => z.1 != key) })
    let s := chans.foldl (fun s k => s.putAudIn d n (descTarget b + k, e.2.getD k AudSmp.invalid)) s
    if (x.missAt.map (fun t => decide (t + 10000000 < s.now d.pdie))).getD true then s.clrBit Obj.audFlowStatus d.die f 1 else s
  | none =>
    let s := chans.foldl (fun s k => s.putAudIn d n (descTarget b + k, AudSmp.invalid)) s
    (((s.updAudFlow d f (fun y => { y with missAt := some (s.now d.pdie) })).bump Obj.audFlowMissCount d.die f).setBit
      Obj.audFlowSticky d.die f 2).setBit Obj.audFlowStatus d.die f 1

/-! ### Outputs of a router tick (R347, R348) -/

/-- Numbers of sources that a Twill receive channel carries: 65,536 + 64 × channel + position (R422). -/
def twlAudioSrc (rx i : Nat) : Nat := 65536 + 64 * rx + i

/-- The samples a die's Twill receive channels carry enter the histories of their sources. -/
def State.audTickTwill (s : State) (d : MDie) (n : Nat) : State :=
  (s.twill.rx.filter (fun e => decide (e.1 / 256 = d.num))).foldl (fun (s : State) e =>
    e.2.audio.zipIdx.foldl (fun s x =>
      s.putAudIn d n (twlAudioSrc (e.1 % 256) x.2, if x.1.2.1 then ⟨x.1.2.2, true⟩ else AudSmp.invalid)) s) s

/-- The sample of a source at an index of an output channel's delay. -/
def State.audSrc (s : State) (d : MDie) (n delay : Nat) (c : Nat) : AudSmp :=
  if c = 0xFFFF ∨ n < delay then AudSmp.silence
  else if farAudioSrc 0 ≤ c then s.audIn d.other (c - farAudioSrc 0) (n - delay)
  else s.audIn d c (n - delay)

/-- An output channel's sample at an index. -/
def State.audOutSample (s : State) (d : MDie) (x : AudOutSt) (n : Nat) : AudSmp :=
  let raw := audSource n (s.audSrc d n x.delay) (s.inTransparent d) x.layers
  if s.inTransparent d x.source then (if x.mute then AudSmp.invalid else raw)
  else audGain raw (x.gain n)

/-- AUD.OUT.ACTIVE and AUD.OUT.STATUS of an output channel (R349, R351). -/
def State.showAudOut (s : State) (d : MDie) (o n : Nat) : State :=
  let x := s.audOut d o
  let src := x.source
  let ramp := decide (1 < x.layers.length) || (decide (x.gE ≠ 0) && decide (n < x.gStart + 2 ^ x.gE))
  let st := (if s.underFollow d o then 1 else 0) + (if s.inTransparent d src then 2 else 0) + (if ramp then 4 else 0)
  (s.wr Obj.audOutActive d.die o ((if src < 2048 then src else 0xFFFF : Nat) : Int)).wr Obj.audOutStatus d.die o (st : Nat)

/-- Samples kept of an output channel, for packets not yet sent (R345, R408). -/
def audOutHistory : Nat := 4096

/-- An output channel at an index: committed values whose instant is reached apply, then the sample is computed. -/
def State.audTickOut (s : State) (d : MDie) (hz n : Nat) (o : Nat) : State :=
  let e := rampE (s.rdN Obj.audRamp d.die 0)
  let x := s.audOut d o
  let x := match x.pend with
    | some (g, t) => if t * hz ≤ n * nsPerSec then x.take g n (s.rampTo d x g.src e) (s.underFollow d o) else x
    | none => x
  let x := { x with layers := trimLayers n x.layers }
  let y := s.audOutSample d x n
  (s.updAudOut d o (fun _ => { x with hist := ((n, y) :: x.hist).take audOutHistory })).showAudOut d o n

/-- The sample an output channel had at an index; a channel nothing routes gives silence. -/
def State.audOutAt (s : State) (d : MDie) (o n : Nat) : AudSmp :=
  match (s.audOut d o).hist.find? (fun e => e.1 == n) with
  | some e => e.2
  | none => AudSmp.silence

/-- A tick writes a frame to a port's output FIFO; the oldest is discarded where it is full (R337). -/
def State.audTickPort (s : State) (d : MDie) (n : Nat) (p : Nat) : State :=
  let x := s.audPort d p
  let st := s.rdN Obj.audPortState d.die p
  match s.audOutFirst d p with
  | none => s
  | some first =>
    if st < 2 ∨ n < x.n0.getD 0 then s
    else
      let w := s.portBits d p
      let f := audPack w x.outMask ((List.range (maskSlots x.outMask).length).map (fun k => audLeave w (s.audOutAt d (first + k) n)))
      let (slip, s) := s.slipNow d p 3 n (decide (audFifoMax ≤ x.outFifo.length))
      let s := if slip then (s.updAudPort d p (fun y => { y with outFifo := y.outFifo.drop 1 })).audSlip d p 3 else s
      (s.updAudPort d p (fun y => { y with outFifo := y.outFifo ++ [f] })).audFill d p

/-- The ports of a bank that are in use. -/
def State.bankPorts (s : State) (d : MDie) (b : Nat) : List Nat :=
  upto 16 (fun p => s.audPortUsed d p && s.audBank d p == some b)

/-- The audio flows whose channels lie in a bank. -/
def State.bankFlows (s : State) (d : MDie) (b : Nat) : List Nat :=
  if s.inForce then (s.inFlows d).filter (fun f => descAudio (s.inDesc d f) && descTarget (s.inDesc d f) / 256 == b) else []

/-- One index of a bank. -/
def State.routerTick (s : State) (d : MDie) (b hz n : Nat) : State :=
  let s := (s.bankPorts d b).foldl (fun s p => s.audTickIn d n p) s
  let s := (s.bankFlows d b).foldl (fun s f => s.audTickFlow d n f) s
  let s := s.audTickTwill d n
  let s := (((s.md d).audio.outs.map (·.1)).filter (fun o => o / 256 == b)).foldl (fun s o => s.audTickOut d hz n o) s
  let s := (s.bankPorts d b).foldl (fun s p => s.audTickPort d n p) s
  s.updAud d (fun a => { a with last := tabSet a.last b n })

/-- The index a bank computes next: the one after its last, or the present one where it has none. -/
def State.nextIndex (s : State) (d : MDie) (b : Nat) : Nat :=
  match (s.md d).audio.last.find? (fun e => e.1 == b) with
  | some e => e.2 + 1
  | none => audIndex (s.bankHz d b) (s.now d.pdie)

/-- ROUTER_TICK (R328): the router computes every channel of a bank at the instant of an index. -/
def execRouterTick (d : MDie) (bank : Fin 8) (s : State) : Out :=
  let hz := s.bankHz d bank.val
  let n := s.nextIndex d bank.val
  when (s.up d.pdie && s.secOn d secAud && s.inForce && decide (hz ≠ 0) && audBegun hz n (s.now d.pdie)) s (s.routerTick d bank.val hz n)

/-! ### Port frames (R335–R338, R340, R350) -/

/-- The lead port of an island (R339). -/
def State.leadPort (s : State) (d : MDie) (i : Nat) : Option Nat :=
  let v := s.rdN Obj.audIslLead d.die i
  let ok := fun p => s.audPortUsed d p && s.portMaster d p && s.rdN Obj.audPortIsland d.die p == i
  if v < 16 then (if ok v then some v else none) else (List.range 16).find? ok

/-- The lead port's output FIFO fill is summed, before the frame is taken (R340). -/
def State.sumLead (s : State) (d : MDie) (p : Nat) : State :=
  let i := s.rdN Obj.audPortIsland d.die p
  if ¬ s.portMaster d p ∨ 8 ≤ i ∨ s.leadPort d i ≠ some p then s
  else
    let fill := (s.audPort d p).outFifo.length
    s.updAudIsl d i (fun x =>
      if x.count = 63 then { x with count := 0, sum := 0, whole := some (x.sum + fill) }
      else { x with count := x.count + 1, sum := x.sum + fill })

/-- An FSY edge of the present gate (R341). -/
def State.fsyEdge (s : State) (d : MDie) (p : Nat) : State :=
  let t := s.now d.pdie
  s.updAudPort d p (fun x => { x with edges := x.edges + 1, first := if x.edges = 0 then t else x.first, last := t })

/-- An input frame completes: it enters the FIFO, the oldest leaving where it is full (R337); after a common start only
frames whose frame sync is at or after n0's instant enter (R350). -/
def State.audFrameDone (s : State) (d : MDie) (p : Nat) (codes : List Int) : State :=
  let x := s.audPort d p
  let hz := s.portHz d p
  match x.frame with
  | none => s
  | some t =>
    if (s.audInFirst d p).isNone ∨ s.rdN Obj.audPortState d.die p ≠ 2 ∨ ¬ audBegun hz (x.n0.getD 0) t then s
    else
      let f := audPack (s.portBits d p) x.inMask ((maskSlots x.inMask).map (fun k => codes.getD k 0))
      let (slip, s) := s.slipNow d p 1 (audIndex hz (s.now d.pdie)) (decide (audFifoMax ≤ x.inFifo.length))
      let s := if slip then (s.updAudPort d p (fun y => { y with inFifo := y.inFifo.drop 1 })).audSlip d p 1 else s
      s.updAudPort d p (fun y => { y with inFifo := y.inFifo ++ [f] })

/-- A port that had no frame under way aligns to the frame sync: its input FIFO fills to the target anew, which restores the fill that a
glitch took (R337, R342; DEDUCED, assumption 115). -/
def State.audRealigned (s : State) (d : MDie) (p : Nat) : State :=
  s.updAudPort d p (fun x => if x.frame.isNone then { x with inPrimed := false } else x)

/-- Committed masks apply from the first frame sync at or after their instant (R335). -/
def State.applyMasks (s : State) (d : MDie) (p : Nat) : State :=
  match (s.audPort d p).pend with
  | some (i, o, t) =>
    if t ≤ s.now d.pdie then (s.updAudPort d p (fun x => { x with pend := none, inMask := i, outMask := o })).refreshProducers d else s
  | none => s

/-- The codes of every slot of a frame to send: disabled slots and poisoned words carry 0 (R334, R338). -/
def State.slotsOf (s : State) (d : MDie) (p : Nat) (f : AudFrame) : List Int :=
  let codes := audUnpack (s.portBits d p) f
  let on := maskSlots f.mask
  (List.range (s.portSlots d p)).map (fun n =>
    match on.idxOf? n with
    | some k => (match codes[k]? with | some (v, true) => v | _ => 0)
    | none => 0)

/-- The output FIFO may begin to send: it reached the target, after a common start not before n0 plus the target (R337,
R350). -/
def State.outReady (s : State) (d : MDie) (p : Nat) : Bool :=
  let x := s.audPort d p
  let target := s.rdN Obj.audPortFifoTarget d.die p
  x.outPrimed || (decide (target ≤ x.outFifo.length) &&
    (match x.n0 with | none => true | some n => audBegun (s.portHz d p) (n + target) (s.now d.pdie)))

/-- A frame on a port's wires (R332): slots MSB first, FSY as FRAMING and FSY.WIDTH say, POL bit 1 inverting it. FSY is active high in
the TDM framings (DEDUCED, assumption 114). -/
def State.tdmFrame (s : State) (d : MDie) (p : Nat) (slots : List Int) : TdmFrame :=
  let n := s.portSlots d p
  let w := s.portBits d p
  let pol := s.rdN Obj.audPortPol d.die p
  let i2s := s.rdN Obj.audPortFraming d.die p == 0
  let high := match s.rdN Obj.audPortFsyWidth d.die p with | 0 => 1 | 1 => w | _ => n * w / 2
  { slots := slots
    bits := slots.flatMap (fun v => (List.range w).map (fun k => (lowBits w v).testBit (w - 1 - k)))
    delay := if i2s then 1 else s.rdN Obj.audPortDelay d.die p
    fsy := if s.portMaster d p then
        (List.range (n * w)).map (fun k => (if i2s then decide (w ≤ k) else decide (k < high)) != pol.testBit 1)
      else []
    swap := pol.testBit 0 }

/-- A running port sends a frame, the last one again where its FIFO is empty (R337). -/
def State.audSendFrame (s : State) (d : MDie) (p : Nat) : State :=
  let zeros := List.replicate (s.portSlots d p) (0 : Int)
  if (s.audOutFirst d p).isNone then s
  else if s.rdN Obj.audPortState d.die p ≠ 2 ∨ ¬ s.outReady d p then s.send (.tdm d p (s.tdmFrame d p zeros))
  else
    let n := audIndex (s.portHz d p) (s.now d.pdie)
    let (slip, s) := s.slipNow d p 4 n (s.audPort d p).outFifo.isEmpty
    let s := if slip then (s.updAudPort d p (fun x => { x with outPrimed := true })).audSlip d p 4
      else s.updAudPort d p (fun x => { x with outPrimed := true, outFifo := x.outFifo.drop 1, outLast := x.outFifo.head? })
    match (s.audPort d p).outLast with
    | none => s.send (.tdm d p (s.tdmFrame d p zeros))
    | some f => (if f.poisoned then s.audPoisonRead d p else s).send (.tdm d p (s.tdmFrame d p (s.slotsOf d p f)))

/-- AUD.PORT.STATE of a port, with STATUS bits 0 and 3 and the class mismatch. -/
def State.setAudState (s : State) (d : MDie) (p st : Nat) : State :=
  ((s.wr Obj.audPortState d.die p (st : Nat)).putBit Obj.audPortStatus d.die p 0 (st == 2)).putBit Obj.audPortStatus d.die p 3 (st == 4)

/-- TDM_FRAME_SYNC (R337): `slots` are the codes the frame that ends here brought, slot by slot. A port that is not armed
starts at its first frame sync (R350), and under the stop rule a port stops at one (R482); one whose clock stopped starts again by SLAVE_CLOCK_RETURN (R342). -/
def execTdmFrameSync (d : MDie) (port : Fin 16) (slots : List Int) (s : State) : Out :=
  let p := port.val
  when (s.up d.pdie && s.secOn d secAud && s.audPortUsed d p && s.inForce && s.rdN Obj.audPortState d.die p != 3) s
    (if (s.stopFrom d).any (fun t => decide (t ≤ s.now d.pdie)) then s.setAudState d p 0
     else
       let s := if s.rdN Obj.audPortState d.die p = 0 then (s.setAudState d p 2).setBit Obj.audPortStatus d.die p 1 else s
       let s := ((s.fsyEdge d p).audFrameDone d p slots).audRealigned d p
       let s := ((s.applyMasks d p).sumLead d p).audSendFrame d p
       (s.updAudPort d p (fun x => { x with frame := some (s.now d.pdie) })).audFill d p)

/-! ### Commits of masks (R335) -/

/-- A port's masks are committed from an instant on. -/
def State.audPortCommit (s : State) (d : MDie) (p t : Nat) : State × Bool :=
  let i := s.rdN Obj.audPortInMask d.die p
  let o := s.rdN Obj.audPortOutMask d.die p
  match s.audPortFault d p i o with
  | some r => (s.audPortReject d p r, false)
  | none => ((s.updAudPort d p (fun x => { x with pend := some (i, o, t) })).ans .ok, true)

/-- AUD_PORT_COMMIT (R335): one in the cycle of a frame sync counts as after it. A port that is not in use has nothing to commit. -/
def execAudPortCommit (d : MDie) (port : Fin 16) (s : State) : Out :=
  when s.serverUp s (s.mirror d.die (fun d t s =>
    if s.audPortUsed d port.val then (s.audPortCommit d port.val (max t.ceilNs (s.now d.pdie + 1))).1 else s))

/-- AUD_GROUP_COMMIT (R347). -/
def execAudGroupCommit (d : Die) (group : Fin 256) (s : State) : Out :=
  when s.serverUp s (s.mirror d (fun d t s => (s.routerCommit d group.val t.ceilNs).1))

/-! ### Islands (R339, R340) -/

/-- An island's update with the sum S. -/
def State.islandStep (s : State) (d : MDie) (i sum : Nat) : State :=
  let x := s.audIsl d i
  let target := ((s.leadPort d i).map (fun p => s.rdN Obj.audPortFifoTarget d.die p)).getD 0
  let e : Int := (sum : Int) - 64 * target
  let integ := clip3 (-549755648) 549755648 (x.integ + s.rd Obj.audIslKi d.die i * e)
  let c := clip3 (-2147483) 2147483 (s.rd Obj.audIslKp d.die i * e + shrRne integ 8)
  let good := if mag e ≤ 64 then x.good + 1 else 0
  let pulled := if mag c = 2147483 then x.pulled + 1 else 0
  let s := (s.updAudIsl d i (fun y => { y with integ := integ, whole := none, good := good, pulled := pulled })).wr Obj.audIslCorr d.die i c
  let s := if pulled = 0 then s.clrBit Obj.audIslStatus d.die i 2 else s
  if pulled = 16 then
    (((s.clrBit Obj.audIslStatus d.die i 1).setBit Obj.audIslStatus d.die i 2).setBit Obj.audIslSticky d.die i 0).raise d.pdie 0x2810 i (p16 [i])
  else if 16 ≤ good ∧ pulled < 16 ∧ ¬ s.bit Obj.audIslStatus d.die i 1 then (s.setBit Obj.audIslStatus d.die i 1).raise d.pdie 0x2811 i (p16 [i])
  else s

/-- ISLAND_UPDATE (R340): after every 64 frame syncs of the lead port. -/
def execIslandUpdate (d : MDie) (island : Fin 8) (s : State) : Out :=
  match (s.audIsl d island.val).whole with
  | none => .next s
  | some sum => when (s.up d.pdie && s.bit Obj.audIslStatus d.die island.val 0) s (s.islandStep d island.val sum)

/-- An island runs from leaving CONFIGURE while its rate is not 0 (R339); the correction of the die's time counter that
seeds its integrator is not shown by any object (assumption 4). -/
def State.startIsland (s : State) (d : MDie) (i : Nat) : State :=
  if s.rdN Obj.audIslRate d.die i = 0 then
    ((s.updAudIsl d i (fun _ => AudIslSt.start)).wr Obj.audIslStatus d.die i 0).wr Obj.audIslCorr d.die i 0
  else if s.bit Obj.audIslStatus d.die i 0 then s
  else
    let (v, s) := s.free 32
    let integ := clip3 (-549755648) 549755648 (256 * signed 32 v)
    ((s.updAudIsl d i (fun _ => { AudIslSt.start with integ := integ })).wr Obj.audIslCorr d.die i
      (clip3 (-2147483) 2147483 (shrRne integ 8))).wr Obj.audIslStatus d.die i 1

/-! ### Rate and clock faults (R341, R342) -/

/-- AUD.PORT.RATE in mHz from the edges of a gate. -/
def gateRate (n first last : Nat) : Nat :=
  let dt := last - first
  if n < 2 ∨ dt = 0 then 0 else ((n - 1) * 1000000000000 + dt / 2) / dt

/-- A port realigns (R342): the input FIFO is emptied and refills, the output FIFO is cut to the target, each frame a slip. An armed port
goes on waiting for its common start (R350). -/
def State.audRealign (s : State) (d : MDie) (p : Nat) : State :=
  let cut := (s.audPort d p).outFifo.length - s.rdN Obj.audPortFifoTarget d.die p
  let s := s.updAudPort d p (fun x => { x with inFifo := [], inPrimed := false, outFifo := x.outFifo.drop cut, frame := none })
  let s := (List.range cut).foldl (fun s _ => s.audSlip d p 3) s
  (s.setAudState d p (if (s.audPort d p).armed.isSome then 1 else 2)).audFill d p

/-- The class judged after a gate: a slave port mutes when it is not its bank's code, and realigns when it is again. -/
def State.judgeClass (s : State) (d : MDie) (p cls : Nat) : State :=
  let want := ((s.audBank d p).map (fun b => s.rdN Obj.audBankRate d.die b)).getD 0
  let st := s.rdN Obj.audPortState d.die p
  if s.portMaster d p then s
  else if st = 2 ∧ cls ≠ want then
    ((s.setAudState d p 4).setBit Obj.audSticky d.die 0 3).raise d.pdie 0x2809 p (p16 [p, cls])
  else if st = 4 ∧ cls = want then s.audRealign d p
  else s

/-- RATE_GATE (R341): a gate of 10 ms ended. -/
def execRateGate (d : MDie) (port : Fin 16) (s : State) : Out :=
  let p := port.val
  let x := s.audPort d p
  let g := s.now d.pdie / 10000000
  when (s.up d.pdie && s.secOn d secAud && decide (2 ≤ s.rdN Obj.audPortState d.die p) && decide (s.rdN Obj.audPortState d.die p ≠ 3)
      && decide (x.gate < g)) s
    (let rate := gateRate x.edges x.first x.last
     let cls := audClassOf rate
     let old := s.rdN Obj.audPortRateClass d.die p
     let far : Bool := match x.told with
       | none => false
       | some r => decide (1000 * r < mag ((rate : Int) - r) * 1000000)
     let s := s.updAudPort d p (fun y => { y with gate := g, edges := 0 })
     let s := (s.wr Obj.audPortRate d.die p (rate : Nat)).wr Obj.audPortRateClass d.die p (cls : Nat)
     let s := if cls ≠ old ∨ far then
         ((s.updAudPort d p (fun y => { y with told := some rate })).setBit Obj.audPortSticky d.die p 4).raise d.pdie 0x2808 p
           (payloadOf [(16, p), (32, rate), (16, cls)])
       else s
     s.judgeClass d p cls)

/-- SLAVE_CLOCK_STOP (R342). -/
def execSlaveClockStop (d : MDie) (port : Fin 16) (s : State) : Out :=
  let p := port.val
  let st := s.rdN Obj.audPortState d.die p
  when (s.up d.pdie && s.secOn d secAud && s.audPortUsed d p && !s.portMaster d p && (st == 1 || st == 2 || st == 4)) s
    (let s := (((s.setAudState d p 3).clrBit Obj.audPortStatus d.die p 1).setBit Obj.audPortSticky d.die p 2).setBit Obj.audSticky d.die 0 3
     (s.updAudPort d p (fun x => { x with frame := none })).raise d.pdie 0x2805 p (p16 [p]))

/-- SLAVE_CLOCK_RETURN (R342): at the first FSY after BCK returned. -/
def execSlaveClockReturn (d : MDie) (port : Fin 16) (s : State) : Out :=
  let p := port.val
  when (s.up d.pdie && s.secOn d secAud && s.rdN Obj.audPortState d.die p == 3) s
    (let s := (s.setBit Obj.audPortStatus d.die p 1).raise d.pdie 0x2806 p (p16 [p])
     let s := (s.audRealign d p).fsyEdge d p
     s.updAudPort d p (fun x => { x with frame := some (s.now d.pdie) }))

/-- FRAME_SYNC_GLITCH (R342): `bck` is the BCK count at the edge. The frames under way are cut until the next FSY edge. -/
def execFrameSyncGlitch (d : MDie) (port : Fin 16) (bck : Nat) (s : State) : Out :=
  let p := port.val
  let st := s.rdN Obj.audPortState d.die p
  when (s.up d.pdie && s.secOn d secAud && s.audPortUsed d p && !s.portMaster d p && (st == 1 || st == 2 || st == 4)) s
    (let s := ((s.updAudPort d p (fun x => { x with frame := none })).bump Obj.audPortGlitchCount d.die p).setBit Obj.audPortSticky d.die p 3
     ((s.setBit Obj.audSticky d.die 0 3).raise d.pdie 0x2807 p (p16 [p, bck])).send (.tdmCut d p bck))

/-! ### Playout buffers (R343, R344) -/

/-- The samples of a packet in the router's word, one list per sample time (R329). -/
def packetSamples (b : List Byte) (r : Rtp) : List (List AudSmp) :=
  let w := if descKind b = 3 then 32 else if descBitDepth b = 0 then 16 else 24
  r.audio.map (fun t => t.map (fun v => ⟨audEnter w v, true⟩))

/-- Signed 32-bit distance of two indices. -/
def idxDist (a b : Nat) : Int := tsDist (a % 2 ^ 32) (b % 2 ^ 32)

/-- A sample is in the window: from 1 to 2 × D ahead of the current index. -/
def inPlayout (delay key cur : Nat) : Bool := decide (1 ≤ idxDist key cur) && decide (idxDist key cur ≤ 2 * delay)

/-- A playout buffer is rebased to an offset (R344). -/
def State.rebase (s : State) (d : MDie) (f k cause : Nat) : State :=
  let s := s.updAudFlow d f (fun x => { x with k := k, outside := 0, stepDue := false, store := if cause = 2 then [] else x.store })
  ((s.bump Obj.audFlowRebaseCount d.die f).setBit Obj.audFlowSticky d.die f 0).raise d.pdie 0x2820 f (p16 [f, cause])

/-- The offset that makes a packet's first sample play D samples after the current index. -/
def rebaseOffset (ts cur : Nat) : Nat := (cur % 2 ^ 32 + 2 ^ 32 - ts % 2 ^ 32) % 2 ^ 32

/-- Whether a packet rebases its buffer, and how: by its own rule, told to the partner, or by the owner's record (R344,
R404). -/
def State.audRebase (s : State) (d : MDie) (f ts cur cause : Nat) (due : Bool) : State :=
  let k := rebaseOffset ts cur
  if s.decides d then
    if due then (s.rebase d f k cause).tellDecision d { kind := 3, res := f, frame := s.refFrame d, arg1 := 0, arg2 := k } else s
  else
    match s.decisionFor d 3 f (fun _ => true) with
    | some x => (s.dropDecision d x).rebase d f x.arg2 cause
    | none => if due then (s.decisionMissed d 3 f).rebase d f k cause else s

/-- An audio packet comes to its playout buffer (R343, R344). -/
def State.audPacket (s : State) (d : MDie) (f : Nat) (r : Rtp) : State :=
  let b := s.inDesc d f
  let delay := s.rdN Obj.audFlowDelay d.die f
  let cur := audIndex (audFlowHz b) (s.now d.pdie)
  let key := fun (k j : Nat) => (r.ts + j + delay + k) % 2 ^ 32
  let all := packetSamples b r
  let hit := (List.range all.length).any (fun j => inPlayout delay (key (s.audFlow d f).k j) cur)
  let s := s.updAudFlow d f (fun x => { x with outside := if hit then 0 else x.outside + 1 })
  let x := s.audFlow d f
  let s := s.audRebase d f r.ts cur (if x.stepDue then 2 else 1) (x.stepDue || decide (8 ≤ x.outside))
  let k := (s.audFlow d f).k
  let (ins, outs) := (all.zipIdx.map (fun g => (key k g.2, g.1))).partition (fun e => inPlayout delay e.1 cur)
  let s := s.updAudFlow d f (fun x => { x with store := x.store.filter (fun e => decide (e.1 ∉ ins.map (·.1))) ++ ins })
  let s := if outs.isEmpty then s
    else (s.addCount Obj.audFlowLateCount d.die f outs.length).setBit Obj.audFlowSticky d.die f 1
  if ins.isEmpty then s else s.setBit Obj.audFlowStatus d.die f 0

/-! ### Egress packets (R345, R408) -/

/-- The first index of a flow's next packet: after its last packet, or from the first whole packet after it landed. -/
def State.egressFirst (s : State) (d : MDie) (f : Nat) : Nat :=
  let b := s.outDesc d f
  let since := (s.flowOut d f).since
  match (s.md d).audio.egress.find? (fun e => e.1 == f) with
  | some (_, t, n) => if t = since then n else
      audPerPacket b * ceilDiv (audIndexFrom (audFlowHz b) since) (audPerPacket b)
  | none => audPerPacket b * ceilDiv (audIndexFrom (audFlowHz b) since) (audPerPacket b)

/-- A channel's code in a packet: AES3 subframes carry the validity bit V, bit 24, for an invalid sample (R329; the place of V
is presumed). -/
def egressCode (b : List Byte) (x : AudSmp) : Int :=
  if descKind b = 3 then (if x.valid then x.v else 2 ^ 24) else audLeave (if descBitDepth b = 0 then 16 else 24) x

/-- AUDIO_EGRESS_PACKET (R345): released at the instant of the index after its last sample, in SELVEDGE 8 µs later (R408). -/
def execAudioEgressPacket (d : MDie) (flow : Fin 4096) (s : State) : Out :=
  let f := flow.val
  let b := s.outDesc d f
  let m := audPerPacket b
  let n := s.egressFirst d f
  let t := s.now d.pdie - (if s.inSelvedge then 8000 else 0)
  when (s.up d.pdie && s.secOn d secAud && descAudio b && s.sends d f && audBegun (audFlowHz b) (n + m) t) s
    (let rows := (List.range m).map (fun j =>
       (List.range (descChannels b)).map (fun c => egressCode b (s.audOutAt d (descTarget b + c) (n + j))))
     let bytes := if descKind b = 3 then 4 else if descBitDepth b = 0 then 2 else 3
     let ts := (n + 2 ^ 32 - s.rdN Obj.audFlowOutTsofs d.die f % 2 ^ 32) % 2 ^ 32
     let p : Payload := { ts := ts, marker := false, segs := [], audio := rows, data := [], size := m * descChannels b * bytes }
     let s := s.updAud d (fun a => { a with egress := tabSet a.egress f ((s.flowOut d f).since, n + m) })
     s.emit d f (descPt b) p none)

/-! ### Starts (R350) -/

/-- AUD_PORT_ARM (R350): a port in use waits for the common start of its group. -/
def State.audArm (s : State) (d : MDie) (p : Nat) : State :=
  if ¬ s.audPortUsed d p then s.ans (.noEffect (s.rdN Obj.audPortState d.die p))
  else
    let s := s.updAudPort d p (fun x =>
      { x with inFifo := [], outFifo := [], inPrimed := false, outPrimed := false, inLast := none, outLast := none, frame := none, n0 := none,
               armed := some (s.now d.pdie) })
    ((s.setAudState d p 1).audFill d p).ans .ok

def execAudPortArm (d : MDie) (port : Fin 16) (s : State) : Out :=
  when s.serverUp s (s.mirror d.die (fun d _ s => s.audArm d port.val))

/-- AUD_PORT_DISARM (R350): the port then starts at its next frame sync. -/
def State.audDisarm (s : State) (d : MDie) (p : Nat) : State :=
  let st := s.rdN Obj.audPortState d.die p
  if (s.audPort d p).armed.isNone then s.ans (.noEffect st)
  else
    let s := s.updAudPort d p (fun x => { x with armed := none })
    (if st = 1 then s.setAudState d p 0 else s).ans .ok

def execAudPortDisarm (d : MDie) (port : Fin 16) (s : State) : Out :=
  when s.serverUp s (s.mirror d.die (fun d _ s => s.audDisarm d port.val))

/-- The ports of a group that a trigger starts: those armed before its cycle (R350). -/
def State.audWaiting (s : State) (d : MDie) (g : Nat) : List Nat :=
  upto 16 (fun p => ((s.audPort d p).armed.map (fun t => decide (t < s.now d.pdie))).getD false
    && s.rdN Obj.audPortStartGroup d.die p == g)

/-- The common start of a group at an instant: each armed port begins with the first index of its bank at or after it. A
trigger with no armed port does nothing. -/
def State.audTrigger (s : State) (d : MDie) (g t : Nat) : State :=
  let l := s.audWaiting d g
  if l = [] then s
  else
    let n0 := audIndexFrom (s.bankHz d 0) t
    let s := l.foldl (fun (s : State) p =>
      let s := s.updAudPort d p (fun x => { x with n0 := some (audIndexFrom (s.portHz d p) t), armed := none })
      if s.rdN Obj.audPortState d.die p = 1 then s.setAudState d p 2 else s) s
    (s.wr Obj.audStartLast d.die g (n0 : Nat)).raise d.pdie 0x2830 g (payloadOf [(16, g), (64, n0)])

/-- AUD_START_TRIGGER (R350). -/
def execAudStartTrigger (d : Die) (group : Fin 256) (s : State) : Out :=
  when s.serverUp s (s.mirror d (fun d t s => s.audTrigger d group.val t.ceilNs))

/-! ### Audio that follows (R167, R168, R349) -/

/-- The source that channel `i` of a destination follows: silence for black and beyond the source's channels (assumption 26). -/
def State.followSource (s : State) (d : MDie) (p i : Nat) : Nat :=
  let r := s.activeRoute d p
  if s.bit Obj.loomDstStatus d.die p 3 then 0xFFFF
  else match routeKind r with
  | 1 =>
    let (f, n) := s.srcAudio d (routePort r)
    if i < n ∧ f ≠ 0xFFFF then f + i else 0xFFFF
  | 2 =>
    let (f, n) := s.srcAudio d.other (routePort r)
    if i < n ∧ f ≠ 0xFFFF then farAudioSrc (f + i) else 0xFFFF
  | 3 =>
    match s.rxFor d (routeDevice r) (routeDie r) (routePort r) with
    | some n => twlAudioSrc n i
    | none => 0xFFFF
  | _ => 0xFFFF

/-- The first index of a rate whose instant is at or after an instant (R168, R328). -/
def indexFrom (hz : Nat) (t : Instant) : Nat := ceilDiv (t.n * hz) (t.d * nsPerSec)

/-- A followed channel goes over to its source at the first index of its bank at or after a switch line (R168). -/
def State.followChannel (s : State) (d : MDie) (o src : Nat) (t : Instant) : State :=
  let n := indexFrom (s.bankHz d (o / 256)) t
  let e := rampE (s.rdN Obj.loomAudioRamp d.die 0)
  let s := s.updAudOut d o (fun x => if x.source = src then x else { x with layers := x.layers ++ [⟨src, n, s.rampTo d x src e⟩] })
  s.showAudOut d o n

/-- AUDIO_FOLLOW_SWITCH (R168): at the first samples after the video switch line. -/
def execAudioFollowSwitch (d : MDie) (dst : Fin 256) (s : State) : Out :=
  let p := dst.val
  match (s.dst d p).followDue with
  | none => .next s
  | some t =>
    when (s.up d.pdie && s.secOn d secAud) s
      (let (f, c) := s.dstAudio d p
       let s := s.updDst d p (fun x => { x with followDue := none })
       (List.range c).foldl (fun s i => if f + i < 2048 then s.followChannel d (f + i) (s.followSource d p i) t else s) s)

/-! ### Leaving CONFIGURE, time steps (R330, R344, R350) -/

/-- Subject index of playout buffers (R358). -/
def subjAudFlow : Nat := 0x2807

/-- Nothing of a die's audio runs; armed ports stay armed and islands go on (R339, R350). -/
def State.audRest (s : State) (d : MDie) : State :=
  let armed := fun (p : Nat) => (s.audPort d p).armed
  let ports := (upto 16 (fun p => (armed p).isSome)).map (fun p => (p, { AudPortSt.start with armed := armed p }))
  let s := s.updAud d (fun a => { AudioSt.start with ports := ports, isls := a.isls })
  let zero := fun (s : State) (o : ObjDef) (v : Int) =>
    (s.listed o d.die (fun _ x => x != v)).foldl (fun (s : State) k => s.wr o d.die k v) s
  let s := (upto 16 (fun p => s.rdN Obj.audPortState d.die p != 0)).foldl (fun (s : State) p =>
    (s.setAudState d p (if (armed p).isSome then 1 else 0)).audFill d p) s
  zero (zero (zero s Obj.audFlowStatus 0) Obj.audOutActive 0xFFFF) Obj.audOutStatus 0

/-- The audio of a die stops (R482): no port stays armed. -/
def State.audStop (s : State) (d : MDie) : State :=
  (s.updAud d (fun a => { a with ports := a.ports.map (fun x => (x.1, { x.2 with armed := none })) })).audRest d

/-- The audio section of a die goes off: its islands stop too. -/
def State.audOff (s : State) (d : MDie) : State :=
  let s := s.audStop d
  let s := s.updAud d (fun a => { a with isls := [] })
  (upto 8 (fun i => s.bit Obj.audIslStatus d.die i 0)).foldl (fun (s : State) i => s.wr Obj.audIslStatus d.die i 0) s

/-- The first destination whose audio channels another destination before it names too (R330). -/
def State.audClash (s : State) (d : MDie) : Option Nat :=
  (s.boundDsts d).find? (fun p =>
    let (f, c) := s.dstAudio d p
    f != 0xFFFF && (s.boundDsts d).any (fun q =>
      let (g, n) := s.dstAudio d q
      decide (q < p) && g != 0xFFFF && decide (f < g + n) && decide (g < f + c)))

/-- The router is refused on leaving CONFIGURE: its section is off or failed though an output channel has a source, or the values of a
channel break a rule (R330, R346, R347). -/
def State.routerFault (s : State) (d : MDie) (outs : List Nat) : Option (Nat × Nat) :=
  match if s.secOn d secAud then none else outs.find? (fun o => decide ((s.audShadow d o).src < 2048)) with
  | some o => some (o, 5)
  | none => outs.findSome? (fun o => (s.audOutFault d o (s.audShadow d o)).map (fun r => (o, r)))

/-- Audio of a die takes its configuration on leaving CONFIGURE: ports, router, islands, playout buffers. False where a port
or the router is rejected; the ingress flows whose buffer does not fit, each with the DRAM refusal. -/
def State.audLeaveConfigure (s : State) (d : MDie) : State × Bool × List (Nat × Nat × Nat) :=
  let s := s.audRest d
  let acc := (upto 16 (s.audPortUsed d)).foldl (fun (acc : State × Bool) p =>
    let s := acc.1
    let i := s.rdN Obj.audPortInMask d.die p
    let o := s.rdN Obj.audPortOutMask d.die p
    match s.audPortFault d p i o with
    | some r => (s.audPortReject d p r, false)
    | none =>
      (s.updAudPort d p (fun x => { x with inMask := i, outMask := o }), acc.2)) (s, true)
  let s := acc.1.refreshProducers d
  let outs := ((List.range 256).flatMap (fun g => s.audGroupOuts d g))
  let acc := match s.audClash d with
    | some p => ((s.loomReject d 6 0xFFFF p).ans (.rejected 0x1601), false)
    | none => (s, acc.2)
  let s := acc.1
  let (s, ok) := match s.routerFault d outs with
    | some (o, r) => (s.routerReject d (s.rdN Obj.audOutGroup d.die o) r o, false)
    | none =>
      (outs.foldl (fun (s : State) o =>
        let g := s.audShadow d o
        let gain := if g.mute then 0 else g.gain
        s.updAudOut d o (fun x => { x with layers := [⟨g.src, 0, 0⟩], gOld := gain, gNew := gain, mute := g.mute, delay := g.delay })
          |>.showAudOut d o 0) s, acc.2)
  let s := (List.range 8).foldl (fun (s : State) i => s.startIsland d i) s
  let fl := (s.inFlows d).filter (fun f => descAudio (s.inDesc d f))
  let (s, bad) := fl.foldl (fun (acc : State × List (Nat × Nat × Nat)) f =>
    match acc.1.allocStores d subjAudFlow f [Config.undeclaredBytes subjAudFlow f] (Config.undeclaredTraffic subjAudFlow f) with
    | .ok s => (s, acc.2)
    | .error (kind, short) => (acc.1, acc.2 ++ [(f, kind, short)])) (s, [])
  (s, ok, bad)

/-- The time base stepped (R344): indices count from the new time, ramps under way end, and every playout buffer is rebased
on its next packet. -/
def State.audTimeStep (s : State) (d : MDie) : State :=
  s.updAud d (fun a =>
    { a with ins := [], last := [], egress := [],
             outs := a.outs.map (fun x => (x.1, { x.2 with layers := trimLayers (2 ^ 80) x.2.layers, gOld := x.2.gNew, gE := 0, hist := [] })),
             flows := a.flows.map (fun x => (x.1, { x.2 with stepDue := true })) })

end Sys2Proof.Machine
end

