-- ==== Sys2Proof/Machine/Standard.lean ====
section
/-! DEFINITION. What the codec standards fix by level and tier (R224, R272, R292). The spec names the standards and does not repeat their
tables: the numbers are those of H.265 and H.266, Annex A (PRESUMED, assumption 108). -/

namespace Sys2Proof.Machine

/-- A row of the level tables: level × 10, largest luma picture and luma sample rate, rates and buffer sizes in units of 1,000 bits for
the tiers Main and High (0 where a level has no High tier), tile rows and tile columns of H.265. -/
structure LevelRow where
  level : Nat
  picture : Nat
  rate : Nat
  main : Nat
  high : Nat
  tileRows : Nat
  tileCols : Nat

/-- The levels of R224. -/
def levelTable : List LevelRow :=
  [⟨31, 983040, 33177600, 10000, 0, 3, 3⟩, ⟨40, 2228224, 66846720, 12000, 30000, 5, 5⟩, ⟨41, 2228224, 133693440, 20000, 50000, 5, 5⟩,
   ⟨50, 8912896, 267386880, 25000, 100000, 11, 10⟩, ⟨51, 8912896, 534773760, 40000, 160000, 11, 10⟩,
   ⟨52, 8912896, 1069547520, 60000, 240000, 11, 10⟩, ⟨60, 35651584, 1069547520, 60000, 240000, 22, 20⟩,
   ⟨61, 35651584, 2139095040, 120000, 480000, 22, 20⟩, ⟨62, 35651584, 4278190080, 240000, 800000, 22, 20⟩]

/-- The row of a level. -/
def levelRow (level : Nat) : Option LevelRow := levelTable.find? (fun r => r.level == level)

/-- A level admits a coded luma picture and its sample rate np/dp (R224): no side is longer than the square root of eight times the
largest picture. -/
def levelAdmits (level w h np dp : Nat) : Bool :=
  match levelRow level with
  | none => false
  | some r => decide (w * h ≤ r.picture) && decide (w * w ≤ 8 * r.picture) && decide (h * h ≤ 8 * r.picture) && decide (w * h * np ≤ r.rate * dp)

/-- A level admits a number of tile columns and tile rows (R292): H.266 limits the tiles of a picture in place of the rows. -/
def levelTiles (vvc : Bool) (level cols rows : Nat) : Bool :=
  match levelRow level with
  | none => false
  | some r => decide (cols ≤ r.tileCols) && (if vvc then decide (cols * rows ≤ r.tileCols * r.tileRows) else decide (rows ≤ r.tileRows))

/-- The narrowest tile in luma samples (R292): 256 in H.265, one CTU in H.266. -/
def minTile (vvc : Bool) (ctu : Nat) : Nat := if vvc then ctu else 256

/-- The factor of NAL HRD rates and sizes: that of Main 10, or of Main 4:2:2 10. -/
def nalFactor (full : Bool) : Nat := if full then 1833 else 1100

/-- MaxBR of a level and tier in bit/s (R272). -/
def maxBitRate (full high : Bool) (level : Nat) : Nat :=
  match levelRow level with | none => 0 | some r => (if high then r.high else r.main) * nalFactor full

/-- MaxCPB of a level and tier in bits (R272): H.266 has sizes of its own in the Main tier at levels 6 and 6.2. -/
def maxBuffer (vvc full high : Bool) (level : Nat) : Nat :=
  match levelRow level with
  | none => 0
  | some r =>
    (match vvc, level, high with
      | true, 60, false => 80000
      | true, 62, false => 180000
      | _, _, _ => if high then r.high else r.main) * nalFactor full

end Sys2Proof.Machine
end

