-- ==== Sys2Proof/Machine/RateControl.lean ====
section
/-! DEFINITION. Rate control, Scrim bounds, guards and Gauze as arithmetic (R271–R287, R293, R295, R301). -/

namespace Sys2Proof.Machine

/-- A channel's shadow set, captured (R244, R268, R288, R308). -/
def State.encShadow (s : State) (d : MDie) (c : Nat) : EncCfg :=
  { irapType := s.rdN Obj.encChIrapType d.die c, irapPeriod := s.rdN Obj.encChIrapPeriod d.die c,
    poisonIrap := s.rd Obj.encChPoisonIrap d.die c == 1, vbr := s.rd Obj.rcMode d.die c == 1,
    bitrate := s.rdN Obj.rcBitrate d.die c, maxrate := s.rdN Obj.rcMaxrate d.die c, cpb := s.rdN Obj.rcCpbSize d.die c,
    cpbInit := s.rdN Obj.rcCpbInit d.die c, cpbTarget := s.rdN Obj.rcCpbTarget d.die c,
    cpbRestart := s.rdN Obj.rcCpbRestart d.die c, react := s.rdN Obj.rcReact d.die c, gain := s.rdN Obj.rcRowGain d.die c,
    qpStep := s.rdN Obj.rcQpStep d.die c, qpMin := s.rd Obj.rcQpMin d.die c, qpMax := s.rd Obj.rcQpMax d.die c,
    qpInit := s.rd Obj.rcQpInit d.die c, ofsIrap := s.rd Obj.rcQpOfsIrap d.die c, ofsNonref := s.rd Obj.rcQpOfsNonref d.die c,
    wIrap := s.rdN Obj.rcWIrap d.die c, wRef := s.rdN Obj.rcWRef d.die c, wNonref := s.rdN Obj.rcWNonref d.die c,
    gz := s.rd Obj.rcGzEnable d.die c == 1, gzMap := s.rd Obj.rcGzMapEnable d.die c == 1,
    gzSelect := s.rdN Obj.rcGzMapSelect d.die c, gzRecov := s.rd Obj.rcGzRecovEnable d.die c == 1,
    gzRects := (List.range 16).map (fun i =>
      let b := s.rdBytes Obj.rcGzRect d.die (c * 16 + i)
      { rect := rectOf b, ofs := signed 8 (fieldAt b 8 1) }),
    hdrSei := s.rd Obj.entChHdrSei d.die c == 1, mdcv := s.rdBytes Obj.entChHdrMdcv d.die c, cll := s.rdBytes Obj.entChHdrCll d.die c, dph := s.rd Obj.entChDph d.die c == 1,
    lambda := s.rdN Obj.motChLambda d.die c, confGain := s.rdN Obj.motChConfGain d.die c }

/-- What is fixed for a channel while it runs: codec, sizes, rates. -/
structure EncGeom where
  vvc : Bool
  ctu : Nat
  w : Nat
  h : Nat
  cols : Nat
  rows : Nat
  np : Nat
  dp : Nat
  /-- T, or 1 in the wavefront division -/
  tiles : Nat
  wave : Bool
  pq : Bool

/-- The geometry of a channel (R223, R233, R271, R291). -/
def State.encGeom (s : State) (d : MDie) (c : Nat) : EncGeom :=
  let f := fmt (s.rdN Obj.encChFormat d.die c)
  let (w, h) := codedSize f.family
  let k := s.encCtu d c
  let (np, dp) := pictureRate f
  let wave := s.rdN Obj.entChPar d.die c == 0
  { vvc := s.rdN Obj.encChCodec d.die c == 1, ctu := k, w := w, h := h, cols := ceilDiv w k,
    rows := ceilDiv (pictureSize f.family).2 k, np := np, dp := dp, tiles := if wave then 1 else s.rdN Obj.entChTiles d.die c,
    wave := wave, pq := (Attr.ofWord 0 0 (s.rdN Obj.encChAttr d.die c)).tcs == 1 }

/-- s_ctu of R279. -/
def sCtu (g : EncGeom) (irap : Bool) : Nat :=
  match g.vvc, g.ctu, irap with
  | false, _, false => 24
  | false, 32, true => 96
  | false, _, true => 144
  | true, _, false => 32
  | true, 64, true => 160
  | true, _, true => 576

/-- s_bin of R295. -/
def sBin (g : EncGeom) (irap : Bool) : Nat :=
  match g.vvc, g.ctu, irap with
  | false, _, false => 8
  | false, 32, true => 32
  | false, _, true => 48
  | true, _, false => 12
  | true, 64, true => 64
  | true, _, true => 256

/-- K_row of R271. -/
def kRow : Nat := 48

/-- S_pic of R271. -/
def sPic (g : EncGeom) (irap : Bool) : Nat := g.cols * g.rows * sCtu g irap + g.rows * kRow

/-- O in bits (R301): `user` says whether a user data SEI is counted. -/
def overhead (g : EncGeom) (c : EncCfg) (irap user : Bool) : Nat :=
  let row := (if g.wave then (if g.vvc then 0 else 10) else 12) * (g.rows - 1)
  let entry := if g.wave then 0 else 4 * (g.tiles - 1) * g.rows
  8 * (7 + 6 + 35 + (if irap then (if g.vvc then 160 else 224) + 48 else 16) + row + entry
    + (if !g.wave && g.vvc then 24 else 0) + (if irap && c.hdrSei && g.pq then 48 else 0) + (if user then 256 else 0)
    + (if c.dph then 20 else 0))

/-- Rarr, a, a_floor and B_avg of R271. -/
def rArr (c : EncCfg) : Nat := if c.vbr ∧ c.maxrate ≠ 0 then c.maxrate else c.bitrate
def arrival (g : EncGeom) (c : EncCfg) : Nat := rArr c * g.dp
def aFloor (g : EncGeom) (c : EncCfg) : Nat := arrival g c / g.np
def bAvg (g : EncGeom) (c : EncCfg) : Nat := c.bitrate * g.dp / g.np

/-- The rates lie within MaxBR of the level and tier (R224, R272). -/
def ratesOk (c : EncCfg) (profile level tier : Nat) : Bool :=
  let top := maxBitRate (profile == 1) (tier == 1) level
  decide (c.bitrate ≤ top) && (!c.vbr || decide (c.maxrate ≤ top))

/-- The checks of R272: the first failing reason. -/
def rcFault (g : EncGeom) (c : EncCfg) (profile level tier : Nat) : Option Nat :=
  let s := sPic g true + overhead g c true true
  let top : Int := if g.vvc then 63 else 51
  if aFloor g c < s then some 1
  else if c.cpb < aFloor g c + 32 then some 2
  else if c.cpb * c.cpbInit / 100 < s ∨ c.cpb * c.cpbRestart / 100 < s then some 3
  else if ¬ ratesOk c profile level tier ∨ (c.vbr ∧ c.maxrate ≠ 0 ∧ c.maxrate < c.bitrate) ∨
      maxBuffer g.vvc (profile == 1) (tier == 1) level < c.cpb then some 4
  else if ¬ (-12 ≤ c.qpMin ∧ c.qpMin ≤ c.qpInit ∧ c.qpInit ≤ c.qpMax ∧ c.qpMax ≤ top) then some 5
  else none

/-- The HRD account after a picture of `b` bits: Fs, filler bytes, Dacc (R273). -/
def hrdStep (g : EncGeom) (c : EncCfg) (fs dacc : Int) (b : Nat) : Int × Nat × Int :=
  let a : Int := arrival g c
  let size : Int := c.cpb
  let x := fs - b * g.np + a - size * g.np
  let f : Int := if c.vbr then 0 else if 0 < x then max 3 (divFlr (x + 8 * g.np - 1) (8 * g.np)) else 0
  let fs' := fs - (b + 8 * f) * g.np + a
  if c.vbr then (if size * g.np < fs' then size * g.np else fs', 0, clip3 (-size) size (dacc + b - bAvg g c))
  else (fs', f.toNat, dacc)

/-- F of R273. -/
def fullness (g : EncGeom) (fs : Int) : Int := divFlr fs g.np

/-- T_s of R276. -/
def pictureBudget (g : EncGeom) (c : EncCfg) (fs dacc : Int) (irap ref : Bool) (o : Nat) : Int :=
  let f := fullness g fs
  let w : Int := if irap then c.wIrap else if ref then c.wRef else c.wNonref
  let ft := divFlr (c.cpb * c.cpbTarget) 100
  let t := divFlr (bAvg g c * w) 16 + (if c.vbr then -divFlr dacc c.react else divFlr (f - ft) c.react)
  clip3 (sPic g irap) (f - o) (t - o)

/-- ofs(type) of R277: 0 reference, 1 IRAP, 2 non-reference. -/
def typeOfs (c : EncCfg) (t : Nat) : Int := match t with | 1 => c.ofsIrap | 2 => c.ofsNonref | _ => 0

/-- q_start of R277. -/
def qStart (c : EncCfg) (prev : Option (Int × Nat)) (t : Nat) : Int :=
  match prev with
  | none => c.qpInit
  | some (avg, p) => clip3 c.qpMin c.qpMax (avg + typeOfs c t - typeOfs c p)

/-- qavg of R277; every row of a picture holds the same number of CTUs. -/
def qAvg (g : EncGeom) (qs : List Int) : Int :=
  let n : Int := g.cols * g.rows
  divFlr (2 * (qs.foldl (fun (a : Int) q => a + q * g.cols) 0) + n) (2 * n)

/-- rho of R278 over rows of (bits, bins). -/
def rhoOf (l : List (Nat × Nat)) : Nat :=
  let bins := sumOver l (·.2)
  if bins = 0 then 4096 else 4096 * sumOver l (·.1) / bins

/-- q(r) of R278 for a row from 2 on. -/
def rowQp (g : EncGeom) (c : EncCfg) (x bins rho : Nat) (ts : Int) (r : Nat) (prev : Int) : Int :=
  let e : Int := (x + bins * rho / 4096 : Nat)
  let p := divFlr (ts * (g.cols * r : Nat)) (g.cols * g.rows)
  let dq := divFlr (2 * (e - p) * c.gain * g.rows + ts) (2 * ts)
  clip3 c.qpMin c.qpMax (prev + clip3 (-(c.qpStep : Int)) c.qpStep dq)

/-- Bin cap of each entropy job of a channel (R293). -/
def State.binCap (s : State) (d : MDie) (c : Nat) : Nat :=
  let f := fmt (s.rdN Obj.encChFormat d.die c)
  let q := s.rdN Obj.entChBinrate d.die c * s.encCtu d c * f.den / (f.lines * f.num)
  if s.rdN Obj.entChPar d.die c = 0 then q else q / s.rdN Obj.entChTiles d.die c

/-- First CTU of tile column `i`, or of the end (R292). -/
def tileStart (g : EncGeom) (i : Nat) : Nat := i * g.cols / g.tiles

/-- The tile column of a CTU. -/
def tileOf (g : EncGeom) (k : Nat) : Nat :=
  ((List.range g.tiles).find? (fun i => decide (k < tileStart g (i + 1)))).getD 0

/-- Widths of the tile columns in CTUs (R292). -/
def tileWidths (g : EncGeom) : List Nat := (List.range g.tiles).map (fun i => tileStart g (i + 1) - tileStart g i)

/-- CTUs of the widest job of a channel. -/
def widestJob (g : EncGeom) : Nat := (tileWidths g).foldl max 0

/-! ### Gauze (R285–R287) -/

/-- Signed nibble of a CTU in a map (R286). -/
def mapNibble (g : EncGeom) (m : List Byte) (r j : Nat) : Int :=
  let b := fieldAt m (r * ((g.cols + 1) / 2) + j / 2) 1
  signed 4 (if j % 2 = 0 then b / 16 else b % 16)

/-- Offset of the lowest-numbered rectangle that contains a CTU's top-left sample (R285). -/
def rectOfs (g : EncGeom) (l : List GzRect) (r j : Nat) : Int :=
  ((l.find? (fun x => x.rect.w != 0 && x.rect.has (r * g.ctu) (j * g.ctu))).map (·.ofs)).getD 0

/-- g of R287, its cases in the order of the rule: with Gauze off nothing else counts (DEDUCED, assumption 111). -/
def gauzeOfs (g : EncGeom) (c : EncCfg) (recov : Bool) (maps : Tab (List Byte)) (r j : Nat) : Int :=
  if ¬ c.gz then 0
  else if recov then clip3 (-12) 12 (mapNibble g (tabGet maps 2 []) r j)
  else clip3 (-12) 12 (rectOfs g c.gzRects r j + (if c.gzMap then mapNibble g (tabGet maps c.gzSelect []) r j else 0))

/-! ### Guards (R280, R281, R295) -/

/-- What the guards need of a row (R280, R295). -/
structure GuardIn where
  geom : EncGeom
  irap : Bool
  row : Nat
  /-- H -/
  limit : Int
  /-- X -/
  exact : Nat
  /-- charge of this picture's rows r − 2 and r − 1 -/
  before : Nat
  cap : Nat
  /-- first CTU that a missed window sends to Scrim (R239) -/
  force : Nat

/-- The guards' state along a row: picture Scrim, charge and bins so far, bins and Scrim of the present job, CTUs in Scrim
with what sent them (picture guard, bin guard). -/
structure GuardSt where
  pic : Bool
  charge : Nat
  bins : Nat
  job : Nat
  jobBins : Nat
  jobScrim : Bool
  scrim : List (Nat × Bool × Bool)

/-- One CTU under both guards (R280, R295). -/
def guardCtu (i : GuardIn) (st : GuardSt) (k : Nat) (c : Ctu) : GuardSt :=
  let g := i.geom
  let t := tileOf g k
  let st := if t = st.job then st else { st with job := t, jobBins := 0, jobScrim := false }
  let u := (i.before + st.charge + c.charge + 255) / 256
  let m := min i.row 2 + 1
  let res := sCtu g i.irap * (g.cols - 1 - k) + (sCtu g i.irap * g.cols + kRow) * (g.rows - 1 - i.row)
  let need : Int := (i.exact + (3 * u + 1) / 2 + kRow * m + res : Nat)
  let pic := st.pic || decide (i.limit < need)
  let left := tileStart g (t + 1) - 1 - k
  let bin := st.jobScrim || decide (i.cap < st.jobBins + c.bins + sBin g i.irap * left)
  let scrim := pic || bin || decide (i.force ≤ k)
  let ch := if scrim then c.scrimCharge else c.charge
  let bn := if scrim then c.scrimBins else c.bins
  { st with pic := pic, charge := st.charge + ch, bins := st.bins + bn, jobBins := st.jobBins + bn, jobScrim := bin,
            scrim := if scrim then st.scrim ++ [(k, pic, bin)] else st.scrim }

/-- The CTUs of a row under both guards. -/
def guardRow (i : GuardIn) (pic : Bool) (l : List Ctu) : GuardSt :=
  l.zipIdx.foldl (fun st c => guardCtu i st c.2 c.1)
    { pic := pic, charge := 0, bins := 0, job := 0, jobBins := 0, jobScrim := false, scrim := [] }

end Sys2Proof.Machine
end

