-- ==== Sys2Proof/Machine/EncPlan.lean ====
section
/-! DEFINITION. Admission of encode channels: profiles, latency, entropy engines, stores, commits, re-placement
(R221–R234, R237, R243, R244, R272, R292–R294, R297, R303, R496). -/

namespace Sys2Proof.Machine

/-! ### Channel state -/

/-- A channel that never ran. -/
def EncSt.start : EncSt :=
  { work := none, pend := none, control := none, stopping := false, endAt := none, pics := [], refs := [], fields := [], searched := 0,
    cause := ⟨false, none, false⟩, rateChange := false, next := 0, started := [], first := none, base := 0, codeNext := 0, lastIrap := 0, fs := 0, dacc := 0,
    hist := [], prev := none, recovMap := none, maps := [], sei := none, queue := [], upload := [], moveTo := none, entMove := none,
    psiAt := [], cc := [], disc := false,
    refPics := ⟨0, 0, true, none, []⟩ }

/-- The state of a channel. -/
def State.enc (s : State) (d : MDie) (c : Nat) : EncSt := tabGet (s.md d).enc c EncSt.start

/-- A state with a channel's state changed. -/
def State.updEnc (s : State) (d : MDie) (c : Nat) (f : EncSt → EncSt) : State :=
  s.updMd d (fun m => { m with enc := tabSet m.enc c (f (s.enc d c)) })

/-- ENC.CH.STATE of a channel, with STATUS bit 0. -/
def State.encState (s : State) (d : MDie) (c : Nat) : Nat := s.rdN Obj.encChState d.die c
def State.setEncState (s : State) (d : MDie) (c st : Nat) : State :=
  (s.wr Obj.encChState d.die c (st : Nat)).putBit Obj.encChStatus d.die c 0 (st == 2 || st == 3)

/-- Attributes of a channel's input. -/
def State.encAttr (s : State) (d : MDie) (c : Nat) : Attr :=
  Attr.ofWord (s.rdN Obj.encChFormat d.die c) (s.rdN Obj.encChOfs d.die c) (s.rdN Obj.encChAttr d.die c)

/-! ### Checks (R221, R222, R224, R226, R234, R237, R292) -/

/-- A channel is of the families that may share a context (R221). -/
def smallFamily (fam : Nat) : Bool := decide (1 ≤ fam) && decide (fam ≤ 5)

/-- The context rule of R221. -/
def State.contextOk (s : State) (d : MDie) (c : Nat) : Bool :=
  let k := c - c % 3
  let fam := fun (n : Nat) => (fmt (s.rdN Obj.encChFormat d.die n)).family
  let used := fun (n : Nat) => s.rd Obj.encChEnable d.die n == 1
  if c = k then smallFamily (fam k) || (!used (k + 1) && !used (k + 2))
  else smallFamily (fam c) && (!used k || smallFamily (fam k))

/-- The table of R224: profile, CTU size, level and the codec standard's picture limits; the rates are tested with R272. -/
def State.profileOk (s : State) (d : MDie) (c : Nat) : Bool :=
  let codec := s.rdN Obj.encChCodec d.die c
  let level := s.rdN Obj.encChLevel d.die c
  let k := s.encCtu d c
  let g := s.encGeom d c
  (if codec = 1 then s.rdN Obj.encChProfile d.die c == 0 && (k == 64 || k == 128) else k == 32 || k == 64)
    && levelAdmits level g.w g.h g.np g.dp

/-- The tile rules of R292. -/
def State.tilesOk (s : State) (d : MDie) (c : Nat) : Bool :=
  let g := s.encGeom d c
  g.wave || (decide (g.tiles ≤ g.cols) && levelTiles g.vvc (s.rdN Obj.encChLevel d.die c) g.tiles g.rows
    && (tileWidths g).all (fun n => decide (minTile g.vvc g.ctu ≤ n * g.ctu)))

/-- The structure is allowed in the class (R226). -/
def State.structureOk (s : State) (d : MDie) (c : Nat) : Bool :=
  let st := s.rdN Obj.encChStructure d.die c
  let la := s.rdN Obj.encChClass d.die c == 2
  let n := s.rdN Obj.encChLookahead d.die c
  decide (st < 2) || (st == 2 && la && decide (4 ≤ n)) || (st == 3 && la && n == 8)

/-- D in lines (R234), none outside its range. -/
def State.latencyLines (s : State) (d : MDie) (c : Nat) : Option Nat :=
  let l := (fmt (s.rdN Obj.encChFormat d.die c)).lines
  let lo := 3 * s.encCtu d c + 16
  match s.rdN Obj.encChClass d.die c with
  | 0 =>
    let v := s.rdN Obj.encChLatency d.die c
    let x := if v = 0 then lo else v
    if lo ≤ x ∧ x + 1 ≤ l then some x else none
  | 1 => some l
  | _ => some ((s.rdN Obj.encChLookahead d.die c + 1) * l)

/-- Smallest Bolt buffer in KiB (R237). -/
def State.boltMin (s : State) (d : MDie) (c : Nat) : Nat :=
  ceilDiv (4 * (s.encGeom d c).cols * s.encCtu d c * s.encCtu d c * 3) 1024

/-- Size of the Bolt buffer in bytes. -/
def State.boltBytes (s : State) (d : MDie) (c : Nat) : Nat :=
  let v := s.rdN Obj.encBoltSize d.die c
  (if v = 0 then s.boltMin d c else v) * 1024

/-- The reason of event 0x2003 for which a channel's configuration fails before its resources are asked for. -/
def State.encFault (s : State) (d : MDie) (c : Nat) : Option Nat :=
  let a := s.encAttr d c
  let bolt := s.rdN Obj.encBoltSize d.die c
  let e := s.encEngine d c
  if ¬ s.secOn d secEnt ∨ ¬ ((s.secOn d (secMot 0) ∧ s.secOn d (secPix 0)) ∨ (s.secOn d (secMot 1) ∧ s.secOn d (secPix 1))) ∨
      (e < 2 ∧ ¬ (s.secOn d (secMot e) ∧ s.secOn d (secPix e))) then some 6
  else if ¬ s.contextOk d c then some 5
  else if a.sampling = 2 ∨ ¬ a.valid then some 1
  else if ¬ s.profileOk d c ∨ ¬ s.tilesOk d c then some 2
  else if s.encLive d c ∧ ¬ s.structureOk d c then some 7
  else if s.encLive d c ∧ (s.latencyLines d c).isNone then some 4
  else if bolt ≠ 0 ∧ bolt < s.boltMin d c then some 8
  else none

/-! ### Entropy engines (R293, R294, R297) -/

/-- An entropy job on an engine: channel, cap, row period as a fraction of a second, Live. -/
structure EntJob where
  ch : Nat
  cap : Nat
  rowNum : Nat
  rowDen : Nat
  live : Bool

/-- The job a channel puts on each of its engines. -/
def State.entJob (s : State) (d : MDie) (c : Nat) : EntJob :=
  let p := s.encProducer d c
  { ch := c, cap := s.binCap d c, rowNum := p.rowNum, rowDen := p.rowDen, live := s.encLive d c }

/-- U of an engine in bins per 1,001 × 128 s (R294). -/
def entLoad (l : List EntJob) : Nat := sumOver (l.filter (·.live)) (fun j => ceilDiv (j.cap * j.rowDen * 1001 * 128) j.rowNum)

/-- The shortest row period among Live jobs, with the lowest-numbered channel that has it. -/
def entMin : List EntJob → Option EntJob
  | [] => none
  | j :: l => match entMin l with
    | none => if j.live then some j else none
    | some k =>
      if ¬ j.live then some k
      else if j.rowNum * k.rowDen < k.rowNum * j.rowDen then some j
      else if k.rowNum * j.rowDen < j.rowNum * k.rowDen then some k
      else if j.ch < k.ch then some j else some k

/-- The test of R294, by cross-multiplication. -/
def entAdmitted (l : List EntJob) : Bool :=
  match entMin l with
  | none => true
  | some m =>
    let b := (l.filter (fun j => j.ch != m.ch)).foldl (fun x j => max x j.cap) 0
    decide (entLoad l * m.rowNum + b * 1001 * 128 * m.rowDen ≤ 3000000000 * 1001 * 128 * m.rowNum)

/-- The channels whose jobs an entropy engine runs. -/
def State.entOn (s : State) (d : MDie) (e : Nat) : List Nat := upto 48 (fun c => s.bit Obj.entChEngines d.die c e)

/-- The jobs of an engine. -/
def State.entJobs (s : State) (d : MDie) (e : Nat) : List EntJob := (s.entOn d e).map (s.entJob d)

/-- An engine number placed in a list by ascending load, lower numbers first. -/
def insertLoad (x : Nat × Nat) : List (Nat × Nat) → List (Nat × Nat)
  | [] => [x]
  | y :: l => if x.2 < y.2 ∨ (x.2 = y.2 ∧ x.1 < y.1) then x :: y :: l else y :: insertLoad x l

/-- The engines a channel takes, in ascending number: those with the lowest committed loads that admit a job of it
(R294). -/
def State.entFor (s : State) (d : MDie) (c : Nat) : Option (List Nat) :=
  let t := (s.encGeom d c).tiles
  let ok := upto 8 (fun e => decide (e ∉ (s.md d).entDead) && entAdmitted (s.entJobs d e ++ [s.entJob d c]))
  let order := (ok.map (fun e => (e, entLoad (s.entJobs d e)))).foldr insertLoad []
  let pick := (order.take t).map (·.1)
  if pick.length < t then none else some (upto 8 (fun e => decide (e ∈ pick)))

/-- Engine loads and users follow the assignments (R308). -/
def State.refreshEntropy (s : State) (d : MDie) : State :=
  (List.range 8).foldl (fun (s : State) e =>
    let l := s.entOn d e
    let s := s.wr Obj.entEngLoad d.die e (entLoad (s.entJobs d e) / (1001 * 128) : Nat)
    let s := s.wr Obj.entEngChannels d.die e (sumOver l (fun c => 2 ^ c) : Nat)
    s.putBit Obj.entStatus d.die 0 e (l != [])) s

/-- A channel takes entropy engines (R294). -/
def State.setEntropy (s : State) (d : MDie) (c : Nat) (l : List Nat) : State :=
  (s.wr Obj.entChEngines d.die c (sumOver l (fun e => 2 ^ e) : Nat)).refreshEntropy d

/-! ### Stores (R262, R303, R496) -/

/-- Bytes of a motion field (R261). -/
def fieldBytes (w h : Nat) : Nat := 256 + (h / 8) * (256 * ceilDiv (w / 8 * 8) 256)

/-- Subject index of a channel's stores (R358). -/
def subjEnc : Nat := 0x2001

/-- The stores of a channel and its declared traffic (R496). -/
def State.encStores (s : State) (d : MDie) (c : Nat) (g : EncCfg) : List Nat × Nat :=
  let q := s.encGeom d c
  let wh := q.w * q.h
  let full := s.rdN Obj.encChProfile d.die c == 1
  let pl := wh * 5 / 4
  let pc := if full then 2 * pl else pl * 3 / 2
  let pp := pl * 5 / 16
  let fm := fieldBytes q.w q.h
  let refs := s.rdN Obj.encChRefs d.die c
  let n := if s.rdN Obj.encChClass d.die c = 2 then s.rdN Obj.encChLookahead d.die c + 3 else 3
  let deferred := !s.encLive d c
  let raw := if full then 2 * wh else wh * 3 / 2
  let out := 2 * ((g.cpb + 7) / 8)
  let parts := [n * (pc + pp), (refs + 2) * pc, 6 * fm, s.boltBytes d c, out] ++
    (if deferred then [s.rdN Obj.encDeferDepth d.die c * 2 * raw] else [])
  let r := if g.vbr ∧ g.maxrate ≠ 0 then g.maxrate else g.bitrate
  let traffic := ceilDiv (((3 + refs) * pc + 2 * pl + 3 * pp + 2 * fm) * q.np) q.dp + 8 * s.rdN Obj.entChBinrate d.die c + ceilDiv r 4 +
    (if deferred then ceilDiv (4 * raw * q.np) q.dp else 0)
  (parts, traffic)

/-! ### Commit (R228, R243, R244, R272) -/

/-- A rejected channel commit under event 0x2003. -/
def State.encReject (s : State) (d : MDie) (c reason : Nat) : State :=
  let s := (s.setBit Obj.encSticky d.die 0 0).bump Obj.encCount d.die 0
  let s := (s.setBit Obj.encChSticky d.die c 1).wr Obj.encChReject d.die c (reason : Nat)
  (s.raise d.pdie 0x2003 c (p16 [c, reason])).ans (.rejected 0x2003)

/-- A channel commit rejected under R272. Rates beyond the tier break R224 as well: ENC.CH.REJECT shows its reason 2, and event 0x2201
stands in place of 0x2003 (DEDUCED, assumption 109). -/
def State.rcReject (s : State) (d : MDie) (c reason : Nat) (tier : Bool) : State :=
  let s := if tier then s.wr Obj.encChReject d.die c 2 else s
  let s := (s.setBit Obj.encSticky d.die 0 0).bump Obj.encCount d.die 0
  let s := s.setBit Obj.encChSticky d.die c 1
  let s := (s.setBit Obj.rcSticky d.die 0 0).bump Obj.rcCount d.die 0
  let s := (s.setBit Obj.rcChSticky d.die c 1).wr Obj.rcReject d.die c (reason : Nat)
  (s.raise d.pdie 0x2201 c (p16 [c, reason])).ans (.rejected 0x2201)

/-- What the objects show of an accepted set (R234, R293, R301, R303). -/
def State.showEnc (s : State) (d : MDie) (c : Nat) (g : EncCfg) : State :=
  let q := s.encGeom d c
  let f := fmt (s.rdN Obj.encChFormat d.die c)
  let s := s.wr Obj.encChLatencyNs d.die c (linesNs f ((s.latencyLines d c).getD 0) : Nat)
  let s := s.wr Obj.entChBincap d.die c (s.binCap d c : Nat)
  let s := s.wr Obj.entChOvhNonirap d.die c (overhead q g false false : Nat)
  let s := s.wr Obj.entChOvhIrap d.die c (overhead q g true false : Nat)
  let s := s.wr Obj.entChOvhMax d.die c (overhead q g true true : Nat)
  s.wr Obj.entChOutBytes d.die c (2 * ((g.cpb + 7) / 8) : Nat)

/-- A channel's resources are taken: engine pair, entropy engines, stores (R228, R229, R294). The reason it fails, or the
state. -/
def State.encTake (s : State) (d : MDie) (c : Nat) (g : EncCfg) : Except (State × Nat × Option (Nat × Nat)) State :=
  let q := s.encGeom d c
  if s.binCap d c < sBin q true * widestJob q then .error (s, 3, none)
  else
    let (s1, ok) := s.placeChannel d c
    if ¬ ok then .error (s1, 3, none)
    else
      let ent := if s.rdN Obj.entChEngines d.die c = 0 then (s1.entFor d c).map (s1.setEntropy d c) else some s1
      match ent with
      | none => .error (s, 3, none)
      | some s2 =>
        let (parts, traffic) := s.encStores d c g
        match s2.allocStores d subjEnc c parts traffic with
        | .error e => .error (s, 8, some e)
        | .ok s3 => .ok s3

/-- A channel's shadow set is checked and its resources taken (R228, R244, R272). -/
def State.encCheck (s : State) (d : MDie) (c : Nat) : State × Option EncCfg :=
  let g := s.encShadow d c
  match s.encFault d c with
  | some r => (s.encReject d c r, none)
  | none =>
    let profile := s.rdN Obj.encChProfile d.die c
    let level := s.rdN Obj.encChLevel d.die c
    let tier := s.rdN Obj.encChTier d.die c
    match rcFault (s.encGeom d c) g profile level tier with
    | some r => (s.rcReject d c r (r == 4 && !ratesOk g profile level tier), none)
    | none =>
      match s.encTake d c g with
      | .error (s, r, some (kind, short)) => ((s.encReject d c r).memRefuse d kind subjEnc short, none)
      | .error (s, r, none) => (s.encReject d c r, none)
      | .ok s => (s.showEnc d c g, some g)

/-- A commit or control that misses its switch line (R243, R244). -/
def State.encLate (s : State) (d : MDie) (c : Nat) (late : Bool) : State :=
  if late then (s.setBit Obj.encChSticky d.die c 0).raise d.pdie 0x2004 c (p16 [c]) else s

/-- A channel's set is committed from an instant on (R244). -/
def State.encCommit (s : State) (d : MDie) (c : Nat) (t : Instant) : State × Bool :=
  match s.encCheck d c with
  | (s, none) => (s, false)
  | (s, some g) =>
    let a := s.encAttr d c
    let (land, late) := routeLanding (fmt a.format) a.ofs t false
    let s := (s.updEnc d c (fun x => { x with pend := some (g, land) })).setBit Obj.encChStatus d.die c 1
    (((s.encLate d c late).replaceBorrowers d).ans .ok, true)

/-- A channel is in use (R221). -/
def State.encUsed (s : State) (d : MDie) (c : Nat) : Bool := s.rd Obj.encChEnable d.die c == 1

/-- ENC_CH_COMMIT (R244). A channel that is not in use has nothing to commit. -/
def execEncChCommit (d : Die) (ch : Fin 48) (s : State) : Out :=
  let c := ch.val
  when s.serverUp s (s.mirror d (fun x t s => if s.encUsed x c then (s.encCommit x c t).1 else s))

/-- Controls are accepted in SERVICE, SELVEDGE and RECOVERY (R243). -/
def State.encModes (s : State) : Bool := s.mode == .service || s.mode == .selvedge || s.mode == .recovery

/-- A channel is asked to start or stop from an instant on (R243). -/
def State.encControl (s : State) (d : MDie) (c : Nat) (start : Bool) (t : Instant) : State :=
  let a := s.encAttr d c
  let (land, late) := routeLanding (fmt a.format) a.ofs t false
  let s := s.updEnc d c (fun x => { x with control := some (start, land) })
  (s.setEncState d c (if start then (if s.encState d c = 2 then 2 else 1) else 3)).encLate d c late

/-- A control changes nothing: a start of a running channel, a stop of a stopped one (R243). -/
def State.encIdle (s : State) (d : MDie) (c : Nat) (start : Bool) : Bool :=
  let st := s.encState d c
  !s.encUsed d c || (if start then st == 2 else st == 0)

/-- ENC.CH.CONTROL (R243) on one die, with its status. -/
def State.encControlOn (s : State) (d : MDie) (c : Nat) (start : Bool) (t : Instant) : State :=
  if ¬ s.encModes then s.ans .access
  else if s.encIdle d c start then s.ans (.noEffect (s.encState d c))
  else (s.wr Obj.encChControl d.die c (if start then 1 else 2)).encControl d c start t

/-- A write of ENC.CH.CONTROL (R243, R401). -/
def State.encControlWrite (s : State) (d : Die) (c : Nat) (start : Bool) : State :=
  s.mirror d (fun x t s => s.encControlOn x c start t)

/-- ENC_CH_START (R243). -/
def execEncChStart (d : Die) (ch : Fin 48) (s : State) : Out := when s.serverUp s (s.encControlWrite d ch.val true)

/-- ENC_CH_STOP (R243). -/
def execEncChStop (d : Die) (ch : Fin 48) (s : State) : Out := when s.serverUp s (s.encControlWrite d ch.val false)

/-! ### Leaving CONFIGURE -/

/-- Channels of a die checked and placed in an order. -/
def State.encPlaceAll (s : State) (d : MDie) (l : List Nat) : State × Bool :=
  l.foldl (fun (acc : State × Bool) c =>
    match acc.1.encCheck d c with
    | (s, none) => (s, false)
    | (s, some g) => (s.updEnc d c (fun x => { x with work := some g }), acc.2)) (s, true)

/-- On leaving CONFIGURE channels hold nothing: placements, engines and stores are taken afresh, and map buffers hold zeros after their
allocation (R286). Continuity counters run on (R306). -/
def State.encClear (s : State) (d : MDie) : State :=
  let s := (List.range 48).foldl (fun (s : State) c =>
    if s.encEngine d c < 2 ∨ s.rdN Obj.entChEngines d.die c ≠ 0 then
      ((s.wr Obj.encChEngine d.die c 0xFF).wr Obj.entChEngines d.die c 0).freeStores d subjEnc c
    else s) s
  let s := s.updMd d (fun m => { m with enc := m.enc.map (fun e => (e.1, { EncSt.start with cc := e.2.cc })) })
  (s.refreshEngines d).refreshEntropy d

/-- The Live channels in ascending number, or the Deferred ones (R229). -/
def State.encGroup (s : State) (d : MDie) (live : Bool) : List Nat := (s.encChannels d).filter (fun c => s.encLive d c == live)

/-! ### Re-placement (R231, R265, R297) -/

/-- Channels in the order of R231: Live-0, Live-1, Deferred, each in ascending number. -/
def State.rankOrder (s : State) (d : MDie) : List Nat :=
  let l := (s.encChannels d).filter (fun c => s.encEngine d c < 2 || s.rdN Obj.entChEngines d.die c != 0)
  [0, 1, 2].flatMap (fun p => l.filter (fun c => s.rdN Obj.encChPriority d.die c == p))

/-- A placement of channels afresh, in the order of a list, on the pairs that remain (R231): channel and pair, 0xFF where none fits. -/
def State.planPairs (s : State) (d : MDie) (dead : Nat) (l : List Nat) : List (Nat × Nat) :=
  let s0 := l.foldl (fun (s : State) c => s.wr Obj.encChEngine d.die c 0xFF) s
  let s0 := (List.range 4).foldl (fun (s : State) m => s.wr Obj.motFrcEngine d.die m 0xFF) s0
  let s0 := s0.refreshEngines d
  (l.foldl (fun (acc : State × List (Nat × Nat)) c =>
    let e := (byLoad (acc.1.rdN Obj.encEngLoad d.die 0) (acc.1.rdN Obj.encEngLoad d.die 1)).find? (fun e =>
      e != dead && acc.1.secOn d (secMot e) && acc.1.secOn d (secPix e) && admitted (acc.1.producersOn d e ++ [acc.1.encProducer d c]))
    match e with
    | none => (acc.1, acc.2 ++ [(c, 0xFF)])
    | some e => ((acc.1.wr Obj.encChEngine d.die c (e : Nat)).refreshEngines d, acc.2 ++ [(c, e)])) (s0, [])).2

/-- The placement of every placed channel afresh (R231). -/
def State.replan (s : State) (d : MDie) (dead : Nat) : List (Nat × Nat) := s.planPairs d dead (s.rankOrder d)

/-- The engine pairs of a die that lost a section (R231). -/
def State.lostPairs (s : State) (d : MDie) : List Nat :=
  [0, 1].filter (fun e => s.section d.pdie (secMot e) == 4 || s.section d.pdie (secPix e) == 4)

/-- The channels of a die by rank (R231), and those among them that find no place where a pair is lost. -/
def State.encRanked (s : State) (d : MDie) : List Nat :=
  [0, 1, 2].flatMap (fun p => (s.encChannels d).filter (fun c => s.rdN Obj.encChPriority d.die c == p))
def State.encUnplaced (s : State) (d : MDie) : List Nat :=
  if s.lostPairs d = [] then [] else ((s.planPairs d 0xFF (s.encRanked d)).filter (fun x => x.2 == 0xFF)).map (·.1)

/-- The channels that a configuration places, Live or Deferred, in their order: ascending (R229), or by rank without those that do not fit
where a die comes back in RECOVERY with a pair lost (R231). -/
def State.encOrder (s : State) (d : MDie) (live lost : Bool) : List Nat :=
  if lost then (s.encRanked d).filter (fun c => s.encLive d c == live && decide (c ∉ s.encUnplaced d)) else s.encGroup d live

/-- The assignment of every channel afresh on the entropy engines that remain (R297); an empty list where none fits. -/
def State.entReplan (s : State) (d : MDie) : List (Nat × List Nat) :=
  let l := s.rankOrder d
  let s0 := l.foldl (fun (s : State) c => s.setEntropy d c []) s
  (l.foldl (fun (acc : State × List (Nat × List Nat)) c =>
    match acc.1.entFor d c with
    | none => (acc.1, acc.2 ++ [(c, [])])
    | some e => (acc.1.setEntropy d c e, acc.2 ++ [(c, e)])) (s0, [])).2

/-- Even a Live-0 channel does not fit a plan (R231, R297). -/
def State.liveZeroLost {α : Type} (s : State) (d : MDie) (l : List (Nat × α)) (none_ : α → Bool) : Bool :=
  l.any (fun x => none_ x.2 && s.rdN Obj.encChPriority d.die x.1 == 0)

end Sys2Proof.Machine
end

