-- ==== Sys2Proof/Machine/Bitstream.lean ====
section
/-! DEFINITION. What the bitstream of an encode channel signals: parameter sets, picture headers, SEI, the NAL units of an access unit
(R223, R225, R226, R274, R284, R298–R300). The bytes of a NAL unit are those of its codec standard (assumption 107). -/

namespace Sys2Proof.Machine

open Sys2Proof.Config (Nal NalKind SliceType PicHead ParamSet Vui Hrd Tool)

/-! ### Parameter sets (R223, R225, R274, R292, R299) -/

/-- colour_primaries, transfer_characteristics and matrix_coeffs (R299): COLORIMETRY 0 BT601, 1 BT709, 2 BT2020, 3 BT2100. -/
def colourCodes (a : Attr) : Nat × Nat × Nat :=
  match a.color with
  | 0 => if (fmt a.format).family = 1 then (6, 6, 6) else (5, 6, 5)
  | 1 => (1, 1, 1)
  | _ => (9, match a.tcs with | 1 => 16 | 2 => 18 | _ => 14, 9)

/-- The HRD that a set signals (R274). -/
def hrdOf (c : EncCfg) : Hrd := { rate := rArr c, size := c.cpb, cbr := !c.vbr }

/-- The VUI of a channel (R299). -/
def vuiOf (a : Attr) (g : EncGeom) (full : Bool) (c : EncCfg) : Vui :=
  let (p, t, m) := colourCodes a
  { unitsInTick := g.dp, timeScale := g.np, fieldSeq := interlaced (fmt a.format).family, fullRange := a.range == 1,
    chromaLoc := if full then none else some 2, primaries := p, transfer := t, matrix := m, hrd := hrdOf c }

/-- The tools that the parameter sets signal as disabled (R225). -/
def disabledTools (vvc : Bool) : List Tool :=
  if vvc then
    [.mrl, .isp, .mip, .affine, .gpm, .mmvd, .ciip, .sbTmvp, .smvd, .bcw, .amvr, .explicitMts, .lfnst, .sbt, .dependentQuant, .alfAps,
     .ccAlf, .lmcs, .palette, .ibc, .rpr, .subpictures, .lossless]
  else [.pcm, .lossless, .rext]

/-- The parameter sets of a channel under a set: the conformance window crops the padding of R223. -/
def State.paramSet (s : State) (d : MDie) (c : Nat) (cfg : EncCfg) : ParamSet :=
  let a := s.encAttr d c
  let g := s.encGeom d c
  let (w, h) := pictureSize (fmt a.format).family
  let full := s.rdN Obj.encChProfile d.die c == 1
  { vvc := g.vvc, profile := s.rdN Obj.encChProfile d.die c, high := s.rdN Obj.encChTier d.die c == 1,
    level := s.rdN Obj.encChLevel d.die c, full := full, width := g.w, height := g.h, cropRight := g.w - w, cropBottom := g.h - h,
    ctu := g.ctu, refs := s.rdN Obj.encChRefs d.die c, columns := if g.wave then [] else tileWidths g, disabled := disabledTools g.vvc,
    vui := vuiOf a g full cfg }

/-! ### Picture order and references (R226, R242, R284) -/

/-- The accounts of a stream before its first picture. -/
def EncRefs.start : EncRefs := { idr := 0, irap := 0, irapIdr := true, since := none, dpb := [] }

/-- A reference placed among others by its distance from a picture, nearest first. -/
def insertNear (n : Nat) (x : Nat × Int) : List (Nat × Int) → List (Nat × Int)
  | [] => [x]
  | y :: l => if ((x.1 : Int) - n).natAbs ≤ ((y.1 : Int) - n).natAbs then x :: y :: l else y :: insertNear n x l

/-- The reference pictures open to a picture that is not an IRAP picture (R284): a leading picture of an IDR picture predicts from that
picture alone, one of a CRA picture keeps its references, every other picture looks back as far as the last IRAP picture. -/
def EncRefs.open (x : EncRefs) (nth : Nat) : List (Nat × Int) :=
  if x.irap ≤ nth then x.dpb.filter (fun e => decide (x.irap ≤ e.1))
  else if x.irapIdr then x.dpb.filter (fun e => e.1 == x.irap)
  else x.dpb

/-- The header of a picture of a structure with up to `refs` reference pictures a list (R226): in structure 0 earlier pictures in one
list, in structure 1 in both; in structures 2 and 3 the earlier ones in the first list and the later ones in the second, each taking
the other's where it has none (DEDUCED, assumption 110). -/
def EncRefs.head (x : EncRefs) (st refs nth : Nat) (irap idr : Bool) : PicHead :=
  let near := fun (p : Nat → Bool) => (((x.open nth).filter (fun e => p e.1)).foldr (insertNear nth) []).take refs |>.map (·.2)
  let back := near (fun k => decide (k < nth))
  let ahead := near (fun k => decide (nth < k))
  let kind : NalKind :=
    if irap then (if idr then .idr else .cra) else if x.irap ≤ nth then .trail else if x.irapIdr then .radl else .rasl
  { kind := kind, slice := if irap then .i else if st = 0 then .p else .b, poc := if irap && idr then 0 else (nth : Int) - x.idr,
    list0 := if irap then [] else if back = [] then ahead else back,
    list1 := if irap ∨ st = 0 then [] else if ahead = [] then back else ahead }

/-- The accounts after a picture's coding has started: R300 counts pictures since the last buffering period. -/
def EncRefs.take (x : EncRefs) (nth : Nat) (poc : Int) (irap idr ref : Bool) : EncRefs :=
  let x := if irap then { x with irap := nth, irapIdr := idr, idr := if idr then nth else x.idr, dpb := if idr then [] else x.dpb } else x
  { x with since := some (if irap then 0 else x.since.getD 0 + 1), dpb := if ref then keepNewest 16 (x.dpb ++ [(nth, poc)]) else x.dpb }

/-! ### Access units (R298, R300) -/

/-- Initial removal delay in 90 kHz units (R274): no more than the buffer takes to fill, and 32 bits (PRESUMED, assumption 108). -/
def initialDelay (c : EncCfg) (f : Int) : Nat := min (min (divFlr (f * 90000) (rArr c)).toNat (c.cpb * 90000 / rArr c)) (2 ^ 32 - 1)

/-- The NAL units before slice data (R298, items 1 to 4; R300), with the fullness F at the picture. -/
def leadUnits (p : EncPic) (g : EncGeom) (set : ParamSet) (f : Int) (output : Nat) : List Nal :=
  [.delimiter p.head] ++
  (if p.irap then (if g.vvc then [] else [.vps set]) ++ [.sps set, .pps set] else []) ++
  [.timing (if p.irap then some (initialDelay p.cfg f) else none) p.removal output p.field] ++
  (if p.irap && p.cfg.hdrSei && g.pq then [.hdr p.cfg.mdcv p.cfg.cll] else []) ++
  (match p.user with | some b => [.user b] | none => []) ++
  (if g.vvc && !g.wave then [.pictureHeader p.head] else [])

/-- The NAL units after slice data (R298, items 6 and 7). -/
def tailUnits (p : EncPic) (crc : List Byte) (stop : Bool) : List Nal :=
  (if p.cfg.dph then [.hash crc] else []) ++ (if stop then [.endOfBitstream] else [])

/-- The header part ahead of a row's slice data (R291): a VVC wavefront slice spans the picture and has one header. -/
def rowHeader (p : EncPic) (g : EncGeom) (row : Nat) (qp : Int) (tiles : List Nat) : Option Nal :=
  if g.wave && g.vvc && row != 0 then none
  else some (.sliceHeader p.head (row * g.cols) (g.wave && row != 0) qp (if g.wave then [] else tiles.dropLast))

end Sys2Proof.Machine
end

