-- ==== Sys2Proof/Machine/EncPics.lean ====
section
/-! DEFINITION. Pictures of encode channels: instants, coding order, landing of controls and sets, source rows, motion jobs
(R222, R223, R226, R233–R235, R239, R240, R243–R245, R252–R254, R260–R262, R273). -/

namespace Sys2Proof.Machine

/-! ### Instants (R233–R235) -/

/-- Start of a line of a raster, lines counted from the epoch, in ns rounded up (R73). -/
def lineNs (f : Format) (ofs line : Nat) : Nat :=
  ceilDiv ((line * f.samples + ofs) * f.den * nsPerSec) (f.num * f.perFrame)

/-- First active line of a picture of field `k` (0 progressive). -/
def picFirstLine (fam k : Nat) : Nat := if k = 2 then ((activeLines2 fam).map (·.1)).getD 0 else (activeLines1 fam).1

/-- A frame and field of a picture number (R305). -/
def picOfNum (inter : Bool) (num : Nat) : Nat × Nat := if inter then (num / 2, num % 2 + 1) else (num, 0)

/-- e(r) of R233. -/
def rowEnd (h ctu r : Nat) : Nat := min ((r + 1) * ctu) h

/-- Height of a channel's picture in lines. -/
def State.encLines (s : State) (d : MDie) (c : Nat) : Nat := (pictureSize (fmt (s.rdN Obj.encChFormat d.die c)).family).2

/-- The line at which row `r` of picture `num` ends, counted from the epoch (R233). -/
def State.rowEndLine (s : State) (d : MDie) (c num r : Nat) : Nat :=
  let f := fmt (s.rdN Obj.encChFormat d.die c)
  let (frame, field) := picOfNum (interlaced f.family) num
  frame * f.lines + picFirstLine f.family field - 1 + rowEnd (s.encLines d c) (s.encCtu d c) r

/-- The instant a number of lines after E(r) of a picture. -/
def State.rowInstant (s : State) (d : MDie) (c num r after : Nat) (shift : Int) : Nat :=
  let f := fmt (s.rdN Obj.encChFormat d.die c)
  ((lineNs f (s.rdN Obj.encChOfs d.die c) (s.rowEndLine d c num r + after) : Int) + shift).toNat

/-- S of R235 in lines. -/
def State.encShift (s : State) (d : MDie) (c : Nat) : Nat :=
  if s.rdN Obj.encChClass d.die c = 2 then
    s.rdN Obj.encChLookahead d.die c * (fmt (s.rdN Obj.encChFormat d.die c)).lines
  else 0

/-- The instant at which the window of a stage of a row opens, or with the next stage's number closes (R230, R235): 1 motion, 2 pixel,
3 entropy, 4 entropy completion. -/
def State.windowAt (s : State) (d : MDie) (c : Nat) (p : EncPic) (row stage : Nat) : Nat :=
  s.rowInstant d c p.slot row (s.encShift d c + (stage - 1) * s.encCtu d c + 3) p.shift

/-- A job of a stage has been released (R230, R232): a Deferred channel's jobs have no release instant. -/
def State.released (s : State) (d : MDie) (c : Nat) (p : EncPic) (row stage : Nat) : Bool :=
  !s.encLive d c || decide (s.windowAt d c p row stage ≤ s.now d.pdie)

/-- A Live job has reached its deadline (R230, R239). -/
def State.pastDeadline (s : State) (d : MDie) (c : Nat) (p : EncPic) (row stage : Nat) : Bool :=
  s.encLive d c && decide (s.windowAt d c p row (stage + 1) ≤ s.now d.pdie)

/-! ### Coding order (R226, R235, R252) -/

/-- Pictures of a mini-group of a structure: 1 in structures 0 and 1. -/
def groupSize (structure_ : Nat) : Nat := match structure_ with | 2 => 4 | 3 => 8 | _ => 1

/-- Output positions of a mini-group, 1 to G, in coding order. -/
def codingOrder (g : Nat) : List Nat :=
  match g with
  | 4 => [4, 2, 1, 3]
  | 8 => [8, 4, 2, 1, 3, 6, 5, 7]
  | _ => [1]

/-- Output position, 1 to G, of the picture at an index of the stream; the first picture stands at G alone. -/
def outPos (g i : Nat) : Nat := if i = 0 then g else (i - 1) % g + 1

/-- Coding index of the picture at an index of the stream. -/
def codeIdx (g i : Nat) : Nat :=
  if i = 0 then 0 else 1 + (i - 1) / g * g + ((codingOrder g).findIdx (fun o => o == outPos g i))

/-- G of a channel; a Live channel's structure is checked, a Deferred one uses it as it stands. -/
def State.encGroupSize (s : State) (d : MDie) (c : Nat) : Nat := groupSize (s.rdN Obj.encChStructure d.die c)

/-- A picture is a reference picture of its structure: in a mini-group, the ones at even positions. -/
def isRefPos (g i : Nat) : Bool := g == 1 || outPos g i % 2 == 0

/-- References of the passes of a picture as distances back in output order, negative for a later picture (R252). -/
def searchRefs (g i : Nat) : List Int :=
  if i = 0 then []
  else if g = 1 then [1]
  else
    let o := outPos g i
    if o = g then [2]
    else if o % 2 = 1 then [1, -1]
    else [2, -2]

/-! ### Controls and sets land (R243, R244) -/

/-- A picture of a channel. -/
def State.encPic? (s : State) (d : MDie) (c num : Nat) : Option EncPic := (s.enc d c).pics.find? (fun p => p.num == num)

/-- A state with a picture of a channel changed. -/
def State.updPic (s : State) (d : MDie) (c num : Nat) (f : EncPic → EncPic) : State :=
  s.updEnc d c (fun x => { x with pics := x.pics.map (fun p => if p.num = num then f p else p) })

/-- A row of a picture. -/
def EncPic.row? (p : EncPic) (r : Nat) : Option EncRow := p.rows[r]?

/-- A picture with a row changed. -/
def EncPic.updRow (p : EncPic) (r : Nat) (f : EncRow → EncRow) : EncPic :=
  { p with rows := p.rows.zipIdx.map (fun x => if x.2 = r then f x.1 else x.1) }

/-- A state with a row of a picture changed. -/
def State.updRow (s : State) (d : MDie) (c num r : Nat) (f : EncRow → EncRow) : State := s.updPic d c num (fun p => p.updRow r f)

/-- A channel's stream ends: event 0x2002 (R243). -/
def State.encEnded (s : State) (d : MDie) (c cause : Nat) : State :=
  let s := s.updEnc d c (fun x => { x with endAt := none })
  let s := if (s.enc d c).stopping then (s.setEncState d c 0).updEnc d c (fun x => { x with stopping := false }) else s
  s.raise d.pdie 0x2002 c (p16 [c, cause])

/-- The account of a stream begins (R273, R277, R305). -/
def EncSt.fresh (x : EncSt) (fs : Int) : EncSt :=
  { x with cause := { x.cause with start := true }, next := 0, started := [], first := none, base := x.base + x.next + 16, lastIrap := 0, fs := fs, dacc := 0,
           hist := [], prev := none, refs := [], searched := 0, refPics := EncRefs.start }

/-- Fs at the start of a stream with a percentage of the buffer (R273). -/
def State.startFs (s : State) (d : MDie) (c : Nat) (g : EncCfg) (pct : Nat) : Int :=
  ((g.cpb * pct / 100 * (s.encGeom d c).np : Nat) : Int)

/-- A start lands (R243). -/
def State.encStartLands (s : State) (d : MDie) (c : Nat) : State :=
  match (s.enc d c).work with
  | none => s
  | some g =>
    let fs := s.startFs d c g g.cpbInit
    let s := s.updEnc d c (fun x => { x.fresh fs with control := none, stopping := false })
    let s := s.wr Obj.rcFullness d.die c (fullness (s.encGeom d c) fs)
    (s.setEncState d c 2).raise d.pdie 0x2001 c (p16 [c])

/-- A row is coded: every tile's data is there. -/
def EncRow.coded (r : EncRow) (tiles : Nat) : Bool := decide (r.data.length = tiles)

/-- A stop lands (R243): the last picture in coding order ends the stream. Where its slice data is complete already, as that of a Deferred
channel may be, it takes its end-of-bitstream NAL unit now (R307). -/
def State.encStopLands (s : State) (d : MDie) (c : Nat) : State :=
  let l := (s.enc d c).pics
  let g := s.encGeom d c
  let s := s.updEnc d c (fun x => { x with control := none, stopping := true })
  match l.find? (fun p => l.all (fun q => decide (q.order ≤ p.order))) with
  | none => s.encEnded d c 1
  | some p =>
    (s.updEnc d c (fun x => { x with endAt := some p.num })).updPic d c p.num (fun p =>
      p.updRow (p.rows.length - 1) (fun r =>
        if r.coded g.tiles then { r with tail := r.tail ++ [Config.nalBytes g.vvc .endOfBitstream] } else r))

/-- CHANNEL_CONTROL_LANDING (R243). -/
def execChannelControlLanding (d : MDie) (ch : Fin 48) (s : State) : Out :=
  let c := ch.val
  match (s.enc d c).control with
  | none => .next s
  | some (start, land) =>
    when (s.up d.pdie && s.encModes && decide (land ≤ s.now d.pdie)) s (if start then s.encStartLands d c else s.encStopLands d c)

/-- The objects whose change needs an IRAP picture (R275). -/
def EncCfg.sameRate (a b : EncCfg) : Bool := a.vbr == b.vbr && a.bitrate == b.bitrate && a.maxrate == b.maxrate && a.cpb == b.cpb

/-- ENC_CONFIG_APPLY (R244, R275). -/
def execEncConfigApply (d : MDie) (ch : Fin 48) (s : State) : Out :=
  let c := ch.val
  match (s.enc d c).pend with
  | none => .next s
  | some (g, land) =>
    when (s.up d.pdie && decide (land ≤ s.now d.pdie)) s
      (let rate := match (s.enc d c).work with | some w => !(w.sameRate g) | none => false
       (s.updEnc d c (fun x => { x with work := some g, pend := none, rateChange := x.rateChange || rate })).clrBit
         Obj.encChStatus d.die c 1)

/-! ### Source rows (R222, R223, R235, R240) -/

/-- A sample at 10 bits (R222). -/
def to10 (depth v : Nat) : Nat :=
  match depth with
  | 0 => v * 4
  | 1 => v
  | _ => (clip3 0 1023 (shrRne (v : Int) 2)).toNat

/-- A Loom picture as a picture of a channel at 10 bits and 4:2:2 (R222). -/
def srcImg (a : Attr) (img : Img) (w : Nat) (field : Nat) : Img :=
  let line := fun y x =>
    let p := img (if field = 0 then y else 2 * y + (field - 1)) x
    pixOf (fun k => to10 a.depth (comp p k))
  fun y x => if a.sampling = 0 then line y x else decimate (line y) w x

/-- The 4:2:0 position of a picture: chroma in even rows and columns (R222). -/
def to420 (img : Img) (h : Nat) (y x : Nat) : Pix :=
  let p := img y x
  if y % 2 = 1 ∨ x % 2 = 1 then ⟨p.c0, 0, 0⟩
  else
    let f := fun k => (shrRne ((comp (img (y - 1) x) k + 2 * comp p k + comp (img (min (h - 1) (y + 1)) x) k : Nat) : Int) 2).toNat
    ⟨p.c0, f 1, f 2⟩

/-- Rows of samples `y0` to `y1` of a channel's coded picture, the padding repeated (R223). -/
def codedRows (w h cw y0 y1 : Nat) (img : Img) : Tab Pix :=
  (List.range (y1 - y0)).flatMap (fun j =>
    (List.range cw).map (fun x => (pixKey (y0 + j) x, img (min (y0 + j) (h - 1)) (min x (w - 1)))))

/-- An untouched row. -/
def EncRow.start : EncRow :=
  { stored := false, searched := false, qp := none, ctus := [], force := none, qps := [], scrim := [], bins := 0, charge := 0,
    data := [], hdr := [], lead := [], tail := [], doneAt := 0, released := false }

/-- A picture begins: its set and its rows (R244, R305). -/
def State.encBegin (s : State) (d : MDie) (c num frame field : Nat) (g : EncCfg) : State :=
  let x := s.enc d c
  let n := s.encGroupSize d c
  let first := x.first.getD num
  let i := num - first
  let p : EncPic :=
    { cfg := g, rateNew := x.rateChange, num := num, frame := frame, field := field, idx := i, order := x.base + codeIdx n i,
      slot := first + codeIdx n i, src := [], typed := false, irap := false,
      idr := false, ref := isRefPos n i, nth := x.next, head := ⟨.trail, .p, 0, [], []⟩, removal := 0, ovh := 0, budget := none, guard := false, recov := false, user := none,
      rows := List.replicate (s.encGeom d c).rows EncRow.start, missed := false, shift := 0, hrd := false, filler := 0 }
  s.updEnc d c (fun x =>
    { x with pics := x.pics ++ [p], rateChange := false, next := x.next + 1, first := some first })

/-- A row of a picture is stored; a whole picture's luma becomes a search reference (R235, R251). -/
def State.encStore (s : State) (d : MDie) (c num r : Nat) (img : Img) : State :=
  let q := s.encGeom d c
  let (w, h) := pictureSize (fmt (s.rdN Obj.encChFormat d.die c)).family
  let y1 := if r + 1 = q.rows then q.h else (r + 1) * q.ctu
  let s := s.updPic d c num (fun p => { p.updRow r (fun x => { x with stored := true }) with
    src := p.src ++ codedRows w h q.w (r * q.ctu) y1 img })
  if r + 1 = q.rows then
    match s.encPic? d c num with
    | some p => s.updEnc d c (fun x => { x with refs := keepNewest 18 (tabSet x.refs num p.src) })
    | none => s
  else s

/-- The Live channel's picture and row whose last source line has just ended (R233): raster number, frame, field, row. -/
def State.endedRow (s : State) (d : MDie) (c : Nat) : Option (Nat × Nat × Nat × Nat) :=
  let f := fmt (s.rdN Obj.encChFormat d.die c)
  let at_ := (coordOf f (s.rdN Obj.encChOfs d.die c) (s.now d.pdie)).absLine f
  let frame := (at_ - 1) / f.lines
  let ctu := s.encCtu d c
  let cand := if interlaced f.family then [(2 * frame, frame, 1), (2 * frame + 1, frame, 2)] else [(frame, frame, 0)]
  (cand.flatMap (fun x => (List.range (s.encGeom d c).rows).map (fun r => (x.1, x.2.1, x.2.2, r)))).find? (fun x =>
    frame * f.lines + picFirstLine f.family x.2.2.1 - 1 + rowEnd (s.encLines d c) ctu x.2.2.2 == at_)

/-- The source of a channel stands under a loss policy (R246): its destination holds or shows black. -/
def State.encLossPolicy (s : State) (d : MDie) (c : Nat) : Bool :=
  match s.dstOf d 4 c with
  | some p => s.bit Obj.loomDstStatus d.die p 2 || s.bit Obj.loomDstStatus d.die p 3
  | none => false

/-- A Live channel's row ends (R235). A picture begins with its first row, unless the channel stops. -/
def State.liveRow (s : State) (d : MDie) (c : Nat) (g : EncCfg) (x : Nat × Nat × Nat × Nat) : State :=
  let (num, frame, field, r) := x
  let a := s.encAttr d c
  let s := if r = 0 ∧ (s.encPic? d c num).isNone ∧ ¬ (s.enc d c).stopping then s.encBegin d c num frame field g else s
  match s.encPic? d c num with
  | none => s
  | some p =>
    match p.row? r with
    | none => s
    | some w =>
      if w.stored then s
      else
        let (sw, h) := pictureSize (fmt a.format).family
        let img := srcImg a (s.inputImg d 4 c a frame) sw field
        let img : Img := if s.rdN Obj.encChProfile d.die c = 1 then img else to420 img h
        (s.putBit Obj.encChStatus d.die c 2 (s.encLossPolicy d c)).encStore d c num r img

/-- A Deferred channel stores the next row of the picture at the head of its queue; the picture leaves the queue with its
last row (R232). -/
def State.deferRow (s : State) (d : MDie) (c : Nat) (g : EncCfg) : State :=
  let x := s.enc d c
  match x.queue with
  | [] => s
  | head :: rest =>
    let open_ := x.pics.find? (fun p => p.rows.any (fun r => !r.stored))
    if open_.isNone ∧ x.stopping then s
    else
      let s := if open_.isNone then s.encBegin d c x.next x.next (if interlaced (fmt (s.rdN Obj.encChFormat d.die c)).family then x.next % 2 + 1 else 0) g else s
      match (s.enc d c).pics.find? (fun p => p.rows.any (fun r => !r.stored)) with
      | none => s
      | some p =>
        let r := p.rows.findIdx (fun r => !r.stored)
        let s := s.encStore d c p.num r (fun y x => tabGet head (pixKey y x) ⟨0, 0, 0⟩)
        if r + 1 = p.rows.length then
          (s.updEnc d c (fun x => { x with queue := rest })).wr Obj.encDeferFill d.die c (rest.length : Nat)
        else s

/-- A channel codes: it runs, or its last pictures still do (R243). -/
def State.encCodes (s : State) (d : MDie) (c : Nat) : Bool :=
  s.up d.pdie && (s.encState d c == 2 || s.encState d c == 3 || (s.enc d c).pics != [])

/-- SOURCE_ROW_END (R233, R235). -/
def execSourceRowEnd (d : MDie) (ch : Fin 48) (s : State) : Out :=
  let c := ch.val
  match (s.enc d c).work with
  | none => .next s
  | some g =>
    when (s.up d.pdie && (s.encState d c == 2 || s.encState d c == 3)) s
      (if s.encLive d c then
        match s.endedRow d c with
        | none => s
        | some x => s.liveRow d c g x
       else s.deferRow d c g)

/-- Poisoned data reaches a channel (R240). -/
def State.encPoison (s : State) (d : MDie) (c kind : Nat) : State :=
  let s := if kind = 2 ∧ (((s.enc d c).work).map (·.poisonIrap)).getD false then
    s.updEnc d c (fun x => { x with cause := { x.cause with other := true } }) else s
  ((s.setBit Obj.encChSticky d.die c 4).bump Obj.encChDetCount d.die c).raise d.pdie 0x2008 c (p16 [c, kind])

/-- A step of the time base reaches a channel (R245): rows of the pictures under way keep their instants under the old
time, lines that never arrive are replaced, and the next picture is an IRAP picture on the new raster. -/
def State.encTimeStep (s : State) (d : MDie) (c : Nat) (step : Int) : State :=
  if ¬ (s.encState d c = 2 ∨ s.encState d c = 3) ∨ ¬ s.encLive d c then s
  else
    let a := s.encAttr d c
    let black := a.black
    let s := (s.enc d c).pics.foldl (fun (s : State) p =>
      let s := p.rows.zipIdx.foldl (fun (s : State) r =>
        if r.1.stored then s
        else s.encStore d c p.num r.2 (fun _ _ => pixOf (fun k => to10 a.depth (comp black k)))) s
      s.updPic d c p.num (fun q => { q with shift := q.shift + step })) s
    let s := s.updEnc d c (fun x => { x with cause := { x.cause with other := true }, disc := true, first := none, base := x.base + x.next + 16, lastIrap := 0 })
    ((s.setBit Obj.encChSticky d.die c 2).bump Obj.encChDiscCount d.die c).raise d.pdie 0x2005 c (p16 [c, 1])

/-! ### Motion jobs (R252–R262) -/

/-- A stored luma picture as a plane. -/
def planeOf (w h : Nat) (t : Tab Pix) : Plane := { w := w, h := h, at_ := fun y x => (tabGet t (pixKey y x) ⟨0, 0, 0⟩).c0 }

/-- The stored references of a channel's picture, pass by pass (R252, R253). -/
def State.motionRefs (s : State) (d : MDie) (c num idx : Nat) : List (Nat × Tab Pix) :=
  let x := s.enc d c
  (searchRefs (s.encGroupSize d c) idx).filterMap (fun k =>
    let n := ((num : Int) - k).toNat
    (x.refs.find? (fun e => e.1 == n)).map (fun e => e))

/-- Every picture a search needs is stored, or never will be (R251). -/
def State.refsReady (s : State) (d : MDie) (c num idx : Nat) : Bool :=
  (searchRefs (s.encGroupSize d c) idx).all (fun k =>
    let n := ((num : Int) - k).toNat
    ((s.enc d c).refs.any (fun e => e.1 == n)) || decide (k < 0 ∧ ((s.enc d c).stopping = true ∨ (s.enc d c).first.getD 0 + idx ≠ num)))

/-- The rows of 8 × 8 blocks of a CTU row. -/
def blockRows (h ctu r : Nat) : List Nat := (List.range (ctu / 8)).map (fun k => r * (ctu / 8) + k) |>.filter (fun b => decide (b * 8 < h))

/-- The records of a CTU row of a channel's picture: the first `reached` CTUs searched in full, the others from level `lvl`
(R239, R253–R261). -/
def State.motionRow (s : State) (d : MDie) (c : Nat) (p : EncPic) (r reached lvl : Nat) : State :=
  let q := s.encGeom d c
  let refs := s.motionRefs d c p.num p.idx
  let two := decide (1 < refs.length)
  let cur := planeOf q.w q.h p.src
  let (rf, rk) := match refs with
    | e :: _ => picOfNum (decide (p.field ≠ 0)) e.1
    | [] => (0, 0)
  let new := { MotField.start p.frame p.field q.w q.h (s.enc d c).searched refs.isEmpty two rf rk with irap := p.irap }
  let rows := (blockRows q.h q.ctu r).map (fun b =>
    (b, match refs with
      | [] => List.replicate (q.w / 8) noRefRec
      | e :: _ => searchRow cur (planeOf q.w q.h e.2) p.cfg.lambda p.cfg.confGain b two (reached * (q.ctu / 8)) lvl))
  let fell := sumOver rows (fun x => (x.2.filter (·.fallback)).length)
  let s := s.updEnc d c (fun x =>
    { x with fields := putField x.fields new (fun f => rows.foldl (fun f y => f.putRow y.1 y.2) f),
             searched := if r + 1 = q.rows then (x.searched + 1) % 2 ^ 32 else x.searched })
  let s := s.updRow d c p.num r (fun x => { x with searched := true })
  let s := s.addCount Obj.motChFallbackCount d.die c fell
  if r + 1 = q.rows then s.wr Obj.motChPasses d.die c (refs.length : Nat) else s

/-- A row's motion job may run: the row is stored, the row above it is searched (R255). -/
def EncPic.motionReady (p : EncPic) (r : Nat) : Bool :=
  match p.row? r with
  | none => false
  | some x => x.stored && !x.searched && (r == 0 || ((p.row? (r - 1)).map (·.searched)).getD false)

/-- A motion job of a channel completes. -/
def State.channelMotion (s : State) (d : MDie) (c num r : Nat) : State :=
  match s.encPic? d c num with
  | none => s
  | some p =>
    if p.motionReady r ∧ s.refsReady d c num p.idx ∧ s.released d c p r 1 then s.motionRow d c p r (s.encGeom d c).cols 0 else s

/-- The luma of a stored picture of a chain at 10 bits (R251). -/
def chainPlane (w h : Nat) (t : Tab Pix) : Plane :=
  { w := w, h := h, at_ := fun y x => to10 2 (tabGet t (pixKey (min y (h - 1)) (min x (w - 1))) ⟨0, 0, 0⟩).c0 }

/-- Size of the pictures a chain writes to its converter's store, in whole blocks (R189, R251). -/
def State.storeSize (s : State) (d : MDie) (n : Nat) : Nat × Nat :=
  let (w, h) := activeSize (fmt (s.rdN Obj.cnvChainOutFormat d.die n)).family
  (8 * ceilDiv w 8, 8 * ceilDiv h 8)

/-- The records of a block row of 64 lines of a borrowed search (R252, R253, R264). -/
def State.borrowedRow (s : State) (d : MDie) (n pic r reached lvl : Nat) : State :=
  let x := s.chain d n
  match x.work, (x.store.find? (fun e => e.1 == pic)).map (·.2) with
  | some g, some cur =>
    let fam := (fmt (s.rdN Obj.cnvChainInFormat d.die n)).family
    let (w, h) := s.storeSize d n
    let prev := (x.store.find? (fun e => e.1 + 1 == pic)).map (·.2)
    let (frame, field) := picOfNum (interlaced fam) pic
    let (rf, rk) := if prev.isSome then picOfNum (interlaced fam) (pic - 1) else (0, 0)
    let new := MotField.start frame field w h x.searched prev.isNone false rf rk
    let rows := (blockRows h 64 r).map (fun b =>
      (b, match prev with
        | none => List.replicate (w / 8) noRefRec
        | some t => searchRow (chainPlane w h cur) (chainPlane w h t) g.lambda g.gain b false (reached * 8) lvl))
    s.updChain d n (fun x =>
      { x with fields := putField x.fields new (fun f => rows.foldl (fun f y => f.putRow y.1 y.2) f),
               searched := if (r + 1) * 64 ≥ h then (x.searched + 1) % 2 ^ 32 else x.searched,
               jobs := x.jobs.filter (fun j => !(j.1 == pic && j.2.1 == r)) })
  | _, _ => s

/-- A borrowed motion job that was released completes. -/
def State.borrowedMotion (s : State) (d : MDie) (m pic r : Nat) : State :=
  match s.frcChain d m with
  | none => s
  | some n =>
    if (s.chain d n).jobs.any (fun j => j.1 == pic && j.2.1 == r) then s.borrowedRow d n pic r 1024 0 else s

/-- MOTION_JOB_COMPLETE (R254): a channel's row, or a converter's where `conv` holds. -/
def execMotionJobComplete (d : MDie) (conv : Bool) (n : Fin 48) (pic row : Nat) (s : State) : Out :=
  when (s.up d.pdie) s (if conv then s.borrowedMotion d n.val pic row else s.channelMotion d n.val pic row)

/-- A borrower's job of a block row has been released, or its records are written. -/
def ChainSt.rowTaken (x : ChainSt) (inter : Bool) (pic row : Nat) : Bool :=
  let (frame, field) := picOfNum inter pic
  x.jobs.any (fun j => j.1 == pic && j.2.1 == row) ||
    x.fields.any (fun f => f.frame == frame && f.field == field && f.recs.any (fun e => e.1 / f.blkW == row * 8))

/-- BORROWED_JOB_RELEASE (R194, R264): the chain has written input line e(r) of the first picture of its newest frame that still wants the
row: of an interlaced input each field is a picture. A converter that rides searches nothing. -/
def execBorrowedJobRelease (d : MDie) (conv : Fin 4) (row : Nat) (s : State) : Out :=
  match s.frcChain d conv.val with
  | none => .next s
  | some n =>
    let x := s.chain d n
    let f := fmt (s.rdN Obj.cnvChainInFormat d.die n)
    let inter := interlaced f.family
    let frameOf := fun (pic : Nat) => (picOfNum inter pic).1
    let last := (x.store.getLast?).map (fun e => frameOf e.1)
    match x.store.find? (fun e => some (frameOf e.1) == last && !x.rowTaken inter e.1 row) with
    | none => .next s
    | some (pic, _) =>
      when (s.up d.pdie && decide (s.rdN Obj.motFrcEngine d.die conv.val < 2) && decide (row * 64 < (s.storeSize d n).2)
          && decide (48 ≤ s.rdN Obj.cnvFrcChannel d.die conv.val)) s
        (s.updChain d n (fun x => { x with jobs := x.jobs ++ [(pic, row, s.now d.pdie + linesNs f 67)] }))

/-- BORROWED_JOB_DEADLINE (R267): the job stopped after `reached` CTUs with level `lvl` as the coarsest one searched. -/
def execBorrowedJobDeadline (d : MDie) (conv : Fin 4) (row reached lvl : Nat) (s : State) : Out :=
  match s.frcChain d conv.val with
  | none => .next s
  | some n =>
    match (s.chain d n).jobs.find? (fun j => j.2.1 == row && decide (j.2.2 ≤ s.now d.pdie)) with
    | none => .next s
    | some j =>
      when (s.up d.pdie && decide (lvl ≤ 3)) s
        ((((s.borrowedRow d n j.1 row reached lvl).setBit Obj.motSticky d.die 0 1).bump Obj.motFrcLateCount d.die conv.val).raise d.pdie
          0x2102 conv.val (p16 [conv.val, row]))

end Sys2Proof.Machine
end

