-- ==== Sys2Proof/Machine/EncCode.lean ====
section
/-! DEFINITION. Pixel jobs and rate control of encode channels, key pictures and Gauze maps (R238, R239, R275–R288, R295,
R302). -/

namespace Sys2Proof.Machine

/-- The instant at which the row-0 pixel window of a picture opens (R235, R283); for a Deferred channel the present. -/
def State.pixelOpen (s : State) (d : MDie) (c : Nat) (p : EncPic) : Nat :=
  if s.encLive d c then s.windowAt d c p 0 2 else s.now d.pdie

/-- RC.STATUS follows the recovery maps of a context (R289). -/
def State.refreshRcStatus (s : State) (d : MDie) (c : Nat) : State :=
  let k := c / 3
  s.putBit Obj.rcStatus d.die 0 k ([3 * k, 3 * k + 1, 3 * k + 2].any (fun n => s.bit Obj.rcChStatus d.die n 1))

/-- The recovery map starts with a stream restarted in RECOVERY (R288). -/
def State.recovMapStart (s : State) (d : MDie) (c : Nat) : State :=
  let s := s.updEnc d c (fun x => { x with recovMap := some 0 })
  let s := (s.setBit Obj.rcChStatus d.die c 1).setBit Obj.rcChSticky d.die c 2
  (s.refreshRcStatus d c).raise d.pdie 0x2205 c (p16 [c])

/-- The recovery map ends: `n` pictures were coded under it (R288). -/
def State.recovMapEnd (s : State) (d : MDie) (c n : Nat) : State :=
  let s := s.updEnc d c (fun x => { x with recovMap := none })
  let s := (s.clrBit Obj.rcChStatus d.die c 1).setBit Obj.rcChSticky d.die c 3
  (s.refreshRcStatus d c).raise d.pdie 0x2206 c (payloadOf [(16, c), (32, n)])

/-- Type of a picture for R277: 0 reference, 1 IRAP, 2 non-reference. -/
def EncPic.kind (p : EncPic) : Nat := if p.irap then 1 else if p.ref then 0 else 2

/-- What asks for an IRAP picture at a picture (R284): a request among it, or anything. -/
def State.irapAsked (s : State) (d : MDie) (c : Nat) (p : EncPic) : Bool × Bool :=
  let x := s.enc d c
  let req := match x.cause.request with | some t => decide (t ≤ s.pixelOpen d c p) | none => false
  let key := outPos (s.encGroupSize d c) p.idx == s.encGroupSize d c
  let period := p.cfg.irapPeriod != 0 && decide (p.cfg.irapPeriod ≤ p.idx - x.lastIrap)
  (key && req, key && (req || x.cause.start || x.cause.other || p.rateNew || period))

/-- Coding of a picture starts (R226, R275, R277, R283, R284, R287, R301, R302): type, references, allowance, user data, recovery map. -/
def State.picStart (s : State) (d : MDie) (c : Nat) (p : EncPic) : State :=
  let x := s.enc d c
  let (req, irap) := s.irapAsked d c p
  let idr := irap && (x.cause.start || p.cfg.irapType == 0)
  let open_ := s.pixelOpen d c p
  let user := match x.sei with
    | some t => if t ≤ open_ then some (s.rdBytes Obj.entChSeiUser d.die c) else none
    | none => none
  let head := x.refPics.head (s.rdN Obj.encChStructure d.die c) (s.rdN Obj.encChRefs d.die c) p.nth irap idr
  let s := s.updPic d c p.num (fun q => { q with
    typed := true, irap := irap, idr := idr, ref := q.ref || irap, head := head, removal := x.refPics.since.getD 0,
    ovh := overhead (s.encGeom d c) p.cfg irap user.isSome, recov := x.recovMap.isSome, user := user })
  let cause := x.cause
  let s := s.updEnc d c (fun x => { x with
    cause := if irap then { start := false, request := if req then none else cause.request, other := false }
             else { cause with other := cause.other || p.rateNew },
    lastIrap := if irap then p.idx else x.lastIrap, refPics := x.refPics.take p.nth head.poc irap idr (p.ref || irap), sei := if user.isSome then none else x.sei,
    recovMap := x.recovMap.map (· + 1),
    fields := x.fields.map (fun f => if f.frame = p.frame ∧ f.field = p.field then { f with irap := irap } else f) })
  let s := if req then
      let s := ((s.clrBit Obj.rcChStatus d.die c 2).bump Obj.rcKeyCount d.die c).wr Obj.rcKeyLast d.die c (p.frame : Nat)
      s.raise d.pdie 0x2203 c (payloadOf [(16, c), (48, p.frame)])
    else s
  if user.isSome then (s.clrBit Obj.entChStatus d.die c 1).raise d.pdie 0x2305 c (payloadOf [(16, c), (48, p.frame)]) else s

/-- A picture's budget is set (R275, R276, R288). -/
def State.picBudget (s : State) (d : MDie) (c : Nat) (p : EncPic) : State :=
  let g := s.encGeom d c
  let s := if p.rateNew then
      s.updEnc d c (fun x => { x with fs := min x.fs (p.cfg.cpb * g.np : Nat), dacc := 0 }) else s
  let x := s.enc d c
  let t := pictureBudget g p.cfg x.fs x.dacc p.irap p.ref p.ovh
  let s := (s.updPic d c p.num (fun q => { q with budget := some t })).wr Obj.rcTarget d.die c t
  match x.recovMap with
  | some n =>
    if p.recov ∧ divFlr (p.cfg.cpb * p.cfg.cpbTarget) 100 ≤ fullness g x.fs then s.recovMapEnd d c n else s
  | none => s

/-- Exact bits of a row: its slice data (R238, R271). -/
def EncRow.bits (r : EncRow) : Nat := 8 * sumOver r.data (fun e => e.2.length)

/-- Sums over rows `a` to `b - 1` of a picture. -/
def EncPic.sumRows (p : EncPic) (a b : Nat) (f : EncRow → Nat) : Nat := sumOver ((p.rows.take b).drop a) f

/-- The counters and notices of the CTUs that entered Scrim (R282, R295). -/
def State.scrimReport (s : State) (d : MDie) (c : Nat) (p : EncPic) (r : Nat) (old : List Nat) (st : GuardSt) : State :=
  let new := st.scrim.filter (fun x => decide (x.1 ∉ old))
  let s := s.addCount Obj.rcScrimCount d.die c new.length
  let s := match p.guard, st.scrim.find? (fun x => x.2.1) with
    | false, some x =>
      let was := s.bit Obj.rcChSticky d.die c 0
      let s := ((s.setBit Obj.rcChSticky d.die c 0).setBit Obj.rcChStatus d.die c 0).setBit Obj.rcSticky d.die 0 1
      let s := s.bump Obj.rcScrimPicCount d.die c
      if was then s else s.raise d.pdie 0x2202 c (p16 [c, r, x.1])
    | _, _ => s
  let bin := new.filter (fun x => x.2.2)
  match bin.head? with
  | none => s
  | some x =>
    let was := s.bit Obj.entChSticky d.die c 1
    let s := (s.addCount Obj.entChBinscrimCount d.die c bin.length).setBit Obj.entChSticky d.die c 1
    if was then s else s.raise d.pdie 0x2302 c (p16 [c, r, x.1])

/-- The guards over a row and what follows (R280–R282, R287, R295): the row's CTUs with their QP, Scrim, charge, bins. -/
def State.codeRow (s : State) (d : MDie) (c : Nat) (p : EncPic) (r : Nat) (q : Int) (ctus : List Ctu) (force : Nat) : State :=
  let g := s.encGeom d c
  let x := s.enc d c
  let h : Int := if 2 ≤ r then fullness g x.fs - p.ovh else (aFloor g p.cfg : Int) - p.ovh
  let i : GuardIn :=
    { geom := g, irap := p.irap, row := r, limit := h, exact := p.sumRows 0 (r - 2) EncRow.bits,
      before := p.sumRows (r - 2) r (·.charge), cap := s.binCap d c, force := force }
  let st := guardRow i p.guard ctus
  let old := ((p.row? r).map (·.scrim)).getD []
  let sc := st.scrim.map (·.1)
  let qps := (List.range g.cols).map (fun j =>
    if j ∈ sc then none else some (clip3 p.cfg.qpMin p.cfg.qpMax (q + gauzeOfs g p.cfg p.recov x.maps r j)))
  let s := s.updPic d c p.num (fun y => { y.updRow r (fun w => { w with
    qp := some q, ctus := ctus, qps := qps, scrim := sc, bins := st.bins, charge := st.charge }) with guard := st.pic })
  let s := s.updEnc d c (fun y => { y with
    started := y.started.map (fun e => if e.1 = p.num ∧ e.2.1 = r then (e.1, e.2.1, e.2.2.1, st.bins) else e) })
  s.scrimReport d c p r old st

/-- A picture may take its pixel jobs now: the ones before it in coding order have started every row. -/
def State.codingTurn (s : State) (d : MDie) (c : Nat) (p : EncPic) : Bool :=
  let x := s.enc d c
  let open_ := fun (q : EncPic) => q.rows.any (fun r => r.qp.isNone)
  let low := if p.order < x.base then p.order else max x.codeNext x.base
  (x.pics.filter (fun q => decide (q.order < p.order))).all (fun q => !open_ q) && (decide (p.order ≤ low) || x.stopping)

/-- Row at whose pixel job a picture's budget is set (R276). -/
def budgetRow (rows : Nat) : Nat := if rows < 3 then rows - 1 else 2

/-- The pixel job of a row is ready (R230, R235, R238). -/
def State.pixelReady (s : State) (d : MDie) (c : Nat) (p : EncPic) (r : Nat) : Bool :=
  let x := s.enc d c
  match p.row? r with
  | none => false
  | some w =>
    w.searched && w.qp.isNone && s.released d c p r 2 &&
      (r == 0 || ((p.row? (r - 1)).map (fun v => v.qp.isSome)).getD false) && s.codingTurn d c p &&
      (match x.started with | [e, _, _] => e.2.2.1.isSome | _ => true) &&
      (r != budgetRow p.rows.length || decide (p.rows.length < 3) ||
        (x.pics.filter (fun q => decide (q.order < p.order))).all (·.hrd))

/-- The deadlines of a Live channel's pixel jobs that are ready. -/
def State.pixelDeadlines (s : State) (d : MDie) (c : Nat) : List Nat :=
  (s.enc d c).pics.flatMap (fun p => ((List.range p.rows.length).filter (s.pixelReady d c p)).map (fun r => s.windowAt d c p r 3))

/-- A pixel engine takes the job of a row next (R230): no ready Live job of another channel on the engine comes before it, by deadline, then
Live-0 before Live-1, then by channel; a Deferred job waits for every ready Live one. -/
def State.pixelTurn (s : State) (d : MDie) (c : Nat) (p : EncPic) (r : Nat) : Bool :=
  let rank := fun (n : Nat) => s.rdN Obj.encChPriority d.die n
  let mine := s.windowAt d c p r 3
  (s.channelsOn d (s.encEngine d c)).all (fun n =>
    n == c || !s.encLive d n || (s.pixelDeadlines d n).all (fun t =>
      s.encLive d c && (decide (mine < t) || (mine == t && (decide (rank c < rank n) || (rank c == rank n && decide (c < n)))))))

/-- q(r) (R277, R278). -/
def State.rowQpOf (s : State) (d : MDie) (c : Nat) (p : EncPic) (r : Nat) : Int :=
  let g := s.encGeom d c
  let x := s.enc d c
  if r < 2 then
    match (p.row? 0).bind (·.qp) with
    | some q => q
    | none => qStart p.cfg x.prev p.kind
  else
    let prev := ((p.row? (r - 1)).bind (·.qp)).getD 0
    rowQp g p.cfg (p.sumRows 0 (r - 2) EncRow.bits) (p.sumRows (r - 2) r (·.bins)) (rhoOf x.hist) (p.budget.getD 1) r prev

/-- The Bolt account moves on by a row (R238): the row three back has exact bits and enters the account of rho. -/
def State.boltAccount (s : State) (d : MDie) (c num r : Nat) : State :=
  s.updEnc d c (fun x =>
    match x.started with
    | [e, f, g] =>
      { x with started := [f, g, (num, r, none, 0)], hist := keepNewest 8 (x.hist ++ [(e.2.2.1.getD 0, e.2.2.2)]) }
    | l => { x with started := l ++ [(num, r, none, 0)] })

/-- The last pixel job of a picture has its QP (R277, R282). -/
def State.picQpDone (s : State) (d : MDie) (c num : Nat) : State :=
  match s.encPic? d c num with
  | none => s
  | some p =>
    let avg := qAvg (s.encGeom d c) (p.rows.filterMap (·.qp))
    let s := s.updEnc d c (fun x => { x with prev := some (avg, p.kind), codeNext := p.order + 1 })
    let s := s.wr Obj.rcQpLast d.die c avg
    if p.guard then s else s.clrBit Obj.rcChStatus d.die c 0

/-- A pixel job starts (R238, R275–R288). -/
def State.pixelJob (s : State) (d : MDie) (c num r : Nat) (ctus : List Ctu) : State :=
  match s.encPic? d c num with
  | none => s
  | some p0 =>
    if ¬ (s.pixelReady d c p0 r ∧ s.pixelTurn d c p0 r ∧ ctus.length = (s.encGeom d c).cols) then s
    else
      let s := if r = 0 then s.picStart d c p0 else s
      let s := s.boltAccount d c num r
      let s := match s.encPic? d c num with
        | some p => if r = budgetRow p.rows.length then s.picBudget d c p else s
        | none => s
      match s.encPic? d c num with
      | none => s
      | some p =>
        let q := s.rowQpOf d c p r
        let force := ((p.row? r).bind (·.force)).getD ctus.length
        let s := s.codeRow d c p r q ctus force
        if r + 1 = p.rows.length then s.picQpDone d c num else s

/-- PIXEL_JOB_START (R238): the CTUs of the row as the pixel engine forms them, in order. -/
def execPixelJobStart (d : MDie) (ch : Fin 48) (pic row : Nat) (ctus : List Ctu) (s : State) : Out :=
  when (s.encCodes d ch.val) s (s.pixelJob d ch.val pic row ctus)

/-! ### Missed windows (R239) -/

/-- What every missed window leaves (R239). -/
def State.windowMissed (s : State) (d : MDie) (c num stage r : Nat) : State :=
  let s := s.updPic d c num (fun p => { p with missed := true })
  ((s.setBit Obj.encChSticky d.die c 3).bump Obj.encChDetCount d.die c).raise d.pdie 0x2006 c (p16 [c, stage, r])

/-- STAGE_WINDOW_MISS (R239): a motion (1) or pixel (2) stage had done `reached` CTUs of a row at its window's end; for
motion `lvl` is the coarsest level searched, 3 for none. -/
def execStageWindowMiss (d : MDie) (ch : Fin 48) (stage : Fin 3) (pic row reached lvl : Nat) (s : State) : Out :=
  let c := ch.val
  match s.encPic? d c pic with
  | none => .next s
  | some p =>
    match p.row? row with
    | none => .next s
    | some w =>
      if stage.val = 1 then
        when (s.encCodes d c && s.pastDeadline d c p row 1 && p.motionReady row && decide (lvl ≤ 3) && s.refsReady d c pic p.idx) s
          ((s.motionRow d c p row reached (if lvl = 0 then 3 else lvl)).windowMissed d c pic 1 row)
      else if stage.val = 2 then
        when (s.encCodes d c && s.pastDeadline d c p row 2 && w.stored && w.data == []) s
          (let s := s.updRow d c pic row (fun w => { w with force := some reached })
           let s := match w.qp with
             | some q => s.codeRow d c p row q w.ctus reached
             | none => s
           s.windowMissed d c pic 2 row)
      else .next s

/-! ### Requests (R283, R286, R302) -/

/-- A key-picture request reaches a channel at an instant (R283, R284). -/
def State.keyRequest (s : State) (d : MDie) (c t : Nat) : State :=
  if ((s.enc d c).cause.request).isSome then s.bump Obj.rcKeyMerged d.die c
  else (s.updEnc d c (fun x => { x with cause := { x.cause with request := some t } })).setBit Obj.rcChStatus d.die c 2

/-- RC_KEY_REQUEST (R283): rejected while the channel is not running. -/
def execRcKeyRequest (d : Die) (ch : Fin 48) (s : State) : Out :=
  let c := ch.val
  when s.serverUp s (s.mirror d (fun x t s => if s.encState x c = 2 then (s.keyRequest x c t.ceilNs).ans .ok else s.ans .access))

/-- A user data SEI is asked for from an instant on; a second request is merged into the first (R302). -/
def State.seiSend (s : State) (d : MDie) (c t : Nat) : State :=
  (s.updEnc d c (fun x => { x with sei := some (x.sei.getD t) })).setBit Obj.entChStatus d.die c 1

/-- ENT_CH_SEI_USER_SEND (R302). -/
def execEntChSeiUserSend (d : Die) (ch : Fin 48) (s : State) : Out :=
  when s.serverUp s (s.mirror d (fun x t s => (s.seiSend x ch.val t.ceilNs).ans .ok))

/-- Bytes of a channel's Gauze map (R286). -/
def mapBytes (g : EncGeom) : Nat := g.rows * ((g.cols + 1) / 2)

/-- A Gauze buffer is in use: named by the working or the pending set, or the recovery map in use (R286). -/
def State.mapInUse (s : State) (d : MDie) (c slot : Nat) : Bool :=
  let x := s.enc d c
  if slot = 2 then x.recovMap.isSome
  else ((x.work.map (fun g => g.gzSelect == slot)).getD false) || ((x.pend.map (fun g => g.1.gzSelect == slot)).getD false)

/-- RC_GZ_MAP_DATA_WRITE (R286). -/
def execRcGzMapDataWrite (d : MDie) (ch : Fin 48) (data : List Byte) (s : State) : Out :=
  let c := ch.val
  let slot := s.rdN Obj.rcGzMapSlot d.die c
  let ofs := s.rdN Obj.rcGzMapOffset d.die c
  let n := mapBytes (s.encGeom d c)
  when s.serverUp s (s.mirror d.die (fun d _ s =>
    if s.mapInUse d c slot then s.ans .access
     else if n < ofs + data.length then s.ans .range
     else
       let s := s.updEnc d c (fun x =>
         { x with maps := tabSet x.maps slot (overlay (tabGet x.maps slot (List.replicate n 0)) ofs data) })
       (s.wr Obj.rcGzMapOffset d.die c (ofs + data.length : Nat)).ans .ok))

/-! ### Deferred queue (R232) -/

/-- ENC.DEFER.FEED of a channel: its kind and number. -/
def State.deferFeed (s : State) (d : MDie) (c : Nat) : Nat × Nat :=
  let v := s.rdN Obj.encDeferFeed d.die c
  (v / 4096, v % 4096)

/-- The Deferred queue of a channel is full. -/
def State.deferFull (s : State) (d : MDie) (c : Nat) : Bool := decide (s.rdN Obj.encDeferDepth d.die c ≤ (s.enc d c).queue.length)

/-- ENC_DEFER_DATA_WRITE (R232). -/
def execEncDeferDataWrite (d : MDie) (ch : Fin 48) (data : List Byte) (s : State) : Out :=
  let c := ch.val
  when s.serverUp s (s.mirror d.die (fun d _ s =>
    if s.encLive d c ∨ (s.deferFeed d c).1 ≠ 1 ∨ s.deferFull d c then s.ans .access
     else (s.updEnc d c (fun x => { x with upload := x.upload ++ data })).ans .ok))

/-- Width and height of a picture's chroma planes: 4:2:2 or 4:2:0 (R222). -/
def chromaSize (full : Bool) (w h : Nat) : Nat × Nat := (w / 2, if full then h else h / 2)

/-- An uploaded picture: planar 16-bit words, luma, Cb, Cr (R232). -/
def uploadedPicture (b : List Byte) (full : Bool) (w h : Nat) : Tab Pix :=
  let (cw, ch) := chromaSize full w h
  let word := fun n => fieldAt b (2 * n) 2 % 1024
  tabulate w h (fun y x =>
    let v := if full then y else y / 2
    if x % 2 = 1 ∨ (¬ full ∧ y % 2 = 1) then ⟨word (y * w + x), 0, 0⟩
    else ⟨word (y * w + x), word (w * h + v * cw + x / 2), word (w * h + cw * ch + v * cw + x / 2)⟩)

/-- ENC_DEFER_PUSH (R232). -/
def execEncDeferPush (d : MDie) (ch : Fin 48) (s : State) : Out :=
  let c := ch.val
  let (w, h) := pictureSize (fmt (s.rdN Obj.encChFormat d.die c)).family
  let full := s.rdN Obj.encChProfile d.die c == 1
  let (cw, chh) := chromaSize full w h
  when s.serverUp s (s.mirror d.die (fun d _ s =>
    if s.encLive d c ∨ (s.deferFeed d c).1 ≠ 1 ∨ s.deferFull d c then s.ans .access
     else if (s.enc d c).upload.length ≠ 2 * (w * h + 2 * cw * chh) then s.ans .range
     else
       let s := s.updEnc d c (fun x => { x with queue := x.queue ++ [uploadedPicture x.upload full w h], upload := [] })
       (s.wr Obj.encDeferFill d.die c ((s.enc d c).queue.length : Nat)).ans .ok))

end Sys2Proof.Machine
end

