-- ==== Sys2Proof/Machine/Ts.lean ====
section
/-! DEFINITION. MPEG-2 transport stream packets (R306): what the table of R306 says, in the layout of ISO/IEC 13818-1
(PRESUMED). -/

namespace Sys2Proof.Machine

/-- One byte into the CRC-32 of PSI sections. -/
def crcMpegByte (c : Nat) (b : Byte) : Nat :=
  let step := fun (x : Nat) => if x / 2 ^ 31 % 2 = 1 then (2 * x % 2 ^ 32) ^^^ 0x04C11DB7 else 2 * x % 2 ^ 32
  let x := c ^^^ (b.toNat * 2 ^ 24)
  step (step (step (step (step (step (step (step x)))))))

/-- The CRC-32 of a PSI section. -/
def crcMpeg (l : List Byte) : Nat := l.foldl crcMpegByte 0xFFFFFFFF

/-- A section with its CRC. -/
def withCrc (l : List Byte) : List Byte := l ++ natBe 4 (crcMpeg l)

/-- The program association section: program and PMT PID (R306). -/
def patSection (tsid : List Byte) (program pmt : Nat) : List Byte :=
  withCrc (natBe 3 0x00B00D ++ tsid ++ natBe 3 0xC10000 ++ natBe 2 program ++ natBe 2 (0xE000 + pmt))

/-- The program map section: one elementary stream, whose PID carries the PCR (R306). -/
def pmtSection (program video : Nat) (vvc : Bool) : List Byte :=
  withCrc (natBe 3 0x02B012 ++ natBe 2 program ++ natBe 3 0xC10000 ++ natBe 2 (0xE000 + video) ++ natBe 2 0xF000 ++
    natBe 1 (if vvc then 0x33 else 0x24) ++ natBe 2 (0xE000 + video) ++ natBe 2 0xF000)

/-- The four bytes that head a packet: payload unit start, PID, adaptation field control, continuity counter. -/
def tsHead (pusi : Bool) (pid afc cc : Nat) : List Byte :=
  natBe 1 0x47 ++ natBe 2 ((if pusi then 0x4000 else 0) + pid) ++ natBe 1 (16 * afc + cc % 16)

/-- A packet that carries a PSI section, padded. -/
def psiPacket (pid cc : Nat) (sec : List Byte) : List Byte :=
  tsHead true pid 1 cc ++ natBe 1 0 ++ sec ++ List.replicate (183 - sec.length) 0xFF

/-- A null packet (PID 0x1FFF). -/
def nullPacket : List Byte := tsHead false 0x1FFF 1 0 ++ List.replicate 184 0xFF

/-- Data as packets of a PID: the first one carries the adaptation field `af` where it is not empty and starts a payload
unit where `pusi` holds; the last one is filled by stuffing in the adaptation field. -/
def tsPackets (pid : Nat) : Nat → Nat → Bool → List Byte → List Byte → List (List Byte)
  | 0, _, _, _, _ => []
  | fuel + 1, cc, pusi, af, data =>
    let room := if af = [] then 184 else 183 - af.length
    let n := min room data.length
    let packet :=
      if n = 184 then tsHead pusi pid 1 cc ++ data.take n
      else
        let len := 183 - n
        let flags := if af = [] then natBe 1 0 else af
        let field := if len = 0 then [] else flags ++ List.replicate (len - flags.length) 0xFF
        tsHead pusi pid 3 cc ++ natBe 1 len ++ field ++ data.take n
    packet :: (if data.length ≤ n then [] else tsPackets pid fuel (cc + 1) false [] (data.drop n))

/-- The adaptation field flags and PCR of a first packet (R306): `t27` is the instant in 27 MHz ticks. -/
def pcrField (disc random : Bool) (t27 : Nat) : List Byte :=
  natBe 1 ((if disc then 0x80 else 0) + (if random then 0x40 else 0) + 0x10) ++
    natBe 6 (t27 / 300 % 2 ^ 33 * 2 ^ 15 + 63 * 2 ^ 9 + t27 % 300)

/-- A 33-bit time stamp of a PES header. -/
def pesStamp (mark v : Nat) : List Byte :=
  natBe 1 (mark * 16 + v / 2 ^ 30 % 8 * 2 + 1) ++ natBe 2 (v / 2 ^ 15 % 2 ^ 15 * 2 + 1) ++ natBe 2 (v % 2 ^ 15 * 2 + 1)

/-- The PES header of an access unit (R306): PTS alone where PTS equals DTS. -/
def pesHeader (pts dts : Nat) : List Byte :=
  natBe 3 1 ++ natBe 1 0xE0 ++ natBe 2 0 ++ natBe 1 0x84 ++
    (if pts = dts then natBe 1 0x80 ++ natBe 1 5 ++ pesStamp 2 pts
     else natBe 1 0xC0 ++ natBe 1 10 ++ pesStamp 3 pts ++ pesStamp 1 dts)

/-- Packets in datagrams of 7, the last one completed with null packets (R306). -/
def tsDatagrams (l : List (List Byte)) : List (List Byte) :=
  (List.range (ceilDiv l.length 7)).map (fun k =>
    let g := (l.drop (7 * k)).take 7
    (g ++ List.replicate (7 - g.length) nullPacket).flatMap (fun x => x))

end Sys2Proof.Machine
end

