-- ==== Sys2Proof/Machine/EncOut.lean ====
section
/-! DEFINITION. Bitstream output of encode channels: entropy jobs, HRD, packets, restarts and re-placement (R231, R233, R273,
R291, R296, R298, R304–R307). -/

namespace Sys2Proof.Machine

/-! ### Entropy jobs and HRD (R273, R291) -/

/-- The entropy job of a tile of a row may complete (R230, R238): its pixel job ran, the tile above it is coded, and the pictures before
it in coding order are coded and in the account; a Live job's window has opened (R235). -/
def State.entropyReady (s : State) (d : MDie) (c : Nat) (p : EncPic) (w : EncRow) (row tile : Nat) : Bool :=
  let above := row == 0 || ((p.row? (row - 1)).map (fun v => v.data.any (fun e => e.1 == tile))).getD false
  s.encCodes d c && w.qp.isSome && decide (tile < (s.encGeom d c).tiles) && !(w.data.any (fun e => e.1 == tile)) && above &&
    (s.enc d c).pics.all (fun q => q.hrd || decide (p.order ≤ q.order)) && s.released d c p row 3

/-- dpb_output_delay of a picture (R300). -/
def dpbDelay (n : Nat) (p : EncPic) : Nat :=
  if n = 1 then 0 else outPos n p.idx - 1 + n - 1 - (codingOrder n).findIdx (fun o => o == outPos n p.idx)

/-- F at a picture whose predecessors are in the account (R273, R275). -/
def State.fullnessAt (s : State) (d : MDie) (c : Nat) (p : EncPic) : Int :=
  let g := s.encGeom d c
  let fs := (s.enc d c).fs
  fullness g (if p.rateNew then min fs (p.cfg.cpb * g.np : Nat) else fs)

/-- A row whose tiles are all coded gets its NAL units (R291, R298): its header part, with row 0 the units before slice data, with the last
row those after it. -/
def State.assembleRow (s : State) (d : MDie) (c : Nat) (p : EncPic) (row : Nat) (crc : List Byte) (w : EncRow) : EncRow :=
  let g := s.encGeom d c
  let bytes := Config.nalBytes g.vvc
  let hdr := (rowHeader p g row (w.qp.getD 0) (w.data.map (fun e => e.2.length))).map bytes
  let lead := leadUnits p g (s.paramSet d c p.cfg) (s.fullnessAt d c p) (dpbDelay (s.encGroupSize d c) p)
  let tail := tailUnits p crc ((s.enc d c).endAt == some p.num)
  { w with doneAt := s.now d.pdie, hdr := hdr.getD [], lead := if row = 0 then lead.map bytes else [], tail := if row + 1 = p.rows.length then tail.map bytes else [] }

/-- ENTROPY_JOB_COMPLETE (R291): slice data of a row, or of a tile of it, and with the last row the two parts (luma, chroma) of what the
decoded picture hash says of the picture; the NAL units around it follow (R298). -/
def execEntropyJobComplete (d : MDie) (ch : Fin 48) (pic row tile : Nat) (data crcLuma crcChroma : List Byte) (s : State) : Out :=
  let c := ch.val
  let g := s.encGeom d c
  match s.encPic? d c pic, (s.encPic? d c pic).bind (fun p => p.row? row) with
  | some p, some w =>
    when (s.entropyReady d c p w row tile) s
      (let w := { w with data := tabSet w.data tile data }
       if w.coded g.tiles then
         (s.updRow d c pic row (fun _ => s.assembleRow d c p row (crcLuma ++ crcChroma) w)).updEnc d c (fun x =>
           { x with started := x.started.map (fun e =>
               if e.1 = pic ∧ e.2.1 = row then (e.1, e.2.1, some w.bits, e.2.2.2) else e) })
       else s.updRow d c pic row (fun _ => w))
  | _, _ => .next s

/-- Bytes of a picture's NAL units (R273). -/
def EncPic.bytes (p : EncPic) : Nat := sumOver p.rows (fun r => r.hdr.length + sumOver r.data (fun e => e.2.length) + sumOver (r.lead ++ r.tail) (·.length))

/-- The HRD account takes a picture (R273). -/
def State.hrdUpdate (s : State) (d : MDie) (c : Nat) (p : EncPic) : State :=
  let g := s.encGeom d c
  let x := s.enc d c
  let (fs, f, dacc) := hrdStep g p.cfg x.fs x.dacc (8 * p.bytes)
  let s := s.updPic d c p.num (fun q => { q with hrd := true, filler := f })
  let s := s.updEnc d c (fun x => { x with fs := fs, dacc := dacc })
  let s := (s.wr Obj.rcFullness d.die c (fullness g fs)).addCount Obj.rcFillerCount d.die c f
  (s.bump Obj.encChCount d.die c).putBit Obj.encChStatus d.die c 3 p.missed

/-- PICTURE_HRD_UPDATE (R273): the first picture in coding order that is not yet in the account, once its last row is
coded. -/
def execPictureHrdUpdate (d : MDie) (ch : Fin 48) (s : State) : Out :=
  let c := ch.val
  let t := (s.encGeom d c).tiles
  let l := (s.enc d c).pics.filter (fun p => !p.hrd)
  match l.find? (fun p => l.all (fun q => decide (p.order ≤ q.order))) with
  | none => .next s
  | some p => when (s.encCodes d c && p.rows.all (fun r => r.coded t)) s (s.hrdUpdate d c p)

/-! ### Packets (R304–R306) -/

/-- Egress flows of a channel (R128). -/
def State.flowsOfChannel (s : State) (d : MDie) (c : Nat) : List Nat :=
  (s.outFlows d).filter (fun f =>
    let b := s.outDesc d f
    decide (descKind b ∈ [5, 6, 7]) && descTarget b == c)

/-- A filler-data NAL unit of `n` bytes (R273). -/
def fillerNal (vvc : Bool) (n : Nat) : List Byte :=
  if n = 0 then []
  else (if vvc then natBe 2 0x00C9 else natBe 2 0x4C01) ++ List.replicate (n - 3) 0xFF ++ natBe 1 0x80

/-- The slice data of a row, tile after tile. -/
def EncRow.slice (r : EncRow) : List Byte := r.data.flatMap (·.2)

/-- NAL units after the last row: those of R298 and the filler (R273). -/
def EncPic.trailing (p : EncPic) (vvc : Bool) (r : EncRow) : List (List Byte) :=
  r.tail ++ (if p.filler = 0 then [] else [fillerNal vvc p.filler])

/-- The RTP payloads of a row (R304). -/
def rowPayloads (g : EncGeom) (limit : Nat) (p : EncPic) (k : Nat) (r : EncRow) : List (List Byte) :=
  let last := k + 1 == p.rows.length
  let lead := aggregate g.vvc limit [] r.lead
  let head := ((p.row? 0).map (·.hdr)).getD []
  let body :=
    if g.vvc ∧ g.wave then
      let data := if k = 0 then (r.hdr ++ r.slice).drop 2 else r.slice
      fragments true limit head data (k == 0) last
    else nalPackets g.vvc limit (r.hdr ++ r.slice)
  lead ++ body ++ (if last then aggregate g.vvc limit [] (p.trailing g.vvc r) else [])

/-- The RTP timestamp of an access unit (R305). -/
def auTimestamp (g : EncGeom) (m : Nat) : Nat := m * 90000 * g.dp / g.np % 2 ^ 32

/-- The packets of a row leave for a flow of KIND 5 or 6 (R304, R305). -/
def State.rtpRow (s : State) (d : MDie) (f : Nat) (g : EncGeom) (p : EncPic) (k : Nat) (r : EncRow) : State :=
  let l := rowPayloads g (s.payloadLimit d f) p k r
  let last := k + 1 == p.rows.length
  l.zipIdx.foldl (fun (s : State) x =>
    s.emit d f (descPt (s.outDesc d f)) (Payload.ofBytes (auTimestamp g p.num) (last && x.2 + 1 == l.length) x.1) none) s

/-- An instant in 27 MHz ticks. -/
def ticks27 (i : Instant) : Nat := i.n * 27 / (i.d * 1000)

/-- The exact release instant of a row (R233), moved by a step of the time base (R245). -/
def State.releaseAt (s : State) (d : MDie) (c : Nat) (p : EncPic) (k : Nat) : Instant :=
  if ¬ s.encLive d c then .ofNs (s.now d.pdie)
  else
    let f := fmt (s.rdN Obj.encChFormat d.die c)
    let line := s.rowEndLine d c p.slot k + (s.latencyLines d c).getD 0
    let i : Instant := ⟨(line * f.samples + s.rdN Obj.encChOfs d.die c) * f.den * nsPerSec, f.num * f.perFrame⟩
    ⟨((i.n : Int) + p.shift * i.d).toNat, i.d⟩

/-- Byte stream of a row: NAL units behind start codes (R306). -/
def rowStream (g : EncGeom) (p : EncPic) (k : Nat) (r : EncRow) : List Byte :=
  let nal := fun (l : List Byte) => natBe 4 1 ++ l
  let last := k + 1 == p.rows.length
  let lead := r.lead.flatMap nal
  let body := if g.vvc ∧ g.wave ∧ k ≠ 0 then r.slice else nal (r.hdr ++ r.slice)
  lead ++ body ++ (if last then (p.trailing g.vvc r).flatMap nal else [])

/-- Continuity counter of a PID of a flow; it runs on (R306). -/
def State.takeCc (s : State) (d : MDie) (c f pid n : Nat) : Nat × State :=
  let v := tabGet (s.enc d c).cc (f * 8192 + pid) 0
  (v, s.updEnc d c (fun x => { x with cc := tabSet x.cc (f * 8192 + pid) ((v + n) % 16) }))

/-- A datagram of a flow of KIND 7 leaves (R306). -/
def State.tsSend (s : State) (d : MDie) (f t27 : Nat) (l : List (List Byte)) : State :=
  (tsDatagrams l).foldl (fun (s : State) b => s.emit d f 33 (Payload.ofBytes (t27 / 300 % 2 ^ 32) false b) none) s

/-- PAT and PMT ahead of an access unit, when due (R306). -/
def State.tsPsi (s : State) (d : MDie) (c f t27 : Nat) (vvc due : Bool) : State :=
  if ¬ due then s
  else
    let program := s.rdN Obj.entTsProgram d.die c
    let pmt := s.rdN Obj.entTsPmtPid d.die c
    let (a, s) := s.takeCc d c f 0 1
    let (b, s) := s.takeCc d c f pmt 1
    let s := s.updEnc d c (fun x => { x with psiAt := tabSet x.psiAt f (s.now d.pdie) })
    s.tsSend d f t27 [psiPacket 0 a (patSection (natBe 2 (Config.streamId d.num f)) program pmt),
      psiPacket pmt b (pmtSection program (s.rdN Obj.entTsVideoPid d.die c) vvc)]

/-- A row as transport stream packets (R306): the packets and the state after them. -/
def State.tsRow (s : State) (d : MDie) (c f : Nat) (g : EncGeom) (p : EncPic) (k : Nat) (r : EncRow) (t27 : Nat) : State :=
  let x := s.enc d c
  let interval := s.rdN Obj.entTsPsiInterval d.die c * 1000000
  let due := k == 0 && (p.irap || (match (x.psiAt.find? (fun e => e.1 == f)).map (·.2) with | some t => decide (t + interval ≤ s.now d.pdie) | none => true))
  let s := s.tsPsi d c f t27 g.vvc due
  let dts := (ticks27 (s.releaseAt d c p (p.rows.length - 1)) / 300 + s.rdN Obj.entTsDelay d.die c) % 2 ^ 33
  let pts := (dts + dpbDelay (s.encGroupSize d c) p * 90000 * g.dp / g.np) % 2 ^ 33
  let data := (if k = 0 then pesHeader pts dts else []) ++ rowStream g p k r
  let af := if k = 0 then pcrField x.disc p.irap t27 else []
  let pid := s.rdN Obj.entTsVideoPid d.die c
  let cc := tabGet (s.enc d c).cc (f * 8192 + pid) 0
  let l := tsPackets pid (data.length + 1) cc (k == 0) af data
  let (_, s) := s.takeCc d c f pid l.length
  s.tsSend d f t27 l

/-- A row's packets leave for every flow of the channel; the first PCR of each after a time step carried the indicator (R306). -/
def State.rowOut (s : State) (d : MDie) (c : Nat) (p : EncPic) (k : Nat) (r : EncRow) (t27 : Nat) : State :=
  let g := s.encGeom d c
  let s := (s.flowsOfChannel d c).foldl (fun (s : State) f =>
    if descKind (s.outDesc d f) = 7 then s.tsRow d c f g p k r t27 else s.rtpRow d f g p k r) s
  if k = 0 then s.updEnc d c (fun x => { x with disc := false }) else s

/-- A row was released; with its last row a picture leaves, and a stopped stream ends (R243). -/
def State.rowDone (s : State) (d : MDie) (c : Nat) (p : EncPic) (k : Nat) : State :=
  let s := s.updRow d c p.num k (fun w => { w with released := true })
  let s := if k = 0 then { s with recov := { s.recov with restarts := s.recov.restarts.filter (fun x => decide (x ≠ (d, c))) } } else s
  if k + 1 = p.rows.length then
    let s := s.updEnc d c (fun x => { x with pics := x.pics.filter (fun q => q.num != p.num) })
    if (s.enc d c).endAt = some p.num then s.encEnded d c 1 else s
  else s

/-- A row can be released: it is coded, the rows before it in the picture and in coding order were released, and with the
last row the filler is known (R230, R273). -/
def State.rowReady (s : State) (d : MDie) (c : Nat) (p : EncPic) (k : Nat) (r : EncRow) : Bool :=
  r.coded (s.encGeom d c).tiles && !r.released && (p.rows.take k).all (·.released) &&
    (s.enc d c).pics.all (fun q => decide (p.order ≤ q.order)) && (k + 1 != p.rows.length || p.hrd)

/-- A row was not complete at the end of its entropy completion window, 3C + 6 lines after E(r) + S (R235, R296). -/
def State.rowLate (s : State) (d : MDie) (c : Nat) (p : EncPic) (row : Nat) (r : EncRow) : Bool :=
  s.encLive d c && decide (s.rowInstant d c p.slot row (s.encShift d c + 3 * s.encCtu d c + 6) p.shift < r.doneAt)

/-- ROW_PACKET_RELEASE (R233): at E(r) + D; a Deferred channel's rows leave as soon as they are coded (R232). -/
def execRowPacketRelease (d : MDie) (ch : Fin 48) (pic row : Nat) (s : State) : Out :=
  let c := ch.val
  match (s.encPic? d c pic), (s.encPic? d c pic).bind (fun p => p.row? row) with
  | some p, some r =>
    let at_ := s.releaseAt d c p row
    when (s.encCodes d c && s.rowReady d c p row r && !s.rowLate d c p row r && decide (at_.ceilNs ≤ s.now d.pdie)) s
      (let s := if row = 0 then s.clrBit Obj.entChStatus d.die c 0 else s
       (s.rowOut d c p row r (ticks27 at_)).rowDone d c p row)
  | _, _ => .next s

/-- LATE_ROW_RELEASE (R296): a row that was not complete at the end of its window leaves once it is complete, at its instant or after
it; the lateness is counted from that instant. -/
def execLateRowRelease (d : MDie) (ch : Fin 48) (pic row : Nat) (s : State) : Out :=
  let c := ch.val
  match (s.encPic? d c pic), (s.encPic? d c pic).bind (fun p => p.row? row) with
  | some p, some r =>
    let at_ := s.releaseAt d c p row
    when (s.encCodes d c && s.rowReady d c p row r && s.rowLate d c p row r && decide (at_.ceilNs ≤ s.now d.pdie)) s
      (let f := fmt (s.rdN Obj.encChFormat d.die c)
       let now := Instant.ofNs (s.now d.pdie)
       let late := ceilDiv ((now.n * at_.d - at_.n) * (f.num * f.lines)) (at_.d * f.den * nsPerSec)
       let was := s.bit Obj.entChSticky d.die c 0
       let s := (s.setBit Obj.entChSticky d.die c 0).setBit Obj.entChStatus d.die c 0
       let s := (s.bump Obj.entChLateCount d.die c).setBit Obj.entSticky d.die 0 0
       let s := s.bump Obj.entCount d.die 0
       let s := if was then s else s.raise d.pdie 0x2301 c (p16 [c, row, late])
       (s.rowOut d c p row r (ticks27 now)).rowDone d c p row)
  | _, _ => .next s

/-! ### Restarts and re-placement (R231, R273, R297, R307) -/

/-- The pictures a lost engine left incomplete are not sent; one that was partly sent is cut short (R231, R307). -/
def State.encCut (s : State) (d : MDie) (c : Nat) : State :=
  let t := (s.encGeom d c).tiles
  let lost := (s.enc d c).pics.filter (fun p => !(p.rows.all (fun r => r.coded t) && p.hrd))
  let s := lost.foldl (fun (s : State) p =>
    if p.rows.any (·.released) then
      (s.setBit Obj.entChSticky d.die c 2).raise d.pdie 0x2304 c (payloadOf [(16, c), (48, p.frame)])
    else s) s
  s.updEnc d c (fun x => { x with pics := x.pics.filter (fun p => p.rows.all (fun r => r.coded t) && p.hrd) })

/-- A stream restarts with an IDR picture (R231, R273, R288). -/
def State.encRestart (s : State) (d : MDie) (c : Nat) : State :=
  match (s.enc d c).work with
  | none => s
  | some g =>
    let fs := s.startFs d c g g.cpbRestart
    let s := s.updEnc d c (fun x => x.fresh fs)
    let s := s.wr Obj.rcFullness d.die c (fullness (s.encGeom d c) fs)
    let s := if s.mode = .recovery ∧ g.gzRecov then s.recovMapStart d c else s
    s.setEncState d c 2

/-- A channel stops for want of capacity (R231, R297): its placements and pictures are gone. -/
def State.encStopCapacity (s : State) (d : MDie) (c : Nat) : State :=
  let s := s.encCut d c
  let s := s.updEnc d c (fun x => { x with moveTo := none, entMove := none, control := none, stopping := false, endAt := none, pics := [] })
  let s := ((s.wr Obj.encChEngine d.die c 0xFF).refreshEngines d).setEntropy d c []
  let s := { s with recov := { s.recov with restarts := s.recov.restarts.filter (fun x => decide (x ≠ (d, c))) } }
  let s := ((s.setEncState d c 0).setBit Obj.encChSticky d.die c 5).setBit Obj.encSticky d.die 0 1
  s.raise d.pdie 0x2002 c (p16 [c, 2])

/-- The next picture boundary of a channel: a switch line of its raster, or for a Deferred channel any instant between
pictures (R231). -/
def State.atPictureBoundary (s : State) (d : MDie) (c : Nat) : Bool :=
  if s.encLive d c then
    let f := fmt (s.rdN Obj.encChFormat d.die c)
    let k := coordOf f (s.rdN Obj.encChOfs d.die c) (s.now d.pdie)
    decide (k.line < (activeLines1 f.family).1)
  else (s.enc d c).pics.all (fun p => p.rows.all (·.stored))

/-- No Live channel of a die waits for its new place. -/
def State.liveMoved (s : State) (d : MDie) : Bool := (s.encChannels d).all (fun c => !s.encLive d c || (s.enc d c).moveTo.isNone)

/-- Borrowers follow once every Live channel has its place (R265). -/
def State.borrowersFollow (s : State) (d : MDie) : State := if s.liveMoved d then s.replaceBorrowers d else s

/-- CHANNEL_REPLACEMENT (R231, R265, R297): at its next picture boundary a channel takes the place that the re-placement found for
it, or stops. A channel whose engine was lost restarts. -/
def execChannelReplacement (d : MDie) (ch : Fin 48) (s : State) : Out :=
  let c := ch.val
  let x := s.enc d c
  when (s.up d.pdie && (x.moveTo.isSome || x.entMove.isSome) && s.atPictureBoundary d c) s
    (let s :=
       if x.moveTo = some 0xFF ∨ x.entMove = some [] then s.encStopCapacity d c
       else
         let s := match x.moveTo with
           | some e => (s.wr Obj.encChEngine d.die c (e : Nat)).refreshEngines d
           | none => s
         let s := match x.entMove with
           | some l => s.setEntropy d c l
           | none => s
         let s := s.updEnc d c (fun x => { x with moveTo := none, entMove := none })
         if s.encState d c = 4 then s.encRestart d c else s
     s.borrowersFollow d)

end Sys2Proof.Machine
end

