-- ==== Sys2Proof/Machine/Converter.lean ====
section
/-! DEFINITION. Pictures into chains, and output pictures of frame stores and frame-rate converters (R149, R177, R190–R194,
R263). -/

namespace Sys2Proof.Machine

/-- DST_SWITCH_LINE (R75, R76, R149, R153, R154): a destination's pending route, its loss policy, and the picture its chain
takes in. -/
def execDstSwitchLine (d : MDie) (dst : Fin 256) (s : State) : Out :=
  when (s.loomOn d) s
    (let s := s.dstSwitchLine d dst.val
     let b := s.rdN Obj.loomDstBind d.die dst.val
     if b / 4096 = 2 then s.chainInput d (b % 4096) else s)

/-- Samples per picture of a raster: a frame's, or half of them for a field. -/
def perPicture (f : Format) : Nat := if interlaced f.family then f.perFrame / 2 else f.perFrame

/-- k before FRC.DELAY is taken off, and ph, of output picture `m` (R190). -/
def frcPosition (fi fo : Format) (oi oo m : Nat) : Int × Nat :=
  let (ni, di) := pictureRate fi
  let (no, do_) := pictureRate fo
  let x : Int := ((m * perPicture fo + oo) * do_ * ni * perPicture fi : Nat) - (oi * no * perPicture fo * di : Nat)
  let dd : Int := (no * perPicture fo * di * perPicture fi : Nat)
  let k := divFlr x dd
  (k, (divFlr ((x - dd * k) * 65536) dd).toNat)

/-- A stored picture. -/
def ChainSt.picture (x : ChainSt) (k : Int) : Option (Tab Pix) := (x.store.find? (fun e => decide ((e.1 : Int) = k))).map (·.2)

/-- The newest stored picture at or before `k` (R193). -/
def ChainSt.newest (x : ChainSt) (k : Int) : Option (Tab Pix) :=
  ((x.store.filter (fun e => decide ((e.1 : Int) ≤ k))).getLast?).map (·.2)

/-- A stored picture at the output depth, black where there is none (R187). -/
def reducedAt (clip : List Byte) (a : Attr) (t : Option (Tab Pix)) (row col : Nat) : Pix :=
  match t with
  | none => a.black
  | some t => reducePix clip (depthBits a.depth) (hasChroma a.sampling col) (pictureAt t ⟨0, 0, 0⟩ row col)

/-- The output picture of a frame store (R177): picture k of each output picture, the newest before it where it is not
stored. -/
def State.storePicture (s : State) (d : MDie) (n : Nat) (g : ChainCfg) (frame : Nat) : State :=
  let a := s.chainIn d n
  let b := s.chainOut d n
  let fi := fmt a.format
  let fo := fmt b.format
  let x := s.chain d n
  let pick := fun m => x.newest ((frcPosition fi fo a.ofs b.ofs m).1 - 1)
  let (w, h) := activeSize fo.family
  let p0 := pick (if interlaced fo.family then 2 * frame else frame)
  let p1 := pick (2 * frame + 1)
  let s := if p0.isSome then s.clrBit Obj.cnvChainStatus d.die n 1 else s
  let out := tabulate w h (fun row col => reducedAt g.cu.clip b (if interlaced fo.family ∧ row % 2 = 1 then p1 else p0) row col)
  s.updChain d n (fun x => { x with shown := x.shown.put frame out })

/-- The motion field of a picture a converter may use (R194, R263): of the channel it rides, or its own. -/
def State.fieldFor (s : State) (d : MDie) (n m : Nat) (k1 : Nat) : Option MotField :=
  let fam := (fmt (s.rdN Obj.cnvChainInFormat d.die n)).family
  let ch := s.rdN Obj.cnvFrcChannel d.die m
  let (frame, field) := picOfNum (interlaced fam) k1
  let l := if ch < 48 then (s.enc d ch).fields else (s.chain d n).fields
  l.find? (fun f => f.complete && f.frame == frame && f.field == field)

/-- A picture falls back whole (R192). -/
def State.frcFallback (s : State) (d : MDie) (m blocks : Nat) : State :=
  let was := s.bit Obj.cnvFrcSticky d.die m 0
  let s := ((s.bump Obj.cnvFrcFallbackCount d.die m).setBit Obj.cnvFrcStatus d.die m 3).setBit Obj.cnvFrcSticky d.die m 0
  if was then s else s.raise d.pdie 0x1710 m (payloadOf [(16, m), (32, blocks)])

/-- Picture k or k + 1 is not stored (R193): the newest one at or before k + 1, or black; after a commit, black and no count
until the store first holds k + 1. -/
def State.frcMissing (s : State) (d : MDie) (n m : Nat) (g : ChainCfg) (k : Int) (frame : Nat) : State :=
  let b := s.chainOut d n
  let (w, h) := activeSize (fmt b.format).family
  let x := s.chain d n
  let ready := x.ready || (x.picture (k + 1)).isSome
  let pic := if ready then x.newest (k + 1) else none
  let s := s.updChain d n (fun x => { x with shown := x.shown.put frame (tabulate w h (reducedAt g.cu.clip b pic)), ready := ready })
  let s := if pic.isSome then s.clrBit Obj.cnvChainStatus d.die n 1 else s
  if ready then
    ((s.setBit Obj.cnvFrcSticky d.die m 1).bump Obj.cnvFrcMissCount d.die m).raise d.pdie 0x1711 m (p16 [m])
  else s

/-- The output picture of a converter between stored pictures `a` (k) and `b` (k + 1) (R191, R192). -/
def State.frcBlend (s : State) (d : MDie) (n m : Nat) (g : ChainCfg) (k : Int) (ph frame : Nat) (pa pb : Tab Pix) : State :=
  let o := s.chainOut d n
  let (w, h) := activeSize (fmt o.format).family
  let blocks := ceilDiv w 8 * ceilDiv h 8
  let field := s.fieldFor d n m (k + 1).toNat
  let low := match field with
    | none => blocks
    | some f => sumOver (List.range (ceilDiv h 8)) (fun y => sumOver (List.range (ceilDiv w 8)) (fun x =>
        if (f.recAt (8 * y) (8 * x)).conf < g.confMin then 1 else 0))
  let whole := field.isNone || decide (g.sceneMax * blocks < low * 100)
  let ia := pictureAt pa ⟨0, 0, 0⟩
  let ib := pictureAt pb ⟨0, 0, 0⟩
  let near := fun row col => if ph < 32768 then ia row col else ib row col
  let at_ := fun row col =>
    match whole, field with
    | false, some f =>
      let r := f.recAt row col
      if g.confMin ≤ r.conf then frcPix ia ib o.sampling w h row col ph r.x r.y
      else if g.fallback = 1 then near row col
      else frcPix ia ib o.sampling w h row col ph 0 0
    | _, _ => near row col
  let out := tabulate w h (fun row col => reducePix g.cu.clip (depthBits o.depth) (hasChroma o.sampling col) (at_ row col))
  let s := (s.updChain d n (fun x => { x with shown := x.shown.put frame out, ready := true })).clrBit Obj.cnvChainStatus d.die n 1
  let s := if field.isNone then (s.setBit Obj.cnvFrcSticky d.die m 2).raise d.pdie 0x1712 m (p16 [m]) else s
  if whole then s.frcFallback d m low else s.clrBit Obj.cnvFrcStatus d.die m 3

/-- FRC_OUTPUT_PICTURE (R177, R190–R193): the picture of the output frame that the chain's raster has reached. -/
def execFrcOutputPicture (d : MDie) (chain : Fin 32) (s : State) : Out :=
  let n := chain.val
  match (s.chain d n).work with
  | none => .next s
  | some g =>
    when (s.up d.pdie && s.secOn d secCnv && s.frameMode d n) s
      (let a := s.chainIn d n
       let b := s.chainOut d n
       let frame := (coordOf (fmt b.format) b.ofs (s.now d.pdie)).frame
       let m := s.rdN Obj.cnvChainFrc d.die n
       if m = 0xFF then s.storePicture d n g frame
       else
         let (q, ph) := frcPosition (fmt a.format) (fmt b.format) a.ofs b.ofs frame
         let k := q - s.rdN Obj.cnvFrcDelay d.die m
         let x := s.chain d n
         match x.picture k, x.picture (k + 1) with
         | some pa, some pb => s.frcBlend d n m g k ph frame pa pb
         | _, _ => s.frcMissing d n m g k frame)

end Sys2Proof.Machine
end

