-- ==== Sys2Proof/Machine/Decoder.lean ====
section
/-! DEFINITION. Decoder contexts (R310–R325): reassembly, CPB, DPB, concealment, output, starts and stops. -/

namespace Sys2Proof.Machine

/-- A context that never ran. -/
def DecSt.start : DecSt :=
  { rx := [], last := none, cpb := [], dpb := [], cvs := 0, active := none, craStart := false, substTold := false, lossTold := false,
    run := 0, field := none, lastOut := 0 }

/-- The state of a context. -/
def State.dec (s : State) (d : MDie) (n : Nat) : DecSt := tabGet (s.md d).dec n DecSt.start

/-- A state with a context's state changed. -/
def State.updDec (s : State) (d : MDie) (n : Nat) (f : DecSt → DecSt) : State :=
  s.updMd d (fun m => { m with dec := tabSet m.dec n (f (s.dec d n)) })

/-- A context is in use and its section is on (R310, R313). -/
def State.decUsed (s : State) (d : MDie) (n : Nat) : Bool := s.up d.pdie && s.secOn d secDec && s.rd Obj.decCtxEnable d.die n == 1

/-- DEC.CTX.STATE. -/
def State.decState (s : State) (d : MDie) (n : Nat) : Nat := s.rdN Obj.decCtxState d.die n
def State.setDecState (s : State) (d : MDie) (n st : Nat) : State :=
  (s.wr Obj.decCtxState d.die n (st : Nat)).putBit Obj.decCtxStatus d.die n 0 (st == 2)

/-- The ingress flow of a context (R310). -/
def State.decFlow (s : State) (d : MDie) (n : Nat) : Option Nat :=
  (s.inFlows d).find? (fun f => decide (descKind (s.inDesc d f) ∈ [5, 6, 7]) && descTarget (s.inDesc d f) == n)

/-- Output of a context: kind and number (R316, R318). -/
def State.decOutput (s : State) (d : MDie) (n : Nat) : Nat × Nat :=
  let v := s.rdN Obj.decCtxOutput d.die n
  (v / 4096, v % 4096)

/-- Declared attributes of a context's output (R312). -/
def State.decAttr (s : State) (d : MDie) (n : Nat) : Attr := Attr.ofWord (s.rdN Obj.decCtxFormat d.die n) 0 (s.rdN Obj.decCtxAttr d.die n)

/-! ### Reassembly (R320) -/

/-- NAL units of an aggregation packet, after its payload header. -/
def apNals : Nat → List Byte → List (List Byte)
  | 0, _ => []
  | fuel + 1, b =>
    let n := fieldAt b 0 2
    if b.length < 2 ∨ b.length < 2 + n then [] else bytesAt b 2 n :: apNals fuel (b.drop (2 + n))

/-- The NAL unit header a fragmentation unit stands for. -/
def fuHeader (vvc : Bool) (b : List Byte) : List Byte :=
  let b0 := fieldAt b 0 1
  let b1 := fieldAt b 1 1
  let t := fieldAt b 2 1 % 64
  if vvc then natBe 1 b0 ++ natBe 1 (t % 32 * 8 + b1 % 8) else natBe 1 (b0 / 128 * 128 + t * 2 + b0 % 2) ++ natBe 1 b1

/-- Reassembly along packets: complete NAL units, an open one, the last sequence number. -/
structure Reasm where
  nals : List (List Byte)
  open_ : Option (List Byte)
  last : Option Nat

/-- One packet: a sequence gap breaks an open NAL unit; single NAL units, aggregation packets, fragmentation units. -/
def Reasm.take (vvc : Bool) (x : Reasm) (r : Rtp) : Reasm :=
  let gap := match x.last with | some n => (n + 1) % 65536 != r.seq | none => false
  let open_ := if gap then none else x.open_
  let b := r.data
  let t := nalType vvc b
  if t = (if vvc then 28 else 48) then { nals := x.nals ++ apNals (b.length + 1) (b.drop 2), open_ := none, last := some r.seq }
  else if t = (if vvc then 29 else 49) then
    let fu := fieldAt b 2 1
    let cur := if fu / 128 = 1 then some (fuHeader vvc b ++ b.drop 3) else open_.map (· ++ b.drop 3)
    if fu / 64 % 2 = 1 then { nals := x.nals ++ cur.toList, open_ := none, last := some r.seq }
    else { nals := x.nals, open_ := cur, last := some r.seq }
  else { nals := x.nals ++ [b], open_ := none, last := some r.seq }

/-- Packets of the first whole access unit of a list, and those after it: it ends with its marker bit, or where the next one
begins, which its timestamp shows (R320). -/
def splitAu (l : List Rtp) : Option (List Rtp × List Rtp) :=
  match l with
  | [] => none
  | p :: _ =>
    let n := l.findIdx (fun r => r.marker || r.ts != p.ts)
    match l[n]? with
    | none => none
    | some r => if r.ts = p.ts then some (l.take (n + 1), l.drop (n + 1)) else some (l.take n, l.drop n)

/-- Transport packets of datagrams. -/
def tsSplit : Nat → List Byte → List (List Byte)
  | 0, _ => []
  | fuel + 1, b => if b.length < 188 then [] else b.take 188 :: tsSplit fuel (b.drop 188)

/-- The payload of a transport packet. -/
def tsPayload (p : List Byte) : List Byte :=
  let afc := fieldAt p 3 1 / 16 % 4
  if afc = 1 then p.drop 4 else if afc = 3 then p.drop (5 + fieldAt p 4 1) else []

/-- A transport packet of a PID that is not scrambled. -/
def tsMine (pid : Nat) (p : List Byte) : Bool := fieldAt p 1 2 % 8192 == pid && fieldAt p 3 1 / 64 == 0

/-- The elementary stream of packets of one PID: `none` marks a break of continuity or a transport error. -/
def tsStream (cc : Option Nat) : List (List Byte) → List (Option Byte)
  | [] => []
  | p :: l =>
    let c := fieldAt p 3 1 % 16
    let start := fieldAt p 1 2 / 16384 % 2 = 1
    let brk := (match cc with | some x => (x + 1) % 16 != c | none => false) || fieldAt p 1 2 / 32768 == 1
    let b := tsPayload p
    (if brk then [none] else []) ++ (if start then b.drop (9 + fieldAt b 8 1) else b).map some ++ tsStream (some c) l

/-- A byte stream cut at its start codes; pieces in reverse order, the present one in reverse. -/
def cutStream (done : List (List (Option Byte))) (cur : List (Option Byte)) : List (Option Byte) → List (List (Option Byte))
  | [] => (cur.reverse :: done).reverse
  | some b :: l =>
    match cur with
    | some 0 :: some 0 :: rest => if b = 1 then cutStream (rest.reverse :: done) [] l else cutStream done (some b :: cur) l
    | _ => cutStream done (some b :: cur) l
  | none :: l => cutStream done (none :: cur) l

/-- Bytes without trailing zeros. -/
def trimZeros (l : List Byte) : List Byte := (l.reverse.dropWhile (· == 0)).reverse

/-- NAL units of an elementary stream, those with a break discarded. -/
def streamNals (l : List (Option Byte)) : List (List Byte) :=
  ((cutStream [] [] l).drop 1).filterMap (fun n => if n.any (·.isNone) then none else some (trimZeros (n.filterMap (fun b => b))))

/-- The first whole access unit of a transport stream, and the packets after it: one PES packet, whole once the next one
starts. -/
def splitPes (pid : Nat) (l : List Rtp) : Option (List (List Byte) × List Rtp) :=
  let b := l.flatMap (·.data)
  let ps := (tsSplit (b.length / 188 + 1) b).filter (tsMine pid)
  let starts := ps.zipIdx.filter (fun p => fieldAt p.1 1 2 / 16384 % 2 == 1)
  match starts.map (·.2) with
  | a :: e :: _ =>
    let au := (ps.drop a).take (e - a)
    let rest := (ps.drop e).flatMap (fun x => x)
    some (streamNals (tsStream none au), (l.getLast?.map (fun r => { r with data := rest })).toList)
  | _ => none

/-- A packet of the context's flow comes to the depacketizer. -/
def State.decPush (s : State) (d : MDie) (n : Nat) (r : Rtp) : State :=
  if s.decUsed d n then s.updDec d n (fun x => { x with rx := x.rx ++ [r] }) else s

/-- Bytes held in a CPB. -/
def cpbBytes (l : List AccessUnit) : Nat := sumOver l (·.size)

/-- DEC.CTX.CPB.FILL follows the CPB. -/
def State.refreshCpb (s : State) (d : MDie) (n : Nat) : State := s.wr Obj.decCtxCpbFill d.die n (cpbBytes (s.dec d n).cpb : Nat)

/-- An access unit is discarded (R319, R320). -/
def State.decDiscard (s : State) (d : MDie) (n : Nat) : State := s.bump Obj.decCtxDiscardCount d.die n

/-- A whole access unit is stored, or discarded: without a complete NAL unit, or when the CPB is full (R320). -/
def State.storeAu (s : State) (d : MDie) (n ts : Nat) (nals : List (List Byte)) : State :=
  let size := sumOver nals (·.length)
  if nals = [] then s.decDiscard d n
  else if s.rdN Obj.decCtxCpbSize d.die n < cpbBytes (s.dec d n).cpb + size then
    let was := s.bit Obj.decCtxSticky d.die n 4
    let s := (s.setBit Obj.decCtxSticky d.die n 4).decDiscard d n
    if was then s else s.raise d.pdie 0x2407 n (p16 [n])
  else
    (s.updDec d n (fun x => { x with cpb := x.cpb ++ [{ ts := ts, nals := nals, size := size, arrival := s.now d.pdie }] })).refreshCpb d n

/-- DECODER_ACCESS_UNIT (R320). -/
def execDecoderAccessUnit (d : MDie) (ctx : Fin 4) (s : State) : Out :=
  let n := ctx.val
  match s.decFlow d n with
  | none => .next s
  | some f =>
    let x := s.dec d n
    let kind := descKind (s.inDesc d f)
    if ¬ s.decUsed d n then .next s
    else if kind = 7 then
      match splitPes (descBits (s.inDesc d f) 156 144) x.rx with
      | none => .next s
      | some (nals, rest) => .next ((s.updDec d n (fun x => { x with rx := rest })).storeAu d n ((x.rx.head?.map (·.ts)).getD 0) nals)
    else
      match splitAu x.rx with
      | none => .next s
      | some (au, rest) =>
        let y := au.foldl (Reasm.take (kind == 6)) { nals := [], open_ := none, last := x.last }
        .next ((s.updDec d n (fun x => { x with rx := rest, last := y.last })).storeAu d n ((au.head?.map (·.ts)).getD 0) y.nals)

/-! ### Output (R317, R318) -/

/-- Rows of a decoded picture as a picture, 8-bit codes brought to 10 bits (R317). -/
def picOfRows (depth : Nat) (l : List (List Pix)) : Tab Pix :=
  l.zipIdx.flatMap (fun r => r.1.zipIdx.map (fun p =>
    (pixKey r.2 p.2, if depth = 8 then pixOf (fun k => comp p.1 k * 4) else p.1)))

/-- A 4:2:0 picture's position at 4:2:2 (R317); chroma row j is held at row 2j. -/
def to422 (loc h : Nat) (t : Tab Pix) (row col : Nat) : Pix :=
  let at_ := fun r => tabGet t (pixKey r col) ⟨0, 0, 0⟩
  let y := (at_ row).c0
  if col % 2 = 1 then ⟨y, 0, 0⟩
  else
    let n := (h + 1) / 2
    let c := fun (j k : Nat) => comp (at_ (2 * min j (n - 1))) k
    let j := row / 2
    let f := fun k =>
      if loc = 2 ∨ loc = 3 then (if row % 2 = 0 then c j k else (shrRne ((c j k + c (j + 1) k : Nat) : Int) 1).toNat)
      else if row % 2 = 0 then (shrRne ((c (j - 1) k + 3 * c j k : Nat) : Int) 2).toNat
      else (shrRne ((3 * c j k + c (j + 1) k : Nat) : Int) 2).toNat
    ⟨y, f 1, f 2⟩

/-- A decoded picture of `w` × `h` at 4:2:2. -/
def DecPic.full (p : DecPic) (w h : Nat) : Tab Pix :=
  if p.chroma = 1 then p.pix else tabulate w h (to422 p.chromaLoc h p.pix)

/-- A picture leaves concealed or clean (R323). -/
def State.noteConcealed (s : State) (d : MDie) (n : Nat) (c : Bool) : State := s.putBit Obj.decCtxStatus d.die n 1 c

/-- The VUI of an output picture against the declared attributes (R317). -/
def State.checkVui (s : State) (d : MDie) (n : Nat) (p : DecPic) : State :=
  let a := s.decAttr d n
  match p.vui with
  | none => s
  | some (col, tcs, rng) =>
    if col = a.color ∧ tcs = a.tcs ∧ rng = a.range then s.clrBit Obj.decCtxStatus d.die n 2
    else
      let told := s.bit Obj.decCtxSticky d.die n 5
      let s := (s.setBit Obj.decCtxStatus d.die n 2).setBit Obj.decCtxSticky d.die n 5
      if told then s else s.raise d.pdie 0x2406 n (p16 [n])

/-- A frame is written to the synchronizers of the context's port (R316). -/
def State.decFrame (s : State) (d : MDie) (port ts : Nat) (pix : Tab Pix) : State :=
  let bond := max 1 (s.rdN Obj.loomSrcBond d.die port)
  let s := s.fsyInput d port false
  (List.range bond).foldl (fun s m =>
    match s.fsyOf d (port + m) with
    | none => s
    | some k =>
      let s := s.fsyStartFrame d k ts
      let s := s.updFsy d k (fun x => { x with writing := x.writing.map (fun p =>
        { p with pix := pix.filter (fun e => decide (e.1 / 16384 % bond = m)) }) })
      s.fsyComplete d k) s

/-- A frame from two fields: the top one gives field 1, the bottom one field 2 (R317). -/
def weave (w h : Nat) (top bottom : Tab Pix) : Tab Pix :=
  tabulate w h (fun row col => tabGet (if row % 2 = 0 then top else bottom) (pixKey (row / 2) col) ⟨0, 0, 0⟩)

/-- A picture of the coded chroma format goes to a Deferred channel's queue (R318). -/
def State.decDefer (s : State) (d : MDie) (n c : Nat) (p : DecPic) (w h : Nat) : State :=
  let full := s.rdN Obj.encChProfile d.die c == 1
  let t := p.full w h
  let img : Img := fun y x => tabGet t (pixKey y x) ⟨0, 0, 0⟩
  let pix := if full then t else if p.chroma = 0 then p.pix else tabulate w h (to420 img h)
  let s := s.updEnc d c (fun x => { x with queue := x.queue ++ [pix] })
  let s := s.wr Obj.encDeferFill d.die c ((s.enc d c).queue.length : Nat)
  if s.deferFull d c then s.setBit Obj.decCtxStatus d.die n 3 else s

/-- A whole frame, or a picture of a progressive format, is output. -/
def State.decOutFrame (s : State) (d : MDie) (n : Nat) (pix : Tab Pix) : State :=
  let (kind, port) := s.decOutput d n
  let (x, s) := s.free 32
  if kind = 1 then s.decFrame d port x pix else s

/-- A frame that has one field takes its lines for the missing one, and counts as concealed (R317, R323). -/
def State.decLoneField (s : State) (d : MDie) (n : Nat) (p : DecPic) : State :=
  let (w, h) := activeSize (fmt (s.rdN Obj.decCtxFormat d.die n)).family
  let t := p.full w (h / 2)
  let s := if p.concealed then s else (s.bump Obj.decCtxConcealCount d.die n).updDec d n (fun x => { x with run := x.run + 1 })
  ((s.updDec d n (fun x => { x with field := none })).noteConcealed d n true).decOutFrame d n (weave w h t t)

/-- A picture is output (R317). -/
def State.decEmit (s : State) (d : MDie) (n : Nat) (p : DecPic) : State :=
  let fam := (fmt (s.rdN Obj.decCtxFormat d.die n)).family
  let (w, h) := activeSize fam
  let s := s.checkVui d n p
  let s := (s.bump Obj.decCtxCount d.die n).updDec d n (fun x => { x with lastOut := s.now d.pdie })
  let s := s.noteConcealed d n p.concealed
  let (kind, c) := s.decOutput d n
  if kind = 2 then s.decDefer d n c p w (if interlaced fam then h / 2 else h)
  else if ¬ interlaced fam then s.decOutFrame d n (p.full w h)
  else
    match (s.dec d n).field with
    | none => s.updDec d n (fun x => { x with field := some p })
    | some q =>
      if q.parity = p.parity then (s.decLoneField d n q).updDec d n (fun x => { x with field := some p })
      else
        let a := q.full w (h / 2)
        let b := p.full w (h / 2)
        let s := (s.updDec d n (fun x => { x with field := none })).noteConcealed d n (p.concealed || q.concealed)
        s.decOutFrame d n (if q.parity = 1 then weave w h a b else weave w h b a)

/-- Output order (R317). -/
def DecPic.before (a b : DecPic) : Bool := decide (a.cvs < b.cvs) || (a.cvs == b.cvs && decide (a.poc < b.poc))

/-- The first waiting picture in output order. -/
def firstOut (l : List DecPic) : Option DecPic :=
  let w := l.filter (·.waiting)
  w.find? (fun p => w.all (fun q => !q.before p))

/-- A picture of the DPB was output; one that is no reference leaves. -/
def DecSt.outDone (x : DecSt) (p : DecPic) : DecSt :=
  let l := x.dpb.map (fun q => if q.cvs = p.cvs ∧ q.poc = p.poc then { q with waiting := false } else q)
  { x with dpb := l.filter (fun q => q.waiting || q.ref) }

/-- The bumping condition (R317): too many pictures wait, one waits too long, or a new sequence began. A full DPB is looked at when the next
picture is decoded. -/
def State.bumps (s : State) (d : MDie) (n : Nat) : Bool :=
  let x := s.dec d n
  let w := x.dpb.filter (·.waiting)
  match x.active with
  | none => false
  | some a =>
    decide (a.reorder < w.length) || (a.latency != 0 && w.any (fun p => decide (a.latency ≤ p.age))) || w.any (fun p => decide (p.cvs < x.cvs))

/-- Every waiting picture is output, in order. -/
def State.decFlush (s : State) (d : MDie) (n : Nat) : Nat → State
  | 0 => s
  | k + 1 => match firstOut (s.dec d n).dpb with
    | none => s
    | some p => ((s.updDec d n (fun x => x.outDone p)).decEmit d n p).decFlush d n k

/-- A Deferred queue holds the context back (R318). -/
def State.decHeld (s : State) (d : MDie) (n : Nat) : Bool := s.bit Obj.decCtxStatus d.die n 3

/-- Pictures are output while the DPB holds `size` of them, before another is decoded (R317); a full Deferred queue ends it (R318). -/
def State.decMakeRoom (s : State) (d : MDie) (n size : Nat) : Nat → State
  | 0 => s
  | k + 1 =>
    match firstOut (s.dec d n).dpb with
    | none => s
    | some p =>
      if (s.dec d n).dpb.length < size ∨ s.decHeld d n then s
      else ((s.updDec d n (fun x => x.outDone p)).decEmit d n p).decMakeRoom d n size k

/-- DECODER_PICTURE_OUTPUT (R317). -/
def execDecoderPictureOutput (d : MDie) (ctx : Fin 4) (s : State) : Out :=
  let n := ctx.val
  match firstOut (s.dec d n).dpb with
  | none => .next s
  | some p =>
    when (s.decUsed d n && s.decState d n == 2 && s.bumps d n && !s.decHeld d n) s
      ((s.updDec d n (fun x => x.outDone p)).decEmit d n p)

/-- DEFER_QUEUE_RESUME (R318): a picture left the Deferred queue. -/
def execDeferQueueResume (d : MDie) (ctx : Fin 4) (s : State) : Out :=
  let n := ctx.val
  when (s.decUsed d n && s.decHeld d n && !(s.deferFull d (s.decOutput d n).2)) s (s.clrBit Obj.decCtxStatus d.die n 3)

/-! ### Decoding (R312, R319–R323) -/

/-- The reason of event 0x2404 for which an SPS does not match (R312). -/
def State.spsFault (s : State) (d : MDie) (n : Nat) (p : Sps) : Option Nat :=
  let fam := (fmt (s.rdN Obj.decCtxFormat d.die n)).family
  let hevc := s.rdN Obj.decCtxCodec d.die n == 0
  let (w, h) := pictureSize fam
  if ¬ (if hevc then p.profile ≤ 2 else p.profile = 1) then some 1
  else if 62 < p.level then some 2
  else if ¬ (p.width = w ∧ p.height = h) then some 3
  else if ¬ ((p.depth = 8 ∨ (p.depth = 10 ∧ p.profile ≠ 0)) ∧ (p.chroma = 0 ∨ (p.chroma = 1 ∧ hevc ∧ p.profile = 2))) then some 4
  else if s.rdN Obj.decCtxDpbPics d.die n ≤ p.buffers then some 5
  else if p.fieldSeq ≠ interlaced fam then some 6
  else none

/-- CPB and DPB are emptied, and the context waits for an IRAP picture (R319). -/
def State.decWait (s : State) (d : MDie) (n : Nat) : State :=
  let s := s.updDec d n (fun x => { x with dpb := [], active := none, craStart := false, field := none, run := 0 })
  s.setDecState d n 1

/-- A stream is unsupported (R324). -/
def State.decUnsupported (s : State) (d : MDie) (n reason : Nat) : State :=
  ((s.decWait d n).setBit Obj.decCtxSticky d.die n 2).raise d.pdie 0x2404 n (p16 [n, reason])

/-- The substitute picture (R322): the decoded picture that is latest in output order. -/
def substitute (l : List DecPic) : Option DecPic := l.find? (fun p => l.all (fun q => !p.before q))

/-- A picture with its lost CTUs replaced by co-located samples of the substitute picture, or by code 512 (R321, R322). -/
def replaceLost (lost : List (Nat × Nat × Nat × Nat × Nat)) (sub : Option DecPic) (t : Tab Pix) : Tab Pix :=
  t.map (fun e =>
    let row := e.1 / 16384
    let col := e.1 % 16384
    if lost.any (fun r => decide (r.1 ≤ row ∧ row < r.1 + r.2.2.1 ∧ r.2.1 ≤ col ∧ col < r.2.1 + r.2.2.2.1)) then
      (e.1, match sub with | some p => tabGet p.pix e.1 ⟨512, 512, 512⟩ | none => ⟨512, 512, 512⟩)
    else e)

/-- References substituted (R322). -/
def State.decSubst (s : State) (d : MDie) (n k : Nat) : State :=
  if k = 0 then s
  else
    let told := s.bit Obj.decCtxSticky d.die n 1 && (s.dec d n).substTold
    let fresh := !s.bit Obj.decCtxSticky d.die n 1
    let s := (s.addCount Obj.decCtxSubstCount d.die n k).setBit Obj.decCtxSticky d.die n 1
    let s := s.updDec d n (fun x => { x with substTold := true, lossTold := if fresh then false else x.lossTold })
    if told then s else s.raise d.pdie 0x2402 n (p16 [n])

/-- Slices replaced (R321). -/
def State.decReplace (s : State) (d : MDie) (n k reason : Nat) : State :=
  if k = 0 then s
  else
    let told := s.bit Obj.decCtxSticky d.die n 1 && (s.dec d n).lossTold
    let fresh := !s.bit Obj.decCtxSticky d.die n 1
    let s := (s.addCount Obj.decCtxErrorCount d.die n k).setBit Obj.decCtxSticky d.die n 1
    let s := s.updDec d n (fun x => { x with lossTold := true, substTold := if fresh then false else x.substTold })
    if told then s else s.raise d.pdie 0x2403 n (p16 [n, reason])

/-- Concealment ends at an IRAP picture (R323). -/
def State.concealEnd (s : State) (d : MDie) (n : Nat) : State :=
  let k := (s.dec d n).run
  if k = 0 then s else (s.updDec d n (fun x => { x with run := 0 })).raise d.pdie 0x2409 n (payloadOf [(16, n), (32, k)])

/-- A picture is decoded into the DPB (R317, R321–R323). -/
def State.decodePicture (s : State) (d : MDie) (n : Nat) (i : AuInfo) (sp : Sps) : State :=
  let s := if i.irap = 1 then s.updDec d n (fun x => { x with cvs := x.cvs + 1, dpb := (x.dpb.map (fun p => { p with ref := false })).filter (·.waiting) }) else s
  let x := s.dec d n
  let held := fun poc => x.dpb.find? (fun p => p.cvs == x.cvs && p.ref && p.poc == poc)
  let missing := (i.refs.filter (fun r => (held r).isNone)).length
  let concealed := decide (0 < missing) || i.lost != [] || i.refs.any (fun r => ((held r).map (·.concealed)).getD false)
  let sub := substitute x.dpb
  let s := (s.decSubst d n missing).decReplace d n i.lost.length ((i.lost.head?.map (·.2.2.2.2)).getD 0)
  let s := if i.irap ≠ 0 ∧ ¬ concealed then s.concealEnd d n else s
  let s := if concealed then (s.bump Obj.decCtxConcealCount d.die n).updDec d n (fun x => { x with run := x.run + 1 }) else s
  let p : DecPic :=
    { cvs := x.cvs, poc := i.poc, waiting := i.output, ref := true, age := 0, concealed := concealed, parity := i.parity,
      chroma := sp.chroma, chromaLoc := i.chromaLoc, depth := sp.depth, vui := i.vui,
      pix := replaceLost i.lost sub (picOfRows sp.depth i.rows) }
  let old := x.dpb.map (fun q => { q with age := q.age + 1, ref := q.ref && q.cvs == x.cvs && decide (q.poc ∈ i.keep) })
  let s := s.updDec d n (fun x => { x with dpb := old.filter (fun q => q.waiting || q.ref) })
  (s.decMakeRoom d n (sp.buffers + 1) old.length).updDec d n (fun x => { x with dpb := x.dpb ++ [p] })

/-- The partner of the pair waits for the access unit the owner named, which lies later (R404). -/
def State.decSkips (s : State) (d : MDie) (n ts : Nat) : Bool :=
  !s.decides d && (match s.decisionFor d 4 n (fun _ => true) with
    | some x => decide (0 < tsDist x.arg2 ts)
    | none => false)

/-- A context starts at an access unit: by its own choice, told to the partner, or by the owner's (R319, R404). -/
def State.decDecide (s : State) (d : MDie) (n ts : Nat) : State :=
  if s.decides d then s.tellDecision d { kind := 4, res := n, frame := (s.coordNow d.pdie).frame, arg1 := 0, arg2 := ts }
  else
    match s.decisionFor d 4 n (fun _ => true) with
    | some x => if x.arg2 = ts then s.dropDecision d x else (s.dropDecision d x).decisionMissed d 4 n
    | none => s.decisionMissed d 4 n

/-- An access unit taken from the CPB is decoded or discarded (R319–R324). -/
def State.decodeAu (s : State) (d : MDie) (n ts : Nat) (i : AuInfo) : State :=
  let s := s.addCount Obj.decCtxErrorCount d.die n i.badNals
  let fault := i.sps.bind (s.spsFault d n)
  match fault with
  | some r => (s.decDiscard d n).decUnsupported d n r
  | none =>
    if s.decState d n ≠ 2 ∧ (i.irap = 0 ∨ i.sps.isNone) then s.decDiscard d n
    else if s.decState d n ≠ 2 ∧ s.decSkips d n ts then s.decDiscard d n
    else
      let begins := s.decState d n != 2
      let s := if begins then s.decDecide d n ts else s
      let s := if begins then
          let s := s.updDec d n (fun x => { x with craStart := i.irap == 2, dpb := [], cvs := x.cvs + 1, lastOut := s.now d.pdie })
          (s.setDecState d n 2).raise d.pdie 0x2401 n (p16 [n])
        else if i.irap ≠ 0 then s.updDec d n (fun x => { x with craStart := false })
        else s
      let s := match i.sps with
        | some p => (s.updDec d n (fun x => { x with active := some p })).wr Obj.decCtxProfile d.die n (p.profileIdc * 256 + p.levelIdc : Nat)
        | none => s
      if i.rasl ∧ (s.dec d n).craStart then s.decDiscard d n
      else match (s.dec d n).active with
        | none => s.decDiscard d n
        | some p => s.decodePicture d n i p

/-- The context whose complete access unit arrived first (R313). -/
def State.decNext (s : State) (d : MDie) : Option (Nat × AccessUnit) :=
  let l := (List.range 4).filterMap (fun n =>
    if s.decUsed d n ∧ ¬ s.decHeld d n then ((s.dec d n).cpb.head?).map (fun a => (n, a)) else none)
  l.find? (fun x => l.all (fun y => decide (x.2.arrival ≤ y.2.arrival)))

/-- DECODE_ACCESS_UNIT (R313). -/
def execDecodeAccessUnit (d : MDie) (info : AuInfo) (s : State) : Out :=
  match s.decNext d with
  | none => .next s
  | some (n, a) => .next (((s.updDec d n (fun x => { x with cpb := x.cpb.drop 1 })).refreshCpb d n).decodeAu d n a.ts info)

/-- A context returns to waiting with everything emptied (R319). -/
def State.decRestart (s : State) (d : MDie) (n : Nat) : State :=
  if s.rd Obj.decCtxEnable d.die n ≠ 1 then s
  else ((s.updDec d n (fun x => { x with cpb := [], rx := [], last := none })).decWait d n).refreshCpb d n

/-- DEC_CTX_RESTART (R319). -/
def execDecCtxRestart (d : MDie) (ctx : Fin 4) (s : State) : Out :=
  when s.serverUp s (s.mirror d.die (fun d _ s => (s.decRestart d ctx.val).ans .ok))

/-- A context stops (R324): its pictures are output, and its synchronizers lose their input. -/
def State.decStop (s : State) (d : MDie) (n cause : Nat) : State :=
  let s := s.decFlush d n ((s.dec d n).dpb.length + 1)
  let s := ((s.decWait d n).setDecState d n 3).setBit Obj.decCtxSticky d.die n 3
  let s := s.raise d.pdie 0x2405 n (p16 [n, cause])
  let (kind, port) := s.decOutput d n
  if kind = 1 then s.fsyInput d port true else s

/-- 8 picture periods of a context's format in ns (R324). -/
def State.decTimeout (s : State) (d : MDie) (n : Nat) : Nat :=
  let (np, dp) := pictureRate (fmt (s.rdN Obj.decCtxFormat d.die n))
  8 * dp * nsPerSec / np

/-- DECODER_NO_OUTPUT_TIMEOUT (R324). -/
def execDecoderNoOutputTimeout (d : MDie) (ctx : Fin 4) (s : State) : Out :=
  let n := ctx.val
  when (s.decUsed d n && s.decState d n == 2 && !s.decHeld d n && decide ((s.dec d n).lastOut + s.decTimeout d n ≤ s.now d.pdie)) s
    (s.decStop d n 2)

/-- The ingress flow of a context goes down (R324). -/
def State.decFlowDown (s : State) (d : MDie) (f : Nat) : State :=
  (List.range 4).foldl (fun (s : State) n =>
    if s.decUsed d n ∧ s.decFlow d n = some f ∧ s.decState d n = 2 then s.decStop d n 1 else s) s

/-- The newest picture of a DPB counts as concealed (R321, R323). -/
def State.decTaint (s : State) (d : MDie) (n : Nat) : State :=
  match (s.dec d n).dpb.getLast? with
  | none => s
  | some p =>
    if p.concealed then s
    else (s.bump Obj.decCtxConcealCount d.die n).updDec d n (fun x =>
      { x with dpb := x.dpb.dropLast ++ [{ p with concealed := true }], run := x.run + 1 })

/-- A poisoned word reaches a context (R321): the slice it belongs to is replaced, in the picture that was decoded last. -/
def State.decPoison (s : State) (d : MDie) (n : Nat) : State := if s.decState d n = 2 then (s.decReplace d n 1 3).decTaint d n else s

/-- A context that is not in use is idle. -/
def State.decIdle (s : State) (d : MDie) (n : Nat) : State :=
  let s := (s.updDec d n (fun _ => DecSt.start)).setDecState d n 0
  (s.wr Obj.decCtxStatus d.die n 0).refreshCpb d n

/-! ### Configuration (R310, R312–R316) -/

/-- Load of a context in luma samples per 1,001 s (R315). -/
def State.decLoad1001 (s : State) (d : MDie) (n : Nat) : Nat :=
  let f := fmt (s.rdN Obj.decCtxFormat d.die n)
  let (w, h) := activeSize f.family
  w * h * f.num * (if interlaced f.family then 2 else 1) * (1001 / f.den)

/-- The contexts in use. -/
def State.decContexts (s : State) (d : MDie) : List Nat := upto 4 (fun n => s.rd Obj.decCtxEnable d.die n == 1)

/-- Every bond member of an output port has its synchronizer on the declared format (R316). -/
def State.decSyncOk (s : State) (d : MDie) (n port : Nat) : Bool :=
  let bond := max 1 (s.rdN Obj.loomSrcBond d.die port)
  (List.range bond).all (fun m =>
    match s.fsyOf d (port + m) with
    | none => false
    | some k => s.rdN Obj.fsyFormat d.die k == s.rdN Obj.decCtxFormat d.die n)

/-- The reason for which a context's configuration fails (R310, R312, R313, R315, R316, R318). -/
def State.decFault (s : State) (d : MDie) (n : Nat) : Option Nat :=
  let a := s.decAttr d n
  let (kind, x) := s.decOutput d n
  let flows := (s.inFlows d).filter (fun f => decide (descKind (s.inDesc d f) ∈ [5, 6, 7]) && descTarget (s.inDesc d f) == n)
  let want := if s.rdN Obj.decCtxCodec d.die n = 0 then 5 else 6
  if ¬ s.secOn d secDec ∨ s.elemBad d secDec n then some 5
  else if ¬ (a.sampling = 0 ∧ a.depth = 1 ∧ a.valid) then some 1
  else if 1 < flows.length ∨ flows.any (fun f => descKind (s.inDesc d f) != want && descKind (s.inDesc d f) != 7) then some 6
  else if 2000000000 * 1001 < sumOver (s.decContexts d) (s.decLoad1001 d) ∨
      2000000000 < sumOver (s.decContexts d) (fun k => s.rdN Obj.decCtxMaxrate d.die k) then some 2
  else if kind = 1 ∧ ¬ s.decSyncOk d n x then some 6
  else if kind = 2 ∧ ¬ (s.rdN Obj.encDeferFeed d.die x = 8192 + n ∧ s.rdN Obj.encChFormat d.die x = s.rdN Obj.decCtxFormat d.die n) then some 3
  else none

/-- Stores of a context (R314): an HEVC stream may be 4:2:2, a VVC stream is 4:2:0. Its declared traffic is one the spec gives
no formula for. -/
def State.decStores (s : State) (d : MDie) (n : Nat) : List Nat × Nat :=
  let (w, h) := activeSize (fmt (s.rdN Obj.decCtxFormat d.die n)).family
  let buf := if s.rdN Obj.decCtxCodec d.die n = 0 then w * h * 5 / 2 else w * h * 15 / 8
  ([s.rdN Obj.decCtxCpbSize d.die n, (s.rdN Obj.decCtxDpbPics d.die n + 1) * buf], Config.undeclaredTraffic 0x2401 n)

/-- A rejected context commit (R313). -/
def State.decReject (s : State) (d : MDie) (n reason : Nat) : State :=
  let s := (s.setBit Obj.decSticky d.die 0 0).bump Obj.decCount d.die 0
  let s := (s.setBit Obj.decCtxSticky d.die n 0).wr Obj.decCtxReject d.die n (reason : Nat)
  s.raise d.pdie 0x2408 n (p16 [n, reason])

/-- On leaving CONFIGURE every context in use is checked, takes its stores and waits (R313, R319). -/
def State.decLeaveConfigure (s : State) (d : MDie) : State × Bool :=
  let s := ((List.range 4).foldl (fun (s : State) n => s.decIdle d n) s).wr Obj.decLoad d.die 0 0
  (s.decContexts d).foldl (fun (acc : State × Bool) n =>
    let s := acc.1
    match s.decFault d n with
    | some r => (s.decReject d n r, false)
    | none =>
      let (parts, traffic) := s.decStores d n
      match s.allocStores d 0x2401 n parts traffic with
      | .error (kind, short) => ((s.decReject d n 4).memRefuse d kind 0x2401 short, false)
      | .ok s =>
        let s := s.wr Obj.decLoad d.die 0 (sumOver (s.decContexts d) (s.decLoad1001 d) / 1001 : Nat)
        (s.decRestart d n, acc.2)) (s, true)

end Sys2Proof.Machine
end

