-- ==== Sys2Proof/Machine/Ingress.lean ====
section
/-! DEFINITION. Packets at work inside a media die: the merge stage's output (R131, R135), legs and flows that go down (R132), the
depacketizers (R133), and pushes and pops of the queues of R393 (R396, R397). -/

namespace Sys2Proof.Machine

/-! ### Ingress (R131–R135, R343) -/

/-- The synchronizers behind a flow hear that its input is lost or back (R164). -/
def State.flowInput (s : State) (d : MDie) (f : Nat) (lost : Bool) : State :=
  let b := s.inDesc d f
  if descKind b = 1 ∧ descBits b 507 507 = 0 then s.fsyInput d (descTarget b) lost else s

/-- A classified packet passes the merge stage, and enters its queue whole or is discarded whole; an audio packet that is
queued is placed in its playout buffer (R131, R135, R343). -/
def State.takePacket (s : State) (d : MDie) (f leg : Nat) (u : Udp) : State :=
  let up := s.bit Obj.flowInStatus d.die f 0
  let (s, act) := s.merge d f leg u.rtp.seq
  let s := if up then s else s.flowInput d f false
  match act with
  | .dup => s
  | .late => s
  | _ =>
    let b := s.inDesc d f
    let fits := s.admits d (descQueue b 1) (cellsOf (udpTotal u.size))
    let s := s.queueIngress d f leg u
    if descAudio b ∧ fits then s.audPacket d f u.rtp else s

/-- MEDIA_PACKET_RECEIVED (R131): the oldest classified packet of a port's receive FIFO is taken. -/
def execMediaPacketReceived (d : MDie) (port : Fin 32) (s : State) : Out :=
  match (s.port d port.val).fifo with
  | [] => .next s
  | (f, leg, u, _) :: rest =>
    when (s.up d.pdie && s.inForce) s
      ((s.updPort d port.val (fun x => { x with fifo := rest })).takePacket d f leg u)

/-- LEG_TIMEOUT (R132): no packet on a leg for LEG.TIMEOUT; with its last leg the flow goes down, and its consumers act on the
loss of input (R164, R324). -/
def execLegTimeout (d : MDie) (flow : Fin 4096) (leg : Fin 2) (s : State) : Out :=
  let f := flow.val
  let was := s.bit Obj.flowInStatus d.die f 0
  when (s.up d.pdie && s.inForce && descKind (s.inDesc d f) != 0) s
    (let s := s.legDown d f (leg.val + 1)
     if was ∧ ¬ s.bit Obj.flowInStatus d.die f 0 then (s.flowInput d f true).decFlowDown d f else s)

/-- FLOW_SWITCH_LINE (R133): a synchronous video flow's frame is completed. -/
def execFlowSwitchLine (d : MDie) (flow : Fin 4096) (s : State) : Out :=
  let b := s.inDesc d flow.val
  when (s.up d.pdie && s.inForce && descKind b == 1 && descBits b 507 507 == 1) s (s.completeFrame d flow.val)

/-! ### Pushes (R217, R237, R396) -/

/-- A row of samples of an output's picture (R210). -/
def outSeg (img : Img) (r : Nat × Nat × Nat) : Seg :=
  { row := r.1, col := r.2.1, pix := (List.range r.2.2).map (fun k => img r.1 (r.2.1 + k)) }

/-- Bytes of the samples of a segment at a sampling and depth. -/
def segBytes (sampling depth : Nat) (g : Seg) : Nat := ceilDiv ((segValues sampling g).length * depthBits depth) 8

/-- The rows of a video packet are such as the transmitter sends (R124): one or two sample row data headers; in block packing mode each
carries whole blocks of 180 bytes, but in the last packet (PRESUMED from ST 2110-20, assumption 92). -/
def State.packed (s : State) (d : MDie) (f k np : Nat) (rows : List (Nat × Nat × Nat)) : Bool :=
  let b := s.outDesc d f
  let sizes := rows.map (fun r => segBytes (descSampling b) (descBitDepth b) (outSeg (fun _ _ => ⟨0, 0, 0⟩) r))
  (rows.length == 1 || rows.length == 2) && (descBits b 504 504 == 1 || k + 1 == np || sizes.all (fun n => n % 180 == 0))

/-- A video packet: its samples are those of the output its flow names, in the frame now on the raster (R128, R138, R210). -/
def State.pushVideo (s : State) (d : MDie) (f k np : Nat) (rows : List (Nat × Nat × Nat)) : State :=
  let b := s.outDesc d f
  let m := descTarget b
  let fm := (s.outRaster d f).1
  let fr := s.outFrame d m
  let shift := match (s.outp d m).next with | some r => r.shift | none => 0
  let segs := rows.map (outSeg (s.outputImg d m fr))
  let field := rowField fm.family ((rows.head?.map (·.1)).getD 0)
  let size := 2 + 6 * segs.length + sumOver segs (segBytes (descSampling b) (descBitDepth b))
  let p : Payload := { ts := rtpOf fm fr, marker := k + 1 == np, segs := segs, audio := [], data := [], size := size }
  let pt := match (s.outp d m).work with
    | some g => if (s.outp d m).swapped ∧ g.discPt ≠ 255 then g.discPt else descPt b
    | none => descPt b
  let pace := s.paceOf d f fr field np k
  s.emit d f pt p (some (((pace.1 : Int) + shift).toNat, pace.2))

/-- The ancillary packets of a frame, the last one with the marker; one without data where the frame has none (R123, R145, R210). -/
def State.pushAnc (s : State) (d : MDie) (f : Nat) : State :=
  let b := s.outDesc d f
  let fm := (s.outRaster d f).1
  let fr := s.outFrame d (descTarget b)
  let l := match s.outAnc d (descTarget b) fr with | [] => [[]] | l => l
  l.zipIdx.foldl (fun (s : State) x => s.emit d f (descPt b) (Payload.ofBytes (rtpOf fm fr) (x.2 + 1 == l.length) x.1) none) s

/-- The fill of a Bolt buffer, with its watermark in percent of the size (R237, R398). -/
def State.setBolt (s : State) (d : MDie) (c n : Nat) : State :=
  (s.wr Obj.encBoltFill d.die c (n : Nat)).watermark d .bolt c (n * 100 / max 1 (s.boltBytes d c))

/-- A scan-out output sends: in use, its section on, its raster not silent (R210, R214). -/
def State.outSends (s : State) (d : MDie) (m : Nat) : Bool :=
  s.outUsed d m && s.secOn d secScn && !s.outSilent d m

/-- QUEUE_PUSH (R396): a full Bolt buffer stalls its writer, and a network queue discards the packet whole (R135, R237,
R393). -/
def execQueuePush (d : MDie) (p : Push) (s : State) : Out :=
  match p with
  | .video f k np rows =>
    let b := s.outDesc d f.val
    when (s.up d.pdie && descKind b == 1 && decide (k < np) && s.packed d f.val k np rows && s.outSends d (descTarget b)) s (s.pushVideo d f.val k np rows)
  | .anc f =>
    let b := s.outDesc d f.val
    when (s.up d.pdie && descKind b == 4 && s.outSends d (descTarget b)) s (s.pushAnc d f.val)
  | .bolt ch n =>
    let fill := s.rdN Obj.encBoltFill d.die ch.val
    when (s.up d.pdie && s.encUsed d ch.val && decide (fill + n ≤ s.boltBytes d ch.val)) s (s.setBolt d ch.val (fill + n))

/-! ### Pops (R394, R396, R397) -/

/-- A whole packet comes out of an ingress queue and goes to its consumer (R123, R133, R159, R320). Words that are poisoned give
up what they carry. -/
def State.depart (s : State) (d : MDie) (p : Pkt) : State :=
  let b := s.inDesc d p.flow
  let port := descTarget b
  match descKind b with
  | 1 =>
    if p.poison then s
    else if descBits b 507 507 = 1 then s.depacketize d p.flow p.rtp
    else s.fsyWrite d port p.rtp.segs
  | 4 =>
    if p.poison then s
    else s.takeAnc d port p.rtp.ts p.rtp.data
  | 2 => s
  | 3 => s
  | 0 => s
  | _ => if p.poison then s.decPoison d port else s.decPush d port p.rtp

/-- Words that the `n`-th cell of a packet of `len` bytes holds; the first begins with the 16-byte descriptor (R134). -/
def cellWords (len n : Nat) : Nat := ceilDiv (min 256 (len + 16 - 256 * n)) 4

/-- A cell is popped from an ingress queue (R397); a failing word poisons the packet. -/
def State.popCell (s : State) (d : MDie) (q bad : Nat) : State :=
  match (s.queue d q).pkts with
  | [] => s
  | p :: rest =>
    let (s, hit) := s.popWords d q (cellWords p.len (s.queue d q).taken) bad
    let p := { p with poison := p.poison || hit }
    let n := (s.queue d q).taken + 1
    let last := decide (cellsOf p.len ≤ n)
    let s := s.updQueue d q (fun x => { x with pkts := if last then rest else p :: rest, taken := if last then 0 else n })
    let s := s.setDepth d q (s.depth d q - 1)
    if last then s.depart d p else s

/-- The queues that ingress flows name. -/
def State.ingressQueue (s : State) (d : MDie) (q : Nat) : Bool := (s.inFlows d).any (fun f => descQueue (s.inDesc d f) 1 == q)

/-- Words of a frame take poison tags; one that has its tag is not reported again (R394). -/
def AudFrame.spoil (f : AudFrame) (bad : List Nat) : AudFrame :=
  { f with words := f.words.zipIdx.map (fun x => (x.1.1, x.1.2.1, x.1.2.2 || decide (x.2 ∈ bad))) }

/-- Words of the oldest frame in an audio port's FIFO fail their parity as the frame is popped, which a router tick or a frame sync does
(R337, R394). -/
def State.popAudio (s : State) (d : MDie) (p : Nat) (input : Bool) (bad : List Nat) : State :=
  let fifo := fun (x : AudPortSt) => if input then x.inFifo else x.outFifo
  match (s.md d).audio.ports.find? (fun e => e.1 == p) with
  | none => s
  | some (_, x) =>
    match fifo x with
    | [] => s
    | f :: l =>
      let hit := f.words.zipIdx.filter (fun w => decide (w.2 ∈ bad) && !w.1.2.2)
      let y : AudPortSt := if input then { x with inFifo := f.spoil bad :: l } else { x with outFifo := f.spoil bad :: l }
      let s := s.updMd d (fun m => { m with audio := { m.audio with ports := tabSet m.audio.ports p y } })
      hit.foldl (fun (s : State) _ => s.parityError d 3 p) s

/-- QUEUE_POP (R396): an empty queue stalls its reader. -/
def execQueuePop (d : MDie) (p : Pop) (s : State) : Out :=
  match p with
  | .cell q bad => when (s.up d.pdie && s.ingressQueue d q.val) s (s.popCell d q.val bad)
  | .audio p input bad => when (s.up d.pdie && s.secOn d secAud) s (s.popAudio d p.val input bad)
  | .bolt ch n =>
    let fill := s.rdN Obj.encBoltFill d.die ch.val
    when (s.up d.pdie && s.encUsed d ch.val && decide (0 < fill) && decide (n ≤ fill)) s (s.setBolt d ch.val (fill - n))

end Sys2Proof.Machine
end

