-- ==== Sys2Proof/Machine/RecoveryBase.lean ====
section
/-! DEFINITION. Faults that need RECOVERY and what recovery does (R412, R484–R487); the loss of engine pairs and entropy engines
(R231, R265, R297). -/

namespace Sys2Proof.Machine

/-! ### Modes entered (R480) -/

/-- A mode is entered: MODE.PREVIOUS, MODE.STATE and event 0x1001 (R480). -/
def State.enterMode (s : State) (m : Mode) : State :=
  let prev := s.mode.num
  ((s.setMode m).wr Obj.modePrevious .p 0 (prev : Nat)).raise .c 0x1001 0 (p16 [m.num, prev])

/-! ### Faults (R412, R485) -/

/-- A fault whose action is RECOVERY has occurred on a die: RECOVERY_ENTRY takes it. -/
def State.recoveryFault (s : State) (d : MDie) (code : Nat) : State :=
  { s with recov := { s.recov with due := s.recov.due ++ [(d, code)] } }

/-- A die leaves the pair as OUT, with one last heartbeat (R412). -/
def State.goOut (s : State) (d : MDie) : State :=
  if s.slvState d = 5 then s
  else
    let s := s.send (.pair d (heartbeatBytes d 5 (s.md d).slv.hbSeq s.pair.gen (s.md d).slv.errCount))
    let s := s.updSlv d (fun x => { x with built := [], table := [], orphans := [], decisions := [] })
    (s.wr Obj.slvState d.die 0 5).raise .c 0x3208 d.num (p16 [d.num, s.rdN Obj.rstCause d.die 0])

/-- A media die becomes absent with a cause (R478): its sections go off until the next BOOT. -/
def State.makeAbsent (s : State) (d : MDie) (cause : Nat) : State :=
  let s := (List.range 30).foldl (fun (s : State) n => if n = 0 then s else s.setSection d.pdie n 0) (s.fabricReset d)
  let s := s.updPower d.pdie (fun p => { p with run := .absent, wakeQueue := [] })
  let s := { s with recov := { s.recov with acts := s.recov.acts.filter (fun x => x.1 != d), restarts := s.recov.restarts.filter (fun x => x.1 != d) } }
  let s := (s.wr Obj.bootDieState .p d.num 1).clrBit Obj.modeStatus .p 0 (1 + d.num)
  s.raise .c 0x1052 d.num (p16 [d.num, cause])

/-! ### Actions (R486) -/

/-- A channel of a die beyond its objects. -/
def ChanSt.start : ChanSt :=
  { owed := [], due := [], ref := [], dbl := [], hot := [], cool := [], zq := [], acts := [], recent := [], dirWrite := false, run := 0, alert := none,
    lanes := [], failed := false, single := 0, double := 0, parity := 0 }

/-- A DRAM channel of a die. -/
def State.chan (s : State) (d : MDie) (c : Nat) : ChanSt := tabGet (s.md d).ram.chans c ChanSt.start

/-- A state with a DRAM channel of a die changed. -/
def State.updChan (s : State) (d : MDie) (c : Nat) (f : ChanSt → ChanSt) : State :=
  s.updMd d (fun m => { m with ram := { m.ram with chans := tabUpd m.ram.chans c ChanSt.start f } })

/-- The DRAM channels of a die that stand faulted, or whose in-service retrain failed (R368, R375). -/
def State.faultedChannels (s : State) (d : MDie) : List Nat :=
  upto 12 (fun c => s.rdN Obj.memChState d.die c == 6 || (s.chan d c).failed)

/-- Step 3 of R486: every stream of the die is restarted: running channels at their next picture boundary with an IDR picture,
decoder contexts wait for one. -/
def State.restartStreams (s : State) (d : MDie) : State :=
  let l := (s.encChannels d).filter (fun c => s.encState d c == 2 || s.encState d c == 4)
  let s := l.foldl (fun (s : State) c =>
    let s := (s.encCut d c).setEncState d c 4
    s.updEnc d c (fun x => { x with moveTo := some (x.moveTo.getD (s.encEngine d c)) })) s
  let s := { s with recov := { s.recov with restarts := s.recov.restarts.filter (fun x => decide (x ∉ l.map (fun c => (d, c)))) ++ l.map (fun c => (d, c)) } }
  (List.range 4).foldl (fun (s : State) n => s.decRestart d n) s

/-- The recovery actions of a die begin: faulted DRAM channels take a full retrain (R375); where none is, streams restart at
once, unless CONFIGURE is being entered (R484). -/
def State.startActions (s : State) (d : MDie) (restart : Bool) : State :=
  let l := (s.faultedChannels d).filter (fun c => decide ((d, c) ∉ s.recov.acts))
  let s := { s with recov := { s.recov with acts := s.recov.acts ++ l.map (fun c => (d, c)) } }
  let s := l.foldl (fun (s : State) c => s.wr Obj.memChState d.die c 5) s
  if restart ∧ ¬ s.recov.acts.any (fun x => x.1 == d) then s.restartStreams d else s

/-- RECOVERY is entered with a die and the event code of its fault, or a die is added to the one under way (R485, R486). -/
def State.enterRecovery (s : State) (d : MDie) (code : Nat) : State :=
  if s.mode = .recovery then
    (s.wr Obj.modeRecoveryDies .p 0 ((s.rdN Obj.modeRecoveryDies .p 0 ||| 2 ^ d.num : Nat) : Int)).startActions d true
  else
    let s := { s with recov := { s.recov with since := s.time.base, held := false } }
    let s := (s.wr Obj.modeRecoveryCause .p 0 (code : Nat)).wr Obj.modeRecoveryDies .p 0 ((2 ^ d.num : Nat) : Int)
    let s := ((s.setBit Obj.modeSticky .p 0 1).bump Obj.modeCount .p 0).setBit Obj.modeStatus .p 0 3
    let s := (s.enterMode .recovery).raise .c 0x1003 0 (p16 [2 ^ d.num, code])
    s.startActions d true

/-- A fault is taken in the mode the part is in (R412, R484, R485). -/
def State.takeFault (s : State) (d : MDie) (code : Nat) : State :=
  match s.mode with
  | .service => if s.trans.isSome then s.startActions d false else s.enterRecovery d code
  | .recovery => if s.trans.isSome then s.startActions d false else s.enterRecovery d code
  | .test => (s.raise .c 0x1005 0 (p16 [code])).startActions d (s.trans.isNone)
  | .selvedge =>
    if s.trans.isSome then s.startActions d false
    else if s.slvState d = 3 ∨ s.slvState d = 4 then s.enterRecovery d code
    else (s.goOut d).startActions d true
  | _ => s.startActions d false

/-- RECOVERY_ENTRY (R485): the oldest fault that needs RECOVERY is taken; one during a transition into SELVEDGE waits until it is
complete (R484). -/
def execRecoveryEntry (s : State) : Out :=
  match s.recov.due with
  | [] => .next s
  | (d, code) :: rest => when (s.serverUp && !s.trans.any (fun t => t.target == .selvedge)) s ({ s with recov := { s.recov with due := rest } }.takeFault d code)

/-- Streams that the stop rule stops on a die (R482): running channels and flows, decoder contexts; audio ports
stop at their next frame sync. Pending starts are taken back. -/
def State.stopStreams (s : State) (d : MDie) (t : Instant) : State :=
  let s := ((s.encChannels d).filter (fun c => s.encState d c != 0)).foldl (fun (s : State) c => s.encControl d c false t) s
  let s := (s.outFlows d).foldl (fun (s : State) f => s.flowControl d f false t) s
  (List.range 4).foldl (fun (s : State) n => s.decRestart d n) s

/-- The stop rule runs toward a mode, from an instant (R480, R482): MODE.PENDING shows the mode. -/
def State.beginStop (s : State) (m : Mode) (t : Nat) : State :=
  let src := s.mode
  let s := { s with trans := some { target := m, instant := t, source := src } }
  let s := (s.wr Obj.modePending .p 0 (m.num : Nat)).setBit Obj.modeStatus .p 0 0
  ([MDie.a, MDie.b]).foldl (fun (s : State) d => if s.up d.pdie then s.stopStreams d (.ofNs t) else s) s

/-- RECOVERY_END (R487): every action is complete, and every restarted channel has released the first row of its IDR picture. A
held request for CONFIGURE runs the stop rule from RECOVERY; otherwise the previous mode returns. -/
def execRecoveryEnd (s : State) : Out :=
  when (s.serverUp && s.mode == .recovery && s.trans.isNone && s.recov.acts.isEmpty && s.recov.restarts.isEmpty && s.recov.due.isEmpty) s
    (let ms := (s.time.base - s.recov.since) / 1000000
     let (n, s) := s.item32 ms
     let s := (s.clrBit Obj.modeStatus .p 0 3).raise .c 0x1004 0 (payloadOf [(32, n)])
     if s.recov.held then ({ s with recov := { s.recov with held := false } }).beginStop .configure (s.time.base + 100000)
     else s.enterMode (Mode.ofNum (s.rdN Obj.modePrevious .p 0)))

/-! ### Lost engines (R231, R265, R297) -/

/-- An engine pair is lost: its channels' incomplete pictures are cut, and a re-placement of every channel is planned, which
CHANNEL_REPLACEMENT carries out at picture boundaries (R231); the borrowers of the pair lose their engine and follow (R265). -/
def State.pairLoss (s : State) (d : MDie) (e : Nat) : State :=
  let hit := s.channelsOn d e
  let plan := s.replan d e
  let gone := (plan.filter (fun x => x.2 == 0xFF)).length
  let s := (s.setBit Obj.encSticky d.die 0 2).raise .c 0x2009 e (p16 [e, gone])
  let s := hit.foldl (fun (s : State) c =>
    let s := s.encCut d c
    if s.encState d c = 0 then s else s.setEncState d c 4) s
  let s := plan.foldl (fun (s : State) x =>
    if x.2 = s.encEngine d x.1 ∧ x.1 ∉ hit then s else s.updEnc d x.1 (fun y => { y with moveTo := some x.2 })) s
  let out := s.borrowersOn d e
  let s := out.foldl (fun (s : State) m => s.dropBorrower d m) s
  let s := (s.updMd d (fun m => { m with unborrowed := m.unborrowed ++ out })).borrowersFollow d
  if s.liveZeroLost d plan (fun e => e == 0xFF) then s.recoveryFault d 0x2009 else s

/-- ENGINE_PAIR_LOSS (R231): a MOT section, or with `pix` a PIX section, of a pair fails. -/
def execEnginePairLoss (d : MDie) (e : Fin 2) (pix : Bool) (s : State) : Out :=
  let n := if pix then secPix e.val else secMot e.val
  when (s.up d.pdie && s.inForce && s.secOn d n) s ((s.setSection d.pdie n 4).pairLoss d e.val)

/-- ENTROPY_ENGINE_STALL (R297): the engine is removed until the next BOOT, and the channels are assigned afresh. -/
def execEntropyEngineStall (d : MDie) (e : Fin 8) (s : State) : Out :=
  let k := e.val
  let hit := s.entOn d k
  when (s.up d.pdie && s.inForce && decide (k ∉ (s.md d).entDead) && decide (hit ≠ [])) s
    (let s := s.updMd d (fun m => { m with entDead := m.entDead ++ [k] })
     let plan := s.entReplan d
     let gone := (plan.filter (fun x => x.2 == [])).length
     let s := (s.setBit Obj.entSticky d.die 0 1).raise .c 0x2303 k (p16 [k, gone])
     let s := hit.foldl (fun (s : State) c =>
       let s := s.encCut d c
       if s.encState d c = 0 then s else s.setEncState d c 4) s
     let s := plan.foldl (fun (s : State) x => s.updEnc d x.1 (fun y => { y with entMove := some x.2 })) s
     if s.liveZeroLost d plan (fun l => l == []) then s.recoveryFault d 0x2303 else s)

end Sys2Proof.Machine
end

