-- ==== Sys2Proof/Machine/BusBase.lean ====
section
/-! DEFINITION. What the bus matrix and the DRAM controllers share: what a poisoned word does at its consumer (R394), parity
checks of beats (R381, R394), and the completion and delivery of transactions (R386, R391). -/

namespace Sys2Proof.Machine

/-! ### Poison at the consumer -/

/-- Surface or Felt samples that are late or poisoned are transparent in the frame that blends them (R203); samples of frames past are
forgotten. -/
def State.surfaceLost (s : State) (d : MDie) (n layer row col samples since : Nat) (late : Bool) : State :=
  let k := if late then 3 else 4
  let told := s.bit Obj.cmpSticky d.die n k
  let a := s.cmpAttr d n
  let now := (coordOf (fmt a.format) a.ofs (s.now d.pdie)).frame
  let s := s.updCmp d n (fun x =>
    { x with gone := x.gone.filter (fun g => decide (now ≤ g.frame)) ++ [⟨(s.blendOf d n row since).1, layer, row, col, samples⟩] })
  let s := (s.setBit Obj.cmpSticky d.die n k).addCount Obj.cmpUnderrunCount d.die n samples
  if told then s else s.raise d.pdie (if late then 0x1804 else 0x1805) n (p16 [n, layer])

/-- Samples asked for at an instant come after their line was blended (R203). -/
def State.surfaceLate (s : State) (d : MDie) (u : MemUse) (since : Nat) : Bool :=
  match u with
  | .surface n _ row _ _ => (s.blendOf d n.val row since).2.lt (.ofNs (s.now d.pdie))
  | _ => false

/-- A borrowed search reads a poisoned word (R266). -/
def State.borrowPoison (s : State) (d : MDie) (n : Nat) : State :=
  (s.setBit Obj.motSticky d.die 0 3).raise d.pdie 0x2104 n (p16 [n])

/-- A word that a block reads is poisoned: the block's own chapter says what follows (R394). -/
def State.poisonUse (s : State) (d : MDie) (u : MemUse) : State :=
  match u with
  | .other => s
  | .fsy n row col k => s.fsyPoison d n.val row col k
  | .surface n layer row col k => s.surfaceLost d n.val layer row col k (s.now d.pdie) false
  | .encSource c => s.encPoison d c.val 1
  | .encRef c => s.encPoison d c.val 2
  | .borrower n => s.borrowPoison d n.val
  | .decoder n => s.decPoison d n.val

/-- Read data for a block arrive that were asked for at an instant: surface samples may come late (R203), a poisoned word acts as the block's
chapter says. -/
def State.readUse (s : State) (d : MDie) (u : MemUse) (since : Nat) (poisoned : Bool) : State :=
  match u with
  | .surface n layer row col k =>
    if s.surfaceLate d u since then s.surfaceLost d n.val layer row col k since true
    else if poisoned then s.poisonUse d u else s
  | _ => if poisoned then s.poisonUse d u else s

/-! ### Beats and parity (R381, R394, R491) -/

/-- A state with the bus of a die changed. -/
def State.updBus (s : State) (d : MDie) (f : BusSt → BusSt) : State := s.updMd d (fun m => { m with bus := f m.bus })

/-- Beats of 64 bytes that bytes from an address touch. -/
def beatsOf (addr len : Nat) : Nat := if len = 0 then 0 else (addr + len - 1) / 64 - addr / 64 + 1

/-- A master receives beats: as many as an injection still spoils fail their parity (R394, R491). -/
def State.receiveBeats (s : State) (d : MDie) (m n : Nat) : State × Bool :=
  let k := min n (tabGet (s.md d).bus.beats m 0)
  if k = 0 then (s, false)
  else
    let s := s.updBus d (fun b => { b with beats := tabUpd b.beats m 0 (· - k) })
    ((List.range k).foldl (fun (s : State) _ => s.parityError d 1 m) s, true)

/-! ### Transactions (R386, R391) -/

/-- BUS.MASTER.OUTSTANDING and the STATUS bits follow the transactions and resets. -/
def State.showMaster (s : State) (d : MDie) (m : Nat) : State :=
  let b := (s.md d).bus
  let mine := b.txns.filter (fun t => t.master == m)
  let st := if (tabGet b.resets m (0, 0)).1 ≠ 0 ∨ b.resets.any (fun r => r.1 == m) then
      (if mine.isEmpty then 3 else 4)
    else if mine.any (·.parked) then 2 else 1
  let s := (s.wr Obj.busMasterOutstanding d.die m (mine.length : Nat)).wr Obj.busMasterState d.die m (st : Nat)
  (s.putBit Obj.busStatus d.die 0 1 (b.txns.any (·.parked))).putBit Obj.busStatus d.die 0 2 (!b.resets.isEmpty)

/-- Bytes of a transaction in address order. -/
def BusTxn.bytes (t : BusTxn) : List Byte :=
  (t.data.foldl (fun (acc : List (Nat × List Byte)) x => tabSet acc x.1 x.2) []).flatMap (·.2)

/-- Two transactions touch one 64-byte block. -/
def sameBlock (a b : BusOp) : Bool :=
  decide (a.addr / 64 ≤ (b.addr + b.len - 1) / 64) && decide (b.addr / 64 ≤ (a.addr + a.len - 1) / 64)

/-- The transaction waits behind an earlier one of its master with the same ID, or one under way that touches a 64-byte block it
touches (R386). -/
def busBehind (before : List BusTxn) (t : BusTxn) : Bool :=
  before.any (fun u => u.master == t.master && (u.op.id == t.op.id || (!u.parked && sameBlock u.op t.op)))

/-- Transactions whose pieces are complete, each with no earlier one of the same master and ID before it, and the rest. -/
def busReady : List BusTxn → List BusTxn → List BusTxn × List BusTxn
  | before, [] => ([], before)
  | before, t :: l =>
    if t.left = 0 ∧ ¬ t.parked ∧ ¬ busBehind before t then
      let (a, b) := busReady before l
      (t :: a, b)
    else busReady (before ++ [t]) l

/-- A response reaches its master: discarded where it bears the old generation (R391). -/
def State.respond (s : State) (d : MDie) (t : BusTxn) : State :=
  if t.old then s else s.send (.bus d t.master t.op.id t.bytes t.poison t.error)

/-- Every response that may be delivered is delivered, in issue order (R386). -/
def State.deliver (s : State) (d : MDie) : State :=
  let (go, rest) := busReady [] (s.md d).bus.txns
  let s := s.updBus d (fun b => { b with txns := rest })
  go.foldl (fun (s : State) t => (s.respond d t).showMaster d t.master) s

/-- A piece of a master's transaction completes, with the data a read returned. -/
def State.busPiece (s : State) (d : MDie) (m id addr : Nat) (data : List Byte) (poison : Bool) : State :=
  let hit := fun (t : BusTxn) => t.master == m && t.op.id == id && decide (0 < t.left) && !t.parked &&
    decide (t.op.addr ≤ addr) && decide (addr < t.op.addr + t.op.len)
  let rec go : List BusTxn → List BusTxn
    | [] => []
    | t :: l =>
      if hit t then { t with left := t.left - 1, data := t.data ++ [(addr, data)], poison := t.poison || poison } :: l
      else t :: go l
  (s.updBus d (fun b => { b with txns := go b.txns })).deliver d

end Sys2Proof.Machine
end

