-- ==== Sys2Proof/Machine/Memory.lean ====
section
/-! DEFINITION. The DDR4 memory system (R353–R380): address map, scheduling, refresh, C/A parity, ECC and poison, scrubbing,
training in service and in recovery, fences and reallocation. -/

namespace Sys2Proof.Machine

/-! ### Address map (R356) -/

/-- Where a die address lies: channel, rank, bank (bank group × 4 + bank), row, column. -/
structure MemLoc where
  ch : Nat
  rank : Nat
  bank : Nat
  row : Nat
  col : Nat
deriving DecidableEq, Repr

/-- The enabled channels in ascending number (R355). -/
def State.memEnabled (s : State) (d : MDie) : List Nat := upto 12 (fun c => s.bit Obj.memChEnabled d.die 0 c)

/-- The map of R356 over a list of channels and a rank count. -/
def memLocOf (en : List Nat) (nr a : Nat) : MemLoc :=
  let n := en.length
  let g := a / 256
  let u := g / n
  let chi := u / (16 * nr) % 32
  { ch := en.getD (g % n) 0, rank := u / 16 % nr, bank := u % 4 * 4 + u / 4 % 4, row := u / (512 * nr),
    col := 32 * chi + 8 * (a % 256 / 64) }

/-- Where a die address lies (R356). -/
def State.memLoc (s : State) (d : MDie) (a : Nat) : MemLoc := memLocOf (s.memEnabled d) (s.md d).ram.ranks a

/-- Granules of a channel: Gc of R356. -/
def State.memGranules (s : State) (d : MDie) : Nat := (s.md d).ram.ranks * (s.md d).ram.gib * 2 ^ 22

/-- MEM.CAPACITY and MEM.FREE follow the enabled channels (R356). -/
def State.showCapacity (s : State) (d : MDie) : State :=
  (s.wr Obj.memCapacity d.die 0 (s.memN d * (s.memGranules d - 256) * 256 : Nat)).refreshMem d

/-- The interleave is remapped (R357): event 0x3002 of Die C and MEM.STATUS bit 4. -/
def State.remap (s : State) (d : MDie) : State :=
  let s := (s.showCapacity d).setBit Obj.memStatus d.die 0 4
  s.raise .c 0x3002 d.num (payloadOf [(16, s.memN d), (64, s.rdN Obj.memCapacity d.die 0)])

/-- A state with the DRAM of a die changed. -/
def State.updRam (s : State) (d : MDie) (f : MemSt → MemSt) : State := s.updMd d (fun m => { m with ram := f m.ram })

/-! ### Scheduling (R359–R363) -/

/-- Levels of urgency (R360). -/
def urgency (target waited : Nat) : Nat :=
  let t := target * 8 / 5
  let e := waited * 8 / 5
  if 2 * e < t then 0 else if 4 * e < 3 * t then 1 else if e < t then 2 else 3

/-- Urgency of a piece by itself. -/
def State.urgencyOf (s : State) (d : MDie) (p : MemPiece) : Nat :=
  urgency (s.rdN Obj.memPortTarget d.die p.req.port.val) (s.now d.pdie - p.enter)

/-- A piece waits for its commands. -/
def MemPiece.queued (p : MemPiece) : Bool := p.issued.isNone

/-- Two pieces touch one 64-byte burst (R359). -/
def MemPiece.touches (p q : MemPiece) : Bool :=
  decide (p.req.addr / 64 ≤ (q.req.addr + q.req.len - 1) / 64) && decide (q.req.addr / 64 ≤ (p.req.addr + p.req.len - 1) / 64)

/-- A channel carries traffic: active, or under an in-service retrain (R375). -/
def State.chanUp (s : State) (d : MDie) (c : Nat) : Bool :=
  let st := s.rdN Obj.memChState d.die c
  (st == 3 || st == 5) && !s.recov.acts.any (fun x => x.1 == d)

/-- A request for a channel stands at urgency 3 (R365). -/
def State.chanUrgent (s : State) (d : MDie) (c : Nat) : Bool :=
  (s.md d).ram.pieces.any (fun p => p.ch == c && p.queued && s.urgencyOf d p == 3)

/-- MEM.PORT.PENDING of a port, with its watermark (R363). -/
def State.showPort (s : State) (d : MDie) (port : Nat) : State :=
  let n := ((s.md d).ram.pieces.filter (fun p => p.queued && p.req.port.val == port)).length
  (s.wr Obj.memPortPending d.die port (n : Nat)).watermark d .memPort port n

/-- Request pieces a port holds at all controllers (R363, R393). -/
def portCapacity : Nat := 64

/-- A request split at its granule boundaries (R359). -/
def splitRequest (r : MemReq) : List MemReq :=
  if r.len = 0 then []
  else (List.range ((r.addr + r.len - 1) / 256 - r.addr / 256 + 1)).map (fun k =>
    let lo := max r.addr ((r.addr / 256 + k) * 256)
    let hi := min (r.addr + r.len) ((r.addr / 256 + k + 1) * 256)
    { r with addr := lo, len := hi - lo, data := bytesAt r.data (lo - r.addr) (hi - lo),
             poison := (r.poison.filter (fun w => decide (lo ≤ r.addr + 4 * w) && decide (r.addr + 4 * w < hi))).map
               (fun w => (r.addr + 4 * w - lo) / 4) })

/-- A piece meets a faulted channel (R368): its read returns poisoned, its write is discarded and counted. -/
def State.failPiece (s : State) (d : MDie) (c : Nat) (r : MemReq) : State :=
  if r.write then (s.bump Obj.memChUeCount d.die c).busPiece d r.master r.id r.addr [] false
  else
    let (b, s) := s.freeBytes r.len
    (s.poisonUse d r.use).busPiece d r.master r.id r.addr b true

/-- Pieces of a request reach their channel controllers. -/
def State.enterPieces (s : State) (d : MDie) (l : List MemReq) : State :=
  l.foldl (fun (s : State) r =>
    let x := s.memLoc d r.addr
    if s.rdN Obj.memChState d.die x.ch = 6 then s.failPiece d x.ch r
    else s.updRam d (fun m =>
      { m with pieces := m.pieces ++ [{ req := r, ch := x.ch, rank := x.rank, bank := x.bank, enter := s.now d.pdie, late := false,
                                        issued := none, null := false, again := false, bad := false }] })) s

/-- DRAM_REQUEST_ENQUEUE (R359): a port with no room for the pieces stalls its masters (R393). -/
def execDramRequestEnqueue (d : MDie) (r : MemReq) (s : State) : Out :=
  let l := splitRequest r
  when (s.up d.pdie && s.secOn d 5 && decide (r.addr + r.len ≤ s.rdN Obj.memCapacity d.die 0)
      && decide (s.rdN Obj.memPortPending d.die r.port.val + l.length ≤ portCapacity)) s
    ((s.enterPieces d l).showPort d r.port.val)

/-! ### Refresh (R364–R366) -/

/-- MEM.CH.STATUS bits 0 to 2 follow the channel. -/
def State.showChan (s : State) (d : MDie) (c : Nat) : State :=
  let x := s.chan d c
  let s := s.putBit Obj.memChStatus d.die c 0 x.alert.isSome
  let s := s.putBit Obj.memChStatus d.die c 1 (x.dbl.any (·.2))
  s.putBit Obj.memChStatus d.die c 2 (x.owed.any (fun o => decide (0 < o.2)))

/-- The die's time in DRAM clocks of 0.625 ns (R360). -/
def State.memClock (s : State) (d : MDie) : Nat := s.now d.pdie * 8 / 5

/-- The refresh interval I in DRAM clocks, for a margin and a rate (R364). -/
def refreshInterval (margin : Nat) (double : Bool) : Nat := 12480 * (256 - margin) / (256 * (if double then 2 else 1))

/-- A forced refresh (R365): owed returns to 4. -/
def State.forceRefresh (s : State) (d : MDie) (c rank : Nat) : State :=
  if (s.chan d c).alert.isSome ∨ tabGet (s.chan d c).owed rank 0 < 5 then s
  else
    let s := s.updChan d c (fun x => { x with owed := tabSet x.owed rank 4, ref := tabSet x.ref rank (s.memClock d) })
    ((s.setBit Obj.memChSticky d.die c 4).bump Obj.memChRefForcedCount d.die c).raise d.pdie 0x3004 c (p16 [c, rank])

/-- A rank owes a refresh, and one tRFC has passed since its last REF (R365). -/
def State.mayRefresh (s : State) (d : MDie) (c rank : Nat) : Bool :=
  let x := s.chan d c
  decide (0 < tabGet x.owed rank 0) &&
    (match x.ref.find? (fun e => e.1 == rank) with
     | none => true
     | some e => decide (e.2 + (s.md d).ram.rfc ≤ s.memClock d))

/-- Each rank that may issues one owed refresh, while no request for the channel stands at urgency 3 and no replay runs (R365, R378). -/
def State.payOwed (s : State) (d : MDie) (c : Nat) : State :=
  if s.chanUrgent d c ∨ (s.chan d c).alert.isSome then s
  else (List.range 2).foldl (fun (s : State) k =>
    if s.mayRefresh d c k then
      s.updChan d c (fun x => { x with owed := tabUpd x.owed k 0 (· - 1), ref := tabSet x.ref k (s.memClock d) })
    else s) s

/-- The refresh rate of a rank takes what MEM.REFRESH.MODE and the temperature ask (R364). -/
def State.refreshRate (s : State) (d : MDie) (c rank : Nat) : State :=
  let want := match s.rdN Obj.memRefreshMode d.die 0 with
    | 1 => true | 2 => false | _ => tabGet (s.chan d c).hot rank false
  if tabGet (s.chan d c).dbl rank false = want then s
  else
    (s.updChan d c (fun x => { x with dbl := tabSet x.dbl rank want })).raise d.pdie 0x3011 c
      (p16 [c, rank, if want then 2 else 1])

/-- A rank of a channel exists and keeps its contents by refresh: not fitted, disabled, training and self-refresh channels take no
REF (R365, R375, R377). -/
def State.refreshed (s : State) (d : MDie) (c rank : Nat) : Bool :=
  decide (rank < (s.md d).ram.ranks) && decide (s.rdN Obj.memChState d.die c ∈ [3, 5, 6])

/-- A rank's refresh is due (R364); the series of a channel begins with one of rank 0. -/
def State.refreshDue (s : State) (d : MDie) (c rank : Nat) : Bool :=
  match (s.chan d c).due.find? (fun e => e.1 == rank) with
  | some e => decide (e.2 ≤ s.memClock d)
  | none => rank == 0

/-- The next due instant of a rank, one interval on; rank 1 begins half an interval after rank 0 (R364). -/
def State.nextDue (s : State) (d : MDie) (c rank : Nat) : State :=
  let i := refreshInterval (s.rdN Obj.memRefreshMargin d.die 0) (tabGet (s.chan d c).dbl rank false)
  let at_ := tabGet (s.chan d c).due rank (s.memClock d)
  s.updChan d c (fun x =>
    let due := tabSet x.due rank (at_ + i)
    { x with due := if due.any (fun e => e.1 == 1) then due else tabSet due 1 (at_ + i / 2) })

/-- REFRESH_DUE (R364, R365). -/
def execRefreshDue (d : MDie) (ch : Fin 12) (rank : Fin 2) (s : State) : Out :=
  let c := ch.val
  when (s.up d.pdie && s.refreshed d c rank.val && s.refreshDue d c rank.val) s
    (let s := ((s.payOwed d c).refreshRate d c rank.val).nextDue d c rank.val
     let owed := tabGet (s.chan d c).owed rank.val 0 + 1
     let s := s.updChan d c (fun x => { x with owed := tabSet x.owed rank.val owed })
     let s := if s.chanUrgent d c ∧ owed < 5 then s.bump Obj.memChRefPostponeCount d.die c else s
     ((s.forceRefresh d c rank.val).payOwed d c).showChan d c)

/-- MPR_TEMPERATURE_READ (R364): `hot` says that a device of the rank reports above 85 °C. -/
def execMprTemperatureRead (d : MDie) (ch : Fin 12) (rank : Fin 2) (hot : Bool) (s : State) : Out :=
  let c := ch.val
  when (s.up d.pdie && s.refreshed d c rank.val && s.rdN Obj.memRefreshMode d.die 0 == 0 && !s.chanUrgent d c) s
    (s.updChan d c (fun x =>
      let n := if hot then 0 else tabGet x.cool rank.val 0 + 1
      let was := tabGet x.hot rank.val false
      { x with cool := tabSet x.cool rank.val n, hot := tabSet x.hot rank.val (hot || (was && decide (n < 2))) }))

/-- An activate of a bank is counted; at MEM.RH.THRESHOLD one extra refresh is owed (R366). -/
def State.countActivate (s : State) (d : MDie) (c rank bank : Nat) : State :=
  let k := rank * 16 + bank
  let n := tabGet (s.chan d c).acts k 0 + 1
  if n < s.rdN Obj.memRhThreshold d.die 0 then s.updChan d c (fun x => { x with acts := tabSet x.acts k n })
  else
    let s := s.updChan d c (fun x => { x with acts := tabSet x.acts k 0, owed := tabUpd x.owed rank 0 (· + 1) })
    let told := s.bit Obj.memChSticky d.die c 5
    let s := (s.bump Obj.memChRhCount d.die c).setBit Obj.memChSticky d.die c 5
    let s := if told then s else s.raise d.pdie 0x3009 c (p16 [c, rank, bank])
    s.forceRefresh d c rank

/-- ACTIVATE_COUNTER_EPOCH (R366): at a whole multiple of 64 ms the activate counters of every bank restart at 0. -/
def execActivateCounterEpoch (d : MDie) (s : State) : Out :=
  when (s.up d.pdie && decide ((s.md d).ram.epoch ≠ s.now d.pdie / 64000000)) s
    (s.updRam d (fun m => { m with epoch := s.now d.pdie / 64000000, chans := m.chans.map (fun x => (x.1, { x.2 with acts := [] })) }))

/-- ZQCS_CALIBRATION (R373): a rank takes ZQCS in a slot; its instant is kept. -/
def execZqcsCalibration (d : MDie) (ch : Fin 12) (rank : Fin 2) (s : State) : Out :=
  let c := ch.val
  when (s.up d.pdie && s.chanUp d c && decide (rank.val < (s.md d).ram.ranks) && !s.chanUrgent d c && (s.chan d c).alert.isNone) s
    (s.updChan d c (fun x => { x with zq := tabSet x.zq rank.val (s.now d.pdie) }))

/-! ### C/A parity (R367, R368) -/

/-- Window of R367 before the first low sample: 64 DRAM clocks in ns. -/
def parityWindow : Nat := 40

/-- _ALERT_N is sampled low on a channel: its first alert, or a failed replay. -/
def State.parityAlert (s : State) (d : MDie) (c : Nat) : State :=
  let x := s.chan d c
  match x.alert with
  | some a => if a.running then s.updChan d c (fun y => { y with alert := some { a with failed := true } }) else s
  | none =>
    let w := x.recent.filter (fun p => decide (s.now d.pdie ≤ p.issued.getD 0 + parityWindow))
    (s.updChan d c (fun y => { y with alert := some { replays := 0, running := false, failed := false, window := w } })).showChan d c

/-- PARITY_ALERT (R367). -/
def execParityAlert (d : MDie) (ch : Fin 12) (s : State) : Out :=
  when (s.up d.pdie && decide (s.rdN Obj.memChState d.die ch.val ∈ [3, 5])) s (s.parityAlert d ch.val)

/-- ALERT_N_RELEASE (R367): PRECHARGE ALL, then a replay of the window's pieces, unless three replays have failed (R368). Reads of
the window that had returned are fetched again; every piece is activated anew. An injected parity error spoils the replay's first command (R491). -/
def execAlertNRelease (d : MDie) (ch : Fin 12) (s : State) : Out :=
  let c := ch.val
  match (s.chan d c).alert with
  | none => .next s
  | some a =>
    when (s.up d.pdie && decide (a.replays < 3) && (!a.running || a.failed)) s
      (let inj := decide (0 < (s.chan d c).parity)
       let back := a.window.filter (fun p => !p.req.write && !(s.md d).ram.pieces.any (fun q => q.req == p.req && q.issued == p.issued))
       let s := s.updRam d (fun m => { m with pieces := m.pieces ++ back.map (fun p => { p with again := true }) })
       let s := s.updChan d c (fun x =>
         { x with alert := some { a with replays := a.replays + 1, running := true, failed := inj }, parity := x.parity - 1 })
       let s := a.window.foldl (fun (s : State) p => s.countActivate d c p.rank p.bank) s
       s.bump Obj.memChReplayCount d.die c)

/-- After three failed replays the channel is faulted (R368). -/
def State.parityEscalate (s : State) (d : MDie) (c : Nat) : State :=
  let gone := (s.md d).ram.pieces.filter (fun p => p.ch == c)
  let s := s.updRam d (fun m => { m with pieces := m.pieces.filter (fun p => p.ch != c) })
  let s := (s.bump Obj.memChAlertCount d.die c).raise d.pdie 0x3005 c (p16 [c, 3])
  let s := s.updChan d c (fun x => { x with alert := none, parity := 0 })
  let s := s.wr Obj.memChState d.die c 6
  let s := gone.foldl (fun (s : State) p => (s.failPiece d c p.req).showPort d p.req.port.val) s
  let s := (s.setBit Obj.memChSticky d.die c 3).raise d.pdie 0x3006 c (p16 [c])
  (s.showChan d c).recoveryFault d 0x3006

/-- PARITY_REPLAY_COMPLETE (R367, R368): the replayed commands left the window without an alert, or three replays have failed. -/
def execParityReplayComplete (d : MDie) (ch : Fin 12) (s : State) : Out :=
  let c := ch.val
  match (s.chan d c).alert with
  | none => .next s
  | some a =>
    when (s.up d.pdie && a.running && (!a.failed || decide (3 ≤ a.replays))) s
      (if a.failed then s.parityEscalate d c
       else
         let s := s.updChan d c (fun x => { x with alert := none })
         let s := ((s.bump Obj.memChAlertCount d.die c).setBit Obj.memChSticky d.die c 2).raise d.pdie 0x3005 c (p16 [c, a.replays])
         let s := [0, 1].foldl (fun (s : State) r => s.forceRefresh d c r) s
         (s.payOwed d c).showChan d c)

/-! ### Commands (R359, R360) -/

/-- Requests of a channel whose target has passed are late, each counted once (R360). -/
def State.markOverdue (s : State) (d : MDie) (c : Nat) : State :=
  let hit := (s.md d).ram.pieces.filter (fun p => p.ch == c && p.queued && !p.late && s.urgencyOf d p == 3)
  hit.foldl (fun (s : State) p =>
    let same := fun (q : MemPiece) => q.req.port == p.req.port && q.req.master == p.req.master && q.req.id == p.req.id && q.enter == p.enter
    if (s.md d).ram.pieces.any (fun q => same q && q.late) then s
    else
      let k := p.req.port.val
      let told := s.bit Obj.memPortSticky d.die k 1
      let s := s.updRam d (fun m => { m with pieces := m.pieces.map (fun q => if same q then { q with late := true } else q) })
      let s := (s.setBit Obj.memPortSticky d.die k 1).bump Obj.memPortLateCount d.die k
      if told then s
      else
        let (n, s) := s.item32 (s.now d.pdie - p.enter - s.rdN Obj.memPortTarget d.die k)
        s.raise d.pdie 0x3003 k (payloadOf [(16, k), (32, n)])) s

/-- Urgency at which a piece is scheduled: the higher of its own and that of every later request that waits for it (R359). -/
def State.scheduledAt (s : State) (d : MDie) (p : MemPiece) (later : List MemPiece) : Nat :=
  later.foldl (fun a q => if q.ch == p.ch && q.queued && p.touches q then max a (s.urgencyOf d q) else a) (s.urgencyOf d p)

/-- Pieces of a channel that may be issued now, each with its key: urgency 3 first, then the present bus direction for up to 16
pieces, then the oldest, then the lower port (R360). `busy` lists the banks whose next command DDR4 timing does not allow yet. -/
def State.candidates (s : State) (d : MDie) (c : Nat) (busy : List Nat) : List MemPiece → List MemPiece → List (MemPiece × List Nat)
  | _, [] => []
  | before, p :: later =>
    let rest := s.candidates d c busy (before ++ [p]) later
    if p.ch = c ∧ p.queued ∧ p.rank * 16 + p.bank ∉ busy ∧ ¬ before.any (fun q => q.ch == c && q.touches p) then
      let x := s.chan d c
      (p, [3 - s.scheduledAt d p later, if p.req.write = x.dirWrite ∧ x.run < 16 then 0 else 1, p.enter, p.req.port.val]) :: rest
    else rest

/-- Keys compared item by item. -/
def keyLt : List Nat → List Nat → Bool
  | a :: l, b :: r => decide (a < b) || (decide (a = b) && keyLt l r)
  | _, _ => false

/-- The piece the channel picks. -/
def pickPiece : List (MemPiece × List Nat) → Option (MemPiece × List Nat)
  | [] => none
  | x :: l =>
    match pickPiece l with
    | none => some x
    | some y => if keyLt y.2 x.2 then some y else some x

/-- The block of a die address is held by a store (R358). -/
def State.storeHeld (s : State) (d : MDie) (a : Nat) : Bool :=
  (heldRuns (s.md d).stores).any (fun r => decide (r.1 * blockBytes ≤ a) && decide (a < (r.1 + r.2) * blockBytes))

/-- Beats that bytes touch. -/
def beatList (addr len : Nat) : List Nat :=
  if len = 0 then [] else (List.range ((addr + len - 1) / 8 - addr / 8 + 1)).map (fun k => addr / 8 + k)

/-- Flips stored with the beats of a write: none, those of poisoned words (R394), those that an injection adds (R491). -/
def State.writeFlips (s : State) (d : MDie) (c : Nat) (r : MemReq) : State :=
  let beats := beatList r.addr r.len
  let bursts := beats.map (· / 8)
  let bad := r.poison.map (fun w => (r.addr + 4 * w) / 8)
  let s := s.updRam d (fun m => { m with flips := m.flips.filter (fun e =>
    decide (e.1 ∉ beats) && !(e.2 == 1 && decide (e.1 / 8 ∈ bursts))) })
  let s := beats.foldl (fun (s : State) b =>
    let x := s.chan d c
    if 0 < x.double then (s.updChan d c (fun x => { x with double := x.double - 1 })).updRam d (fun m => { m with flips := tabSet m.flips b 2 })
    else if 0 < x.single then (s.updChan d c (fun x => { x with single := x.single - 1 })).updRam d (fun m => { m with flips := tabSet m.flips b 1 })
    else s) s
  bad.foldl (fun (s : State) b => s.updRam d (fun m => { m with flips := tabSet m.flips b 2 })) s

/-- The longest time from a request's arrival to its data (R360). -/
def State.showLatency (s : State) (d : MDie) (p : MemPiece) : State :=
  s.wr Obj.memPortMaxlat d.die p.req.port.val ((max (s.rdN Obj.memPortMaxlat d.die p.req.port.val) (min (s.now d.pdie - p.enter) (2 ^ 32 - 1)) : Nat) : Int)

/-- A piece's commands go out: its ACT is counted; a write is done, a read waits for its data. -/
def State.issuePiece (s : State) (d : MDie) (c : Nat) (p : MemPiece) : State :=
  let q := { p with issued := some (s.now d.pdie) }
  let s := s.updRam d (fun m => { m with pieces := if p.req.write then m.pieces.erase p else m.pieces.map (fun x => if x = p then q else x) })
  let s := s.updChan d c (fun x =>
    { x with recent := keepNewest 32 (x.recent ++ [q]), dirWrite := p.req.write, run := if x.dirWrite = p.req.write then x.run + 1 else 1 })
  let s := s.countActivate d c p.rank p.bank
  let s := if p.req.write ∧ ¬ p.null then
      (s.updRam d (fun m => { m with mem := m.mem.write p.req.addr p.req.data })).writeFlips d c p.req
    else s
  let s := if p.req.write then (s.showLatency d p).busPiece d p.req.master p.req.id p.req.addr [] false else s
  s.showPort d p.req.port.val

/-- DRAM_COMMAND_ISSUE (R359, R360): late requests are marked, owed refreshes go out where they may, and the piece the channel picks
is issued. An injected parity error spoils its command (R491). -/
def execDramCommandIssue (d : MDie) (ch : Fin 12) (busy : List Nat) (s : State) : Out :=
  let c := ch.val
  when (s.up d.pdie && s.chanUp d c) s
    (let s := (s.markOverdue d c).payOwed d c
     if (s.chan d c).alert.isSome then s
     else
       match pickPiece (s.candidates d c busy [] (s.md d).ram.pieces) with
       | none => s.showChan d c
       | some (p, _) =>
         let s := s.issuePiece d c p
         let s := if 0 < (s.chan d c).parity then
             (s.updChan d c (fun x => { x with parity := x.parity - 1 })).parityAlert d c
           else s
         s.showChan d c)

/-! ### ECC (R369) -/

/-- Beats of a read with corrected errors. -/
def State.eccCorrected (s : State) (d : MDie) (c : Nat) (l : List Nat) : State :=
  l.foldl (fun (s : State) b =>
    let told := s.bit Obj.memChSticky d.die c 0
    let s := (s.bump Obj.memChCeCount d.die c).wr Obj.memChEccLast d.die c ((2 ^ 62 + b * 8 : Nat) : Int)
    let s := s.setBit Obj.memChSticky d.die c 0
    if told then s else s.raise d.pdie 0x3007 c (payloadOf [(16, c), (40, b * 8)])) s

/-- Beats of a read with uncorrectable errors: event 0x3008 once per burst. -/
def State.eccUncorrectable (s : State) (d : MDie) (c : Nat) (l : List Nat) : State :=
  (l.foldl (fun (acc : State × List Nat) b =>
    let s := acc.1
    let s := (s.bump Obj.memChUeCount d.die c).wr Obj.memChEccLast d.die c ((2 ^ 63 + b * 8 : Nat) : Int)
    let s := (s.setBit Obj.memChSticky d.die c 1).setBit Obj.memSticky d.die 0 2
    if b / 8 ∈ acc.2 then (s, acc.2) else (s.raise d.pdie 0x3008 c (payloadOf [(16, c), (40, b * 8)]), acc.2 ++ [b / 8])) (s, [])).1

/-- Beats of a range that read back in error: single and uncorrectable ones, those stored so and those the devices spoil now. -/
def State.beatErrors (s : State) (d : MDie) (addr len : Nat) (single multi : List Nat) : List Nat × List Nat :=
  let l := beatList addr len
  let f := (s.md d).ram.flips
  let ue := l.filter (fun b => decide (b ∈ multi) || tabGet f b 0 == 2)
  (l.filter (fun b => decide (b ∉ ue) && (decide (b ∈ single) || tabGet f b 0 == 1)), ue)

/-- DRAM_READ_RETURN (R369): the oldest read of the channel returns; `single` and `multi` are the beats (address / 8) that the
devices spoil. The bytes of a store, and of an uncorrectable beat, have values the spec does not state. -/
def execDramReadReturn (d : MDie) (ch : Fin 12) (single multi : List Nat) (s : State) : Out :=
  let c := ch.val
  match (s.md d).ram.pieces.find? (fun p => p.ch == c && !p.queued) with
  | none => .next s
  | some p =>
    let r := p.req
    when (s.up d.pdie) s
      (let (ce, ue) := s.beatErrors d r.addr r.len single multi
       let bad := !ue.isEmpty
       let s := s.updRam d (fun m => { m with pieces := m.pieces.erase p })
       let s := s.updChan d c (fun x => { x with recent := x.recent.map (fun q => if q.req = r ∧ q.issued = p.issued then { q with bad := q.bad || bad } else q) })
       let s := if p.again ∧ p.bad then s else (s.eccCorrected d c ce).eccUncorrectable d c ue
       let (data, s) := if bad ∨ s.storeHeld d r.addr then s.freeBytes r.len else ((s.md d).ram.mem.read r.addr r.len, s)
       let (s, hit) := s.receiveBeats d r.master (beatsOf r.addr r.len)
       let s := s.readUse d r.use p.enter ((bad && !p.bad) || hit)
       let s := s.showLatency d p
       if p.again then s else s.busPiece d r.master r.id r.addr data (bad || hit))

/-! ### Scrubbing (R370) -/

/-- SCRUB_GRANULE (R370): one granule at MEM.SCRUB.ADDR is read; corrected beats are written back unless another port wrote their
burst meanwhile (`overwritten`). A brown-out pass that is due starts at address 0. -/
def execScrubGranule (d : MDie) (single multi overwritten : List Nat) (s : State) : Out :=
  when (s.up d.pdie && s.secOn d 5 && decide (s.rdN Obj.memScrubAddr d.die 0 < s.rdN Obj.memCapacity d.die 0)
      && s.chanUp d (s.memLoc d (s.rdN Obj.memScrubAddr d.die 0)).ch) s
    (let start := (s.power d.pdie).scrubDue && !(s.md d).ram.fast
     let s := if start then
         (s.updRam d (fun m => { m with fast := true, corrected := 0, uncorrectable := 0 })).wr Obj.memScrubAddr d.die 0 0
       else s
     let a := s.rdN Obj.memScrubAddr d.die 0
     let (ce, ue) := s.beatErrors d a 256 single multi
     let c := (s.memLoc d a).ch
     let s := (s.eccCorrected d c ce).eccUncorrectable d c ue
     let s := s.updRam d (fun m =>
       { m with corrected := m.corrected + ce.length, uncorrectable := m.uncorrectable + ue.length,
                flips := m.flips.filter (fun e => !(decide (e.1 ∈ ce) && decide (e.1 / 8 ∉ overwritten))) })
     (s.wr Obj.memScrubAddr d.die 0 (a + 256 : Nat)).setBit Obj.memStatus d.die 0 3)

/-- SCRUB_PASS_COMPLETE (R370): the whole range was read; event 0x3010, and a pass begins at address 0. -/
def execScrubPassComplete (d : MDie) (s : State) : Out :=
  let m := (s.md d).ram
  when (s.up d.pdie && decide (0 < s.rdN Obj.memCapacity d.die 0)
      && decide (s.rdN Obj.memCapacity d.die 0 ≤ s.rdN Obj.memScrubAddr d.die 0)) s
    (let (ce, s) := s.item32 m.corrected
     let (ue, s) := s.item32 m.uncorrectable
     let s := s.raise d.pdie 0x3010 0 (payloadOf [(16, if m.fast then 2 else 1), (32, ce), (32, ue)])
     let s := if m.fast then s.updPower d.pdie (fun p => { p with scrubDue := false }) else s
     let s := s.updRam d (fun m => { m with fast := false, corrected := 0, uncorrectable := 0 })
     (s.wr Obj.memScrubAddr d.die 0 0).clrBit Obj.memStatus d.die 0 3)

/-! ### Tracking, eye checks, retraining in service (R373–R375) -/

/-- The next in-service retrain runs: one channel at a time (R375). -/
def State.nextRetrain (s : State) (d : MDie) : State :=
  match (s.md d).ram.retrains with
  | [] => s
  | c :: _ => if s.rdN Obj.memChState d.die c = 3 then s.wr Obj.memChState d.die c 5 else s

/-- An in-service retrain is asked for; a second trigger for a channel is merged (R375, R378). -/
def State.askRetrain (s : State) (d : MDie) (c : Nat) : State :=
  if c ∈ (s.md d).ram.retrains then s
  else (s.updRam d (fun m => { m with retrains := m.retrains ++ [c] })).nextRetrain d

/-- STROBE_DRIFT_TRACK (R373): each byte lane moves by at most one step. -/
def execStrobeDriftTrack (d : MDie) (ch : Fin 12) (moves : List Int) (s : State) : Out :=
  let c := ch.val
  when (s.up d.pdie && s.chanUp d c && (s.mode == .service || s.mode == .selvedge || s.mode == .recovery)) s
    (let old := (s.chan d c).lanes
     let new := (List.range 9).map (fun k => (k, tabGet old k 0 + max (-1) (min 1 (moves.getD k 0))))
     let big := fun (l : Int) (n : Nat) => decide (n < l.natAbs)
     let worst := new.foldl (fun (a : Int) x => if a.natAbs < x.2.natAbs then x.2 else a) 0
     let s := (s.updChan d c (fun x => { x with lanes := new })).wr Obj.memChDrift d.die c worst
     let s := (new.filter (fun x => big x.2 12 && !big (tabGet old x.1 0) 12)).foldl (fun (s : State) x =>
       ((s.setBit Obj.memChSticky d.die c 6).raise d.pdie 0x300B c (p16 [c, x.1, x.2])).setBit Obj.memChStatus d.die c 3) s
     if new.any (fun x => big x.2 16 && !big (tabGet old x.1 0) 16) then s.askRetrain d c else s)

/-- EYE_CHECK (R374): a pending eye check of a channel ends, with the rank and byte lane that failed. A parity alert makes the slot
be repeated (R378). -/
def execEyeCheck (d : MDie) (ch : Fin 12) (failed : Option (Nat × Nat)) (s : State) : Out :=
  let c := ch.val
  when (s.up d.pdie && s.chanUp d c && s.bit Obj.memChStatus d.die c 3 && (s.chan d c).alert.isNone && !s.chanUrgent d c) s
    (let s := s.clrBit Obj.memChStatus d.die c 3
     let left := (s.memEnabled d).any (fun k => s.bit Obj.memChStatus d.die k 3)
     let s := if left then s else s.updPower d.pdie (fun p => { p with eyeDue := false })
     match failed with
     | none => s
     | some (rank, lane) =>
       ((s.setBit Obj.memChSticky d.die c 7).raise d.pdie 0x300A c (p16 [c, rank, lane])).askRetrain d c)

/-- MEM_CH_RETRAIN (R375): a write of 1 to MEM.CH.RETRAIN. A channel that is not active has nothing to retrain. -/
def execMemChRetrain (d : MDie) (ch : Fin 12) (s : State) : Out :=
  let c := ch.val
  when s.serverUp s
    (if ¬ s.reachable d then s.ans (.unreachable d.num)
     else if s.chanUp d c then (s.askRetrain d c).ans .ok
     else s.ans (.noEffect (s.rdN Obj.memChState d.die c)))

/-- A channel takes new settings: its smallest eye, no drift. -/
def State.newSettings (s : State) (d : MDie) (c eye : Nat) : State :=
  let s := s.updChan d c (fun x => { x with lanes := [], failed := false })
  ((s.wr Obj.memChMargin d.die c (eye : Nat)).wr Obj.memChDrift d.die c 0).wr Obj.memChState d.die c 3

/-- IN_SERVICE_RETRAIN_DONE (R375): with the smallest eye in ps of a working setting, if one was found. -/
def execInServiceRetrainDone (d : MDie) (ch : Fin 12) (eye : Option Nat) (s : State) : Out :=
  let c := ch.val
  when (s.up d.pdie && (s.md d).ram.retrains.head? == some c && s.chanUp d c && (s.chan d c).alert.isNone) s
    (let s := s.updRam d (fun m => { m with retrains := m.retrains.tail })
     let s := match eye with
       | some e => (s.newSettings d c e).raise d.pdie 0x300C c (p16 [c, e])
       | none =>
         let s := (s.wr Obj.memChState d.die c 3).updChan d c (fun x => { x with failed := true })
         let s := ((s.setBit Obj.memChSticky d.die c 8).setBit Obj.memSticky d.die 0 3).raise d.pdie 0x300D c (p16 [c])
         s.recoveryFault d 0x300D
     s.nextRetrain d)

/-! ### Full retrain and fences (R357, R375, R376) -/

/-- Subject index of a frame synchronizer's ring (R358). -/
def subjFsy : Nat := 0x1610

/-- The groups of R376, in order. -/
def State.reallocGroup (s : State) (d : MDie) (x : Store) : Nat :=
  if x.subject = subjAudFlow then 1
  else if x.subject = subjEnc then
    (match s.rdN Obj.encChPriority d.die x.inst with | 0 => 2 | 1 => 3 | _ => 8)
  else if x.subject = subjFsy then 4
  else if x.subject = 0x2401 then 5
  else if x.subject = subjChain then 6
  else 7

/-- A resource that no longer fits is disabled, with its subject's event (R358, R376). -/
def State.disableStore (s : State) (d : MDie) (x : Store) : State :=
  let n := x.inst
  if x.subject = subjAudFlow then
    (s.updAud d (fun a => { a with flows := tabDel a.flows n })).raise d.pdie 0x1407 n (p16 [1, n, 11])
  else if x.subject = subjEnc then
    let s := (s.encCut d n).encReject d n 8
    (s.updEnc d n (fun y => { y with moveTo := some 0xFF })).ans .ok
  else if x.subject = subjFsy then
    ((s.clrBit Obj.fsyStatus d.die n 0).loomReject d 8 0xFFFF n).ans .ok
  else if x.subject = 0x2401 then (s.decReject d n 4).wr Obj.decCtxState d.die n 0
  else if x.subject = subjChain then
    ((s.cnvReject d n 8).updChain d n (fun y => { y with work := none, pend := none })).ans .ok
  else if x.subject = subjFelt then
    ((s.cmpReject d n 5 none).updCmp d n (fun y => { y with work := none, pend := none, staged := none })).ans .ok
  else ((s.cmpReject d 0xFF 7 none)).ans .ok

/-- A store placed by subject and instance. -/
def insertStore (x : Store) : List Store → List Store
  | [] => [x]
  | y :: l => if x.subject * 65536 + x.inst ≤ y.subject * 65536 + y.inst then x :: y :: l else y :: insertStore x l

/-- Every allocation of a die is made again in the order of R376; those that do not fit are disabled. -/
def State.reallocate (s : State) (d : MDie) : State :=
  let all := (s.md d).stores
  let byInst := fun (l : List Store) => l.foldr insertStore []
  let order := [1, 2, 3, 4, 5, 6, 7, 8].flatMap (fun g => byInst (all.filter (fun x => s.reallocGroup d x == g)))
  let s := s.updStores d (fun _ => [])
  order.foldl (fun (s : State) x =>
    match s.allocStores d x.subject x.inst [runBlocks x.runs * blockBytes] x.traffic with
    | .ok s => s
    | .error (kind, short) => (s.disableStore d x).memRefuse d kind x.subject short) s

/-- After a fence every byte of the die's DRAM is undefined; the graphics region is lost, and Gauze maps read as zeros. -/
def State.loseContents (s : State) (d : MDie) : State :=
  let e := s.freeCtr
  let s := { s with freeCtr := e + 1 }
  let s := s.updRam d (fun m => { m with mem := { cells := [], lost := some e }, flips := [] })
  let s := s.updVideo d (fun v => { v with surf := [] })
  s.updMd d (fun m => { m with enc := m.enc.map (fun x => (x.1, { x.2 with maps := [] })) })

/-- A channel is fenced (R357, R375, R376). -/
def State.fence (s : State) (d : MDie) (c : Nat) : State :=
  let s := (s.wr Obj.memChState d.die c 7).clrBit Obj.memChEnabled d.die 0 c
  let s := (s.setBit Obj.memSticky d.die 0 0).updChan d c (fun _ => ChanSt.start)
  let gone := (s.md d).ram.pieces
  let s := s.updRam d (fun m => { m with pieces := m.pieces.filter (·.req.write), retrains := m.retrains.filter (· != c) })
  let s := gone.foldl (fun (s : State) p => if p.req.write then s else s.failPiece d p.ch p.req) s
  let s := s.updRam d (fun m => { m with pieces := [] })
  let s := gone.foldl (fun (s : State) p => (if p.req.write then s.busPiece d p.req.master p.req.id p.req.addr [] false else s).showPort d p.req.port.val) s
  let s := (s.remap d).raise .c 0x300E c (p16 [c])
  (s.loseContents d).reallocate d

/-- FULL_RETRAIN_DONE (R375): the settings a full retrain found, with their smallest eye, or none: the channel is fenced. With the
last one of a die its streams restart (R486); a die without a channel left becomes absent (R478). -/
def execFullRetrainDone (d : MDie) (ch : Fin 12) (eye : Option Nat) (s : State) : Out :=
  let c := ch.val
  when (s.up d.pdie && decide ((d, c) ∈ s.recov.acts)) s
    (let s := { s with recov := { s.recov with acts := s.recov.acts.filter (fun x => decide (x ≠ (d, c))) } }
     let s := match eye with
       | some e => s.newSettings d c e
       | none => s.fence d c
     if s.memN d = 0 then
       s.makeAbsent d 3
     else if s.recov.acts.any (fun x => x.1 == d) then s
     else if s.trans.any (fun t => t.target == .configure) then s
     else s.restartStreams d)

end Sys2Proof.Machine
end

