-- ==== Sys2Proof/Machine/Bus.lean ====
section
/-! DEFINITION. The bus matrix (R381–R400): decoding, transactions, semaphores, decode faults, master resets. -/

namespace Sys2Proof.Machine

/-! ### Targets (R383, R384) -/

/-- Decoded length of a register target's window (R383). -/
def windowLength (t : Nat) : Nat :=
  let k := 1024
  match t with
  | 3 => 2 * k | 4 => 256 * k | 5 => 64 * k | 6 => 64 * k | 7 => k * k | 8 => 2 * k * k | 9 => 2 * k * k | 10 => k * k
  | 11 => 4 * k * k | 12 => 4 * k * k | 13 => k * k | 14 => k * k | 15 => k * k | 16 => k * k | 17 => k * k | 18 => 4 * k * k
  | 19 => 2 * k * k | 20 => 64 * k | 21 => 64 * k | 22 => 16 * k * k | _ => 0

/-- Base of the first register window (R383). -/
def windowBase : Nat := 0xF100000000

/-- The target whose decoded length holds bytes wholly (R383, R384). -/
def State.targetOf (s : State) (d : MDie) (addr len : Nat) : Option Nat :=
  let inside := fun (base size : Nat) => decide (base ≤ addr) && decide (addr + len ≤ base + size)
  if inside 0 (s.rdN Obj.memCapacity d.die 0) then some 0
  else if inside 0xF000000000 (96 * 2 ^ 20) then some 1
  else if inside 0xF008000000 (16 * 2 ^ 20) then some 2
  else ((List.range 20).map (· + 3)).find? (fun t => inside (windowBase + (t - 3) * 2 ^ 24) (windowLength t))

/-- The sections that a target's registers belong to (R383). -/
def targetSections (t : Nat) : List Nat :=
  match t with
  | 0 => [5] | 1 => [29] | 2 => [15] | 3 => [1] | 4 => [1] | 5 => [1] | 6 => [0, 1] | 7 => [6, 7, 8, 9, 10, 11, 12, 13]
  | 8 => [14] | 9 => [15] | 10 => [16, 17] | 11 => [18] | 12 => [19, 20] | 13 => [21] | 14 => [22, 23] | 15 => [24, 25]
  | 16 => [26] | 17 => [27] | 18 => [28] | 19 => [5, 3, 4] | 20 => [2] | 21 => [1] | _ => [1]

/-- The section that decides whether an access decodes: the only one of the target, or that of the register addressed. -/
def accessSection (t sec : Nat) : Nat :=
  match targetSections t with
  | [n] => n
  | l => if sec ∈ l then sec else l.headD 1

/-- The target of an access that decodes (R384). -/
def State.decodes (s : State) (d : MDie) (m : Nat) (o : BusOp) : Option Nat :=
  match s.targetOf d o.addr o.len with
  | none => none
  | some t =>
    if (masterPermit m).testBit t ∧ o.addr / 4096 = (o.addr + o.len - 1) / 4096 ∧ s.secOn d (accessSection t o.sec) then some t
    else none

/-! ### Semaphores (R388) -/

/-- Bytes of a range that both bytes of bits 15:0 of semaphore `n` lie in. -/
def semCovered (ofs len n : Nat) : Bool := decide (ofs ≤ 8 * n + 6) && decide (8 * n + 8 ≤ ofs + len)

/-- The bytes of the semaphore target from an offset on. -/
def State.semBytes (s : State) (d : MDie) (ofs len : Nat) : List Byte :=
  (List.range len).map (fun k =>
    let a := ofs + k
    (natBe 8 (s.rdN Obj.busSemOwner d.die (a / 8))).getD (a % 8) 0)

/-- Semaphores that a range touches. -/
def semTouched (ofs len : Nat) : List Nat :=
  if len = 0 then [] else (List.range ((ofs + len - 1) / 8 - ofs / 8 + 1)).map (fun k => ofs / 8 + k)

/-- A read of the semaphore target: the bytes it covers, and free semaphores both of whose owner bytes it covers are acquired. -/
def State.semRead (s : State) (d : MDie) (m ofs len : Nat) : List Byte × State :=
  let b := s.semBytes d ofs len
  (b, (semTouched ofs len).foldl (fun (s : State) n =>
    if semCovered ofs len n ∧ s.rdN Obj.busSemOwner d.die n = 0 then s.wr Obj.busSemOwner d.die n (m + 1 : Nat) else s) s)

/-- A write of the semaphore target: the owner's zero over both owner bytes releases; every other write changes nothing and is
reported. -/
def State.semWrite (s : State) (d : MDie) (m ofs : Nat) (data : List Byte) : State :=
  (semTouched ofs data.length).foldl (fun (s : State) n =>
    if semCovered ofs data.length n ∧ s.rdN Obj.busSemOwner d.die n = m + 1 ∧ fieldAt data (8 * n + 6 - ofs) 2 = 0 then
      s.wr Obj.busSemOwner d.die n 0
    else (s.setBit Obj.busSticky d.die 0 4).raise d.pdie 0x3106 n (p16 [n, m])) s

/-- Debug is open for a scope: 0 the JTAG port, 1 the media-die debug ports (R467–R469); it stays closed while an erasure for
RETURN has not ended (R13, R469). -/
def State.debugOpen (s : State) (scope : Nat) : Bool :=
  !s.sec.erasing && match s.rdN Obj.lcsState .p 0 with
  | 0 => true
  | 1 => (s.sec.token.map (fun t => t.1.testBit scope)).getD false
  | 3 => true
  | _ => false

/-- A master may issue (R382, R391, R468): populated, running, not held in reset, and the debug port only while debug is open. -/
def State.mayIssue (s : State) (d : MDie) (m : Nat) (debugOpen : Bool) : Bool :=
  s.up d.pdie && s.secOn d 1 && decide (m < 39) && !(s.md d).bus.resets.any (fun r => r.1 == m) &&
    decide (((s.md d).bus.txns.filter (fun t => t.master == m)).length < 64) && (m != 32 || debugOpen)

/-- SEMAPHORE_READ (R388): bytes of the semaphore target. -/
def execSemaphoreRead (d : MDie) (m : Fin 39) (ofs len : Nat) (s : State) : Out :=
  when (s.mayIssue d m.val (s.debugOpen 1) && (masterPermit m.val).testBit 3 && decide (0 < len) && decide (ofs + len ≤ 2048)) s
    (let (b, s) := s.semRead d m.val ofs len
     s.send (.bus d m.val 0 b false false))

/-- SEMAPHORE_WRITE (R388). -/
def execSemaphoreWrite (d : MDie) (m : Fin 39) (ofs : Nat) (data : List Byte) (s : State) : Out :=
  when (s.mayIssue d m.val (s.debugOpen 1) && (masterPermit m.val).testBit 3 && decide (data ≠ []) && decide (ofs + data.length ≤ 2048)) s
    (s.semWrite d m.val ofs data)

/-! ### Transactions (R386–R390) -/

/-- Privileged masters (R382). -/
def busPrivileged (m : Nat) : Bool := m == 31 || m == 32 || m == 33

/-- A transaction takes its outstanding slot. -/
def State.addTxn (s : State) (d : MDie) (m : Nat) (o : BusOp) (left : Nat) (data : List Byte) (error parked : Bool) : State :=
  let got := if o.write then [] else [(o.addr, data)]
  let t : BusTxn := ⟨m, s.rdN Obj.busMasterGen d.die m, o, left, got, false, error, parked, false⟩
  (s.updBus d (fun b => { b with txns := b.txns ++ [t] })).showMaster d m

/-- A decode fault of an ordinary master is parked (R389). -/
def State.parkFault (s : State) (d : MDie) (m : Nat) (o : BusOp) : State :=
  let s := s.addTxn d m o 0 [] false true
  let s := (s.wr Obj.busMasterFaultAddr d.die m ((o.id % 256 * 2 ^ 56 + o.addr % 2 ^ 40 : Nat) : Int)).bump Obj.busMasterFaultCount d.die m
  ((s.bump Obj.busCount d.die 0).setBit Obj.busSticky d.die 0 0).raise d.pdie 0x3101 m (payloadOf [(16, m), (16, o.id), (40, o.addr)])

/-- A decode fault of a privileged master gets an error response (R390). -/
def State.errorResponse (s : State) (d : MDie) (m : Nat) (o : BusOp) : State :=
  let s := (s.bump Obj.busCount d.die 0).setBit Obj.busSticky d.die 0 1
  let s := s.raise d.pdie 0x3102 m (payloadOf [(16, m), (16, o.id), (40, o.addr)])
  (s.addTxn d m o 0 (List.replicate o.len 0) true false).deliver d

/-- A transaction at a target other than DRAM, served at once (R385). The semaphore target acts as R388 says; what other registers
and memories read as is not laid out by the spec. -/
def State.serveTarget (s : State) (d : MDie) (m t : Nat) (o : BusOp) : State :=
  let ofs := o.addr - windowBase
  let (data, s) := if t = 3 then
      (if o.write then ([], s.semWrite d m ofs o.data) else s.semRead d m ofs o.len)
    else if o.write then ([], s) else s.freeBytes o.len
  let (s, hit) := if o.write then (s, false) else s.receiveBeats d m (beatsOf o.addr o.len)
  let s := if hit then s.poisonUse d o.use else s
  let s := s.addTxn d m o 0 data false false
  (s.updBus d (fun b => { b with txns := b.txns.map (fun x => if hit ∧ x.master = m ∧ x.op = o then { x with poison := true } else x) })).deliver d

/-- A master's transaction (R386, R387): a decode fault, a DRAM access whose pieces then reach the channel controllers, or an access
of another target. -/
def State.busIssue (s : State) (d : MDie) (m : Nat) (o : BusOp) : State :=
  match s.decodes d m o with
  | none => if busPrivileged m then s.errorResponse d m o else s.parkFault d m o
  | some 0 =>
    let n := (o.addr + o.len - 1) / 256 - o.addr / 256 + 1
    (s.addCount Obj.busTargetWaits d.die 0 o.waited).addTxn d m o n [] false false
  | some t => (s.addCount Obj.busTargetWaits d.die t o.waited).serveTarget d m t o

/-- BUS_TRANSACTION_ISSUE (R386, R389, R390). A master with 64 transactions outstanding stalls, and one held in reset does not
issue. -/
def execBusTransactionIssue (d : MDie) (m : Fin 39) (o : BusOp) (s : State) : Out :=
  when (s.mayIssue d m.val (s.debugOpen 1) && decide (0 < o.len) && decide (o.len ≤ 4096) && decide (o.id < 256)
      && (!o.write || decide (o.data.length = o.len))) s
    (s.busIssue d m.val o)

/-! ### Master reset (R391, R392) -/

/-- A master is reset (R391); merged into a reset that has not been acknowledged (R392). -/
def State.masterReset (s : State) (d : MDie) (m : Nat) : State :=
  if (s.md d).bus.resets.any (fun r => r.1 == m) then s
  else
    let mine := (s.md d).bus.txns.filter (fun t => t.master == m)
    let s := s.wr Obj.busMasterGen d.die m ((1 - s.rdN Obj.busMasterGen d.die m : Nat) : Int)
    let s := s.updRam d (fun r => { r with pieces := r.pieces.map (fun p =>
      if p.req.master = m ∧ p.req.write ∧ p.queued then { p with null := true } else p) })
    let s := s.updBus d (fun b =>
      { b with resets := tabSet b.resets m (s.now d.pdie, mine.length),
               txns := (b.txns.filter (fun t => !(t.master == m && t.parked))).map (fun t => if t.master = m then { t with old := true } else t) })
    let s := (mine.filter (fun t => !t.op.write && !t.parked)).foldl (fun (s : State) t => s.poisonUse d t.op.use) s
    let s := (upto 256 (fun n => s.rdN Obj.busSemOwner d.die n == m + 1)).foldl (fun (s : State) n =>
      (s.wr Obj.busSemOwner d.die n 0).raise d.pdie 0x3107 n (p16 [n, m])) s
    s.showMaster d m

/-- MASTER_RESET (R391): by Die C after a decode fault, or by the recovery actions of a block's chapter. -/
def execMasterReset (d : MDie) (m : Fin 39) (s : State) : Out := when (s.up d.pdie && s.secOn d 1) s (s.masterReset d m.val)

/-- MASTER_RESET_ACK (R391): no response of the old generation remains. -/
def execMasterResetAck (d : MDie) (m : Fin 39) (s : State) : Out :=
  let b := (s.md d).bus
  when (s.up d.pdie && b.resets.any (fun r => r.1 == m.val) && !b.txns.any (fun t => t.master == m.val && t.old)) s
    (let n := (tabGet b.resets m.val (0, 0)).2
     let s := (s.updBus d (fun b => { b with resets := tabDel b.resets m.val, overruns := b.overruns.filter (· != m.val) })).bump Obj.busMasterResetCount d.die m.val
     (s.showMaster d m.val).raise d.pdie 0x3103 m.val (p16 [m.val, n]))

/-- RESET_DRAIN_OVERRUN (R392): responses of the old generation remain 1 ms after a reset. -/
def execResetDrainOverrun (d : MDie) (m : Fin 39) (s : State) : Out :=
  let b := (s.md d).bus
  when (s.up d.pdie && b.resets.any (fun r => r.1 == m.val) && b.txns.any (fun t => t.master == m.val && t.old)
      && decide ((tabGet b.resets m.val (0, 0)).1 + 1000000 ≤ s.now d.pdie) && !b.overruns.contains m.val) s
    ((((s.updBus d (fun b => { b with overruns := m.val :: b.overruns })).setBit Obj.busSticky d.die 0 3).raise d.pdie 0x3104 m.val (p16 [m.val])).recoveryFault d 0x3104)

/-- BUS_MASTER_RESET (R391): a write of 1 to BUS.MASTER.RESET, in TEST only. -/
def execBusMasterReset (d : MDie) (m : Fin 48) (s : State) : Out :=
  when s.serverUp s
    (if s.mode ≠ .test ∨ 39 ≤ m.val then s.ans .access
     else if ¬ s.reachable d then s.ans (.unreachable d.num)
     else (s.masterReset d m.val).ans .ok)

end Sys2Proof.Machine
end

