-- ==== Sys2Proof/Machine/Selvedge.lean ====
section
/-! DEFINITION. The pair (R401–R419): compares and their outcomes, resynchronization, heartbeats, partner failure, SPLIT, the
background test. The return from OUT stands in Machine/Rejoin.lean. -/

namespace Sys2Proof.Machine

/-- SLV.STATUS follows the states (R418). -/
def State.showPair (s : State) : State :=
  let st := fun (d : MDie) => s.slvState d
  let cmp := fun (d : MDie) => st d == 1 || st d == 2 || st d == 6
  let s := s.putBit Obj.slvStatus .p 0 0 s.inSelvedge
  let s := s.putBit Obj.slvStatus .p 0 1 (cmp .a || cmp .b)
  let s := s.putBit Obj.slvStatus .p 0 2 (st .a == 4 || st .b == 4)
  s.putBit Obj.slvStatus .p 0 3 (s.ownsPair .b)

/-- SLV.STATE of a die. -/
def State.setSlv (s : State) (d : MDie) (st : Nat) : State := (s.wr Obj.slvState d.die 0 (st : Nat)).showPair

/-- A die becomes the owner (R402). -/
def State.setOwner (s : State) (d : MDie) : State := (s.wr Obj.slvOwner .p 0 (d.num : Nat)).showPair

/-- The states in which a die compares (R413): ALIGNING, PAIRED, REJOINING. -/
def State.compares (s : State) (d : MDie) : Bool :=
  s.up d.pdie && s.inSelvedge && (let st := s.slvState d; st == 1 || st == 2 || st == 6)

/-! ### Sources and resynchronization (R409, R410) -/

/-- The source behind an egress flow: 1 and the encode channel, 2 and the scan-out output, or 3 and the first router channel. -/
def State.flowSource (s : State) (d : MDie) (f : Nat) : Nat × Nat :=
  let b := s.outDesc d f
  (if descKind b ∈ [5, 6, 7] then 1 else if descAudio b then 3 else 2, descTarget b)

/-- A resynchronization is due: for a channel Die C writes a key-picture request at die P, and the picture it lands on is an IDR
picture on both dies (R409). -/
def State.askResync (s : State) (kind n : Nat) (src : MDie) : State :=
  if s.pair.resyncs.any (fun r => r.1 == kind && r.2.1 == n) then s
  else
    let s := { s with pair := { s.pair with resyncs := s.pair.resyncs ++ [(kind, n, src)] } }
    if kind = 1 then
      [MDie.a, MDie.b].foldl (fun (s : State) d =>
        if s.up d.pdie ∧ s.encState d n = 2 then
          (s.keyRequest d n (s.time.base + 100000)).updEnc d n (fun x => { x with cause := { x.cause with start := true } })
        else s) s
    else s

/-- The state record of a channel is copied from one die to the other (R409). -/
def State.copyChannel (s : State) (src : MDie) (c : Nat) : State :=
  let x := s.enc src c
  let d := src.other
  let s := s.updEnc d c (fun y =>
    { y with fs := x.fs, dacc := x.dacc, hist := x.hist, prev := x.prev, lastIrap := x.lastIrap, next := x.next, first := x.first,
             base := x.base, codeNext := x.codeNext, cause := { y.cause with request := x.cause.request }, sei := x.sei, cc := x.cc,
             psiAt := x.psiAt, disc := x.disc, refPics := x.refPics })
  ((s.outFlows src).filter (fun f => s.flowSource src f == (1, c))).foldl (fun (s : State) f =>
    let n := (s.flowOut src f).seq
    s.updFlowOut d f (fun y => { y with seq := n })) s

/-- The destination ports behind an output: its own, or those of its compositor's layers. -/
def State.outPorts (s : State) (d : MDie) (m : Nat) : List Nat :=
  let src := match (s.outp d m).work with | some g => g.source | none => 0
  if src / 4096 = 1 then (List.range 16).filterMap (fun k => s.dstOf d 3 (src % 4096 * 16 + k)) else (s.dstOf d 1 m).toList

/-- Blocks that may stand in a row between an ingress flow and an output. -/
def chainDepth : Nat := 8

/-- The frame synchronizers behind destination ports: those of the source ports they show, and those behind the conversion chains and
compositors that feed them (R409). -/
def State.fsyBehind (s : State) (d : MDie) : Nat → List Nat → List Nat
  | 0, _ => []
  | k + 1, ports => ports.flatMap (fun p =>
      let q := routePort (s.activeRoute d p)
      (s.fsyFor d q).toList ++ (match s.srcBind d q with
        | (3, n) => s.fsyBehind d k (s.dstOf d 2 n).toList
        | (4, n) => s.fsyBehind d k ((List.range 16).filterMap (fun l => s.dstOf d 3 (n * 16 + l)))
        | _ => []))

/-- Another source's state is copied: the synchronizers behind it and the playout offsets of audio flows (R409). -/
def State.copySource (s : State) (src : MDie) (kind n : Nat) : State :=
  let d := src.other
  let l := if kind = 2 then (s.fsyBehind src chainDepth (s.outPorts src n)).eraseDups else []
  let s := l.foldl (fun (s : State) k =>
    let x := s.fsy src k
    (s.updFsy d k (fun y => { y with unread := x.unread, shown := x.shown })).setFill d k) s
  (s.md src).audio.flows.foldl (fun (s : State) e => s.updAudFlow d e.1 (fun y => { y with k := e.2.k })) s

/-- RESYNCHRONIZATION (R409): the oldest one that is due completes. -/
def execResynchronization (s : State) : Out :=
  match s.pair.resyncs with
  | [] => .next s
  | (kind, n, src) :: rest =>
    when (s.serverUp && s.inSelvedge && s.up .a && s.up .b) s
      (let s := { s with pair := { s.pair with resyncs := rest } }
       let s := if kind = 1 then s.copyChannel src n else s.copySource src kind n
       let clear := fun (s : State) (d : MDie) =>
         let l := (s.md d).slv.bad.filter (fun f => s.flowSource d f != (kind, n))
         s.updSlv d (fun x => { x with bad := l })
       let s := clear (clear s .a) .b
       (s.bump Obj.slvResyncCount src.other.die 0).raise .c 0x3206 n (p16 [min kind 2, n]))

/-- A divergence is counted toward the limit of R410; at the limit Die C resets the die that is not the owner. -/
def State.diverge (s : State) (source : Nat) : State :=
  let now := s.time.base
  let win := s.rdN Obj.slvDivergeWindow .p 0 * 1000000000
  let l := (s.pair.diverged.filter (fun t => decide (now < t + win))) ++ [now]
  if l.length < s.rdN Obj.slvDivergeLimit .p 0 then { s with pair := { s.pair with diverged := l } }
  else
    let s := { s with pair := { s.pair with diverged := [] } }
    let d := if s.ownsPair .a then MDie.b else .a
    let s := s.raise .c 0x320D source (p16 [source])
    if s.reachable d ∧ s.slvState d ≠ 5 then (s.resetMedia d 5 .resetAlone).showPair else s

/-! ### Packet compare (R405–R407) -/

/-- A packet leaves the table for its queue; a die that rejoins sends nothing of a flow that has not matched (R416). -/
def State.release (s : State) (d : MDie) (h : HeldPkt) : State :=
  let s := s.updSlv d (fun x => { x with table := x.table.erase h })
  if s.slvState d = 6 ∧ h.flow ∉ (s.md d).slv.matched then s else s.pushPackets d [(h.queue, h.pkt)]

/-- Both records agree (R406): the match is recorded with the packet's release. -/
def State.pairMatch (s : State) (d : MDie) (h : HeldPkt) : State :=
  let t := max (s.now d.pdie) (h.pkt.release.getD 0)
  let s := s.updSlv d (fun x =>
    { x with lastMatch := tabSet x.lastMatch h.flow t, matched := if h.flow ∈ x.matched then x.matched else x.matched ++ [h.flow] })
  (s.release d h).bump Obj.slvMatchCount d.die 0

/-- The die's packet is suppressed (R407): it consumes its number and is not sent; its source is taken from the partner. Only the first
mismatch of a flow before its resynchronization raises an event. -/
def State.suppress (s : State) (d : MDie) (h : HeldPkt) : State :=
  let told := decide (h.flow ∈ (s.md d).slv.bad)
  let s := s.updSlv d (fun x => { x with table := x.table.erase h, bad := if told then x.bad else x.bad ++ [h.flow] })
  let s := (s.bump Obj.slvSuppressCount d.die 0).setBit Obj.slvSticky .p 0 1
  let s := if told then s else s.raise d.pdie 0x3205 h.flow (p16 [h.flow, h.seq])
  let (kind, n) := s.flowSource d h.flow
  s.askResync kind n d.other

/-- Records differ and neither die has an error (R407): both release. The first one of a flow before its resynchronization is
reported, outside REJOINING; the pair's divergence is counted once, with the owner's. -/
def State.mismatch (s : State) (d : MDie) (h : HeldPkt) : State :=
  let rejoin := s.slvState d = 6 ∨ s.slvState d.other = 6
  let first := h.flow ∉ (s.md d).slv.bad
  let s := (s.release d h).bump Obj.slvMismatchCount d.die 0
  let s := s.updSlv d (fun x => { x with bad := if h.flow ∈ x.bad then x.bad else x.bad ++ [h.flow] })
  let (kind, n) := s.flowSource d h.flow
  let owner := if s.ownsPair .a then MDie.a else .b
  let s := if rejoin then s else
    let s := s.setBit Obj.slvSticky .p 0 0
    let s := if d = owner then s.bump Obj.slvCount .p 0 else s
    if first then s.raise d.pdie 0x3202 h.flow (p16 [h.flow, h.seq]) else s
  let s := s.askResync kind n owner
  if ¬ rejoin ∧ first ∧ d = owner then s.diverge n else s

/-- The outcome of a compare (R407). -/
def State.outcome (s : State) (d : MDie) (h : HeldPkt) (r : CmpRec) : State :=
  if r.crc = h.crc ∧ r.len = h.len then s.pairMatch d h
  else if h.err then s.suppress d h
  else if r.err then s.release d h
  else s.mismatch d h

/-- Entries of the compare table (R407). -/
def compareMax : Nat := 4096

/-- PACKET_COMPLETE_COMPARE (R405, R407): the oldest complete packet enters the table and its record goes to the partner; with the
table full it is released uncompared. A record that waits for it decides at once. -/
def execPacketCompleteCompare (d : MDie) (s : State) : Out :=
  match (s.md d).slv.built with
  | [] => .next s
  | h :: rest =>
    when (s.compares d) s
      (let full := decide (compareMax ≤ (s.md d).slv.table.length)
       let s := s.updSlv d (fun x => { x with built := rest, table := x.table ++ [h] })
       let s := s.send (.pair d (compareBytes d h.record))
       if full then (s.release d h).bump Obj.slvUncomparedCount d.die 0
       else
         match (s.md d).slv.orphans.find? (fun o => o.1.flow == h.flow && o.1.seq == h.seq) with
         | none => s
         | some o => (s.updSlv d (fun x => { x with orphans := x.orphans.erase o })).outcome d h o.1)

/-- COMPARE_RECORD_RECEIVED (R407). -/
def execCompareRecordReceived (d : MDie) (r : CmpRec) (s : State) : Out :=
  when (s.compares d) s
    (match (s.md d).slv.table.find? (fun h => h.flow == r.flow && h.seq == r.seq) with
     | some h => s.outcome d h r
     | none => s.updSlv d (fun x => { x with orphans := x.orphans ++ [(r, s.now d.pdie)] }))

/-- The wait of R407. -/
def compareWait : Nat := 6000

/-- COMPARE_TIMEOUT (R407, R414): the oldest packet of the table has waited 6 µs. -/
def execCompareTimeout (d : MDie) (s : State) : Out :=
  match (s.md d).slv.table with
  | [] => .next s
  | h :: _ =>
    when (s.up d.pdie && s.inSelvedge && decide (h.at_ + compareWait ≤ s.now d.pdie)) s
      (let told := s.bit Obj.slvSticky .p 0 4
       let s := ((s.release d h).bump Obj.slvTimeoutCount d.die 0).setBit Obj.slvSticky .p 0 4
       if told then s else s.raise d.pdie 0x320A h.flow (p16 [h.flow, h.seq]))

/-- ORPHAN_COMPARE_RECORD_EXPIRY (R407): a partner record without a packet is discarded 6 µs after it arrived. -/
def execOrphanCompareRecordExpiry (d : MDie) (s : State) : Out :=
  match (s.md d).slv.orphans with
  | [] => .next s
  | o :: rest =>
    when (s.up d.pdie && decide (o.2 + compareWait ≤ s.now d.pdie)) s (s.updSlv d (fun x => { x with orphans := rest }))

/-- DECISION_RECORD_RECEIVED (R404): the partner holds the owner's decision until it applies it. -/
def execDecisionRecordReceived (d : MDie) (r : Decision) (s : State) : Out :=
  when (s.compares d && !s.ownsPair d) s (s.updSlv d (fun x => { x with decisions := x.decisions ++ [r] }))

/-! ### Heartbeats (R411–R414) -/

/-- A die takes part in heartbeats (R411, R413): neither OFF nor OUT. -/
def State.beats (s : State) (d : MDie) : Bool :=
  s.up d.pdie && s.inSelvedge && s.slvState d != 0 && s.slvState d != 5

/-- HEARTBEAT_SEND (R411): on both paths. -/
def execHeartbeatSend (d : MDie) (s : State) : Out :=
  when (s.beats d) s
    (let x := (s.md d).slv
     (s.send (.pair d (heartbeatBytes d (s.slvState d) x.hbSeq s.pair.gen x.errCount))).updSlv d
       (fun x => { x with hbSeq := (x.hbSeq + 1) % 2 ^ 32 }))

/-- A die declares its partner failed (R414): SOLO, owner; packets not yet in the table leave at once, those in it under the
timeout rule. -/
def State.declare (s : State) (d : MDie) : State :=
  let built := (s.md d).slv.built
  let s := s.updSlv d (fun x => { x with built := [], orphans := [], decisions := [] })
  let s := s.setSlv d 3
  let s := s.pushPackets d (built.map (fun h => (h.queue, h.pkt)))
  let s := (s.setBit Obj.slvSticky .p 0 2).raise d.pdie 0x3203 d.num (p16 [d.num, s.rdN Obj.slvPathStatus d.die 0])
  s.setOwner d

/-- A path's state after a heartbeat period: a fault after 4 copies missing that came on the other path, up again after 4
copies (R411). -/
def State.hbPath (s : State) (d : MDie) (path miss good other : Nat) : State :=
  let up := s.bit Obj.slvPathStatus d.die 0 path
  if up ∧ 4 ≤ miss ∧ 4 ≤ other then
    ((s.clrBit Obj.slvPathStatus d.die 0 path).setBit Obj.slvSticky .p 0 7).raise d.pdie 0x3204 path (p16 [path])
  else if ¬ up ∧ 4 ≤ good then s.setBit Obj.slvPathStatus d.die 0 path
  else s

/-- HEARTBEAT_DEADLINE (R411, R414, R415): whether a good copy of the partner's heartbeat arrived over the bridge and through Die C. -/
def execHeartbeatDeadline (d : MDie) (bridge c : Bool) (s : State) : Out :=
  when (s.beats d) s
    (let got := bridge || c
     let s := if got then s else s.bump Obj.slvHbMissCount d.die 0
     let s := s.updSlv d (fun x =>
       { x with missBridge := if bridge then 0 else x.missBridge + 1, goodBridge := if bridge then x.goodBridge + 1 else 0,
                missC := if c then 0 else x.missC + 1, goodC := if c then x.goodC + 1 else 0 })
     let x := (s.md d).slv
     let s := s.hbPath d 0 x.missBridge x.goodBridge x.goodC
     let s := s.hbPath d 1 x.missC x.goodC x.goodBridge
     let s := if got then { s with pair := { s.pair with declared := [] } } else s
     let st := s.slvState d
     if st = 4 then
       if s.ownsPair d then s else { s with pair := { s.pair with heard := if got then s.pair.heard + 1 else 0 } }
     else if 4 ≤ min x.missBridge x.missC ∧ st ≠ 3 then s.declare d
     else s)

/-- OUT_HEARTBEAT_RECEIVED (R412): taken at once as a declaration of the partner's failure. -/
def execOutHeartbeatReceived (d : MDie) (s : State) : Out := when (s.compares d) s (s.declare d)

/-- What Die C does with a declaration, event 0x3203 (R414, R415): it notes it with its GSEQ, and resets the other die when that
die is reachable, not OUT and has not declared itself. -/
def State.declared (s : State) (d : MDie) (gseq : Nat) : State :=
  let s := { s with pair := { s.pair with declared := s.pair.declared ++ [(d, gseq)] } }
  let o := d.other
  if s.inSelvedge ∧ s.reachable o ∧ s.slvState o ≠ 5 ∧ s.slvState o ≠ 3 ∧ s.slvState o ≠ 4 then (s.resetMedia o 5 .resetAlone).showPair else s

/-! ### SPLIT (R415) -/

/-- The declaration of a die that Die C holds. -/
def State.declarationOf (s : State) (d : MDie) : Option Nat := (s.pair.declared.find? (fun x => x.1 == d)).map (·.2)

/-- SPLIT_ENTRY (R415): declarations of both dies and no heartbeat since; the lower GSEQ owns. -/
def execSplitEntry (s : State) : Out :=
  match s.declarationOf .a, s.declarationOf .b with
  | some ga, some gb =>
    when (s.serverUp && s.inSelvedge && s.slvState .a == 3 && s.slvState .b == 3) s
      (let o := if ga < gb then MDie.a else .b
       let s := { s with pair := { s.pair with declared := [], heard := 0 } }
       let s := (((s.setSlv .a 4).setSlv .b 4).setOwner o).setBit Obj.slvSticky .p 0 3
       s.raise .c 0x3207 o.num (p16 [o.num]))
  | _, _ => .next s

/-- A mirrored object (R401): index 0x1203–0x12FF or 0x1410–0x2FFF, on dies A and B. -/
def mirroredIndex (i : Nat) : Bool := (decide (0x1203 ≤ i) && decide (i ≤ 0x12FF)) || (decide (0x1410 ≤ i) && decide (i ≤ 0x2FFF))

/-- The mirrored objects that can be written; the others show what a die did. -/
def mirroredAddr (a : ObjAddr) : Bool :=
  mirroredIndex a.index && (match objAt a.index a.sub with
    | some o => o.acc == .rw || o.acc == .rwc || o.acc == .wo
    | none => false)

/-- The mirrored objects of one die are copied to the other (R413, R415, R416). -/
def State.copyMirrored (s : State) (src : MDie) : State :=
  let d := src.other
  let keep := fun (a : ObjAddr) => !(a.die == d.die && mirroredAddr a)
  let s' := { s with objs := s.objs.filter (fun e => keep e.1), blobs := s.blobs.filter (fun e => keep e.1) }
  let mine := fun (a : ObjAddr) => a.die == src.die && mirroredAddr a
  let s' := (s.objs.filter (fun e => mine e.1)).foldl (fun (t : State) e => { t with objs := mapPut t.objs { e.1 with die := d.die } e.2 }) s'
  (s.blobs.filter (fun e => mine e.1)).foldl (fun (t : State) e => { t with blobs := mapPut t.blobs { e.1 with die := d.die } e.2 }) s'

/-- Every source of a pair is resynchronized from a die (R415, R416): the source behind each of its egress flows. -/
def State.resyncAll (s : State) (src : MDie) : State :=
  (s.outFlows src).foldl (fun (s : State) f =>
    let (kind, n) := s.flowSource src f
    s.askResync kind n src) s

/-- A die goes to REJOINING (R415, R416): it compares again, and heartbeats and decisions resume. -/
def State.rejoin (s : State) (d : MDie) : State :=
  let s := s.updSlv d (fun x =>
    { x with built := [], table := [], orphans := [], matched := [], bad := [], missBridge := 0, missC := 0 })
  (s.setSlv d 6).resyncAll d.other

/-- SPLIT_REJOIN (R415): after 4 periods with heartbeats the die that is not the owner rejoins; the owner stands as SOLO until the
pair is PAIRED. -/
def execSplitRejoin (s : State) : Out :=
  let d := if s.ownsPair .a then MDie.b else .a
  when (s.serverUp && s.inSelvedge && s.slvState d == 4 && s.slvState d.other == 4 && decide (4 ≤ s.pair.heard)) s
    (let s := { s with pair := { s.pair with heard := 0 } }
     ((s.setSlv d.other 3).copyMirrored d.other).rejoin d)

/-! ### PAIRED, the background test (R413, R417) -/

/-- Every flow of a die that is not stopped has matched. -/
def State.allMatched (s : State) (d : MDie) : Bool :=
  ((s.outFlows d).filter (fun f => s.outState d f != 0)).all (fun f => decide (f ∈ (s.md d).slv.matched))

/-- PAIRED_ENTRY (R413). -/
def execPairedEntry (s : State) : Out :=
  when (s.serverUp && s.inSelvedge && s.slvState .a == 1 && s.slvState .b == 1 && s.allMatched .a && s.allMatched .b) s
    (((s.setSlv .a 2).setSlv .b 2).raise .c 0x3201 0 0)

/-- BIST_ROTATION (R417): the test of a die's idle elements moves to the next section; `bad` lists the elements of the section
tested until now that failed. -/
def execBistRotation (d : MDie) (bad : List Nat) (s : State) : Out :=
  when (s.up d.pdie && s.inSelvedge && s.slvState d == 2) s
    (let n := s.rdN Obj.slvBistSection d.die 0
     let s := bad.foldl (fun (s : State) e =>
       if s.elemBad d n e then s
       else
         let s := s.updMd d (fun m => { m with badElems := m.badElems ++ [(n, e)] })
         ((s.setBit Obj.slvSticky .p 0 6).bump Obj.slvBistFailCount d.die 0).raise d.pdie 0x320C n (p16 [n, e])) s
     s.wr Obj.slvBistSection d.die 0 ((if n < 29 then n + 1 else 6 : Nat) : Int))

end Sys2Proof.Machine
end

