-- ==== Sys2Proof/Machine/CueBase.lean ====
section
/-! DEFINITION. The cue table (R77–R85): an entry's fields, its instant, order, arming, past cues and repetition, and what a step
of the time base does on a media die (R62, R64, R85). -/

namespace Sys2Proof.Machine

/-! ### Fields (R77) -/

def cueFrame (b : List Byte) : Nat := fieldAt b 0 6
def cueLine (b : List Byte) : Nat := fieldAt b 6 2
def cueSample (b : List Byte) : Nat := fieldAt b 8 2
def cueAction (b : List Byte) : Nat := fieldAt b 10 1
def cueOrder (b : List Byte) : Nat := fieldAt b 11 1
def cueIndex (b : List Byte) : Nat := fieldAt b 12 2
def cueInst (b : List Byte) : Nat := fieldAt b 14 2
def cueArg (b : List Byte) : Nat := fieldAt b 16 8
def cuePeriod (b : List Byte) : Nat := fieldAt b 24 2
def cueRepeat (b : List Byte) : Nat := fieldAt b 26 2
def cueGroup (b : List Byte) : Nat := fieldAt b 28 1
def cueLate (b : List Byte) : Nat := fieldAt b 29 1 / 16

/-- LINE, SAMPLE, ACTION, LATE and the reserved bits lie in their ranges (R80). -/
def cueOk (f : Format) (b : List Byte) : Bool :=
  decide (1 ≤ cueLine b) && decide (cueLine b ≤ f.lines) && decide (cueSample b < f.samples) && decide (cueAction b ≤ 0x0B) &&
    decide (cueLate b ≤ 2) && decide (fieldAt b 29 3 % 2 ^ 20 = 0)

/-- An entry with another FRAME. -/
def cueWithFrame (b : List Byte) (n : Nat) : List Byte := overlay b 0 (natBe 6 n)

/-- An entry with another REPEAT. -/
def cueWithRepeat (b : List Byte) (n : Nat) : List Byte := overlay b 26 (natBe 2 n)

/-! ### Entries -/

def State.cueEntry (s : State) (d : MDie) (k : Nat) : List Byte := s.rdBytes Obj.timeCueEntry d.die k
def State.cueState (s : State) (d : MDie) (k : Nat) : Nat := s.rdN Obj.timeCueState d.die k

/-- State of an entry (R79): 0 EMPTY, 1 LOADED, 2 ARMED, 3 DISPATCHED, 4 DONE, 5 EXPIRED, 6 FAILED. -/
def State.setCue (s : State) (d : MDie) (k st : Nat) : State := s.wr Obj.timeCueState d.die k (st : Nat)

/-- A state with a die's cue stand-ins changed. -/
def State.updDieTime (s : State) (d : MDie) (f : DieTime → DieTime) : State := s.updMd d (fun m => { m with time := f m.time })

/-- The die's Reference Raster in force. -/
def State.refRaster (s : State) (d : MDie) : Format := fmt (s.md d).time.refFormat

/-- The entries in a state, in ascending number. -/
def State.cuesIn (s : State) (d : MDie) (st : Nat) : List Nat := s.listed Obj.timeCueState d.die (fun _ v => v == (st : Int))

/-- The instant of an entry's coordinate (R73, R77). -/
def State.cueCoordInstant (s : State) (d : MDie) (b : List Byte) : Instant :=
  instantOf (s.refRaster d) 0 ⟨cueFrame b, cueLine b, cueSample b⟩

/-- The instant of an entry: that of its coordinate, or the one that stands in for it (R83). -/
def State.cueInstant (s : State) (d : MDie) (k : Nat) : Instant :=
  match (s.md d).time.cueNow.find? (fun e => e.1 == k) with
  | some e => .ofNs e.2
  | none => s.cueCoordInstant d (s.cueEntry d k)

/-- An entry comes before another (R82): by instant, then ORDER, then number. -/
def State.cueBefore (s : State) (d : MDie) (a b : Nat) : Bool :=
  let x := s.cueInstant d a
  let y := s.cueInstant d b
  let p := cueOrder (s.cueEntry d a)
  let q := cueOrder (s.cueEntry d b)
  !(y.le x) || (x.le y && (decide (p < q) || (decide (p = q) && decide (a < b))))

/-- An instant lies before the die's time. -/
def State.passed (s : State) (d : MDie) (t : Instant) : Bool := !((Instant.ofNs (s.now d.pdie)).le t)

/-- FRAME advanced by whole multiples of PERIOD to the first instant that is not past (R83, R84). -/
def State.cueFuture (s : State) (d : MDie) (b : List Byte) : List Byte :=
  let g := (coordOf (s.refRaster d) 0 (s.now d.pdie)).frame
  let g := if s.passed d (s.cueCoordInstant d (cueWithFrame b g)) then g + 1 else g
  cueWithFrame b (cueFrame b + ceilDiv (g - cueFrame b) (cuePeriod b) * cuePeriod b)

/-- A past cue (R83): event 0x1210, and what its LATE field says. -/
def State.cuePast (s : State) (d : MDie) (k : Nat) : State :=
  let b := s.cueEntry d k
  let s := (s.bump Obj.timeCueLateCount d.die 0).raise d.pdie 0x1210 k (p16 [k, cueLate b])
  if cueLate b = 0 then (s.updDieTime d (fun t => { t with cueNow := tabSet t.cueNow k t.ctr })).setCue d k 2
  else if cueLate b = 2 ∧ cuePeriod b ≠ 0 then (s.wrBytes Obj.timeCueEntry d.die k (s.cueFuture d b)).setCue d k 2
  else s.setCue d k 5

/-- An entry is armed (R80): past where its instant lies before the time of the arming, or waiting. -/
def State.armCueAt (s : State) (d : MDie) (t : Instant) (k : Nat) : State :=
  if t.le (s.cueCoordInstant d (s.cueEntry d k)) then s.setCue d k 2 else s.cuePast d k

/-- An entry is armed by a write. -/
def State.armCue (s : State) (d : MDie) (k : Nat) : State := s.armCueAt d (.ofNs (s.now d.pdie)) k

/-- An entry goes back to LOADED. -/
def State.disarmCue (s : State) (d : MDie) (k : Nat) : State :=
  (s.updDieTime d (fun t => { t with cueNow := tabDel t.cueNow k, cueMore := t.cueMore.filter (· != k) })).setCue d k 1

/-- An entry has executed (R84): DONE, or armed for its next repetition, which may be a past cue at once. -/
def State.cueDone (s : State) (d : MDie) (k : Nat) : State :=
  let b := s.cueEntry d k
  let more := decide (k ∈ (s.md d).time.cueMore)
  let s := s.updDieTime d (fun t => { t with cueNow := tabDel t.cueNow k, cueMore := t.cueMore.filter (· != k) })
  if cuePeriod b = 0 ∨ cueRepeat b = 0 then s.setCue d k 4
  else
    let b := cueWithFrame b (cueFrame b + cuePeriod b)
    let b := if cueRepeat b = 0xFFFF then b else cueWithRepeat b (cueRepeat b - 1)
    if more then
      (s.wrBytes Obj.timeCueEntry d.die k (if s.passed d (s.cueCoordInstant d b) then s.cueFuture d b else b)).setCue d k 2
    else
      let s := (s.wrBytes Obj.timeCueEntry d.die k b).setCue d k 2
      if s.passed d (s.cueCoordInstant d b) then
        let s := s.cuePast d k
        if cueLate b = 0 then s.updDieTime d (fun t => { t with cueMore := t.cueMore ++ [k] }) else s
      else s

/-- An entry fails (R78): event 0x1211. -/
def State.cueFail (s : State) (d : MDie) (k reason : Nat) : State :=
  ((s.disarmCue d k).setCue d k 6).raise d.pdie 0x1211 k (p16 [k, reason])

/-- Every armed or dispatched entry returns to LOADED when a new Reference Raster takes effect (R71). -/
def State.cuesReturn (s : State) (d : MDie) : State := (s.cuesIn d 2 ++ s.cuesIn d 3).foldl (fun (s : State) k => s.disarmCue d k) s

/-! ### A step of the time base on a media die (R62, R64, R85) -/

/-- Entries that a forward step passes over are past cues; a dispatched one is withdrawn from its target (R85). -/
def State.cuesStepped (s : State) (d : MDie) (step : Int) : State :=
  if step ≤ 0 then s
  else
    let hit := (s.cuesIn d 2 ++ s.cuesIn d 3).filter (fun k => s.passed d (s.cueInstant d k) && !((s.md d).time.cueNow.any (fun e => e.1 == k)))
    (hit.foldl (fun (s : State) k => s.cuePast d k) s).inOrder s d

/-- The controllers of a die count on when its time steps (R360, R364): the instants they hold move with the time base. -/
def State.ramStep (s : State) (d : MDie) (step : Int) : State :=
  let move := fun (t : Nat) => ((t : Int) + step).toNat
  let clock := fun (t : Nat) => ((t : Int) + step * 8 / 5).toNat
  let piece := fun (p : MemPiece) => { p with enter := move p.enter, issued := p.issued.map move }
  s.updMd d (fun m => { m with ram := { m.ram with
    pieces := m.ram.pieces.map piece
    chans := m.ram.chans.map (fun x => (x.1, { x.2 with due := x.2.due.map (fun e => (e.1, clock e.2)), ref := x.2.ref.map (fun e => (e.1, clock e.2)),
                                                        recent := x.2.recent.map piece })) } })

/-- A media die's counter takes a step (R62): its outputs and compositors go over to their rasters under the new time, packets already paced
leave as under the old one (R64, R215); its encode channels, playout buffers and cues act as their chapters say (R85, R245, R344). -/
def State.dieStep (s : State) (d : MDie) (step : Int) : State :=
  let before := s
  let old := s.now d.pdie
  let s := s.updDieTime d (fun t => { t with ctr := ((t.ctr : Int) + step).toNat })
  let s := (upto 64 (fun m => s.outUsed d m)).foldl (fun (s : State) m => s.outStep d m old step) s
  let s := ((List.range 8).foldl (fun (s : State) n => s.cmpStep d n old step) s).ramStep d step
  let s := s.updNet d (fun n => { n with queues := n.queues.map (fun q =>
    (q.1, { q.2 with pkts := q.2.pkts.map (fun p => { p with release := p.release.map (fun r => ((r : Int) + step).toNat) }) })) })
  let s := (s.encChannels d).foldl (fun (s : State) c => s.encTimeStep d c step) s
  let s := (upto 4 (fun n => decide (2 ≤ s.decState d n))).foldl (fun (s : State) n => s.decRestart d n) s
  ((s.audTimeStep d).cuesStepped d step).inOrder before d

end Sys2Proof.Machine
end

