-- ==== Sys2Proof/Machine/Twill.lean ====
section
/-! DEFINITION. Twill commands (R421–R437). SYNC reception stands in Machine/Time.lean. -/

namespace Sys2Proof.Machine

/-- Die C serves the fabric: it runs, and a quad of the link is in mode 4. -/
def State.twlLive (s : State) (d : MDie) (q : Nat) : Bool := s.up .c && s.up d.pdie && s.quad d q == 4

/-- The quad's port is up. -/
def State.twlPortUp (s : State) (d : MDie) (q : Nat) : Bool := s.portUp d (4 * q)

/-- HELLO_SEND (R424): every Twill link whose port is up and that is not parked. -/
def execHelloSend (s : State) : Out :=
  when (s.up .c) s
    ((s.twlLinks.filter (fun l => s.up l.1.pdie && s.twlPortUp l.1 l.2 && s.tlinkState l.1 l.2 != 4)).foldl (fun s l =>
      s.twlSend l (s.twlMsg 0xFF (.hello s.twlSelf l.1.num l.2 (s.rdN Obj.twlState .p 0)))) s)

/-- The lowest serial number of a set of packages: their root (R426). -/
def rootOf : List TwlPkg → Option TwlPkg
  | [] => none
  | p :: ps => some (ps.foldl (fun b q => if q.serial < b.serial then q else b) p)

/-- The reason for which a package may not join a fabric, if there is one (R425): 2 Reference Raster, 4 firmware, 3
serial number, 1 more than 64 packages. -/
def joinReason (all : List TwlPkg) (p : TwlPkg) : Option Nat :=
  match rootOf all with
  | none => none
  | some r =>
    if p.ref ≠ r.ref then some 2
    else if p.fw / 2 ^ 24 ≠ r.fw / 2 ^ 24 then some 4
    else if 1 < (all.filter (fun q => q.serial == p.serial)).length then some 3
    else if 64 ≤ (all.filter (fun q => decide (q.serial < p.serial))).length then some 1
    else none

/-- Partners whose links are refused. -/
def State.refusedPeers (s : State) : List TwlPkg :=
  (s.twlLinks.filter (fun l => s.tlinkState l.1 l.2 == 5)).map (fun l => (s.tlink l.1 l.2).peer)

/-- The reason for which this package and a neighbour do not join: TIME.REF.FORMAT must be one on both media dies, and a serial number that
another package reported on a refused link stays refused. -/
def State.linkReason (s : State) (p : TwlPkg) : Option Nat :=
  let same := fun (q : TwlPkg) => q.serial == p.serial && q.id == p.id
  let all := s.twlSelf :: p :: s.twill.pkgs.filter (fun q => !same q)
  if s.rdN Obj.timeRefFormat .a 0 ≠ s.rdN Obj.timeRefFormat .b 0 then some 2
  else if s.refusedPeers.any (fun q => q.serial == p.serial && !same q) then some 3
  else match joinReason all p with
    | some r => some r
    | none => joinReason all s.twlSelf

/-- Channels whose source names a device that changed its ID are gone until a new commit (R427). -/
def State.dropDevice (s : State) (old : Nat) : State :=
  ((s.twill.rx.filter (fun e => e.2.device == old)).map (·.1)).foldl (fun s k =>
    s.freeRx (if k / 256 = 0 then .a else .b) (k % 256)) s

/-- A device ID changes in all that is kept of paths, records, slots and partners. -/
def State.renameDevice (s : State) (old new : Nat) : State :=
  let r := fun n => if n = old then new else n
  let hop := fun (h : TwlHop) => { h with id := r h.id }
  let ch := fun (c : Nat × Nat × Nat) => (r c.1, c.2)
  s.updTwill (fun t =>
    { t with recs := t.recs.map (fun x => { x with id := r x.id, rid := r x.rid }),
             rx := t.rx.map (fun e => (e.1, { e.2 with path := e.2.path.map hop, refused := e.2.refused.map hop })),
             tx := t.tx.map (fun e => (e.1, { e.2 with path := e.2.path.map hop, device := r e.2.device })),
             ways := t.ways.map (fun w => (ch w.1, w.2.map hop)),
             links := t.links.map (fun e => (e.1, { e.2 with tx := e.2.tx.map (fun c => (c.1, ch c.2)), rx := e.2.rx.map (fun c => (c.1, ch c.2)) })) })

/-- A package takes a device ID (R426, R427): what names it follows, unless another package of the set holds the old ID too. -/
def State.takeId (s : State) (serial id : Nat) : State :=
  let shared := fun (old : Nat) => (s.twlSelf :: s.twill.pkgs).any (fun q => q.serial != serial && q.id == old)
  if serial = s.twlSelf.serial then
    let old := s.twlId
    if old = id then s
    else
      let s := if old = 0xFF ∨ shared old then s else s.renameDevice old id
      let s := (s.wr Obj.twlDeviceId .p 0 (id : Nat)).setBit Obj.twlSticky .p 0 3
      (s.raise .c 0x3306 0 (p16 [old, id])).refreshTopology
  else
    match s.twill.pkgs.find? (fun p => p.serial == serial) with
    | none => s
    | some p =>
      if p.id = id then s
      else
        let s := if p.id = 0xFF ∨ shared p.id then s else (s.dropDevice p.id).renameDevice p.id id
        let s := s.updTwill (fun t =>
          { t with pkgs := t.pkgs.map (fun q => if q.serial = serial then { q with id := id } else q),
                   held := t.held.filter (fun h => decide (h.1 ≠ serial)),
                   links := t.links.map (fun e =>
                     if e.2.peer.serial = serial then (e.1, { e.2 with peer := { e.2.peer with id := id } }) else e) })
        s.refreshTopology

/-- A package is known to the fabric: event 0x3303 when it is new (R434). One that comes without an ID keeps its entry among the held ones
until the root gives it that ID again (R426). -/
def State.addPkg (s : State) (p : TwlPkg) : State :=
  if s.twill.pkgs.any (fun q => q.serial == p.serial) then
    let s := s.takeId p.serial p.id
    s.updTwill (fun t => { t with pkgs := t.pkgs.map (fun q => if q.serial = p.serial then p else q) })
  else
    let s := s.updTwill (fun t =>
      { t with pkgs := t.pkgs ++ [p], held := t.held.filter (fun h => decide (h.1 ≠ p.serial) || p.id == 0xFF) })
    s.raise .c 0x3303 p.id (payloadOf [(16, p.id), (64, p.serial)])

/-- A link does not join the fabric (R425): it stays up for HELLO alone; event 0x3307 tells the reason. One
that was up loses its channels. -/
def State.refuseLink (s : State) (d : MDie) (q r : Nat) : State :=
  let old := s.tlinkState d q
  let s := if old = 3 ∨ old = 4 then s.linkOut d q 5 else s.wr Obj.twlLinkState d.die q 5
  if old = 5 then s else (s.setBit Obj.twlSticky .p 0 7).raise .c 0x3307 q (p16 [r])

/-- A link comes up (R424, R425): it joins the fabric or stays refused. -/
def State.linkUp (s : State) (d : MDie) (q : Nat) (p : TwlPkg) : State :=
  match s.linkReason p with
  | some r => s.refuseLink d q r
  | none =>
    let s := s.wr Obj.twlLinkState d.die q 3
    let s := s.updTlink d q (fun k => { k with idle := s.time.base })
    let s := s.raise .c 0x3301 q (p16 [d.num, q, p.id])
    (s.addPkg p).newGeneration

/-- HELLO_RECEIVED (R424, R425): a link is up after 3 consecutive ones; a refused one joins as soon as its reason is gone. -/
def execHelloReceived (d : MDie) (quad : Fin 8) (p : TwlPkg) (peerDie peerQuad : Nat) (s : State) : Out :=
  let q := quad.val
  when (s.twlLive d q && s.twlPortUp d q && s.rdN Obj.twlEnable .p 0 == 1) s
    (let n := (s.tlink d q).hellos + 1
     let st := s.tlinkState d q
     let s := if st = 3 ∧ s.twill.pkgs.any (fun x => x.serial == p.serial) then s.takeId p.serial p.id else s
     let s := s.updTlink d q (fun k =>
       { k with hellos := n, last := s.time.base, peer := p, peerDie := peerDie, peerQuad := peerQuad })
     let s := s.wr Obj.twlLinkPeerSerial d.die q (p.serial : Nat)
     let s := s.wr Obj.twlLinkPeer d.die q (peerDie * 4096 + peerQuad * 256 + p.id : Nat)
     if st = 3 ∨ st = 4 then s
     else if 3 ≤ n then s.linkUp d q p
     else s.wr Obj.twlLinkState d.die q 2)

/-- LINK_HELLO_TIMEOUT (R424): 8 ms without a HELLO; a parked link sends none (R435). -/
def execLinkHelloTimeout (d : MDie) (quad : Fin 8) (s : State) : Out :=
  let q := quad.val
  when (s.twlLive d q && s.tlinkState d q != 4 && decide (2 ≤ s.tlinkState d q)
      && decide ((s.tlink d q).last + 8000000 ≤ s.time.base)) s (s.linkLost d q)

/-- The numbers by which a flooded message is told apart: type and the first body bytes (R423). -/
def floodKey : TwlBody → Nat × Nat
  | .hello p _ _ _ => (1, p.serial / 2 ^ 32)
  | .linkState p recs => (2, match recs with | r :: _ => ((r.id * 256 + r.die) * 256 + r.quad) * 256 + r.rid | [] => p.serial)
  | .idAssign serial _ => (3, serial)
  | .alloc a b _ _ _ => (4, a * 256 + b)
  | .allocAck a b _ _ => (5, a * 256 + b)
  | .allocNack a b _ _ => (6, a * 256 + b)
  | .free a b _ => (7, a * 256 + b)
  | .sync a _ _ _ => (8, a / 65536)
  | .delayReq t => (9, t)
  | .delayResp t _ => (10, t)
  | .mailbox d => (11, fieldAt d 0 4)

/-- A flooded message goes on once, on every link but its own, while HOPS stays below TWL.HOP.MAX (R423). -/
def State.forwardFlood (s : State) (l : MDie × Nat) (m : TwlMsg) : State :=
  let (ty, key) := floodKey m.body
  let id := (m.src, m.gen, ty, key)
  if id ∈ s.twill.seen then s
  else
    let s := s.updTwill (fun t => { t with seen := t.seen ++ [id] })
    if s.rdN Obj.twlHopMax .p 0 ≤ m.hops + 1 then s else s.twlFlood (some l) { m with hops := m.hops + 1 }

/-- LINK_STATE_RECEIVED (R423, R424): the sender's link records replace the ones kept, and the message floods on. -/
def execLinkStateReceived (d : MDie) (quad : Fin 8) (m : TwlMsg) (s : State) : Out :=
  match m.body with
  | .linkState p recs =>
    when (s.twlLive d quad.val && s.tlinkState d quad.val == 3 && p.serial != s.twlSelf.serial) s
      (let old := s.twill.recs.filter (fun r => r.id == p.id)
       let known := s.twill.pkgs.any (fun q => q.serial == p.serial)
       let s := s.addPkg p
       let s := s.updTwill (fun t =>
         { t with recs := t.recs.filter (fun r => r.id != p.id) ++ recs.map (fun r => { r with id := p.id }),
                  changed := if old = recs ∧ known then t.changed else s.time.base })
       let s := s.dropUnreachable.refreshTopology
       s.forwardFlood (d, quad.val) m)
  | _ => .next s

/-- A device ID that no package holds and that is not held for a lost one. -/
def State.idFree (s : State) (taken : List Nat) (n : Nat) : Bool :=
  decide (n ∉ taken) && decide (n ∉ s.twill.held.map (·.2.1))

/-- The IDs the root assigns, package by package in ascending serial number (R426): one that rejoins within TWL.ID.HOLD takes its held ID
back. -/
def State.assignIds (s : State) : List TwlPkg → List Nat → List (TwlPkg × Nat)
  | [], _ => []
  | p :: ps, taken =>
    let kept := (s.twill.held.find? (fun h => h.1 == p.serial)).map (·.2.1)
    let id := if p.id < 64 ∧ p.id ∉ taken then p.id
      else if (kept.getD 0xFF) < 64 ∧ kept.getD 0xFF ∉ taken ++ ps.map (·.id) then kept.getD 0xFF
      else if p.pref < 64 ∧ s.idFree (taken ++ ps.map (·.id)) p.pref then p.pref
      else ((List.range 64).find? (fun n => s.idFree (taken ++ ps.map (·.id)) n)).getD 0xFF
    (p, id) :: s.assignIds ps (taken ++ [id])

/-- The reason for which this package is in no fabric, if there is one (R425): its own set refuses it, or it has no link up and a partner that
it may not join (DEDUCED, assumption 117). -/
def State.selfReason (s : State) : Option Nat :=
  match joinReason (s.twlSelf :: s.twill.pkgs) s.twlSelf with
  | some r => some r
  | none =>
    if s.twill.pkgs = [] then
      if s.refusedPeers ≠ [] ∧ s.rdN Obj.timeRefFormat .a 0 ≠ s.rdN Obj.timeRefFormat .b 0 then some 2
      else s.refusedPeers.findSome? (fun p => joinReason [s.twlSelf, p] s.twlSelf)
    else none

/-- Links whose partners may not join, or no longer, are refused (R425). -/
def State.judgeLinks (s : State) : State :=
  s.twlLinks.foldl (fun (s : State) l =>
    if s.tlinkState l.1 l.2 = 3 then
      match s.linkReason (s.tlink l.1 l.2).peer with
      | some r => s.refuseLink l.1 l.2 r
      | none => s
    else s) s

/-- The root is elected, and event 0x3305 raised, where it has changed (R426). -/
def State.electRoot (s : State) (root : TwlPkg) : State :=
  let s := (s.wr Obj.twlState .p 0 (if root.serial = s.twlSelf.serial then 3 else 2)).twlStatus
  let old := s.rdN Obj.twlRootSerial .p 0
  let s := (s.wr Obj.twlRootSerial .p 0 (root.serial : Nat)).wr Obj.twlRootId .p 0 (root.id : Nat)
  if old = root.serial then s
  else (s.setBit Obj.twlSticky .p 0 2).raise .c 0x3305 0 (payloadOf [(16, root.id), (64, root.serial)])

/-- The root gives the joined packages their device IDs by ID ASSIGN (R426). -/
def State.giveIds (s : State) (joined : List TwlPkg) : State :=
  let sorted := sortBy (fun a b => decide (a.serial ≤ b.serial)) joined
  let s := ((s.assignIds sorted []).filter (fun x => x.1.id != x.2)).foldl (fun s x =>
    let s := s.takeId x.1.serial x.2
    s.twlFlood none (s.twlMsg 0xFE (.idAssign x.1.serial x.2))) s
  s.wr Obj.twlRootId .p 0 (s.twlId : Nat)

/-- ROOT_ELECTION (R425, R426): the link records have stayed unchanged for 20 ms. A package that may not join is refused; the root assigns
device IDs. -/
def execRootElection (s : State) : Out :=
  when (s.up .c && s.rdN Obj.twlEnable .p 0 == 1 && decide (s.twill.changed + 20000000 ≤ s.time.base)) s
    (let s := s.judgeLinks
     match s.selfReason with
     | some r =>
       let told := s.rdN Obj.twlState .p 0 == 4
       let s := ((s.wr Obj.twlState .p 0 4).wr Obj.twlPackages .p 0 0).twlStatus
       if told then s else (s.setBit Obj.twlSticky .p 0 7).raise .c 0x3307 0 (p16 [r])
     | none =>
       let all := s.twlSelf :: s.twill.pkgs
       let joined := all.filter (fun p => joinReason all p == none)
       match rootOf joined with
       | none => s
       | some root =>
         let s := s.wr Obj.twlPackages .p 0 (joined.length : Nat)
         let s := s.electRoot root
         if root.serial ≠ s.twlSelf.serial then s else s.giveIds joined)

/-- ID_ASSIGN_RECEIVED (R426, R427). -/
def execIdAssignReceived (serial id : Nat) (s : State) : Out :=
  when (s.up .c && s.rdN Obj.twlEnable .p 0 == 1) s (s.takeId serial id)

/-- ID_HOLD_EXPIRY (R426). -/
def execIdHoldExpiry (s : State) : Out :=
  when (s.up .c) s (s.updTwill (fun t => { t with held := t.held.filter (fun h => decide (s.time.base < h.2.2)) }))

/-! ### Channels (R431–R433) -/

/-- A NACK for an ALLOC goes back over the link it came on; `taps` where the source has no read tap left. -/
def State.nack (s : State) (l : MDie × Nat) (m : TwlMsg) (rxDie rx : Nat) (h : TwlHop) (taps : Bool) : State :=
  s.twlSend l { src := s.twlId, dst := m.src, hops := 0, gen := s.twlGen, body := .allocNack rxDie rx h taps }

/-- The lowest free slot outward on a link is taken by a channel along a path. -/
def State.takeSlot (s : State) (d : MDie) (q : Nat) (ch : Nat × Nat × Nat) (path : List TwlHop) : Option (State × Nat) :=
  (lowestFree (s.tlink d q).tx 0 twlSlots).map (fun n =>
    let s := s.updTlink d q (fun k => { k with tx := tabSet k.tx n ch })
    ((s.updTwill (fun t => { t with ways := t.ways.filter (fun w => w.1 != ch) ++ [(ch, path)] })).refreshTopology, n))

/-- ALLOC at the source package: a read tap and a transmit channel, then ALLOC ACK (R431, R432), which tells of the source (DESIGN CHOICE,
assumption 99). -/
def State.allocSource (s : State) (d : MDie) (q : Nat) (m : TwlMsg) (rxDie rx srcDie port : Nat) (path : List TwlHop) : State :=
  let e : MDie := if srcDie = 0 then .a else .b
  let hop : TwlHop := ⟨s.twlId, d.num, q⟩
  if 64 ≤ s.tapsOf e port then s.nack (d, q) m rxDie rx hop true
  else
    match lowestFree s.twill.tx (e.num * 256) twlChannels, s.takeSlot d q (m.src, rxDie, rx) path with
    | some n, some (s, slot) =>
      let c : TwlTx := { port := port, path := path, device := m.src, rxDie := rxDie, rx := rx, seq := 0 }
      let s := s.updTwill (fun t => { t with tx := tabSet t.tx (twlKey e n) c })
      (s.refreshLoom.refreshTopology).twlSend (d, q)
        { src := s.twlId, dst := m.src, hops := 0, gen := s.twlGen, body := .allocAck rxDie rx slot (s.srcTold e port) }
    | _, _ => s.nack (d, q) m rxDie rx hop false

/-- The hop of a path that comes before the one at which this package sends over a link: the link it arrives on. -/
def State.upstream (s : State) (path : List TwlHop) : Option (MDie × Nat) :=
  s.pathEntry (path.takeWhile (fun h => h.id != s.twlId))

/-- ALLOC_RECEIVED (R431, R432): at a transit package a slot is reserved and the message goes on toward the source. -/
def execAllocReceived (d : MDie) (quad : Fin 8) (m : TwlMsg) (s : State) : Out :=
  let q := quad.val
  match m.body with
  | .alloc rxDie rx srcDie port path =>
    when (s.twlLive d q && s.tlinkState d q == 3) s
      (if m.dst = s.twlId then s.allocSource d q m rxDie rx srcDie port path
       else
         match s.upstream path, s.takeSlot d q (m.src, rxDie, rx) path with
         | some l, some (s, _) => s.twlSend l { m with hops := m.hops + 1 }
         | _, _ => s.nack (d, q) m rxDie rx ⟨s.twlId, d.num, q⟩ false)
  | _ => .next s

/-- The link and slot over which this package sends a channel of a receive end. -/
def State.channelOut (s : State) (ch : Nat × Nat × Nat) : Option (MDie × Nat × Nat) :=
  s.twlLinks.findSome? (fun l => ((s.tlink l.1 l.2).tx.find? (fun e => e.2 == ch)).map (fun e => (l.1, l.2, e.1)))

/-- A receive channel streams: commits that waited for it are complete once nothing is unanswered (R432). -/
def State.channelStreams (s : State) (d : MDie) (n : Nat) : State :=
  let rerouted := s.rdN Obj.twlChState d.die n == 4
  let s := s.wr Obj.twlChState d.die n 2
  let s := if rerouted then
      (s.setBit Obj.twlSticky .p 0 4).raise .c 0x3308 n (p16 [n, s.rd Obj.twlChDelay d.die n])
    else s
  let waiting := s.twill.open_.any (fun c => decide ((d, n) ∈ c.wait))
  let s := s.updTwill (fun t =>
    { t with open_ := (t.open_.map (fun c => { c with wait := c.wait.filter (fun w => w != (d, n)) })).filter (fun c => c.wait != []) })
  if waiting then s.ans .ok else s

/-- The first destination of an open commit that fails the rules of R150 which the source of a channel decides, and the reason. -/
def State.openFault (s : State) (d : MDie) (n : Nat) (o : OpenCommit) : Option ((MDie × Nat) × Nat) :=
  let lines := s.rdN Obj.twlChDelay d.die n
  o.dsts.findSome? (fun (x : MDie × Nat × Option PendRoute) =>
    if x.1 ≠ d then none
    else
      let rs := match o.backup with
        | some _ => [s.rdN Obj.loomDstBackup d.die x.2.1]
        | none => (((s.dst d x.2.1).pend).map (fun (p : PendRoute) => p.route)).toList
      rs.findSome? (fun r =>
        if routeKind r = 3 then (s.twillRouteCheck d x.2.1 r lines s.inSelvedge).map (fun e => ((d, x.2.1), e)) else none))

/-- What ALLOC ACK tells of a source is noted with its receive channel, and the commits that wait for the channel are checked by it (R150):
one that fails is rejected. -/
def State.tellSource (s : State) (d : MDie) (n : Nat) (src : TwlSrc) : State :=
  let s := s.updTwill (fun t => { t with rx := t.rx.map (fun e => if e.1 = twlKey d n then (e.1, { e.2 with src := some src, lost := none }) else e) })
  (s.twill.open_.filter (fun o => decide ((d, n) ∈ o.wait))).foldl (fun (s : State) o =>
    match s.openFault d n o with
    | some (dst, e) => s.rejectOpen o dst e
    | none => s) s

/-- ALLOC_ACK_RECEIVED (R432): at the receive end the channel streams; a transit package sets its forwarding entry. -/
def execAllocAckReceived (d : MDie) (quad : Fin 8) (m : TwlMsg) (s : State) : Out :=
  let q := quad.val
  match m.body with
  | .allocAck rxDie rx slot src =>
    when (s.twlLive d q && s.tlinkState d q == 3) s
      (let ch := (m.dst, rxDie, rx)
       let s := s.updTlink d q (fun k => { k with rx := tabSet k.rx slot ch })
       if m.dst = s.twlId then
         let e : MDie := if rxDie = 0 then .a else .b
         if s.rdN Obj.twlChState e.die rx = 1 ∨ s.rdN Obj.twlChState e.die rx = 4 then
           ((s.tellSource e rx src).channelStreams e rx).refreshTopology
         else s
       else
         match s.channelOut ch with
         | none => s
         | some (e, r, out) =>
           let s := s.updTwill (fun t =>
             { t with fwd := tabSet t.fwd ((d.num * 8 + q) * 64 + slot) (e.num * 8 + r, out) })
           s.refreshTopology.twlSend (e, r) { m with hops := m.hops + 1, body := .allocAck rxDie rx out src })
  | _ => .next s

/-- The destinations of a die that take a receive channel's source. -/
def State.rxDests (s : State) (d : MDie) (c : TwlRx) : List Nat :=
  (s.dsts d).filter (fun p => (s.heldRoutes d p).any (fun r =>
    routeKind r == 3 && routeDevice r == c.device && routeDie r == c.srcDie
      && (List.range (s.dstBond d p)).any (fun m => routePort r + m == c.port)))

/-- Every destination's lag allows a new path delay (R433). -/
def State.rxLagOk (s : State) (d : MDie) (c : TwlRx) (lines : Nat) : Bool :=
  (s.rxDests d c).all (fun p =>
    ((s.heldRoutes d p).filter (fun r => routeKind r == 3)).all (fun r => s.twillLagOk d p r lines s.inSelvedge))

/-- A path is tried for a receive channel, state 1 for a commit and 4 for a reroute; none where there is no path or its
delay does not fit. -/
def State.tryPath (s : State) (d : MDie) (n : Nat) (c : TwlRx) (st : Nat) : Option State :=
  match s.findPath c.device c.srcDie d c.refused with
  | none => none
  | some p =>
    let f := match s.rxDests d c with | x :: _ => (s.dstRaster d x).1 | [] => fmt 0x0607
    let lines := twlLines f p.total
    if ¬ s.rxLagOk d c lines then none
    else
      let c := { c with path := p.hops, seq := none, tried := s.twlGen }
      let s := s.updTwill (fun t => { t with rx := tabSet t.rx (twlKey d n) c })
      let s := (s.wr Obj.twlChState d.die n (st : Nat)).wr Obj.twlChDelay d.die n (lines : Nat)
      some ((s.wrBytes Obj.twlChPath d.die n (pathBytes p.hops)).sendAlloc d n c)

/-- A channel cannot be restored (R433). -/
def State.rxUnrestored (s : State) (d : MDie) (n : Nat) : State :=
  let s := s.wr Obj.twlChState d.die n 3
  (s.setBit Obj.twlSticky .p 0 5).raise .c 0x3309 n (p16 [n])

/-- ALLOC_NACK_RECEIVED (R431): at the receive end Die C tries the next path, and without one, or without a read tap at the source, the
commit is rejected (reason 4 or 3) or the channel stays lost; a transit package frees its slot. -/
def execAllocNackReceived (d : MDie) (quad : Fin 8) (m : TwlMsg) (s : State) : Out :=
  let q := quad.val
  match m.body with
  | .allocNack rxDie rx h taps =>
    when (s.twlLive d q) s
      (if m.dst = s.twlId then
         let e : MDie := if rxDie = 0 then .a else .b
         match s.twill.rx.find? (fun x => x.1 == twlKey e rx) with
         | none => s
         | some (_, c) =>
           let st := s.rdN Obj.twlChState e.die rx
           let c := { c with refused := c.refused ++ [h] }
           let s := s.updTwill (fun t => { t with rx := tabSet t.rx (twlKey e rx) c })
           match if taps then none else s.tryPath e rx c st with
           | some s => s
           | none =>
             if st = 4 then s.rxUnrestored e rx
             else
               match s.twill.open_.find? (fun o => decide ((e, rx) ∈ o.wait)) with
               | none => s.freeRx e rx
               | some o =>
                 let dst := ((o.dsts.find? (fun x => x.1 == e && decide (x.2.1 ∈ s.rxDests e c))).map (fun x => (x.1, x.2.1))).getD (e, 0)
                 (s.freeRx e rx).rejectOpen o dst (if taps then 3 else 4)
       else
         let ch := (m.dst, rxDie, rx)
         match s.channelOut ch with
         | none => s
         | some (e, r, _) => (s.dropSlots (fun c => c == ch)).refreshTopology.twlSend (e, r) { m with hops := m.hops + 1 })
  | _ => .next s

/-- FREE_RECEIVED (R432): the slots of a channel's path are released. -/
def execFreeReceived (d : MDie) (quad : Fin 8) (m : TwlMsg) (s : State) : Out :=
  let q := quad.val
  match m.body with
  | .free rxDie rx path =>
    when (s.twlLive d q) s
      (let ch := (m.src, rxDie, rx)
       let s := s.dropSlots (fun c => c == ch)
       if m.dst = s.twlId then
         let s := s.updTwill (fun t => { t with tx := t.tx.filter (fun e =>
           !(e.2.device == m.src && e.2.rxDie == rxDie && e.2.rx == rx)) })
         s.refreshLoom.refreshTopology
       else
         match s.upstream path with
         | none => s.refreshTopology
         | some l => s.refreshTopology.twlSend l { m with hops := m.hops + 1 })
  | _ => .next s

/-- A lost receive channel has not been tried in this generation of the fabric (R433). -/
def State.rxDue (s : State) (d : MDie) (n : Nat) : Bool :=
  s.rdN Obj.twlChState d.die n == 3
    && (tabGet (s.twill.rx.map (fun e => (e.1, decide (e.2.tried ≠ s.twlGen)))) (twlKey d n) false)

/-- The old path of a channel that is rerouted is released as far as its first link is up (R433). -/
def State.freeOld (s : State) (d : MDie) (n : Nat) (c : TwlRx) : State :=
  match s.pathEntry c.path with
  | some l => if s.tlinkState l.1 l.2 = 3 then s.twlSend l (s.twlMsg c.device (.free d.num n c.path)) else s
  | none => s

/-- CHANNEL_REROUTE (R433): the receive end of a lost channel finds a new path, once in each generation of the fabric, lost channels of a
die in ascending number. The old path is released as far as it stands. -/
def execChannelReroute (d : MDie) (ch : Fin 128) (s : State) : Out :=
  let n := ch.val
  match s.twill.rx.find? (fun x => x.1 == twlKey d n) with
  | none => .next s
  | some (_, c) =>
    when (s.up .c && s.rxDue d n && (List.range n).all (fun k => !s.rxDue d k)) s
      (let s := s.freeOld d n c
       let c := { c with refused := [] }
       match s.tryPath d n c 4 with
       | some s => s
       | none => (s.updTwill (fun t => { t with rx := tabSet t.rx (twlKey d n) { c with tried := s.twlGen } })).rxUnrestored d n)

/-! ### Delay, parking, time (R430, R435, R436) -/

/-- LINK_DELAY_MEASUREMENT (R430): the round trip of a DELAY REQUEST, and the turnaround its response reports. -/
def execLinkDelayMeasurement (d : MDie) (quad : Fin 8) (trip turnaround : Nat) (s : State) : Out :=
  let q := quad.val
  when (s.twlLive d q && s.tlinkState d q == 3) s
    (let k := s.tlink d q
     let s := (s.twlSend (d, q) (s.twlMsg 0xFF (.delayReq s.time.base))).updTlink d q (fun k => { k with asked := some s.time.base })
     let old := s.rdN Obj.twlLinkDelay d.die q
     let new := (trip - turnaround) / 2
     let s := s.wr Obj.twlLinkDelay d.die q (new : Nat)
     let s := s.updTlink d q (fun k => { k with measured := true })
     let change : Int := (new : Int) - old
     let s := if k.measured ∧ 100 < mag change then
         ((k.rx.map (·.2)).filter (fun c => c.1 == s.twlId)).foldl (fun s c =>
           s.raise .c 0x330A c.2.2 (payloadOf [(16, c.2.2), (32, change)])) s
       else s
     s.refreshTopology)

/-- DELAY_REQUEST_RECEIVED (R430): answered with the turnaround. -/
def execDelayRequestReceived (d : MDie) (quad : Fin 8) (t turnaround : Nat) (s : State) : Out :=
  when (s.twlLive d quad.val) s (s.twlSend (d, quad.val) (s.twlMsg 0xFF (.delayResp t turnaround)))

/-- LINK_PARK (R435): a link without channels for 10 s. -/
def execLinkPark (d : MDie) (quad : Fin 8) (s : State) : Out :=
  let q := quad.val
  let k := s.tlink d q
  when (s.twlLive d q && s.tlinkState d q == 3 && s.rdN Obj.twlPark .p 0 == 1 && k.tx == [] && k.rx == []
      && decide (k.idle + 10 * nsPerSec ≤ s.time.base)) s
    (let s := (List.range 4).foldl (fun s n => s.requestLane d (4 * q + n) 2) s
     (s.wr Obj.twlLinkState d.die q 4).refreshTopology)

/-- PARKED_LINK_WAKE (R435): the partner answered within 1 ms, or the link is lost. The ALLOCs that waited for the
link are sent once alignment lock has returned. -/
def execParkedLinkWake (d : MDie) (quad : Fin 8) (answered : Bool) (s : State) : Out :=
  let q := quad.val
  when (s.twlLive d q && s.tlinkState d q == 4) s
    (if ¬ answered then s.linkLost d q
     else
       let s := s.wakeLink d q
       let s := s.wr Obj.twlLinkState d.die q 3
       let s := s.updTlink d q (fun k => { k with last := s.time.base, idle := s.time.base })
       let due := s.twill.rx.filter (fun e =>
         let e' : Die := if e.1 / 256 = 0 then .a else .b
         (s.rdN Obj.twlChState e' (e.1 % 256) == 1 || s.rdN Obj.twlChState e' (e.1 % 256) == 4)
           && s.pathEntry e.2.path == some (d, q))
       (due.foldl (fun s e => s.sendAlloc (if e.1 / 256 = 0 then .a else .b) (e.1 % 256) e.2) s).refreshTopology)

/-- Hops of this package from the root: 0 for the root itself, else the Twill edges of the path to it. -/
def State.rootHops (s : State) : Nat :=
  if s.rdN Obj.twlState .p 0 = 3 then 0
  else match s.findPath (s.rdN Obj.twlRootId .p 0) 0 .a [] with
    | some p => (p.hops.filter (fun h => h.quad != 0xFF)).length
    | none => 0

/-- TWILL_SYNC_SEND (R436): on every link, once per 125 µs. -/
def execTwillSyncSend (s : State) : Out :=
  when (s.up .c) s
    ((s.twlLinks.filter (fun l => s.tlinkState l.1 l.2 == 3)).foldl (fun s l =>
      s.twlSend l (s.twlMsg 0xFF (.sync (s.time.base / nsPerSec) (s.time.base % nsPerSec) (s.rdN Obj.timeState .c 0) s.rootHops))) s)

/-! ### Flits (R422, R423) -/

/-- The line that a receive channel now takes in, of the frame now carried. -/
def TwlRx.grow (c : TwlRx) (f : List (Option Byte) → List (Option Byte)) : TwlRx :=
  { c with pic := { c.pic with now := tabUpd c.pic.now c.line [] f } }

/-- A media flit delivered to a receive channel: what it carries (R422). -/
def deliverFlit (c : TwlRx) (f : TwlFlit) : TwlRx :=
  match f.content with
  | 1 =>
    let fr := fieldAt f.data 0 6
    let line := fieldAt f.data 6 2
    let pic := if fr = c.pic.since then c.pic else c.pic.put fr []
    let anc := if fr = c.anc.since then c.anc else c.anc.put fr []
    { c with line := line, pic := { pic with now := tabSet pic.now line [] }, anc := anc }
  | 0 => c.grow (fun l => l ++ f.data.map some)
  | 2 => { c with anc := { c.anc with now := tabUpd c.anc.now c.line [] (fun l => l ++ f.data) } }
  | 3 =>
    let first := fieldAt f.data 6 2
    let n := fieldAt f.data 8 1
    let valid := fieldAt f.data 10 2
    { c with audio := (List.range (min n 12)).foldl (fun t j =>
        tabSet t (first + j) (valid.testBit (11 - j), signed 32 (fieldAt f.data (12 + 4 * j) 4))) c.audio }
  | _ => c

/-- Flits that a gap in SEQ shows missing (R422): the samples they would have carried are none, and audio counts as 0 marked invalid. Which
contents they had is not told: they count as samples of the present line (DESIGN CHOICE, assumption 100). -/
def TwlRx.lose (c : TwlRx) (gap : Nat) : TwlRx :=
  if gap = 0 then c
  else { c.grow (fun l => l ++ List.replicate (60 * gap) none) with audio := c.audio.map (fun x => (x.1, (false, 0))) }

/-- MEDIA_FLIT_RECEIVED (R422): forwarded with its slot rewritten, or delivered with its gap counted. -/
def execMediaFlitReceived (d : MDie) (quad : Fin 8) (f : TwlFlit) (s : State) : Out :=
  let q := quad.val
  when (s.twlLive d q && s.tlinkState d q == 3) s
    (match s.twill.fwd.find? (fun e => e.1 == (d.num * 8 + q) * 64 + f.slot) with
     | some (_, l, slot) => s.send (.twlFlit (if l / 8 = 0 then .a else .b) (l % 8) { f with slot := slot })
     | none =>
       match (s.tlink d q).rx.find? (fun e => e.1 == f.slot) with
       | none => s
       | some (_, _, rxDie, rx) =>
         let e : MDie := if rxDie = 0 then .a else .b
         match s.twill.rx.find? (fun x => x.1 == twlKey e rx) with
         | none => s
         | some (_, c) =>
           let gap := match c.seq with | none => 0 | some n => (f.seq + 65536 - n) % 65536
           let s := if gap = 0 then s
             else (s.addCount Obj.twlChLostCount e.die rx gap).addCount Obj.twlLinkFlitLost d.die q gap
           let c := deliverFlit { c.lose gap with seq := some ((f.seq + 1) % 65536) } f
           s.updTwill (fun t => { t with rx := tabSet t.rx (twlKey e rx) c }))

/-- The next link toward a device: the first edge of the path to it, seen as the last of the path from it. -/
def State.linkToward (s : State) (id : Nat) : Option (MDie × Nat) :=
  mdies.findSome? (fun d => (s.findPath id 0 d []).bind (fun p => s.pathEntry p.hops))

/-- CONTROL_FLIT_RECEIVED (R421, R423): a kind 3 flit and a bad CRC are counted; a message for another device is
forwarded, a flooded one forwarded once. What a message addressed here does is the command of its type. -/
def execControlFlitReceived (d : MDie) (quad : Fin 8) (kind3 crcOk : Bool) (m : TwlMsg) (s : State) : Out :=
  let q := quad.val
  when (s.twlLive d q) s
    (if kind3 ∨ ¬ crcOk then s.bump Obj.twlLinkCtrlBad d.die q
     else if m.dst = 0xFF ∨ m.dst = s.twlId then s
     else if m.dst = 0xFE then s.forwardFlood (d, q) m
     else
       match s.linkToward m.dst with
       | none => s
       | some l => s.twlSend l { m with hops := m.hops + 1 })

end Sys2Proof.Machine
end

