-- ==== Sys2Proof/Machine/LaneLinks.lean ====
section
/-! DEFINITION. What takes lanes and ports up and down (R47, R97, R99, R104, R105, R112): a Twill link goes down with
its port. -/

namespace Sys2Proof.Machine

/-- A port comes up (R99): its lanes have CDR lock and alignment. -/
def State.portComesUp (s : State) (d : MDie) (first : Nat) : State :=
  let s := (s.portLanes d first).foldl (fun s l => s.setBit Obj.laneStatus d.die l 0) s
  let s := (s.setBit Obj.laneStatus d.die first 1).setBit Obj.laneStatus d.die first 2
  let s := s.raise d.pdie 0x1301 first (p16 [first])
  if s.quad d (first / 4) = 4 then s
  else
    let s := s.setBit Obj.netPortStatus d.die first 0
    let s := s.igmpReports d first
    let g := (s.port d first).gateway
    if g = 0 then s else s.askHop d first (some g)

/-- PORT_UP (R99): every lane is active, has CDR lock, and the port holds alignment-marker lock. -/
def execPortUp (d : MDie) (first : Fin 32) (s : State) : Out :=
  let f := first.val
  when (s.up d.pdie && s.firstLane d f && !s.portUp d f && (s.portLanes d f).all (fun l => s.laneState d l == 3)) s
    (s.portComesUp d f)

/-- A port that is up goes down with a cause (R99, R118): 1 CDR, 2 alignment, 3 module removed, 4 state request, 5
PLL. -/
def State.portGoesDown (s : State) (d : MDie) (first cause : Nat) : State :=
  if ¬ s.portUp d first then s
  else
    let s := (s.clrBit Obj.laneStatus d.die first 1).clrBit Obj.laneStatus d.die first 2
    let s := if cause = 4 then s else s.setBit Obj.laneSticky d.die first 1
    let s := (s.setBit Obj.laneSticky d.die first 2).bump Obj.laneCount d.die first
    let s := s.raise d.pdie 0x1302 first (p16 [first, cause])
    if s.quad d (first / 4) = 4 then s.linkLost d (first / 4)
    else
      (s.clrBit Obj.netPortStatus d.die first 0).updPort d first (fun x => { x with fifo := [], tx := none })

/-- A lane loses the lock of its CDR (R99, R118). -/
def State.cdrLost (s : State) (d : MDie) (lane : Nat) : State :=
  if s.bit Obj.laneStatus d.die lane 0 then (s.cdrOff d lane).setBit Obj.laneSticky d.die lane 0 else s

/-- PORT_DOWN (R99): a lane loses CDR lock (cause 1), or its port loses alignment lock (cause 2). -/
def execPortDown (d : MDie) (lane : Fin 32) (cause : Nat) (s : State) : Out :=
  match s.portLanes d lane.val with
  | [] => .next s
  | first :: _ =>
    when (s.up d.pdie && (cause == 1 || cause == 2)) s
      ((if cause = 1 then s.cdrLost d lane.val else s).portGoesDown d first cause)

/-- QUAD_PLL_LOCK_LOSS (R99): every lane of the quad goes down. -/
def execQuadPllLockLoss (d : MDie) (quad : Fin 8) (s : State) : Out :=
  when (s.up d.pdie && s.bit Obj.quadStatus d.die quad.val 0) s
    (let s := (s.clrBit Obj.quadStatus d.die quad.val 0).raise d.pdie 0x1304 quad.val (p16 [quad.val])
     let lanes := (List.range 4).map (· + 4 * quad.val)
     let s := lanes.foldl (fun (s : State) l => s.cdrLost d l) s
     let firsts := (lanes.map (fun l => ((s.portLanes d l).head?).getD 32)).eraseDups
     (firsts.filter (fun l => decide (l < 32))).foldl (fun s l => s.portGoesDown d l 5) s)

/-- All lanes of a port are asked for what the mode and the request want; the port goes down when they leave active (R105, R118). -/
def State.requestPort (s : State) (d : MDie) (first : Nat) : State :=
  let target := s.laneWanted d first s.mode
  let s := if target = 3 ∨ (target = 2 ∧ s.parked d first) then s else s.portGoesDown d first 4
  (s.portLanes d first).foldl (fun s l => s.requestLane d l target) s

/-- LANE_STATE_REQUEST (R105): accepted on the first lane of a port; it moves the lanes where the mode follows it. -/
def execLaneStateRequest (d : MDie) (lane : Fin 32) (req : Fin 3) (s : State) : Out :=
  when (s.serverUp && s.up d.pdie) s
    (if ¬ s.firstLane d lane.val then s.ans .access
     else
       let s := (s.wr Obj.laneStateRequest d.die lane.val (req.val : Nat)).ans .ok
       match s.mode with
       | .service => (s.requestPort d lane.val).cagesFollow d .service
       | .selvedge => (s.requestPort d lane.val).cagesFollow d .selvedge
       | .recovery => (s.requestPort d lane.val).cagesFollow d .recovery
       | _ => s)

/-- What a lane does once a transition has brought it to a state (R103, R105): it passes through deep where its settings changed, and acts on
the latest held request. -/
def State.laneGoesOn (s : State) (d : MDie) (l t : Nat) (x : LaneSt) : State :=
  match x.held with
  | none => s
  | some h => if x.cycle ∧ t ≠ 1 then (s.startLane d l 1).requestLane d l h else s.requestLane d l h

/-- LANE_TRANSITION_COMPLETE (R97, R104, R105): a lane in active has CDR lock and its precoders start over; the quad PLL and the latest
held request follow. -/
def execLaneTransitionComplete (d : MDie) (lane : Fin 32) (s : State) : Out :=
  let l := lane.val
  let x := s.lane d l
  match x.target with
  | none => .next s
  | some t =>
    when (s.up d.pdie && s.laneState d l == 4) s
      (let s := s.wr Obj.laneState d.die l (t : Nat)
       let s := s.updLane d l (fun y => { y with target := none, held := none, cycle := false })
       let s := if t = 3 then s.updLane d l (fun y => { y with txPrev := 0, rxPrev := 0 }) else s
       let s := if 2 ≤ t then s.setBit Obj.quadStatus d.die (l / 4) 0 else s
       let s := if t = 3 then s.setBit Obj.laneStatus d.die l 0 else s
       (s.laneGoesOn d l t x).pllFollows d (l / 4))

/-- Ports leave active where a mode wants them elsewhere, the lanes follow, and so do the modules (R105, R112). Cause 4 is what event 0x1302
carries then (DESIGN CHOICE, assumption 87). -/
def State.lanesFollow (s : State) (d : MDie) (m : Mode) : State :=
  let s := ((List.range 32).filter (fun l => s.firstLane d l && s.portUp d l && s.laneWanted d l m != 3
    && !(s.laneWanted d l m == 2 && s.parked d l))).foldl
    (fun s l => s.portGoesDown d l 4) s
  (s.lanesForMode d m).cagesFollow d m

/-- Ports whose lanes or kind new values of QUAD.MODE change go down as their lanes are taken over (R93, R99; cause 4, assumption 87). -/
def State.portsTaken (s new : State) (d : MDie) : State :=
  ((List.range 32).filter (fun l => s.firstLane d l
    && (s.portLanes d l != new.portLanes d l || s.quad d (l / 4) != new.quad d (l / 4)))).foldl
    (fun (s : State) l => s.portGoesDown d l 4) s

/-- After QUAD.MODE or CAGE.WIDTH of a die was written: a cage that is no longer served is left alone, and the lanes follow (R93, R94). -/
def State.quadsFollow (s : State) (d : MDie) : State :=
  let s := ((List.range 8).filter (fun n => !s.cageServed d n)).foldl (fun (s : State) n => s.cageUnserved d n) s
  s.lanesFollow d s.mode

/-- On leaving CONFIGURE the written table takes effect: every identified cage selects its row again, and lanes whose
settings changed pass through deep, their ports going down (R99, R103). -/
def State.applyEqTable (s : State) : State :=
  let s := { s with eqTable := s.rdBytes Obj.laneEqTable .p 0 }
  let s := s.wr Obj.laneEqBoard .p 0 (fieldAt s.eqTable 12 4 : Nat)
  ([MDie.a, MDie.b].flatMap (fun d => (List.range 8).map (fun n => (d, n)))).foldl (fun (s : State) (p : MDie × Nat) =>
    match (s.cage p.1 p.2).info with
    | none => s
    | some m =>
      let t := s.selectRow p.1 p.2 m
      ((s.cageLanes p.1 p.2).filter (fun l => decide ((s.lane p.1 l).eq ≠ (t.lane p.1 l).eq))).foldl (fun (t : State) l =>
        let t := match (t.portLanes p.1 l) with | first :: _ => t.portGoesDown p.1 first 4 | [] => t
        t.cycleLane p.1 l) t) s

/-- MODULE_REMOVED (R112, R114): `_PRS_N` high for 1 ms; `_RST_N` goes low. CAGE.MODULE.ID reads zeros from then on, and CAGE.MODULE.TEMP keeps
the last temperature (DESIGN CHOICE, assumption 88). -/
def execModuleRemoved (d : MDie) (cage : Fin 8) (s : State) : Out :=
  let n := cage.val
  when (s.serverUp && s.up d.pdie && s.cageServed d n && (s.cage d n).step != .empty) s
    (let lanes := s.cageLanes d n
     let s := (lanes.filter (fun l => s.firstLane d l)).foldl (fun s l => s.portGoesDown d l 3) s
     let s := s.setRow d n none
     let s := lanes.foldl (fun s l => s.requestLane d l 1) s
     let w := s.rdN Obj.cageWearRecord d.die n
     let s := if w = 0xFFFF then s else s.persistBytes Obj.wearRecord .p w (s.rdBytes Obj.wearRecord .p w)
     let s := s.updCage d n (fun _ => CageSt.start)
     let s := (s.wr Obj.cageStatus d.die n 0).setBit Obj.cageSticky d.die n 1
     let s := (s.wr Obj.cageModuleClass d.die n 0xFF).wr Obj.cageWearRecord d.die n 0xFFFF
     let s := s.wrBytes Obj.cageModuleId d.die n (List.replicate 61 0)
     s.raise .c 0x1311 n (p16 [n]))

/-- SECTION_POWER_GOOD (R47, R105): the section is on; the lanes of a quad's section start in deep and follow the
mode. -/
def execSectionPowerGood (d : MDie) (sec : Nat) (s : State) : Out :=
  if 30 ≤ sec then .fault .noSuchUnit
  else
    when (s.section d.pdie sec == 1) s
      (let s := s.setSection d.pdie sec 2
       if 6 ≤ sec ∧ sec ≤ 13 then s.lanesFollow d s.mode else s)

end Sys2Proof.Machine
end

