-- ==== Sys2Proof/Machine/Time.lean ====
section
/-! DEFINITION. Time base and PTP (R59–R69): the servo, BMCA, messages received and sent, the 10 MHz and 1PPS inputs, steering of the
media dies, time from the fabric (R436). -/

namespace Sys2Proof.Machine

/-- The least time of the time base: 1,000,000 s (R63). -/
def timeFloor : Nat := 1000000 * nsPerSec

/-- TIME.STATE (R61): 0 FREERUN, 1 ACQUIRING, 2 LOCKED, 3 HOLDOVER, 4 SLEWING, 5 STEP-PENDING. -/
def State.servo (s : State) : Nat := s.rdN Obj.timeState .c 0
def State.setServo (s : State) (st : Nat) : State := s.wr Obj.timeState .c 0 (st : Nat)

/-- A state with the servo's own data changed. -/
def State.updTime (s : State) (f : TimeSt → TimeSt) : State := { s with time := f s.time }

/-- Time comes from the fabric: TWL.TIME.MODE 1 (R436). -/
def State.timeFromTwill (s : State) : Bool := s.rdN Obj.twlEnable .p 0 == 1 && s.rdN Obj.twlTimeMode .p 0 == 1

/-- The PTP client runs (R68, R436). -/
def State.ptpClient (s : State) : Bool := s.up .c && s.rdN Obj.timeSource .c 0 != 2 && !s.timeFromTwill

/-- Seconds in HOLDOVER until now (R61). -/
def State.holdSeconds (s : State) : Nat := min ((s.time.base - s.time.holdSince) / nsPerSec) (2 ^ 32 - 1)

/-! ### Steps (R62, R65) -/

/-- The time base steps by an amount, never below 1,000,000 s: every reachable media die takes the same step, an unreachable one that
runs when Die C returns; one in reset starts from the time base when it returns. -/
def State.stepTime (s : State) (step : Int) : State :=
  let new := max timeFloor ((s.time.base : Int) + step).toNat
  let step := (new : Int) - s.time.base
  let s := s.updTime (fun t => { t with base := new, goodRun := 0, newGm := false })
  let s := [MDie.a, MDie.b].foldl (fun (s : State) d =>
    if s.reachable d then s.dieStep d step
    else if ¬ s.up d.pdie then s
    else s.updDieTime d (fun t => { t with missedStep := t.missedStep + step })) s
  ((s.setBit Obj.timeSticky .c 0 1).raise .c 0x1205 0 (payloadOf [(64, step)])).setServo 1

/-- Modes in which an offset beyond the threshold steps at once (R62). -/
def Mode.stepsAtOnce : Mode → Bool
  | .service => false
  | .selvedge => false
  | .recovery => false
  | _ => true

/-- An offset beyond TIME.STEP.THRESHOLD (R62). -/
def State.bigOffset (s : State) (off : Int) : State :=
  if s.mode.stepsAtOnce then s.stepTime (-off)
  else if s.servo = 5 then s
  else (s.setServo 5).raise .c 0x1204 0 (payloadOf [(64, off)])

/-! ### The servo (R61) -/

/-- One more Sync within 100 ns; after 16 in a row the servo is LOCKED. -/
def State.goodOffset (s : State) (off : Int) : State :=
  let n := if off.natAbs ≤ 100 then s.time.goodRun + 1 else 0
  let s := s.updTime (fun t => { t with goodRun := n })
  if n < 16 then s
  else
    let s := (s.updTime (fun t => { t with goodRun := 0, lockedSince := true })).setServo 2
    s.raise .c 0x1201 0 (payloadOf [(64, s.rd Obj.ptpGmIdentity .c 0)])

/-- The time base is drawn toward the grandmaster, by at most TIME.SLEW.MAX over a Sync interval (R61). -/
def State.slewBase (s : State) (off : Int) : State :=
  let k := s.rd Obj.ptpSyncInterval .c 0
  let limit : Int := s.rdN Obj.timeSlewMax .c 0 * (nsPerSec / 2 ^ (-k).toNat) / 10000000
  let corr := max (-limit) (min limit (-off))
  s.updTime (fun t => { t with base := max timeFloor ((t.base : Int) + corr).toNat, ratio := corr * 2 ^ (-k).toNat, fraction := 0 })

/-- TIME.OFFSET shows an offset in sQ48.16. One outside that format, which the first Sync after BOOT ordinarily gives, has no value
there that the spec states: the object then holds a free value (assumption 82). -/
def State.showOffset (s : State) (off : Int) : State :=
  let s := s.updTime (fun t => { t with offset := off })
  if -(2 ^ 47) ≤ off ∧ off < 2 ^ 47 then s.wr Obj.timeOffset .c 0 (off * 65536)
  else
    let (v, s) := s.free 64
    s.wr Obj.timeOffset .c 0 (signed 64 v)

/-- An offset (time base less grandmaster, ns) was measured (R61, R62). -/
def State.onOffset (s : State) (off : Int) : State :=
  let s := s.showOffset off
  let big := decide (s.rdN Obj.timeStepThreshold .c 0 < off.natAbs)
  let fresh := s.time.newGm
  let s := s.updTime (fun t => { t with newGm := false })
  match s.servo with
  | 1 => if big then s.bigOffset off else (s.goodOffset off).slewBase off
  | 2 =>
    if big then s.bigOffset off
    else if fresh ∧ 100 < off.natAbs then ((s.updTime (fun t => { t with goodRun := 0 })).setServo 4).slewBase off
    else s.slewBase off
  | 3 =>
    let s := s.wr Obj.timeHoldoverElapsed .c 0 (s.holdSeconds : Nat)
    let s := s.raise .c 0x1203 0 (payloadOf [(64, off)])
    if big then s.bigOffset off
    else (((s.updTime (fun t => { t with goodRun := 0 })).setServo 4).goodOffset off).slewBase off
  | 4 => if big then s.bigOffset off else (s.goodOffset off).slewBase off
  | 5 =>
    if big then s.bigOffset off
    else if fresh then (((s.updTime (fun t => { t with goodRun := 0 })).setServo 4).goodOffset off).slewBase off else s
  | _ => s

/-- The grandmaster is lost (R61). -/
def State.gmLost (s : State) (cause : Nat) : State :=
  let s := s.updTime (fun t => { t with gm := none, goodRun := 0, newGm := false })
  let s := s.clrBit Obj.timeStatus .c 0 0
  if s.servo = 0 ∨ s.servo = 3 then s
  else if s.servo = 1 ∧ ¬ s.time.lockedSince then s.setServo 0
  else
    let s := (s.updTime (fun t => { t with holdSince := t.base })).setServo 3
    (s.setBit Obj.timeSticky .c 0 0).raise .c 0x1202 0 (p16 [cause])

/-- A grandmaster is selected, or another one while one stays selected (R61). -/
def State.gmSelect (s : State) (a : Announce) : State :=
  match s.time.gm with
  | none =>
    let s := s.updTime (fun t => { t with gm := some a, goodRun := 0, newGm := true })
    let s := (s.wr Obj.ptpGmIdentity .c 0 (a.identity : Nat)).setBit Obj.timeStatus .c 0 0
    if s.servo = 0 then s.setServo 1 else s
  | some b =>
    let s := s.updTime (fun t => { t with gm := some a })
    if b.identity = a.identity then s
    else
      let s := s.updTime (fun t => { t with goodRun := if s.servo = 1 then 0 else t.goodRun, newGm := s.servo != 1 })
      let s := (s.wr Obj.ptpGmIdentity .c 0 (a.identity : Nat)).setBit Obj.timeSticky .c 0 5
      s.raise .c 0x1206 0 (payloadOf [(64, a.identity)])

/-! ### BMCA and PTP ports (R60, R61, R63) -/

/-- The order of grandmasters: the data set comparison of IEEE 1588-2019. -/
def gmBetter (a b : Announce) : Bool :=
  keyLt [a.priority1, a.clockClass, a.accuracy, a.variance, a.priority2, a.identity, a.steps]
    [b.priority1, b.clockClass, b.accuracy, b.variance, b.priority2, b.identity, b.steps]

/-- The best grandmaster of a list. -/
def bestGm : List Announce → Option Announce
  | [] => none
  | a :: l => match bestGm l with | none => some a | some b => if gmBetter b a then some b else some a

/-- PTP.PORT.STATE follows roles, bindings and selection; under TIME.SOURCE 2 a boundary clock's ports act as masters once the seconds
were set (R68; IEEE 1588-2019: 3 DISABLED, 4 LISTENING, 6 MASTER, 8 UNCALIBRATED, 9 SLAVE). -/
def State.showPtp (s : State) : State :=
  (List.range 8).foldl (fun (s : State) p =>
    let role := s.rdN Obj.ptpPortRole .c p
    let st := if role = 0 ∨ s.rdN Obj.ptpPortBinding .c p = 0xFFFF then 3
      else if role = 3 then 6
      else if (tabGet s.time.syncDiff p 0 ≠ 0 ∨ s.time.syncDiff.any (fun e => e.1 == p)) ∧ s.time.gm.isSome then
        (if s.servo = 1 then 8 else 9)
      else if role = 1 then 4
      else if s.rdN Obj.timeSource .c 0 = 2 then (if s.time.ppsArmed then 6 else 4)
      else if s.time.gm.isSome then 6 else 4
    s.wr Obj.ptpPortState .c p (st : Nat)) s

/-- BMCA selects among the grandmasters known; none left is a loss. -/
def State.bmca (s : State) (cause : Nat) : State :=
  match bestGm s.time.candidates with
  | none => if s.time.gm.isSome then s.gmLost cause else s
  | some a => s.gmSelect a

/-- A received message is counted and discarded (R60, R63). -/
def State.ptpDiscard (s : State) : State := s.bump Obj.timeCount .c 0

/-- A PTP port takes part: bound, with a role. -/
def State.ptpUsed (s : State) (p : Nat) : Bool := s.rdN Obj.ptpPortRole .c p != 0 && s.rdN Obj.ptpPortBinding .c p != 0xFFFF

/-- A port may follow a grandmaster: slave only, or boundary clock. -/
def State.ptpSlave (s : State) (p : Nat) : Bool := s.ptpUsed p && s.rdN Obj.ptpPortRole .c p != 3

/-- PTP_ANNOUNCE_RECEIVED (R61, R63): `tlv` is a synchronization metadata TLV the message carries (R60). -/
def execPtpAnnounceReceived (port : Fin 8) (h : PtpHeader) (a : Announce) (tlv : Option (List Byte)) (s : State) : Out :=
  if s.ptpClient && s.ptpUsed port.val && !h.supported then .next s.ptpDiscard
  else
  when (s.ptpClient && s.ptpSlave port.val) s
    (if (h.domain : Int) ≠ s.rd Obj.ptpDomain .c 0 then s
     else if a.secs < 1000000 then
       let s := s.ptpDiscard
       let told := decide (a.identity ∈ s.time.lowReported)
       let s := s.updTime (fun t =>
         { t with lowReported := if told then t.lowReported else t.lowReported ++ [a.identity], candidates := t.candidates.filter (fun c => c.identity != a.identity) })
       let s := if told then s else s.raise .c 0x120B 0 (payloadOf [(64, a.identity)])
       if s.time.gm.any (fun g => g.identity == a.identity) then (s.gmLost 3).bmca 3 else s
     else
       let s := match tlv with | some b => s.wrBytes Obj.ptpSmTlv .c 0 (overlay (List.replicate 64 0) 0 (b.take 64)) | none => s
       let s := s.updTime (fun t =>
         { t with lowReported := t.lowReported.filter (· != a.identity), candidates := t.candidates.filter (fun c => c.identity != a.identity) ++ [a] })
       (s.bmca 3).showPtp)

/-- A Sync or Follow_Up from the grandmaster that is followed; one of an excluded grandmaster is counted (R63). -/
def State.ptpFrom (s : State) (p : Nat) (h : PtpHeader) : Bool :=
  s.ptpClient && s.ptpSlave p && h.supported && decide ((h.domain : Int) = s.rd Obj.ptpDomain .c 0) &&
    s.time.gm.any (fun g => g.identity == h.gm)

/-- A message that is counted and discarded: an option outside R60's table, or an excluded grandmaster (R63). -/
def State.ptpCounted (s : State) (p : Nat) (h : PtpHeader) : Bool :=
  s.ptpClient && s.ptpUsed p && (!h.supported || decide (h.gm ∈ s.time.lowReported))

/-- The time of a Sync's origin and its receipt give an offset (R60, R61). -/
def State.syncOffset (s : State) (p origin rx : Nat) : State :=
  let diff : Int := (rx : Int) - origin
  let s := s.updTime (fun t => { t with syncDiff := tabSet t.syncDiff p diff })
  (s.onOffset (diff - s.time.pathDelay)).showPtp

/-- PTP_SYNC_RECEIVED (R60, R61): received at `rx`; a one-step Sync carries its origin time, a two-step one waits for its
Follow_Up. -/
def execPtpSyncReceived (port : Fin 8) (h : PtpHeader) (rx : Nat) (origin : Option Nat) (s : State) : Out :=
  let p := port.val
  if s.ptpCounted p h then .next s.ptpDiscard
  else
    when (s.ptpFrom p h) s
      (match origin with
       | some t => s.syncOffset p t rx
       | none => s.updTime (fun t => { t with syncWait := tabSet t.syncWait p (h.seq, rx) }))

/-- PTP_FOLLOW_UP_RECEIVED (R60): the precise origin time of the two-step Sync that waits. -/
def execPtpFollowUpReceived (port : Fin 8) (h : PtpHeader) (origin : Nat) (s : State) : Out :=
  let p := port.val
  if s.ptpCounted p h then .next s.ptpDiscard
  else
    match s.time.syncWait.find? (fun e => e.1 == p) with
    | none => .next s
    | some (_, seq, rx) =>
      when (s.ptpFrom p h && seq == h.seq) s
        ((s.updTime (fun t => { t with syncWait := tabDel t.syncWait p })).syncOffset p origin rx)

/-- PTP_DELAY_REQ_TRANSMIT (R60): a port that follows a grandmaster sends a Delay_Req at an instant. -/
def execPtpDelayReqTransmit (port : Fin 8) (s : State) : Out :=
  let p := port.val
  when (s.ptpClient && s.ptpSlave p && s.time.gm.isSome) s
    (let n := tabGet s.time.reqSeq p 0
     let s := s.send (.ptpDelayReq p n)
     s.updTime (fun t => { t with reqSeq := tabSet t.reqSeq p ((n + 1) % 65536), reqWait := tabSet t.reqWait p (n, t.base) }))

/-- PTP_DELAY_RESP_RECEIVED (R60): the master received the Delay_Req at `rx`: mean path delay ((t2 − t1) + (t4 − t3)) / 2. -/
def execPtpDelayRespReceived (port : Fin 8) (h : PtpHeader) (rx : Nat) (s : State) : Out :=
  let p := port.val
  if s.ptpCounted p h then .next s.ptpDiscard
  else
    match s.time.reqWait.find? (fun e => e.1 == p), s.time.syncDiff.find? (fun e => e.1 == p) with
    | some (_, seq, tx), some (_, diff) =>
      when (s.ptpFrom p h && seq == h.seq) s
        (s.updTime (fun t => { t with reqWait := tabDel t.reqWait p, pathDelay := (diff + ((rx : Int) - tx)) / 2 }))
    | _, _ => .next s

/-- A port acts as master (R60, R68): its role is master only, or it is a boundary clock's port in the MASTER state. -/
def State.ptpMaster (s : State) (p : Nat) : Bool :=
  s.up .c && s.ptpUsed p && (s.rdN Obj.ptpPortRole .c p == 3 || s.rdN Obj.ptpPortState .c p == 6)

/-- PTP_SYNC_TRANSMIT (R60): a two-step Sync with its Follow_Up. -/
def execPtpSyncTransmit (port : Fin 8) (s : State) : Out :=
  let p := port.val
  when (s.ptpMaster p) s
    (let n := tabGet s.time.syncSeq p 0
     let s := (s.send (.ptpSync p n)).send (.ptpFollowUp p n s.time.base)
     s.updTime (fun t => { t with syncSeq := tabSet t.syncSeq p ((n + 1) % 65536) }))

/-- What a master port announces (R68): under TIME.SOURCE 2 the part itself, with clockClass 6 or 7; else the grandmaster it follows,
or itself with the default clockClass of IEEE 1588-2019 when it follows none. -/
def State.announced (s : State) : Nat × Nat × Nat × Nat :=
  let own := s.rdN Obj.idSerial .p 0
  let p1 := s.rdN Obj.ptpPriority1 .c 0
  let p2 := s.rdN Obj.ptpPriority2 .c 0
  if s.rdN Obj.timeSource .c 0 = 2 ∧ s.time.ppsArmed then (own, if s.bit Obj.timeStatus .c 0 2 then 6 else 7, p1, p2)
  else match s.time.gm with
    | some g => (g.identity, g.clockClass, g.priority1, g.priority2)
    | none => (own, 248, p1, p2)

/-- PTP_ANNOUNCE_TRANSMIT (R68). -/
def execPtpAnnounceTransmit (port : Fin 8) (s : State) : Out :=
  let p := port.val
  when (s.ptpMaster p) s
    (let n := tabGet s.time.announceSeq p 0
     let (id, cls, p1, p2) := s.announced
     (s.send (.ptpAnnounce p n id cls p1 p2)).updTime (fun t => { t with announceSeq := tabSet t.announceSeq p ((n + 1) % 65536) }))

/-- PTP_DELAY_REQ_RECEIVED (R60): a master port received a Delay_Req at `rx` and answers it. -/
def execPtpDelayReqReceived (port : Fin 8) (h : PtpHeader) (rx : Nat) (s : State) : Out :=
  let p := port.val
  if s.up .c ∧ s.ptpUsed p ∧ ¬ h.supported then .next s.ptpDiscard
  else when (s.ptpMaster p && decide ((h.domain : Int) = s.rd Obj.ptpDomain .c 0)) s (s.send (.ptpDelayResp p h.seq rx))

/-- The grandmaster that is followed leaves the candidates until its next Announce, and what its Sync and delay messages gave goes with
it. The spec does not say whether BMCA may select it again at once: that it may not is a DESIGN CHOICE (assumption 83). -/
def State.dropGm (s : State) : State :=
  match s.time.gm with
  | none => s
  | some g => s.updTime (fun t => { t with candidates := t.candidates.filter (fun c => c.identity != g.identity), syncDiff := [], syncWait := [], reqWait := [] })

/-- SYNC_LOSS_TIMEOUT (R61): no Sync for 4 sync intervals. -/
def execSyncLossTimeout (s : State) : Out :=
  when (s.up .c && s.rdN Obj.timeSource .c 0 != 2 && s.time.gm.isSome) s (((s.dropGm.gmLost 1).bmca 1).showPtp)

/-- ANNOUNCE_RECEIPT_TIMEOUT (R61). -/
def execAnnounceReceiptTimeout (s : State) : Out :=
  when (s.ptpClient && s.time.gm.isSome) s (((s.dropGm.gmLost 2).bmca 2).showPtp)

/-- TIME_STEP_REQUEST (R62): accepted in STEP-PENDING only; the last offset measured is removed. -/
def execTimeStepRequest (s : State) : Out :=
  when s.serverUp s
    (if s.servo = 5 then (s.stepTime (-s.time.offset)).ans .ok else s.ans .access)

/-! ### Steering (R59, R65) -/

/-- Slewing of a media die's counter takes at most TIME.SLEW.MAX off its difference in 125 µs: units of 0.1 ppm, 1/80 ns each. -/
def slewTake (limit : Nat) (x : Int) : Int := x - max (-(limit : Int)) (min (limit : Int) x)

/-- MEDIA_DIE_STEERING (R59, R65): `err` is how far the counter stays from Die C's time after steering, ns. -/
def execMediaDieSteering (d : MDie) (err : Int) (s : State) : Out :=
  when (s.reachable d) s
    (let rest := slewTake (s.rdN Obj.timeSlewMax .c 0) (s.md d).time.slew
     let s := s.updDieTime d (fun t => { t with slew := rest, ctr := ((s.time.base : Int) + rest / 80 + err).toNat })
     if 2 < err.natAbs ∧ rest = 0 then s.raise .c 0x120A d.num (p16 [d.num, err]) else s)

/-! ### 10 MHz and 1PPS inputs (R67–R69) -/

/-- The qualification of the 10 MHz input, shown in TIME.STATUS bit 1. While qualified it is the frequency source of the servo with
TIME.SOURCE 1 or 2, shown in bit 3; else the 25 MHz reference is. A change of source keeps the frequency, hence the ratio held
(R61, R67). -/
def State.showF10m (s : State) (ok : Bool) : State :=
  let use := ok && s.rdN Obj.timeSource .c 0 != 0
  ((s.putBit Obj.timeStatus .c 0 1 ok).putBit Obj.timeStatus .c 0 3 use).updTime (fun t => { t with f10m := use })

/-- TIME.STATUS as it reads: bit 4 shows a running media die that Die C does not reach (R65, R90). -/
def State.timeStatusNow (s : State) : Nat :=
  withBit (s.rdN Obj.timeStatus .c 0) 4 (mdies.any (fun d => s.up d.pdie && !s.reachable d))

/-- What a write of TIME.SOURCE changes (R67, R68): the frequency source; into 2 the PTP client stops, no grandmaster stays selected, and
the servo is in FREERUN until the seconds are set; out of 2 the 1PPS input stands for a grandmaster no longer, which is a loss (DEDUCED,
assumption 84). -/
def State.sourceChanged (s : State) (old : Nat) : State :=
  let new := s.rdN Obj.timeSource .c 0
  let s := s.showF10m (s.bit Obj.timeStatus .c 0 1)
  if new = 2 ∧ old ≠ 2 then
    ((s.updTime (fun t => { t with gm := none, candidates := [], goodRun := 0, newGm := false, lockedSince := false, ppsArmed := false,
                                   ppsSet := none, syncDiff := [], syncWait := [], reqWait := [] })).clrBit Obj.timeStatus .c 0 0
      |>.setServo 0).showPtp
  else if old = 2 ∧ new ≠ 2 then
    let s := s.updTime (fun t => { t with ppsArmed := false, ppsSet := none })
    (if s.time.gm.isSome then s.gmLost 3 else s).showPtp
  else s.showPtp

/-- The 10 MHz input is lost (R67). -/
def State.f10mLost (s : State) (cause : Nat) : State :=
  ((s.showF10m false).setBit Obj.timeSticky .c 0 2).raise .c 0x1207 0 (p16 [cause])

/-- F10M_EDGE_TIMEOUT (R67): 400 ns without an edge. -/
def execF10mEdgeTimeout (s : State) : Out := when (s.up .c && s.bit Obj.timeStatus .c 0 1) s (s.f10mLost 1)

/-- F10M_MEASUREMENT (R67): the frequency over a second, whether it lies within ±50 ppm, and whether no edge was missing. -/
def execF10mMeasurement (within complete : Bool) (s : State) : Out :=
  let ok := s.bit Obj.timeStatus .c 0 1
  when (s.up .c && (ok != (within && complete)) && (!ok || !within)) s (if ok then s.f10mLost 2 else s.showF10m true)

/-- The whole second nearest to an instant, ns. -/
def nearestSecond (t : Nat) : Nat := (t + nsPerSec / 2) / nsPerSec * nsPerSec

/-- The 1PPS input as grandmaster of TIME.SOURCE 2. -/
def State.ppsGm (s : State) : Announce :=
  { identity := s.rdN Obj.idSerial .p 0, priority1 := 0, clockClass := 6, accuracy := 0, variance := 0, priority2 := 0, steps := 0,
    secs := s.time.base / nsPerSec }

/-- A qualified edge under TIME.SOURCE 2 (R68): the first after a write of the seconds takes them; later ones give the phase. -/
def State.ppsPhase (s : State) (t : Nat) : State :=
  match s.time.ppsSet with
  | some sec =>
    let s := s.updTime (fun x => { x with ppsSet := none, ppsArmed := true })
    let s := if s.time.gm.isNone then s.gmSelect s.ppsGm else s
    (s.onOffset ((t : Int) - sec * nsPerSec)).showPtp
  | none =>
    if ¬ s.time.ppsArmed then s
    else
      let s := if s.time.gm.isNone then s.gmSelect s.ppsGm else s
      (s.onOffset ((t : Int) - nearestSecond t)).showPtp

/-- PPS_EDGE (R68): a rising edge timestamped `t` by the time base. -/
def execPpsEdge (t : Nat) (s : State) : Out :=
  when (s.up .c) s
    (let near := match s.time.ppsLast with
       | some l => decide (l + nsPerSec ≤ t + 1000) && decide (t ≤ l + nsPerSec + 1000)
       | none => false
     let n := if near then s.time.ppsRun + 1 else 1
     let s := s.updTime (fun x => { x with ppsRun := n, ppsLast := some t })
     let s := if 3 ≤ n then s.setBit Obj.timeStatus .c 0 2 else s
     let diff : Int := (t : Int) - nearestSecond t
     if s.rdN Obj.timeSource .c 0 = 2 then (if s.bit Obj.timeStatus .c 0 2 then s.ppsPhase t else s)
     else if 1000 < diff.natAbs then (s.setBit Obj.timeSticky .c 0 4).raise .c 0x1209 0 (payloadOf [(32, diff)])
     else s)

/-- PPS_LOSS_TIMEOUT (R68): 1.1 s without an edge. -/
def execPpsLossTimeout (s : State) : Out :=
  when (s.up .c && s.bit Obj.timeStatus .c 0 2) s
    (let s := (s.updTime (fun t => { t with ppsRun := 0, ppsLast := none })).clrBit Obj.timeStatus .c 0 2
     let s := (s.setBit Obj.timeSticky .c 0 3).raise .c 0x1208 0 0
     if s.rdN Obj.timeSource .c 0 = 2 ∧ s.time.gm.isSome then (s.gmLost 4).showPtp else s)

/-- TIME_PPS_SECONDS_SET (R63, R68). -/
def execTimePpsSecondsSet (v : Nat) (s : State) : Out :=
  when s.serverUp s
    (if s.rdN Obj.timeSource .c 0 ≠ 2 then s.ans .access
     else if v < 1000000 ∨ 2 ^ 48 ≤ v then s.ans .range
     else (s.updTime (fun t => { t with ppsSet := some v })).ans .ok)

/-- The level of `C_TIM00_PPSO` (R69): high for 100 ms from a pulse's second, low otherwise and in FREERUN and ACQUIRING. -/
def State.ppsoHigh (s : State) : Bool :=
  s.up .c && decide (2 ≤ s.servo) && s.time.ppsoDriven && decide (s.time.ppsoSecond * nsPerSec ≤ s.time.base)
    && decide (s.time.base < s.time.ppsoSecond * nsPerSec + 100000000)

/-- PPS_OUTPUT_SECOND (R69): driven in LOCKED, HOLDOVER, SLEWING and STEP-PENDING. A correction of the time base may carry it past the
whole second by the most that TIME.SLEW.MAX allows in a second, 0.1 ms; the pulse then still belongs to that second. -/
def execPpsOutputSecond (s : State) : Out :=
  let sec := s.time.base / nsPerSec
  when (s.up .c && decide (2 ≤ s.servo) && decide (s.time.base % nsPerSec ≤ 100000)
      && !(s.time.ppsoDriven && sec == s.time.ppsoSecond)) s
    ((s.send (.pps sec)).updTime (fun t => { t with ppsoSecond := sec, ppsoDriven := true }))

/-! ### Time from the fabric (R436) -/

/-- The link toward the root: the first edge of the path of R428 to the root's Die A. -/
def State.rootLink (s : State) : Option (MDie × Nat) :=
  if s.rdN Obj.twlState .p 0 ≠ 2 then none
  else (s.findPath (s.rdN Obj.twlRootId .p 0) 0 .a []).bind (fun p => s.pathEntry p.hops)

/-- The offset check of R436. -/
def State.twillOffset (s : State) (off : Int) : State :=
  if off.natAbs ≤ 1000 then (s.updTwill (fun t => { t with offRun := 0 })).clrBit Obj.twlStatus .p 0 4
  else
    let n := s.twill.offRun + 1
    let s := (s.updTwill (fun t => { t with offRun := n })).setBit Obj.twlStatus .p 0 4
    if n = 8 then (s.setBit Obj.twlSticky .p 0 6).raise .c 0x330B 0 (payloadOf [(16, s.twlId), (32, off)]) else s

/-- TWILL_SYNC_RECEIVED (R436): a SYNC from the link toward the root, taken with the link's delay; in mode 1 it drives the servo. -/
def execTwillSyncReceived (d : MDie) (quad : Fin 8) (m : TwlMsg) (s : State) : Out :=
  match m.body with
  | .sync secs ns _ _ =>
    when (s.twlLive d quad.val && s.rootLink == some (d, quad.val)) s
      (let t := secs * nsPerSec + ns + s.rdN Obj.twlLinkDelay d.die quad.val
       let off : Int := (s.time.base : Int) - t
       let s := s.twillOffset off
       if s.timeFromTwill then
         let root : Announce := { s.ppsGm with identity := s.rdN Obj.twlRootSerial .p 0, secs := secs }
         let s := if s.time.gm.map (·.identity) = some root.identity then s else s.gmSelect root
         (s.onOffset off).showPtp
       else s)
  | _ => .next s

end Sys2Proof.Machine
end

