-- ==== Sys2Proof/Machine/Cues.lean ====
section
/-! DEFINITION. Cue commands: writes, arming and disarming (R80), dispatch (R81), execution by action (R78, R82, R84). -/

namespace Sys2Proof.Machine

/-! ### Writes (R80) -/

/-- A written entry: LOADED, or EMPTY and all zeros where ACTION is 0. -/
def State.cueWrite (s : State) (d : MDie) (k : Nat) (b : List Byte) : State :=
  let st := s.cueState d k
  if st = 2 ∨ st = 3 then s.ans .access
  else if cueAction b = 0 then ((s.wrBytes Obj.timeCueEntry d.die k (List.replicate 32 0)).setCue d k 0).ans .ok
  else if ¬ cueOk (s.refRaster d) b then s.ans .range
  else ((s.wrBytes Obj.timeCueEntry d.die k b).setCue d k 1).ans .ok

/-- TIME_CUE_ENTRY_WRITE (R80). -/
def execTimeCueEntryWrite (d : MDie) (k : Fin 1024) (b : List Byte) (s : State) : Out :=
  when s.serverUp s (if b.length ≠ 32 then s.ans .length else s.mirror d.die (fun d _ s => s.cueWrite d k.val b))

/-- TIME_CUE_ARM (R80). -/
def execTimeCueArm (d : MDie) (k : Fin 1024) (s : State) : Out :=
  when s.serverUp s (s.mirror d.die (fun d _ s =>
    if s.cueState d k.val = 1 then (s.armCue d k.val).ans .ok else s.ans (.noEffect (s.cueState d k.val))))

/-- TIME_CUE_DISARM (R80). -/
def execTimeCueDisarm (d : MDie) (k : Fin 1024) (s : State) : Out :=
  when s.serverUp s (s.mirror d.die (fun d _ s =>
    if s.cueState d k.val = 2 then (s.disarmCue d k.val).ans .ok else s.ans (.noEffect (s.cueState d k.val))))

/-- The entries of a group in a state. -/
def State.cueGroupIn (s : State) (d : MDie) (g st : Nat) : List Nat := (s.cuesIn d st).filter (fun k => cueGroup (s.cueEntry d k) == g)

/-- TIME_CUE_GROUP_ARM (R80): every LOADED entry of the group; none to act on is OK. -/
def execTimeCueGroupArm (d : MDie) (g : Fin 256) (s : State) : Out :=
  when s.serverUp s (s.mirror d.die (fun d _ s =>
    ((s.cueGroupIn d g.val 1).foldl (fun (s : State) k => s.armCue d k) s).ans .ok))

/-- TIME_CUE_GROUP_DISARM (R80). -/
def execTimeCueGroupDisarm (d : MDie) (g : Fin 256) (s : State) : Out :=
  when s.serverUp s (s.mirror d.die (fun d _ s =>
    ((s.cueGroupIn d g.val 2).foldl (fun (s : State) k => s.disarmCue d k) s).ans .ok))

/-! ### What an action does to its target (R75, R78) -/

/-- An action refused by its target, or made. -/
def cueResult (x : State × Bool) : State × Nat := (x.1, if x.2 then 0 else 2)

/-- A COMMIT on a target at an instant: the state, and 0, or the reason of event 0x1211. -/
def State.cueCommit (s : State) (d : MDie) (index n : Nat) (t : Instant) : State × Nat :=
  if index = 0x1810 ∧ n < 64 then
    if ¬ s.secOn d secScn then (s, 1) else if s.outUsed d n then cueResult (s.outCommit d n t true) else (s, 2)
  else if index = 0x1801 ∧ n < 8 then
    if ¬ s.secOn d (secCmp n) then (s, 1) else if s.cmpUsed d n then cueResult (s.cmpCommit d n t false true) else (s, 2)
  else if index = 0x1605 ∧ n < 256 then
    if ¬ s.secOn d secLoom then (s, 1)
    else
      let s := (s.ans .ok).commitGroup [d] n t
      (s, if s.answer = .ok then 0 else 2)
  else if index = 0x1510 ∧ n < 32 then
    if ¬ s.secOn d 14 then (s, 1) else if (s.gateShadow d n).cycleOk then (s.commitGates d n t.ceilNs, 0) else (s, 2)
  else if index = 0x1701 ∧ n < 32 then
    if ¬ s.secOn d secCnv then (s, 1) else if s.chainUsed d n then cueResult (s.chainCommit d n t) else (s, 2)
  else if index = 0x2001 ∧ n < 48 then
    if ¬ s.secOn d secEnt then (s, 1) else if s.encUsed d n then cueResult (s.encCommit d n t) else (s, 2)
  else if index = 0x2802 ∧ n < 16 then
    if ¬ s.secOn d secAud then (s, 1) else if s.audPortUsed d n then cueResult (s.audPortCommit d n t.ceilNs) else (s, 2)
  else if index = 0x2805 ∧ n < 256 then
    if ¬ s.secOn d secAud then (s, 1) else cueResult (s.routerCommit d n t.ceilNs)
  else (s, 2)

/-- A FLOW_START or FLOW_STOP. -/
def State.cueFlow (s : State) (d : MDie) (index n : Nat) (start : Bool) (t : Instant) : State × Nat :=
  if index ≠ 0x1420 ∨ 4096 ≤ n then (s, 2)
  else if ¬ s.secOn d 15 then (s, 1)
  else if s.outLive d n then (s.flowControl d n start t, 0) else (s, 2)

/-- A CHANNEL_START or CHANNEL_STOP. -/
def State.cueChannel (s : State) (d : MDie) (index n : Nat) (start : Bool) (t : Instant) : State × Nat :=
  if index ≠ 0x2001 ∨ 48 ≤ n then (s, 2)
  else if ¬ s.secOn d secEnt then (s, 1)
  else if ¬ s.encModes ∨ ¬ s.encUsed d n then (s, 2)
  else if s.encIdle d n start then (s, 0) else (s.encControl d n start t, 0)

/-- An action on its target at an instant; the request status in force is not the cue's. -/
def State.cueAct (s : State) (d : MDie) (b : List Byte) (t : Instant) : State × Nat :=
  let n := cueInst b
  let i := cueIndex b
  let r : State × Nat :=
    match cueAction b with
    | 1 => s.cueCommit d i n t
    | 2 =>
      if i ≠ 0x2202 ∨ 48 ≤ n then (s, 2) else if ¬ s.secOn d secEnt then (s, 1)
      else if s.encState d n = 2 then (s.keyRequest d n t.ceilNs, 0) else (s, 2)
    | 3 => if i ≠ 0x2806 then (s, 2) else if ¬ s.secOn d secAud then (s, 1) else (s.audTrigger d (cueArg b % 256) t.ceilNs, 0)
    | 4 => s.cueFlow d i n true t
    | 5 => s.cueFlow d i n false t
    | 6 => s.cueChannel d i n true t
    | 7 => s.cueChannel d i n false t
    | 8 =>
      if i ≠ 0x1810 ∨ 64 ≤ n then (s, 2) else if ¬ s.secOn d secScn then (s, 1)
      else if s.outUsed d n then cueResult (s.formatApply d n t) else (s, 2)
    | _ => (s, 2)
  ({ r.1 with answer := s.answer }, r.2)

/-! ### Dispatch (R81) -/

/-- Time ahead of its instant at which an entry is dispatched (R81). -/
def dispatchAhead : Nat := 20000

/-- The target holds a cue of the same action already. -/
def State.cueBusy (s : State) (d : MDie) (k : Nat) : Bool :=
  let b := s.cueEntry d k
  (s.cuesIn d 3).any (fun j =>
    let c := s.cueEntry d j
    cueIndex c == cueIndex b && cueInst c == cueInst b && cueAction c == cueAction b)

/-- A cue that is dispatched to a target, and waits while the target holds one of its action. -/
def State.cueWaits (s : State) (d : MDie) (k : Nat) : Bool :=
  let a := cueAction (s.cueEntry d k)
  decide (1 ≤ a) && decide (a ≤ 8) && s.cueBusy d k

/-- The first of some entries in the order of R82. -/
def State.cueMin (s : State) (d : MDie) : List Nat → Option Nat
  | [] => none
  | k :: l => match s.cueMin d l with | none => some k | some j => if s.cueBefore d j k then some j else some k

/-- CUE_DISPATCH (R81): the earliest armed entry whose dispatch is due and whose target is free. A cue whose target would refuse it
fails here. -/
def execCueDispatch (d : MDie) (s : State) : Out :=
  let due := (s.cuesIn d 2).filter (fun k =>
    let a := cueAction (s.cueEntry d k)
    decide (1 ≤ a) && decide (a ≤ 8) && (s.cueInstant d k).le (.ofNs (s.now d.pdie + dispatchAhead)) && !s.cueBusy d k)
  match s.cueMin d due with
  | none => .next s
  | some k =>
    when (s.up d.pdie) s
      (match s.cueAct d (s.cueEntry d k) (s.cueInstant d k) with
       | (_, 0) => s.setCue d k 3
       | (s', r) => s'.cueFail d k r)

/-! ### Execution (R78, R82, R84) -/

/-- An entry's turn has come: its instant is reached and no armed or dispatched entry comes before it, those aside that wait until a
dispatched cue of their target and action executes (R81, R82). -/
def State.cueTurn (s : State) (d : MDie) (k : Nat) : Bool :=
  s.up d.pdie && (s.cueInstant d k).le (.ofNs (s.now d.pdie)) &&
    (s.cuesIn d 2 ++ s.cuesIn d 3).all (fun j => j == k || s.cueBefore d k j || (s.cueState d j == 2 && s.cueWaits d j))

/-- A dispatched entry of an action executes: the target acts at its coordinate. -/
def State.cueRun (s : State) (d : MDie) (k action : Nat) : Out :=
  let b := s.cueEntry d k
  when (s.cueState d k == 3 && cueAction b == action && s.cueTurn d k) s
    (match s.cueAct d b (s.cueInstant d k) with
     | (s', 0) => s'.cueDone d k
     | (s', r) => s'.cueFail d k r)

/-- CUE_COMMIT (R78). -/
def execCueCommit (d : MDie) (k : Fin 1024) (s : State) : Out := s.cueRun d k.val 1
/-- CUE_KEY_PICTURE (R78, R283). -/
def execCueKeyPicture (d : MDie) (k : Fin 1024) (s : State) : Out := s.cueRun d k.val 2
/-- CUE_AUDIO_START (R78, R350). -/
def execCueAudioStart (d : MDie) (k : Fin 1024) (s : State) : Out := s.cueRun d k.val 3
/-- CUE_FLOW_START (R78, R139). -/
def execCueFlowStart (d : MDie) (k : Fin 1024) (s : State) : Out := s.cueRun d k.val 4
/-- CUE_FLOW_STOP (R78, R139). -/
def execCueFlowStop (d : MDie) (k : Fin 1024) (s : State) : Out := s.cueRun d k.val 5
/-- CUE_CHANNEL_START (R78, R243). -/
def execCueChannelStart (d : MDie) (k : Fin 1024) (s : State) : Out := s.cueRun d k.val 6
/-- CUE_CHANNEL_STOP (R78, R243). -/
def execCueChannelStop (d : MDie) (k : Fin 1024) (s : State) : Out := s.cueRun d k.val 7
/-- CUE_FORMAT_APPLY (R78, R214). -/
def execCueFormatApply (d : MDie) (k : Fin 1024) (s : State) : Out := s.cueRun d k.val 8

/-- An armed entry that the cue engine executes itself (R81). -/
def State.cueSelf (s : State) (d : MDie) (k action : Nat) (f : State → State) : Out :=
  when (s.cueState d k == 2 && cueAction (s.cueEntry d k) == action && s.cueTurn d k) s ((f s).cueDone d k)

/-- CUE_MARKER (R81). -/
def execCueMarker (d : MDie) (k : Fin 1024) (s : State) : Out :=
  s.cueSelf d k.val 9 (fun s => s.raise d.pdie 0x1212 k.val (payloadOf [(16, k.val), (64, cueArg (s.cueEntry d k.val))]))

/-- The entries of a group in a state that a group cue acts on: among those of its own coordinate, the ones that follow it (R82). -/
def State.cueFollowers (s : State) (d : MDie) (k st : Nat) : List Nat :=
  let t := s.cueInstant d k
  (s.cueGroupIn d (cueArg (s.cueEntry d k) % 256) st).filter (fun j =>
    let u := s.cueInstant d j
    j != k && (!(t.le u && u.le t) || s.cueBefore d k j))

/-- CUE_ARM_GROUP (R82, R83): the entries are armed at the cue's own instant, so that those of its coordinate are not past. -/
def execCueArmGroup (d : MDie) (k : Fin 1024) (s : State) : Out :=
  s.cueSelf d k.val 0x0A (fun s =>
    (s.cueFollowers d k.val 1).foldl (fun (s : State) j => s.armCueAt d (s.cueInstant d k.val) j) s)

/-- CUE_DISARM_GROUP (R82). -/
def execCueDisarmGroup (d : MDie) (k : Fin 1024) (s : State) : Out :=
  s.cueSelf d k.val 0x0B (fun s => (s.cueFollowers d k.val 2).foldl (fun (s : State) j => s.disarmCue d j) s)

end Sys2Proof.Machine
end

