-- ==== Sys2Proof/Machine/Leave.lean ====
section
/-! DEFINITION. Leaving CONFIGURE (R71, R129, R134, R136, R156, R158, R201, R228, R272, R358, R480): the checks over the whole
configuration, and what takes effect. -/

namespace Sys2Proof.Machine

/-! ### Checks of the network block (R129, R134, R136, R158, R210, R343) -/

/-- The first element of a list that clashes with an earlier one. -/
def findClash {α : Type} (p : α → α → Bool) (seen : List α) : List α → Option α
  | [] => none
  | x :: r => if seen.any (fun y => p y x) then some x else findClash p (x :: seen) r

/-- The legs of the declared ingress flows: flow, descriptor, leg. -/
def State.inLegs (s : State) (d : MDie) : List (Nat × List Byte × Nat) :=
  (s.inFlows d).flatMap (fun f => (descLegs (s.inDesc d f)).map (fun leg => (f, s.inDesc d f, leg)))

/-- Two ingress legs overlap (R129): the same port, VLAN, destination and UDP port, unless both filter on source and their
sources differ. -/
def legsOverlap (x y : Nat × List Byte × Nat) : Bool :=
  let (_, b, l) := x
  let (_, c, m) := y
  descPort b l == descPort c m && descVlan b l == descVlan c m && descDst b l == descDst c m && descUdp b l == descUdp c m
    && !(descBits b 506 506 == 1 && descBits c 506 506 == 1 && descSrc b l != descSrc c m)

/-- Every queue that a descriptor names: kind and number of the descriptor, queue. -/
def State.namedQueues (s : State) (d : MDie) : List (Nat × Nat × Nat) :=
  (s.inFlows d).map (fun f => (1, f, descQueue (s.inDesc d f) 1)) ++
    (s.outFlows d).flatMap (fun f => (descLegs (s.outDesc d f)).map (fun leg => (2, f, descQueue (s.outDesc d f) leg)))

/-- A section failed (R45). -/
def State.secFailed (s : State) (d : MDie) (n : Nat) : Bool := s.section d.pdie n == 4

/-- A flow's target is missing or in a failed section (R129). -/
def State.targetBad (s : State) (d : MDie) (f : Nat) : Bool :=
  let b := s.inDesc d f
  let t := descTarget b
  match descKind b with
  | 1 => decide (255 < t) || s.secFailed d secLoom
  | 4 => decide (255 < t) || s.secFailed d secLoom
  | 2 => s.secFailed d secAud
  | 3 => s.secFailed d secAud
  | _ => s.rdN Obj.decCtxEnable d.die t != 1 || s.secFailed d secDec

/-- A flow's source is missing or in a failed section (R129). -/
def State.sourceBad (s : State) (d : MDie) (f : Nat) : Bool :=
  let b := s.outDesc d f
  let t := descTarget b
  match descKind b with
  | 1 => s.rdN Obj.scnOutEnable d.die t != 1 || s.secFailed d secScn
  | 4 => s.rdN Obj.scnOutEnable d.die t != 1 || s.secFailed d secScn
  | 2 => s.secFailed d secAud
  | 3 => s.secFailed d secAud
  | _ => s.rdN Obj.encChEnable d.die t != 1 || s.secFailed d secEnt

/-- Largest Ethernet frame of a leg: the UDP size of an audio packet, of 7 TS packets, the port's limit for the other kinds (R122, R123, R125,
R136). -/
def State.longestFrame (s : State) (d : MDie) (f leg : Nat) : Nat :=
  let b := s.outDesc d f
  let udp := match descKind b with
    | 2 => 12 + descChannels b * (if descBitDepth b = 0 then 2 else 3) * audPerPacket b
    | 3 => 12 + descChannels b * 4 * audPerPacket b
    | 7 => 12 + 7 * 188
    | _ => s.payloadLimit d f + 12
  max 64 (udp + 28 + 18 + (if descVlan b leg = 0xFFFF then 0 else 4))

/-- The packets of an ingress or egress audio flow exceed the UDP size limit of one of its ports (R122, R125). -/
def State.audioTooLong (s : State) (d : MDie) (b : List Byte) : Bool :=
  let bytes := match descKind b with | 2 => if descBitDepth b = 0 then 2 else 3 | _ => 4
  descAudio b && (descLegs b).any (fun leg =>
    decide ((if (s.port d (descPort b leg)).maxUdp = 1 then 8960 else 1460) < 12 + descChannels b * bytes * audPerPacket b))

/-- The channels of an audio flow do not lie in one bank of its rate (R343, R345). -/
def State.bankBad (s : State) (d : MDie) (b : List Byte) : Bool :=
  let t := descTarget b
  let e := t + descChannels b - 1
  descAudio b && (decide (2047 < e) || t / 256 != e / 256 || s.bankHz d (t / 256) != audFlowHz b)

/-- An unsynchronized flow lacks synchronizers, or they disagree (R158). -/
def State.syncBad (s : State) (d : MDie) (f : Nat) : Bool :=
  let b := s.inDesc d f
  if descKind b ≠ 1 ∨ descBits b 507 507 = 1 then false
  else
    let n := (bondOf (s.flowAttr d f)).getD 1
    let l := (List.range n).map (fun m => s.fsyOf d (descTarget b + m))
    let fmtOf := fun (k : Nat) => (s.rdN Obj.fsyFormat d.die k, s.rdN Obj.fsyOfs d.die k, s.rdN Obj.fsySlots d.die k)
    match l.head? with
    | some (some k0) =>
      (fmtOf k0).1 != s.rdN Obj.flowInFormat d.die f || l.any (fun k => match k with | none => true | some k => fmtOf k != fmtOf k0)
    | _ => true

/-- More than four flows of a kind name the output of a flow, and it is the fifth (R210). -/
def State.fifthFlow (s : State) (d : MDie) (f : Nat) : Bool :=
  let b := s.outDesc d f
  (descKind b == 1 || descKind b == 4) &&
    ((s.outFlows d).filter (fun g => decide (g < f) && descKind (s.outDesc d g) == descKind b && descTarget (s.outDesc d g) == descTarget b)).length == 4

/-- The queue at which the sum of the reserves, taken in ascending order, passes 61,440 (R134). -/
def reserveOver (acc : Nat) : List (Nat × Nat) → Option Nat
  | [] => none
  | (q, r) :: l => if 61440 < acc + r then some q else reserveOver (acc + r) l

/-- The queues with a reserve. -/
def State.reserves (s : State) (d : MDie) : List (Nat × Nat) :=
  (s.listed Obj.queReserve d.die (fun _ v => v != 0)).map (fun q => (q, s.rdN Obj.queReserve d.die q))

/-- The first failing check of the network block: kind, number and reason of event 0x1407 (R129). Reasons are taken in ascending
order. -/
def State.netFault (s : State) (d : MDie) : Option (Nat × Nat × Nat) :=
  let outLegs := (s.outFlows d).flatMap (fun f => (descLegs (s.outDesc d f)).map (fun leg => (f, leg)))
  let tries : List (Option (Nat × Nat × Nat)) :=
    [ (findClash legsOverlap [] (s.inLegs d)).map (fun x => (1, x.1, 1)),
      (findClash (fun (x y : Nat × Nat × Nat) => x.2.2 == y.2.2) [] (s.namedQueues d)).map (fun x => (x.1, x.2.1, 2)),
      ((s.inLegs d).find? (fun x => !s.ethPort d (descPort x.2.1 x.2.2))).map (fun x => (1, x.1, 3)),
      ((s.inFlows d).find? (s.targetBad d)).map (fun f => (1, f, 4)),
      ((s.outFlows d).find? (s.sourceBad d)).map (fun f => (2, f, 4)),
      ((s.reserves d).find? (fun x => decide (s.rdN Obj.queLimit d.die x.1 < x.2))).map (fun x => (3, x.1, 5)),
      (reserveOver 0 (s.reserves d)).map (fun q => (3, q, 6)),
      (outLegs.find? (fun x =>
        decide (s.rdN Obj.schQuantum d.die (descQueue (s.outDesc d x.1) x.2) < s.longestFrame d x.1 x.2))).map
          (fun x => (3, descQueue (s.outDesc d x.1) x.2, 7)),
      ((s.outFlows d).find? (s.fifthFlow d)).map (fun f => (2, f, 8)),
      ((s.inFlows d).find? (s.syncBad d)).map (fun f => (1, f, 9)),
      ((s.inFlows d).find? (fun f => s.bankBad d (s.inDesc d f))).map (fun f => (1, f, 10)),
      ((s.outFlows d).find? (fun f => s.bankBad d (s.outDesc d f))).map (fun f => (2, f, 10)) ]
  tries.findSome? id

/-- A rejected descriptor, queue or scheduler commit (R129). -/
def State.netReject (s : State) (d : MDie) (x : Nat × Nat × Nat) : State :=
  (s.raise d.pdie 0x1407 x.2.1 (p16 [x.1, x.2.1, x.2.2])).ans (.rejected 0x1407)

/-! ### Producers, consumers and synchronizers (R146–R148, R159) -/

/-- The producers that the configuration binds to source ports: port, kind, number, in the order of LOOM.SRC.BIND's kinds. -/
def State.producers (s : State) (d : MDie) : List (Nat × Nat × Nat) :=
  ((s.inFlows d).filter (fun f => descKind (s.inDesc d f) == 1)).map (fun f => (descTarget (s.inDesc d f), 1, f)) ++
  ((s.decContexts d).filter (fun n => (s.decOutput d n).1 == 1)).map (fun n => ((s.decOutput d n).2, 2, n)) ++
  ((upto 32 (fun n => s.rdN Obj.cnvChainEnable d.die n == 1 && s.rdN Obj.cnvChainSource d.die n != 0xFFFF)).map
    (fun n => (s.rdN Obj.cnvChainSource d.die n, 3, n))) ++
  ((upto 8 (fun n => s.rdN Obj.cmpEnable d.die n == 1 && s.rdN Obj.cmpSource d.die n != 0xFFFF)).map
    (fun n => (s.rdN Obj.cmpSource d.die n, 4, n)))

/-- A port or synchronizer already held (R146): event 0x1601 reason 6. -/
def State.holdReject (s : State) (d : MDie) (number : Nat) : State := (s.loomReject d 6 0xFFFF number).ans (.rejected 0x1601)

/-- What leaving CONFIGURE found: the state, and the status of a refusal. -/
abbrev Exit := State × Option Status

/-- A further part of the exit, where none before it was refused. -/
def Exit.next (x : Exit) (f : State → Exit) : Exit := match x.2 with | none => f x.1 | some _ => x

/-- A part that reports by a Bool, with the code its refusal carries. -/
def Exit.ofBool (code : Nat) (x : State × Bool) : Exit := (x.1, if x.2 then none else some (.rejected code))

/-- The part of the refusal's own code that a subject left in the answer. -/
def Exit.ofAnswer (x : State × Bool) : Exit := (x.1, if x.2 then none else some x.1.answer)

/-- One producer takes its source port and the ports of its bond, each of which shows it (R146–R148, R170). -/
def State.bindProducer (s : State) (d : MDie) (p kind n : Nat) : Exit :=
  let s1 := s.wr Obj.loomSrcBind d.die p ((kind * 4096 + n : Nat) : Int)
  match (s1.srcAttr d p).bind bondOf with
  | none => (s, some .range)
  | some b =>
    let ports := (List.range b).map (· + p)
    if p % b ≠ 0 ∨ 256 < p + b then (s, some .range)
    else if ports.any (fun q => s.rdN Obj.loomSrcBind d.die q != 0) then (s.holdReject d p, some (.rejected 0x1601))
    else
      (ports.foldl (fun (s : State) q =>
        (s.wr Obj.loomSrcBind d.die q ((kind * 4096 + n : Nat) : Int)).wr Obj.loomSrcBond d.die q (b : Nat)) s, none)

/-- Every producer is bound afresh. -/
def State.bindProducers (s : State) (d : MDie) : Exit :=
  let s := (s.listed Obj.loomSrcBind d.die (fun _ _ => true)).foldl (fun (s : State) p =>
    (s.wr Obj.loomSrcBind d.die p 0).wr Obj.loomSrcBond d.die p 1) s
  (s.producers d).foldl (fun (x : Exit) e => x.next (fun s => s.bindProducer d e.1 e.2.1 e.2.2)) (s, none)

/-- Every bound destination takes the ports of its bond (R146–R148). -/
def State.bindConsumers (s : State) (d : MDie) : Exit :=
  (s.boundDsts d).foldl (fun (x : Exit) p => x.next (fun s =>
    match (s.dstAttr d p).bind bondOf with
    | none => (s, some .range)
    | some b =>
      if p % b ≠ 0 ∨ 256 < p + b then (s, some .range)
      else if (List.range b).any (fun m => m != 0 && decide (p + m ∈ s.boundDsts d)) then (s.holdReject d p, some (.rejected 0x1601))
      else (s.wr Obj.loomDstBond d.die p (b : Nat), none))) (s, none)

/-- Bytes of a slot of a synchronizer: the rows of its bond member (R148, R163), and the frame rate as a quotient. -/
def State.fsySlotBytes (s : State) (d : MDie) (n : Nat) : Nat :=
  let (w, h) := s.fsySize d n
  let (bond, member) := s.fsyMember d n
  ceilDiv (w * (memberRows bond member h).length * (s.fsyAttr d n).bits) 8

/-- One synchronizer takes its ring, and runs (R159, R163). -/
def State.startFsy (s : State) (d : MDie) (n : Nat) : Exit :=
  let f := fmt (s.rdN Obj.fsyFormat d.die n)
  let b := s.fsySlotBytes d n
  if ¬ s.secOn d secFsy ∨ s.elemBad d secFsy n then ((s.loomReject d 5 0xFFFF n).ans (.rejected 0x1601), some (.rejected 0x1601))
  else
    match s.allocStores d subjFsy n [b * s.rdN Obj.fsySlots d.die n] (ceilDiv (2 * b * f.num) f.den) with
    | .error (kind, short) =>
      (((s.loomReject d 8 0xFFFF n).memRefuse d kind subjFsy short).ans (.rejected 0x1601), some (.rejected 0x1601))
    | .ok s =>
      let s := (s.wr Obj.fsyStatus d.die n 1).updFsy d n (fun _ => FsySt.start)
      (s.wr Obj.fsyFill d.die n 0, none)

/-- The synchronizers in use. -/
def State.fsyUsed (s : State) (d : MDie) : List Nat := s.listed Obj.fsySource d.die (fun _ v => v != 0xFFFF)

/-- Two synchronizers that name one port are refused, in step 2 of R158 and so ahead of its step 3 (R146). -/
def State.fsyClash (s : State) (d : MDie) : Option Nat :=
  findClash (fun (x y : Nat) => s.rdN Obj.fsySource d.die x == s.rdN Obj.fsySource d.die y) [] (s.fsyUsed d)

/-- Every synchronizer starts afresh. -/
def State.startSynchronizers (s : State) (d : MDie) : Exit :=
  (s.fsyUsed d).foldl (fun (x : Exit) n => x.next (fun s => s.startFsy d n)) (s, none)

/-! ### What takes effect -/

/-- The address objects of every port come into force (R120, R121, R129). -/
def State.portsInForce (s : State) (d : MDie) : State :=
  (List.range 32).foldl (fun (s : State) p =>
    let set := s.rdN Obj.netPortMacSet d.die p
    let mac := if set = 0 then s.rdN Obj.netPortMac d.die p else set
    let pt := { s.port d p with
      mac := mac, ip := s.rdN Obj.netPortIpv4 d.die p, prefixLen := s.rdN Obj.netPortPrefix d.die p,
      gateway := s.rdN Obj.netPortGateway d.die p, maxUdp := s.rdN Obj.netPortMaxUdp d.die p, arp := [] }
    if pt = s.port d p then s
    else (s.updPort d p (fun _ => pt)).clrBit Obj.netPortStatus d.die p 1) s

/-- The limits, classes and shaper constants of every queue come into force (R129, R134, R136, R137). -/
def State.queuesInForce (s : State) (d : MDie) : State :=
  let objs := [Obj.queLimit, Obj.queReserve, Obj.schClass, Obj.schQuantum, Obj.shpOverhead]
  let qs := ((s.md d).net.queues.map (·.1) ++ objs.flatMap (fun o => s.listed o d.die (fun _ _ => true))).eraseDups
  let s := s.updNet d (fun n => { n with period := s.rdN Obj.shpRefillPeriod d.die 0 })
  qs.foldl (fun (s : State) q => s.updQueue d q (fun x =>
    { x with limit := s.rdN Obj.queLimit d.die q, reserve := s.rdN Obj.queReserve d.die q, cls := s.rdN Obj.schClass d.die q,
             quantum := s.rdN Obj.schQuantum d.die q, overhead := s.rdN Obj.shpOverhead d.die q })) s

/-- Values of SHP.RATE and SHP.BURST that a die finds in MRAM wait for its next refill cue like written ones (R26, R137). -/
def State.shapersHeld (s : State) (d : MDie) : State :=
  (s.listed Obj.shpRate d.die (fun _ _ => true) ++ s.listed Obj.shpBurst d.die (fun _ _ => true)).eraseDups.foldl (fun (s : State) q =>
    s.updQueue d q (fun x => { x with held := true })) s

/-- Flows start from rest: an egress flow keeps its RTP sequence number (R128), an ingress flow waits for its first packet. -/
def State.restFlows (s : State) (d : MDie) : State :=
  let s := s.updNet d (fun n =>
    { n with flowsIn := [], flowsOut := n.flowsOut.map (fun x => (x.1, { x.2 with run := false, pend := none, resume := false })) })
  let s := (s.inFlows d).foldl (fun (s : State) f => s.wr Obj.flowInStatus d.die f 0) s
  let s := (s.outFlows d).foldl (fun (s : State) f => s.wr Obj.flowOutState d.die f 0) s
  s.wr Obj.poolReserved d.die 0 (sumOver (s.reserves d) (·.2) : Nat)

/-- A die's configuration is checked and takes effect: the network block, the bindings, the stores in the order of commit, the
engines (R129, R134, R146, R156, R158, R159, R201, R228, R272, R313, R330, R358). With `lost` a pair lost in RECOVERY takes nothing else
with it (R231). -/
def State.configureDie (s : State) (d : MDie) (lost : Bool) : Exit :=
  let s := (s.portsInForce d).queuesInForce d
  let live := s.encOrder d true lost
  let deferred := s.encOrder d false lost
  let x : Exit := match s.netFault d, s.fsyClash d with
    | some f, none => (s.netReject d f, some (.rejected 0x1407))
    | some f, some n => if f.2.2 < 9 then (s.netReject d f, some (.rejected 0x1407)) else (s.holdReject d n, some (.rejected 0x1601))
    | none, some n => (s.holdReject d n, some (.rejected 0x1601))
    | none, none => if (s.outFlows d).any (fun f => s.audioTooLong d (s.outDesc d f)) || (s.inFlows d).any (fun f => s.audioTooLong d (s.inDesc d f)) then (s, some .range) else (s.restFlows d, none)
  let x := x.next (fun s => s.bindProducers d)
  let x := x.next (fun s => s.bindConsumers d)
  let x := x.next (fun s => ((s.updStores d (fun _ => [])).encClear d, none))
  let x := x.next (fun s => Exit.ofAnswer (s.encPlaceAll d live))
  let x := x.next (fun s => s.startSynchronizers d)
  let x := x.next (fun s => Exit.ofBool 0x2408 (s.decLeaveConfigure d))
  let x := x.next (fun s => Exit.ofAnswer (s.videoLeaveConfigure d))
  let x := x.next (fun s => Exit.ofAnswer (s.encPlaceAll d deferred))
  x.next (fun s =>
    let (s, ok, bad) := s.audLeaveConfigure d
    if ¬ ok then (s, some s.answer)
    else
      match bad with
      | [] => (s, none)
      | _ => (bad.foldl (fun (s : State) b => (s.netReject d (1, b.1, 11)).memRefuse d b.2.1 subjAudFlow b.2.2) s, some (.rejected 0x1407)))

/-- What a subject shows of a rejection (R129, R480): its STICKY, COUNT and REJECT objects. -/
def reportOf (o : ObjDef) : Bool :=
  o.acc == .w1c ||
    decide ((o.index, o.sub) ∈ ([Obj.memCount, Obj.loomCount, Obj.encCount, Obj.rcCount, Obj.cnvCount, Obj.compCount, Obj.decCount,
      Obj.audCount, Obj.encChReject, Obj.rcReject, Obj.cnvChainReject, Obj.cmpReject, Obj.scnOutReject, Obj.decCtxReject,
      Obj.audPortReject, Obj.cnvSclShort] : List ObjDef).map (fun o => (o.index, o.sub)))

/-- One reported object taken over: new STICKY bits are set, a count grows by as much, a REJECT object takes its value. -/
def State.takeReport (s t : State) (e : ObjAddr × Int) : State :=
  match objAt e.1.index e.1.sub with
  | none => s
  | some o =>
    let old := t.rd o e.1.die e.1.inst
    if ¬ reportOf o ∨ old = e.2 then s
    else if o.acc = .w1c then
      s.wr o e.1.die e.1.inst ((s.rdN o e.1.die e.1.inst ||| (Nat.bitwise (fun a b => a && !b) e.2.toNat old.toNat) : Nat) : Int)
    else if old < e.2 ∧ o.ty = .u32 then s.addCount o e.1.die e.1.inst (e.2 - old).toNat
    else s.wr o e.1.die e.1.inst e.2

/-- Records that a media die's arbiter accepted between two states, and that Die C raised itself. -/
def newRecords (t t' : State) (d : MDie) : List EventRec := (t'.md d).arb.buf.drop (t.md d).arb.buf.length
def newOwnRecords (t t' : State) : List EventRec :=
  (t'.ramLog.drop (t'.ramLog.length - (t'.rdN Obj.evtGseqNext .c 0 - t.rdN Obj.evtGseqNext .c 0))).filter (fun r => r.die == .c)

/-- A state with the reports alone of what led from `t` to `t'`: the events, and what the subjects show of their rejections. -/
def State.withReports (s t t' : State) : State :=
  let s : State := { s with freeCtr := t'.freeCtr, answer := t'.answer }
  let s := mdies.foldl (fun (s : State) d =>
    (newRecords t t' d).foldl (fun (s : State) r => s.raise d.pdie r.code r.inst r.payload) s) s
  let s := (newOwnRecords t t').foldl (fun (s : State) r => s.raise .c r.code r.inst r.payload) s
  t'.objs.foldl (fun (s : State) e => s.takeReport t e) s

/-- The media dies that run and that Die C reaches. -/
def State.livingDies (s : State) : List MDie := mdies.filter (fun d => s.reachable d)

/-- Twill is configured: some quad carries a link (R71). -/
def State.twillConfigured (s : State) : Bool := (s.livingDies).any (fun d => !(s.twlQuads d).isEmpty)

/-- The Reference Rasters of the two media dies differ where they must not (R71). -/
def State.refDiffer (s : State) (sel : Bool) : Bool :=
  (sel || s.twillConfigured) && decide ((s.livingDies).length = 2)
    && s.rdN Obj.timeRefFormat .a 0 != s.rdN Obj.timeRefFormat .b 0

/-- Some egress flow of a die lacks its second leg (R403). -/
def State.legMissing (s : State) (d : MDie) : Bool := (s.outFlows d).any (fun f => descPort (s.outDesc d f) 2 == 0xFF)

/-- Some route of a die falls short of its minimum lag in SELVEDGE (R408). -/
def State.routeShort (s : State) (d : MDie) (route : Nat → Nat) : Bool :=
  (s.boundDsts d).any (fun p =>
    let r := route p
    let k := routeKind r
    if k = 1 ∨ k = 2 then
      match s.srcAttr (routeSource d r) (routePort r), s.dstAttr d p with
      | some a, some b =>
        let f := fmt b.format
        a.same b && decide (b.ofs < a.ofs + s.minLag d p r 0 true f * f.samples)
      | _, _ => false
    else false)

/-- The Reference Raster of a die takes its new value; cues return to LOADED (R71). -/
def State.takeRefFormat (s : State) (d : MDie) : State :=
  let f := s.rdN Obj.timeRefFormat d.die 0
  if f = (s.md d).time.refFormat then s
  else (s.updDieTime d (fun t => { t with refFormat := f })).cuesReturn d

/-- Leaving CONFIGURE (R129, R156, R480): every die's configuration takes effect, or the first refusal stands with its reports
alone. -/
def State.leaveConfigure (s : State) (sel : Bool) : Exit :=
  let s0 := s
  let s := if sel then s.copyMirrored .a else s
  let x : Exit := (s.livingDies).foldl (fun (x : Exit) d => x.next (fun s => s.configureDie d false)) (s, none)
  match x.2 with
  | some st => (s0.withReports s0 x.1, some st)
  | none =>
    let s := x.1.applyEqTable
    let s := (s.livingDies).foldl (fun (s : State) d => s.takeRefFormat d) s
    (s.loomLeaveConfigure sel, none)

end Sys2Proof.Machine
end

