-- ==== Sys2Proof/Machine/Boot.lean ====
section
/-! DEFINITION. BOOT, boot failures, the return of a media die, and the UCIe links (R53, R65, R87–R89, R440–R443, R450, R451,
R469, R474–R479, R495). -/

namespace Sys2Proof.Machine

/-! ### Output pins (R54) -/

/-- `C_SYS00_FAULT_N` is held low: a die shut down, and Die C until its firmware runs again; a sequence fault hold; a Die C watchdog
reset until its firmware runs; 1 s after a boot failure, and without end after the sixth. -/
def State.faultLow (s : State) : Bool :=
  (s.power .a).run == .shutdown || (s.power .b).run == .shutdown || (s.power .c).run == .shutdown
    || ((s.power .c).run == .resetAlone && (s.rdN Obj.rstCause .c 0 == 3 || s.rdN Obj.rstCause .c 0 == 4))
    || s.seqHold || s.boot.halted || decide (0 < s.boot.faultLeft)

/-- `C_SYS00_READY` is high while the dictionary server runs. -/
def State.readyHigh (s : State) : Bool := s.serverUp

/-- `C_SPH00_IRQ_N` is low while a frame waits for the SPI host (R453). -/
def State.spiIrqLow (s : State) : Bool := !s.vol.spiWaiting.isEmpty

/-! ### MRAM (R26, R450, R451, R469) -/

/-- The objects flagged P of some dies take their values from MRAM, or their defaults where it holds none (R26, R451). -/
def State.restoreP (s : State) (f : Die → Bool) : State :=
  let gone := fun (a : ObjAddr) => f a.die && persistAt a
  let s := { s with objs := s.objs.filter (fun e => !gone e.1), blobs := s.blobs.filter (fun e => !gone e.1) }
  let s := (s.mram.objs.filter (fun e => gone e.1)).foldl (fun (s : State) e => { s with objs := mapPut s.objs e.1 e.2 }) s
  (s.mram.blobs.filter (fun e => gone e.1)).foldl (fun (s : State) e => { s with blobs := mapPut s.blobs e.1 e.2 }) s

/-- An object flagged P has its slot in the object store of MRAM: the lifecycle state, the keys, the debug key and the boot count stand
in the lifecycle region, the COUNT objects and the wear records in regions of their own, which have no slots with a CRC
(R450). -/
def inStore (a : ObjAddr) : Bool :=
  persistAt a && !decide ((a.index, a.sub) ∈ [(0x1002, 1), (0x1002, 6), (0x1002, 7), (0x1004, 6), (0x1320, 1)]) && a.index != 0x1005
    && match objAt a.index a.sub with | some o => !(o.acc == .ro && o.ty == .u32) | none => false

/-- A slot of the object store whose CRC fails takes its default and is written back (R451). -/
def State.slotDefault (s : State) (a : ObjAddr) : State :=
  if ¬ inStore a then s
  else
    let s := { s with objs := mapDel s.objs a, blobs := mapDel s.blobs a,
                      mram := { s.mram with objs := mapDel s.mram.objs a, blobs := mapDel s.mram.blobs a } }
    (s.setBit Obj.volSticky .p 0 2).raise .c 0x1013 0 (p16 [a.index, a.sub])

/-- Steps 4 and 5 of the RETURN sequence (R469): MRAM is erased but for the boot count and the state, which becomes RETURN; every
object holds its default; debug opens. -/
def State.finishReturn (s : State) : State :=
  let boots := s.rd Obj.volBootCount .p 0
  let soft := fun (a : ObjAddr) =>
    match objAt a.index a.sub with | some o => o.persist || o.acc == .rw || o.acc == .rwc | none => false
  let s := { s with objs := s.objs.filter (fun e => !soft e.1), blobs := s.blobs.filter (fun e => !soft e.1),
                    mram := { s.mram with objs := [], blobs := [], log := [] }, sec := { s.sec with erasing := false, token := none } }
  let s := (s.persistNum Obj.volBootCount .p 0 boots).persistNum Obj.lcsState .p 0 3
  let s := s.wr Obj.lcsStatus .p 0 1
  (s.raise .c 0x1020 0 (p16 [3])).raise .c 0x1023 0 0

/-- PERSISTENT_COUNT_FLUSH (R451): the COUNT objects flagged P reach MRAM. -/
def State.flushCounts (s : State) : State :=
  (s.objs.filter (fun e => match objAt e.1.index e.1.sub with | some o => o.persist && o.acc == .ro | none => false)).foldl
    (fun (s : State) e => { s with mram := { s.mram with objs := mapPut s.mram.objs e.1 e.2 } }) s

def execPersistentCountFlush (s : State) : Out := when (s.up .c) s s.flushCounts

/-! ### Coming out of reset (R43, R53) -/

/-- A die comes out of reset with the cause it recorded (R43, R53): event 0x1120; RST.COUNT but after `C_SYS00_PORST_N`; its sensors'
self-checks run, so that a failed one works again until a sample shows otherwise (R51). After a rail-level reset event 0x1102
follows event 0x1120: on Die C at once, of a media die when that record reaches Die C. -/
def State.returned (s : State) (d : PDie) : State :=
  let cause := s.rdN Obj.rstCause d.die 0
  let s := (upto (sensorCount d) (fun i => decide (s.rd Obj.thermSensorTemp d.die i = tempFailed))).foldl
    (fun (s : State) i => s.wr Obj.thermSensorTemp d.die i 0) s
  let s := s.raise d 0x1120 0 (p16 [cause])
  let s := if cause = 0 then s else s.bumpNow Obj.rstCount d.die 0
  match d with
  | .c => s.dipReported .c cause
  | _ => s

/-- The self-test of a media die's sections in a mode (R45, R47, R475, R478): an essential section that fails makes the die absent,
another one goes to failed with event 0x1054; the others take what the mode gives them. -/
def State.selfTest (s : State) (d : MDie) (b : DieBoot) (m : Mode) : State :=
  let failed := fun n => b.fails.any (fun x => x.1 == n)
  let s := (List.range 30).foldl (fun (s : State) n =>
    s.setSection d.pdie n (if failed n then 4 else if s.sectionWanted d n m then 2 else 0)) s
  let s := s.updMd d (fun x => { x with badElems := b.fails.flatMap (fun f => f.2.map (fun e => (f.1, e))) })
  if failed 0 ∨ failed 1 ∨ failed 2 ∨ failed 5 then s.makeAbsent d 2
  else b.fails.foldl (fun (s : State) f => s.raise .c 0x1054 f.1 (p16 [f.1, f.2.length])) s

/-- tRFC in DRAM clocks of a density code (R364). -/
def refreshClocks (density : Nat) : Nat := match density with | 0 => 416 | 1 => 560 | _ => 880

/-- GiB of a channel and rank (R354). -/
def rankGib (width density : Nat) : Nat := 4 * 2 ^ density * (if width = 0 then 2 else 1)

/-- One channel of a die is trained (R371, R372): not fitted, active with its smallest eye, or disabled with the failing step, which
is free where the command names none. -/
def State.trainChannel (s : State) (d : MDie) (b : DieBoot) (c : Nat) : State :=
  if ¬ s.bit Obj.memChFitted d.die 0 c then (s.clrBit Obj.memChEnabled d.die 0 c).wr Obj.memChState d.die c 0
  else
    match b.eyes.find? (fun e => e.1 == c) with
    | some (_, eye) =>
      (((s.setBit Obj.memChEnabled d.die 0 c).wr Obj.memChMargin d.die c (eye : Nat)).wr Obj.memChDrift d.die c 0).wr
        Obj.memChState d.die c 3
    | none =>
      let (step, s) := match b.steps.find? (fun e => e.1 == c) with
        | some e => (e.2, s)
        | none => s.free 16
      let s := ((s.clrBit Obj.memChEnabled d.die 0 c).wr Obj.memChState d.die c 1).setBit Obj.memSticky d.die 0 0
      s.raise d.pdie 0x3001 c (p16 [c, step])

/-- DRAM training of a die (R357, R371, R372): every fitted channel; the map; contents of zeros. A die without a channel becomes
absent (R478). -/
def State.trainDie (s : State) (d : MDie) (b : DieBoot) : State :=
  let s := (List.range 12).foldl (fun (s : State) c => s.trainChannel d b c) s
  let s := s.updRam d (fun _ =>
    { MemSt.start with ranks := s.rdN Obj.memRanks d.die 0,
                       gib := rankGib (s.rdN Obj.memDevWidth d.die 0) (s.rdN Obj.memDevDensity d.die 0),
                       rfc := refreshClocks (s.rdN Obj.memDevDensity d.die 0) })
  let short := (List.range 12).any (fun c => s.bit Obj.memChFitted d.die 0 c && !s.bit Obj.memChEnabled d.die 0 c)
  let s := if short then s.remap d else (s.showCapacity d).clrBit Obj.memStatus d.die 0 4
  if s.memN d = 0 then s.makeAbsent d 3 else s

/-- Modules present enter identification at step 2 (R112, R475). -/
def State.modulesEnter (s : State) (d : MDie) (b : DieBoot) : State :=
  ((List.range 8).filter (fun n => decide (n ∈ b.modules) && s.cageServed d n)).foldl (fun (s : State) n =>
    (s.setBit Obj.cageStatus d.die n 0).updCage d n (fun _ => { CageSt.start with step := .polling, rstN := true })) s

/-- A media die is brought up in a mode (R45, R53, R371, R475, R495): link, self-test, event 0x1120, training, lanes, modules, the
port objects and the Reference Raster. -/
def State.bringUp (s : State) (d : MDie) (b : DieBoot) (m : Mode) : State :=
  if ¬ b.link then s.makeAbsent d 1
  else
    let s := (s.wr Obj.uciState .c d.num 2).updPower d.pdie (fun p => { p with run := .running })
    let s := s.updMd d (fun x =>
      { x with time := { x.time with ctr := s.time.base, refFormat := s.rdN Obj.timeRefFormat d.die 0 } })
    let s := (s.wr Obj.bootDieState .p d.num 0).setBit Obj.modeStatus .p 0 (1 + d.num)
    let s := s.selfTest d b m
    if ¬ s.up d.pdie then s
    else
      let s := (s.returned d.pdie).trainDie d b
      if ¬ s.up d.pdie then s
      else
        let s := (s.twlQuads d).foldl (fun (s : State) q => s.wr Obj.twlLinkState d.die q 1) s
        ((((s.portsInForce d).queuesInForce d).shapersHeld d).lanesForMode d m).modulesEnter d b

/-! ### BOOT (R474–R478) -/

/-- PORST_RELEASE (R40, R474): the straps are sampled and BOOT starts, unless a sequence fault hold lasts. -/
def execPorstRelease (straps : Fin 8) (s : State) : Out :=
  when (s.mode == .reset) s
    (let s := s.wr Obj.bootStraps .p 0 (straps.val : Nat)
     if s.seqHold then s else s.setMode .boot)

/-- A strap (R474). -/
def State.strap (s : State) (n : Nat) : Bool := s.bit Obj.bootStraps .p 0 n

/-- The slot the boot ROM runs (R477): the chosen one, or the other with STRAP2; the other of these when it was left or does not
verify. -/
def State.bootSlot (s : State) (r : BootRun) : Nat :=
  let base := if s.strap 2 then 1 - s.sec.chosen else s.sec.chosen
  let first := if s.boot.fallback then 1 - base else base
  if (if first = 0 then r.slot0 else r.slot1) then first else 1 - first

/-- The time base that Die C starts with at step B4 of a reboot of its own: that of Die A's counter, or of Die B's; 1,000,000 s when it
reaches neither (R61). -/
def State.restartTime (s : State) : Nat := if s.up .a then s.now .a else if s.up .b then s.now .b else timeStart

/-- Die C boots (R475, steps B1 to B3): an interrupted erasure ends first; firmware slot; persistent values of the dies given; boot
count; PTP in FREERUN; a new challenge (R468); event 0x1120. -/
def State.bootDieC (s : State) (r : BootRun) (f : Die → Bool) : State :=
  let slot := s.bootSlot r
  let base := if s.strap 2 then 1 - s.sec.chosen else s.sec.chosen
  let s := s.updPower .c (fun p => { p with run := .running })
  let s := (List.range 4).foldl (fun (s : State) n => s.setSection .c n 2) s
  let s := s.restoreP f
  let s := if s.sec.erasing then s.finishReturn else s
  let s := r.bad.foldl (fun (s : State) a => s.slotDefault a) s
  let s := { s with boot := { s.boot with fallback := decide (slot ≠ base) }, eqTable := s.rdBytes Obj.laneEqTable .p 0 }
  let s := s.wr Obj.laneEqBoard .p 0 (fieldAt s.eqTable 12 4 : Nat)
  let s := ((s.wr Obj.fwSlotVersion .p 0 (s.sec.ver0 : Nat)).wr Obj.fwSlotVersion .p 1 (s.sec.ver1 : Nat)).wr Obj.fwSlotActive .p 0 (slot : Nat)
  let s := s.wr Obj.idFwVersion .p 0 (s.rd Obj.fwSlotVersion .p slot)
  let s := s.persistNum Obj.volBootCount .p 0 ((min (s.rdN Obj.volBootCount .p 0 + 1) (2 ^ 32 - 1) : Nat) : Int)
  let s := ({ s with time := { TimeSt.start with base := s.time.base } } : State).showPtp
  let (c, s) := s.freeBytes 16
  let s := s.wrBytes Obj.lcsDebugChallenge .p 0 c
  let s := s.wr Obj.lcsStatus .p 0 (if s.rdN Obj.lcsState .p 0 = 0 ∨ s.rdN Obj.lcsState .p 0 = 3 then 1 else 0)
  s.fabricEnabled.returned .c

/-- The boot after a recorded sequence fault reports it (R40): event 0x1103 with the first rail out of order, the die that owns it as
INSTANCE (DEDUCED, assumption 78), and PWR.STICKY bit 15 on every die; the record is used up. -/
def State.reportSequence (s : State) : State :=
  match s.mram.seqFault with
  | none => s
  | some (d, rail) =>
    let s := ({ s with mram := { s.mram with seqFault := none } } : State).raise .c 0x1103 d.num (p16 [rail])
    [Die.a, .b, .c].foldl (fun (s : State) x => s.setBit Obj.pwrSticky x 0 15) s

/-- BOOT_START (R475): steps B1 to B7 of a package; of Die C alone, where it was reset alone, B1 to B3, and the media dies that run
wait to be re-attached (R443). A boot whose slots both fail verification is a boot failure (R476). -/
def execBootStart (r : BootRun) (s : State) : Out :=
  let ok := (r.slot0 || r.slot1) && !s.boot.ready && !s.boot.halted && (s.power .c).run != .shutdown && (s.power .c).run != .running
  if s.mode = .boot then
    when ok s
      (let s := (s.bootDieC r (fun _ => true)).reportSequence
       let s := s.bringUp .a r.a .boot
       let s := s.bringUp .b r.b .boot
       { s with boot := { s.boot with ready := true } })
  else
    when (ok && (s.power .c).run == .resetAlone && s.mode != .reset) s
      (let s := s.bootDieC r (fun d => d == .c || d == .p)
       let s := { s with time := { s.time with base := s.restartTime } }
       let s := mdies.foldl (fun (s : State) d => s.updDieTime d (fun t => { t with missedStep := 0 })) s
       { s with boot := { s.boot with ready := true, reattach := mdies.filter (fun d => s.up d.pdie) } })

/-- BOOT_FAILURE (R44, R476, R477). -/
def execBootFailure (step : Fin 8) (cause : Fin 5) (s : State) : Out :=
  when ((s.mode == .boot || (s.mode != .reset && (s.power .c).run == .resetAlone)) && !s.boot.ready && !s.boot.halted) s
    (s.bootFail (step.val + 1) (cause.val + 1))

/-! ### A die that was reset alone (R53, R485, R495) -/

/-- A die comes back in RECOVERY with engine pairs lost (R231): event 0x2009 for each, and the channels that ran and find no place stop. The
die is in RECOVERY already; where not even the Live-0 channels fit, the fault is taken again. -/
def State.pairsLost (s : State) (d : MDie) (pairs ran gone : List Nat) : State :=
  let gone := gone.filter (fun c => decide (c ∈ ran))
  let s := pairs.foldl (fun (s : State) e => (s.setBit Obj.encSticky d.die 0 2).raise .c 0x2009 e (p16 [e, gone.length])) s
  let s := gone.foldl (fun (s : State) c => s.encStopCapacity d c) s
  if gone.any (fun c => s.rdN Obj.encChPriority d.die c == 0) then s.recoveryFault d 0x2009 else s

/-- The configuration of a returned die comes into force, and the streams that ran when it was reset are there to be restarted; engine
pairs it lost take their channels with them (R231). -/
def State.resumeDie (s : State) (d : MDie) : State :=
  let pairs := s.lostPairs d
  let gone := s.encUnplaced d
  let x := s.configureDie d (pairs != [])
  match x.2 with
  | some _ => s.withReports s x.1
  | none =>
    let (chans, flows) := tabGet s.recov.ran d.num ([], [])
    let s := x.1.loomTake d (fun p => x.1.rdN Obj.loomRouteSource d.die p) false
    let s := if pairs = [] then s else s.pairsLost d pairs chans gone
    let s := (chans.filter (fun c => s.encState d c == 0 && decide (c ∉ gone))).foldl (fun (s : State) c => s.setEncState d c 2) s
    flows.foldl (fun (s : State) f => s.flowControl d f true (.ofNs (s.now d.pdie))) s

/-- MEDIA_DIE_RETURN (R53, R485, R495): self-test and training again, objects as at BOOT, event 0x1120; a die that comes back in
SERVICE or RECOVERY after a reset of cause 2, 3 or 5 needs RECOVERY. -/
def execMediaDieReturn (d : MDie) (b : DieBoot) (s : State) : Out :=
  when (s.serverUp && (s.power d.pdie).run == .resetAlone && b.link) s
    (let cause := s.rdN Obj.rstCause d.die 0
     let m := s.mode
     let s := (s.restoreP (fun x => x == d.die)).bringUp d b m
     if ¬ s.up d.pdie then s
     else
       let s := if m = .service ∨ m = .recovery ∨ m = .test then s.resumeDie d else s
       if (m = .service ∨ m = .recovery) ∧ (cause = 2 ∨ cause = 3 ∨ cause = 5) then s.recoveryFault d 0x1120 else s)

/-! ### UCIe links (R65, R442, R443) -/

/-- Die C reaches a media die again: a step it missed is made, and the difference that remains is slewed away (R65). -/
def State.uciUp (s : State) (d : MDie) : State :=
  let s := s.wr Obj.uciState .c d.num 2
  let missed := (s.md d).time.missedStep
  let s := if missed = 0 then s else s.dieStep d missed
  s.updDieTime d (fun t => { t with missedStep := 0, slew := 80 * ((t.ctr : Int) - (s.time.base : Int)) })

/-- UCIE_LINK_DOWN (R391, R442). -/
def execUcieLinkDown (d : MDie) (s : State) : Out :=
  when (s.reachable d) s
    (let s := (s.wr Obj.uciState .c d.num 0).bump Obj.uciDownCount .c d.num
     (s.raise .c 0x1030 d.num (p16 [d.num])).masterReset d 31)

/-- UCIE_RETRAIN (R442): training succeeds. -/
def execUcieRetrain (d : MDie) (s : State) : Out :=
  when (s.up .c && s.up d.pdie && s.rdN Obj.uciState .c d.num != 2 && !decide (d ∈ s.boot.reattach)) s
    ((s.uciUp d).raise .c 0x1031 d.num (p16 [d.num]))

/-- The addresses of objects flagged P on a die that a map lists. -/
def persistOn {α : Type} (d : Die) (m : List (ObjAddr × α)) : List ObjAddr := (m.map (·.1)).filter (fun a => a.die == d && persistAt a)

/-- DIE_C_REATTACH (R443): the running values of the objects flagged P replace those in MRAM; differences are counted. -/
def execDieCReattach (d : MDie) (s : State) : Out :=
  when (s.up .c && s.up d.pdie && decide (d ∈ s.boot.reattach)) s
    (let s := ({ s with boot := { s.boot with reattach := s.boot.reattach.filter (· != d) } } : State).uciUp d
     let start := fun (a : ObjAddr) => match objAt a.index a.sub with | some o => o.start a.die a.inst | none => 0
     let bytes := fun (a : ObjAddr) => match objAt a.index a.sub with | some o => o.blobStart | none => []
     let nums := (persistOn d.die s.objs ++ persistOn d.die s.mram.objs).eraseDups.filter (fun a =>
       (mapGet s.objs a).getD (start a) != (mapGet s.mram.objs a).getD (start a))
     let blobs := (persistOn d.die s.blobs ++ persistOn d.die s.mram.blobs).eraseDups.filter (fun a =>
       (mapGet s.blobs a).getD (bytes a) != (mapGet s.mram.blobs a).getD (bytes a))
     let m := nums.foldl (fun (m : Mram) a => { m with objs := mapPut m.objs a ((mapGet s.objs a).getD (start a)) }) s.mram
     let m := blobs.foldl (fun (m : Mram) a => { m with blobs := mapPut m.blobs a ((mapGet s.blobs a).getD (bytes a)) }) m
     let n := nums.length + blobs.length
     let s := { s with mram := m }
     if n = 0 then s else (s.setBit Obj.volSticky .p 0 3).raise .c 0x1014 d.num (p16 [d.num, n]))

/-! ### Event records (R87, R89, R415) -/

/-- EVENT_RECORD_ARRIVAL (R87): the oldest record of a media die's arbiter reaches Die C's; a declaration of event 0x3203 is noted
for the pair (R415). -/
def execEventRecordArrival (d : MDie) (s : State) : Out :=
  match (s.md d).arb.buf with
  | [] => .next s
  | r :: rest =>
    when (s.reachable d) s
      (let g := s.rdN Obj.evtGseqNext .c 0
       let s := ((s.updMd d (fun m => { m with arb := { m.arb with buf := rest } })).logRecord r).received d r
       if r.code = 0x3203 then s.declared d g else s)

/-- OVERFLOW_MARKER_EMIT (R89): one marker with the number of records lost and the first lost DSEQ. -/
def execOverflowMarkerEmit (d : MDie) (s : State) : Out := when (s.up d.pdie) s (s.emitMarker d)

end Sys2Proof.Machine
end

