-- ==== Sys2Proof/Machine/Sha.lean ====
section
/-! DEFINITION. SHA-256, HMAC and HKDF, which the spec takes from their standards (R458, R472; assumption 40). -/

namespace Sys2Proof.Machine

/-- Words of 32 bits. -/
abbrev W32 := BitVec 32

/-- The round constants and the first hash value. -/
def shaK : List W32 :=
  [0x428A2F98, 0x71374491, 0xB5C0FBCF, 0xE9B5DBA5, 0x3956C25B, 0x59F111F1, 0x923F82A4, 0xAB1C5ED5,
   0xD807AA98, 0x12835B01, 0x243185BE, 0x550C7DC3, 0x72BE5D74, 0x80DEB1FE, 0x9BDC06A7, 0xC19BF174,
   0xE49B69C1, 0xEFBE4786, 0x0FC19DC6, 0x240CA1CC, 0x2DE92C6F, 0x4A7484AA, 0x5CB0A9DC, 0x76F988DA,
   0x983E5152, 0xA831C66D, 0xB00327C8, 0xBF597FC7, 0xC6E00BF3, 0xD5A79147, 0x06CA6351, 0x14292967,
   0x27B70A85, 0x2E1B2138, 0x4D2C6DFC, 0x53380D13, 0x650A7354, 0x766A0ABB, 0x81C2C92E, 0x92722C85,
   0xA2BFE8A1, 0xA81A664B, 0xC24B8B70, 0xC76C51A3, 0xD192E819, 0xD6990624, 0xF40E3585, 0x106AA070,
   0x19A4C116, 0x1E376C08, 0x2748774C, 0x34B0BCB5, 0x391C0CB3, 0x4ED8AA4A, 0x5B9CCA4F, 0x682E6FF3,
   0x748F82EE, 0x78A5636F, 0x84C87814, 0x8CC70208, 0x90BEFFFA, 0xA4506CEB, 0xBEF9A3F7, 0xC67178F2]
def shaH : List W32 :=
  [0x6A09E667, 0xBB67AE85, 0x3C6EF372, 0xA54FF53A, 0x510E527F, 0x9B05688C, 0x1F83D9AB, 0x5BE0CD19]

/-- A message padded to whole blocks of 64 bytes: a one bit, zeros, its length in bits. -/
def shaPad (l : List Byte) : List Byte :=
  l ++ [0x80] ++ List.replicate ((119 - l.length % 64) % 64) 0 ++ natBe 8 (8 * l.length)

/-- The words of a block. -/
def shaWords (b : List Byte) : List W32 := (List.range 16).map (fun k => BitVec.ofNat 32 (fieldAt b (4 * k) 4))

/-- One more word of the schedule, in front of the words so far, newest first. -/
def shaNext (w : List W32) : List W32 :=
  let x := w.getD 14 0
  let y := w.getD 1 0
  let s0 := x.rotateRight 7 ^^^ x.rotateRight 18 ^^^ (x >>> 3)
  let s1 := y.rotateRight 17 ^^^ y.rotateRight 19 ^^^ (y >>> 10)
  (w.getD 15 0 + s0 + w.getD 6 0 + s1) :: w

/-- The schedule of a block, oldest first. -/
def shaSchedule (b : List Byte) : List W32 := ((List.range 48).foldl (fun w _ => shaNext w) (shaWords b).reverse).reverse

/-- One round over the eight working words. -/
def shaRound (v : List W32) (kw : W32 × W32) : List W32 :=
  match v with
  | [a, b, c, d, e, f, g, h] =>
    let s1 := e.rotateRight 6 ^^^ e.rotateRight 11 ^^^ e.rotateRight 25
    let ch := (e &&& f) ^^^ (~~~e &&& g)
    let t1 := h + s1 + ch + kw.1 + kw.2
    let s0 := a.rotateRight 2 ^^^ a.rotateRight 13 ^^^ a.rotateRight 22
    let mj := (a &&& b) ^^^ (a &&& c) ^^^ (b &&& c)
    [t1 + s0 + mj, a, b, c, d + t1, e, f, g]
  | v => v

/-- A block enters the hash value. -/
def shaBlock (h : List W32) (b : List Byte) : List W32 := (h.zip ((shaK.zip (shaSchedule b)).foldl shaRound h)).map (fun x => x.1 + x.2)

/-- SHA-256. -/
def sha256 (l : List Byte) : List Byte :=
  let m := shaPad l
  ((List.range (m.length / 64)).foldl (fun h k => shaBlock h (bytesAt m (64 * k) 64)) shaH).flatMap (fun w => natBe 4 w.toNat)

/-- HMAC with SHA-256. -/
def hmac256 (key msg : List Byte) : List Byte :=
  let k0 := if 64 < key.length then sha256 key else key
  let k := k0 ++ List.replicate (64 - k0.length) 0
  sha256 (k.map (· ^^^ 0x5C) ++ sha256 (k.map (· ^^^ 0x36) ++ msg))

/-- HKDF with SHA-256: 32 bytes of key from keying material, a salt and an info string (RFC 5869). -/
def hkdf256 (ikm salt info : List Byte) : List Byte := hmac256 (hmac256 salt ikm) (info ++ [1])

/-- The first 4 bytes of SHA-256 of a key, as a number (R472). -/
def keyId (key : List Byte) : Nat := fieldAt (sha256 key) 0 4

end Sys2Proof.Machine
end

