-- ==== Sys2Proof/Machine/Aes.lean ====
section
/-! DEFINITION. AES-256-GCM, which the spec takes from its standard (R458; assumption 40). -/

namespace Sys2Proof.Machine

/-- The substitution box. -/
def aesBox : List Byte :=
  [0x63, 0x7C, 0x77, 0x7B, 0xF2, 0x6B, 0x6F, 0xC5, 0x30, 0x01, 0x67, 0x2B, 0xFE, 0xD7, 0xAB, 0x76,
   0xCA, 0x82, 0xC9, 0x7D, 0xFA, 0x59, 0x47, 0xF0, 0xAD, 0xD4, 0xA2, 0xAF, 0x9C, 0xA4, 0x72, 0xC0,
   0xB7, 0xFD, 0x93, 0x26, 0x36, 0x3F, 0xF7, 0xCC, 0x34, 0xA5, 0xE5, 0xF1, 0x71, 0xD8, 0x31, 0x15,
   0x04, 0xC7, 0x23, 0xC3, 0x18, 0x96, 0x05, 0x9A, 0x07, 0x12, 0x80, 0xE2, 0xEB, 0x27, 0xB2, 0x75] ++
  [0x09, 0x83, 0x2C, 0x1A, 0x1B, 0x6E, 0x5A, 0xA0, 0x52, 0x3B, 0xD6, 0xB3, 0x29, 0xE3, 0x2F, 0x84,
   0x53, 0xD1, 0x00, 0xED, 0x20, 0xFC, 0xB1, 0x5B, 0x6A, 0xCB, 0xBE, 0x39, 0x4A, 0x4C, 0x58, 0xCF,
   0xD0, 0xEF, 0xAA, 0xFB, 0x43, 0x4D, 0x33, 0x85, 0x45, 0xF9, 0x02, 0x7F, 0x50, 0x3C, 0x9F, 0xA8,
   0x51, 0xA3, 0x40, 0x8F, 0x92, 0x9D, 0x38, 0xF5, 0xBC, 0xB6, 0xDA, 0x21, 0x10, 0xFF, 0xF3, 0xD2] ++
  [0xCD, 0x0C, 0x13, 0xEC, 0x5F, 0x97, 0x44, 0x17, 0xC4, 0xA7, 0x7E, 0x3D, 0x64, 0x5D, 0x19, 0x73,
   0x60, 0x81, 0x4F, 0xDC, 0x22, 0x2A, 0x90, 0x88, 0x46, 0xEE, 0xB8, 0x14, 0xDE, 0x5E, 0x0B, 0xDB,
   0xE0, 0x32, 0x3A, 0x0A, 0x49, 0x06, 0x24, 0x5C, 0xC2, 0xD3, 0xAC, 0x62, 0x91, 0x95, 0xE4, 0x79,
   0xE7, 0xC8, 0x37, 0x6D, 0x8D, 0xD5, 0x4E, 0xA9, 0x6C, 0x56, 0xF4, 0xEA, 0x65, 0x7A, 0xAE, 0x08] ++
  [0xBA, 0x78, 0x25, 0x2E, 0x1C, 0xA6, 0xB4, 0xC6, 0xE8, 0xDD, 0x74, 0x1F, 0x4B, 0xBD, 0x8B, 0x8A,
   0x70, 0x3E, 0xB5, 0x66, 0x48, 0x03, 0xF6, 0x0E, 0x61, 0x35, 0x57, 0xB9, 0x86, 0xC1, 0x1D, 0x9E,
   0xE1, 0xF8, 0x98, 0x11, 0x69, 0xD9, 0x8E, 0x94, 0x9B, 0x1E, 0x87, 0xE9, 0xCE, 0x55, 0x28, 0xDF,
   0x8C, 0xA1, 0x89, 0x0D, 0xBF, 0xE6, 0x42, 0x68, 0x41, 0x99, 0x2D, 0x0F, 0xB0, 0x54, 0xBB, 0x16]

/-- A byte through the box. -/
def aesSub (b : Byte) : Byte := aesBox.getD b.toNat 0

/-- Multiplication by x in GF(2^8). -/
def aesX (b : Byte) : Byte := if b.msb then (b <<< 1) ^^^ 0x1B else b <<< 1

/-- Round constants, one per eighth word of the schedule. -/
def aesRcon : List Byte := [0x01, 0x02, 0x04, 0x08, 0x10, 0x20, 0x40]

/-- The next word of the key schedule: its number, and the words so far, newest first. -/
def aesNext (w : List (List Byte)) (n : Nat) : List (List Byte) :=
  let t := w.getD 0 []
  let t := if n % 8 = 0 then
      match (t.drop 1 ++ t.take 1).map aesSub with
      | b :: r => (b ^^^ aesRcon.getD (n / 8 - 1) 0) :: r
      | [] => []
    else if n % 8 = 4 then t.map aesSub else t
  ((w.getD 7 []).zipWith (· ^^^ ·) t) :: w

/-- The 15 round keys of a 32-byte key. -/
def aesKeys (key : List Byte) : List (List Byte) :=
  let w := ((List.range 52).foldl (fun w n => aesNext w (n + 8)) ((List.range 8).map (fun k => bytesAt key (4 * k) 4)).reverse).reverse
  (List.range 15).map (fun r => ((w.drop (4 * r)).take 4).flatten)

/-- ShiftRows on a block held column by column. -/
def aesShift (b : List Byte) : List Byte := (List.range 16).map (fun k => b.getD ((k + 4 * (k % 4)) % 16) 0)

/-- MixColumns. -/
def aesMix (b : List Byte) : List Byte :=
  (List.range 16).map (fun k =>
    let c := k / 4 * 4
    let at_ := fun n => b.getD (c + (k + n) % 4) 0
    aesX (at_ 0) ^^^ aesX (at_ 1) ^^^ at_ 1 ^^^ at_ 2 ^^^ at_ 3)

/-- One block under round keys. -/
def aesBlock (keys : List (List Byte)) (b : List Byte) : List Byte :=
  let add := fun (x : List Byte) r => x.zipWith (· ^^^ ·) (keys.getD r [])
  let mid := (List.range 13).foldl (fun x r => add (aesMix (aesShift (x.map aesSub))) (r + 1)) (add b 0)
  add (aesShift (mid.map aesSub)) 14

/-- Multiplication in the field of GHASH: bit 127 of a number is the first bit. -/
def gcmMul (x y : Nat) : Nat :=
  ((List.range 128).foldl (fun (a : Nat × Nat) k =>
    (if x.testBit (127 - k) then a.1 ^^^ a.2 else a.1, if a.2 % 2 = 1 then (a.2 / 2) ^^^ (0xE1 * 2 ^ 120) else a.2 / 2)) (0, y)).1

/-- Bytes as 16-byte blocks padded with zeros. -/
def gcmBlocks (l : List Byte) : List Nat :=
  (List.range (ceilDiv l.length 16)).map (fun k =>
    let b := bytesAt l (16 * k) 16
    beNat (b ++ List.replicate (16 - b.length) 0))

/-- AES-256-GCM: ciphertext and tag of a payload under a key, a nonce of 12 bytes and additional data. -/
def gcmSeal (key nonce aad plain : List Byte) : List Byte × List Byte :=
  let keys := aesKeys key
  let h := beNat (aesBlock keys (List.replicate 16 0))
  let stream := (List.range (ceilDiv plain.length 16)).flatMap (fun k => aesBlock keys (nonce ++ natBe 4 (k + 2)))
  let c := plain.zipWith (· ^^^ ·) stream
  let g := (gcmBlocks aad ++ gcmBlocks c ++ [8 * aad.length * 2 ^ 64 + 8 * c.length]).foldl (fun a b => gcmMul (a ^^^ b) h) 0
  (c, natBe 16 (g ^^^ beNat (aesBlock keys (nonce ++ natBe 4 1))))

end Sys2Proof.Machine
end

