-- ==== Sys2Proof/Machine/Ed25519.lean ====
section
/-! DEFINITION. Ed25519 verification, which the spec takes from its standard (R468; assumption 40). -/

namespace Sys2Proof.Machine

/-- Words of 64 bits. -/
abbrev W64 := BitVec 64

/-- The round constants of SHA-512 and its first hash value. -/
def sha5K : List W64 :=
  [0x428A2F98D728AE22, 0x7137449123EF65CD, 0xB5C0FBCFEC4D3B2F, 0xE9B5DBA58189DBBC,
   0x3956C25BF348B538, 0x59F111F1B605D019, 0x923F82A4AF194F9B, 0xAB1C5ED5DA6D8118,
   0xD807AA98A3030242, 0x12835B0145706FBE, 0x243185BE4EE4B28C, 0x550C7DC3D5FFB4E2,
   0x72BE5D74F27B896F, 0x80DEB1FE3B1696B1, 0x9BDC06A725C71235, 0xC19BF174CF692694] ++
  [0xE49B69C19EF14AD2, 0xEFBE4786384F25E3, 0x0FC19DC68B8CD5B5, 0x240CA1CC77AC9C65,
   0x2DE92C6F592B0275, 0x4A7484AA6EA6E483, 0x5CB0A9DCBD41FBD4, 0x76F988DA831153B5,
   0x983E5152EE66DFAB, 0xA831C66D2DB43210, 0xB00327C898FB213F, 0xBF597FC7BEEF0EE4,
   0xC6E00BF33DA88FC2, 0xD5A79147930AA725, 0x06CA6351E003826F, 0x142929670A0E6E70] ++
  [0x27B70A8546D22FFC, 0x2E1B21385C26C926, 0x4D2C6DFC5AC42AED, 0x53380D139D95B3DF,
   0x650A73548BAF63DE, 0x766A0ABB3C77B2A8, 0x81C2C92E47EDAEE6, 0x92722C851482353B,
   0xA2BFE8A14CF10364, 0xA81A664BBC423001, 0xC24B8B70D0F89791, 0xC76C51A30654BE30,
   0xD192E819D6EF5218, 0xD69906245565A910, 0xF40E35855771202A, 0x106AA07032BBD1B8] ++
  [0x19A4C116B8D2D0C8, 0x1E376C085141AB53, 0x2748774CDF8EEB99, 0x34B0BCB5E19B48A8,
   0x391C0CB3C5C95A63, 0x4ED8AA4AE3418ACB, 0x5B9CCA4F7763E373, 0x682E6FF3D6B2B8A3,
   0x748F82EE5DEFB2FC, 0x78A5636F43172F60, 0x84C87814A1F0AB72, 0x8CC702081A6439EC,
   0x90BEFFFA23631E28, 0xA4506CEBDE82BDE9, 0xBEF9A3F7B2C67915, 0xC67178F2E372532B] ++
  [0xCA273ECEEA26619C, 0xD186B8C721C0C207, 0xEADA7DD6CDE0EB1E, 0xF57D4F7FEE6ED178,
   0x06F067AA72176FBA, 0x0A637DC5A2C898A6, 0x113F9804BEF90DAE, 0x1B710B35131C471B,
   0x28DB77F523047D84, 0x32CAAB7B40C72493, 0x3C9EBE0A15C9BEBC, 0x431D67C49C100D4C,
   0x4CC5D4BECB3E42B6, 0x597F299CFC657E2A, 0x5FCB6FAB3AD6FAEC, 0x6C44198C4A475817]
def sha5H : List W64 :=
  [0x6A09E667F3BCC908, 0xBB67AE8584CAA73B, 0x3C6EF372FE94F82B, 0xA54FF53A5F1D36F1,
   0x510E527FADE682D1, 0x9B05688C2B3E6C1F, 0x1F83D9ABFB41BD6B, 0x5BE0CD19137E2179]

/-- A message padded to whole blocks of 128 bytes. -/
def sha5Pad (l : List Byte) : List Byte :=
  l ++ [0x80] ++ List.replicate ((239 - l.length % 128) % 128) 0 ++ natBe 16 (8 * l.length)

/-- One more word of the schedule, in front of the words so far, newest first. -/
def sha5Next (w : List W64) : List W64 :=
  let x := w.getD 14 0
  let y := w.getD 1 0
  let s0 := x.rotateRight 1 ^^^ x.rotateRight 8 ^^^ (x >>> 7)
  let s1 := y.rotateRight 19 ^^^ y.rotateRight 61 ^^^ (y >>> 6)
  (w.getD 15 0 + s0 + w.getD 6 0 + s1) :: w

/-- The schedule of a block, oldest first. -/
def sha5Schedule (b : List Byte) : List W64 :=
  ((List.range 64).foldl (fun w _ => sha5Next w) ((List.range 16).map (fun k => BitVec.ofNat 64 (fieldAt b (8 * k) 8))).reverse).reverse

/-- One round over the eight working words. -/
def sha5Round (v : List W64) (kw : W64 × W64) : List W64 :=
  match v with
  | [a, b, c, d, e, f, g, h] =>
    let s1 := e.rotateRight 14 ^^^ e.rotateRight 18 ^^^ e.rotateRight 41
    let ch := (e &&& f) ^^^ (~~~e &&& g)
    let t1 := h + s1 + ch + kw.1 + kw.2
    let s0 := a.rotateRight 28 ^^^ a.rotateRight 34 ^^^ a.rotateRight 39
    let mj := (a &&& b) ^^^ (a &&& c) ^^^ (b &&& c)
    [t1 + s0 + mj, a, b, c, d + t1, e, f, g]
  | v => v

/-- A block enters the hash value. -/
def sha5Block (h : List W64) (b : List Byte) : List W64 :=
  (h.zip ((sha5K.zip (sha5Schedule b)).foldl sha5Round h)).map (fun x => x.1 + x.2)

/-- SHA-512. -/
def sha512 (l : List Byte) : List Byte :=
  let m := sha5Pad l
  ((List.range (m.length / 128)).foldl (fun h k => sha5Block h (bytesAt m (128 * k) 128)) sha5H).flatMap (fun w => natBe 8 w.toNat)

/-- The field prime, the group order, and a number from bytes in little-endian order. -/
def edP : Nat := 2 ^ 255 - 19
def edL : Nat := 2 ^ 252 + 27742317777372353535851937790883648493
def leNat (l : List Byte) : Nat := beNat l.reverse

/-- Powers in the field, and the inverse. -/
def edPow (x e : Nat) : Nat :=
  ((List.range 256).foldr (fun k (a : Nat) => (a * a % edP) * (if e.testBit k then x else 1) % edP) 1)
def edInv (x : Nat) : Nat := edPow x (edP - 2)

/-- The curve constant d = −121665 / 121666. -/
def edD : Nat := (edP - 121665) * edInv 121666 % edP

/-- A point in extended coordinates X, Y, Z, T. -/
structure EdPoint where
  x : Nat
  y : Nat
  z : Nat
  t : Nat
deriving DecidableEq, Repr

/-- The sum of two points, for a given curve constant. -/
def edAdd (d : Nat) (p q : EdPoint) : EdPoint :=
  let a := (p.y + edP - p.x) * (q.y + edP - q.x) % edP
  let b := (p.y + p.x) * (q.y + q.x) % edP
  let c := 2 * p.t * q.t * d % edP
  let e := 2 * p.z * q.z % edP
  let (f, g, h, k) := (b + edP - a, e + edP - c, e + c, b + a)
  ⟨f * g % edP, h * k % edP, g * h % edP, f * k % edP⟩

/-- A multiple of a point. -/
def edMul (d n : Nat) (p : EdPoint) : EdPoint :=
  (List.range 256).foldr (fun k (a : EdPoint) => let a := edAdd d a a; if n.testBit k then edAdd d a p else a) ⟨0, 1, 1, 0⟩

/-- A point from its 32 bytes, if they name one. -/
def edDecode (d : Nat) (b : List Byte) : Option EdPoint :=
  let v := leNat b
  let (y, sign) := (v % 2 ^ 255, v / 2 ^ 255)
  let x2 := (y * y + edP - 1) * edInv (d * y % edP * y + 1) % edP
  let r := edPow x2 ((edP + 3) / 8)
  let r := if r * r % edP = x2 then r else r * edPow 2 ((edP - 1) / 4) % edP
  if edP ≤ y ∨ r * r % edP ≠ x2 ∨ (r = 0 ∧ sign = 1) then none
  else
    let x := if r % 2 = sign then r else edP - r
    some ⟨x, y, 1, x * y % edP⟩

/-- The base point: y = 4/5, x even. -/
def edBase (d : Nat) : Option EdPoint := edDecode d (natBe 32 (4 * edInv 5 % edP)).reverse

/-- Two points are one. -/
def edSame (p q : EdPoint) : Bool := (p.x * q.z) % edP == (q.x * p.z) % edP && (p.y * q.z) % edP == (q.y * p.z) % edP

/-- Ed25519 verification of a signature of 64 bytes over a message with a public key of 32 bytes (RFC 8032). -/
def ed25519Ok (key msg sig : List Byte) : Bool :=
  let d := edD
  let s := leNat (bytesAt sig 32 32)
  match edBase d, edDecode d key, edDecode d (bytesAt sig 0 32) with
  | some b, some a, some r =>
    let k := leNat (sha512 (bytesAt sig 0 32 ++ key ++ msg)) % edL
    decide (s < edL) && edSame (edMul d s b) (edAdd d r (edMul d k a))
  | _, _, _ => false

end Sys2Proof.Machine
end

