-- ==== Sys2Proof/Machine/Operands.lean ====
section
/-! DEFINITION. Operand forms of the dictionary: how a value is coded, which values an object takes (R15, R24, R445 step 4), and who may
access it (R25, R445 step 2, R447). -/

namespace Sys2Proof.Machine

/-! ### Coding (R16, R24) -/

/-- Bytes of a number of a type; 0 for bytes. -/
def ObjType.width : ObjType → Nat
  | .u8 => 1 | .u16 => 2 | .u32 => 4 | .u64 => 8 | .s8 => 1 | .s16 => 2 | .s32 => 4 | .s64 => 8
  | .enum8 => 1 | .enum16 => 2 | .bits8 => 1 | .bits16 => 2 | .bits32 => 4 | _ => 0

/-- A type of signed numbers. -/
def ObjType.isSigned : ObjType → Bool
  | .s8 => true | .s16 => true | .s32 => true | .s64 => true | _ => false

/-- A type of bytes. -/
def ObjType.isBytes : ObjType → Bool
  | .str _ => true | .domain _ => true | .domainMax _ => true | _ => false

/-- A length that matches a type (R445 step 3). -/
def ObjType.takes (t : ObjType) (n : Nat) : Bool :=
  match t with
  | .str k => n == k
  | .domain k => n == k
  | .domainMax k => decide (n ≤ k)
  | t => n == t.width

/-- The value that bytes code in a type. -/
def ObjType.decode (t : ObjType) (b : List Byte) : ObjVal :=
  if t.isBytes then .bytes b
  else if t.isSigned then .num (signed (8 * t.width) (beNat b))
  else .num (beNat b : Nat)

/-- The bytes that code a number in a type. -/
def ObjType.encode (t : ObjType) (v : Int) : List Byte := natBe t.width (lowBits (8 * t.width) v)

/-! ### Ranges (R15) -/

/-- A number lies in a stated range. -/
def Rng.ok (r : Rng) (v : Int) : Bool :=
  match r with
  | .full => true
  | .between lo hi => decide (lo ≤ v) && decide (v ≤ hi)
  | .oneOf l => decide (v ∈ l)
  | .zeroOr lo hi => v == 0 || (decide (lo ≤ v) && decide (v ≤ hi))
  | .noneOr n hi => v == n || (decide (0 ≤ v) && decide (v ≤ hi))
  | .mask m => (Nat.bitwise (fun a b => a && !b) v.toNat m) == 0
  | .format => (formatOf v.toNat).isSome
  | .formatOrZero => v == 0 || (formatOf v.toNat).isSome
  | .refFormat => refAllowed v.toNat

/-- An ATTR word holds codes of R127 that R124 allows together (R195). -/
def attrWordOk (v : Nat) : Bool := (Attr.ofWord 0x0607 0 v).valid




/-- The encoded fields of a descriptor for its KIND (R124, R125, R127). -/
def descFieldsOk (b : List Byte) : Bool :=
  let k := descKind b
  let none := descSampling b == 0 && descBitDepth b == 0 && descColor b == 0 && descTcs b == 0 && descRange b == 0
  if k = 1 then
    (Attr.mk 0x0607 0 (descSampling b) (descBitDepth b) (descColor b) (descTcs b) (descRange b)).valid && descChannels b == 0
  else if k = 2 ∨ k = 3 then
    decide (descSampling b ≤ 3) && decide (descBitDepth b ≤ if k = 2 then 1 else 0) && descColor b == 0 && descTcs b == 0
      && descRange b == 0 && decide (1 ≤ descChannels b) && decide (descChannels b ≤ 64)
  else none && descChannels b == 0

/-- An ingress descriptor lies in its ranges (R123, R126, R127); KIND 0 is the empty one. -/
def inDescOk (b : List Byte) : Bool :=
  let k := descKind b
  let pt := descBits b 503 496
  let vl := fun leg => descVlan b leg == 0xFFFF || decide (descVlan b leg < 0x1000)
  if k = 0 then b.all (fun x => x == 0)
  else
    decide (k ≤ 7) && descBits b 504 504 == 0 && (k == 1 || descBits b 507 507 == 0) && (decide (pt ≤ 127) || pt == 255)
      && decide (descPort b 1 ≤ 31) && (decide (descPort b 2 ≤ 31) || descPort b 2 == 0xFF) && vl 1 && vl 2
      && descFieldsOk b && descBits b 237 232 == 0
      && decide (64 ≤ descDepth b) && decide (descDepth b ≤ 4096) && decide (1 ≤ descTimeout b) && decide (descTimeout b ≤ 1000)
      && decide (descQueue b 1 ≤ 4087) && descBits b 179 176 == 0
      && (if k = 1 ∨ k = 4 then decide (descTarget b ≤ 255) else if k = 2 ∨ k = 3 then decide (descTarget b ≤ 2047) else decide (descTarget b ≤ 3))
      && descBits b 159 157 == 0 && (k == 7 || descBits b 156 144 == 0) && descBits b 143 0 == 0

/-- An egress descriptor lies in its ranges (R123, R127, R128); KIND 0 is the empty one. -/
def outDescOk (b : List Byte) : Bool :=
  let k := descKind b
  let vl := fun leg => descVlan b leg == 0xFFFF || decide (descVlan b leg / 0x1000 % 2 = 0)
  if k = 0 then b.all (fun x => x == 0)
  else
    decide (k ≤ 7) && (k == 1 || descBits b 507 507 == 0) && descBits b 506 505 == 0 && (k == 1 || descBits b 504 504 == 0)
      && decide (descBits b 503 496 ≤ 127) && decide (descPort b 1 ≤ 31)
      && ((decide (descPort b 2 ≤ 31) && descPort b 2 != descPort b 1) || descPort b 2 == 0xFF) && vl 1 && vl 2
      && descBits b 351 350 == 0 && decide (1 ≤ descBits b 343 336) && descBits b 335 320 == 0
      && descFieldsOk b && descBits b 237 232 == 0
      && decide (descQueue b 1 ≤ 4087) && (descPort b 2 == 0xFF || decide (descQueue b 2 ≤ 4087)) && descBits b 211 192 == 0 && descBits b 179 176 == 0
      && (if k = 1 ∨ k = 4 then decide (descTarget b ≤ 63) else if k = 2 ∨ k = 3 then decide (descTarget b ≤ 2047) else decide (descTarget b ≤ 47))
      && descBits b 159 157 == 0 && descBits b 156 144 == 0 && descBits b 143 0 == 0

/-- 16-bit fields of a byte string. -/
def words16 (b : List Byte) : List Nat := (List.range (b.length / 2)).map (fun k => fieldAt b (2 * k) 2)

/-- A colour matrix with offsets: offsets −4,096 to 4,095 (R185). -/
def matrixOk (b : List Byte) : Bool :=
  ((words16 b).drop 9).all (fun w => decide (-4096 ≤ signed 16 w) && decide (signed 16 w ≤ 4095))

/-- LOOM.DST.BIND: a consumer of R170 that exists. -/
def dstBindOk (v : Nat) : Bool :=
  let n := v % 4096
  match v / 4096 with
  | 0 => n == 0
  | 1 => decide (n < 64)
  | 2 => decide (n < 32)
  | 3 => decide (n < 128)
  | 4 => decide (n < 48)
  | _ => false

/-- PTP.PORT.BINDING: a port of a die, or unbound (R60). -/
def ptpBindOk (v : Nat) : Bool :=
  v == 0xFFFF || (decide (v / 4096 ≤ 1) && decide (v % 4096 < 32)) || (v / 4096 == 2 && decide (v % 4096 < 2))

/-- DEC.CTX.OUTPUT: none, a source port, or an encode channel (R312). -/
def decOutputOk (v : Nat) : Bool :=
  match v / 4096 with
  | 0 => v == 0
  | 1 => decide (v % 4096 < 256)
  | 2 => decide (v % 4096 < 48)
  | _ => false

/-- ENC.DEFER.FEED: none, upload, or a decoder context (R232). -/
def deferFeedOk (v : Nat) : Bool :=
  match v / 4096 with
  | 0 => v == 0
  | 1 => v % 4096 == 0
  | 2 => decide (v % 4096 < 4)
  | _ => false

/-- Values of an object that its row's range does not say: numbers. -/
def numExtraOk (o : ObjDef) (inst : Nat) (v : Int) : Bool :=
  let n := v.toNat
  match o.index, o.sub with
  | 0x1202, 1 => ptpBindOk n
  | 0x1302, 1 => v != 8 || inst % 2 == 0
  | 0x1400, 2 => decide (n < 2 ^ 48)
  | 0x1602, 1 => dstBindOk n
  | 0x1604, 2 => routeCoded n
  | 0x1610, 1 => n == 0xFFFF || decide (n ≤ 255)
  | 0x1701, 2 => n == 0xFFFF || decide (n ≤ 255)
  | 0x1801, 2 => n == 0xFFFF || decide (n ≤ 255)
  | 0x1701, 5 => attrWordOk n
  | 0x1701, 8 => attrWordOk n
  | 0x1801, 5 => attrWordOk n
  | 0x1802, 4 => attrWordOk n
  | 0x1810, 4 => attrWordOk n
  | 0x1810, 7 => n == 0xFFFF || attrWordOk n
  | 0x2001, 8 => attrWordOk n
  | 0x2401, 4 => attrWordOk n
  | 0x1801, 0x0B => n == 0xFF || decide (n ≤ 15)
  | 0x1802, 0x0C => n % 256 == 0
  | 0x1802, 0x0D => n % 256 == 0
  | 0x1810, 9 => n == 0 || (n / 4096 == 1 && decide (n % 4096 < 8))
  | 0x2003, 1 => deferFeedOk n
  | 0x2401, 5 => decOutputOk n
  | 0x3F20, 1 => n % 4 == 0
  | 0x3F20, 2 => n % 4 == 0
  | _, _ => true

/-- Values of an object that its row's range does not say: bytes. -/
def bytesExtraOk (o : ObjDef) (b : List Byte) : Bool :=
  match o.index, o.sub with
  | 0x1410, 1 => inDescOk b
  | 0x1420, 1 => outDescOk b
  | 0x1510, 5 => gateListOk b
  | 0x1710, 1 => matrixOk b
  | 0x1710, 5 => matrixOk b
  | 0x1710, 6 => (words16 b).all (fun w => decide (w ≤ 4095))
  | 0x1801, 7 => (words16 b).all (fun w => decide (w ≤ 4095))
  | 0x1801, 0x0A => (words16 b).all (fun w => decide (w ≤ 4095))
  | 0x1802, 0x10 => ((words16 b).take 3).all (fun w => decide (w ≤ 4095)) && decide ((words16 b).getD 3 0 ≤ 4096)
  | 0x2211, 1 => fieldAt b 9 1 == 0
  | 0x2301, 0x0D => decide (16 ≤ b.length)
  | _, _ => true

/-- A value lies in the range of an object taken alone. -/
def ObjDef.valueOk (o : ObjDef) (inst : Nat) (v : ObjVal) : Bool :=
  match v with
  | .num n => o.rng.ok n && numExtraOk o inst n
  | .bytes b => bytesExtraOk o b

/-- The memory combinations of R354: every one but x4 devices of 16 Gb in two ranks. -/
def memComboOk (width density ranks : Nat) : Bool := !(width == 0 && density == 2 && ranks == 2)

/-- The ranges that depend on other objects, judged in the state that a whole request leaves in force (R445): R93, R94, R140,
R162, R301, R304, R328, R343, R354. -/
def State.jointOk (s : State) (o : ObjDef) (d : Die) (i : Nat) : Bool :=
  let mem := memComboOk (s.rdN Obj.memDevWidth d 0) (s.rdN Obj.memDevDensity d 0) (s.rdN Obj.memRanks d 0)
  let quad := fun (q : Nat) =>
    s.rdN Obj.quadMode d q != 3
      || (q % 2 == 0 && s.rdN Obj.quadMode d (q + 1) == 0 && s.rdN Obj.cageWidth d q == 8)
  match o.index, o.sub with
  | 0x1301, 1 => quad i && (i % 2 == 0 || quad (i - 1))
  | 0x1302, 1 => quad i
  | 0x1510, 3 => true
  | 0x1610, 4 => decide (1 ≤ s.rdN Obj.fsyWmLevel d i) && decide (s.rdN Obj.fsyWmLevel d i + 2 ≤ s.rdN Obj.fsySlots d i)
  | 0x1610, 6 => decide (1 ≤ s.rdN Obj.fsyWmLevel d i) && decide (s.rdN Obj.fsyWmLevel d i + 2 ≤ s.rdN Obj.fsySlots d i)
  | 0x2301, 3 => decide (s.rdN Obj.entChBinrate d i
      ≤ 3000000000 * (if s.rdN Obj.entChPar d i = 1 then s.rdN Obj.entChTiles d i else 1))
  | 0x2302, 2 => s.rdN Obj.entTsPmtPid d i != s.rdN Obj.entTsVideoPid d i
  | 0x2302, 3 => s.rdN Obj.entTsPmtPid d i != s.rdN Obj.entTsVideoPid d i
  | 0x2801, 1 => (match d.mdie? with | some m => s.bankRateOk m i (s.rdN Obj.audBankRate d i) | none => true)
  | 0x2807, 1 => (match d.mdie? with
      | some m => !(descAudio (s.inDesc m i)) || decide (2 * audPerPacket (s.inDesc m i) ≤ s.rdN Obj.audFlowDelay d i)
      | none => true)
  | 0x3000, 4 => mem
  | 0x3000, 5 => mem
  | 0x3000, 6 => mem
  | 0x3000, 7 => mem
  | _, _ => true

/-! ### Access (R4, R25, R447) -/

/-- The roles of a session (R447). -/
def roleMonitor : Nat := 0
def roleOperator : Nat := 1
def roleAdmin : Nat := 2

/-- Lifecycle states (R12): 0 BLANK, 1 PROVISIONED, 2 DEPLOYED, 3 RETURN. -/
def State.lifecycle (s : State) : Nat := s.rdN Obj.lcsState .p 0

/-- BLANK or RETURN (R462, R471). -/
def State.openState (s : State) : Bool := s.lifecycle == 0 || s.lifecycle == 3

/-- The diagnostic windows may be accessed (R4, R471). -/
def State.diagAllowed (s : State) : Bool := s.mode == .test && s.openState

/-- An object that only TEST lets a request write (R97, R107, R391, R491). -/
def testOnly (o : ObjDef) : Bool :=
  (o.index == 0x1300 && decide (o.sub ∈ [0x0A, 0x0B, 0x0C, 0x0D, 0x10])) || (o.index == 0x3101 && o.sub == 9)
    || (o.index == 0x1009 && o.sub == 5)

/-- A read of an object is permitted. -/
def State.mayRead (s : State) (o : ObjDef) : Bool := o.acc != .wo && (o.index != 0x3F20 || s.diagAllowed)

/-- A session of a role may write an index (R447). -/
def roleMayWrite (role index : Nat) : Bool :=
  role == roleAdmin || (role == roleOperator && index != 0x1002 && index != 0x1005 && index != 0x1006 && index != 0x3F20)

/-- A write of an object is permitted (R445 step 2). -/
def State.mayWrite (s : State) (role : Nat) (o : ObjDef) (d : Die) (i : Nat) : Bool :=
  roleMayWrite role o.index
    && (match o.acc with | .ro => false | .const => false | .rwc => s.mode == .configure | _ => true)
    && (!testOnly o || s.mode == .test)
    && (o.index != 0x3F20 || s.diagAllowed)
    && (!(o.index == 0x1004 && o.sub == 9) || s.mode == .configure)
    && (!(o.index == 0x1002 && o.sub == 6) || decide (s.lifecycle ≤ 1))
    && (!(o.index == 0x2804 && o.sub == 1) || (match d.mdie? with | some m => !s.underFollow m i | none => true))

end Sys2Proof.Machine
end

