-- ==== Sys2Proof/Machine/Lifecycle.lean ====
section
/-! DEFINITION. Lifecycle and debug, firmware images, diagnostic windows, the end of VOL sessions (R12, R459, R467–R471). -/

namespace Sys2Proof.Machine

/-! ### Sessions end (R459) -/

/-- VOL.SESSIONS follows the sessions (R472). -/
def State.showSessions (s : State) : State := s.wr Obj.volSessions .p 0 (s.vol.sessions.length : Nat)

/-- A session ends with a cause: event 0x1011; an end by timeout sets VOL.STICKY bit 1 (R459). Its transfer and its notifications
end with it. -/
def State.endSession (s : State) (num cause : Nat) : State :=
  if ¬ s.vol.sessions.any (fun x => x.num == num) then s
  else
    let s := { s with vol := { s.vol with sessions := s.vol.sessions.filter (fun x => x.num != num) } }.showSessions
    let s := if cause = 2 then s.setBit Obj.volSticky .p 0 1 else s
    s.raise .c 0x1011 0 (payloadOf [(32, num), (16, cause)])

/-- Every session that satisfies `p` ends. -/
def State.endSessions (s : State) (p : Session → Bool) (cause : Nat) : State :=
  ((s.vol.sessions.filter p).map (·.num)).foldl (fun (s : State) n => s.endSession n cause) s

/-! ### Lifecycle transitions (R12, R467, R469) -/

/-- LCS.STATUS: bit 0 debug open, bit 1 token access active, bit 2 erasure running (R472). -/
def State.showLcs (s : State) : State :=
  s.wr Obj.lcsStatus .p 0 (((if s.debugOpen 0 || s.debugOpen 1 then 1 else 0) + (if s.sec.token.isSome then 2 else 0)
    + (if s.sec.erasing then 4 else 0) : Nat) : Int)

/-- Some slot holds an admin key. -/
def State.hasAdmin (s : State) : Bool := (List.range 8).any (fun n => s.rdN Obj.volKeyRole .p n == roleAdmin)

/-- The mode is STANDBY or CONFIGURE. -/
def State.atRest (s : State) : Bool := s.mode == .standby || s.mode == .configure

/-- A transition is refused (R467). -/
def State.refuseLcs (s : State) (target : Nat) : State :=
  ((s.setBit Obj.lcsSticky .p 0 1).raise .c 0x1024 0 (p16 [target])).ans .access

/-- A lifecycle state is entered: journaled, event 0x1020; tokens end (R467, R468). -/
def State.enterLcs (s : State) (target : Nat) : State :=
  (({ s with sec := { s.sec with token := none } }.persistNum Obj.lcsState .p 0 (target : Nat)).showLcs).raise .c 0x1020 0 (p16 [target])

/-- The return sequence up to the erasure (R469): the answer, the record, the sessions, the media dies. The erasure itself ends by
State.finishReturn. -/
def State.beginReturn (s : State) : State :=
  let s := s.ans .ok
  let s := { s with sec := { s.sec with erasing := true, token := none } }
  let s := s.endSessions (fun _ => true) 4
  let s := mdies.foldl (fun (s : State) d => if s.up d.pdie then s.resetMedia d 7 .resetAlone else s) s
  s.showLcs

/-- A write of LCS.ADVANCE (R467): a wrong serial number is out of range; a transition that is not listed, or whose precondition
is not met, is refused; so is every one while the erasure of RETURN runs (R469). -/
def State.advance (s : State) (target serial : Nat) : State :=
  if serial ≠ s.rdN Obj.idSerial .p 0 then s.ans .range
  else if s.sec.erasing then s.refuseLcs target
  else
    match s.lifecycle, target with
    | 0, 1 => if s.atRest && s.hasAdmin then ((s.endSessions (fun x => x.slot == 0xFF) 4).enterLcs 1).ans .ok else s.refuseLcs 1
    | 1, 2 => if s.atRest then (s.enterLcs 2).ans .ok else s.refuseLcs 2
    | 1, 3 => s.beginReturn
    | 2, 3 => s.beginReturn
    | _, t => s.refuseLcs t

/-- LCS_ADVANCE_PROVISIONED (R467). -/
def execLcsAdvanceProvisioned (serial : Nat) (s : State) : Out := when s.serverUp s (s.advance 1 serial)

/-- LCS_ADVANCE_DEPLOYED (R467). -/
def execLcsAdvanceDeployed (serial : Nat) (s : State) : Out := when s.serverUp s (s.advance 2 serial)

/-- LCS_ADVANCE_RETURN (R469). -/
def execLcsAdvanceReturn (serial : Nat) (s : State) : Out := when s.serverUp s (s.advance 3 serial)

/-! ### Debug tokens (R468) -/

/-- A token lies in its layout: MAGIC, scope bits, reserved byte. -/
def tokenShaped (b : List Byte) : Bool := fieldAt b 0 4 == 0x4442544B && decide (fieldAt b 34 1 < 4) && fieldAt b 35 1 == 0

/-- An expiry in PTP seconds has passed; it is not checked in FREERUN. -/
def State.expired (s : State) (expiry : Nat) : Bool := s.rdN Obj.timeState .c 0 != 0 && decide (expiry * nsPerSec < s.time.base)

/-- The first reason for which a token is refused: signature, challenge, serial, expiry, state. -/
def State.tokenReason (s : State) (b : List Byte) : Option Nat :=
  if s.rdN Obj.lcsDebugKeyId .p 0 = 0 ∨ ¬ ed25519Ok (s.rdBytes Obj.lcsDebugKey .p 0) (bytesAt b 0 36) (bytesAt b 36 64) then some 1
  else if bytesAt b 12 16 ≠ s.rdBytes Obj.lcsDebugChallenge .p 0 then some 2
  else if fieldAt b 4 8 ≠ s.rdN Obj.idSerial .p 0 then some 3
  else if s.expired (fieldAt b 28 6) then some 4
  else if s.lifecycle ≠ 1 ∨ s.sec.erasing then some 5
  else none

/-- A write of LCS.DEBUG.TOKEN (R468): the challenge is drawn afresh whether the token is accepted or not. -/
def State.tokenWrite (s : State) (b : List Byte) : State :=
  if b.length ≠ 100 then s.ans .length
  else if ¬ tokenShaped b then s.ans .range
  else
    let r := s.tokenReason b
    let (c, s) := s.freeBytes 16
    let s := s.wrBytes Obj.lcsDebugChallenge .p 0 c
    match r with
    | some n => ((s.setBit Obj.lcsSticky .p 0 0).raise .c 0x1022 0 (p16 [n])).ans (.rejected 0x1022)
    | none =>
      let s := { s with sec := { s.sec with token := some (fieldAt b 34 1, fieldAt b 28 6) } }.showLcs
      ((s.bump Obj.lcsCount .p 0).raise .c 0x1021 0 (p16 [fieldAt b 34 1])).ans .ok

/-- LCS_DEBUG_TOKEN (R468). -/
def execLcsDebugToken (token : List Byte) (s : State) : Out := when s.serverUp s (s.tokenWrite token)

/-- DEBUG_TOKEN_EXPIRY (R468): the scoped paths close. -/
def execDebugTokenExpiry (s : State) : Out :=
  match s.sec.token with
  | none => .next s
  | some (_, expiry) => when (s.up .c && s.expired expiry) s { s with sec := { s.sec with token := none } }.showLcs

/-- JTAG_TAP_ACCESS (R467): while debug is closed the TAP answers only IDCODE and BYPASS; what the die's debug registers do is not
in the spec. -/
def execJtagTapAccess (i : TapInstr) (s : State) : Out :=
  match i with
  | .idcode => .next (s.send (.tapIdcode (Config.idcode % 2 ^ 32)))
  | .bypass => .next (s.send .tapBypass)
  | .debug => if s.debugOpen 0 then .refused .debugRegisters else .next s

/-! ### Firmware images (R470) -/

/-- Bytes written at the offset of an OFFSET object, which advances by their length (R201): the memory, and the new offset. -/
def Memory.append (m : Memory) (offset : Nat) (b : List Byte) : Memory × Nat := (m.write offset b, offset + b.length)

/-- A write of FW.IMAGE.DATA stores firmware into the inactive slot (R470). -/
def State.fwDataWrite (s : State) (b : List Byte) : State :=
  let ofs := s.rdN Obj.fwImageOffset .p 0
  if 65536 < b.length then s.ans .length
  else if 2 ^ 32 < ofs + b.length then s.ans .range
  else
    let (m, n) := s.sec.image.append ofs b
    ({ s with sec := { s.sec with image := m } }.wr Obj.fwImageOffset .p 0 (n : Nat)).ans .ok

/-- FW_IMAGE_DATA_WRITE (R470). -/
def execFwImageDataWrite (data : List Byte) (s : State) : Out := when s.serverUp s (s.fwDataWrite data)

/-- The first reason for which an image is refused: signature, a major version below the running one, length. -/
def State.fwReason (s : State) : Option Nat :=
  let b := s.sec.image.cells
  if ¬ Config.fwSigned b then some 1
  else if Config.fwVersion b % 2 ^ 32 / 2 ^ 24 < s.rdN Obj.idFwVersion .p 0 / 2 ^ 24 then some 2
  else if ¬ Config.fwLengthOk b then some 3
  else none

/-- A write of 1 to FW.IMAGE.COMMIT (R470): the image becomes the boot choice, or both slots stay as they are. -/
def State.fwCommit (s : State) : State :=
  match s.fwReason with
  | some r => (s.raise .c 0x1041 0 (p16 [r])).ans (.rejected 0x1041)
  | none =>
    let slot := 1 - s.rdN Obj.fwSlotActive .p 0
    let v := Config.fwVersion s.sec.image.cells % 2 ^ 32
    let s := { s with sec := { s.sec with chosen := slot, ver0 := if slot = 0 then v else s.sec.ver0, ver1 := if slot = 0 then s.sec.ver1 else v },
                      boot := { s.boot with fallback := false } }
    ((s.wr Obj.fwSlotVersion .p slot (v : Nat)).raise .c 0x1040 0 (payloadOf [(16, slot), (32, v)])).ans .ok

/-- FW_IMAGE_COMMIT (R470). -/
def execFwImageCommit (s : State) : Out := when s.serverUp s s.fwCommit

/-! ### Diagnostic windows (R471) -/

/-- Errors of a DRAM read through the window are treated as those of any read (R369). -/
def State.windowErrors (s : State) (d : MDie) (addr len : Nat) : State × Bool :=
  (beatList addr len).map (· / 8) |>.eraseDups.foldl (fun (x : State × Bool) burst =>
    let s := x.1
    let c := (s.memLoc d (burst * 64)).ch
    let (ce, ue) := s.beatErrors d (max addr (burst * 64)) (min (addr + len) (burst * 64 + 64) - max addr (burst * 64)) [] []
    ((s.eccCorrected d c ce).eccUncorrectable d c ue, x.2 || !ue.isEmpty)) (s, false)

/-- A read of DRAM through master 31. -/
def State.windowRead (s : State) (d : MDie) (addr len : Nat) : List Byte × State :=
  let (s, bad) := s.windowErrors d addr len
  if bad || s.storeHeld d addr then s.freeBytes len else ((s.md d).ram.mem.read addr len, s)

/-- A write of DRAM through master 31. -/
def State.windowWrite (s : State) (d : MDie) (addr : Nat) (data : List Byte) : State :=
  (splitRequest ⟨24, 31, 0, true, addr, data.length, data, [], .other⟩).foldl (fun (s : State) r =>
    (s.updRam d (fun m => { m with mem := m.mem.write r.addr r.data })).writeFlips d (s.memLoc d r.addr).ch r) s

/-- An access through master 31 (R382, R385, R388, R390): its data, or none where it meets a decode fault. The section of the
register addressed, and what registers read as, are not laid out by the spec. -/
def State.windowAccess (s : State) (d : MDie) (write : Bool) (addr len : Nat) (data : List Byte) : Option (List Byte) × State :=
  let (sec, s) := s.free 5
  let o : BusOp := ⟨0, write, addr, len, data, [], .other, sec, 0⟩
  match s.decodes d 31 o with
  | none =>
    let s := s.errorResponse d 31 o
    (none, (s.bump Obj.diagCount d.die 0).raise d.pdie 0x3F03 0 (payloadOf [(40, addr)]))
  | some t =>
    let (got, s) :=
      if t = 0 then (if write then ([], s.windowWrite d addr data) else s.windowRead d addr len)
      else if t = 3 then (if write then ([], s.semWrite d 31 (addr - windowBase) data) else s.semRead d 31 (addr - windowBase) len)
      else if write then ([], s) else s.freeBytes len
    if write then (some got, s) else (some got, (s.receiveBeats d 31 (beatsOf addr len)).1)

/-- A read of DIAG.WIN.DATA: one read of LEN bytes. -/
def State.diagRead (s : State) (d : MDie) : State :=
  let x := s.windowAccess d false (s.rdN Obj.diagWinAddr d.die 0) (s.rdN Obj.diagWinLen d.die 0) []
  match x.1 with
  | none => x.2.ans (.rejected 0x3F03)
  | some b => (x.2.wrBytes Obj.diagWinData d.die 0 b).ans .ok

/-- A write of DIAG.WIN.DATA, of length LEN: one write. -/
def State.diagWrite (s : State) (d : MDie) (b : List Byte) : State :=
  if b.length ≠ s.rdN Obj.diagWinLen d.die 0 then s.ans .length
  else
    let x := s.windowAccess d true (s.rdN Obj.diagWinAddr d.die 0) b.length b
    match x.1 with
    | none => x.2.ans (.rejected 0x3F03)
    | some _ => (x.2.wrBytes Obj.diagWinData d.die 0 b).ans .ok

/-- DIAG_WIN_READ (R4, R471). -/
def execDiagWinRead (d : MDie) (s : State) : Out :=
  when s.serverUp s
    (if ¬ s.reachable d then s.ans (.unreachable d.num) else if ¬ s.diagAllowed then s.ans .access else s.diagRead d)

/-- DIAG_WIN_WRITE (R4, R471). -/
def execDiagWinWrite (d : MDie) (data : List Byte) (s : State) : Out :=
  when s.serverUp s
    (if ¬ s.reachable d then s.ans (.unreachable d.num) else if ¬ s.diagAllowed then s.ans .access else s.diagWrite d data)

end Sys2Proof.Machine
end

