-- ==== Sys2Proof/Machine/Rejoin.lean ====
section
/-! DEFINITION. The return of a die from OUT (R416). -/

namespace Sys2Proof.Machine

/-- What the owner runs, the returning die runs too: channels and flows start on it from an instant on. -/
def State.followOwner (s : State) (d : MDie) (t : Instant) : State :=
  let o := d.other
  let s := ((s.encChannels d).filter (fun c => s.encState o c == 2)).foldl (fun (s : State) c => s.encControl d c true t) s
  ((s.outFlows d).filter (fun f => s.outState o f == 2)).foldl (fun (s : State) f => s.flowControl d f true t) s

/-- Subject index and shortfall of the newest refused allocation of a die, from its event 0x300F. -/
def State.lastShort (s : State) (d : MDie) : Option (Nat × Nat) :=
  ((s.md d).arb.buf.reverse.find? (fun r => r.code == 0x300F)).map (fun r =>
    (r.payload / 2 ^ 64 % 65536, r.payload / 2 ^ 32 % 2 ^ 32))

/-- Steps 2 to 4 of R416: the mirrored objects and allocations of the owner, then REJOINING; a die whose allocations do not fit
stays OUT with event 0x320E. -/
def State.tryReturn (s : State) (d : MDie) : State :=
  let o := d.other
  let before := (s.md d).arb.buf.length
  let x := (s.copyMirrored o).configureDie d false
  match x.2 with
  | some _ =>
    let t := s.withReports s x.1
    let (sub, short, t) := match (if before < (t.md d).arb.buf.length then t.lastShort d else none) with
      | some (a, b) => (a, b, t)
      | none =>
        let (a, t) := t.free 16
        let (b, t) := t.free 32
        (a, b, t)
    t.raise .c 0x320E d.num (payloadOf [(16, sub), (32, short)])
  | none =>
    let s := x.1.takeRefFormat d
    let s := s.loomTake d (fun p => s.activeRoute o p) true
    (s.followOwner d (.ofNs (s.time.base + 100000))).rejoin d

/-- A die that may return: OUT, running, with its memory actions done (R416). -/
def State.mayReturn (s : State) (d : MDie) : Bool :=
  s.serverUp && s.inSelvedge && s.reachable d && s.slvState d == 5 && s.slvState d.other == 3
    && !(s.recov.acts.any (fun x => x.1 == d)) && !(s.recov.due.any (fun x => x.1 == d))

/-- RETURN_FROM_OUT (R416): steps 2 to 4 while the die is OUT; step 5, both dies PAIRED, once every flow of a rejoining die has
matched. -/
def execReturnFromOut (d : MDie) (s : State) : Out :=
  if s.mayReturn d then .next (s.tryReturn d)
  else
    when (s.serverUp && s.inSelvedge && s.slvState d == 6 && s.allMatched d) s
      (((s.setSlv .a 2).setSlv .b 2).raise .c 0x3209 d.num (p16 [d.num]))

/-- SLV_REJOIN (R416): the return is tried again; a die that is not OUT is not affected. -/
def execSlvRejoin (d : MDie) (s : State) : Out :=
  when s.serverUp s
    (if ¬ s.reachable d then s.ans (.unreachable d.num)
     else if s.mayReturn d then (s.tryReturn d).ans .ok
     else s.ans .ok)

end Sys2Proof.Machine
end

