-- ==== Sys2Proof/Machine/Modes.lean ====
section
/-! DEFINITION. Mode transitions: the end of BOOT, requests of MODE.REQUEST, the stop rule (R46, R66, R243, R377, R413, R479–R484,
R488). -/

namespace Sys2Proof.Machine

/-! ### What a mode brings (R45, R46, R112, R377, R488) -/

/-- Sections and lanes of the media dies follow a mode. -/
def State.diesFollow (s : State) (m : Mode) : State :=
  let s := (List.range 4).foldl (fun (s : State) n => s.showDraw .c n m) s
  (mdies.filter (fun d => s.up d.pdie)).foldl (fun (s : State) d => (s.powerForMode d m).lanesFollow d m) s

/-- The DRAM channels of a die pay their owed refreshes and go to self-refresh; refresh begins anew when they leave it, and no in-service
retrain is left (R375, R377). -/
def State.ramSleep (s : State) (d : MDie) : State :=
  let s := (upto 12 (fun c => s.rdN Obj.memChState d.die c == 3 || s.rdN Obj.memChState d.die c == 5)).foldl (fun (s : State) c =>
    ((s.updChan d c (fun x => { x with owed := [], due := [], ref := [] })).wr Obj.memChState d.die c 4).clrBit Obj.memChStatus d.die c 2) s
  s.updMd d (fun m => { m with ram := { m.ram with retrains := [] } })

/-- The DRAM channels of a die leave self-refresh, and each runs an eye check (R377). -/
def State.ramWake (s : State) (d : MDie) : State :=
  let l := upto 12 (fun c => s.rdN Obj.memChState d.die c == 4)
  let s := if l.isEmpty then s else s.updPower d.pdie (fun p => { p with eyeDue := true })
  l.foldl (fun (s : State) c => (s.wr Obj.memChState d.die c 3).setBit Obj.memChStatus d.die c 3) s

/-- STANDBY is entered: modules to low power, DRAM to self-refresh, sections off, the fabric left (R46, R112, R377, R437). -/
def State.toStandby (s : State) : State :=
  let s := s.modulesStandby.enterMode .standby
  let s := (mdies.filter (fun d => s.up d.pdie)).foldl (fun (s : State) d =>
    (List.range 4).foldl (fun (s : State) n => s.decIdle d n) ((((s.ramSleep d).videoOff d).loomOff d).audOff d)) s
  (s.diesFollow .standby).leaveFabric

/-- CONFIGURE is left for STANDBY: no stream is to run and the sections go off, so what takes effect is what lives on in STANDBY: the port
objects (R120, R130), the equalization table (R103) and the Reference Rasters (R71). -/
def State.restConfigured (s : State) : State :=
  let s := (s.livingDies).foldl (fun (s : State) d => (s.portsInForce d).queuesInForce d) s.applyEqTable
  ((s.livingDies).foldl (fun (s : State) d => s.takeRefFormat d) s).toStandby

/-- CONFIGURE is entered from STANDBY (R112, R377, R481). -/
def State.leaveStandby (s : State) : State :=
  let s := (s.enterMode .configure).diesFollow .configure
  let s := (mdies.filter (fun d => s.up d.pdie)).foldl (fun (s : State) d => s.ramWake d) s
  s

/-- No checker is locked any more (R107, R488). -/
def State.checkersOff (s : State) : State :=
  mdies.foldl (fun (s : State) d => (s.listed Obj.laneStatus d.die (fun _ v => v.toNat.testBit 5)).foldl
    (fun (s : State) l => s.clrBit Obj.laneStatus d.die l 5) s) s

/-- On leaving TEST loopback, patterns, FEC bypass and TEST.EGRESS return to their defaults, and pending injections end (R488). -/
def State.leaveTest (s : State) : State :=
  let back := fun (a : ObjAddr) =>
    (a.index == 0x1300 && decide (a.sub ∈ [0x0A, 0x0B, 0x0C, 0x0D, 0x10])) || (a.index == 0x1009 && a.sub == 1)
  let s := { s with objs := s.objs.filter (fun e => !back e.1), blobs := s.blobs.filter (fun e => !back e.1) }
  mdies.foldl (fun (s : State) d =>
    s.updMd d (fun m => { m with
      ram := { m.ram with chans := m.ram.chans.map (fun x => (x.1, { x.2 with single := 0, double := 0, parity := 0 })) },
      bus := { m.bus with beats := [], words := [] }, test := { m.test with symbols := [], codewords := [] },
      lanes := m.lanes.map (fun x => (x.1, { x.2 with gen := 0, run := 0 })) })) s.checkersOff

/-- The pair is given up: what a die still holds for the compare leaves at once, and SLV.STATE is OFF (R413, R483). -/
def State.endPair (s : State) : State :=
  let s := mdies.foldl (fun (s : State) d =>
    let held := (s.md d).slv.table ++ (s.md d).slv.built
    let s := s.updSlv d (fun _ => SlvSt.start)
    if s.up d.pdie then s.pushPackets d (held.map (fun h => (h.queue, h.pkt))) else s) s
  { ((s.setSlv .a 0).setSlv .b 0) with pair := { s.pair with diverged := [], resyncs := [], declared := [], heard := 0 } }

/-- The pair begins: Die A owns it, both paths stand as up, and both dies take a state (R402, R413). -/
def State.beginPair (s : State) (a b : Nat) : State :=
  let s := mdies.foldl (fun (s : State) d => (s.updSlv d (fun _ => SlvSt.start)).wr Obj.slvPathStatus d.die 0 3) s
  let s := { s with pair := { s.pair with diverged := [], resyncs := [], declared := [], heard := 0 } }
  ((s.setOwner .a).setSlv .a a).setSlv .b b

/-! ### Checks (R66, R413, R480) -/

/-- The transitions of the table that a request makes (R481). -/
def listedMove (src m : Mode) : Bool :=
  match src, m with
  | .standby, .configure => true
  | .configure, .standby => true
  | .configure, .service => true
  | .configure, .selvedge => true
  | .configure, .test => true
  | .service, .configure => true
  | .service, .selvedge => true
  | .selvedge, .configure => true
  | .selvedge, .service => true
  | .test, .configure => true
  | .recovery, .configure => true
  | _, _ => false

/-- R66 holds a transition into SERVICE or SELVEDGE back. -/
def State.timeHolds (s : State) (m : Mode) : Bool :=
  (m == .service || m == .selvedge) && decide (s.rdN Obj.timeState .c 0 ≤ 1) && s.rdN Obj.timeFreerunAllow .c 0 != 1

/-- A check of R413 fails, or a route falls short under R408: from CONFIGURE over both dies, from SERVICE over Die A (R483). -/
def State.pairHolds (s : State) (m : Mode) : Bool :=
  m == .selvedge &&
    (s.refDiffer true || s.legMissing .a || s.routeShort .a (fun p => s.rdN Obj.loomRouteSource .a p))

/-- The media dies a mode needs are not all there. -/
def State.diesMissing (s : State) (m : Mode) : Bool :=
  match m with
  | .selvedge => decide ((s.livingDies).length < 2)
  | .service => (s.livingDies).isEmpty
  | .test => (s.livingDies).isEmpty
  | _ => false

/-- The lowest of the reasons 1 to 5 that applies to a transition (R480). -/
def State.moveReason (s : State) (m : Mode) : Option Nat :=
  if ¬ listedMove s.mode m then some 1
  else if s.timeHolds m then some 2
  else if s.pairHolds m then some 3
  else if s.diesMissing m then some 4
  else if s.trans.isSome then some 5
  else none

/-! ### Transitions (R480–R483) -/

/-- Channels with AUTOSTART start at an instant of die P's rule (R243). -/
def State.autostart (s : State) (d : MDie) (t : Nat) : State :=
  ((s.encChannels d).filter (fun c => s.rdN Obj.encChAutostart d.die c == 1 && s.encState d c != 2)).foldl
    (fun (s : State) c => s.encControl d c true (.ofNs t)) s

/-- The configuration has taken effect and a mode with live streams is entered (R243, R413, R481). -/
def State.goLive (s : State) (m : Mode) : State :=
  let t := s.time.base + 100000
  let s := if m = .selvedge then s.beginPair 1 1 else s
  let s := (s.enterMode m).diesFollow m
  (s.livingDies).foldl (fun (s : State) d =>
    let s := (List.range 32).foldl (fun (s : State) p => s.igmpReports d p) s
    let s := if m = .test then s else s.autostart d t
    if m = .selvedge then (s.outFlows d).foldl (fun (s : State) f => s.flowControl d f true (.ofNs t)) s else s) s

/-- An allocation was refused between two states: some die raised event 0x300F. -/
def allocRefused (s t : State) : Bool := mdies.any (fun d => (newRecords s t d).any (fun r => r.code == 0x300F))

/-- Leaving CONFIGURE for a mode with live streams: the new state, or the reports with reason and code of the refusal. -/
def State.leaveFor (s : State) (m : Mode) : State × Option (Nat × Nat) :=
  if s.refDiffer false then (s, some (6, 0x1002))
  else
    let x := s.leaveConfigure (m == .selvedge)
    match x.2 with
    | none => (x.1.goLive m, none)
    | some st =>
      if m = .selvedge ∧ allocRefused s x.1 then (x.1, some (3, 0x1002))
      else (x.1, some (6, match st with | .rejected code => code | _ => 0x1002))

/-- A transition whose reasons 1 to 5 do not apply is made or begun; else the reason and the code of its refusal. -/
def State.move (s : State) (m : Mode) : State × Option (Nat × Nat) :=
  match s.mode, m with
  | .standby, _ => (s.leaveStandby, none)
  | .configure, .standby => if s.refDiffer false then (s, some (6, 0x1002)) else (s.restConfigured, none)
  | .configure, _ => s.leaveFor m
  | .recovery, _ => ({ s with recov := { s.recov with held := true } }, none)
  | .selvedge, .service => ((s.endPair.enterMode .service).diesFollow .service, none)
  | .service, .selvedge =>
    let t := s.time.base + 100000
    let s := { s with trans := some { target := .selvedge, instant := t, source := .service } }
    let s := (s.wr Obj.modePending .p 0 5).setBit Obj.modeStatus .p 0 0
    (s.stopStreams .b (.ofNs t), none)
  | _, _ => (s.beginStop m (s.time.base + 100000), none)

/-- A request is refused (R480). -/
def State.refuseMode (s : State) (m : Mode) (reason code : Nat) : State :=
  (((s.wr Obj.modeRefuse .p 0 (reason : Nat)).setBit Obj.modeSticky .p 0 0).raise .c 0x1002 0 (p16 [m.num, reason])).ans (.rejected code)

/-- A write of MODE.REQUEST ends the retries of R479; the transition is checked, then made (R480). -/
def State.requestMode (s : State) (m : Mode) : State :=
  let s := { s with boot := { s.boot with retrying := false } }.clrBit Obj.modeStatus .p 0 4
  match s.moveReason m with
  | some r => s.refuseMode m r 0x1002
  | none =>
    match s.move m with
    | (s, none) => s.ans .ok
    | (s, some (r, code)) => s.refuseMode m r code

/-- MODE_REQUEST_STANDBY (R481). -/
def execModeRequestStandby (s : State) : Out := when s.serverUp s (s.requestMode .standby)

/-- MODE_REQUEST_CONFIGURE (R481, R482). -/
def execModeRequestConfigure (s : State) : Out := when s.serverUp s (s.requestMode .configure)

/-- MODE_REQUEST_SERVICE (R66, R481, R483). -/
def execModeRequestService (s : State) : Out := when s.serverUp s (s.requestMode .service)

/-- MODE_REQUEST_SELVEDGE (R66, R413, R481, R483). -/
def execModeRequestSelvedge (s : State) : Out := when s.serverUp s (s.requestMode .selvedge)

/-- MODE_REQUEST_TEST (R481, R488). -/
def execModeRequestTest (s : State) : Out := when s.serverUp s (s.requestMode .test)

/-! ### The stop rule (R482) -/

/-- Every channel and egress flow that the stop rule stops on a die has ended. -/
def State.stopped (s : State) (d : MDie) : Bool :=
  (s.stopFrom d).isNone || !s.up d.pdie
    || ((s.encChannels d).all (fun c => s.encState d c == 0) && (s.outFlows d).all (fun f => s.outState d f == 0))

/-- CONFIGURE is entered after the stop rule (R482, R487, R488). -/
def State.intoConfigure (s : State) : State :=
  let src := s.mode
  let s := if src = .test then s.leaveTest else s
  let s := if s.rdN Obj.slvState .a 0 = 0 ∧ s.rdN Obj.slvState .b 0 = 0 then s else s.endPair
  let s := (mdies.filter (fun d => s.up d.pdie)).foldl (fun (s : State) d => (s.audStop d).videoOff d) s
  (s.enterMode .configure).diesFollow .configure

/-- Die A alone goes on as the pair's owner, and Die B rejoins it; it stays OUT where its allocations do not fit (R416, R483). -/
def State.intoSelvedge (s : State) : State :=
  let s := ((s.beginPair 3 5).enterMode .selvedge).diesFollow .selvedge
  if s.reachable .b then s.tryReturn .b else s

/-- STOP_RULE_COMPLETE (R482, R483): the mode changes. -/
def execStopRuleComplete (s : State) : Out :=
  match s.trans with
  | none => .next s
  | some t =>
    when (s.serverUp && s.stopped .a && s.stopped .b) s
      (let s := ({ s with trans := none }.wr Obj.modePending .p 0 0xFF).clrBit Obj.modeStatus .p 0 0
       if t.target = .selvedge then s.intoSelvedge else s.intoConfigure)

/-- A channel that has not finished is cut as a restart cuts it, and has ended (R307, R482). -/
def State.cutChannel (s : State) (d : MDie) (c : Nat) : State :=
  ((s.encCut d c).updEnc d c (fun x => { x with control := none, stopping := true })).encEnded d c 1

/-- STOP_RULE_CUT (R482): 2 s after the transition instant. -/
def execStopRuleCut (s : State) : Out :=
  match s.trans with
  | none => .next s
  | some t =>
    let l := mdies.flatMap (fun d =>
      if (s.stopFrom d).isNone ∨ ¬ s.up d.pdie then [] else ((s.encChannels d).filter (fun c => s.encState d c != 0)).map (fun c => (d, c)))
    when (s.serverUp && decide (t.instant + 2 * nsPerSec ≤ s.time.base) && !l.isEmpty) s
      ((l.foldl (fun (s : State) x => s.cutChannel x.1 x.2) s).setBit Obj.modeSticky .p 0 4)

/-! ### The end of BOOT (R479) -/

/-- One try at the last transition toward the boot target; while it fails MODE.STATUS bit 4 is 1 and Die C retries. -/
def State.tryTarget (s : State) (m : Mode) : State :=
  let more := fun (s : State) (b : Bool) => { s with boot := { s.boot with retrying := b } }.putBit Obj.modeStatus .p 0 4 b
  match s.moveReason m with
  | some _ => more s true
  | none =>
    match s.move m with
    | (s, none) => more s false
    | (s, some _) => more s true

/-- The boot target: MODE.BOOT.TARGET, or CONFIGURE with STRAP1 (R474, R479). -/
def State.bootTarget (s : State) : Mode := if s.strap 1 then .configure else Mode.ofNum (s.rdN Obj.modeBootTarget .p 0)

/-- What every boot that ends reports: events 0x1050, 0x1051 and 0x1053 (R475–R477). -/
def State.bootReports (s : State) (ms : Nat) : State :=
  let s := (s.wr Obj.bootTime .p 0 ((min ms (2 ^ 32 - 1) : Nat) : Int)).raise .c 0x1050 0 (payloadOf [(32, (min ms (2 ^ 32 - 1) : Nat))])
  let s := if s.boot.unreported then
      (s.setBit Obj.modeSticky .p 0 2).raise .c 0x1051 0 (p16 [s.rd Obj.bootFailStep .p 0, s.rd Obj.bootFailCause .p 0])
    else s
  let slot := s.rdN Obj.fwSlotActive .p 0
  let s := if slot ≠ s.sec.chosen then (s.setBit Obj.modeSticky .p 0 3).raise .c 0x1053 0 (p16 [slot]) else s
  { s with boot := { s.boot with failures := 0, slotFailures := 0, unreported := false, ready := false, dips := 0 } }

/-- BOOT_END (R479): the dictionary server starts, STANDBY is entered, and the transitions toward the boot target begin. A boot of
Die C alone leaves the mode as it is (R53). -/
def execBootEnd (ms : Nat) (s : State) : Out :=
  when (s.boot.ready && s.up .c) s
    (if s.mode = .boot then
       let s := (s.bootReports ms).setBit Obj.volStatus .p 0 0
       let s := (s.enterMode .standby).diesFollow .standby
       let s := (mdies.filter (fun d => s.up d.pdie)).foldl (fun (s : State) d => s.ramSleep d) s
       let m := s.bootTarget
       if m = .standby then s
       else
         let s := s.leaveStandby
         if m = .configure then s else s.tryTarget m
     else (s.bootReports ms).setBit Obj.volStatus .p 0 0)

/-- BOOT_TARGET_RETRY (R479). -/
def execBootTargetRetry (s : State) : Out := when (s.serverUp && s.boot.retrying) s (s.tryTarget s.bootTarget)

end Sys2Proof.Machine
end

