-- ==== Sys2Proof/Machine/TestFac.lean ====
section
/-! DEFINITION. Test facilities: section self-tests, reference CRC runs, injected faults (R417, R489–R491). -/

namespace Sys2Proof.Machine

/-! ### Self-tests (R489) -/

/-- A write of TEST.BIST.SECTION (R489). -/
def State.bistWrite (s : State) (d : MDie) (sec : Nat) : State :=
  if ¬ s.reachable d then s.ans (.unreachable d.num)
  else if (s.md d).test.bist.isSome then s.ans .access
  else if sec < 6 ∨ 29 < sec then s.ans .range
  else if s.section d.pdie sec ≠ 2 then s.ans .access
  else (s.updMd d (fun m => { m with test := { m.test with bist := some sec } })).ans .ok

/-- TEST_BIST_SECTION (R489). -/
def execTestBistSection (d : MDie) (sec : Nat) (s : State) : Out := when s.serverUp s (s.bistWrite d sec)

/-- BIST_COMPLETE (R489): the self-test under way ends with the elements that failed; they are marked failed (R417). -/
def execBistComplete (d : MDie) (bad : List Nat) (s : State) : Out :=
  match (s.md d).test.bist with
  | none => .next s
  | some n =>
    when (s.up d.pdie) s
      (let bad := bad.eraseDups
       let s := s.updMd d (fun m =>
         { m with test := { m.test with bist := none },
                  badElems := m.badElems ++ (bad.map (fun e => (n, e))).filter (fun x => decide (x ∉ m.badElems)) })
       let k := bad.length % 65536
       let s := s.wr Obj.testBistResult d.die n ((2 ^ 31 + (if bad.isEmpty then 2 ^ 30 else 0) + k : Nat) : Int)
       if bad.isEmpty then s else s.raise d.pdie 0x1054 n (p16 [n, k]))

/-! ### Reference CRC runs (R490) -/

/-- The rectangles of a die in SCN.CRC.MODE 2. -/
def State.crcRects (s : State) (d : MDie) : List Nat := s.listed Obj.scnCrcMode d.die (fun _ v => v == 2)

/-- A write of TEST.CRC.FRAMES starts a run of `n` frames (R490). -/
def State.crcRunStart (s : State) (d : MDie) (n : Nat) : State :=
  let l := s.crcRects d
  let s := s.updMd d (fun m => { m with test := { m.test with crc := l.map (fun i => (i, n)) } })
  (((s.wr Obj.testCrcFrames d.die 0 (n : Nat)).wr Obj.testCrcState d.die 0 1).wr Obj.testCrcFails d.die 0 0).ans .ok

/-- TEST_CRC_FRAMES (R490). -/
def execTestCrcFrames (d : MDie) (n : Nat) (s : State) : Out :=
  when s.serverUp s
    (if ¬ s.reachable d then s.ans (.unreachable d.num)
     else if n = 0 ∨ 1000000 < n then s.ans .range
     else s.crcRunStart d n)

/-- CRC_RUN_END (R490): every rectangle has compared its frames. -/
def execCrcRunEnd (d : MDie) (s : State) : Out :=
  when (s.up d.pdie && s.rdN Obj.testCrcState d.die 0 == 1 && (s.md d).test.crc.all (fun x => x.2 == 0)) s
    (let n := s.rdN Obj.testCrcFails d.die 0
     let st := if n = 0 then 2 else 3
     (s.wr Obj.testCrcState d.die 0 (st : Nat)).raise d.pdie 0x1055 0 (payloadOf [(16, (st : Nat)), (32, n)]))

/-! ### Injections (R491) -/

/-- A target exists (R491): an enabled DRAM channel that is not fenced, a populated master, a network queue, a lane, a port's first
lane. -/
def State.injectOk (s : State) (d : MDie) (kind target : Nat) : Bool :=
  match kind with
  | 1 => decide (target ∈ s.memEnabled d) && s.rdN Obj.memChState d.die target != 7
  | 2 => decide (target ∈ s.memEnabled d) && s.rdN Obj.memChState d.die target != 7
  | 3 => decide (target ∈ s.memEnabled d) && s.rdN Obj.memChState d.die target != 7
  | 4 => decide (target < 39)
  | 5 => decide (target < 4096)
  | 6 => decide (target < 32)
  | 7 => decide (target < 32) && s.firstLane d target
  | _ => false

/-- The fault waits for its occasion. -/
def State.injectFault (s : State) (d : MDie) (kind target count : Nat) : State :=
  match kind with
  | 1 => s.updChan d target (fun x => { x with single := x.single + count })
  | 2 => s.updChan d target (fun x => { x with double := x.double + count })
  | 3 => s.updChan d target (fun x => { x with parity := x.parity + count })
  | 4 => s.updMd d (fun m => { m with bus := { m.bus with beats := tabUpd m.bus.beats target 0 (· + count) } })
  | 5 => s.updMd d (fun m => { m with bus := { m.bus with words := tabUpd m.bus.words target 0 (· + count) } })
  | 6 => s.updMd d (fun m => { m with test := { m.test with symbols := tabUpd m.test.symbols target 0 (· + count) } })
  | 7 => s.updMd d (fun m => { m with test := { m.test with codewords := tabUpd m.test.codewords target 0 (· + count) } })
  | _ => s

/-- A write of TEST.INJECT (R491). -/
def State.inject (s : State) (d : MDie) (kind target count : Nat) : State :=
  if ¬ s.reachable d then s.ans (.unreachable d.num)
  else if s.mode ≠ .test then s.ans .access
  else if count = 0 ∨ ¬ s.injectOk d kind target then s.ans .range
  else (((s.injectFault d kind target count).bump Obj.testInjectCount d.die 0).raise d.pdie 0x1056 0 (p16 [kind, target])).ans .ok

/-- INJECT_SINGLE_BIT_ECC (R491). -/
def execInjectSingleBitEcc (d : MDie) (ch count : Nat) (s : State) : Out := when s.serverUp s (s.inject d 1 ch count)

/-- INJECT_DOUBLE_BIT_ECC (R491). -/
def execInjectDoubleBitEcc (d : MDie) (ch count : Nat) (s : State) : Out := when s.serverUp s (s.inject d 2 ch count)

/-- INJECT_CA_PARITY (R368, R491). -/
def execInjectCaParity (d : MDie) (ch count : Nat) (s : State) : Out := when s.serverUp s (s.inject d 3 ch count)

/-- INJECT_BUS_PARITY (R391, R491). -/
def execInjectBusParity (d : MDie) (m count : Nat) (s : State) : Out := when s.serverUp s (s.inject d 4 m count)

/-- INJECT_QUEUE_PARITY (R391, R491). -/
def execInjectQueueParity (d : MDie) (queue count : Nat) (s : State) : Out := when s.serverUp s (s.inject d 5 queue count)

/-- INJECT_SYMBOL_ERRORS (R491). -/
def execInjectSymbolErrors (d : MDie) (lane count : Nat) (s : State) : Out := when s.serverUp s (s.inject d 6 lane count)

/-- INJECT_UNCORRECTABLE (R120, R491). -/
def execInjectUncorrectable (d : MDie) (lane count : Nat) (s : State) : Out := when s.serverUp s (s.inject d 7 lane count)

end Sys2Proof.Machine
end

