-- ==== Sys2Proof/Machine/Server.lean ====
section
/-! DEFINITION. The dictionary server: requests on objects, item by item (R15, R25, R26, R30, R401, R444–R449, R451). -/

namespace Sys2Proof.Machine

/-! ### Items (R444, R445) -/

/-- The die a die byte names (R456). -/
def dieOfByte : Nat → Option Die
  | 0 => some .a
  | 1 => some .b
  | 2 => some .c
  | 3 => some .p
  | _ => none

/-- The object and die an item names (R445 step 1); `n` instances from its instance on must exist. -/
def findItem (it : VolItem) (n : Nat) : Except Status (ObjDef × Die) :=
  match dieOfByte it.die, objAt it.index it.sub with
  | some d, some o =>
    if ¬ o.dies.has d then .error .noObject
    else if o.instances d < it.inst + n then .error .range
    else .ok (o, d)
  | _, _ => .error .noObject

/-- The media die that an item addresses and that Die C does not reach (R442). In SELVEDGE a mirrored write goes where the pair takes
it (R401); a restart after a thermal shutdown is a request to a die that is off (R50). -/
def State.beyond (s : State) (it : VolItem) (write : Bool) : Option MDie :=
  match (dieOfByte it.die).bind Die.mdie? with
  | none => none
  | some m =>
    if s.reachable m then none
    else if write ∧ s.inSelvedge ∧ mirroredIndex it.index then none
    else if write ∧ it.index = 0x1105 ∧ it.sub = 3 ∧ (s.power m.pdie).run = .shutdown then none
    else some m

/-- A status that lets a request go on: applied, or applied without an effect. -/
def Status.passes : Status → Bool
  | .ok => true
  | .noEffect _ => true
  | _ => false

/-- The code of a status (R457). -/
def Status.code : Status → Nat
  | .ok => 0 | .access => 1 | .range => 2 | .noObject => 3 | .length => 4 | .rejected _ => 5 | .unreachable _ => 6 | .busy => 7
  | .stale _ => 8 | .session => 9 | .bulk _ => 10 | .partly _ => 11 | .noEffect _ => 12

/-- DETAIL of a status about an item (R457). -/
def Status.detail (st : Status) (item : Nat) : Nat :=
  match st with
  | .access => item | .range => item | .noObject => item | .length => item
  | .rejected code => item % 65536 * 65536 + code
  | .unreachable d => d
  | .stale n => n % 2 ^ 32
  | .bulk n => n
  | .partly n => n
  | .noEffect v => item % 65536 * 65536 + v
  | _ => 0

/-! ### A value is stored (R25, R26, R30) -/

/-- A value takes its place: a W1C object loses the bits written as 1, a P object reaches MRAM as well. -/
def State.put (s : State) (o : ObjDef) (d : Die) (i : Nat) (v : ObjVal) : State :=
  match v with
  | .num n =>
    if o.acc = .w1c then s.w1c o d i n.toNat
    else if o.persist then s.persistNum o d i n
    else s.wr o d i n
  | .bytes b => if o.persist then s.persistBytes o d i b else s.wrBytes o d i b

/-- LEVEL or HYST of a watermark is written: the flag is armed, and the rule is evaluated with the present level (R398). -/
def State.rearm (s : State) (d : MDie) (k : WmKind) (i level : Nat) : State := (s.setArmed d k i true).watermark d k i level

/-- What follows from a write of an object beside its value: the Twill state and lanes of a quad (R93, R104), a held shaper value
(R137), the sequence number of a flow (R128), watermarks (R398). -/
def State.afterWrite (s : State) (o : ObjDef) (d : MDie) (i : Nat) : State :=
  match o.index, o.sub with
  | 0x1301, 1 =>
    let st := if s.quad d i = 4 then max 1 (s.tlinkState d i) else 0
    s.wr Obj.twlLinkState d.die i (st : Nat)
  | 0x1420, 1 =>
    let seq := descBits (s.outDesc d i) 399 384
    s.updFlowOut d i (fun x => { x with seq := seq })
  | 0x1430, 3 => s.rearm d .queue i (s.depth d i)
  | 0x1430, 4 => s.rearm d .queue i (s.depth d i)
  | 0x1500, 3 => s.updQueue d i (fun x => { x with held := true })
  | 0x1500, 4 => s.updQueue d i (fun x => { x with held := true })
  | 0x1610, 6 => s.rearm d .fsy i (s.rdN Obj.fsyFill d.die i)
  | 0x1610, 7 => s.rearm d .fsy i (s.rdN Obj.fsyFill d.die i)
  | 0x2002, 3 => s.rearm d .bolt i (s.rdN Obj.encBoltFill d.die i * 100 / max 1 (s.boltBytes d i))
  | 0x2002, 4 => s.rearm d .bolt i (s.rdN Obj.encBoltFill d.die i * 100 / max 1 (s.boltBytes d i))
  | 0x2802, 0x0F => s.rearm d .audPort i (max (s.rdN Obj.audPortFill d.die i / 256) (s.rdN Obj.audPortFill d.die i % 256))
  | 0x2802, 0x10 => s.rearm d .audPort i (max (s.rdN Obj.audPortFill d.die i / 256) (s.rdN Obj.audPortFill d.die i % 256))
  | 0x3002, 3 => s.rearm d .memPort i (s.rdN Obj.memPortPending d.die i)
  | 0x3002, 4 => s.rearm d .memPort i (s.rdN Obj.memPortPending d.die i)
  | _, _ => s

/-- What follows from a write of an object of Die C or die P beside its value: the frequency and phase source (R67, R68), the PTP ports
(R90), the fabric (R438). -/
def State.afterWriteC (s old : State) (o : ObjDef) : State :=
  match o.index, o.sub with
  | 0x1200, 5 => s.sourceChanged (old.rdN Obj.timeSource .c 0)
  | 0x1202, 1 => s.showPtp
  | 0x1202, 2 => s.showPtp
  | 0x3300, 4 => s.fabricEnabled
  | 0x3300, 0x0C => s.twlStatus
  | _, _ => s

/-- A write of an object with no rule of its own (R25), on one die. -/
def State.storeOn (s : State) (o : ObjDef) (d : Die) (i : Nat) (v : ObjVal) : State :=
  let t := s.put o d i v
  match d.mdie? with
  | some m =>
    if (o.index = 0x1301 ∨ o.index = 0x1302) ∧ o.sub = 1 then ((((s.portsTaken t m).put o d i v).afterWrite o m i).quadsFollow m)
    else t.afterWrite o m i
  | none => t.afterWriteC s o

/-- A write of an object with no rule of its own: in SELVEDGE a mirrored object is written on both dies (R401). -/
def State.store (s : State) (o : ObjDef) (d : Die) (i : Nat) (v : ObjVal) : State :=
  if s.inSelvedge ∧ mirroredIndex o.index then s.mirror d (fun m _ s => s.storeOn o m.die i v)
  else (s.storeOn o d i v).ans .ok

/-! ### Objects with a rule of their own -/

/-- A write of VOL.IMAGE.DATA stores image data in the staging area (R201, R449). -/
def State.imageDataWrite (s : State) (b : List Byte) : State :=
  let ofs := s.rdN Obj.volImageOffset .p 0
  if 65536 < b.length then s.ans .length
  else if 4194304 < ofs + b.length then s.ans .range
  else
    let (m, n) := s.vol.staging.append ofs b
    (({ s with vol := { s.vol with staging := m } }.wr Obj.volImageOffset .p 0 (n : Nat)).setBit Obj.volStatus .p 0 1).ans .ok

/-- VOL_IMAGE_DATA_WRITE (R449). -/
def execVolImageDataWrite (data : List Byte) (s : State) : Out := when s.serverUp s (s.imageDataWrite data)

/-- A write of VOL.KEY (R467, R472): role and key of a slot; one that would leave no admin key in PROVISIONED or DEPLOYED is
refused. -/
def State.keyWrite (s : State) (slot : Nat) (b : List Byte) : State :=
  let role := fieldAt b 0 1
  let key := b.drop 1
  if 2 < role ∧ role ≠ 0xFF then s.ans .range
  else
    let t := (s.persistBytes Obj.volKey .p slot (if role = 0xFF then List.replicate 33 0 else b)).persistNum Obj.volKeyRole .p slot (role : Nat)
    let t := t.persistNum Obj.volKeyId .p slot ((if role = 0xFF then 0 else keyId key : Nat) : Int)
    if (s.lifecycle = 1 ∨ s.lifecycle = 2) ∧ ¬ t.hasAdmin then s.ans .access else t.ans .ok

/-- A write of LCS.DEBUG.KEY (R468, R472). -/
def State.debugKeyWrite (s : State) (b : List Byte) : State :=
  ((s.persistBytes Obj.lcsDebugKey .p 0 b).persistNum Obj.lcsDebugKeyId .p 0 (keyId b : Nat)).ans .ok

/-- The state a meaning answers, or the given one. -/
def answered (s : State) : Out → State
  | .next t => t
  | _ => s

/-- A write that only media dies take. -/
def State.onMedia (s : State) (d : Die) (f : MDie → Out) : State :=
  match d.mdie? with
  | some m => answered s (f m)
  | none => s.ans .range

/-- A number value, and a byte value. -/
def valNat : ObjVal → Nat
  | .num v => v.toNat
  | .bytes _ => 0
def valBytes : ObjVal → List Byte
  | .num _ => []
  | .bytes b => b

/-- A write of an object whose write is an action: step 5 of R445 and the effect, with the status in `answer`; every other object
takes its value. -/
def State.applyPlain (s : State) (o : ObjDef) (d : Die) (i : Nat) (v : ObjVal) : State :=
  let s := s.ans .ok
  match o.index, o.sub with
  | 0x1001, 0x02 => s.requestMode (Mode.ofNum (valNat v))
  | 0x1002, 0x05 => s.advance (fieldAt (valBytes v) 0 1) (fieldAt (valBytes v) 1 8)
  | 0x1002, 0x06 => s.debugKeyWrite (valBytes v)
  | 0x1002, 0x09 => s.tokenWrite (valBytes v)
  | 0x1004, 0x08 => s.imageDataWrite (valBytes v)
  | 0x1005, 0x01 => s.keyWrite i (valBytes v)
  | 0x1006, 0x04 => s.fwDataWrite (valBytes v)
  | 0x1006, 0x05 => s.fwCommit
  | 0x1009, 0x03 => s.onMedia d (fun m => execTestBistSection m (valNat v) s)
  | 0x1009, 0x05 =>
    if fieldAt (valBytes v) 1 1 ≠ 0 then s.ans .range
    else s.onMedia d (fun m => .next (s.inject m (fieldAt (valBytes v) 0 1) (fieldAt (valBytes v) 2 2) (fieldAt (valBytes v) 4 4)))
  | 0x1009, 0x07 => s.onMedia d (fun m => execTestCrcFrames m (valNat v) s)
  | 0x1105, 0x03 =>
    (match d, (valNat v) with
     | .p, 3 => answered s (execRstRequestWarmPackage s)
     | .a, 1 => answered s (execRstRequestRestart .a s)
     | .b, 1 => answered s (execRstRequestRestart .b s)
     | .a, 2 => answered s (execRstRequestDieReset .a s)
     | .b, 2 => answered s (execRstRequestDieReset .b s)
     | _, _ => s.ans .range)
  | 0x1200, 0x09 => answered s (execTimeStepRequest s)
  | 0x1200, 0x0D => answered s (execTimePpsSecondsSet (valNat v) s)
  | 0x1210, 0x01 => s.onMedia d (fun m => execTimeCueEntryWrite m (Fin.ofNat 1024 i) (valBytes v) s)
  | 0x1210, 0x03 => s.onMedia d (fun m => if (valNat v) = 1 then execTimeCueArm m (Fin.ofNat 1024 i) s else execTimeCueDisarm m (Fin.ofNat 1024 i) s)
  | 0x1211, 0x01 => s.onMedia d (fun m => execTimeCueGroupArm m (Fin.ofNat 256 (valNat v)) s)
  | 0x1211, 0x02 => s.onMedia d (fun m => execTimeCueGroupDisarm m (Fin.ofNat 256 (valNat v)) s)
  | 0x1300, 0x09 => s.onMedia d (fun m => execLaneStateRequest m (Fin.ofNat 32 i) (Fin.ofNat 3 (valNat v)) s)
  | 0x1310, 0x01 => answered s (execLaneEqTableWrite (valBytes v) s)
  | 0x1420, 0x05 => s.onMedia d (fun m => if (valNat v) = 1 then execFlowOutStart m (Fin.ofNat 4096 i) s else execFlowOutStop m (Fin.ofNat 4096 i) s)
  | 0x1510, 0x06 => s.onMedia d (fun m => execGateCommit m (Fin.ofNat 32 i) s)
  | 0x1602, 0x05 => s.onMedia d (fun m => execLoomDstBackupWrite m (Fin.ofNat 256 i) (valNat v) s)
  | 0x1605, 0x01 => answered s (match d.mdie? with
      | some m => execLoomGroupCommit m (Fin.ofNat 256 i) s
      | none => execLoomGroupCommitPackage (Fin.ofNat 256 i) s)
  | 0x1701, 0x0B => s.onMedia d (fun m => execCnvChainCommit m (Fin.ofNat 32 i) s)
  | 0x1703, 0x01 => s.onMedia d (fun m => execCnvCoefSetWrite m (Fin.ofNat 64 i) (valBytes v) s)
  | 0x1800, 0x06 => s.onMedia d (fun m => execCompSurfDataWrite m (valBytes v) s)
  | 0x1801, 0x0D => s.onMedia d (fun m => execCmpCommit m (Fin.ofNat 8 i) s)
  | 0x1803, 0x05 => s.onMedia d (fun m => execCmpFeltRebuild m (Fin.ofNat 8 i) s)
  | 0x1810, 0x08 => s.onMedia d (fun m => execScnOutFormatApply m (Fin.ofNat 64 i) s)
  | 0x1810, 0x0C => s.onMedia d (fun m => execScnOutCommit m (Fin.ofNat 64 i) s)
  | 0x2001, 0x14 => s.encControlWrite d i ((valNat v) == 1)
  | 0x2001, 0x15 => answered s (execEncChCommit d (Fin.ofNat 48 i) s)
  | 0x2003, 0x03 => s.onMedia d (fun m => execEncDeferDataWrite m (Fin.ofNat 48 i) (valBytes v) s)
  | 0x2003, 0x04 => s.onMedia d (fun m => execEncDeferPush m (Fin.ofNat 48 i) s)
  | 0x2202, 0x01 => answered s (execRcKeyRequest d (Fin.ofNat 48 i) s)
  | 0x2210, 0x06 => s.onMedia d (fun m => execRcGzMapDataWrite m (Fin.ofNat 48 i) (valBytes v) s)
  | 0x2301, 0x0E => answered s (execEntChSeiUserSend d (Fin.ofNat 48 i) s)
  | 0x2401, 0x09 => s.onMedia d (fun m => execDecCtxRestart m (Fin.ofNat 4 i) s)
  | 0x2802, 0x0D => s.onMedia d (fun m => execAudPortCommit m (Fin.ofNat 16 i) s)
  | 0x2802, 0x13 => s.onMedia d (fun m => if (valNat v) = 1 then execAudPortArm m (Fin.ofNat 16 i) s else execAudPortDisarm m (Fin.ofNat 16 i) s)
  | 0x2805, 0x01 => answered s (execAudGroupCommit d (Fin.ofNat 256 i) s)
  | 0x2806, 0x01 => answered s (execAudStartTrigger d (Fin.ofNat 256 i) s)
  | 0x3001, 0x0E => s.onMedia d (fun m => execMemChRetrain m (Fin.ofNat 12 i) s)
  | 0x3101, 0x09 => s.onMedia d (fun m => execBusMasterReset m (Fin.ofNat 48 i) s)
  | 0x3201, 0x0E => s.onMedia d (fun m => execSlvRejoin m s)
  | 0x3F20, 0x03 => s.onMedia d (fun m => execDiagWinWrite m (valBytes v) s)
  | _, _ => s.store o d i v

/-! ### Requests that write (R445, R446) -/

/-- How one item is applied. -/
abbrev Applier := State → ObjDef → Die → Nat → ObjVal → State

/-- Steps 1 to 4 of R445 for an item of a write; `ov` holds the values that the whole request leaves in force. -/
def State.checkItem (s ov : State) (role : Nat) (it : VolItem) : Except Status (ObjDef × Die × ObjVal) :=
  match findItem it 1 with
  | .error st => .error st
  | .ok (o, d) =>
    if ¬ s.mayWrite role o d it.inst then .error .access
    else if ¬ o.ty.takes it.value.length then .error .length
    else
      let v := o.ty.decode it.value
      if o.valueOk it.inst v ∧ ov.jointOk o d it.inst then .ok (o, d, v) else .error .range

/-- The state with the values of a request in their objects, for the ranges that depend on one another. -/
def State.overlay (s : State) (items : List VolItem) : State :=
  items.foldl (fun (s : State) it =>
    match findItem it 1 with
    | .error _ => s
    | .ok (o, d) =>
      if o.acc = .w1c ∨ o.acc = .wo ∨ ¬ o.ty.takes it.value.length then s
      else match o.ty.decode it.value with
        | .num n => s.wr o d it.inst n
        | .bytes b => s.wrBytes o d it.inst b) s

/-- The first item from `i` on that fails steps 1 to 4. -/
def State.firstBad (s ov : State) (role : Nat) : Nat → List VolItem → Option (Status × Nat)
  | _, [] => none
  | i, it :: r =>
    match s.checkItem ov role it with
    | .error st => some (st, i)
    | .ok _ => s.firstBad ov role (i + 1) r

/-- Items are checked and applied in order on a running copy `t` of the state `s` in which the request arrived. The first item that
fails leaves `s` with that item's reports alone; a die that goes away ends the request as PARTIAL; `ne` is the first item that had
no effect. The answer is in the state, the item it is about beside it. -/
def State.runItems (ap : Applier) (s ov : State) (role : Nat) : State → Nat → Option (Nat × Nat) → List VolItem → State × Nat
  | t, _, none, [] => (t.ans .ok, 0)
  | t, _, some (k, st), [] => (t.ans (.noEffect st), k)
  | t, i, ne, it :: r =>
    match s.checkItem ov role it with
    | .error st => (s.ans st, i)
    | .ok (o, d, v) =>
      if i ≠ 0 ∧ (t.beyond it true).isSome then
        match s.firstBad ov role (i + 1) r with
        | some (st, k) => (s.ans st, k)
        | none => (t.ans (.partly i), i)
      else
        let t' := ap t o d it.inst v
        if ¬ t'.answer.passes then (s.withReports t t', i)
        else if ¬ t'.serverUp then (t', i)
        else
          let ne := match ne, t'.answer with
            | none, .noEffect st => some (i, st)
            | x, _ => x
          s.runItems ap ov role t' (i + 1) ne r

/-- One request of items to write (R442, R446): UNREACHABLE where an item addresses a die that Die C does not reach. -/
def State.runWrite (ap : Applier) (s : State) (role : Nat) (items : List VolItem) : State × Nat :=
  match items.findSome? (fun it => s.beyond it true) with
  | some m => (s.ans (.unreachable m.num), 0)
  | none => s.runItems ap (s.overlay items) role s 0 none items

/-! ### Dictionary images (R449) -/

/-- The items of an image: each an address and a value padded to 4 bytes; `fuel` bounds their number. -/
def imageItems : Nat → List Byte → Option (List VolItem)
  | 0, b => if b.isEmpty then some [] else none
  | n + 1, b =>
    let len := fieldAt b 6 2
    let pad := (len + 3) / 4 * 4
    if b.length < 8 + pad then none
    else (imageItems n (b.drop (8 + pad))).map (fun l =>
      ⟨fieldAt b 0 1, fieldAt b 1 2, fieldAt b 3 1, fieldAt b 4 2, len, bytesAt b 8 len⟩ :: l)

/-- The items of the staged image, where its header, length and CRC are good. -/
def State.stagedItems (s : State) : Option (List VolItem) :=
  let h := s.vol.staging.read 0 16
  let len := fieldAt h 8 4
  if fieldAt h 0 4 ≠ 0x44494D47 ∨ fieldAt h 4 2 ≠ 1 ∨ fieldAt h 12 4 ≠ 0 ∨ len < 20 ∨ 4194304 < len then none
  else
    let b := s.vol.staging.read 0 len
    if fieldAt b (len - 4) 4 ≠ crc32 (b.take (len - 4)) then none
    else imageItems (fieldAt h 6 2) (bytesAt b 16 (len - 20))

/-- Items of an image: another VOL.IMAGE.APPLY is refused inside one. -/
def applyInside : Applier := fun s o d i v => if o.index = 0x1004 ∧ o.sub = 9 then s.ans .access else s.applyPlain o d i v

/-- VOL.IMAGE.APPLY = 1 (R449): the image is executed as one request; event 0x1015 tells its status and item. -/
def State.imageApply (s : State) (role : Nat) : State :=
  match s.stagedItems with
  | none => ((s.setBit Obj.volSticky .p 0 4).raise .c 0x1015 0 (p16 [Status.length.code, 0])).ans .length
  | some items =>
    let (t, i) := s.runWrite applyInside role items
    let st := t.answer
    let t := if st.passes then t.clrBit Obj.volStatus .p 0 1 else t.setBit Obj.volSticky .p 0 4
    (t.raise .c 0x1015 0 (p16 [st.code, i])).ans st

/-- VOL_IMAGE_APPLY (R449): in CONFIGURE only. -/
def execVolImageApply (s : State) : Out :=
  when s.serverUp s (if s.mode = .configure then s.imageApply roleAdmin else s.ans .access)

/-- How an item of a request is applied by a session of a role. -/
def applyAs (role : Nat) : Applier := fun s o d i v =>
  if o.index = 0x1004 ∧ o.sub = 9 then s.imageApply role else s.applyPlain o d i v

/-- One request of items to write by a session of a role, with the item its status is about; commits whose instant has come go before
it (R152). -/
def State.writeItems (s : State) (role : Nat) (items : List VolItem) : State × Nat := s.runDue.runWrite (applyAs role) role items

/-- REGISTER_WRITE (R25, R445): one item, written by a session of the admin role. -/
def execRegisterWrite (it : VolItem) (s : State) : Out := when s.serverUp s (s.writeItems roleAdmin [it]).1

/-! ### Reads -/

/-- The row of the newest complete field that MOT.CH.SNAP shows (R261). -/
def State.motionSnap (s : State) (d : MDie) (c : Nat) : List Byte :=
  match ((s.enc d c).fields.filter (·.complete)).getLast? with
  | none => []
  | some f =>
    let r := s.rdN Obj.motChSnapRow d.die c
    if f.blkH ≤ r then []
    else (List.range f.blkW).flatMap (fun n =>
      let x := tabGet f.recs (r * f.blkW + n) noRefRec
      natBe 2 (lowBits 16 x.x) ++ natBe 2 (lowBits 16 x.y) ++ natBe 1 x.conf
        ++ natBe 1 ((if x.fallback then 128 else 0) + (if x.poison then 64 else 0) + x.level) ++ natBe 2 x.sad)

/-- The value of an instance of an object, in bytes; a read of DIAG.WIN.DATA is an access of its own (R471). -/
def State.readValue (s : State) (o : ObjDef) (d : Die) (i : Nat) : List Byte × State :=
  let s := s.ans .ok
  match o.index, o.sub with
  | 0x1200, 0x02 => (natBe 2 s.timeStatusNow, s)
  | 0x1200, 0x0B => (natBe 4 (if s.servo = 3 then s.holdSeconds else s.rdN o d i), s)
  | 0x1200, 0x0C => (natBe 6 (s.time.base / nsPerSec) ++ natBe 4 (s.time.base % nsPerSec), s)
  | 0x1601, 0x05 => (natBe 1 (match d.mdie? with | some m => s.srcStatus m i | none => 0), s)
  | 0x1801, 0x07 => (match d.mdie? with | some m => s.cmpBgBytes m i | none => [], s)
  | 0x1810, 0x0D => (natBe 1 (match d.mdie? with | some m => s.outStatus m i | none => 0), s)
  | 0x2101, 0x07 => (match d.mdie? with | some m => s.motionSnap m i | none => [], s)
  | 0x3F20, 0x03 =>
    let s := match d.mdie? with | some m => s.diagRead m | none => s
    (s.rdBytes o d i, s)
  | _, _ => (if o.ty.isBytes then s.rdBytes o d i else o.ty.encode (s.rd o d i), s)

/-- The first item of a read that fails, with its status (R445). -/
def State.readBad (s : State) : Nat → List VolItem → Option (Status × Nat)
  | _, [] => none
  | i, it :: r =>
    match findItem it (max 1 it.count) with
    | .error st => some (st, i)
    | .ok (o, _) => if s.mayRead o then s.readBad (i + 1) r else some (.access, i)

/-! ### CLEAR.COUNT (R30, R448) -/

/-- The COUNT objects (R30): RO objects whose mnemonics end in `.COUNT`. -/
def countObjs : List (Nat × Nat) :=
  [
   (0x1100, 0x03), (0x1101, 0x03), (0x1103, 0x05), (0x1105, 0x02), (0x1200, 0x04), (0x1211, 0x03), (0x3F10, 0x02), (0x1300, 0x03),
   (0x1302, 0x06), (0x1302, 0x0B), (0x1400, 0x09), (0x1400, 0x0A), (0x1410, 0x06), (0x1410, 0x07), (0x1410, 0x08), (0x1411, 0x01),
   (0x1411, 0x02), (0x1411, 0x03), (0x1411, 0x04), (0x1411, 0x05), (0x1411, 0x06), (0x1420, 0x07), (0x1430, 0x08), (0x1430, 0x09),
   (0x1510, 0x09), (0x1520, 0x02), (0x1600, 0x03), (0x1602, 0x0B), (0x1610, 0x0C), (0x1610, 0x0D), (0x1610, 0x0E), (0x1700, 0x03),
   (0x1701, 0x0E), (0x1720, 0x08), (0x1720, 0x09), (0x1800, 0x03), (0x1801, 0x10), (0x1801, 0x11), (0x1801, 0x13), (0x1803, 0x04),
   (0x1810, 0x0F), (0x1810, 0x10), (0x1810, 0x11), (0x1820, 0x08), (0x2000, 0x03), (0x2001, 0x1B), (0x2001, 0x1C), (0x2001, 0x1D),
   (0x2002, 0x05), (0x2100, 0x03), (0x2101, 0x05), (0x2103, 0x04), (0x2200, 0x03), (0x2201, 0x18), (0x2201, 0x19), (0x2201, 0x1A)] ++
  [
   (0x2202, 0x02), (0x2300, 0x03), (0x2301, 0x11), (0x2301, 0x12), (0x2400, 0x03), (0x2401, 0x0D), (0x2401, 0x0E), (0x2401, 0x0F),
   (0x2401, 0x10), (0x2401, 0x11), (0x2800, 0x03), (0x2802, 0x19), (0x2802, 0x1A), (0x2802, 0x1B), (0x2807, 0x04), (0x2807, 0x05),
   (0x2807, 0x06), (0x3000, 0x03), (0x3001, 0x04), (0x3001, 0x05), (0x3001, 0x07), (0x3001, 0x08), (0x3001, 0x09), (0x3001, 0x0A),
   (0x3001, 0x0B), (0x3002, 0x06), (0x3002, 0x07), (0x3100, 0x03), (0x3100, 0x04), (0x3101, 0x05), (0x3101, 0x06), (0x3200, 0x03),
   (0x3201, 0x03), (0x3201, 0x04), (0x3201, 0x05), (0x3201, 0x06), (0x3201, 0x07), (0x3201, 0x08), (0x3201, 0x09), (0x3201, 0x0A),
   (0x3201, 0x0D), (0x3300, 0x03), (0x3302, 0x05), (0x1002, 0x04), (0x1004, 0x03), (0x1004, 0x06), (0x1007, 0x02), (0x1007, 0x03),
   (0x3F00, 0x03), (0x3F20, 0x04), (0x1001, 0x08), (0x1008, 0x05), (0x1009, 0x02), (0x1009, 0x06)]

/-- A COUNT object. -/
def ObjDef.isCount (o : ObjDef) : Bool := decide ((o.index, o.sub) ∈ countObjs)

/-- The COUNT objects of a die that an item of CLEAR.COUNT names, each with its first instance and their number. -/
def itemCounters (it : VolItem) : Except Status (List (ObjDef × Die × Nat × Nat)) :=
  if it.sub = 0xFF then
    match dieOfByte it.die with
    | none => .error .noObject
    | some d =>
      let l := objTable.filter (fun o => o.index == it.index && o.dies.has d)
      if l.isEmpty then .error .noObject
      else .ok ((l.filter (·.isCount)).map (fun o => (o, d, 0, o.instances d)))
  else
    match findItem it (if it.count = 0 then 1 else it.count) with
    | .error st => .error st
    | .ok (o, d) =>
      if ¬ o.isCount then .error .access
      else if it.count = 0 then .ok [(o, d, 0, o.instances d)]
      else .ok [(o, d, it.inst, it.count)]

/-- The role may clear a counter: an admin every one, an operator those not flagged P (R447). -/
def mayClear (role : Nat) (o : ObjDef) : Bool := role == roleAdmin || (role == roleOperator && !o.persist)

/-- A counter is set to 0. -/
def State.clearCount (s : State) (o : ObjDef) (d : Die) (i : Nat) : State :=
  if o.persist then s.persistNum o d i 0 else s.wr o d i 0

/-- CLEAR.COUNT on items (R448): every item is checked before any counter is cleared. -/
def State.clearItems (s : State) (role : Nat) (items : List VolItem) : State × Nat :=
  let rec bad : Nat → List VolItem → Option (Status × Nat)
    | _, [] => none
    | i, it :: r =>
      match itemCounters it with
      | .error st => some (st, i)
      | .ok l => if role != roleMonitor && l.all (fun x => mayClear role x.1) then bad (i + 1) r else some (.access, i)
  match items.findSome? (fun it => s.beyond it false), bad 0 items with
  | some m, _ => (s.ans (.unreachable m.num), 0)
  | none, some (st, i) => (s.ans st, i)
  | none, none =>
    ((items.foldl (fun (s : State) it =>
      match itemCounters it with
      | .error _ => s
      | .ok l => l.foldl (fun (s : State) x =>
          (List.range x.2.2.2).foldl (fun (s : State) k => s.clearCount x.1 x.2.1 (x.2.2.1 + k)) s) s) s).ans .ok, 0)

end Sys2Proof.Machine
end

