-- ==== Sys2Proof/Machine/VolBase.lean ====
section
/-! DEFINITION. Frames and sessions of Vindi Object Link: authentication, sequence numbers, responses (R453–R462, R466). -/

namespace Sys2Proof.Machine

/-! ### Frames (R454, R456) -/

/-- The MSB-first bytes of an event record (R86). -/
def EventRec.bytes (r : EventRec) : List Byte :=
  natBe 8 r.gseq ++ natBe 4 r.dseq ++ natBe 2 r.code
    ++ natBe 1 (r.die.num * 16 + (if r.hold then 8 else 0) + (if r.free then 4 else 0) + (if r.ovfl then 2 else 0))
    ++ natBe 2 r.inst ++ natBe 6 r.coord.frame ++ natBe 2 r.coord.line ++ natBe 2 r.coord.sample ++ natBe 1 0 ++ natBe 12 r.payload

/-- A value padded with zeros to a multiple of 4 bytes (R456). -/
def pad4 (b : List Byte) : List Byte := b ++ List.replicate ((4 - b.length % 4) % 4) 0

/-- The 8-byte address of an item, with what stands in bytes 6 and 7. -/
def itemAddress (it : VolItem) (last : Nat) : List Byte :=
  natBe 1 it.die ++ natBe 2 it.index ++ natBe 1 it.sub ++ natBe 2 it.inst ++ natBe 2 last

/-- Items of a request that carry no value, and items of a WRITE. -/
def itemsBytes (l : List VolItem) : List Byte := l.flatMap (fun it => itemAddress it it.count)
def writeBytes (l : List VolItem) : List Byte := l.flatMap (fun it => itemAddress it it.value.length ++ pad4 it.value)

/-- The 32-byte header of a frame (R454). -/
def headerBytes (flags session seq boot op status len items detail : Nat) : List Byte :=
  natBe 2 0x564F ++ natBe 1 1 ++ natBe 1 flags ++ natBe 4 session ++ natBe 8 seq ++ natBe 4 boot ++ natBe 1 op ++ natBe 1 status
    ++ natBe 2 len ++ natBe 2 items ++ natBe 2 0 ++ natBe 4 detail

/-- The GCM nonce of a frame: SESSION, then SEQ (R458). -/
def frameNonce (session seq : Nat) : List Byte := natBe 4 session ++ natBe 8 seq

/-- The largest payload (R454), and the largest response payload of items with values. -/
def payloadMax : Nat := 1392

/-- What an operation answers: status and the item it is about, ITEMS, payload, the gap flag, descriptors. -/
structure Reply where
  status : Status
  item : Nat
  items : Nat
  payload : List Byte
  gap : Bool
  descs : List ObjDef

/-- An answer that carries a status alone, and one with a payload. -/
def Reply.plain (st : Status) (item : Nat) : Reply := ⟨st, item, 0, [], false, []⟩
def Reply.data (items : Nat) (b : List Byte) : Reply := ⟨.ok, 0, items, b, false, []⟩

/-! ### Sessions (R458–R461) -/

/-- A session by number. -/
def State.session? (s : State) (n : Nat) : Option Session := s.vol.sessions.find? (fun x => x.num == n)

/-- A state with a session changed. -/
def State.updSession (s : State) (n : Nat) (f : Session → Session) : State :=
  { s with vol := { s.vol with sessions := s.vol.sessions.map (fun x => if x.num = n then f x else x) } }

/-- A session without keys: slot 0xFF (R462). -/
def Session.open_ (x : Session) : Bool := x.slot == 0xFF

/-- The frame leaves by a port: over the network at once, over SPI when the host reads it (R452, R453). -/
def State.deliverTo (s : State) (port : Nat) (f : Sent) : State :=
  if port = 2 then { s with vol := { s.vol with spiWaiting := s.vol.spiWaiting ++ [f] } } else s.send f

/-- The tag of a response of an authenticated session (R458); with descriptors, whose layout the spec does not give, it is not
known. -/
def State.responseTag (s : State) (key : List Byte) (r : Response) : List Byte × State :=
  if ¬ r.auth then ([], s)
  else if ¬ r.descs.isEmpty then s.freeBytes 16
  else
    let flags := 0x81 + (if r.gap then 0x20 else 0)
    let h := headerBytes flags r.session r.seq (s.rdN Obj.volBootCount .p 0) r.op r.status.code r.payload.length r.items (r.status.detail r.item)
    ((gcmSeal key (frameNonce r.session r.seq) h r.payload).2, s)

/-- The response to a request. -/
def State.makeResponse (s : State) (x : Session) (h : VolHdr) (op : Nat) (r : Reply) : Response × State :=
  let y : Response := ⟨x.num, h.seq, op, r.status, r.item, r.items, r.gap, !x.open_, r.payload, r.descs, []⟩
  let (tag, s) := s.responseTag x.keyOut y
  ({ y with tag := tag }, s)

/-- A response leaves by the port on which its request arrived, to the request's source (R452). A server that the request itself
brought down answers nothing. -/
def State.respondTo (s : State) (h : VolHdr) (y : Response) : State :=
  if s.serverUp then s.deliverTo h.port.val (.response h.port.val h.ip h.udp y) else s

/-- A frame that fails authentication or names an unknown session (R461): counted, VOL.STICKY bit 0, event 0x1012 at most once per
second. The key slot of an unknown session is not known. -/
def State.discardVol (s : State) (port : Nat) (slot : Option Nat) : State :=
  let s := (s.bump Obj.volCount .p 0).setBit Obj.volSticky .p 0 0
  if s.vol.authEvent.any (fun t => decide (s.time.base < t + nsPerSec)) then s
  else
    let (v, s) := match slot with | some v => (v, s) | none => s.free 16
    { s with vol := { s.vol with authEvent := some s.time.base } }.raise .c 0x1012 0 (p16 [port, v])

/-- A request's tag is correct: AES-256-GCM under the client's key; a session without keys takes frames without a tag (R458, R462). -/
def State.tagOk (x : Session) (h : VolHdr) (op items : Nat) (payload : List Byte) : Bool :=
  if x.open_ then !h.auth
  else h.auth && h.tag == (gcmSeal x.keyIn (frameNonce h.session h.seq) (headerBytes 1 h.session h.seq h.boot op 0 payload.length items 0) payload).2

/-- The port serves VOL: the SPI host port only with STRAP0 (R453, R474). -/
def State.portServes (s : State) (h : VolHdr) : Bool := s.serverUp && (h.port.val != 2 || s.strap 0)

/-- A correct request of a session: it establishes it, and notifications follow it (R458, R459). -/
def State.heard (s : State) (x : Session) (h : VolHdr) : State :=
  let s := s.updSession x.num (fun x => { x with established := true, last := s.time.base, port := h.port.val, peer := (h.ip, h.udp) })
  if x.established then s else s.raise .c 0x1010 0 (payloadOf [(32, x.num), (16, x.slot), (16, x.role)])

/-- Stored responses of a session (R460). -/
def historyMax : Nat := 8

/-- A request of a session (R452, R454, R458, R460, R461): one too long for a frame is malformed, discarded and counted; others are discarded,
answered from the store, stale, or executed once. -/
def State.volRequest (s : State) (h : VolHdr) (op items : Nat) (payload : List Byte) (run : State → Session → State × Reply) : Out :=
  when (s.portServes h) s
    (let s : State := if h.port.val = 2 then { s with vol := { s.vol with spiBusy := false } } else s
     if payloadMax < payload.length then s.bump Obj.volCount .p 0
     else match s.session? h.session with
     | none => s.discardVol h.port.val none
     | some x =>
       if ¬ State.tagOk x h op items payload then s.discardVol h.port.val (some x.slot)
       else
         let s := s.heard x h
         if h.boot ≠ s.rdN Obj.volBootCount .p 0 then
           let (y, s) := s.makeResponse x h op (.plain .session 0)
           s.respondTo h y
         else if x.high < h.seq then
           let s := s.updSession x.num (fun x => { x with high := h.seq })
           let (s, r) := run s ((s.session? h.session).getD x)
           let (y, s) := s.makeResponse x h op r
           (s.updSession x.num (fun x => { x with history := (y :: x.history).take historyMax })).respondTo h y
         else
           match x.history.find? (fun y => y.seq == h.seq) with
           | some y => s.respondTo h y
           | none =>
             let (y, s) := s.makeResponse x h op (.plain (.stale x.high) 0)
             s.respondTo h y)

/-! ### OPEN (R458, R459, R462) -/

/-- The most sessions at once. -/
def sessionMax : Nat := 16

/-- A session number that is not 0 and not in use, found from `v` on. -/
def State.freshSession (s : State) (v : Nat) : Nat :=
  (((List.range (sessionMax + 2)).map (fun k => (v + k) % 2 ^ 32)).find? (fun n => n != 0 && (s.session? n).isNone)).getD 0

/-- An OPEN is refused without a tag. -/
def State.refuseOpen (s : State) (h : VolHdr) (st : Status) : State :=
  s.respondTo h ⟨0, h.seq, 1, st, 0, 0, false, false, [], [], []⟩

/-- The role of a key slot; none for an empty one. Slot 0xFF is an admin's in BLANK and RETURN. -/
def State.slotRole (s : State) (slot : Nat) : Option Nat :=
  if slot = 0xFF then (if s.openState then some roleAdmin else none)
  else if 8 ≤ slot ∨ s.rdN Obj.volKeyRole .p slot = 0xFF then none
  else some (s.rdN Obj.volKeyRole .p slot)

/-- A session opens: its keys, and the answer, which is the first authenticated frame. -/
def State.openSession (s : State) (h : VolHdr) (slot role : Nat) (client : List Byte) : State :=
  let (v, s) := s.free 32
  let n := s.freshSession v
  let (device, s) := s.freeBytes 16
  let ikm := (s.rdBytes Obj.volKey .p slot).drop 1
  let key := fun (info : List Byte) => if slot = 0xFF then [] else hkdf256 ikm (client ++ device) info
  let x : Session :=
    { num := n, slot := slot, role := role, established := false, last := s.time.base, port := h.port.val, high := 0, history := [],
      keyIn := key [0x56, 0x4F, 0x4C, 0x20, 0x63, 0x32, 0x64], keyOut := key [0x56, 0x4F, 0x4C, 0x20, 0x64, 0x32, 0x63],
      peer := (h.ip, h.udp), subscribed := false, ranges := [], nextGseq := 0, notices := [], notifies := 0, losing := false,
      transfer := none, snaps := [] }
  let s := { s with vol := { s.vol with sessions := s.vol.sessions ++ [x] } }.showSessions
  let (y, s) := s.makeResponse x h 1 (.data 0 (natBe 4 n ++ device ++ natBe 1 role ++ natBe 3 0))
  s.respondTo h y

/-- VOL_OPEN (R458, R459, R462): a key slot and the client's nonce. -/
def execVolOpen (h : VolHdr) (slot : Nat) (nonce : List Byte) (s : State) : Out :=
  when (s.portServes h) s
    (let s : State := if h.port.val = 2 then { s with vol := { s.vol with spiBusy := false } } else s
     if sessionMax ≤ s.vol.sessions.length then s.refuseOpen h .busy
     else
       match s.slotRole slot with
       | none => s.refuseOpen h .access
       | some role => s.openSession h slot role nonce)

/-- VOL_CLOSE (R459): cause 1. -/
def execVolClose (h : VolHdr) (s : State) : Out :=
  s.volRequest h 0x02 0 [] (fun s x => (s.endSession x.num 1, .plain .ok 0))

/-- VOL_NOP (R455). -/
def execVolNop (h : VolHdr) (s : State) : Out := s.volRequest h 0x03 0 [] (fun s _ => (s, .plain .ok 0))

/-- SESSION_ESTABLISH_TIMEOUT (R458): 2 s without a correct request; cause 3. -/
def execSessionEstablishTimeout (n : Nat) (s : State) : Out :=
  match s.session? n with
  | none => .next s
  | some x => when (s.serverUp && !x.established && decide (x.last + 2 * nsPerSec ≤ s.time.base)) s (s.endSession n 3)

/-- VOL.SESSION.TIMEOUT has passed since an instant. -/
def State.timedOut (s : State) (t : Nat) : Bool := decide (t + s.rdN Obj.volSessionTimeout .p 0 * nsPerSec ≤ s.time.base)

/-- SESSION_TIMEOUT (R459): cause 2, VOL.STICKY bit 1. -/
def execSessionTimeout (n : Nat) (s : State) : Out :=
  match s.session? n with
  | none => .next s
  | some x => when (s.serverUp && x.established && s.timedOut x.last) s (s.endSession n 2)

end Sys2Proof.Machine
end

