-- ==== Sys2Proof/Machine/Vol.lean ====
section
/-! DEFINITION. The operations of Vindi Object Link (R446–R448, R455–R457, R463–R466). -/

namespace Sys2Proof.Machine

/-! ### Items (R446, R448, R455, R456) -/

/-- Values of instances that fit into `room` bytes, each padded, with their number. -/
def State.readInstances (s : State) (o : ObjDef) (d : Die) (i n room : Nat) : List Byte × Nat × State :=
  match n with
  | 0 => ([], 0, s)
  | k + 1 =>
    let (b, s) := s.readValue o d i
    let b := pad4 b
    if room < b.length then ([], 0, s)
    else
      let (r, m, s) := s.readInstances o d (i + 1) k (room - b.length)
      (b ++ r, m + 1, s)

/-- Bytes of one value as its item names them: those of its first instance. -/
def State.valueLength (s : State) (o : ObjDef) (d : Die) (i : Nat) : Nat :=
  if o.ty.isBytes then (if o.index = 0x3F20 then s.rdN Obj.diagWinLen d 0 else (s.readValue o d i).1.length) else o.ty.width

/-- What a READ gathered: payload, instances returned, whether every one fitted, the item at which an access failed. -/
structure Gathered where
  bytes : List Byte
  insts : Nat
  whole : Bool
  bad : Option (Status × Nat)

/-- Items are read in order until the payload is full. -/
def State.gather (s : State) : Nat → Gathered → List VolItem → State × Gathered
  | _, g, [] => (s, g)
  | i, g, it :: r =>
    match findItem it (max 1 it.count) with
    | .error st => (s, { g with bad := some (st, i) })
    | .ok (o, d) =>
      let used := g.bytes.length
      if payloadMax < used + 12 then (s, { g with whole := false })
      else
        let len := s.valueLength o d it.inst
        let (b, m, s) := s.readInstances o d it.inst it.count (payloadMax - used - 12)
        if ¬ s.answer.passes then (s, { g with bad := some (s.answer, i) })
        else
          let g := { g with bytes := g.bytes ++ itemAddress it m ++ natBe 1 0 ++ natBe 1 0 ++ natBe 2 len ++ b, insts := g.insts + m }
          if m < it.count then (s, { g with whole := false }) else s.gather (i + 1) g r

/-- READ (R455, R456): a READ whose values exceed the payload returns the instances that fit, and ITEMS counts them. -/
def State.readItems (s : State) (items : List VolItem) : State × Reply :=
  match items.findSome? (fun it => s.beyond it false), s.readBad 0 items with
  | some m, _ => (s, .plain (.unreachable m.num) 0)
  | none, some (st, i) => (s, .plain st i)
  | none, none =>
    let (s, g) := (s.ans .ok).gather 0 ⟨[], 0, true, none⟩ items
    match g.bad with
    | some (st, i) => (s, .plain st i)
    | none => (s, .data (if g.whole then items.length else g.insts) g.bytes)

/-- VOL_READ (R455, R456). -/
def execVolRead (h : VolHdr) (items : List VolItem) (s : State) : Out :=
  s.volRequest h 0x10 items.length (itemsBytes items) (fun s _ => s.readItems items)

/-- VOL_WRITE (R445, R446, R451). -/
def execVolWrite (h : VolHdr) (items : List VolItem) (s : State) : Out :=
  s.volRequest h 0x11 items.length (writeBytes items) (fun s x =>
    let (s, i) := s.writeItems x.role items
    (s, .plain s.answer i))

/-- The descriptors of items (R444). -/
def describeItems : Nat → List VolItem → Except (Status × Nat) (List ObjDef)
  | _, [] => .ok []
  | i, it :: r =>
    match findItem it 1 with
    | .error st => .error (st, i)
    | .ok (o, _) =>
      match describeItems (i + 1) r with
      | .error e => .error e
      | .ok l => .ok (o :: l)

/-- VOL_DESCRIBE (R444, R455). -/
def execVolDescribe (h : VolHdr) (items : List VolItem) (s : State) : Out :=
  s.volRequest h 0x12 items.length (itemsBytes items) (fun s _ =>
    match describeItems 0 items with
    | .error (st, i) => (s, .plain st i)
    | .ok l => (s, ⟨.ok, 0, l.length, [], false, l⟩))

/-- Position of an object in the order of LIST: die, index, subindex. -/
def listKey (d : Die) (index sub : Nat) : Nat := (d.num * 65536 + index) * 256 + sub

/-- The objects of every die with their positions. -/
def allObjects : List (Nat × Die × ObjDef) :=
  [Die.a, .b, .c, .p].flatMap (fun d => (objTable.filter (fun o => o.dies.has d)).map (fun o => (listKey d o.index o.sub, d, o)))

/-- The nearest object after a position. -/
def nextObject (l : List (Nat × Die × ObjDef)) (pos : Nat) : Option (Nat × Die × ObjDef) :=
  l.foldl (fun b x =>
    if pos < x.1 then (match b with | none => some x | some y => if x.1 < y.1 then some x else some y) else b) none

/-- Up to `n` objects after a position, in order, as 8-byte addresses. -/
def listFrom (l : List (Nat × Die × ObjDef)) : Nat → Nat → List (List Byte)
  | 0, _ => []
  | n + 1, pos =>
    match nextObject l pos with
    | none => []
    | some (k, d, o) =>
      (natBe 1 d.num ++ natBe 2 o.index ++ natBe 1 o.sub ++ natBe 2 0 ++ natBe 2 (o.instances d)) :: listFrom l n k

/-- VOL_LIST (R455): up to 64 objects after a position. -/
def execVolList (h : VolHdr) (die index sub : Nat) (s : State) : Out :=
  s.volRequest h 0x13 0 (natBe 1 die ++ natBe 2 index ++ natBe 1 sub) (fun s _ =>
    let l := listFrom allObjects 64 ((die * 65536 + index) * 256 + sub)
    (s, .data l.length l.flatten))

/-- VOL_CLEAR_COUNT (R448). -/
def execVolClearCount (h : VolHdr) (items : List VolItem) (s : State) : Out :=
  s.volRequest h 0x14 items.length (itemsBytes items) (fun s x =>
    let (s, i) := s.clearItems x.role items
    (s, .plain s.answer i))

/-! ### Bulk transfers (R463) -/

/-- Bulk transfers at once. -/
def transferMax : Nat := 4

/-- The transfers that sessions hold. -/
def State.transfers (s : State) : List Bulk := s.vol.sessions.filterMap (·.transfer)

/-- A transfer number that no session holds, found from `v` on. -/
def State.freshTransfer (s : State) (v : Nat) : Nat :=
  (((List.range (transferMax + 1)).map (fun k => (v + k) % 2 ^ 16)).find? (fun n => !s.transfers.any (fun t => t.id == n))).getD 0

/-- BULK.BEGIN: the object and its length are checked; a session holds one transfer, the server four. -/
def State.bulkBegin (s : State) (x : Session) (it : VolItem) (total : Nat) : State × Reply :=
  match s.beyond it true, findItem it 1 with
  | some m, _ => (s, .plain (.unreachable m.num) 0)
  | none, .error st => (s, .plain st 0)
  | none, .ok (o, d) =>
    if ¬ s.mayWrite x.role o d it.inst then (s, .plain .access 0)
    else if ¬ o.ty.takes total then (s, .plain .length 0)
    else if x.transfer.isSome ∨ transferMax ≤ s.transfers.length then (s, .plain .busy 0)
    else
      let (v, s) := s.free 16
      let id := s.freshTransfer v
      (s.updSession x.num (fun x => { x with transfer := some ⟨id, ⟨d, it.index, it.sub, it.inst⟩, total, [], s.time.base⟩ }),
        .data 0 (natBe 2 id))

/-- VOL_BULK_BEGIN (R463). -/
def execVolBulkBegin (h : VolHdr) (it : VolItem) (total : Nat) (s : State) : Out :=
  s.volRequest h 0x20 1 (itemAddress it it.count ++ natBe 4 total) (fun s x => s.bulkBegin x it total)

/-- BULK.DATA: a segment at the next offset expected. -/
def State.bulkData (s : State) (x : Session) (id offset : Nat) (data : List Byte) : State × Reply :=
  match x.transfer with
  | none => (s, .plain (.bulk 0) 0)
  | some t =>
    if t.id ≠ id ∨ offset ≠ t.data.length ∨ 1384 < data.length ∨ t.total < t.data.length + data.length then
      (s, .plain (.bulk t.data.length) 0)
    else
      (s.updSession x.num (fun x => { x with transfer := some { t with data := t.data ++ data, last := s.time.base } }), .plain .ok 0)

/-- VOL_BULK_DATA (R463). -/
def execVolBulkData (h : VolHdr) (id offset : Nat) (data : List Byte) (s : State) : Out :=
  s.volRequest h 0x21 0 (natBe 2 id ++ natBe 2 0 ++ natBe 4 offset ++ data) (fun s x => s.bulkData x id offset data)

/-- BULK.END: one WRITE of the whole value; the transfer is over. -/
def State.bulkEnd (s : State) (x : Session) (id : Nat) : State × Reply :=
  match x.transfer with
  | none => (s, .plain (.bulk 0) 0)
  | some t =>
    if t.id ≠ id ∨ t.data.length ≠ t.total then (s, .plain (.bulk t.data.length) 0)
    else
      let s := s.updSession x.num (fun x => { x with transfer := none })
      let (s, i) := s.writeItems x.role [⟨t.addr.die.num, t.addr.index, t.addr.sub, t.addr.inst, 0, t.data⟩]
      (s, .plain s.answer i)

/-- VOL_BULK_END (R463). -/
def execVolBulkEnd (h : VolHdr) (id : Nat) (s : State) : Out :=
  s.volRequest h 0x22 0 (natBe 2 id) (fun s x => s.bulkEnd x id)

/-- BULK.READ: data from a snapshot, which offset 0 takes afresh, and any other offset where there is none. -/
def State.bulkRead (s : State) (x : Session) (it : VolItem) (offset len : Nat) : State × Reply :=
  match s.beyond it false, s.readBad 0 [{ it with count := 1 }] with
  | some m, _ => (s, .plain (.unreachable m.num) 0)
  | none, some (st, i) => (s, .plain st i)
  | none, none =>
    match findItem it 1 with
    | .error st => (s, .plain st 0)
    | .ok (o, d) =>
      let a := o.addr d it.inst
      let old := x.snaps.find? (fun n => n.1 == a && decide (s.time.base < n.2.2 + 10 * nsPerSec))
      match (if offset = 0 then none else old) with
      | some (_, b, _) => (s, .data 0 (bytesAt b offset (min len payloadMax)))
      | none =>
        let (b, s) := s.readValue o d it.inst
        if ¬ s.answer.passes then (s, .plain s.answer 0)
        else
          (s.updSession x.num (fun x => { x with snaps := x.snaps.filter (fun n => n.1 != a) ++ [(a, b, s.time.base)] }),
            .data 0 (bytesAt b offset (min len payloadMax)))

/-- VOL_BULK_READ (R463). -/
def execVolBulkRead (h : VolHdr) (it : VolItem) (offset len : Nat) (s : State) : Out :=
  s.volRequest h 0x23 1 (itemAddress it it.count ++ natBe 4 offset ++ natBe 2 len) (fun s x => s.bulkRead x it offset len)

/-- BULK_TRANSFER_TIMEOUT (R463): the session's transfer is abandoned. -/
def execBulkTransferTimeout (n : Nat) (s : State) : Out :=
  match s.session? n with
  | none => .next s
  | some x =>
    when (s.serverUp && x.transfer.any (fun t => s.timedOut t.last)) s (s.updSession n (fun x => { x with transfer := none }))

/-- BULK_SNAPSHOT_EXPIRY (R463): 10 s after they were taken the session's snapshots expire. -/
def execBulkSnapshotExpiry (n : Nat) (s : State) : Out :=
  when (s.serverUp && (s.session? n).isSome) s
    (let now := s.time.base
     s.updSession n (fun x => { x with snaps := x.snaps.filter (fun y => decide (now < y.2.2 + 10 * nsPerSec)) }))

/-! ### Notifications (R466) -/

/-- VOL_SUBSCRIBE (R466): a new filter replaces the old one; start 0 is the next new record. -/
def execVolSubscribe (h : VolHdr) (start : Nat) (ranges : List (Nat × Nat)) (s : State) : Out :=
  s.volRequest h 0x30 0 (natBe 8 start ++ ranges.flatMap (fun r => natBe 2 r.1 ++ natBe 2 r.2)) (fun s x =>
    if 8 < ranges.length then (s, .plain .length 0)
    else
      let from_ := if start = 0 then s.rdN Obj.evtGseqNext .c 0 else start
      (s.updSession x.num (fun x => { x with subscribed := true, ranges := ranges, nextGseq := from_ }), .plain .ok 0))

/-- A record matches a session's filter, and its code is notified. -/
def State.matches_ (s : State) (x : Session) (r : EventRec) : Bool :=
  (x.ranges.isEmpty || x.ranges.any (fun l => decide (l.1 ≤ r.code) && decide (r.code ≤ l.2))) && !s.bit Obj.evtCodeFlags .c r.code 1

/-- Records of one NOTIFY, and unacknowledged records of a session. -/
def notifyMax : Nat := 34
def unackedMax : Nat := 1024

/-- Records that a session has not acknowledged. -/
def Session.unacked (x : Session) : Nat := sumOver x.notices (fun n => n.records.length)

/-- Records are lost to a session: event 0x3F02 once for each run of losses, EVT.STICKY bit 0. -/
def State.loseRecords (s : State) (n first : Nat) : State :=
  match s.session? n with
  | none => s
  | some x =>
    let s := s.updSession n (fun x => { x with losing := true })
    if x.losing then s
    else (s.setBit Obj.evtSticky .c 0 0).raise .c 0x3F02 0 (payloadOf [(32, n), (64, first)])

/-- A NOTIFY leaves for the address of the session's most recent correct request. -/
def State.sendNotice (s : State) (x : Session) (n : Notice) : State :=
  s.deliverTo x.port (.notify x.port x.peer.1 x.peer.2 x.num n.count n.gap n.records)

/-- The records that fit are sent in one NOTIFY, which carries the gap flag after a loss; the others are lost. -/
def State.notify (s : State) (x : Session) (l : List EventRec) : State :=
  let batch := l.take notifyMax
  let room := unackedMax - x.unacked
  let go := batch.take room
  let lost := batch.drop room
  let upto := match batch.getLast? with | some r => r.gseq + 1 | none => s.rdN Obj.evtGseqNext .c 0
  let s := s.updSession x.num (fun x => { x with nextGseq := upto })
  let s := if go.isEmpty then s
    else
      let n : Notice := ⟨x.notifies + 1, x.losing, go, 0, s.time.base⟩
      (s.updSession x.num (fun x => { x with notices := x.notices ++ [n], notifies := n.count, losing := false })).sendNotice x n
  match lost with
  | [] => s
  | r :: _ => s.loseRecords x.num r.gseq

/-- VOL_NOTIFY_SEND (R466): the next matching records of a subscribed session. -/
def execVolNotifySend (n : Nat) (s : State) : Out :=
  match s.session? n with
  | none => .next s
  | some x =>
    when (s.serverUp && x.established && x.subscribed) s
      (s.notify x (s.ramLog.filter (fun r => decide (x.nextGseq ≤ r.gseq) && s.matches_ x r)))

/-- VOL_ACK (R466): records up to a GSEQ are acknowledged. -/
def execVolAck (h : VolHdr) (gseq : Nat) (s : State) : Out :=
  s.volRequest h 0x32 0 (natBe 8 gseq) (fun s x =>
    let left := fun (l : List Notice) =>
      (l.map (fun n => { n with records := n.records.filter (fun r => decide (gseq < r.gseq)) })).filter (fun n => !n.records.isEmpty)
    (s.updSession x.num (fun x => { x with notices := left x.notices }), .plain .ok 0))

/-- NOTIFY_RETRANSMIT (R466): the oldest NOTIFY without an acknowledgement for 100 ms is sent again, up to 5 times; then its
records are lost. -/
def execNotifyRetransmit (n : Nat) (s : State) : Out :=
  match s.session? n with
  | none => .next s
  | some x =>
    match x.notices.find? (fun y => decide (y.last + 100000000 ≤ s.time.base)) with
    | none => .next s
    | some y =>
      when s.serverUp s
        (if y.again < 5 then
           let z := { y with again := y.again + 1, last := s.time.base }
           (s.updSession n (fun x => { x with notices := x.notices.map (fun w => if w.count = y.count then z else w) })).sendNotice x z
         else
           let s := s.updSession n (fun x => { x with notices := x.notices.filter (fun w => w.count != y.count) })
           match y.records with
           | [] => s
           | r :: _ => s.loseRecords n r.gseq)

/-! ### LOG.READ (R465) -/

/-- Up to `count` records of the RAM log from a GSEQ on. -/
def State.ramRead (s : State) (count from_ : Nat) : Reply :=
  let l := (s.ramLog.filter (fun r => decide (from_ ≤ r.gseq))).take (min count 34)
  let old := s.bit Obj.evtStatus .c 0 0 && decide (from_ < s.rdN Obj.evtLogOldest .c 0)
  ⟨.ok, 0, l.length, l.flatMap (·.bytes), old, []⟩

/-- Position of an entry of the persistent log: boot count first. -/
def logPos (boot gseq : Nat) : Nat := boot * 2 ^ 64 + gseq

/-- Up to `count` entries of the persistent log from a position on. -/
def State.persistRead (s : State) (count boot from_ : Nat) : Reply :=
  let p := logPos boot from_
  let l := (s.mram.log.filter (fun e => decide (p ≤ logPos e.1 e.2.gseq))).take (min count 29)
  let old := s.bit Obj.evtStatus .c 0 1 && s.mram.log.head?.any (fun e => decide (p < logPos e.1 e.2.gseq))
  ⟨.ok, 0, l.length, l.flatMap (fun e => natBe 4 e.1 ++ natBe 4 0 ++ e.2.bytes), old, []⟩

/-- VOL_LOG_READ (R465). -/
def execVolLogRead (h : VolHdr) (log count boot from_ : Nat) (s : State) : Out :=
  s.volRequest h 0x33 0 (natBe 1 log ++ natBe 1 0 ++ natBe 2 count ++ natBe 4 boot ++ natBe 8 from_) (fun s _ =>
    match log with
    | 0 => (s, s.ramRead count from_)
    | 1 => (s, s.persistRead count boot from_)
    | _ => (s, .plain .range 0))

end Sys2Proof.Machine
end

