-- ==== Sys2Proof/Machine/Frames.lean ====
section
/-! DEFINITION. The field network ports and the SPI host port (R452, R453). -/

namespace Sys2Proof.Machine

/-- The address of a field network port: VOL.PORT.IPV4, or the link-local one where that is 0 (R452). -/
def State.fieldAddr (s : State) (port : Nat) : Nat :=
  let ip := s.rdN Obj.volPortIpv4 .c port
  if ip ≠ 0 then ip
  else 169 * 2 ^ 24 + 254 * 2 ^ 16 + (1 + s.rdN Obj.idSerial .p 0 % 254) * 2 ^ 8 + (1 + port)

/-- FIELD_NETWORK_LINK_CHANGE (R452, R472). -/
def execFieldNetworkLinkChange (port : Fin 2) (up : Bool) (s : State) : Out :=
  when (s.up .c) s (s.putBit Obj.volPortStatus .c port.val 0 up)

/-- FIELD_NET_FRAME (R452): ARP and ICMP echo are answered, PTP and VOL pass on (their own commands say what follows), fragments and
malformed VOL frames are discarded and counted, the rest is discarded. -/
def execFieldNetFrame (port : Fin 2) (f : FieldFrame) (s : State) : Out :=
  when (s.up .c) s
    (match f with
     | .arp target mac => if target = s.fieldAddr port.val then s.send (.fieldArp port.val target mac) else s
     | .echo dst mac => if dst = s.fieldAddr port.val then s.send (.fieldEcho port.val dst mac) else s
     | .ptp => s
     | .vol wellFormed => if wellFormed then s else s.bump Obj.volCount .p 0
     | .fragment => s.bump Obj.volCount .p 0
     | .other => s)

/-- The SPI host port serves: STRAP0 is 1 (R453, R474). -/
def State.spiOn (s : State) : Bool := s.up .c && s.strap 0

/-- SPI_WRITE_FRAME (R453): refused while the previous frame is being executed; a malformed frame is discarded and counted. -/
def execSpiWriteFrame (wellFormed : Bool) (s : State) : Out :=
  when s.spiOn s
    (if s.vol.spiBusy then { s with vol := { s.vol with spiRefused := true } }
     else
       let s : State := { s with vol := { s.vol with spiRefused := false, spiBusy := wellFormed && s.serverUp } }
       if wellFormed then s else s.bump Obj.volCount .p 0)

/-- SPI_READ_FRAME (R453): the waiting frame, or none. -/
def execSpiReadFrame (s : State) : Out :=
  when s.spiOn s
    (match s.vol.spiWaiting with
     | [] => s.send .spiNone
     | f :: r => { s with vol := { s.vol with spiWaiting := r } }.send f)

/-- The status byte of the SPI host port (R453). -/
def State.spiStatus (s : State) : Nat :=
  (if s.spiIrqLow then 1 else 0) + (if s.vol.spiRefused then 2 else 0) + (if s.serverUp then 4 else 0)

/-- SPI_READ_STATUS (R453). -/
def execSpiReadStatus (s : State) : Out := when s.spiOn s (s.send (.spiStatus s.spiStatus))

end Sys2Proof.Machine
end

