-- ==== Sys2Proof/Machine/Dispatch.lean ====
section
/-! DEFINITION. One arm per command: the meaning that gives it its effect. -/

namespace Sys2Proof.Machine

def exec (i : Instr) (s : State) : Host.Outcome State Fault Refusal :=
  match i with
  | .sequenceFault d rail => Sys2Proof.Machine.execSequenceFault d rail s
  | .porstAssert inRange => Sys2Proof.Machine.execPorstAssert inRange s
  | .porstRelease straps => Sys2Proof.Machine.execPorstRelease straps s
  | .wrstAssert => Sys2Proof.Machine.execWrstAssert s
  | .railWarningCrossing d rail first mv => Sys2Proof.Machine.execRailWarningCrossing d rail first mv s
  | .railRecovery d rail last mv volt => Sys2Proof.Machine.execRailRecovery d rail last mv volt s
  | .brownoutEventReceived d => Sys2Proof.Machine.execBrownoutEventReceived d s
  | .railResetCrossing d rail mv => Sys2Proof.Machine.execRailResetCrossing d rail mv s
  | .mediaDieReturn d b => Sys2Proof.Machine.execMediaDieReturn d b s
  | .sectionWake d => Sys2Proof.Machine.execSectionWake d s
  | .sectionPowerGood d sec => Sys2Proof.Machine.execSectionPowerGood d sec s
  | .sectionWakeTimeout d sec => Sys2Proof.Machine.execSectionWakeTimeout d sec s
  | .thermalSample d readings => Sys2Proof.Machine.execThermalSample d readings s
  | .dieCThermalRestart => Sys2Proof.Machine.execDieCThermalRestart s
  | .dieCWatchdogExpiry => Sys2Proof.Machine.execDieCWatchdogExpiry s
  | .rstRequestRestart d => Sys2Proof.Machine.execRstRequestRestart d s
  | .rstRequestDieReset d => Sys2Proof.Machine.execRstRequestDieReset d s
  | .rstRequestWarmPackage => Sys2Proof.Machine.execRstRequestWarmPackage s
  | .ptpSyncReceived port h rx origin => Sys2Proof.Machine.execPtpSyncReceived port h rx origin s
  | .ptpAnnounceReceived port h a tlv => Sys2Proof.Machine.execPtpAnnounceReceived port h a tlv s
  | .syncLossTimeout => Sys2Proof.Machine.execSyncLossTimeout s
  | .announceReceiptTimeout => Sys2Proof.Machine.execAnnounceReceiptTimeout s
  | .timeStepRequest => Sys2Proof.Machine.execTimeStepRequest s
  | .mediaDieSteering d err => Sys2Proof.Machine.execMediaDieSteering d err s
  | .f10mEdgeTimeout => Sys2Proof.Machine.execF10mEdgeTimeout s
  | .f10mMeasurement within complete => Sys2Proof.Machine.execF10mMeasurement within complete s
  | .ppsEdge t => Sys2Proof.Machine.execPpsEdge t s
  | .ppsLossTimeout => Sys2Proof.Machine.execPpsLossTimeout s
  | .timePpsSecondsSet v => Sys2Proof.Machine.execTimePpsSecondsSet v s
  | .ppsOutputSecond => Sys2Proof.Machine.execPpsOutputSecond s
  | .timeCueEntryWrite d k b => Sys2Proof.Machine.execTimeCueEntryWrite d k b s
  | .timeCueArm d k => Sys2Proof.Machine.execTimeCueArm d k s
  | .timeCueDisarm d k => Sys2Proof.Machine.execTimeCueDisarm d k s
  | .timeCueGroupArm d g => Sys2Proof.Machine.execTimeCueGroupArm d g s
  | .timeCueGroupDisarm d g => Sys2Proof.Machine.execTimeCueGroupDisarm d g s
  | .cueDispatch d => Sys2Proof.Machine.execCueDispatch d s
  | .cueCommit d k => Sys2Proof.Machine.execCueCommit d k s
  | .cueKeyPicture d k => Sys2Proof.Machine.execCueKeyPicture d k s
  | .cueAudioStart d k => Sys2Proof.Machine.execCueAudioStart d k s
  | .cueFlowStart d k => Sys2Proof.Machine.execCueFlowStart d k s
  | .cueFlowStop d k => Sys2Proof.Machine.execCueFlowStop d k s
  | .cueChannelStart d k => Sys2Proof.Machine.execCueChannelStart d k s
  | .cueChannelStop d k => Sys2Proof.Machine.execCueChannelStop d k s
  | .cueFormatApply d k => Sys2Proof.Machine.execCueFormatApply d k s
  | .cueMarker d k => Sys2Proof.Machine.execCueMarker d k s
  | .cueArmGroup d k => Sys2Proof.Machine.execCueArmGroup d k s
  | .cueDisarmGroup d k => Sys2Proof.Machine.execCueDisarmGroup d k s
  | .eventRecordArrival d => Sys2Proof.Machine.execEventRecordArrival d s
  | .overflowMarkerEmit d => Sys2Proof.Machine.execOverflowMarkerEmit d s
  | .quadPllLockLoss d quad => Sys2Proof.Machine.execQuadPllLockLoss d quad s
  | .quadPllRelock d quad => Sys2Proof.Machine.execQuadPllRelock d quad s
  | .portUp d first => Sys2Proof.Machine.execPortUp d first s
  | .portDown d lane cause => Sys2Proof.Machine.execPortDown d lane cause s
  | .fecDegradeCheck d lane symbols corrected uncorrected => Sys2Proof.Machine.execFecDegradeCheck d lane symbols corrected uncorrected s
  | .laneStateRequest d lane req => Sys2Proof.Machine.execLaneStateRequest d lane req s
  | .laneTransitionComplete d lane => Sys2Proof.Machine.execLaneTransitionComplete d lane s
  | .cdrFreeze d lane => Sys2Proof.Machine.execCdrFreeze d lane s
  | .cdrReacquire d lane symbols => Sys2Proof.Machine.execCdrReacquire d lane symbols s
  | .patternCheckerLock d x => Sys2Proof.Machine.execPatternCheckerLock d x s
  | .patternCheckerLoss d lane phase rx => Sys2Proof.Machine.execPatternCheckerLoss d lane phase rx s
  | .laneEqTableWrite t => Sys2Proof.Machine.execLaneEqTableWrite t s
  | .moduleInserted d cage => Sys2Proof.Machine.execModuleInserted d cage s
  | .moduleStatePoll d cage lowPwr info => Sys2Proof.Machine.execModuleStatePoll d cage lowPwr info s
  | .moduleReadyTimeout d cage st => Sys2Proof.Machine.execModuleReadyTimeout d cage st s
  | .moduleReady d cage => Sys2Proof.Machine.execModuleReady d cage s
  | .datapathActivated d cage => Sys2Proof.Machine.execDatapathActivated d cage s
  | .moduleRemoved d cage => Sys2Proof.Machine.execModuleRemoved d cage s
  | .moduleInterrupt d cage flags => Sys2Proof.Machine.execModuleInterrupt d cage flags s
  | .mgmtBusNoAck d cage => Sys2Proof.Machine.execMgmtBusNoAck d cage s
  | .mgmtBusRetry d cage ok => Sys2Proof.Machine.execMgmtBusRetry d cage ok s
  | .monitorPoll d cage delayed temp bias => Sys2Proof.Machine.execMonitorPoll d cage delayed temp bias s
  | .wearMinuteUpdate => Sys2Proof.Machine.execWearMinuteUpdate s
  | .wearHourUpdate => Sys2Proof.Machine.execWearHourUpdate s
  | .wearRecordFlush => Sys2Proof.Machine.execWearRecordFlush s
  | .rxFrame d port f => Sys2Proof.Machine.execRxFrame d port f s
  | .arpUnresolvedTimeout d port ip => Sys2Proof.Machine.execArpUnresolvedTimeout d port ip s
  | .mediaPacketReceived d port => Sys2Proof.Machine.execMediaPacketReceived d port s
  | .legTimeout d flow leg => Sys2Proof.Machine.execLegTimeout d flow leg s
  | .flowSwitchLine d flow => Sys2Proof.Machine.execFlowSwitchLine d flow s
  | .egressSchedule d port => Sys2Proof.Machine.execEgressSchedule d port s
  | .shaperRefill d => Sys2Proof.Machine.execShaperRefill d s
  | .pacedPacketRelease d flow leg => Sys2Proof.Machine.execPacedPacketRelease d flow leg s
  | .flowOutStart d flow => Sys2Proof.Machine.execFlowOutStart d flow s
  | .flowOutStop d flow => Sys2Proof.Machine.execFlowOutStop d flow s
  | .flowControlLanding d flow => Sys2Proof.Machine.execFlowControlLanding d flow s
  | .gateCommit d port => Sys2Proof.Machine.execGateCommit d port s
  | .gateSetStart d port => Sys2Proof.Machine.execGateSetStart d port s
  | .gateEntryBoundary d port => Sys2Proof.Machine.execGateEntryBoundary d port s
  | .loomGroupCommit d group => Sys2Proof.Machine.execLoomGroupCommit d group s
  | .loomGroupCommitPackage group => Sys2Proof.Machine.execLoomGroupCommitPackage group s
  | .loomDstBackupWrite d dst route => Sys2Proof.Machine.execLoomDstBackupWrite d dst route s
  | .dstSwitchLine d dst => Sys2Proof.Machine.execDstSwitchLine d dst s
  | .sourceLossDetect d x => Sys2Proof.Machine.execSourceLossDetect d x s
  | .audioFollowSwitch d dst => Sys2Proof.Machine.execAudioFollowSwitch d dst s
  | .fsyWriterFrameStart d n ts => Sys2Proof.Machine.execFsyWriterFrameStart d n ts s
  | .fsyFrameComplete d n => Sys2Proof.Machine.execFsyFrameComplete d n s
  | .fsyReadDecision d n => Sys2Proof.Machine.execFsyReadDecision d n s
  | .fsyRateMeasurement d n => Sys2Proof.Machine.execFsyRateMeasurement d n s
  | .cnvChainCommit d chain => Sys2Proof.Machine.execCnvChainCommit d chain s
  | .chainConfigApply d chain => Sys2Proof.Machine.execChainConfigApply d chain s
  | .cnvCoefSetWrite d set_ data => Sys2Proof.Machine.execCnvCoefSetWrite d set_ data s
  | .frcOutputPicture d chain => Sys2Proof.Machine.execFrcOutputPicture d chain s
  | .compSurfDataWrite d data => Sys2Proof.Machine.execCompSurfDataWrite d data s
  | .cmpCommit d n => Sys2Proof.Machine.execCmpCommit d n s
  | .scnOutCommit d m => Sys2Proof.Machine.execScnOutCommit d m s
  | .guardTest d out n => Sys2Proof.Machine.execGuardTest d out n s
  | .latch d out n => Sys2Proof.Machine.execLatch d out n s
  | .feltPressStart d n => Sys2Proof.Machine.execFeltPressStart d n s
  | .feltPressComplete d n => Sys2Proof.Machine.execFeltPressComplete d n s
  | .cmpFeltRebuild d n => Sys2Proof.Machine.execCmpFeltRebuild d n s
  | .scnOutFormatApply d m => Sys2Proof.Machine.execScnOutFormatApply d m s
  | .newRasterStart d m => Sys2Proof.Machine.execNewRasterStart d m s
  | .crcRectEnd d rect => Sys2Proof.Machine.execCrcRectEnd d rect s
  | .encChStart d ch => Sys2Proof.Machine.execEncChStart d ch s
  | .encChStop d ch => Sys2Proof.Machine.execEncChStop d ch s
  | .channelControlLanding d ch => Sys2Proof.Machine.execChannelControlLanding d ch s
  | .encChCommit d ch => Sys2Proof.Machine.execEncChCommit d ch s
  | .encConfigApply d ch => Sys2Proof.Machine.execEncConfigApply d ch s
  | .sourceRowEnd d ch => Sys2Proof.Machine.execSourceRowEnd d ch s
  | .motionJobComplete d conv n pic row => Sys2Proof.Machine.execMotionJobComplete d conv n pic row s
  | .pixelJobStart d ch pic row ctus => Sys2Proof.Machine.execPixelJobStart d ch pic row ctus s
  | .entropyJobComplete d ch pic row tile data crcLuma crcChroma => Sys2Proof.Machine.execEntropyJobComplete d ch pic row tile data crcLuma crcChroma s
  | .rowPacketRelease d ch pic row => Sys2Proof.Machine.execRowPacketRelease d ch pic row s
  | .lateRowRelease d ch pic row => Sys2Proof.Machine.execLateRowRelease d ch pic row s
  | .stageWindowMiss d ch stage pic row reached lvl => Sys2Proof.Machine.execStageWindowMiss d ch stage pic row reached lvl s
  | .pictureHrdUpdate d ch => Sys2Proof.Machine.execPictureHrdUpdate d ch s
  | .enginePairLoss d e pix => Sys2Proof.Machine.execEnginePairLoss d e pix s
  | .channelReplacement d ch => Sys2Proof.Machine.execChannelReplacement d ch s
  | .encDeferDataWrite d ch data => Sys2Proof.Machine.execEncDeferDataWrite d ch data s
  | .encDeferPush d ch => Sys2Proof.Machine.execEncDeferPush d ch s
  | .borrowedJobDeadline d conv row reached lvl => Sys2Proof.Machine.execBorrowedJobDeadline d conv row reached lvl s
  | .rcKeyRequest d ch => Sys2Proof.Machine.execRcKeyRequest d ch s
  | .rcGzMapDataWrite d ch data => Sys2Proof.Machine.execRcGzMapDataWrite d ch data s
  | .entChSeiUserSend d ch => Sys2Proof.Machine.execEntChSeiUserSend d ch s
  | .entropyEngineStall d e => Sys2Proof.Machine.execEntropyEngineStall d e s
  | .decoderAccessUnit d ctx => Sys2Proof.Machine.execDecoderAccessUnit d ctx s
  | .decodeAccessUnit d info => Sys2Proof.Machine.execDecodeAccessUnit d info s
  | .decoderPictureOutput d ctx => Sys2Proof.Machine.execDecoderPictureOutput d ctx s
  | .decCtxRestart d ctx => Sys2Proof.Machine.execDecCtxRestart d ctx s
  | .decoderNoOutputTimeout d ctx => Sys2Proof.Machine.execDecoderNoOutputTimeout d ctx s
  | .deferQueueResume d ctx => Sys2Proof.Machine.execDeferQueueResume d ctx s
  | .routerTick d bank => Sys2Proof.Machine.execRouterTick d bank s
  | .tdmFrameSync d port slots => Sys2Proof.Machine.execTdmFrameSync d port slots s
  | .audPortCommit d port => Sys2Proof.Machine.execAudPortCommit d port s
  | .islandUpdate d island => Sys2Proof.Machine.execIslandUpdate d island s
  | .rateGate d port => Sys2Proof.Machine.execRateGate d port s
  | .slaveClockStop d port => Sys2Proof.Machine.execSlaveClockStop d port s
  | .slaveClockReturn d port => Sys2Proof.Machine.execSlaveClockReturn d port s
  | .frameSyncGlitch d port bck => Sys2Proof.Machine.execFrameSyncGlitch d port bck s
  | .audioEgressPacket d flow => Sys2Proof.Machine.execAudioEgressPacket d flow s
  | .audGroupCommit d group => Sys2Proof.Machine.execAudGroupCommit d group s
  | .audPortArm d port => Sys2Proof.Machine.execAudPortArm d port s
  | .audPortDisarm d port => Sys2Proof.Machine.execAudPortDisarm d port s
  | .audStartTrigger d group => Sys2Proof.Machine.execAudStartTrigger d group s
  | .dramRequestEnqueue d r => Sys2Proof.Machine.execDramRequestEnqueue d r s
  | .dramCommandIssue d ch busy => Sys2Proof.Machine.execDramCommandIssue d ch busy s
  | .dramReadReturn d ch single multi => Sys2Proof.Machine.execDramReadReturn d ch single multi s
  | .refreshDue d ch rank => Sys2Proof.Machine.execRefreshDue d ch rank s
  | .mprTemperatureRead d ch rank hot => Sys2Proof.Machine.execMprTemperatureRead d ch rank hot s
  | .activateCounterEpoch d => Sys2Proof.Machine.execActivateCounterEpoch d s
  | .parityAlert d ch => Sys2Proof.Machine.execParityAlert d ch s
  | .parityReplayComplete d ch => Sys2Proof.Machine.execParityReplayComplete d ch s
  | .zqcsCalibration d ch rank => Sys2Proof.Machine.execZqcsCalibration d ch rank s
  | .strobeDriftTrack d ch moves => Sys2Proof.Machine.execStrobeDriftTrack d ch moves s
  | .eyeCheck d ch failed => Sys2Proof.Machine.execEyeCheck d ch failed s
  | .memChRetrain d ch => Sys2Proof.Machine.execMemChRetrain d ch s
  | .inServiceRetrainDone d ch eye => Sys2Proof.Machine.execInServiceRetrainDone d ch eye s
  | .fullRetrainDone d ch eye => Sys2Proof.Machine.execFullRetrainDone d ch eye s
  | .scrubGranule d single multi overwritten => Sys2Proof.Machine.execScrubGranule d single multi overwritten s
  | .scrubPassComplete d => Sys2Proof.Machine.execScrubPassComplete d s
  | .busTransactionIssue d m o => Sys2Proof.Machine.execBusTransactionIssue d m o s
  | .semaphoreRead d m ofs len => Sys2Proof.Machine.execSemaphoreRead d m ofs len s
  | .semaphoreWrite d m ofs data => Sys2Proof.Machine.execSemaphoreWrite d m ofs data s
  | .masterReset d m => Sys2Proof.Machine.execMasterReset d m s
  | .masterResetAck d m => Sys2Proof.Machine.execMasterResetAck d m s
  | .resetDrainOverrun d m => Sys2Proof.Machine.execResetDrainOverrun d m s
  | .busMasterReset d m => Sys2Proof.Machine.execBusMasterReset d m s
  | .queuePush d p => Sys2Proof.Machine.execQueuePush d p s
  | .queuePop d p => Sys2Proof.Machine.execQueuePop d p s
  | .packetCompleteCompare d => Sys2Proof.Machine.execPacketCompleteCompare d s
  | .compareRecordReceived d r => Sys2Proof.Machine.execCompareRecordReceived d r s
  | .compareTimeout d => Sys2Proof.Machine.execCompareTimeout d s
  | .decisionRecordReceived d r => Sys2Proof.Machine.execDecisionRecordReceived d r s
  | .resynchronization => Sys2Proof.Machine.execResynchronization s
  | .heartbeatSend d => Sys2Proof.Machine.execHeartbeatSend d s
  | .heartbeatDeadline d bridge c => Sys2Proof.Machine.execHeartbeatDeadline d bridge c s
  | .outHeartbeatReceived d => Sys2Proof.Machine.execOutHeartbeatReceived d s
  | .splitEntry => Sys2Proof.Machine.execSplitEntry s
  | .splitRejoin => Sys2Proof.Machine.execSplitRejoin s
  | .slvRejoin d => Sys2Proof.Machine.execSlvRejoin d s
  | .returnFromOut d => Sys2Proof.Machine.execReturnFromOut d s
  | .pairedEntry => Sys2Proof.Machine.execPairedEntry s
  | .bistRotation d bad => Sys2Proof.Machine.execBistRotation d bad s
  | .helloSend => Sys2Proof.Machine.execHelloSend s
  | .helloReceived d quad p peerDie peerQuad => Sys2Proof.Machine.execHelloReceived d quad p peerDie peerQuad s
  | .linkHelloTimeout d quad => Sys2Proof.Machine.execLinkHelloTimeout d quad s
  | .linkStateReceived d quad m => Sys2Proof.Machine.execLinkStateReceived d quad m s
  | .rootElection => Sys2Proof.Machine.execRootElection s
  | .idAssignReceived serial id => Sys2Proof.Machine.execIdAssignReceived serial id s
  | .allocReceived d quad m => Sys2Proof.Machine.execAllocReceived d quad m s
  | .allocAckReceived d quad m => Sys2Proof.Machine.execAllocAckReceived d quad m s
  | .allocNackReceived d quad m => Sys2Proof.Machine.execAllocNackReceived d quad m s
  | .freeReceived d quad m => Sys2Proof.Machine.execFreeReceived d quad m s
  | .twillSyncSend => Sys2Proof.Machine.execTwillSyncSend s
  | .twillSyncReceived d quad m => Sys2Proof.Machine.execTwillSyncReceived d quad m s
  | .linkDelayMeasurement d quad trip turnaround => Sys2Proof.Machine.execLinkDelayMeasurement d quad trip turnaround s
  | .delayRequestReceived d quad t turnaround => Sys2Proof.Machine.execDelayRequestReceived d quad t turnaround s
  | .mediaFlitReceived d quad f => Sys2Proof.Machine.execMediaFlitReceived d quad f s
  | .controlFlitReceived d quad kind3 crcOk m => Sys2Proof.Machine.execControlFlitReceived d quad kind3 crcOk m s
  | .channelReroute d ch => Sys2Proof.Machine.execChannelReroute d ch s
  | .linkPark d quad => Sys2Proof.Machine.execLinkPark d quad s
  | .parkedLinkWake d quad answered => Sys2Proof.Machine.execParkedLinkWake d quad answered s
  | .idHoldExpiry => Sys2Proof.Machine.execIdHoldExpiry s
  | .ucieLinkDown d => Sys2Proof.Machine.execUcieLinkDown d s
  | .ucieRetrain d => Sys2Proof.Machine.execUcieRetrain d s
  | .dieCReattach d => Sys2Proof.Machine.execDieCReattach d s
  | .volOpen h slot nonce => Sys2Proof.Machine.execVolOpen h slot nonce s
  | .volClose h => Sys2Proof.Machine.execVolClose h s
  | .volNop h => Sys2Proof.Machine.execVolNop h s
  | .volRead h items => Sys2Proof.Machine.execVolRead h items s
  | .volWrite h items => Sys2Proof.Machine.execVolWrite h items s
  | .volDescribe h items => Sys2Proof.Machine.execVolDescribe h items s
  | .volList h die index sub => Sys2Proof.Machine.execVolList h die index sub s
  | .volClearCount h items => Sys2Proof.Machine.execVolClearCount h items s
  | .volBulkBegin h it total => Sys2Proof.Machine.execVolBulkBegin h it total s
  | .volBulkData h id offset data => Sys2Proof.Machine.execVolBulkData h id offset data s
  | .volBulkEnd h id => Sys2Proof.Machine.execVolBulkEnd h id s
  | .volBulkRead h it offset len => Sys2Proof.Machine.execVolBulkRead h it offset len s
  | .volSubscribe h start ranges => Sys2Proof.Machine.execVolSubscribe h start ranges s
  | .volNotifySend n => Sys2Proof.Machine.execVolNotifySend n s
  | .volAck h gseq => Sys2Proof.Machine.execVolAck h gseq s
  | .volLogRead h log count boot from_ => Sys2Proof.Machine.execVolLogRead h log count boot from_ s
  | .notifyRetransmit n => Sys2Proof.Machine.execNotifyRetransmit n s
  | .sessionEstablishTimeout n => Sys2Proof.Machine.execSessionEstablishTimeout n s
  | .sessionTimeout n => Sys2Proof.Machine.execSessionTimeout n s
  | .bulkTransferTimeout n => Sys2Proof.Machine.execBulkTransferTimeout n s
  | .bulkSnapshotExpiry n => Sys2Proof.Machine.execBulkSnapshotExpiry n s
  | .spiWriteFrame wellFormed => Sys2Proof.Machine.execSpiWriteFrame wellFormed s
  | .spiReadFrame => Sys2Proof.Machine.execSpiReadFrame s
  | .spiReadStatus => Sys2Proof.Machine.execSpiReadStatus s
  | .fieldNetFrame port f => Sys2Proof.Machine.execFieldNetFrame port f s
  | .volImageDataWrite data => Sys2Proof.Machine.execVolImageDataWrite data s
  | .volImageApply => Sys2Proof.Machine.execVolImageApply s
  | .persistentCountFlush => Sys2Proof.Machine.execPersistentCountFlush s
  | .lcsAdvanceProvisioned serial => Sys2Proof.Machine.execLcsAdvanceProvisioned serial s
  | .lcsAdvanceDeployed serial => Sys2Proof.Machine.execLcsAdvanceDeployed serial s
  | .lcsAdvanceReturn serial => Sys2Proof.Machine.execLcsAdvanceReturn serial s
  | .lcsDebugToken token => Sys2Proof.Machine.execLcsDebugToken token s
  | .debugTokenExpiry => Sys2Proof.Machine.execDebugTokenExpiry s
  | .fwImageDataWrite data => Sys2Proof.Machine.execFwImageDataWrite data s
  | .fwImageCommit => Sys2Proof.Machine.execFwImageCommit s
  | .diagWinRead d => Sys2Proof.Machine.execDiagWinRead d s
  | .diagWinWrite d data => Sys2Proof.Machine.execDiagWinWrite d data s
  | .registerWrite it => Sys2Proof.Machine.execRegisterWrite it s
  | .bootStart r => Sys2Proof.Machine.execBootStart r s
  | .bootFailure step cause => Sys2Proof.Machine.execBootFailure step cause s
  | .bootEnd ms => Sys2Proof.Machine.execBootEnd ms s
  | .bootTargetRetry => Sys2Proof.Machine.execBootTargetRetry s
  | .modeRequestStandby => Sys2Proof.Machine.execModeRequestStandby s
  | .modeRequestConfigure => Sys2Proof.Machine.execModeRequestConfigure s
  | .modeRequestService => Sys2Proof.Machine.execModeRequestService s
  | .modeRequestSelvedge => Sys2Proof.Machine.execModeRequestSelvedge s
  | .modeRequestTest => Sys2Proof.Machine.execModeRequestTest s
  | .stopRuleComplete => Sys2Proof.Machine.execStopRuleComplete s
  | .stopRuleCut => Sys2Proof.Machine.execStopRuleCut s
  | .recoveryEntry => Sys2Proof.Machine.execRecoveryEntry s
  | .recoveryEnd => Sys2Proof.Machine.execRecoveryEnd s
  | .testBistSection d sec => Sys2Proof.Machine.execTestBistSection d sec s
  | .bistComplete d bad => Sys2Proof.Machine.execBistComplete d bad s
  | .testCrcFrames d n => Sys2Proof.Machine.execTestCrcFrames d n s
  | .crcRunEnd d => Sys2Proof.Machine.execCrcRunEnd d s
  | .injectSingleBitEcc d ch count => Sys2Proof.Machine.execInjectSingleBitEcc d ch count s
  | .injectDoubleBitEcc d ch count => Sys2Proof.Machine.execInjectDoubleBitEcc d ch count s
  | .injectCaParity d ch count => Sys2Proof.Machine.execInjectCaParity d ch count s
  | .injectBusParity d m count => Sys2Proof.Machine.execInjectBusParity d m count s
  | .injectQueueParity d queue count => Sys2Proof.Machine.execInjectQueueParity d queue count s
  | .injectSymbolErrors d lane count => Sys2Proof.Machine.execInjectSymbolErrors d lane count s
  | .injectUncorrectable d lane count => Sys2Proof.Machine.execInjectUncorrectable d lane count s
  | .ptpSyncTransmit port => Sys2Proof.Machine.execPtpSyncTransmit port s
  | .ptpAnnounceTransmit port => Sys2Proof.Machine.execPtpAnnounceTransmit port s
  | .ptpDelayReqTransmit port => Sys2Proof.Machine.execPtpDelayReqTransmit port s
  | .ptpDelayReqReceived port h rx => Sys2Proof.Machine.execPtpDelayReqReceived port h rx s
  | .ptpDelayRespReceived port h rx => Sys2Proof.Machine.execPtpDelayRespReceived port h rx s
  | .ptpFollowUpReceived port h origin => Sys2Proof.Machine.execPtpFollowUpReceived port h origin s
  | .dieBridgeDown => Sys2Proof.Machine.execDieBridgeDown s
  | .dieBridgeRestored => Sys2Proof.Machine.execDieBridgeRestored s
  | .fieldNetworkLinkChange port up => Sys2Proof.Machine.execFieldNetworkLinkChange port up s
  | .alertNRelease d ch => Sys2Proof.Machine.execAlertNRelease d ch s
  | .jtagTapAccess ins => Sys2Proof.Machine.execJtagTapAccess ins s
  | .orphanCompareRecordExpiry d => Sys2Proof.Machine.execOrphanCompareRecordExpiry d s
  | .borrowedJobRelease d conv row => Sys2Proof.Machine.execBorrowedJobRelease d conv row s

end Sys2Proof.Machine
end

