-- ==== Sys2Proof/Machine/Idle.lean ====
section
/-! DEFINITION. What the part does when no command waits: its clocks count (R59) and a running erasure of the return
sequence ends (R469). -/

namespace Sys2Proof.Machine

/-- The time base counts one nanosecond of its frequency source; in HOLDOVER and STEP-PENDING by the frequency ratio that the servo held
at its last update (R61, R62). In the other states the servo's corrections at each Sync carry the ratio (assumption 19). -/
def State.countBase (s : State) : State :=
  if s.servo = 3 ∨ s.servo = 5 then
    let acc := s.time.fraction + s.time.ratio
    { s with time := { s.time with base := s.time.base + (1 + acc / (nsPerSec : Nat)).toNat, fraction := acc % (nsPerSec : Nat) } }
  else { s with time := { s.time with base := s.time.base + 1 } }

/-- The package time base and the time counters of the running media dies count one nanosecond (R59); so does C_AO's timer of a
boot failure (R54). -/
def State.countTime (s : State) : State :=
  let s := if s.up .c then s.countBase else s
  let s := { s with boot := { s.boot with faultLeft := s.boot.faultLeft - 1 } }
  mdies.foldl (fun (s : State) d =>
    if s.up d.pdie then s.updMd d (fun m => { m with time := { m.time with ctr := m.time.ctr + 1 } }) else s) s

/-- An idle moment (assumption 7): time passes, and a read-verify pass over the dictionary image in MRAM, which a dip on Die C
scheduled, runs; a pass writes nothing (R42). Commits whose instant has come are made (R152). -/
def State.idle (s : State) : State :=
  let s := s.countTime.runDue
  let s := if s.up .c then s.updPower .c (fun p => { p with scrubDue := false }) else s
  if s.sec.erasing && s.up .c then s.finishReturn else s

end Sys2Proof.Machine
end

