-- ==== Sys2Proof/WellFormed.lean ====
section
/-! DEFINITION. Which commands are well formed: unit numbers that exist and values that fit the fields the spec gives them.
A command that is not well formed is one that no port of the part can deliver. -/

namespace Sys2Proof

/-- Rails of a die (R37). -/
def railsOf (d : PDie) : Nat := match d with | .c => 5 | _ => 7

/-- Temperature sensors of a die (R48). -/
def sensorsOf (d : PDie) : Nat := match d with | .c => 4 | _ => 12

/-- Header fields fit their widths, and the tag has its 16 bytes where the frame is authenticated (R454, R458). -/
def VolHdr.wf (h : VolHdr) : Bool :=
  decide (h.ip < 2 ^ 32) && decide (h.udp < 2 ^ 16) && decide (h.session < 2 ^ 32) && decide (h.seq < 2 ^ 64)
    && decide (h.boot < 2 ^ 32) && decide (h.tag.length = if h.auth then 16 else 0)

/-- Item fields fit their widths (R456). -/
def VolItem.wf (it : VolItem) : Bool :=
  decide (it.die < 2 ^ 8) && decide (it.index < 2 ^ 16) && decide (it.sub < 2 ^ 8) && decide (it.inst < 2 ^ 16)
    && decide (it.count < 2 ^ 16)

/-- Fields of a packet header fit their widths (R122, R123). -/
def Rtp.wf (r : Rtp) : Bool :=
  decide (r.pt < 2 ^ 7) && decide (r.ssrc < 2 ^ 32) && decide (r.seq < 2 ^ 16) && decide (r.ts < 2 ^ 32)

/-- Addresses fit their widths (R122, R126). -/
def Udp.wf (u : Udp) : Bool :=
  decide (u.vlan < 2 ^ 16) && decide (u.src < 2 ^ 32) && decide (u.dst < 2 ^ 32) && decide (u.port < 2 ^ 16) && u.rtp.wf

/-- Addresses in a frame fit their widths (R120, R121). -/
def Body.wf : Body → Bool
  | .pause => true
  | .ipv6 => true
  | .arpRequest target ip mac => decide (target < 2 ^ 32) && decide (ip < 2 ^ 32) && decide (mac < 2 ^ 48)
  | .arpReply ip mac => decide (ip < 2 ^ 32) && decide (mac < 2 ^ 48)
  | .icmpEcho dst src mac => decide (dst < 2 ^ 32) && decide (src < 2 ^ 32) && decide (mac < 2 ^ 48)
  | .igmpQuery => true
  | .ptp => true
  | .udp u => u.wf
  | .other => true

/-- A received frame (R120). -/
def Frame.wf (f : Frame) : Bool := f.body.wf

/-- What a module's memory map can say (R111, R114). -/
def ModuleInfo.wf (m : ModuleInfo) : Bool :=
  decide (m.revision < 2 ^ 8) && decide (m.identifier < 2 ^ 8) && decide (m.mediaType < 2 ^ 8) && decide (m.maxPower < 2 ^ 8)

/-- A piece of a request carries the bytes it says (R359). -/
def MemReq.wf (r : MemReq) : Bool := decide (r.data.length = if r.write then r.len else 0)

/-- A transaction has an 8-bit ID and carries the bytes it says (R386). -/
def BusOp.wf (o : BusOp) : Bool := decide (o.id < 2 ^ 8) && decide (o.data.length = if o.write then o.len else 0)

/-- A compare record (R405). -/
def CmpRec.wf (r : CmpRec) : Bool := decide (r.flow < 2 ^ 12) && decide (r.seq < 2 ^ 16) && decide (r.crc < 2 ^ 32)
  && decide (r.len < 2 ^ 16) && decide (r.ts < 2 ^ 32)

/-- A media flit's header fields and its 60 bytes (R422). -/
def TwlFlit.wf (f : TwlFlit) : Bool := decide (f.slot < 2 ^ 6) && decide (f.content < 2 ^ 4) && decide (f.seq < 2 ^ 16) && decide (f.data.length = 60)

/-- Package description (R424). -/
def TwlPkg.wf (p : TwlPkg) : Bool := decide (p.serial < 2 ^ 64) && decide (p.id < 2 ^ 8) && decide (p.pref < 2 ^ 8) && decide (p.fw < 2 ^ 32)
  && decide (p.ref < 2 ^ 16)

/-- Header of a control message (R423). -/
def TwlMsg.wf (m : TwlMsg) : Bool := decide (m.src < 2 ^ 8) && decide (m.dst < 2 ^ 8) && decide (m.hops < 2 ^ 8) && decide (m.gen < 2 ^ 32)

/-- An Announce message's fields fit their widths (R60). -/
def Announce.wf (a : Announce) : Bool :=
  decide (a.identity < 2 ^ 64) && decide (a.priority1 < 2 ^ 8) && decide (a.clockClass < 2 ^ 8) && decide (a.accuracy < 2 ^ 8)
    && decide (a.variance < 2 ^ 16) && decide (a.priority2 < 2 ^ 8) && decide (a.steps < 2 ^ 16)

/-- A command is well formed. -/
def Instr.wf : Instr → Bool
  | .sequenceFault d rail => decide (rail < railsOf d)
  | .porstAssert _ => true
  | .wrstAssert => true
  | .railWarningCrossing d rail _ mv => decide (rail < railsOf d) && decide (mv < 2 ^ 16)
  | .railRecovery d rail _ mv volt => decide (rail < railsOf d) && decide (mv < 2 ^ 16) && decide (volt < 2 ^ 16)
  | .brownoutEventReceived _ => true
  | .railResetCrossing d rail mv => decide (rail < railsOf d) && decide (mv < 2 ^ 16)
  | .sectionWake _ => true
  | .sectionPowerGood _ sec => decide (sec < 30)
  | .sectionWakeTimeout _ sec => decide (sec < 30)
  | .thermalSample d readings => decide (readings.length = sensorsOf d)
  | .dieCThermalRestart => true
  | .dieCWatchdogExpiry => true
  | .rstRequestRestart _ => true
  | .rstRequestDieReset _ => true
  | .rstRequestWarmPackage => true
  | .cdrFreeze _ _ => true
  | .cdrReacquire _ _ _ => true
  | .fecDegradeCheck _ _ _ _ _ => true
  | .patternCheckerLock _ _ => true
  | .patternCheckerLoss _ _ _ _ => true
  | .quadPllRelock _ _ => true
  | .laneEqTableWrite _ => true
  | .quadPllLockLoss _ _ => true
  | .portUp _ _ => true
  | .portDown _ _ cause => decide (cause < 2 ^ 16)
  | .laneStateRequest _ _ _ => true
  | .laneTransitionComplete _ _ => true
  | .moduleInserted _ _ => true
  | .moduleStatePoll _ _ _ info => info.wf
  | .moduleReadyTimeout _ _ st => decide (st < 2 ^ 8)
  | .moduleReady _ _ => true
  | .datapathActivated _ _ => true
  | .moduleRemoved _ _ => true
  | .moduleInterrupt _ _ _ => true
  | .mgmtBusNoAck _ _ => true
  | .mgmtBusRetry _ _ _ => true
  | .monitorPoll _ _ _ _ _ => true
  | .wearMinuteUpdate => true
  | .wearHourUpdate => true
  | .wearRecordFlush => true
  | .flowOutStart _ _ => true
  | .flowOutStop _ _ => true
  | .rxFrame _ _ f => f.wf
  | .arpUnresolvedTimeout _ _ ip => decide (ip < 2 ^ 32)
  | .egressSchedule _ _ => true
  | .shaperRefill _ => true
  | .pacedPacketRelease _ _ _ => true
  | .flowControlLanding _ _ => true
  | .gateCommit _ _ => true
  | .gateSetStart _ _ => true
  | .gateEntryBoundary _ _ => true
  | .loomGroupCommit _ _ => true
  | .loomGroupCommitPackage _ => true
  | .loomDstBackupWrite _ _ route => decide (route < 2 ^ 32)
  | .dstSwitchLine _ _ => true
  | .sourceLossDetect _ _ => true
  | .dieBridgeDown => true
  | .dieBridgeRestored => true
  | .fsyWriterFrameStart _ _ _ => true
  | .fsyFrameComplete _ _ => true
  | .fsyRateMeasurement _ _ => true
  | .fsyReadDecision _ _ => true
  | .helloSend => true
  | .helloReceived _ _ p peerDie peerQuad => p.wf && decide (peerDie < 2) && decide (peerQuad < 8)
  | .linkHelloTimeout _ _ => true
  | .linkStateReceived _ _ m => m.wf
  | .rootElection => true
  | .idAssignReceived serial id => decide (serial < 2 ^ 64) && decide (id < 2 ^ 8)
  | .idHoldExpiry => true
  | .allocReceived _ _ m => m.wf
  | .allocAckReceived _ _ m => m.wf
  | .allocNackReceived _ _ m => m.wf
  | .freeReceived _ _ m => m.wf
  | .channelReroute _ _ => true
  | .linkDelayMeasurement _ _ _ _ => true
  | .delayRequestReceived _ _ _ _ => true
  | .linkPark _ _ => true
  | .parkedLinkWake _ _ _ => true
  | .twillSyncSend => true
  | .mediaFlitReceived _ _ f => f.wf
  | .controlFlitReceived _ _ _ _ m => m.wf
  | .twillSyncReceived _ _ m => m.wf
  | .cnvChainCommit _ _ => true
  | .chainConfigApply _ _ => true
  | .cnvCoefSetWrite _ _ _ => true
  | .frcOutputPicture _ _ => true
  | .compSurfDataWrite _ _ => true
  | .cmpCommit _ _ => true
  | .scnOutCommit _ _ => true
  | .guardTest _ out n => (out || decide (n.val < 8))
  | .latch _ out n => (out || decide (n.val < 8))
  | .feltPressStart _ _ => true
  | .feltPressComplete _ _ => true
  | .cmpFeltRebuild _ _ => true
  | .scnOutFormatApply _ _ => true
  | .newRasterStart _ _ => true
  | .crcRectEnd _ _ => true
  | .encChCommit _ _ => true
  | .encChStart _ _ => true
  | .encChStop _ _ => true
  | .channelControlLanding _ _ => true
  | .encConfigApply _ _ => true
  | .sourceRowEnd _ _ => true
  | .motionJobComplete _ _ _ _ _ => true
  | .pixelJobStart _ _ _ _ _ => true
  | .entropyJobComplete _ _ _ _ _ _ _ _ => true
  | .rowPacketRelease _ _ _ _ => true
  | .lateRowRelease _ _ _ _ => true
  | .stageWindowMiss _ _ _ _ _ _ _ => true
  | .pictureHrdUpdate _ _ => true
  | .channelReplacement _ _ => true
  | .encDeferDataWrite _ _ _ => true
  | .encDeferPush _ _ => true
  | .borrowedJobDeadline _ _ _ _ _ => true
  | .borrowedJobRelease _ _ _ => true
  | .rcKeyRequest _ _ => true
  | .rcGzMapDataWrite _ _ _ => true
  | .entChSeiUserSend _ _ => true
  | .decoderAccessUnit _ _ => true
  | .decodeAccessUnit _ _ => true
  | .decoderPictureOutput _ _ => true
  | .decCtxRestart _ _ => true
  | .decoderNoOutputTimeout _ _ => true
  | .deferQueueResume _ _ => true
  | .routerTick _ _ => true
  | .tdmFrameSync _ _ _ => true
  | .audPortCommit _ _ => true
  | .islandUpdate _ _ => true
  | .rateGate _ _ => true
  | .slaveClockStop _ _ => true
  | .slaveClockReturn _ _ => true
  | .frameSyncGlitch _ _ _ => true
  | .audioEgressPacket _ _ => true
  | .audGroupCommit _ _ => true
  | .audPortArm _ _ => true
  | .audPortDisarm _ _ => true
  | .audStartTrigger _ _ => true
  | .audioFollowSwitch _ _ => true
  | .mediaPacketReceived _ _ => true
  | .legTimeout _ _ _ => true
  | .flowSwitchLine _ _ => true
  | .queuePush _ _ => true
  | .queuePop _ _ => true
  | .recoveryEntry => true
  | .recoveryEnd => true
  | .enginePairLoss _ _ _ => true
  | .entropyEngineStall _ _ => true
  | .dramRequestEnqueue _ r => r.wf
  | .dramCommandIssue _ _ _ => true
  | .dramReadReturn _ _ _ _ => true
  | .refreshDue _ _ _ => true
  | .mprTemperatureRead _ _ _ _ => true
  | .activateCounterEpoch _ => true
  | .zqcsCalibration _ _ _ => true
  | .parityAlert _ _ => true
  | .alertNRelease _ _ => true
  | .parityReplayComplete _ _ => true
  | .scrubGranule _ _ _ _ => true
  | .scrubPassComplete _ => true
  | .strobeDriftTrack _ _ _ => true
  | .eyeCheck _ _ _ => true
  | .memChRetrain _ _ => true
  | .inServiceRetrainDone _ _ _ => true
  | .fullRetrainDone _ _ _ => true
  | .busTransactionIssue _ _ o => o.wf
  | .semaphoreRead _ _ _ len => decide (len < 2 ^ 32)
  | .semaphoreWrite _ _ _ _ => true
  | .masterReset _ _ => true
  | .masterResetAck _ _ => true
  | .resetDrainOverrun _ _ => true
  | .busMasterReset _ _ => true
  | .packetCompleteCompare _ => true
  | .compareRecordReceived _ r => r.wf
  | .compareTimeout _ => true
  | .orphanCompareRecordExpiry _ => true
  | .decisionRecordReceived _ _ => true
  | .resynchronization => true
  | .heartbeatSend _ => true
  | .heartbeatDeadline _ _ _ => true
  | .outHeartbeatReceived _ => true
  | .splitEntry => true
  | .splitRejoin => true
  | .pairedEntry => true
  | .bistRotation _ _ => true
  | .ptpSyncReceived _ _ _ _ => true
  | .ptpAnnounceReceived _ _ a _ => a.wf
  | .syncLossTimeout => true
  | .announceReceiptTimeout => true
  | .timeStepRequest => true
  | .mediaDieSteering _ _ => true
  | .f10mEdgeTimeout => true
  | .f10mMeasurement _ _ => true
  | .ppsEdge _ => true
  | .ppsLossTimeout => true
  | .timePpsSecondsSet _ => true
  | .ppsOutputSecond => true
  | .ptpSyncTransmit _ => true
  | .ptpAnnounceTransmit _ => true
  | .ptpDelayReqTransmit _ => true
  | .ptpDelayReqReceived _ _ _ => true
  | .ptpDelayRespReceived _ _ _ => true
  | .ptpFollowUpReceived _ _ _ => true
  | .timeCueEntryWrite _ _ _ => true
  | .timeCueArm _ _ => true
  | .timeCueDisarm _ _ => true
  | .timeCueGroupArm _ _ => true
  | .timeCueGroupDisarm _ _ => true
  | .cueDispatch _ => true
  | .cueCommit _ _ => true
  | .cueKeyPicture _ _ => true
  | .cueAudioStart _ _ => true
  | .cueFlowStart _ _ => true
  | .cueFlowStop _ _ => true
  | .cueChannelStart _ _ => true
  | .cueChannelStop _ _ => true
  | .cueFormatApply _ _ => true
  | .cueMarker _ _ => true
  | .cueArmGroup _ _ => true
  | .cueDisarmGroup _ _ => true
  | .returnFromOut _ => true
  | .slvRejoin _ => true
  | .persistentCountFlush => true
  | .porstRelease _ => true
  | .bootStart _ => true
  | .bootFailure _ _ => true
  | .mediaDieReturn _ _ => true
  | .ucieLinkDown _ => true
  | .ucieRetrain _ => true
  | .dieCReattach _ => true
  | .eventRecordArrival _ => true
  | .overflowMarkerEmit _ => true
  | .bootEnd ms => decide (ms < 2 ^ 32)
  | .bootTargetRetry => true
  | .modeRequestStandby => true
  | .modeRequestConfigure => true
  | .modeRequestService => true
  | .modeRequestSelvedge => true
  | .modeRequestTest => true
  | .stopRuleComplete => true
  | .stopRuleCut => true
  | .testBistSection _ sec => decide (sec < 2 ^ 8)
  | .bistComplete _ _ => true
  | .testCrcFrames _ _ => true
  | .crcRunEnd _ => true
  | .injectSingleBitEcc _ _ count => decide (count < 2 ^ 16)
  | .injectDoubleBitEcc _ _ count => decide (count < 2 ^ 16)
  | .injectCaParity _ _ count => decide (count < 2 ^ 16)
  | .injectBusParity _ _ count => decide (count < 2 ^ 16)
  | .injectQueueParity _ _ count => decide (count < 2 ^ 16)
  | .injectSymbolErrors _ _ count => decide (count < 2 ^ 16)
  | .injectUncorrectable _ _ count => decide (count < 2 ^ 16)
  | .lcsAdvanceProvisioned serial => decide (serial < 2 ^ 64)
  | .lcsAdvanceDeployed serial => decide (serial < 2 ^ 64)
  | .lcsAdvanceReturn serial => decide (serial < 2 ^ 64)
  | .lcsDebugToken _ => true
  | .debugTokenExpiry => true
  | .jtagTapAccess _ => true
  | .fwImageDataWrite _ => true
  | .fwImageCommit => true
  | .diagWinRead _ => true
  | .diagWinWrite _ _ => true
  | .volImageDataWrite _ => true
  | .volImageApply => true
  | .registerWrite it => it.wf
  | .volOpen h slot nonce => h.wf && decide (slot < 2 ^ 8) && decide (nonce.length = 16)
  | .volClose h => h.wf
  | .volNop h => h.wf
  | .sessionEstablishTimeout _ => true
  | .sessionTimeout _ => true
  | .volRead h items => h.wf && items.all VolItem.wf
  | .volWrite h items => h.wf && items.all VolItem.wf
  | .volDescribe h items => h.wf && items.all VolItem.wf
  | .volList h die index sub => h.wf && decide (die < 2 ^ 8) && decide (index < 2 ^ 16) && decide (sub < 2 ^ 8)
  | .volClearCount h items => h.wf && items.all VolItem.wf
  | .volBulkBegin h it total => h.wf && it.wf && decide (total < 2 ^ 32)
  | .volBulkData h id offset _ => h.wf && decide (id < 2 ^ 32) && decide (offset < 2 ^ 32)
  | .volBulkEnd h id => h.wf && decide (id < 2 ^ 32)
  | .volBulkRead h it offset len => h.wf && it.wf && decide (offset < 2 ^ 32) && decide (len < 2 ^ 32)
  | .bulkTransferTimeout _ => true
  | .bulkSnapshotExpiry _ => true
  | .volSubscribe h start ranges => h.wf && decide (start < 2 ^ 64) && ranges.all (fun r => decide (r.1 < 2 ^ 16) && decide (r.2 < 2 ^ 16))
  | .volNotifySend _ => true
  | .volAck h gseq => h.wf && decide (gseq < 2 ^ 64)
  | .notifyRetransmit _ => true
  | .volLogRead h log count boot from_ => h.wf && decide (log < 2 ^ 8) && decide (count < 2 ^ 16) && decide (boot < 2 ^ 32) && decide (from_ < 2 ^ 64)
  | .spiWriteFrame _ => true
  | .spiReadFrame => true
  | .spiReadStatus => true
  | .fieldNetFrame _ _ => true
  | .fieldNetworkLinkChange _ _ => true

/-- A command is well formed. -/
abbrev Instr.WellFormed (c : Instr) : Prop := c.wf = true

end Sys2Proof
end

