-- ==== Sys2Proof/Safety.lean ====
section
/-! DEFINITION. What counts as a good state and a safe step, in the terms the statements use. -/

namespace Sys2Proof.Machine

/-- The dictionary's maps and their copies in MRAM are in canonical form. -/
def State.dictWf (s : State) : Bool :=
  mapWf s.objs && mapWf s.blobs && mapWf s.mram.objs && mapWf s.mram.blobs

/-- A byte memory of the part: the DRAM of a media die, the staging area, the inactive firmware slot. -/
def State.memoriesWf (s : State) : Bool :=
  s.dieA.ram.mem.wf && s.dieB.ram.mem.wf && s.vol.staging.wf && s.sec.image.wf

/-- A state in canonical form. -/
def State.wf (s : State) : Bool := s.dictWf && s.memoriesWf

/-- Two states have the same numeric objects but for those at some addresses. -/
def State.agree (s t : State) (l : List ObjAddr) : Prop := ∀ a, a ∉ l → mapGet t.objs a = mapGet s.objs a

/-- Two states have the same STRING and DOMAIN objects but for those at some addresses. -/
def State.agreeBytes (s t : State) (l : List ObjAddr) : Prop := ∀ a, a ∉ l → mapGet t.blobs a = mapGet s.blobs a

/-- Objects that raising an event on a die writes: its sequence number and drop count, and on Die C those of the logs (R87, R89, R464). -/
def eventAddrs (d : PDie) : List ObjAddr :=
  match d with
  | .c => [Obj.evtDseqNext.addr .c 0, Obj.evtGseqNext.addr .c 0, Obj.evtCount.addr .c 0, Obj.evtStatus.addr .c 0,
           Obj.evtLogOldest.addr .c 0]
  | _ => [Obj.evtDseqNext.addr d.die 0, Obj.evtDropCount.addr d.die 0]

/-- Nothing of a state changes but its numeric objects. -/
def State.onlyObjs (s t : State) : Prop := t = { s with objs := t.objs }

/-- Nothing of a state changes but its objects, the event logs, and on the media dies their arbiters and what SELVEDGE notes of
their errors. -/
def State.onlyObjsAndEvents (s t : State) : Prop :=
  t = { s with objs := t.objs, blobs := t.blobs, mram := { s.mram with log := t.mram.log }, ramLog := t.ramLog,
               dieA := { s.dieA with arb := t.dieA.arb, slv := t.dieA.slv },
               dieB := { s.dieB with arb := t.dieB.arb, slv := t.dieB.slv } }

/-- A media die's arbiter takes records: its buffer has room and no loss is pending (R89). -/
def State.arbiterOpen (s : State) (d : MDie) : Bool := decide ((s.md d).arb.buf.length < arbiterMax) && (s.md d).arb.lost == 0

/-- Between two states a die reported an event: a new record with the code, instance and payload stands in the media die's
arbiter, or in Die C's log. -/
def State.reported (s t : State) (d : PDie) (code inst payload : Nat) : Prop :=
  match d with
  | .a => ∃ r ∈ t.dieA.arb.buf.drop s.dieA.arb.buf.length, r.code = code ∧ r.inst = inst ∧ r.payload = payload
  | .b => ∃ r ∈ t.dieB.arb.buf.drop s.dieB.arb.buf.length, r.code = code ∧ r.inst = inst ∧ r.payload = payload
  | .c => ∃ r ∈ t.ramLog, s.rdN Obj.evtGseqNext .c 0 ≤ r.gseq ∧ r.code = code ∧ r.inst = inst ∧ r.payload = payload

/-- A control message as a link carries it (R423). -/
def ctrlSent (l : MDie × Nat) (m : TwlMsg) : Sent := .twlMsg l.1 l.2 m (TwlMsg.bytes m)

/-- An event of a die is not lost: Die C's logs take every record, a media die's arbiter while it is open. -/
def State.canReport (s : State) (d : PDie) : Bool :=
  match d with
  | .a => s.arbiterOpen .a
  | .b => s.arbiterOpen .b
  | .c => true

/-- All three dies were reset with a cause (R53): every die is held in reset, the RAM log and the sessions of VOL are gone, and every object
flagged P keeps its value. -/
def State.packageReset (s t : State) (cause : Nat) : Prop :=
  (∀ d : PDie, t.rd Obj.rstCause d.die 0 = (cause : Int) ∧ (t.power d).run = .held) ∧ t.ramLog = [] ∧ t.vol.sessions = []
    ∧ (∀ a, persistAt a = true → a.index ≠ Obj.rstCause.index → mapGet t.objs a = mapGet s.objs a)

/-- Die C is reached by what a die reports: it runs, and a media die's link is up. -/
def State.heardFrom (s : State) (d : PDie) : Bool :=
  match d with
  | .a => s.reachable .a
  | .b => s.reachable .b
  | .c => s.up .c

/-- A state as a write of MODE.REQUEST checks it: the retries of R479 have ended. -/
def State.modeAsked (s : State) : State :=
  { s with boot := { s.boot with retrying := false } }.clrBit Obj.modeStatus .p 0 4

/-! ### Requests of Vindi Object Link -/

/-- A command that is a frame of a session: its header, operation, item count and payload (R454, R455). -/
def requestOf (i : Instr) : Option (VolHdr × Nat × Nat × List Byte) :=
  match i with
  | .volClose h => some (h, 0x02, 0, [])
  | .volNop h => some (h, 0x03, 0, [])
  | .volRead h items => some (h, 0x10, items.length, itemsBytes items)
  | .volWrite h items => some (h, 0x11, items.length, writeBytes items)
  | .volDescribe h items => some (h, 0x12, items.length, itemsBytes items)
  | .volList h die index sub => some (h, 0x13, 0, natBe 1 die ++ natBe 2 index ++ natBe 1 sub)
  | .volClearCount h items => some (h, 0x14, items.length, itemsBytes items)
  | .volBulkBegin h it total => some (h, 0x20, 1, itemAddress it it.count ++ natBe 4 total)
  | .volBulkData h id offset data => some (h, 0x21, 0, natBe 2 id ++ natBe 2 0 ++ natBe 4 offset ++ data)
  | .volBulkEnd h id => some (h, 0x22, 0, natBe 2 id)
  | .volBulkRead h it offset len => some (h, 0x23, 1, itemAddress it it.count ++ natBe 4 offset ++ natBe 2 len)
  | .volSubscribe h start ranges => some (h, 0x30, 0, natBe 8 start ++ ranges.flatMap (fun r => natBe 2 r.1 ++ natBe 2 r.2))
  | .volAck h gseq => some (h, 0x32, 0, natBe 8 gseq)
  | .volLogRead h log count boot from_ =>
    some (h, 0x33, 0, natBe 1 log ++ natBe 1 0 ++ natBe 2 count ++ natBe 4 boot ++ natBe 8 from_)
  | _ => none

/-- A command is a frame with a payload that fits and a correct tag, by header `h`, of the session `x`, on a port that serves (R454, R458, R461). -/
def State.asks (s : State) (x : Session) (h : VolHdr) (i : Instr) : Bool :=
  s.portServes h && decide (s.session? h.session = some x) &&
    (match requestOf i with
     | some (g, op, n, p) => decide (g = h) && decide (p.length ≤ payloadMax) && State.tagOk x h op n p
     | none => false)

/-- Such a frame of an established session, at the present boot count, with a SEQ above every SEQ executed: it is executed. -/
def State.asksNew (s : State) (x : Session) (h : VolHdr) (i : Instr) : Bool :=
  s.asks x h i && x.established && decide (h.boot = s.rdN Obj.volBootCount .p 0) && decide (x.high < h.seq)

/-- The newest frame on the way out of a port is a response to `h` of which `p` holds: over SPI it waits for the host. -/
def State.responds (t : State) (h : VolHdr) (p : Response → Prop) : Prop :=
  ∃ y, p y ∧ y.seq = h.seq ∧
    (if h.port.val = 2 then t.vol.spiWaiting else t.sent).getLast? = some (.response h.port.val h.ip h.udp y)

/-- A step goes on. -/
def Safe (o : Out) : Prop := ∃ t, o = .next t

/-- A state answers a request as done (R457). -/
def State.answeredOk (s : State) : Prop := s.answer = .ok

end Sys2Proof.Machine
end

