-- ==== Sys2Proof/Certificates/Slice0/Obligations.lean ====
section
/-! DEFINITION. The statements about the part, for the provers. Each names the rule of the spec it formalises; a clause that rests
on a choice of the model says so. -/

open Sys2Proof Sys2Proof.Machine

/-- From every state, PORST_ASSERT, WRST_ASSERT (no sequence fault hold), RST_REQUEST_WARM_PACKAGE (server up, no hold) and
SEQUENCE_FAULT (a rail of group 3 or 4 that exists) complete: RST.CAUSE of dies A, B and C reads 0, 1, 5 and 6; every die is
held in reset; the RAM log and the VOL sessions are gone; every object flagged P keeps its value; MRAM is kept
(SEQUENCE_FAULT records the first rail out of order in it). The mode is RESET after PORST_ASSERT and SEQUENCE_FAULT, and
BOOT after the two warm resets, which keep THERM.TJ.PEAK; under a hold WRST_ASSERT leaves RESET and cause 6. SEQUENCE_FAULT
starts the hold; PORST_ASSERT ends it exactly when all rails are in range. RAIL_RESET_CROSSING (the rail exists, the die
runs, the sample lies below the reset level), RST_REQUEST_DIE_RESET (server up, the media die runs) and
DIE_C_WATCHDOG_EXPIRY (Die C runs) complete: the die is reset alone with RST.CAUSE 2, 5 or 4, its AO record names rail and
sample, and the other dies and their power are as before; a Die C reset outside a boot keeps MRAM and ends every session and
the RAM log, and one within a boot is a boot failure of step 8 with cause 5 (rail) or 4 (watchdog). DIE_C_THERMAL_RESTART
and RST_REQUEST_RESTART (the die shut down by R50, below 95 °C, some sensor working) complete: the die waits to return,
nothing else changed but the answer. -/
def Obligations.ResetsRecordTheirCauseAndKeepMramAndTheOtherDies : Prop :=
  (∀ s inRange, ∃ t, exec (.porstAssert inRange) s = .next t ∧ s.packageReset t 0 ∧ t.mram = s.mram ∧ t.mode = .reset
    ∧ t.seqHold = (s.seqHold && !inRange))
  ∧ (∀ s, s.seqHold = false → ∃ t, exec .wrstAssert s = .next t ∧ s.packageReset t 1 ∧ t.mram = s.mram ∧ t.mode = .boot
    ∧ ∀ d : PDie, t.rd Obj.thermTjPeak d.die 0 = s.rd Obj.thermTjPeak d.die 0)
  ∧ (∀ s, s.seqHold = true → ∃ t, exec .wrstAssert s = .next t ∧ s.packageReset t 6 ∧ t.mram = s.mram ∧ t.mode = .reset)
  ∧ (∀ s, s.seqHold = false → s.serverUp = true → ∃ t, exec .rstRequestWarmPackage s = .next t ∧ s.packageReset t 5
    ∧ t.mram = s.mram ∧ t.mode = .boot ∧ t.answer = .ok
    ∧ ∀ d : PDie, t.rd Obj.thermTjPeak d.die 0 = s.rd Obj.thermTjPeak d.die 0)
  ∧ (∀ s d rail, rail < railCount d → 3 ≤ railGroup d rail → ∃ t, exec (.sequenceFault d rail) s = .next t
    ∧ s.packageReset t 6 ∧ t.mode = .reset ∧ t.seqHold = true
    ∧ t.mram = { s.mram with seqFault := some (s.mram.seqFault.getD (d, rail)) })
  ∧ (∀ s (m : MDie) rail mv, rail < railCount m.pdie → s.up m.pdie = true → railSample mv < railReset m.pdie rail →
    ∃ t, exec (.railResetCrossing m.pdie rail mv) s = .next t ∧ t.rd Obj.rstCause m.die 0 = 2
      ∧ (t.power m.pdie).run = .resetAlone ∧ (t.power m.pdie).aoDip = some (rail, railSample mv)
      ∧ (∀ e, e ≠ m.pdie → t.power e = s.power e) ∧ t.mram.objs = s.mram.objs ∧ t.md m.other = s.md m.other)
  ∧ (∀ s rail mv, rail < railCount .c → s.up .c = true → railSample mv < railReset .c rail → s.mode ≠ .boot →
      s.boot.ready = false →
    ∃ t, exec (.railResetCrossing .c rail mv) s = .next t ∧ t.rd Obj.rstCause .c 0 = 2 ∧ (t.power .c).run = .resetAlone
      ∧ (t.power .c).aoDip = some (rail, railSample mv) ∧ t.powerA = s.powerA ∧ t.powerB = s.powerB ∧ t.mram = s.mram
      ∧ t.dieA = s.dieA ∧ t.dieB = s.dieB)
  ∧ (∀ s rail mv, rail < railCount .c → s.up .c = true → railSample mv < railReset .c rail →
      s.mode = .boot ∨ s.boot.ready = true →
    ∃ t, exec (.railResetCrossing .c rail mv) s = .next t ∧ t.rd Obj.rstCause .c 0 = 2
      ∧ t.rd Obj.bootFailCause .p 0 = 5 ∧ t.rd Obj.bootFailStep .p 0 = 8 ∧ t.boot.failures = s.boot.failures + 1)
  ∧ (∀ s (d : MDie), s.serverUp = true → s.up d.pdie = true →
    ∃ t, exec (.rstRequestDieReset d) s = .next t ∧ t.rd Obj.rstCause d.die 0 = 5 ∧ (t.power d.pdie).run = .resetAlone
      ∧ (∀ e, e ≠ d.pdie → t.power e = s.power e) ∧ t.md d.other = s.md d.other ∧ t.answer = .ok)
  ∧ (∀ s, s.up .c = true → s.mode ≠ .boot → s.boot.ready = false →
    ∃ t, exec .dieCWatchdogExpiry s = .next t ∧ t.rd Obj.rstCause .c 0 = 4 ∧ (t.power .c).run = .resetAlone
      ∧ t.vol.sessions = [] ∧ t.ramLog = [] ∧ t.mram = s.mram ∧ t.dieA = s.dieA ∧ t.dieB = s.dieB
      ∧ t.powerA = s.powerA ∧ t.powerB = s.powerB ∧ t.mode = s.mode)
  ∧ (∀ s, s.up .c = true → s.mode = .boot ∨ s.boot.ready = true →
    ∃ t, exec .dieCWatchdogExpiry s = .next t ∧ t.rd Obj.rstCause .c 0 = 4 ∧ t.rd Obj.bootFailCause .p 0 = 4
      ∧ t.boot.failures = s.boot.failures + 1)
  ∧ (∀ s, s.cooled .c = true →
    exec .dieCThermalRestart s = .next { s with powerC := { s.powerC with run := .resetAlone } })
  ∧ (∀ s (d : MDie), s.serverUp = true → s.cooled d.pdie = true →
    ∃ t, exec (.rstRequestRestart d) s = .next t ∧ t.answer = .ok ∧ (t.power d.pdie).run = .resetAlone
      ∧ t.objs = s.objs ∧ t.dieA = s.dieA ∧ t.dieB = s.dieB ∧ ∀ e, e ≠ d.pdie → t.power e = s.power e)

/-- RAIL_WARNING_CROSSING on a running die, of a rail that has no dip in progress and whose sample lies below the warning level,
clears the rail's PWR.STATUS bit, shows the sample in PWR.RAIL.VOLTAGE, and opens a dip; the other rails' objects and all of
memory and logs stay. RAIL_RECOVERY of an open dip (lowest sample at or above the reset level, sample at least warning plus
15 mV) sets the PWR.STATUS and PWR.STICKY bits of the rail, records the lowest voltage in PWR.RAIL.DIP.MIN and its MRAM
copy, closes the dip, schedules a scrub pass, and raises event 0x1101 with rail, lowest voltage and duration while the die's
arbiter takes records; Die C notes its own event to be counted at once. BROWNOUT_EVENT_RECEIVED of a noted event then raises
PWR.RAIL.BROWNOUT.COUNT of the rail and PWR.BROWNOUT.COUNT of the die by one, up to the largest value of their types, in
MRAM as well. -/
def Obligations.WarningDipsAreRecordedAndReported : Prop :=
  (∀ s d rail first mv, rail < railCount d → s.up d = true → railSample mv < railWarn d rail →
      rail ∉ (s.power d).dips.map (·.1) →
    ∃ t, exec (.railWarningCrossing d rail first mv) s = .next t ∧ t.bit Obj.pwrStatus d.die 0 rail = false
      ∧ t.rd Obj.pwrRailVoltage d.die rail = (railSample mv : Nat)
      ∧ (t.power d).dips = tabSet (s.power d).dips rail ⟨first, railSample mv⟩
      ∧ s.agree t [Obj.pwrStatus.addr d.die 0, Obj.pwrRailVoltage.addr d.die rail]
      ∧ (∀ r, r ≠ rail → t.bit Obj.pwrStatus d.die 0 r = s.bit Obj.pwrStatus d.die 0 r)
      ∧ t.dieA = s.dieA ∧ t.dieB = s.dieB ∧ t.mram = s.mram ∧ t.ramLog = s.ramLog)
  ∧ (∀ s d rail last mv volt dip, rail < railCount d → s.up d = true →
      (s.power d).dips.find? (fun e => e.1 == rail) = some (rail, dip) → railReset d rail ≤ min dip.lowest (railSample mv) →
      railWarn d rail + 15 ≤ railSample volt → s.canReport d →
    ∃ t, exec (.railRecovery d rail last mv volt) s = .next t ∧ t.bit Obj.pwrStatus d.die 0 rail = true
      ∧ t.bit Obj.pwrSticky d.die 0 rail = true
      ∧ t.rd Obj.pwrRailDipMin d.die rail = (min dip.lowest (railSample mv) : Nat)
      ∧ (t.power d).dips = tabDel (s.power d).dips rail ∧ (t.power d).scrubDue = true
      ∧ s.reported t d 0x1101 rail (p16 [rail, (min dip.lowest (railSample mv) : Nat), dipMicros dip.firstNs last])
      ∧ mapGet t.mram.objs (Obj.pwrRailDipMin.addr d.die rail) = some (t.rd Obj.pwrRailDipMin d.die rail)
      ∧ t.brownouts = s.brownouts ++ (if d = .c then [(PDie.c, rail)] else []))
  ∧ (∀ s d rail, s.brownouts.find? (fun e => e.1 == d) = some (d, rail) → s.heardFrom d = true →
    ∃ t, exec (.brownoutEventReceived d) s = .next t ∧ t.brownouts = s.brownouts.erase (d, rail)
      ∧ t.rdN Obj.pwrRailBrownoutCount d.die rail = min (s.rdN Obj.pwrRailBrownoutCount d.die rail + 1) (2 ^ 32 - 1)
      ∧ t.rdN Obj.pwrBrownoutCount d.die 0 = min (s.rdN Obj.pwrBrownoutCount d.die 0 + 1) (2 ^ 32 - 1)
      ∧ mapGet t.mram.objs (Obj.pwrBrownoutCount.addr d.die 0) = some (t.rd Obj.pwrBrownoutCount d.die 0))

/-- SECTION_WAKE on a reachable die without a waking section takes the first queued section to waking (1) with power 0 and
leaves the other sections. SECTION_POWER_GOOD takes a waking section to on (2), SECTION_WAKE_TIMEOUT to failed (4) with
event 0x1104; a section number of 30 or more faults. THERMAL_SAMPLE on a running die whose sensors all work and read well:
THERM.SENSOR.TEMP shows each reading, THERM.TJ the highest, THERM.TJ.PEAK the highest ever; below 95 °C and not below the
lower limit no STATUS bit of them stands and no event is logged; from 100 to below 115 °C, not yet warned, it sets STATUS
and STICKY bit 0, raises THERM.COUNT by one and reports event 0x1110 with the hottest sensor of lowest number; the second
sample in a row at 115 °C or more shuts the die down with RST.CAUSE 3. With no working sensor THERM.TJ shows -32768 and
STATUS bit 2 stands. A wrong number of readings faults. -/
def Obligations.SectionsWakeInTurnAndSensorsAreFollowed : Prop :=
  let good (s : State) (d : PDie) (readings : List (Int × Bool)) (tj : Int) : Prop :=
    s.up d = true ∧ readings.length = sensorCount d ∧ (∀ i < sensorCount d, s.rd Obj.thermSensorTemp d.die i ≠ tempFailed)
      ∧ (∀ r ∈ readings, sensorBad r = false ∧ r.1 ≤ tj) ∧ (∃ r ∈ readings, r.1 = tj)
  (∀ s (d : MDie) n r, (s.power d.pdie).wakeQueue = n :: r → s.reachable d = true → (∀ k < 30, s.section d.pdie k ≠ 1) →
    ∃ t, exec (.sectionWake d) s = .next t ∧ t.section d.pdie n = 1 ∧ (t.power d.pdie).wakeQueue = r
      ∧ t.rd Obj.pwrSectionPower d.die n = 0 ∧ ∀ k, k ≠ n → t.section d.pdie k = s.section d.pdie k)
  ∧ (∀ s (d : MDie) n, n < 30 → s.section d.pdie n = 1 →
    (∃ t, exec (.sectionPowerGood d n) s = .next t ∧ t.section d.pdie n = 2)
    ∧ (∃ t, exec (.sectionWakeTimeout d n) s = .next t ∧ t.section d.pdie n = 4 ∧ s.reported t .c 0x1104 n (p16 [n])))
  ∧ (∀ s (d : MDie) n, 30 ≤ n → exec (.sectionPowerGood d n) s = .fault .noSuchUnit
      ∧ exec (.sectionWakeTimeout d n) s = .fault .noSuchUnit)
  ∧ (∀ s d readings tj, good s d readings tj → tj < degC 95 → s.lowerLimit ≤ tj →
    ∃ t, exec (.thermalSample d readings) s = .next t ∧ t.rd Obj.thermTj d.die 0 = tj
      ∧ t.rd Obj.thermTjPeak d.die 0 = max tj (s.rd Obj.thermTjPeak d.die 0)
      ∧ (∀ i < sensorCount d, t.rd Obj.thermSensorTemp d.die i = (readings.getD i (0, false)).1)
      ∧ t.bit Obj.thermStatus d.die 0 0 = false ∧ t.bit Obj.thermStatus d.die 0 1 = false
      ∧ t.ramLog = s.ramLog ∧ t.dieA = s.dieA ∧ t.dieB = s.dieB)
  ∧ (∀ s d readings tj hot, good s d readings tj → degC 100 ≤ tj → tj < degC 115 → s.bit Obj.thermStatus d.die 0 0 = false →
      hot < sensorCount d → (readings.getD hot (0, false)).1 = tj → (∀ j < hot, (readings.getD j (0, false)).1 ≠ tj) → s.canReport d →
    ∃ t, exec (.thermalSample d readings) s = .next t ∧ t.rd Obj.thermTj d.die 0 = tj
      ∧ t.bit Obj.thermStatus d.die 0 0 = true ∧ t.bit Obj.thermSticky d.die 0 0 = true
      ∧ t.rdN Obj.thermCount d.die 0 = min (s.rdN Obj.thermCount d.die 0 + 1) Obj.thermCount.ty.maxVal
      ∧ s.reported t d 0x1110 hot (p16 [hot, tj]))
  ∧ (∀ s d readings tj, good s d readings tj → degC 115 ≤ tj → (s.power d).critRun = 1 →
    ∃ t, exec (.thermalSample d readings) s = .next t ∧ (t.power d).run = .shutdown ∧ t.rd Obj.rstCause d.die 0 = 3)
  ∧ (∀ s d readings, s.up d = true → readings.length = sensorCount d → (∀ r ∈ readings, sensorBad r = true) →
    ∃ t, exec (.thermalSample d readings) s = .next t ∧ t.rd Obj.thermTj d.die 0 = tempFailed
      ∧ t.bit Obj.thermStatus d.die 0 2 = true)
  ∧ (∀ s d readings, readings.length ≠ sensorCount d → exec (.thermalSample d readings) s = .fault .noSuchUnit)

/-- On a running media die: CDR_FREEZE (CDR locked), CDR_REACQUIRE (frozen), and QUAD_PLL_RELOCK (section on) answer a next
state in which LANE.STATUS bit 3 is set, bit 3 is clear with LANE.FEC.SYMBOLS grown by the symbols of re-acquisition, and
QUAD.STATUS bit 0 is set, and nothing else changes. Without near-end loopback, 64 symbols that a receiver recovers as its
pattern lock the checker (PATTERN_CHECKER_LOCK: TEST, pattern receiver on): LANE.STATUS bit 5 is set; at a locked checker
(PATTERN_CHECKER_LOSS) n correct symbols add 2n to LANE.PATTERN.BITS, and 64 wrong ones in a row add 128 and their bit
errors and take the lock, bit 5 clear and LANE.STICKY bit 5 set; no other object changes. FEC_DEGRADE_CHECK without bypass
and without injected errors, on a lane that is no port's first lane and whose symbols exceed LANE.FEC.DEGRADE with
LANE.STATUS bit 4 clear, adds the symbols to LANE.FEC.SYMBOLS, sets LANE.STATUS bit 4 and LANE.STICKY bit 3 and reports
event 0x1303. Counters stop at 2^64 - 1. With the dictionary server up, LANE_EQ_TABLE_WRITE answers a next state: outside
CONFIGURE the write is answered ACCESS and nothing else changes; a table longer than 37,412 bytes is answered LENGTH; one
that fails a check is answered REJECTED with event 0x1330, whose payload carries the reason and the first offending entry or
row, and LANE.EQ.TABLE keeps its bytes; one that passes is answered OK, and LANE.EQ.TABLE reads the written bytes, in MRAM
too. -/
def Obligations.LaneStatusAndTheEqualizationTable : Prop :=
  (
    (∀ s d (l : Fin 32), s.up d.pdie = true → s.bit Obj.laneStatus d.die l 0 = true →
      ∃ t, exec (.cdrFreeze d l) s = .next t ∧ t.bit Obj.laneStatus d.die l 3 = true
        ∧ s.agree t [Obj.laneStatus.addr d.die l] ∧ s.onlyObjs t)
    ∧ (∀ s d (l : Fin 32) n, s.up d.pdie = true → s.bit Obj.laneStatus d.die l 3 = true →
      ∃ t, exec (.cdrReacquire d l n) s = .next t ∧ t.bit Obj.laneStatus d.die l 3 = false
        ∧ t.rdN Obj.laneFecSymbols d.die l = min (s.rdN Obj.laneFecSymbols d.die l + n) (2 ^ 64 - 1)
        ∧ s.agree t [Obj.laneStatus.addr d.die l, Obj.laneFecSymbols.addr d.die l] ∧ s.onlyObjs t)
    ∧ (∀ s d (l : Fin 32) phase rx gray e, s.up d.pdie = true → s.mode = .test → s.rdN Obj.lanePatternRx d.die l ≠ 0 →
        s.bit Obj.laneStatus d.die l 5 = false → (s.lane d l).run = 0 → s.rdN Obj.laneLoopback d.die l ≠ 1 →
        recvGray (s.rxPre d l) (s.eqBit d l 12) (s.lane d l).rxPrev rx = (gray, e) →
        gray = (List.range 64).map (fun k =>
          patternSymbol (s.rdN Obj.lanePatternRx d.die l) (s.rdN Obj.lanePatternUser d.die l) (phase + k)) →
      ∃ t, exec (.patternCheckerLock d ⟨l, phase, rx⟩) s = .next t ∧ t.bit Obj.laneStatus d.die l 5 = true
        ∧ s.agree t [Obj.laneStatus.addr d.die l, Obj.lanePatternBits.addr d.die l, Obj.lanePatternErrors.addr d.die l])
    ∧ (∀ s d (l : Fin 32) phase rx gray e n, s.up d.pdie = true → s.bit Obj.laneStatus d.die l 5 = true →
        (s.lane d l).run = 0 → s.rdN Obj.laneLoopback d.die l ≠ 1 →
        recvGray (s.rxPre d l) (s.eqBit d l 12) (s.lane d l).rxPrev rx = (gray, e) →
        gray = (List.range n).map (fun k =>
          patternSymbol (s.rdN Obj.lanePatternRx d.die l) (s.rdN Obj.lanePatternUser d.die l) (phase + k)) →
      ∃ t, exec (.patternCheckerLoss d l phase rx) s = .next t ∧ t.bit Obj.laneStatus d.die l 5 = true
        ∧ t.rdN Obj.lanePatternBits d.die l = min (s.rdN Obj.lanePatternBits d.die l + 2 * n) (2 ^ 64 - 1)
        ∧ t.rdN Obj.lanePatternErrors d.die l = min (s.rdN Obj.lanePatternErrors d.die l) (2 ^ 64 - 1)
        ∧ s.agree t [Obj.laneStatus.addr d.die l, Obj.lanePatternBits.addr d.die l, Obj.lanePatternErrors.addr d.die l])
    ∧ (∀ s d (l : Fin 32) phase rx gray e, s.up d.pdie = true → s.bit Obj.laneStatus d.die l 5 = true →
        (s.lane d l).run = 0 → s.rdN Obj.laneLoopback d.die l ≠ 1 →
        recvGray (s.rxPre d l) (s.eqBit d l 12) (s.lane d l).rxPrev rx = (gray, e) → gray.length = 64 →
        (∀ k < 64, gray.getD k 0 ≠
          patternSymbol (s.rdN Obj.lanePatternRx d.die l) (s.rdN Obj.lanePatternUser d.die l) (phase + k)) →
      ∃ t, exec (.patternCheckerLoss d l phase rx) s = .next t ∧ t.bit Obj.laneStatus d.die l 5 = false
        ∧ t.bit Obj.laneSticky d.die l 5 = true
        ∧ t.rdN Obj.lanePatternBits d.die l = min (s.rdN Obj.lanePatternBits d.die l + 128) (2 ^ 64 - 1)
        ∧ t.rdN Obj.lanePatternErrors d.die l = min (s.rdN Obj.lanePatternErrors d.die l + sumOver (List.range 64) (fun k =>
            grayErrors (gray.getD k 0)
              (patternSymbol (s.rdN Obj.lanePatternRx d.die l) (s.rdN Obj.lanePatternUser d.die l) (phase + k)))) (2 ^ 64 - 1)
        ∧ s.agree t [Obj.laneStatus.addr d.die l, Obj.laneSticky.addr d.die l, Obj.lanePatternBits.addr d.die l,
            Obj.lanePatternErrors.addr d.die l])
    ∧ (∀ s d (q : Fin 8), s.up d.pdie = true → s.secOn d (6 + q) = true →
      ∃ t, exec (.quadPllRelock d q) s = .next t ∧ t.bit Obj.quadStatus d.die q 0 = true
        ∧ s.agree t [Obj.quadStatus.addr d.die q] ∧ s.onlyObjs t)
    ∧ (∀ s d (l : Fin 32) n c u, s.up d.pdie = true → s.rdN Obj.laneFecBypass d.die l = 0 →
        tabGet (s.md d).test.symbols l 0 = 0 → s.firstLane d l = false → s.rdN Obj.laneFecDegrade d.die l < n →
        s.bit Obj.laneStatus d.die l 4 = false → s.canReport d.pdie →
      ∃ t, exec (.fecDegradeCheck d l n c u) s = .next t ∧ t.bit Obj.laneStatus d.die l 4 = true
        ∧ t.bit Obj.laneSticky d.die l 3 = true
        ∧ t.rdN Obj.laneFecSymbols d.die l = min (s.rdN Obj.laneFecSymbols d.die l + n) (2 ^ 64 - 1)
        ∧ s.reported t d.pdie 0x1303 l (payloadOf [(16, l.val), (32, n)])))
  ∧ (
    ∀ s b, s.serverUp = true →
      (s.mode ≠ .configure → exec (.laneEqTableWrite b) s = .next { s with answer := .access })
      ∧ (s.mode = .configure → 37412 < b.length → exec (.laneEqTableWrite b) s = .next { s with answer := .length })
      ∧ (s.mode = .configure → b.length ≤ 37412 → ∀ r n, eqCheck b = some (r, n) →
          ∃ t, exec (.laneEqTableWrite b) s = .next t ∧ t.answer = .rejected 0x1330 ∧ s.reported t .c 0x1330 0 (p16 [r, n])
            ∧ t.rdBytes Obj.laneEqTable .p 0 = s.rdBytes Obj.laneEqTable .p 0 ∧ s.agree t (eventAddrs .c))
      ∧ (s.mode = .configure → b.length ≤ 37412 → eqCheck b = none →
          ∃ t, exec (.laneEqTableWrite b) s = .next t ∧ t.answer = .ok ∧ t.rdBytes Obj.laneEqTable .p 0 = b
            ∧ mapGet t.mram.blobs (Obj.laneEqTable.addr .p 0) = some b ∧ t.objs = s.objs ∧ t.ramLog = s.ramLog))

/-- On a running media die: PORT_UP on the first lane of a port that is down and whose lanes are all active sets LANE.STATUS
bits 1 and 2 and reports event 0x1301. PORT_DOWN (cause 1 or 2, at any lane) of an Ethernet port that is up clears both
bits, sets LANE.STICKY bits 1 and 2, counts LANE.COUNT and reports event 0x1302 with the cause. QUAD_PLL_LOCK_LOSS clears
QUAD.STATUS bit 0 and, where no port of the quad is up, reports event 0x1304. LANE_STATE_REQUEST on a port's first lane
stores the request and answers OK; outside SERVICE, SELVEDGE and RECOVERY nothing else changes; on another lane it is
answered ACCESS. LANE_TRANSITION_COMPLETE of a changing lane whose transition has a target and no held request puts the lane
in that target's state; one that reaches active has CDR lock and its precoders start over. -/
def Obligations.PortsComeUpAndGoDownWithTheirLanes : Prop :=
  (∀ s d (f : Fin 32), s.up d.pdie = true → s.firstLane d f = true → s.portUp d f = false → s.canReport d.pdie →
      (∀ l ∈ s.portLanes d f, s.laneState d l = 3) →
    ∃ t, exec (.portUp d f) s = .next t ∧ t.bit Obj.laneStatus d.die f 1 = true ∧ t.bit Obj.laneStatus d.die f 2 = true
      ∧ s.reported t d.pdie 0x1301 f (p16 [f.val]))
  ∧ (∀ s d (l f : Fin 32) cause, s.up d.pdie = true → cause = 1 ∨ cause = 2 → (s.portLanes d l).head? = some f.val →
      s.portUp d f = true → s.quad d (f / 4) ≠ 4 → s.canReport d.pdie →
    ∃ t, exec (.portDown d l cause) s = .next t ∧ t.bit Obj.laneStatus d.die f 1 = false
      ∧ t.bit Obj.laneStatus d.die f 2 = false ∧ t.bit Obj.laneSticky d.die f 1 = true
      ∧ t.bit Obj.laneSticky d.die f 2 = true
      ∧ t.rdN Obj.laneCount d.die f = min (s.rdN Obj.laneCount d.die f + 1) (2 ^ 32 - 1)
      ∧ s.reported t d.pdie 0x1302 f (p16 [f.val, cause]))
  ∧ (∀ s d (q : Fin 8), s.up d.pdie = true → s.bit Obj.quadStatus d.die q 0 = true → s.canReport d.pdie →
      (∀ l < 32, s.portUp d l = false) →
    ∃ t, exec (.quadPllLockLoss d q) s = .next t ∧ t.bit Obj.quadStatus d.die q 0 = false
      ∧ s.reported t d.pdie 0x1304 q (p16 [q.val]) ∧ s.onlyObjsAndEvents t)
  ∧ (∀ s d (l : Fin 32) (r : Fin 3), s.serverUp = true → s.up d.pdie = true → s.firstLane d l = true →
    ∃ t, exec (.laneStateRequest d l r) s = .next t ∧ t.answer = .ok
      ∧ t.rd Obj.laneStateRequest d.die l = (r.val : Nat)
      ∧ (s.mode ≠ .service → s.mode ≠ .selvedge → s.mode ≠ .recovery →
          s.agree t [Obj.laneStateRequest.addr d.die l] ∧ t = { s with objs := t.objs, answer := .ok }))
  ∧ (∀ s d (l : Fin 32) (r : Fin 3), s.serverUp = true → s.up d.pdie = true → s.firstLane d l = false →
    exec (.laneStateRequest d l r) s = .next { s with answer := .access })
  ∧ (∀ s d (l : Fin 32) x, s.up d.pdie = true → s.laneState d l = 4 → tabGet (s.md d).lanes l LaneSt.start = x →
      x.held = none → ∀ k, x.target = some k →
    ∃ t, exec (.laneTransitionComplete d l) s = .next t ∧ t.laneState d l = k
      ∧ tabGet (t.md d).lanes l LaneSt.start = { x with
          target := none, cycle := false, txPrev := if k = 3 then 0 else x.txPrev, rxPrev := if k = 3 then 0 else x.rxPrev }
      ∧ (k = 3 → t.bit Obj.laneStatus d.die l 0 = true)
      ∧ s.agree t [Obj.laneState.addr d.die l, Obj.quadStatus.addr d.die (l.val / 4), Obj.laneStatus.addr d.die l])

/-- In a served cage, the dictionary server up, and the media die running and the cage's bus without a fault where its module is
read: MODULE_INSERTED of an empty cage sets CAGE.STATUS bit 0 and CAGE.STICKY bit 0, counts CAGE.COUNT, starts polling and
logs event 0x1310. MODULE_STATE_POLL with ModuleLowPwr, while the cage is polled, writes CAGE.MODULE.ID from the module's
fields, sets CAGE.STATUS bit 1, keeps the module's data and leaves the polling step. MODULE_READY_TIMEOUT while polling
holds the cage and logs event 0x1315 with the state read. MODULE_READY while powering sets CAGE.STATUS bit 2 and goes on to
the data path, changing beyond it only LANE.STATE and LANE.STATUS of the cage's lanes; DATAPATH_ACTIVATED then sets bit 4
and ends the sequence. MODULE_REMOVED of an occupied cage empties it: CAGE.STATUS 0, CAGE.STICKY bit 1, CAGE.MODULE.CLASS
0xFF, CAGE.WEAR.RECORD 0xFFFF, CAGE.MODULE.ID zeros, and event 0x1311 is logged. -/
def Obligations.ModuleInsertionSequence : Prop :=
  (∀ s d (n : Fin 8), s.serverUp = true → s.up d.pdie = true → s.cageServed d n = true → (s.cage d n).step = .empty →
    ∃ t, exec (.moduleInserted d n) s = .next t ∧ t.bit Obj.cageStatus d.die n 0 = true
      ∧ t.bit Obj.cageSticky d.die n 0 = true
      ∧ t.rdN Obj.cageCount d.die n = min (s.rdN Obj.cageCount d.die n + 1) (2 ^ 32 - 1)
      ∧ (t.cage d n).step = .polling ∧ s.reported t .c 0x1310 n (p16 [n.val])
      ∧ s.agree t ([Obj.cageStatus.addr d.die n, Obj.cageSticky.addr d.die n, Obj.cageCount.addr d.die n] ++ eventAddrs .c))
  ∧ (∀ s d (n : Fin 8) info, s.busOpen d n = true → (s.cage d n).step = .polling →
    ∃ t, exec (.moduleStatePoll d n true info) s = .next t ∧ t.bit Obj.cageStatus d.die n 1 = true
      ∧ t.rdBytes Obj.cageModuleId d.die n = info.vendor ++ info.oui ++ info.part ++ info.rev ++ info.serial ++ info.date
      ∧ (t.cage d n).info = some info ∧ ((t.cage d n).step = .identified ∨ (t.cage d n).step = .powering))
  ∧ (∀ s d (n : Fin 8) st, s.serverUp = true → s.cageServed d n = true → (s.cage d n).step = .polling →
    ∃ t, exec (.moduleReadyTimeout d n st) s = .next t ∧ (t.cage d n).step = .stuck
      ∧ s.reported t .c 0x1315 n (p16 [n.val, st]) ∧ s.agree t (eventAddrs .c))
  ∧ (∀ s d (n : Fin 8), s.busOpen d n = true → (s.cage d n).step = .powering →
    ∃ t, exec (.moduleReady d n) s = .next t ∧ t.bit Obj.cageStatus d.die n 2 = true ∧ (t.cage d n).step = .dataPath
      ∧ s.agree t (Obj.cageStatus.addr d.die n
          :: (s.cageLanes d n).flatMap (fun l => [Obj.laneState.addr d.die l, Obj.laneStatus.addr d.die l])))
  ∧ (∀ s d (n : Fin 8), s.busOpen d n = true → (s.cage d n).step = .dataPath →
    ∃ t, exec (.datapathActivated d n) s = .next t ∧ t.bit Obj.cageStatus d.die n 4 = true ∧ (t.cage d n).step = .done
      ∧ s.agree t [Obj.cageStatus.addr d.die n])
  ∧ (∀ s d (n : Fin 8), s.serverUp = true → s.up d.pdie = true → s.cageServed d n = true → (s.cage d n).step ≠ .empty →
    ∃ t, exec (.moduleRemoved d n) s = .next t ∧ t.cage d n = CageSt.start ∧ t.rd Obj.cageStatus d.die n = 0
      ∧ t.bit Obj.cageSticky d.die n 1 = true ∧ t.rd Obj.cageModuleClass d.die n = 0xFF
      ∧ t.rd Obj.cageWearRecord d.die n = 0xFFFF ∧ t.rdBytes Obj.cageModuleId d.die n = List.replicate 61 0
      ∧ s.reported t .c 0x1311 n (p16 [n.val]))

/-- With the bus of a served cage free of faults (serverUp, its die running): MODULE_INTERRUPT with one non-zero latched flag of
an identified module sets CAGE.STICKY bit 2 and logs event 0x1316 with page and value. MGMT_BUS_NO_ACK of a present module
without a bus fault counts the failure; the fourth in a row sets CAGE.STATUS bit 5 and CAGE.STICKY bit 3, makes the monitors
stale and logs event 0x1317. An acknowledged MGMT_BUS_RETRY clears the fault and its count. MONITOR_POLL of an identified
module without bus fault counts a skip when delayed, and otherwise stores the temperature, ends a run of failures, refreshes
the monitors and adds the laser biases. With one module in high power that holds a 96-byte wear record, WEAR_MINUTE_UPDATE
adds one minute to POWER.ON.MIN (modulo 2^32), and WEAR_HOUR_UPDATE sets LAST.SEEN to the PTP seconds and clears the hour's
sums. WEAR_RECORD_FLUSH, Die C running, makes MRAM hold each wear record. -/
def Obligations.ModuleBusAndMonitorsAreWatched : Prop :=
  (∀ s d (n : Fin 8) page v, s.busOpen d n = true → s.bit Obj.cageStatus d.die n 1 = true → v ≠ 0 →
    ∃ t, exec (.moduleInterrupt d n [(page, v)]) s = .next t ∧ t.bit Obj.cageSticky d.die n 2 = true
      ∧ s.reported t .c 0x1316 n (p16 [n.val, page, v]) ∧ s.agree t (Obj.cageSticky.addr d.die n :: eventAddrs .c))
  ∧ (∀ s d (n : Fin 8), s.busOpen d n = true → s.bit Obj.cageStatus d.die n 0 = true →
    ∃ t, exec (.mgmtBusNoAck d n) s = .next t ∧ (t.cage d n).noAck = (s.cage d n).noAck + 1
      ∧ ((s.cage d n).noAck < 3 → t.objs = s.objs)
      ∧ (3 ≤ (s.cage d n).noAck → t.bit Obj.cageStatus d.die n 5 = true ∧ t.bit Obj.cageSticky d.die n 3 = true
          ∧ (t.cage d n).stale = true ∧ s.reported t .c 0x1317 n (p16 [n.val])))
  ∧ (∀ s d (n : Fin 8), s.serverUp = true → s.up d.pdie = true → s.cageServed d n = true → s.bit Obj.cageStatus d.die n 5 = true →
    ∃ t, exec (.mgmtBusRetry d n true) s = .next t ∧ t.bit Obj.cageStatus d.die n 5 = false ∧ (t.cage d n).noAck = 0
      ∧ s.agree t [Obj.cageStatus.addr d.die n])
  ∧ (∀ s d (n : Fin 8) delayed temp bias, s.busOpen d n = true → s.bit Obj.cageStatus d.die n 1 = true →
    ∃ t, exec (.monitorPoll d n delayed temp bias) s = .next t
      ∧ (delayed = true → t.rdN Obj.cagePollSkipCount d.die n = min (s.rdN Obj.cagePollSkipCount d.die n + 1) (2 ^ 32 - 1)
          ∧ t.cage d n = s.cage d n)
      ∧ (delayed = false → t.rd Obj.cageModuleTemp d.die n = temp ∧ (t.cage d n).stale = false
          ∧ (t.cage d n).polls = (s.cage d n).polls + 1 ∧ (t.cage d n).noAck = 0
          ∧ ∀ k < 8, (t.cage d n).biasSum.getD k 0 = (s.cage d n).biasSum.getD k 0 + bias.getD k 0))
  ∧ (∀ s d n w, s.serverUp = true → s.wearCages = [(d, n)] → s.rdN Obj.cageWearRecord d.die n = w →
      (s.rdBytes Obj.wearRecord .p w).length = 96 →
    (∃ t, exec .wearMinuteUpdate s = .next t
      ∧ fieldAt (t.rdBytes Obj.wearRecord .p w) 48 4 = (fieldAt (s.rdBytes Obj.wearRecord .p w) 48 4 + 1) % 2 ^ 32)
    ∧ (∃ t, exec .wearHourUpdate s = .next t ∧ fieldAt (t.rdBytes Obj.wearRecord .p w) 42 6 = s.seconds % 2 ^ 48
      ∧ (t.cage d n).polls = 0 ∧ (t.cage d n).biasSum = List.replicate 8 0))
  ∧ (∀ s, s.up .c = true → mapWf s.blobs = true →
    ∃ t, exec .wearRecordFlush s = .next t ∧ t.objs = s.objs ∧ t.blobs = s.blobs
      ∧ ∀ n b, mapGet s.blobs (Obj.wearRecord.addr .p n) = some b → mapGet t.mram.blobs (Obj.wearRecord.addr .p n) = some b)

/-- On a running media die: RX_FRAME at an Ethernet port that is up counts a damaged or over-long frame in NET.PORT.COUNT with
NET.PORT.STICKY bit 0; an ARP reply, with room in the receive FIFO, records the sender's MAC for its address.
ARP_UNRESOLVED_TIMEOUT of a pending address sets NET.PORT.STICKY bit 2 and reports event 0x1420. With flows in force:
MEDIA_PACKET_RECEIVED takes the oldest packet out of the port's FIFO; LEG_TIMEOUT of a live leg whose other leg lives clears
its FLOW.IN.STATUS bit, sets FLOW.IN.STICKY bit 1 and reports event 0x1403 while the flow stays up; FLOW_SWITCH_LINE of a
synchronous video flow ends its frame and counts the samples concealed. -/
def Obligations.ReceivedFramesAreClassifiedOrCounted : Prop :=
  (∀ s d (p : Fin 32) f, s.up d.pdie = true → s.ethPort d p = true → s.portUp d p = true →
      f.good = false ∨ f.len < 64 ∨ 9216 < f.len →
    ∃ t, exec (.rxFrame d p f) s = .next t ∧ t.bit Obj.netPortSticky d.die p 0 = true
      ∧ t.rdN Obj.netPortCount d.die p = min (s.rdN Obj.netPortCount d.die p + 1) Obj.netPortCount.ty.maxVal
      ∧ s.agree t [Obj.netPortCount.addr d.die p, Obj.netPortSticky.addr d.die p] ∧ s.onlyObjs t)
  ∧ (∀ s d (p : Fin 32) len ip mac, s.up d.pdie = true → s.ethPort d p = true → s.portUp d p = true →
      64 ≤ len → len ≤ 9216 → (s.port d p).fifoBytes + len ≤ 65536 →
    ∃ t, exec (.rxFrame d p ⟨len, true, .arpReply ip mac⟩) s = .next t ∧ tabGet (t.port d p).arp ip none = some mac)
  ∧ (∀ s d (p : Fin 32) ip, s.up d.pdie = true → tabGet (s.port d p).arp ip (some 0) = none → s.canReport d.pdie →
    ∃ t, exec (.arpUnresolvedTimeout d p ip) s = .next t ∧ t.bit Obj.netPortSticky d.die p 2 = true
      ∧ s.reported t d.pdie 0x1420 p (payloadOf [(16, p.val), (32, ip)]))
  ∧ (∀ s d (p : Fin 32) f leg u n rest, s.up d.pdie = true → s.inForce = true →
      (s.port d p).fifo = (f, leg, u, n) :: rest →
    ∃ t, exec (.mediaPacketReceived d p) s = .next t ∧ (t.port d p).fifo = rest)
  ∧ (∀ s d (f : Fin 4096) (leg : Fin 2), s.up d.pdie = true → s.inForce = true → descKind (s.inDesc d f) ≠ 0 →
      s.bit Obj.flowInStatus d.die f (leg + 1) = true → s.bit Obj.flowInStatus d.die f (2 - leg) = true →
      s.bit Obj.flowInStatus d.die f 0 = true → s.canReport d.pdie →
    ∃ t, exec (.legTimeout d f leg) s = .next t ∧ t.bit Obj.flowInStatus d.die f (leg + 1) = false
      ∧ t.bit Obj.flowInSticky d.die f 1 = true ∧ t.bit Obj.flowInStatus d.die f 0 = true
      ∧ s.reported t d.pdie 0x1403 f (p16 [f.val, leg.val + 1]))
  ∧ (∀ s d (f : Fin 4096), s.up d.pdie = true → s.inForce = true → descKind (s.inDesc d f) = 1 →
      descBits (s.inDesc d f) 507 507 = 1 →
    ∃ t, exec (.flowSwitchLine d f) s = .next t ∧ (t.flowIn d f).ts = none ∧ (t.flowIn d f).cur = []
      ∧ t.rdN Obj.flowInConcealCount d.die f = min (s.rdN Obj.flowInConcealCount d.die f
          + ((activeSize (s.rdN Obj.flowInFormat d.die f / 256)).1 * (activeSize (s.rdN Obj.flowInFormat d.die f / 256)).2
            - (s.flowIn d f).cur.length)) Obj.flowInConcealCount.ty.maxVal)

/-- On a running media die: QUEUE_PUSH of bytes that fit a used channel's Bolt buffer raises ENC.BOLT.FILL by them, and
QUEUE_POP of no more bytes than it holds lowers it by them. QUEUE_PUSH of a video packet that carries whole pixel groups, or
of a frame's ancillary packets, from an output that sends, to a running flow of that kind, takes the flow's RTP sequence
numbers: the extended number moves on modulo 2^32 by one for the video packet, and by the number of ancillary packets, at
least one. QUEUE_POP of a good cell of an ingress queue lowers the queue's depth by one cell; the packet stays at the head
until its last cell, and an ancillary packet then joins those of its RTP timestamp at the Loom port its flow names. -/
def Obligations.QueuesAreFilledAndDrained : Prop :=
  (∀ s d (ch : Fin 48) n, s.up d.pdie = true → s.encUsed d ch = true →
      s.rdN Obj.encBoltFill d.die ch + n ≤ s.boltBytes d ch →
    ∃ t, exec (.queuePush d (.bolt ch n)) s = .next t ∧ t.rdN Obj.encBoltFill d.die ch = s.rdN Obj.encBoltFill d.die ch + n)
  ∧ (∀ s d (ch : Fin 48) n, s.up d.pdie = true → s.encUsed d ch = true → 0 < s.rdN Obj.encBoltFill d.die ch →
      n ≤ s.rdN Obj.encBoltFill d.die ch →
    ∃ t, exec (.queuePop d (.bolt ch n)) s = .next t ∧ t.rdN Obj.encBoltFill d.die ch = s.rdN Obj.encBoltFill d.die ch - n)
  ∧ (∀ s d (f : Fin 4096) k np rows, s.up d.pdie = true → descKind (s.outDesc d f) = 1 → k < np → s.packed d f k np rows = true →
      s.outSends d (descTarget (s.outDesc d f)) = true → s.sends d f = true →
    ∃ t, exec (.queuePush d (.video f k np rows)) s = .next t ∧ (t.flowOut d f).seq = ((s.flowOut d f).seq + 1) % 2 ^ 32)
  ∧ (∀ s d (f : Fin 4096), s.up d.pdie = true → descKind (s.outDesc d f) = 4 →
      s.outSends d (descTarget (s.outDesc d f)) = true → s.sends d f = true →
    ∃ t, exec (.queuePush d (.anc f)) s = .next t
      ∧ (t.flowOut d f).seq = ((s.flowOut d f).seq
          + max 1 (s.outAnc d (descTarget (s.outDesc d f)) (s.outFrame d (descTarget (s.outDesc d f)))).length) % 2 ^ 32)
  ∧ (∀ s d (q : Fin 4096) p rest, s.up d.pdie = true → s.ingressQueue d q = true → (s.queue d q).pkts = p :: rest →
      tabGet (s.md d).bus.words q 0 = 0 →
      ((s.queue d q).taken + 1 < cellsOf p.len →
        ∃ t, exec (.queuePop d (.cell q 0)) s = .next t ∧ t.depth d q = s.depth d q - 1
          ∧ (t.queue d q).pkts = p :: rest ∧ (t.queue d q).taken = (s.queue d q).taken + 1)
      ∧ (cellsOf p.len ≤ (s.queue d q).taken + 1 → descKind (s.inDesc d p.flow) = 4 → p.poison = false →
        ∃ t, exec (.queuePop d (.cell q 0)) s = .next t ∧ t.depth d q = s.depth d q - 1
          ∧ (t.queue d q).pkts = rest ∧ (t.queue d q).taken = 0
          ∧ (tabGet (t.md d).loom.anc (descTarget (s.inDesc d p.flow)) (0, [])).1 = p.rtp.ts
          ∧ (tabGet (t.md d).loom.anc (descTarget (s.inDesc d p.flow)) (0, [])).2.getLast? = some p.rtp.data))

/-- On a running media die: EGRESS_SCHEDULE at an Ethernet port that is up, transmitter free, no flow declared, no gate list and
no injected parity error, sends the head frame of the port's own queue when its deficit covers it: the frame is driven out
of the port, the queue loses it and the transmitter is busy for its duration. SHAPER_REFILL, each queue listed once, adds
rate times the period in force to the tokens of a shaped queue without a held write and stops at its burst.
PACED_PACKET_RELEASE makes the head packet of a paced leg ready once its release instant has come. FLOW_CONTROL_LANDING at
its instant makes FLOW.OUT.STATE running or stopped. FLOW_OUT_START and FLOW_OUT_STOP outside SELVEDGE, of a declared flow
in force on a reachable die that is stopped, or running, make the control pending for the flow raster's next landing instant
and are answered OK. -/
def Obligations.EgressIsScheduledShapedAndPaced : Prop :=
  (∀ s d (p : Fin 32) h rest, s.up d.pdie = true → s.ethPort d p = true → s.portUp d p = true →
      s.txFree d p (s.now d.pdie * 1000) = true → s.outFlows d = [] → (s.port d p).gates = none → (s.port d p).pending = none →
      (s.queue d (ctlQueue p)).pkts = h :: rest → (s.queue d (ctlQueue p)).rate = 0 → 4096 ≤ h.flow → h.port = p.val →
      tabGet (s.md d).bus.words (ctlQueue p) 0 = 0 →
      (s.frameLen d h : Int) ≤ (s.queue d (ctlQueue p)).deficit →
    ∃ t, exec (.egressSchedule d p) s = .next t ∧ t.sent = s.sent ++ [.frame d p none h]
      ∧ (t.queue d (ctlQueue p)).pkts = rest
      ∧ (t.port d p).tx = some (7, s.now d.pdie * 1000, s.now d.pdie * 1000 + s.framePs d p (s.frameLen d h), false))
  ∧ (∀ s d q, s.up d.pdie = true → ((s.md d).net.queues.map (·.1)).Nodup → (s.queue d q).held = false →
      (s.queue d q).rate ≠ 0 →
    ∃ t, exec (.shaperRefill d) s = .next t
      ∧ t.rd Obj.shpTokens d.die q = min ((s.queue d q).burst * 256 : Int) (s.rd Obj.shpTokens d.die q
          + (((s.queue d q).rate * refillNs (s.md d).net.period * 32 + (s.queue d q).rem) / nsPerSec : Nat)))
  ∧ (∀ s d (f : Fin 4096) (leg : Fin 2) h rest r, s.up d.pdie = true →
      (s.queue d (descQueue (s.outDesc d f) (leg + 1))).pkts = h :: rest → s.paced d h = true → h.flow = f.val →
      h.release = some r → r ≤ s.now d.pdie →
    ∃ t, exec (.pacedPacketRelease d f leg) s = .next t ∧ t.objs = s.objs
      ∧ (t.queue d (descQueue (s.outDesc d f) (leg + 1))).pkts = { h with ready := true } :: rest)
  ∧ (∀ s d (f : Fin 4096) start at_, s.up d.pdie = true → (s.flowOut d f).pend = some (start, at_) → at_ ≤ s.now d.pdie →
    ∃ t, exec (.flowControlLanding d f) s = .next t ∧ t.outState d f = (if start then 2 else 0)
      ∧ (t.flowOut d f).pend = none ∧ (t.flowOut d f).run = start)
  ∧ (∀ s d (f : Fin 4096), s.serverUp = true → s.mode ≠ .selvedge → s.reachable d = true → s.outLive d f = true →
      (s.outState d f = 0 →
        ∃ t, exec (.flowOutStart d f) s = .next t ∧ t.answer = .ok ∧ t.outState d f = 1
          ∧ (t.flowOut d f).pend = some (true, s.controlInstant d f (.ofNs (s.now d.pdie))))
      ∧ (s.outState d f = 2 →
        ∃ t, exec (.flowOutStop d f) s = .next t ∧ t.answer = .ok ∧ t.outState d f = 3
          ∧ (t.flowOut d f).pend = some (false, s.controlInstant d f (.ofNs (s.now d.pdie)))))

/-- GATE_COMMIT with the dictionary server up, outside SELVEDGE, on a reachable die and with a cycle time in its range makes the
shadow set pending with the start of R141, shows it in GATE.STATE and is answered OK; a cycle outside its range is answered
RANGE and nothing else changes. GATE_SET_START on a running die, once the pending set's start has come, makes that set
operative (or opens every gate where it is not enabled), shows it in GATE.STATE and reports event 0x1501.
GATE_ENTRY_BOUNDARY with an operative set, and a frame on the wire whose class is now closed and not counted yet, counts
GATE.COUNT once and reports event 0x1505. -/
def Obligations.GateListsStartAndAreWatched : Prop :=
  (∀ s d (p : Fin 32), s.serverUp = true → s.mode ≠ .selvedge → s.reachable d = true → (s.gateShadow d p).cycleOk = true →
    ∃ t, exec (.gateCommit d p) s = .next t ∧ t.answer = .ok
      ∧ (t.port d p).pending = some (s.gateShadow d p,
          gateStart (fmt (s.md d).time.refFormat) (s.gateShadow d p) (Instant.ofNs (s.now d.pdie)).ceilNs)
      ∧ t.rd Obj.gateState d.die p = (if (s.port d p).gates.isSome then 3 else 2))
  ∧ (∀ s d (p : Fin 32), s.serverUp = true → s.mode ≠ .selvedge → s.reachable d = true → (s.gateShadow d p).cycleOk = false →
    exec (.gateCommit d p) s = .next { s with answer := .range })
  ∧ (∀ s d (p : Fin 32) g st, s.up d.pdie = true → (s.port d p).pending = some (g, st) →
      st.le (.ofNs (s.now d.pdie)) = true → s.canReport d.pdie →
    ∃ t, exec (.gateSetStart d p) s = .next t ∧ (t.port d p).pending = none
      ∧ (t.port d p).gates = (if g.enable then some g else none)
      ∧ t.rd Obj.gateState d.die p = (if g.enable then 1 else 0)
      ∧ s.reported t d.pdie 0x1501 p (p16 [p.val, if g.enable then 1 else 0]))
  ∧ (∀ s d (p : Fin 32) tc st e, s.up d.pdie = true → (s.port d p).gates.isSome = true →
      (s.port d p).tx = some (tc, st, e, false) → s.now d.pdie * 1000 < e →
      s.gateOpenPs d p tc (s.now d.pdie * 1000) = some 0 → s.canReport d.pdie →
    ∃ t, exec (.gateEntryBoundary d p) s = .next t
      ∧ t.rdN Obj.gateCount d.die p = min (s.rdN Obj.gateCount d.die p + 1) Obj.gateCount.ty.maxVal
      ∧ (t.port d p).tx = some (tc, st, e, true) ∧ s.reported t d.pdie 0x1505 p (p16 [p.val, tc]))

/-- With the dictionary server up, outside SELVEDGE, on reachable dies and with no earlier package commit due: LOOM_GROUP_COMMIT
(Loom section on) of a group whose shadow routes are all black makes black the pending route of every destination of the
group that has a consumer or a route, shows it in LOOM.ROUTE.PENDING and is answered OK. LOOM_GROUP_COMMIT_PACKAGE sets the
commit down for the instant 100 µs after Die C's time, where Die A's time has not reached it; once that instant has come,
the due commits are made (State.runDue), and such a group is taken on both dies in the same way. LOOM_GROUP_COMMIT of a
group with one destination whose shadow route is not a coded route is answered REJECTED: LOOM.STICKY bit 0 is set,
LOOM.COUNT counts, event 0x1601 is logged with reason 1, and every destination keeps the state it had. LOOM_DST_BACKUP_WRITE
of black stores it, in MRAM too, and is answered OK; a value that is no coded route is answered RANGE and changes nothing
else. -/
def Obligations.LoomGroupsCommitWholeOrNotAtAll : Prop :=
  (∀ s d (g : Fin 256), s.serverUp = true → s.mode ≠ .selvedge → s.reachable d = true → s.loomOn d = true →
      (∀ c ∈ s.twill.due, c.2.2.le (.ofNs s.time.base) = false) →
      (∀ p ∈ s.groupDsts d g, s.rdN Obj.loomRouteSource d.die p = 0) →
    ∃ t, exec (.loomGroupCommit d g) s = .next t ∧ t.answer = .ok
      ∧ ∀ p ∈ s.groupDsts d g, (t.dst d p).pend.map (·.route) = some 0 ∧ t.rd Obj.loomRoutePending d.die p = 0)
  ∧ (∀ s (g : Fin 256), s.serverUp = true → s.mode ≠ .selvedge → s.reachable .a = true → s.reachable .b = true →
      (∀ c ∈ s.twill.due, c.2.2.le (.ofNs s.time.base) = false) →
      (Instant.ofNs (s.time.base + 100000)).le (.ofNs (s.now .a)) = false →
    exec (.loomGroupCommitPackage g) s = .next (s.updTwill (fun w =>
      { w with due := w.due ++ [([.a, .b], g.val, Instant.ofNs (s.time.base + 100000))] })))
  ∧ (∀ (s : State) (g : Nat) i, s.loomOn .a = true → s.loomOn .b = true → s.twill.due = [([.a, .b], g, i)] →
      i.le (.ofNs s.time.base) = true → (∀ (d : MDie), ∀ p ∈ s.groupDsts d g, s.rdN Obj.loomRouteSource d.die p = 0) →
    s.runDue.answer = .ok ∧ s.runDue.twill.due = []
      ∧ ∀ (d : MDie), ∀ p ∈ s.groupDsts d g, (s.runDue.dst d p).pend.map (·.route) = some 0
          ∧ s.runDue.rd Obj.loomRoutePending d.die p = 0)
  ∧ (∀ s d (g : Fin 256) p, s.serverUp = true → s.mode ≠ .selvedge → s.reachable d = true → s.loomOn d = true →
      (∀ c ∈ s.twill.due, c.2.2.le (.ofNs s.time.base) = false) →
      s.groupDsts d g = [p] → routeCoded (s.rdN Obj.loomRouteSource d.die p) = false →
    ∃ t, exec (.loomGroupCommit d g) s = .next t ∧ t.answer = .rejected 0x1601 ∧ t.bit Obj.loomSticky d.die 0 0 = true
      ∧ t.rdN Obj.loomCount d.die 0 = min (s.rdN Obj.loomCount d.die 0 + 1) Obj.loomCount.ty.maxVal
      ∧ s.reported t .c 0x1601 p (p16 [1, g.val, p]) ∧ ∀ e q, t.dst e q = s.dst e q)
  ∧ (∀ s d (p : Fin 256), s.serverUp = true → s.mode ≠ .selvedge → s.reachable d = true →
    (∃ t, exec (.loomDstBackupWrite d p 0) s = .next t ∧ t.answer = .ok ∧ t.rd Obj.loomDstBackup d.die p = 0
      ∧ mapGet t.mram.objs (Obj.loomDstBackup.addr d.die p) = some 0)
    ∧ ∀ r, 2 ^ 32 ≤ r ∨ routeCoded r = false →
        exec (.loomDstBackupWrite d p r) s = .next { s with answer := .range })

/-- DST_SWITCH_LINE, Loom section on, with a pending route whose landing instant has come and no commit waiting for a Twill
channel: the pending route becomes the primary one and LOOM.ROUTE.ACTIVE shows it, LOOM.ROUTE.PENDING reads 0xFFFFFFFF,
LOOM.DST.COUNT counts one, and no loss is noted any more. SOURCE_LOSS_DETECT, Loom section on, first notes what the package
of a source over Twill reports; a destination whose primary route is then lost keeps the first cause and starts no time free
of loss, cause 4 setting LOOM.DST.STICKY bit 2; one whose primary route is not lost begins or goes on with its time free of
loss. No other object changes. DIE_BRIDGE_DOWN clears LOOM.STATUS bit 1 of each running die, and sets LOOM.STICKY bit 1
where bridge channels were held; DIE_BRIDGE_RESTORED sets LOOM.STATUS bit 1 of both dies once both run. -/
def Obligations.DestinationsSwitchAndLoseTheirSource : Prop :=
  (∀ s d (p : Fin 256) pr, s.loomOn d = true → (s.dst d p).pend = some pr → pr.land ≤ s.now d.pdie → s.twill.open_ = [] →
      (∀ c ∈ s.twill.due, c.2.2.le (.ofNs s.time.base) = false) →
    ∃ t, exec (.dstSwitchLine d p) s = .next t ∧ (t.dst d p).primary = pr.route ∧ (t.dst d p).pend = none
      ∧ (t.dst d p).lost = none ∧ t.rd Obj.loomRouteActive d.die p = (pr.route : Nat)
      ∧ t.rd Obj.loomRoutePending d.die p = 0xFFFFFFFF
      ∧ t.rdN Obj.loomDstCount d.die p = min (s.rdN Obj.loomDstCount d.die p + 1) Obj.loomDstCount.ty.maxVal)
  ∧ (∀ s d (p : Fin 256) (m : Fin 5) u, s.loomOn d = true →
      s.noteRemote d p (s.dst d p).primary (if m.val = 0 then none else some m.val) = u →
    (∀ c, u.routeLoss d p (s.dst d p).primary = some c →
      ∃ t, exec (.sourceLossDetect d ⟨p, m⟩) s = .next t ∧ (t.dst d p).lost = some ((s.dst d p).lost.getD c)
        ∧ (t.dst d p).freeSince = none ∧ (c = 4 → t.bit Obj.loomDstSticky d.die p 2 = true)
        ∧ s.agree t [Obj.loomDstSticky.addr d.die p])
    ∧ (u.routeLoss d p (s.dst d p).primary = none →
      ∃ t, exec (.sourceLossDetect d ⟨p, m⟩) s = .next t ∧ (t.dst d p).lost = (s.dst d p).lost
        ∧ (t.dst d p).freeSince = some ((s.dst d p).freeSince.getD (s.now d.pdie)) ∧ t.objs = s.objs))
  ∧ (∀ s, ∃ t, exec .dieBridgeDown s = .next t ∧ s.onlyObjs t
      ∧ ∀ d : MDie, s.up d.pdie = true → t.bit Obj.loomStatus d.die 0 1 = false
          ∧ (s.rdN Obj.loomBridgeTxUsed d.die 0 ≠ 0 → t.bit Obj.loomSticky d.die 0 1 = true))
  ∧ (∀ s, s.up .a = true → s.up .b = true →
    ∃ t, exec .dieBridgeRestored s = .next t ∧ s.onlyObjs t ∧ (∀ d : MDie, t.bit Obj.loomStatus d.die 0 1 = true)
      ∧ s.agree t [Obj.loomStatus.addr .a 0, Obj.loomStatus.addr .b 0])

/-- On a running media die, of a synchronizer that runs: FSY_WRITER_FRAME_START with no frame being written and a ring with room
starts an empty frame with the timestamp and counts it for the rate; FSY_FRAME_COMPLETE makes the frame being written the
newest unread one and sets FSY.STATUS bit 1. FSY_READ_DECISION outside SELVEDGE, of a synchronizer that is alone in its bond
and holds an unread frame that completed before now, under a policy other than 1, shows the oldest unread frame and takes it
out of the ring. FSY_RATE_MEASUREMENT after 64 input frames shows their rate against nominal in parts per billion where it
fits S32, and starts the next measurement. -/
def Obligations.FrameSynchronizersWriteAndReadWholeFrames : Prop :=
  (∀ s d (n : Fin 32) ts, s.up d.pdie = true → s.fsyRuns d n = true → (s.fsy d n).writing = none →
      (s.fsy d n).unread.length + 2 ≠ s.rdN Obj.fsySlots d.die n →
    ∃ t, exec (.fsyWriterFrameStart d n ts) s = .next t ∧ (t.fsy d n).writing.map (·.ts) = some ts
      ∧ (t.fsy d n).writing.map (·.pix) = some [] ∧ (t.fsy d n).unread = (s.fsy d n).unread
      ∧ (t.fsy d n).rateCount = (s.fsy d n).rateCount + 1)
  ∧ (∀ s d (n : Fin 32) pic, s.up d.pdie = true → s.fsyRuns d n = true → (s.fsy d n).writing = some pic →
    ∃ t, exec (.fsyFrameComplete d n) s = .next t ∧ (t.fsy d n).writing = none ∧ t.bit Obj.fsyStatus d.die n 1 = true
      ∧ (t.fsy d n).unread.map (·.ts) = (s.fsy d n).unread.map (·.ts) ++ [pic.ts])
  ∧ (∀ s d (n : Fin 32) pic rest, s.up d.pdie = true → s.mode ≠ .selvedge → s.fsyRuns d n = true →
      (s.fsyMember d n).2 = 0 → s.fsyBond d n = [n.val] → s.rdN Obj.fsyPolicy d.die n ≠ 1 →
      (s.fsy d n).unread = pic :: rest → pic.done < s.now d.pdie →
    ∃ t, exec (.fsyReadDecision d n) s = .next t ∧ (t.fsy d n).shown.now = some pic ∧ (t.fsy d n).unread = rest
      ∧ t.rd Obj.fsyFill d.die n = (rest.length : Nat))
  ∧ (∀ s d (n : Fin 32) f rate, s.up d.pdie = true → s.fsyRuns d n = true → 64 < (s.fsy d n).rateCount →
      (s.fsy d n).rateStart < s.now d.pdie → fmt (s.rdN Obj.fsyFormat d.die n) = f →
      divFlr ((64 * f.den * nsPerSec * 1000000000 : Nat) : Int)
        (f.num * (s.now d.pdie - (s.fsy d n).rateStart : Nat)) - 1000000000 = rate → satS rate 32 = rate →
    ∃ t, exec (.fsyRateMeasurement d n) s = .next t ∧ t.rd Obj.fsyRate d.die n = rate ∧ (t.fsy d n).rateCount = 1
      ∧ (t.fsy d n).rateStart = s.now d.pdie)

/-- Die C running: HELLO_SEND drives one HELLO flit on every link whose port is up and that is not parked, and changes nothing
else. HELLO_RECEIVED on a served link stores the peer; before the third in a row of a link that is down it shows
TWL.LINK.STATE 2, and the third, from a package with no reason against joining, shows 3 and logs event 0x3301.
LINK_HELLO_TIMEOUT 8 ms after the last HELLO of a link that is up shows state 1, sets TWL.STICKY bit 0 and logs event
0x3302. LINK_STATE_RECEIVED over a link that is up notes the instant at which the records last changed. ROOT_ELECTION 20 ms
later judges every link; then a package with no reason against joining shows TWL.STATE 3 at the root and 2 elsewhere and
TWL.ROOT.SERIAL the lowest serial number, and one with a reason shows TWL.STATE 4 and TWL.PACKAGES 0. ID_ASSIGN_RECEIVED for
this package's serial and another ID changes TWL.DEVICE.ID, sets TWL.STICKY bit 3 and logs event 0x3306. ID_HOLD_EXPIRY
drops exactly the holds whose time is over. -/
def Obligations.TwillLinksComeUpAndAreLost : Prop :=
  (∀ s, s.up .c = true →
    exec .helloSend s = .next { s with sent := s.sent ++
      (s.twlLinks.filter (fun l => s.up l.1.pdie && s.twlPortUp l.1 l.2 && s.tlinkState l.1 l.2 != 4)).map (fun l =>
        ctrlSent l (s.twlMsg 0xFF (.hello s.twlSelf l.1.num l.2 (s.rdN Obj.twlState .p 0)))) })
  ∧ (∀ s d (q : Fin 8) p pd pq, s.twlLive d q = true → s.twlPortUp d q = true → s.rdN Obj.twlEnable .p 0 = 1 →
      s.tlinkState d q < 3 →
    ∃ t, exec (.helloReceived d q p pd pq) s = .next t ∧ (t.tlink d q).peer = p
      ∧ (t.tlink d q).hellos = (s.tlink d q).hellos + 1 ∧ (t.tlink d q).last = s.time.base
      ∧ ((s.tlink d q).hellos + 1 < 3 → t.tlinkState d q = 2)
      ∧ (3 ≤ (s.tlink d q).hellos + 1 → s.linkReason p = none →
          t.tlinkState d q = 3 ∧ s.reported t .c 0x3301 q (p16 [d.num, q.val, p.id])))
  ∧ (∀ s d (q : Fin 8), s.twlLive d q = true → s.tlinkState d q = 3 → (s.tlink d q).last + 8000000 ≤ s.time.base →
    ∃ t, exec (.linkHelloTimeout d q) s = .next t ∧ t.tlinkState d q = 1 ∧ t.bit Obj.twlSticky .p 0 0 = true
      ∧ s.reported t .c 0x3302 q (p16 [d.num, q.val]))
  ∧ (∀ s d (q : Fin 8) src dst hops gen p recs, s.twlLive d q = true → s.tlinkState d q = 3 →
      p.serial ≠ s.twlSelf.serial → s.twill.recs.filter (fun r => r.id == p.id) ≠ recs →
    ∃ t, exec (.linkStateReceived d q ⟨src, dst, hops, gen, .linkState p recs⟩) s = .next t
      ∧ t.twill.changed = s.time.base)
  ∧ (∀ s u, s.up .c = true → s.rdN Obj.twlEnable .p 0 = 1 → s.twill.changed + 20000000 ≤ s.time.base → s.judgeLinks = u →
    (∀ root, u.selfReason = none →
        rootOf ((u.twlSelf :: u.twill.pkgs).filter (fun p => joinReason (u.twlSelf :: u.twill.pkgs) p == none)) = some root →
      ∃ t, exec .rootElection s = .next t ∧ t.rdN Obj.twlRootSerial .p 0 = root.serial
        ∧ t.rdN Obj.twlState .p 0 = (if root.serial = s.twlSelf.serial then 3 else 2))
    ∧ (u.selfReason ≠ none →
      ∃ t, exec .rootElection s = .next t ∧ t.rdN Obj.twlState .p 0 = 4 ∧ t.rdN Obj.twlPackages .p 0 = 0))
  ∧ (∀ s id, s.up .c = true → s.rdN Obj.twlEnable .p 0 = 1 → id ≠ s.twlId →
    ∃ t, exec (.idAssignReceived s.twlSelf.serial id) s = .next t ∧ t.rd Obj.twlDeviceId .p 0 = (id : Nat)
      ∧ t.bit Obj.twlSticky .p 0 3 = true ∧ s.reported t .c 0x3306 0 (p16 [s.twlId, id]))
  ∧ (∀ s, s.up .c = true → ∃ t, exec .idHoldExpiry s = .next t ∧ t.objs = s.objs
      ∧ ∀ h, h ∈ t.twill.held ↔ h ∈ s.twill.held ∧ s.time.base < h.2.2)

/-- On a served link that is up: ALLOC_RECEIVED at the source package, of a port with free read taps and with a free slot and
transmit channel, takes the lowest free slot and transmit channel and drives ALLOC ACK with the slot and what it tells of
the source; without a free tap, or without slot or channel, it drives ALLOC NACK, saying which, and takes nothing.
ALLOC_ACK_RECEIVED at the receive end of a channel that waits (TWL.CH.STATE 1) makes it stream (2), and no commit waits for
it any more. ALLOC_NACK_RECEIVED at the receive end of a channel that no commit waits for, and for which the source has no
tap or no other path remains, frees it (state 0). FREE_RECEIVED at the source package releases every slot the channel held
on its links and its transmit channel. CHANNEL_REROUTE of a lost channel not tried in this generation of the fabric, with no
lower one of its die due, Die C running, releases the old path and shows state 4 where a path is found; otherwise the
channel stays lost and counts as tried, TWL.STICKY bit 5 is set and event 0x3309 is logged. -/
def Obligations.TwillChannelsAreAllocatedAndFreed : Prop :=
  (∀ s d (q : Fin 8) src hops gen rxDie rx srcDie port path e, s.twlLive d q = true → s.tlinkState d q = 3 →
      (if srcDie = 0 then MDie.a else .b) = e →
    (∀ n slot, s.tapsOf e port < 64 → lowestFree s.twill.tx (e.num * 256) twlChannels = some n →
        lowestFree (s.tlink d q).tx 0 twlSlots = some slot →
      ∃ t, exec (.allocReceived d q ⟨src, s.twlId, hops, gen, .alloc rxDie rx srcDie port path⟩) s = .next t
        ∧ t.sent = s.sent ++ [ctrlSent (d, q) ⟨s.twlId, src, 0, s.twlGen, .allocAck rxDie rx slot (s.srcTold e port)⟩]
        ∧ (t.tlink d q).tx = tabSet (s.tlink d q).tx slot (src, rxDie, rx)
        ∧ tabGet (t.twill.tx.map (fun x => (x.1, some (x.2.port, x.2.device, x.2.rxDie, x.2.rx)))) (twlKey e n) none
            = some (port, src, rxDie, rx))
    ∧ (64 ≤ s.tapsOf e port →
      exec (.allocReceived d q ⟨src, s.twlId, hops, gen, .alloc rxDie rx srcDie port path⟩) s =
        .next (s.send (ctrlSent (d, q) ⟨s.twlId, src, 0, s.twlGen, .allocNack rxDie rx ⟨s.twlId, d.num, q⟩ true⟩)))
    ∧ (s.tapsOf e port < 64 →
        lowestFree s.twill.tx (e.num * 256) twlChannels = none ∨ lowestFree (s.tlink d q).tx 0 twlSlots = none →
      exec (.allocReceived d q ⟨src, s.twlId, hops, gen, .alloc rxDie rx srcDie port path⟩) s =
        .next (s.send (ctrlSent (d, q) ⟨s.twlId, src, 0, s.twlGen, .allocNack rxDie rx ⟨s.twlId, d.num, q⟩ false⟩))))
  ∧ (∀ s d (q : Fin 8) src hops gen (e : MDie) rx slot told, s.twlLive d q = true → s.tlinkState d q = 3 →
      s.rdN Obj.twlChState e.die rx = 1 →
    ∃ t, exec (.allocAckReceived d q ⟨src, s.twlId, hops, gen, .allocAck e.num rx slot told⟩) s = .next t
      ∧ t.rdN Obj.twlChState e.die rx = 2 ∧ (∀ c ∈ t.twill.open_, (e, rx) ∉ c.wait)
      ∧ tabGet (t.tlink d q).rx slot (0, 0, 0) = (s.twlId, e.num, rx))
  ∧ (∀ s d (q : Fin 8) src hops gen (e : MDie) rx h taps c, s.twlLive d q = true → s.rdN Obj.twlChState e.die rx ≠ 4 →
      s.twill.rx.find? (fun x => x.1 == twlKey e rx) = some (twlKey e rx, c) →
      taps = true ∨ s.findPath c.device c.srcDie e (c.refused ++ [h]) = none →
      (∀ o ∈ s.twill.open_, (e, rx) ∉ o.wait) →
    ∃ t, exec (.allocNackReceived d q ⟨src, s.twlId, hops, gen, .allocNack e.num rx h taps⟩) s = .next t
      ∧ t.rdN Obj.twlChState e.die rx = 0)
  ∧ (∀ s d (q : Fin 8) src hops gen rxDie rx path, s.twlLive d q = true →
    ∃ t, exec (.freeReceived d q ⟨src, s.twlId, hops, gen, .free rxDie rx path⟩) s = .next t
      ∧ (∀ l r, (t.tlink l r).tx = (s.tlink l r).tx.filter (fun e => e.2 != (src, rxDie, rx))
          ∧ (t.tlink l r).rx = (s.tlink l r).rx.filter (fun e => e.2 != (src, rxDie, rx)))
      ∧ ∀ e ∈ t.twill.tx, ¬ (e.2.device = src ∧ e.2.rxDie = rxDie ∧ e.2.rx = rx))
  ∧ (∀ s d (n : Fin 128) k c v, s.up .c = true → s.rxDue d n = true → (∀ m < n.val, s.rxDue d m = false) →
      s.twill.rx.find? (fun x => x.1 == twlKey d n) = some (k, c) → s.freeOld d n c = v →
    (∀ u, v.tryPath d n { c with refused := [] } 4 = some u →
      exec (.channelReroute d n) s = .next u ∧ u.rdN Obj.twlChState d.die n = 4)
    ∧ (v.tryPath d n { c with refused := [] } 4 = none →
      ∃ t, exec (.channelReroute d n) s = .next t ∧ t.rdN Obj.twlChState d.die n = 3 ∧ t.bit Obj.twlSticky .p 0 5 = true
        ∧ s.reported t .c 0x3309 n (p16 [n.val]) ∧ t.rxDue d n = false))

/-- On a served link: LINK_DELAY_MEASUREMENT (link up) shows half of round trip less turnaround in TWL.LINK.DELAY;
DELAY_REQUEST_RECEIVED drives the response with the turnaround and changes nothing else; LINK_PARK of a link without
channels for 10 s, TWL.PARK 1, shows state 4; PARKED_LINK_WAKE shows state 3 where the partner answered and loses the link
(state 1, event 0x3302) where it did not; MEDIA_FLIT_RECEIVED in transit drives the flit with only its slot rewritten, and
at the receive end counts the missing flits in TWL.CH.LOST.COUNT and TWL.LINK.FLIT.LOST and expects the next sequence
number; CONTROL_FLIT_RECEIVED with a bad CRC counts TWL.LINK.CTRL.BAD, and a message addressed here is left to the command
of its type. TWILL_SYNC_SEND, Die C running, drives one SYNC on every link that is up, with time, state and hops from the
root. -/
def Obligations.TwillLinksMeasureParkAndCarryFlits : Prop :=
  (∀ s d (q : Fin 8) trip turn, s.twlLive d q = true → s.tlinkState d q = 3 →
    ∃ t, exec (.linkDelayMeasurement d q trip turn) s = .next t
      ∧ t.rd Obj.twlLinkDelay d.die q = ((trip - turn) / 2 : Nat) ∧ (t.tlink d q).measured = true ∧ (t.tlink d q).asked = some s.time.base)
  ∧ (∀ s d (q : Fin 8) t0 turn, s.twlLive d q = true →
    exec (.delayRequestReceived d q t0 turn) s = .next (s.send (ctrlSent (d, q) (s.twlMsg 0xFF (.delayResp t0 turn)))))
  ∧ (∀ s d (q : Fin 8), s.twlLive d q = true → s.tlinkState d q = 3 → s.rdN Obj.twlPark .p 0 = 1 →
      (s.tlink d q).tx = [] → (s.tlink d q).rx = [] → (s.tlink d q).idle + 10 * nsPerSec ≤ s.time.base →
    ∃ t, exec (.linkPark d q) s = .next t ∧ t.tlinkState d q = 4 ∧ t.twill.links = s.twill.links)
  ∧ (∀ s d (q : Fin 8), s.twlLive d q = true → s.tlinkState d q = 4 →
    (∃ t, exec (.parkedLinkWake d q true) s = .next t ∧ t.tlinkState d q = 3 ∧ (t.tlink d q).last = s.time.base)
    ∧ (∃ t, exec (.parkedLinkWake d q false) s = .next t ∧ t.tlinkState d q = 1
        ∧ s.reported t .c 0x3302 q (p16 [d.num, q.val])))
  ∧ (∀ s d (q : Fin 8) f k (l : MDie) (r : Fin 8) slot, s.twlLive d q = true → s.tlinkState d q = 3 →
      s.twill.fwd.find? (fun e => e.1 == (d.num * 8 + q) * 64 + f.slot) = some (k, l.num * 8 + r, slot) →
    exec (.mediaFlitReceived d q f) s = .next (s.send (.twlFlit l r { f with slot := slot })))
  ∧ (∀ s d (q : Fin 8) f dev (e : MDie) rx k c n, s.twlLive d q = true → s.tlinkState d q = 3 →
      s.twill.fwd.find? (fun e => e.1 == (d.num * 8 + q) * 64 + f.slot) = none →
      (s.tlink d q).rx.find? (fun e => e.1 == f.slot) = some (f.slot, dev, e.num, rx) →
      s.twill.rx.find? (fun x => x.1 == twlKey e rx) = some (k, c) → c.seq = some n →
    ∃ t, exec (.mediaFlitReceived d q f) s = .next t
      ∧ t.rdN Obj.twlChLostCount e.die rx
          = (if (f.seq + 65536 - n) % 65536 = 0 then s.rdN Obj.twlChLostCount e.die rx
             else min (s.rdN Obj.twlChLostCount e.die rx + (f.seq + 65536 - n) % 65536) Obj.twlChLostCount.ty.maxVal)
      ∧ (tabGet t.twill.rx (twlKey e rx) c).seq = some ((f.seq + 1) % 65536))
  ∧ (∀ s d (q : Fin 8) kind3 crcOk m, s.twlLive d q = true →
      ((kind3 = true ∨ crcOk = false) → ∃ t, exec (.controlFlitReceived d q kind3 crcOk m) s = .next t
        ∧ t.rdN Obj.twlLinkCtrlBad d.die q = min (s.rdN Obj.twlLinkCtrlBad d.die q + 1) Obj.twlLinkCtrlBad.ty.maxVal
        ∧ s.agree t [Obj.twlLinkCtrlBad.addr d.die q] ∧ s.onlyObjs t)
      ∧ (kind3 = false → crcOk = true → m.dst = s.twlId → exec (.controlFlitReceived d q kind3 crcOk m) s = .next s))
  ∧ (∀ s, s.up .c = true →
    exec .twillSyncSend s = .next { s with sent := s.sent ++
      (s.twlLinks.filter (fun l => s.tlinkState l.1 l.2 == 3)).map (fun l => ctrlSent l
        (s.twlMsg 0xFF (.sync (s.time.base / nsPerSec) (s.time.base % nsPerSec) (s.rdN Obj.timeState .c 0) s.rootHops))) })

/-- With the dictionary server up, outside SELVEDGE, on a reachable die: CNV_CHAIN_COMMIT of a chain in use, where checks and
allocations pass, makes the shadow set pending, sets CNV.CHAIN.STATUS bit 2 and is answered OK; where they do not, it is
answered REJECTED with 0x1702 or 0x1703, counted in CNV.COUNT with CNV.STICKY bit 0, and the pending set stays as it was.
CHAIN_CONFIG_APPLY at or after the landing instant makes the pending set the working one, clears bit 2, sets bit 0 and
counts CNV.CHAIN.COUNT. CNV_COEF_SET_WRITE of a set in use is answered ACCESS, of other than 1,024 bytes LENGTH; a set not
in use whose phases all obey R181 is stored, in MRAM too, and answered OK; one with a bad phase is answered REJECTED with
CNV.STICKY bit 1 and event 0x1704 of Die C naming the first bad phase, and the set keeps its bytes. -/
def Obligations.ConversionChainsCommitAndApplyTheirSets : Prop :=
  (∀ s d (n : Fin 32), s.serverUp = true → s.mode ≠ .selvedge → s.reachable d = true → s.chainUsed d n = true →
      (((s.ans .ok).chainCommit d n (.ofNs (s.now d.pdie))).2 = true →
        ∃ t, exec (.cnvChainCommit d n) s = .next t ∧ t.answer = .ok
          ∧ (t.chain d n).pend.map (·.1) = some (s.chainShadow d n) ∧ t.bit Obj.cnvChainStatus d.die n 2 = true)
      ∧ (((s.ans .ok).chainCommit d n (.ofNs (s.now d.pdie))).2 = false →
        ∃ t, exec (.cnvChainCommit d n) s = .next t ∧ (t.answer = .rejected 0x1702 ∨ t.answer = .rejected 0x1703)
          ∧ (t.chain d n).pend = (s.chain d n).pend ∧ t.bit Obj.cnvSticky d.die 0 0 = true
          ∧ t.rdN Obj.cnvCount d.die 0 = min (s.rdN Obj.cnvCount d.die 0 + 1) Obj.cnvCount.ty.maxVal))
  ∧ (∀ s d (n : Fin 32) g land, s.up d.pdie = true → s.secOn d secCnv = true → (s.chain d n).pend = some (g, land) →
      land ≤ s.now d.pdie →
    ∃ t, exec (.chainConfigApply d n) s = .next t ∧ (t.chain d n).work = some g ∧ (t.chain d n).pend = none
      ∧ t.bit Obj.cnvChainStatus d.die n 2 = false ∧ t.bit Obj.cnvChainStatus d.die n 0 = true
      ∧ t.rdN Obj.cnvChainCount d.die n = min (s.rdN Obj.cnvChainCount d.die n + 1) Obj.cnvChainCount.ty.maxVal)
  ∧ (∀ s d (n : Fin 64) b, s.serverUp = true → s.mode ≠ .selvedge → s.reachable d = true →
      (b.length ≠ 1024 → exec (.cnvCoefSetWrite d n b) s = .next { s with answer := .length })
      ∧ (b.length = 1024 → s.rdN Obj.cnvCoefUsers d.die n ≠ 0 →
          exec (.cnvCoefSetWrite d n b) s = .next { s with answer := .access })
      ∧ (b.length = 1024 → s.rdN Obj.cnvCoefUsers d.die n = 0 → (∀ ph < 64, coefPhaseOk b ph = true) →
          ∃ t, exec (.cnvCoefSetWrite d n b) s = .next t ∧ t.answer = .ok ∧ t.rdBytes Obj.cnvCoefSet d.die n = b
            ∧ mapGet t.mram.blobs (Obj.cnvCoefSet.addr d.die n) = some b ∧ t.objs = s.objs)
      ∧ (b.length = 1024 → s.rdN Obj.cnvCoefUsers d.die n = 0 → ∀ ph < 64,
          coefPhaseOk b ph = false → (∀ k < ph, coefPhaseOk b k = true) →
          ∃ t, exec (.cnvCoefSetWrite d n b) s = .next t ∧ t.answer = .rejected 0x1704
            ∧ s.reported t .c 0x1704 n (p16 [n.val, ph, coefSum b ph]) ∧ t.bit Obj.cnvSticky d.die 0 1 = true
            ∧ t.rdBytes Obj.cnvCoefSet d.die n = s.rdBytes Obj.cnvCoefSet d.die n))

/-- FRC_OUTPUT_PICTURE on a running die, section on, of a working chain in frame mode: a chain without converter shows the frame
store's picture and changes no object but CNV.CHAIN.STATUS. With a converter m, for the position k and ph of R190: where
pictures k and k + 1 are stored and no motion field is at hand, the picture falls back whole, CNV.FRC.FALLBACK.COUNT counts,
CNV.FRC.STATUS bit 3 and CNV.FRC.STICKY bits 0 and 2 are set; where one of them is not stored, a converter that holds k + 1
or has held it since its last commit sets CNV.FRC.STICKY bit 1, counts CNV.FRC.MISS.COUNT and reports event 0x1711, and one
that has not changes no object. -/
def Obligations.OutputPicturesComeFromTheStoredOnes : Prop :=
  ∀ s d (n : Fin 32) g, s.up d.pdie = true → s.secOn d secCnv = true → (s.chain d n).work = some g →
      s.frameMode d n = true →
    (s.rdN Obj.cnvChainFrc d.die n = 0xFF →
      ∃ t, exec (.frcOutputPicture d n) s = .next t ∧ s.agree t [Obj.cnvChainStatus.addr d.die n]
        ∧ t = s.storePicture d n g (coordOf (fmt (s.chainOut d n).format) (s.chainOut d n).ofs (s.now d.pdie)).frame)
    ∧ ∀ m k q ph, s.rdN Obj.cnvChainFrc d.die n = m → m ≠ 0xFF →
        frcPosition (fmt (s.chainIn d n).format) (fmt (s.chainOut d n).format) (s.chainIn d n).ofs (s.chainOut d n).ofs
          (coordOf (fmt (s.chainOut d n).format) (s.chainOut d n).ofs (s.now d.pdie)).frame = (q, ph) →
        q - s.rdN Obj.cnvFrcDelay d.die m = k →
      (((s.chain d n).picture k).isSome = true → ((s.chain d n).picture (k + 1)).isSome = true →
          s.fieldFor d n m (k + 1).toNat = none →
        ∃ t, exec (.frcOutputPicture d n) s = .next t ∧ t.bit Obj.cnvFrcStatus d.die m 3 = true
          ∧ t.bit Obj.cnvFrcSticky d.die m 0 = true ∧ t.bit Obj.cnvFrcSticky d.die m 2 = true
          ∧ t.rdN Obj.cnvFrcFallbackCount d.die m
              = min (s.rdN Obj.cnvFrcFallbackCount d.die m + 1) Obj.cnvFrcFallbackCount.ty.maxVal)
      ∧ ((s.chain d n).picture k = none ∨ (s.chain d n).picture (k + 1) = none →
          ((s.chain d n).ready = false → (s.chain d n).picture (k + 1) = none →
            ∃ t, exec (.frcOutputPicture d n) s = .next t ∧ t.objs = s.objs)
          ∧ ((s.chain d n).ready = true ∨ ((s.chain d n).picture (k + 1)).isSome = true → s.canReport d.pdie →
              ∃ t, exec (.frcOutputPicture d n) s = .next t ∧ t.bit Obj.cnvFrcSticky d.die m 1 = true
                ∧ t.rdN Obj.cnvFrcMissCount d.die m = min (s.rdN Obj.cnvFrcMissCount d.die m + 1) Obj.cnvFrcMissCount.ty.maxVal
                ∧ (t.chain d n).ready = true ∧ s.reported t d.pdie 0x1711 m (p16 [m])))

/-- With the dictionary server up, outside SELVEDGE, on a reachable die: COMP_SURF_DATA_WRITE of at most 65,536 bytes that end
inside the graphics region is answered OK, stores them at the offset and advances it; past the region it is answered RANGE.
CMP_COMMIT and CMP_FELT_REBUILD of a compositor in use, where checks and allocations pass, make the shadow set pending with
CMP.STATUS bit 1 and are answered OK; where not, they are answered REJECTED with 0x1802 and the pending set stays. On a
running die, section on: FELT_PRESS_START of a queued press whose turn it is starts the press with its end instant;
FELT_PRESS_COMPLETE after that instant keeps the pressed surface and counts CMP.FELT.COUNT. GUARD_TEST of a compositor with
a pending set that is not late, on a raster that runs, moves it to staging with the surface pressed for it, or, while a
press holds it, counts the lost frame; LATCH makes a staged set the working one and counts CMP.COUNT. GUARD_TEST and LATCH
of a compositor number above 7 stop with noSuchUnit: there are 8 compositors. -/
def Obligations.CompositorsCommitPressAndLatch : Prop :=
  (∀ s d b, s.serverUp = true → s.mode ≠ .selvedge → s.reachable d = true → b.length ≤ 65536 →
      (s.rdN Obj.compSurfOffset d.die 0 + b.length ≤ s.regionBytes d →
        ∃ t, exec (.compSurfDataWrite d b) s = .next t ∧ t.answer = .ok
          ∧ t.rdN Obj.compSurfOffset d.die 0 = s.rdN Obj.compSurfOffset d.die 0 + b.length
          ∧ ∀ k < b.length, tabGet (t.md d).video.surf (s.rdN Obj.compSurfOffset d.die 0 + k) 0 = b.getD k 0)
      ∧ (s.regionBytes d < s.rdN Obj.compSurfOffset d.die 0 + b.length →
        exec (.compSurfDataWrite d b) s = .next { s with answer := .range }))
  ∧ (∀ s d (n : Fin 8), s.serverUp = true → s.mode ≠ .selvedge → s.reachable d = true → s.cmpUsed d n = true →
      (((s.ans .ok).cmpCommit d n (.ofNs (s.now d.pdie)) false true).2 = true →
        ∃ t, exec (.cmpCommit d n) s = .next t ∧ t.answer = .ok ∧ (t.cmp d n).pend = some (s.cmpShadow d n)
          ∧ t.bit Obj.cmpStatus d.die n 1 = true)
      ∧ (((s.ans .ok).cmpCommit d n (.ofNs (s.now d.pdie)) false true).2 = false →
        ∃ t, exec (.cmpCommit d n) s = .next t ∧ t.answer = .rejected 0x1802 ∧ (t.cmp d n).pend = (s.cmp d n).pend
          ∧ t.bit Obj.compSticky d.die 0 0 = true ∧ t.bit Obj.cmpSticky d.die n 1 = true)
      ∧ (((s.ans .ok).cmpCommit d n (.ofNs (s.now d.pdie)) true true).2 = true →
        ∃ t, exec (.cmpFeltRebuild d n) s = .next t ∧ t.answer = .ok ∧ (t.cmp d n).pend = some (s.cmpShadow d n)
          ∧ t.bit Obj.cmpStatus d.die n 1 = true)
      ∧ (((s.ans .ok).cmpCommit d n (.ofNs (s.now d.pdie)) true true).2 = false →
        ∃ t, exec (.cmpFeltRebuild d n) s = .next t ∧ t.answer = .rejected 0x1802 ∧ (t.cmp d n).pend = (s.cmp d n).pend
          ∧ t.bit Obj.compSticky d.die 0 0 = true ∧ t.bit Obj.cmpSticky d.die n 1 = true))
  ∧ (∀ s d (n : Fin 8) g, s.up d.pdie = true → s.secOn d (secCmp n) = true → (s.cmp d n).pend = some g →
      (s.cmp d n).queued = true → (s.md d).video.pressQueue.find? (fun j => secCmp j == secCmp n) = some n.val →
      (∀ j < 8, secCmp j = secCmp n → (s.cmp d j).pressing = none) →
    ∃ t, exec (.feltPressStart d n) s = .next t ∧ (t.cmp d n).queued = false
      ∧ (t.cmp d n).pressing = some (s.now d.pdie + ceilDiv ((g.feltRect (activeSize (fmt (s.cmpAttr d n).format).family)).w
          * (g.feltRect (activeSize (fmt (s.cmpAttr d n).format).family)).h * g.run.length) 2)
      ∧ t.bit Obj.cmpStatus d.die n 2 = true)
  ∧ (∀ s d (n : Fin 8) g e, s.up d.pdie = true → s.secOn d (secCmp n) = true → (s.cmp d n).pend = some g →
      (s.cmp d n).pressing = some e → e ≤ s.now d.pdie →
    ∃ t, exec (.feltPressComplete d n) s = .next t ∧ (t.cmp d n).pressing = none
      ∧ (t.cmp d n).fresh = some (s.pressSurface d n g)
      ∧ t.rdN Obj.cmpFeltCount d.die n = min (s.rdN Obj.cmpFeltCount d.die n + 1) Obj.cmpFeltCount.ty.maxVal)
  ∧ (∀ s d (n : Fin 64) g, n.val < 8 → s.up d.pdie = true → s.secOn d (secCmp n) = true →
      ((s.cmp d n).pend = some g → (s.cmp d n).rest.all (fun r => decide (r.start ≤ s.now d.pdie)) = true → notLate (s.cmp d n).lateUntil (fmt (s.cmpAttr d n).format) (s.cmpAttr d n).ofs (s.now d.pdie) = true →
        ((s.cmp d n).queued = false → (s.cmp d n).pressing = none →
          ∃ t, exec (.guardTest d false n) s = .next t ∧ (t.cmp d n).staged = some g ∧ (t.cmp d n).pend = none
            ∧ (t.cmp d n).stagedFelt = (s.cmp d n).fresh ∧ t.objs = s.objs)
        ∧ ((s.cmp d n).queued = true ∨ (s.cmp d n).pressing ≠ none →
          ∃ t, exec (.guardTest d false n) s = .next t ∧ (t.cmp d n).lost = (s.cmp d n).lost + 1
            ∧ (t.cmp d n).pend = some g ∧ t.bit Obj.cmpSticky d.die n 2 = true))
      ∧ ((s.cmp d n).staged = some g →
          ∃ t, exec (.latch d false n) s = .next t ∧ (t.cmp d n).work = some g ∧ (t.cmp d n).staged = none
            ∧ t.bit Obj.cmpStatus d.die n 0 = true
            ∧ t.rdN Obj.cmpCount d.die n = min (s.rdN Obj.cmpCount d.die n + 1) Obj.cmpCount.ty.maxVal))
  ∧ (∀ s d (n : Fin 64), 8 ≤ n.val → exec (.guardTest d false n) s = .fault .noSuchUnit
      ∧ exec (.latch d false n) s = .fault .noSuchUnit)

/-- With the dictionary server up, outside SELVEDGE, on a reachable die: SCN_OUT_COMMIT of an output in use without a fault
makes the shadow set pending with SCN.OUT.STATUS bit 1 and is answered OK; with a fault it is answered REJECTED with 0x1811
and SCN.OUT.REJECT shows the reason. SCN_OUT_FORMAT_APPLY of an output in use, section on, of a valid pending raster that
differs from the present one, or while the output already goes over, is answered OK and holds the new raster until its first
frame start; a later apply keeps the old frame and its end. On a running die, section on: GUARD_TEST of an output on its
raster with a pending set that is not late stages it; LATCH makes the staged set work and counts SCN.OUT.COUNT;
NEW_RASTER_START at the new raster's start stores its format, offset and attributes, those of its flows too, ends the
silence, sets SCN.OUT.STICKY bit 2, counts SCN.OUT.DISC.COUNT and reports event 0x1810; CRC_RECT_END of a rectangle of the
working set with mode 1, the output not silent, shows the CRC and its frame and sets SCN.CRC.STATUS bit 0. -/
def Obligations.OutputsCommitLatchAndChangeRaster : Prop :=
  (∀ s d (m : Fin 64), s.serverUp = true → s.mode ≠ .selvedge → s.reachable d = true → s.outUsed d m = true →
      (s.outFault d m (s.outShadow d m) = none →
        ∃ t, exec (.scnOutCommit d m) s = .next t ∧ t.answer = .ok ∧ (t.outp d m).pend = some (s.outShadow d m)
          ∧ t.bit Obj.scnOutStatus d.die m 1 = true)
      ∧ (∀ r, s.outFault d m (s.outShadow d m) = some r →
        ∃ t, exec (.scnOutCommit d m) s = .next t ∧ t.answer = .rejected 0x1811
          ∧ t.rd Obj.scnOutReject d.die m = (r : Nat) ∧ t.outp d m = s.outp d m))
  ∧ (∀ s d (m : Fin 64) a, s.serverUp = true → s.mode ≠ .selvedge → s.reachable d = true → s.outUsed d m = true →
      s.secOn d secScn = true →
      a = Attr.ofWord
        (if s.rdN Obj.scnOutFormatPending d.die m = 0 then s.rdN Obj.scnOutFormat d.die m else s.rdN Obj.scnOutFormatPending d.die m)
        (s.rdN Obj.scnOutOfsPending d.die m)
        (if s.rdN Obj.scnOutAttrPending d.die m = 0xFFFF then s.rdN Obj.scnOutAttr d.die m else s.rdN Obj.scnOutAttrPending d.die m) →
      s.pendingOk d m a = true → s.outAttr d m ≠ a ∨ (s.outp d m).next.isSome = true →
    ∃ t, exec (.scnOutFormatApply d m) s = .next t ∧ t.answer = .ok ∧ t.objs = s.objs
      ∧ (t.outp d m).next.map (fun r => (r.format, r.ofs, r.cause)) = some (a.format, a.ofs, 1)
      ∧ ∀ o, (s.outp d m).next = some o → (t.outp d m).next.map (fun r => (r.oldEnd, r.frame)) = some (o.oldEnd, o.frame))
  ∧ (∀ s d (m : Fin 64) g, s.up d.pdie = true → s.secOn d secScn = true →
      ((s.outp d m).next = none → (s.outp d m).pend = some g →
        notLate (s.outp d m).lateUntil (s.outRasterNow d m).1 (s.outRasterNow d m).2 (s.now d.pdie) = true →
        ∃ t, exec (.guardTest d true m) s = .next t ∧ (t.outp d m).staged = some g ∧ (t.outp d m).pend = none
          ∧ t.objs = s.objs)
      ∧ ((s.outp d m).staged = some g →
        ∃ t, exec (.latch d true m) s = .next t ∧ (t.outp d m).work = some g ∧ (t.outp d m).staged = none
          ∧ t.bit Obj.scnOutStatus d.die m 0 = true
          ∧ t.rdN Obj.scnOutCount d.die m = min (s.rdN Obj.scnOutCount d.die m + 1) Obj.scnOutCount.ty.maxVal))
  ∧ (∀ s d (m : Fin 64) r, s.up d.pdie = true → s.secOn d secScn = true → (s.outp d m).next = some r →
      r.start ≤ s.now d.pdie → s.canReport d.pdie →
    ∃ t, exec (.newRasterStart d m) s = .next t ∧ (t.outp d m).next = none
      ∧ t.rd Obj.scnOutFormat d.die m = (r.format : Nat) ∧ t.rd Obj.scnOutOfs d.die m = (r.ofs : Nat)
      ∧ t.rd Obj.scnOutAttr d.die m = (r.attr : Nat) ∧ t.outSilent d m = false
      ∧ (∀ f ∈ s.flowsOfOutput d m, t.rd Obj.flowOutFormat d.die f = (r.format : Nat) ∧ t.rd Obj.flowOutOfs d.die f = (r.ofs : Nat))
      ∧ t.bit Obj.scnOutSticky d.die m 2 = true
      ∧ t.rdN Obj.scnOutDiscCount d.die m = min (s.rdN Obj.scnOutDiscCount d.die m + 1) Obj.scnOutDiscCount.ty.maxVal
      ∧ s.reported t d.pdie 0x1810 m (p16 [m.val, r.format, r.cause]))
  ∧ (∀ s d (i : Fin 1024) c, s.up d.pdie = true → s.secOn d secScn = true →
      (s.outp d (i.val / 16)).work.bind (fun g => g.crc[i.val % 16]?) = some c → 0 < c.rect.w → c.mode = 1 →
      s.outSilent d (i.val / 16) = false →
    ∃ t, exec (.crcRectEnd d i) s = .next t ∧ t.bit Obj.scnCrcStatus d.die i 0 = true
      ∧ t.rd Obj.scnCrcFrame d.die i
          = s.outFrame d (i.val / 16)
      ∧ t.rd Obj.scnCrcValue d.die i = (crcOf (s.outputImg d (i.val / 16) (s.outFrame d (i.val / 16))) (s.outAttr d (i.val / 16)).sampling c.rect
          (interlaced (fmt (s.outAttr d (i.val / 16)).format).family) : Nat))

/-- Outside SELVEDGE, server up, die reachable: ENC_CH_COMMIT of a used channel either captures its shadow set as pending, sets
STATUS bit 1 and answers OK, or is rejected under event 0x2003 or 0x2201 with STICKY bit 1 and the channel as it was.
ENC_CH_START answers ACCESS outside SERVICE, SELVEDGE and RECOVERY; shows state 1 for a channel that does not run; a control
without effect answers so; ENC_CH_STOP shows 3. CHANNEL_CONTROL_LANDING at the landing instant makes a started channel run
(2) with RC.FULLNESS at CPB.INIT and event 0x2001; a stop with no picture under way ends the stream (state 0, event 0x2002
cause 1). ENC_CONFIG_APPLY makes the pending set the working one and changes no other object than ENC.CH.STATUS.
CHANNEL_REPLACEMENT at a picture boundary moves the channel to its new pair, restarts it from state 4 into 2, or, without
place, stops it with STICKY bit 5. ENGINE_PAIR_LOSS and ENTROPY_ENGINE_STALL set their STICKY bits, report 0x2009 and 0x2303
and take every channel on the lost engine that is not stopped to state 4. -/
def Obligations.EncodeChannelsCommitStartStopAndMove : Prop :=
  let open_ (s : State) (d : MDie) : Prop := s.serverUp = true ∧ s.mode ≠ .selvedge ∧ s.reachable d = true
  (∀ s (d : MDie) (c : Fin 48), open_ s d → s.encUsed d c = true →
    ∃ t, exec (.encChCommit d.die c) s = .next t
      ∧ (if ((s.ans .ok).encCommit d c (.ofNs (s.now d.pdie))).2 = true then
          t.answer = .ok ∧ (t.enc d c).pend.map (·.1) = some (s.encShadow d c) ∧ t.bit Obj.encChStatus d.die c 1 = true
            ∧ (t.enc d c).work = (s.enc d c).work
        else
          (t.answer = .rejected 0x2003 ∨ t.answer = .rejected 0x2201) ∧ t.bit Obj.encChSticky d.die c 1 = true ∧ t.enc d c = s.enc d c))
  ∧ (∀ s (d : MDie) (c : Fin 48), open_ s d →
      (s.encModes = false → exec (.encChStart d.die c) s = .next (s.ans .access)
        ∧ exec (.encChStop d.die c) s = .next (s.ans .access))
      ∧ (s.encModes = true → s.encIdle d c true = true →
        exec (.encChStart d.die c) s = .next (s.ans (.noEffect (s.encState d c))))
      ∧ (s.encModes = true → s.encUsed d c = true → s.encState d c ≠ 2 →
        ∃ t, exec (.encChStart d.die c) s = .next t ∧ t.answer = .ok ∧ t.encState d c = 1
          ∧ (t.enc d c).control.map (·.1) = some true ∧ ∀ k : Nat, k ≠ c → t.enc d k = s.enc d k)
      ∧ (s.encModes = true → s.encUsed d c = true → s.encState d c ≠ 0 →
        ∃ t, exec (.encChStop d.die c) s = .next t ∧ t.answer = .ok ∧ t.encState d c = 3
          ∧ (t.enc d c).control.map (·.1) = some false ∧ ∀ k : Nat, k ≠ c → t.enc d k = s.enc d k))
  ∧ (∀ s (d : MDie) (c : Fin 48) land, s.up d.pdie = true → s.encModes = true → land ≤ s.now d.pdie → s.canReport d.pdie →
      (∀ g, (s.enc d c).control = some (true, land) → (s.enc d c).work = some g →
        ∃ t, exec (.channelControlLanding d c) s = .next t ∧ t.encState d c = 2 ∧ (t.enc d c).control = none
          ∧ t.rd Obj.rcFullness d.die c = fullness (s.encGeom d c) (s.startFs d c g g.cpbInit)
          ∧ s.reported t d.pdie 0x2001 c (p16 [c.val]))
      ∧ ((s.enc d c).control = some (false, land) → (s.enc d c).pics = [] →
        ∃ t, exec (.channelControlLanding d c) s = .next t ∧ t.encState d c = 0 ∧ (t.enc d c).control = none
          ∧ s.reported t d.pdie 0x2002 c (p16 [c.val, 1])))
  ∧ (∀ s (d : MDie) (c : Fin 48) g land, s.up d.pdie = true → (s.enc d c).pend = some (g, land) → land ≤ s.now d.pdie →
    ∃ t, exec (.encConfigApply d c) s = .next t ∧ (t.enc d c).work = some g ∧ (t.enc d c).pend = none
      ∧ t.bit Obj.encChStatus d.die c 1 = false ∧ s.agree t [Obj.encChStatus.addr d.die c])
  ∧ (∀ s (d : MDie) (c : Fin 48) e, s.up d.pdie = true → (s.enc d c).moveTo = some e → (s.enc d c).entMove = none →
      s.atPictureBoundary d c = true →
      (e ≠ 0xFF → ∃ t, exec (.channelReplacement d c) s = .next t ∧ t.encEngine d c = e ∧ (t.enc d c).moveTo = none
        ∧ (s.encState d c = 4 → (s.enc d c).work.isSome = true → t.encState d c = 2))
      ∧ (e = 0xFF → ∃ t, exec (.channelReplacement d c) s = .next t ∧ t.encEngine d c = 0xFF ∧ t.encState d c = 0
        ∧ t.bit Obj.encChSticky d.die c 5 = true ∧ (t.enc d c).pics = []))
  ∧ (∀ s (d : MDie) (e : Fin 2) (pix : Bool), s.up d.pdie = true → s.inForce = true →
      s.secOn d (if pix then secPix e else secMot e) = true →
    ∃ t gone, exec (.enginePairLoss d e pix) s = .next t ∧ t.bit Obj.encSticky d.die 0 2 = true
      ∧ s.reported t .c 0x2009 e (p16 [e.val, gone])
      ∧ ∀ c ∈ s.channelsOn d e, s.encState d c ≠ 0 → t.encState d c = 4)
  ∧ (∀ s (d : MDie) (k : Fin 8), s.up d.pdie = true → s.inForce = true → k.val ∉ (s.md d).entDead → s.entOn d k ≠ [] →
    ∃ t gone, exec (.entropyEngineStall d k) s = .next t ∧ t.bit Obj.entSticky d.die 0 1 = true
      ∧ (t.md d).entDead = (s.md d).entDead ++ [k.val] ∧ s.reported t .c 0x2303 k (p16 [k.val, gone])
      ∧ ∀ c ∈ s.entOn d k, s.encState d c ≠ 0 → t.encState d c = 4)

/-- SOURCE_ROW_END on a running Live channel at the end of row 0 of a new picture begins the picture under the working set and
stores the row; at an instant where no row ends nothing changes. On a running Deferred channel with no picture open it
begins the picture at the head of the queue. MOTION_JOB_COMPLETE of a row that is ready and released marks it searched, of
another changes nothing; of a released borrowed job it takes the job off the list. BORROWED_JOB_RELEASE lists the job of the
first picture of the newest frame that still wants the row, with a deadline 67 lines on. BORROWED_JOB_DEADLINE sets
MOT.STICKY bit 1, raises MOT.FRC.LATE.COUNT and reports 0x2102. PIXEL_JOB_START of a row that is ready and next on its
engine, with the row's CTUs, moves the account of rows by one, at most three, and touches no other channel; of another it
changes nothing. STAGE_WINDOW_MISS at or after the end of the window, for motion, or for pixel before the row has its QP,
marks the picture, sets STICKY bit 3, raises ENC.CH.DET.COUNT and reports 0x2006. -/
def Obligations.EncodePicturesAreStoredSearchedAndCoded : Prop :=
  (∀ s (d : MDie) (c : Fin 48) g, (s.enc d c).work = some g → s.up d.pdie = true → s.encState d c = 2 →
      (s.encLive d c = true → s.endedRow d c = none → exec (.sourceRowEnd d c) s = .next s)
      ∧ (∀ num frame field, s.encLive d c = true → s.endedRow d c = some (num, frame, field, 0) → s.encPic? d c num = none →
          (s.enc d c).stopping = false → 0 < (s.encGeom d c).rows →
        ∃ t p, exec (.sourceRowEnd d c) s = .next t ∧ t.encPic? d c num = some p ∧ p.cfg = g ∧ p.frame = frame
          ∧ p.field = field ∧ (p.row? 0).map (·.stored) = some true)
      ∧ (∀ head rest, s.encLive d c = false → (s.enc d c).queue = head :: rest → (s.enc d c).pics = [] →
          (s.enc d c).stopping = false → 0 < (s.encGeom d c).rows →
        ∃ t, exec (.sourceRowEnd d c) s = .next t ∧ (t.enc d c).pics.length = 1 ∧ (t.enc d c).next = (s.enc d c).next + 1))
  ∧ (∀ s (d : MDie) (c : Fin 48) pic row p, s.up d.pdie = true → s.encPic? d c pic = some p →
      (p.motionReady row = true → s.refsReady d c pic p.idx = true → s.released d c p row 1 = true →
        ∃ t q, exec (.motionJobComplete d false c pic row) s = .next t ∧ t.encPic? d c pic = some q
          ∧ (q.row? row).map (·.searched) = some true ∧ t.sent = s.sent ∧ t.ramLog = s.ramLog)
      ∧ (p.motionReady row = false ∨ s.released d c p row 1 = false → exec (.motionJobComplete d false c pic row) s = .next s))
  ∧ (∀ s (d : MDie) (m : Fin 48) n pic row g cur, s.up d.pdie = true → s.frcChain d m = some n →
      (s.chain d n).work = some g → (s.chain d n).store.find? (fun e => e.1 == pic) = some (pic, cur) →
      (s.chain d n).jobs.any (fun j => j.1 == pic && j.2.1 == row) = true →
    ∃ t, exec (.motionJobComplete d true m pic row) s = .next t
      ∧ (t.chain d n).jobs = (s.chain d n).jobs.filter (fun j => !(j.1 == pic && j.2.1 == row)) ∧ t.objs = s.objs)
  ∧ (∀ s (d : MDie) (m : Fin 4) n pic row cur, s.up d.pdie = true → s.frcChain d m = some n →
      (let inter := interlaced (fmt (s.rdN Obj.cnvChainInFormat d.die n)).family
       (s.chain d n).store.find? (fun e =>
         some (picOfNum inter e.1).1 == ((s.chain d n).store.getLast?).map (fun l => (picOfNum inter l.1).1)
           && !(s.chain d n).rowTaken inter e.1 row) = some (pic, cur)) →
      s.rdN Obj.motFrcEngine d.die m < 2 → 48 ≤ s.rdN Obj.cnvFrcChannel d.die m → row * 64 < (s.storeSize d n).2 →
    ∃ t, exec (.borrowedJobRelease d m row) s = .next t ∧ t.objs = s.objs
      ∧ (t.chain d n).jobs = (s.chain d n).jobs ++
          [(pic, row, s.now d.pdie + linesNs (fmt (s.rdN Obj.cnvChainInFormat d.die n)) 67)])
  ∧ (∀ s (d : MDie) (m : Fin 4) n row reached lvl j, s.up d.pdie = true → lvl ≤ 3 → s.frcChain d m = some n →
      (s.chain d n).jobs.find? (fun j => j.2.1 == row && decide (j.2.2 ≤ s.now d.pdie)) = some j → s.canReport d.pdie →
    ∃ t, exec (.borrowedJobDeadline d m row reached lvl) s = .next t ∧ t.bit Obj.motSticky d.die 0 1 = true
      ∧ t.rdN Obj.motFrcLateCount d.die m = min (s.rdN Obj.motFrcLateCount d.die m + 1) Obj.motFrcLateCount.ty.maxVal
      ∧ s.reported t d.pdie 0x2102 m (p16 [m.val, row]))
  ∧ (∀ s (d : MDie) (c : Fin 48) pic row ctus p, s.encCodes d c = true → s.encPic? d c pic = some p →
      (s.pixelReady d c p row = true → s.pixelTurn d c p row = true → ctus.length = (s.encGeom d c).cols →
        ∃ t, exec (.pixelJobStart d c pic row ctus) s = .next t ∧ t.sent = s.sent ∧ t.md d.other = s.md d.other
          ∧ (t.enc d c).started.length = (if (s.enc d c).started.length = 3 then 3 else (s.enc d c).started.length + 1)
          ∧ ∀ k : Nat, k ≠ c → t.enc d k = s.enc d k)
      ∧ (s.pixelReady d c p row = false ∨ s.pixelTurn d c p row = false → exec (.pixelJobStart d c pic row ctus) s = .next s))
  ∧ (∀ s (d : MDie) (c : Fin 48) (stage : Fin 3) pic row reached lvl p w, s.encCodes d c = true →
      s.encPic? d c pic = some p → p.row? row = some w → s.canReport d.pdie → s.pastDeadline d c p row stage.val = true →
      ((stage.val = 1 ∧ p.motionReady row = true ∧ lvl ≤ 3 ∧ s.refsReady d c pic p.idx = true)
        ∨ (stage.val = 2 ∧ w.stored = true ∧ w.data = [] ∧ w.qp = none)) →
    ∃ t q, exec (.stageWindowMiss d c stage pic row reached lvl) s = .next t ∧ t.encPic? d c pic = some q ∧ q.missed = true
      ∧ t.bit Obj.encChSticky d.die c 3 = true
      ∧ t.rdN Obj.encChDetCount d.die c = min (s.rdN Obj.encChDetCount d.die c + 1) Obj.encChDetCount.ty.maxVal
      ∧ s.reported t d.pdie 0x2006 c (p16 [c.val, stage.val, row]))

/-- ENTROPY_JOB_COMPLETE of a tile of a row with a QP, its window open, the pictures before it in the account, the tile above
done and this one not, keeps the slice data with the row and changes no object. PICTURE_HRD_UPDATE of the first picture in
coding order not yet in the account, all its rows coded, moves the account by R273, shows RC.FULLNESS, adds the filler bytes
to RC.FILLER.COUNT, raises ENC.CH.COUNT by one and shows in STATUS bit 3 whether a window was missed. ROW_PACKET_RELEASE at
or after the row's instant marks a row that is ready and was in time released, and with the last row the picture leaves; a
row that is not ready changes nothing. LATE_ROW_RELEASE of a Live channel's row that was complete after its window, at or
after its instant, does the same, sets ENT.CH.STICKY bit 0 and ENT.STICKY bit 0, and raises ENT.CH.LATE.COUNT and ENT.COUNT
by one. -/
def Obligations.EncodedRowsAreAccountedAndReleased : Prop :=
  (∀ s (d : MDie) (c : Fin 48) pic row tile data crcL crcC p w, s.encCodes d c = true → s.encPic? d c pic = some p →
      p.row? row = some w → w.qp.isSome = true → tile < (s.encGeom d c).tiles → w.data.any (fun e => e.1 == tile) = false →
      (row = 0 ∨ ∃ v, p.row? (row - 1) = some v ∧ v.data.any (fun e => e.1 == tile) = true) →
      (∀ q ∈ (s.enc d c).pics, q.hrd = true ∨ p.order ≤ q.order) → s.released d c p row 3 = true →
    ∃ t q r, exec (.entropyJobComplete d c pic row tile data crcL crcC) s = .next t ∧ t.objs = s.objs ∧ t.sent = s.sent
      ∧ t.encPic? d c pic = some q ∧ q.row? row = some r ∧ tabGet r.data tile [] = data)
  ∧ (∀ s (d : MDie) (c : Fin 48) p, s.encCodes d c = true →
      ((s.enc d c).pics.filter (fun q => !q.hrd)).find? (fun q =>
        ((s.enc d c).pics.filter (fun r => !r.hrd)).all (fun r => decide (q.order ≤ r.order))) = some p →
      (∀ r ∈ p.rows, r.coded (s.encGeom d c).tiles = true) →
    ∃ t fs f dacc, exec (.pictureHrdUpdate d c) s = .next t
      ∧ hrdStep (s.encGeom d c) p.cfg (s.enc d c).fs (s.enc d c).dacc (8 * p.bytes) = (fs, f, dacc)
      ∧ (t.enc d c).fs = fs ∧ (t.enc d c).dacc = dacc ∧ t.rd Obj.rcFullness d.die c = fullness (s.encGeom d c) fs
      ∧ t.rdN Obj.rcFillerCount d.die c = min (s.rdN Obj.rcFillerCount d.die c + f) Obj.rcFillerCount.ty.maxVal
      ∧ t.rdN Obj.encChCount d.die c = min (s.rdN Obj.encChCount d.die c + 1) Obj.encChCount.ty.maxVal
      ∧ t.bit Obj.encChStatus d.die c 3 = p.missed)
  ∧ (∀ s (d : MDie) (c : Fin 48) pic row p r, s.encPic? d c pic = some p → p.row? row = some r →
      (s.rowReady d c p row r = false → exec (.rowPacketRelease d c pic row) s = .next s
        ∧ exec (.lateRowRelease d c pic row) s = .next s)
      ∧ (s.encCodes d c = true → s.rowReady d c p row r = true → s.rowLate d c p row r = false →
          (s.releaseAt d c p row).ceilNs ≤ s.now d.pdie →
        ∃ t, exec (.rowPacketRelease d c pic row) s = .next t
          ∧ (row + 1 = p.rows.length → t.encPic? d c pic = none)
          ∧ (row + 1 ≠ p.rows.length → ((t.encPic? d c pic).bind (fun q => q.row? row)).map (·.released) = some true))
      ∧ (s.encCodes d c = true → s.rowReady d c p row r = true → s.rowLate d c p row r = true →
          (s.releaseAt d c p row).ceilNs ≤ s.now d.pdie →
        ∃ t, exec (.lateRowRelease d c pic row) s = .next t
          ∧ t.bit Obj.entChSticky d.die c 0 = true ∧ t.bit Obj.entSticky d.die 0 0 = true
          ∧ t.rdN Obj.entChLateCount d.die c = min (s.rdN Obj.entChLateCount d.die c + 1) Obj.entChLateCount.ty.maxVal
          ∧ t.rdN Obj.entCount d.die 0 = min (s.rdN Obj.entCount d.die 0 + 1) Obj.entCount.ty.maxVal
          ∧ (row + 1 = p.rows.length → t.encPic? d c pic = none)))

/-- Outside SELVEDGE, server up, die reachable: RC_KEY_REQUEST answers ACCESS for a channel that does not run; for a running one
the first request is kept with RC.CH.STATUS bit 2 and a later one only raises RC.KEY.MERGED. ENT_CH_SEI_USER_SEND keeps the
request with ENT.CH.STATUS bit 1. RC_GZ_MAP_DATA_WRITE answers ACCESS while the buffer is in use, RANGE past the end of the
map, and otherwise advances the offset by the bytes written. ENC_DEFER_DATA_WRITE appends the bytes to the upload and
ENC_DEFER_PUSH queues an upload of the exact length, clears it and shows the queue's length in ENC.DEFER.FILL; a wrong
length answers RANGE; a Live channel, another feed or a full queue answers ACCESS. -/
def Obligations.EncodeRequestsAndUploadsAreTaken : Prop :=
  let open_ (s : State) (d : MDie) : Prop := s.serverUp = true ∧ s.mode ≠ .selvedge ∧ s.reachable d = true
  (∀ s (d : MDie) (c : Fin 48), open_ s d →
      (s.encState d c ≠ 2 → exec (.rcKeyRequest d.die c) s = .next (s.ans .access))
      ∧ (s.encState d c = 2 → (s.enc d c).cause.request = none →
        ∃ t, exec (.rcKeyRequest d.die c) s = .next t ∧ t.answer = .ok ∧ (t.enc d c).cause.request = some (s.now d.pdie)
          ∧ t.bit Obj.rcChStatus d.die c 2 = true ∧ s.agree t [Obj.rcChStatus.addr d.die c])
      ∧ (s.encState d c = 2 → (s.enc d c).cause.request.isSome = true →
        ∃ t, exec (.rcKeyRequest d.die c) s = .next t ∧ t.answer = .ok ∧ t.enc d c = s.enc d c
          ∧ t.rdN Obj.rcKeyMerged d.die c = min (s.rdN Obj.rcKeyMerged d.die c + 1) Obj.rcKeyMerged.ty.maxVal))
  ∧ (∀ s (d : MDie) (c : Fin 48), open_ s d →
    ∃ t, exec (.entChSeiUserSend d.die c) s = .next t ∧ t.answer = .ok
      ∧ (t.enc d c).sei = some ((s.enc d c).sei.getD (s.now d.pdie)) ∧ t.bit Obj.entChStatus d.die c 1 = true
      ∧ s.agree t [Obj.entChStatus.addr d.die c])
  ∧ (∀ s (d : MDie) (c : Fin 48) data, open_ s d →
      (s.mapInUse d c (s.rdN Obj.rcGzMapSlot d.die c) = true → exec (.rcGzMapDataWrite d c data) s = .next (s.ans .access))
      ∧ (s.mapInUse d c (s.rdN Obj.rcGzMapSlot d.die c) = false →
          mapBytes (s.encGeom d c) < s.rdN Obj.rcGzMapOffset d.die c + data.length →
          exec (.rcGzMapDataWrite d c data) s = .next (s.ans .range))
      ∧ (s.mapInUse d c (s.rdN Obj.rcGzMapSlot d.die c) = false →
          s.rdN Obj.rcGzMapOffset d.die c + data.length ≤ mapBytes (s.encGeom d c) →
        ∃ t, exec (.rcGzMapDataWrite d c data) s = .next t ∧ t.answer = .ok
          ∧ t.rdN Obj.rcGzMapOffset d.die c = s.rdN Obj.rcGzMapOffset d.die c + data.length
          ∧ s.agree t [Obj.rcGzMapOffset.addr d.die c]
          ∧ tabGet (t.enc d c).maps (s.rdN Obj.rcGzMapSlot d.die c) [] =
              overlay (tabGet (s.enc d c).maps (s.rdN Obj.rcGzMapSlot d.die c) (List.replicate (mapBytes (s.encGeom d c)) 0))
                (s.rdN Obj.rcGzMapOffset d.die c) data))
  ∧ (∀ s (d : MDie) (c : Fin 48) data, open_ s d →
      ((s.encLive d c = true ∨ (s.deferFeed d c).1 ≠ 1 ∨ s.deferFull d c = true) →
        exec (.encDeferDataWrite d c data) s = .next (s.ans .access) ∧ exec (.encDeferPush d c) s = .next (s.ans .access))
      ∧ (s.encLive d c = false → (s.deferFeed d c).1 = 1 → s.deferFull d c = false →
        (∃ t, exec (.encDeferDataWrite d c data) s = .next t ∧ t.answer = .ok ∧ t.objs = s.objs
          ∧ (t.enc d c).upload = (s.enc d c).upload ++ data)
        ∧ (∀ w h cw ch, pictureSize (fmt (s.rdN Obj.encChFormat d.die c)).family = (w, h) →
            chromaSize (s.rdN Obj.encChProfile d.die c == 1) w h = (cw, ch) →
          ((s.enc d c).upload.length ≠ 2 * (w * h + 2 * cw * ch) → exec (.encDeferPush d c) s = .next (s.ans .range))
          ∧ ((s.enc d c).upload.length = 2 * (w * h + 2 * cw * ch) →
            ∃ t, exec (.encDeferPush d c) s = .next t ∧ t.answer = .ok ∧ (t.enc d c).upload = []
              ∧ (t.enc d c).queue.length = (s.enc d c).queue.length + 1
              ∧ t.rdN Obj.encDeferFill d.die c = (s.enc d c).queue.length + 1))))

/-- DECODER_ACCESS_UNIT of a used context whose RTP flow has a whole access unit appends it to the CPB and shows
DEC.CTX.CPB.FILL where it fits; where it does not, it is discarded, counted, with STICKY bit 4; without a complete NAL unit
it is discarded and counted; without a whole access unit nothing changes. DECODE_ACCESS_UNIT takes the access unit that
arrived first: a waiting context discards one without IRAP picture; one whose SPS does not match sets STICKY bit 2, reports
0x2404 and waits (1); outside SELVEDGE one with an IRAP picture and a good SPS makes the context decode (2), with that one
picture in the DPB, and reports 0x2401; with no access unit nothing changes. DECODER_PICTURE_OUTPUT of a bumping context
outputs the first picture in output order and raises DEC.CTX.COUNT. DEFER_QUEUE_RESUME clears STATUS bit 3. DEC_CTX_RESTART
empties the context and makes it wait. DECODER_NO_OUTPUT_TIMEOUT stops it (3) with STICKY bit 3 and event 0x2405 cause 2. -/
def Obligations.DecodersStoreDecodeOutputAndStop : Prop :=
  (∀ s (d : MDie) (n : Fin 4) f, s.decFlow d n = some f → s.decUsed d n = true → descKind (s.inDesc d f) ≠ 7 →
      (splitAu (s.dec d n).rx = none → exec (.decoderAccessUnit d n) s = .next s)
      ∧ (∀ au rest nals, splitAu (s.dec d n).rx = some (au, rest) →
          nals = (au.foldl (Reasm.take (descKind (s.inDesc d f) == 6)) { nals := [], open_ := none, last := (s.dec d n).last }).nals →
        (nals ≠ [] → cpbBytes (s.dec d n).cpb + sumOver nals (·.length) ≤ s.rdN Obj.decCtxCpbSize d.die n →
          ∃ t, exec (.decoderAccessUnit d n) s = .next t ∧ (t.dec d n).rx = rest
            ∧ ((t.dec d n).cpb.map (·.nals)) = ((s.dec d n).cpb.map (·.nals)) ++ [nals]
            ∧ t.rdN Obj.decCtxCpbFill d.die n = cpbBytes (s.dec d n).cpb + sumOver nals (·.length))
        ∧ (nals ≠ [] → s.rdN Obj.decCtxCpbSize d.die n < cpbBytes (s.dec d n).cpb + sumOver nals (·.length) →
          ∃ t, exec (.decoderAccessUnit d n) s = .next t ∧ (t.dec d n).cpb = (s.dec d n).cpb
            ∧ t.bit Obj.decCtxSticky d.die n 4 = true
            ∧ t.rdN Obj.decCtxDiscardCount d.die n = min (s.rdN Obj.decCtxDiscardCount d.die n + 1) Obj.decCtxDiscardCount.ty.maxVal)
        ∧ (nals = [] → ∃ t, exec (.decoderAccessUnit d n) s = .next t ∧ (t.dec d n).cpb = (s.dec d n).cpb
            ∧ t.rdN Obj.decCtxDiscardCount d.die n = min (s.rdN Obj.decCtxDiscardCount d.die n + 1) Obj.decCtxDiscardCount.ty.maxVal)))
  ∧ (∀ s (d : MDie) i, s.decNext d = none → exec (.decodeAccessUnit d i) s = .next s)
  ∧ (∀ s (d : MDie) (i : AuInfo) n a, s.decNext d = some (n, a) → i.badNals = 0 → s.decState d n = 1 →
      (i.irap = 0 → i.sps = none →
        ∃ t, exec (.decodeAccessUnit d i) s = .next t ∧ (t.dec d n).cpb = (s.dec d n).cpb.drop 1 ∧ t.decState d n = 1
          ∧ t.rdN Obj.decCtxDiscardCount d.die n = min (s.rdN Obj.decCtxDiscardCount d.die n + 1) Obj.decCtxDiscardCount.ty.maxVal)
      ∧ (∀ p r, i.sps = some p → s.spsFault d n p = some r → s.canReport d.pdie →
        ∃ t, exec (.decodeAccessUnit d i) s = .next t ∧ t.decState d n = 1 ∧ t.bit Obj.decCtxSticky d.die n 2 = true
          ∧ s.reported t d.pdie 0x2404 n (p16 [n, r]))
      ∧ (∀ p, i.sps = some p → s.spsFault d n p = none → i.irap ≠ 0 → i.rasl = false → i.refs = [] → i.lost = [] →
          s.mode ≠ .selvedge → s.canReport d.pdie →
        ∃ t q, exec (.decodeAccessUnit d i) s = .next t ∧ t.decState d n = 2 ∧ (t.dec d n).cpb = (s.dec d n).cpb.drop 1
          ∧ (t.dec d n).dpb = [q] ∧ q.poc = i.poc ∧ q.waiting = i.output ∧ q.concealed = false
          ∧ t.rdN Obj.decCtxProfile d.die n = p.profileIdc * 256 + p.levelIdc
          ∧ s.reported t d.pdie 0x2401 n (p16 [n])))
  ∧ (∀ s (d : MDie) (n : Fin 4) p, firstOut (s.dec d n).dpb = some p → s.decUsed d n = true → s.decState d n = 2 →
      s.bumps d n = true → s.decHeld d n = false →
    ∃ t, exec (.decoderPictureOutput d n) s = .next t ∧ (t.dec d n).dpb = ((s.dec d n).outDone p).dpb
      ∧ t.rdN Obj.decCtxCount d.die n = min (s.rdN Obj.decCtxCount d.die n + 1) Obj.decCtxCount.ty.maxVal)
  ∧ (∀ s (d : MDie) (n : Fin 4), s.decUsed d n = true → s.decHeld d n = true → s.deferFull d (s.decOutput d n).2 = false →
    ∃ t, exec (.deferQueueResume d n) s = .next t ∧ t.decHeld d n = false
      ∧ s.agree t [Obj.decCtxStatus.addr d.die n] ∧ s.onlyObjs t)
  ∧ (∀ s (d : MDie) (n : Fin 4), s.serverUp = true → s.mode ≠ .selvedge → s.reachable d = true →
      s.rd Obj.decCtxEnable d.die n = 1 →
    ∃ t, exec (.decCtxRestart d n) s = .next t ∧ t.answer = .ok ∧ t.decState d n = 1 ∧ (t.dec d n).cpb = []
      ∧ (t.dec d n).dpb = [] ∧ (t.dec d n).rx = [] ∧ t.rd Obj.decCtxCpbFill d.die n = 0)
  ∧ (∀ s (d : MDie) (n : Fin 4), s.decUsed d n = true → s.decState d n = 2 → s.decHeld d n = false →
      (s.dec d n).lastOut + s.decTimeout d n ≤ s.now d.pdie → (s.dec d n).dpb = [] → s.canReport d.pdie →
    ∃ t, exec (.decoderNoOutputTimeout d n) s = .next t ∧ t.decState d n = 3 ∧ t.bit Obj.decCtxSticky d.die n 3 = true
      ∧ s.reported t d.pdie 0x2405 n (p16 [n.val, 2]))

/-- On a running die with the audio section on, the configuration in force for TDM_FRAME_SYNC: TDM_FRAME_SYNC of a used port not
under the stop rule starts a port of state 0 (state 2, STATUS bits 0 and 1), leaves an armed one armed and lets it send
zeros, and begins the next frame; under the stop rule the port goes to 0. SLAVE_CLOCK_STOP takes an armed or running slave
port to 3, clears STATUS bit 1, sets its STICKY bit 2 and reports 0x2805; SLAVE_CLOCK_RETURN takes it back to 2, an armed
one to 1, with an empty input FIFO and reports 0x2806. FRAME_SYNC_GLITCH cuts the frames under way, counts, sets STICKY bit
3 and reports 0x2807 with the BCK count. RATE_GATE shows rate and class of the gate that ended; a running slave port of
another class than its bank's goes to 4. Outside SELVEDGE, server up, die reachable: AUD_PORT_ARM empties and arms a used
port, AUD_PORT_DISARM disarms an armed port and takes state 1 to 0, both answering that they had no effect elsewhere;
AUD_START_TRIGGER starts every port of the group armed before at the first index at or after the present and shows
AUD.START.LAST. -/
def Obligations.AudioPortsFollowTheirClocks : Prop :=
  let live (s : State) (d : MDie) : Prop := s.up d.pdie = true ∧ s.secOn d secAud = true
  let open_ (s : State) (d : MDie) : Prop := s.serverUp = true ∧ s.mode ≠ .selvedge ∧ s.reachable d = true
  (∀ s (d : MDie) (p : Fin 16) slots, live s d → s.audPortUsed d p = true → s.inForce = true → s.rdN Obj.audPortState d.die p ≠ 3 →
      ((∀ t, s.stopFrom d = some t → s.now d.pdie < t) →
        ∃ t, exec (.tdmFrameSync d p slots) s = .next t ∧ (t.audPort d p).frame = some (s.now d.pdie)
          ∧ (s.rdN Obj.audPortState d.die p = 0 → t.rdN Obj.audPortState d.die p = 2 ∧ t.bit Obj.audPortStatus d.die p 0 = true
              ∧ t.bit Obj.audPortStatus d.die p 1 = true)
          ∧ (s.rdN Obj.audPortState d.die p = 1 → t.rdN Obj.audPortState d.die p = 1
              ∧ ((s.audOutFirst d p).isSome = true →
                  t.sent = s.sent ++ [.tdm d p (s.tdmFrame d p (List.replicate (s.portSlots d p) 0))])))
      ∧ (∀ at_, s.stopFrom d = some at_ → at_ ≤ s.now d.pdie →
        ∃ t, exec (.tdmFrameSync d p slots) s = .next t ∧ t.rdN Obj.audPortState d.die p = 0
          ∧ t.bit Obj.audPortStatus d.die p 0 = false ∧ t.sent = s.sent))
  ∧ (∀ s (d : MDie) (p : Fin 16), live s d → s.audPortUsed d p = true → s.portMaster d p = false →
      (s.rdN Obj.audPortState d.die p = 1 ∨ s.rdN Obj.audPortState d.die p = 2 ∨ s.rdN Obj.audPortState d.die p = 4) →
      s.canReport d.pdie →
      (∃ t, exec (.slaveClockStop d p) s = .next t ∧ t.rdN Obj.audPortState d.die p = 3 ∧ t.bit Obj.audPortStatus d.die p 1 = false
        ∧ t.bit Obj.audPortSticky d.die p 2 = true ∧ t.bit Obj.audSticky d.die 0 3 = true ∧ (t.audPort d p).frame = none
        ∧ s.reported t d.pdie 0x2805 p (p16 [p.val]))
      ∧ (∀ bck, ∃ t, exec (.frameSyncGlitch d p bck) s = .next t ∧ (t.audPort d p).frame = none
        ∧ t.bit Obj.audPortSticky d.die p 3 = true ∧ t.sent = s.sent ++ [.tdmCut d p bck]
        ∧ t.rdN Obj.audPortGlitchCount d.die p = min (s.rdN Obj.audPortGlitchCount d.die p + 1) Obj.audPortGlitchCount.ty.maxVal
        ∧ s.reported t d.pdie 0x2807 p (p16 [p.val, bck])))
  ∧ (∀ s (d : MDie) (p : Fin 16), live s d → s.rdN Obj.audPortState d.die p = 3 → s.canReport d.pdie →
    ∃ t, exec (.slaveClockReturn d p) s = .next t
      ∧ t.rdN Obj.audPortState d.die p = (if (s.audPort d p).armed.isSome then 1 else 2) ∧ t.bit Obj.audPortStatus d.die p 1 = true
      ∧ (t.audPort d p).inFifo = [] ∧ (t.audPort d p).frame = some (s.now d.pdie)
      ∧ s.reported t d.pdie 0x2806 p (p16 [p.val]))
  ∧ (∀ s (d : MDie) (p : Fin 16) rate, live s d →
      (s.rdN Obj.audPortState d.die p = 2 ∨ s.rdN Obj.audPortState d.die p = 4) →
      (s.audPort d p).gate < s.now d.pdie / 10000000 →
      rate = gateRate (s.audPort d p).edges (s.audPort d p).first (s.audPort d p).last →
    ∃ t, exec (.rateGate d p) s = .next t ∧ t.rd Obj.audPortRate d.die p = (rate : Nat)
      ∧ t.rd Obj.audPortRateClass d.die p = (audClassOf rate : Nat) ∧ (t.audPort d p).gate = s.now d.pdie / 10000000
      ∧ (t.audPort d p).edges = 0
      ∧ (∀ b, s.portMaster d p = false → s.audBank d p = some b → s.rdN Obj.audPortState d.die p = 2 →
          audClassOf rate ≠ s.rdN Obj.audBankRate d.die b →
          t.rdN Obj.audPortState d.die p = 4 ∧ t.bit Obj.audSticky d.die 0 3 = true))
  ∧ (∀ s (d : MDie) (p : Fin 16), open_ s d →
      (s.audPortUsed d p = true →
        ∃ t, exec (.audPortArm d p) s = .next t ∧ t.answer = .ok ∧ t.rdN Obj.audPortState d.die p = 1
          ∧ (t.audPort d p).armed = some (s.now d.pdie) ∧ (t.audPort d p).inFifo = [] ∧ (t.audPort d p).outFifo = [])
      ∧ (s.audPortUsed d p = false →
        exec (.audPortArm d p) s = .next (s.ans (.noEffect (s.rdN Obj.audPortState d.die p))))
      ∧ ((s.audPort d p).armed.isSome = true →
        ∃ t, exec (.audPortDisarm d p) s = .next t ∧ t.answer = .ok ∧ (t.audPort d p).armed = none
          ∧ t.rdN Obj.audPortState d.die p = (if s.rdN Obj.audPortState d.die p = 1 then 0 else s.rdN Obj.audPortState d.die p))
      ∧ ((s.audPort d p).armed = none →
        exec (.audPortDisarm d p) s = .next (s.ans (.noEffect (s.rdN Obj.audPortState d.die p)))))
  ∧ (∀ s (d : MDie) (g : Fin 256), open_ s d →
    ∃ t, exec (.audStartTrigger d.die g) s = .next t ∧ t.answer = .ok
      ∧ ∀ p < 16, ∀ at_, (s.audPort d p).armed = some at_ → at_ < s.now d.pdie → s.rdN Obj.audPortStartGroup d.die p = g →
        (s.rdN Obj.audPortState d.die p = 1 → t.rdN Obj.audPortState d.die p = 2) ∧ (t.audPort d p).armed = none ∧ (t.audPort d p).n0 = some (audIndexFrom (s.portHz d p) (s.now d.pdie))
          ∧ t.rd Obj.audStartLast d.die g = (audIndexFrom (s.bankHz d 0) (s.now d.pdie) : Nat))

/-- ROUTER_TICK of a bank with a rate computes its next index once it has begun, and before that changes nothing; with one
output channel, at rest, and no port, flow or Twill channel, it appends that channel's sample of the index. ISLAND_UPDATE of
a running island with 64 whole fills takes the error sum less 64 times the lead port's target, moves the clamped integrator
by KI, and shows the clamped correction. AUDIO_FOLLOW_SWITCH makes every followed channel of the destination take the source
it follows. AUDIO_EGRESS_PACKET of a sending flow whose samples are complete moves the flow to its next packet. Outside
SELVEDGE, server up, die reachable: AUD_PORT_COMMIT of a used port keeps the masks pending for a frame sync after the
present instant, or is rejected under event 0x2801 with AUD.PORT.REJECT; AUD_GROUP_COMMIT keeps the shadow of every channel
of the group pending, or is rejected under event 0x2802 with AUD.STICKY bit 1, and no channel changes. -/
def Obligations.AudioIsRoutedCommittedFollowedAndSent : Prop :=
  let open_ (s : State) (d : MDie) : Prop := s.serverUp = true ∧ s.mode ≠ .selvedge ∧ s.reachable d = true
  (∀ s (d : MDie) (b : Fin 8) n, s.up d.pdie = true → s.secOn d secAud = true → s.inForce = true → s.bankHz d b ≠ 0 → n = s.nextIndex d b →
      (audBegun (s.bankHz d b) n (s.now d.pdie) = false → exec (.routerTick d b) s = .next s)
      ∧ (audBegun (s.bankHz d b) n (s.now d.pdie) = true →
        ∃ t, exec (.routerTick d b) s = .next t ∧ (t.md d).audio.last = tabSet (s.md d).audio.last b n
          ∧ ∀ o x, (s.md d).audio.outs = [(o, x)] → o / 256 = b → x.pend = none → s.bankPorts d b = [] → s.bankFlows d b = [] →
              s.twill.rx = [] →
            (t.audOut d o).hist.head? = some (n, s.audOutSample d { x with layers := trimLayers n x.layers } n)))
  ∧ (∀ s (d : MDie) (i : Fin 8) sum e integ, (s.audIsl d i).whole = some sum → s.up d.pdie = true →
      s.bit Obj.audIslStatus d.die i 0 = true →
      e = (sum : Int) - 64 * ((s.leadPort d i).map (fun p => s.rdN Obj.audPortFifoTarget d.die p)).getD 0 →
      integ = clip3 (-549755648) 549755648 ((s.audIsl d i).integ + s.rd Obj.audIslKi d.die i * e) →
    ∃ t, exec (.islandUpdate d i) s = .next t ∧ (t.audIsl d i).integ = integ ∧ (t.audIsl d i).whole = none
      ∧ t.rd Obj.audIslCorr d.die i = clip3 (-2147483) 2147483 (s.rd Obj.audIslKp d.die i * e + shrRne integ 8))
  ∧ (∀ s (d : MDie) (p : Fin 256) f c, s.up d.pdie = true → s.secOn d secAud = true → (s.dst d p).followDue.isSome = true →
      s.dstAudio d p = (f, c) →
    ∃ t, exec (.audioFollowSwitch d p) s = .next t ∧ (t.dst d p).followDue = none
      ∧ ∀ i < c, f + i < 2048 → (t.audOut d (f + i)).source = s.followSource d p i)
  ∧ (∀ s (d : MDie) (f : Fin 4096), s.up d.pdie = true → s.secOn d secAud = true → descAudio (s.outDesc d f) = true →
      s.sends d f = true → s.inSelvedge = false →
      audBegun (audFlowHz (s.outDesc d f)) (s.egressFirst d f + audPerPacket (s.outDesc d f)) (s.now d.pdie) = true →
    ∃ t, exec (.audioEgressPacket d f) s = .next t
      ∧ (t.md d).audio.egress = tabSet (s.md d).audio.egress f ((s.flowOut d f).since, s.egressFirst d f + audPerPacket (s.outDesc d f)))
  ∧ (∀ s (d : MDie) (p : Fin 16) im om, open_ s d → s.audPortUsed d p = true → im = s.rdN Obj.audPortInMask d.die p →
      om = s.rdN Obj.audPortOutMask d.die p →
      (s.audPortFault d p im om = none →
        ∃ t, exec (.audPortCommit d p) s = .next t ∧ t.answer = .ok ∧ (t.audPort d p).pend = some (im, om, s.now d.pdie + 1)
          ∧ t.objs = s.objs)
      ∧ (∀ r, s.audPortFault d p im om = some r → s.canReport d.pdie →
        ∃ t, exec (.audPortCommit d p) s = .next t ∧ t.answer = .rejected 0x2801 ∧ t.audPort d p = s.audPort d p
          ∧ t.rd Obj.audPortReject d.die p = (r : Nat) ∧ t.bit Obj.audSticky d.die 0 0 = true
          ∧ s.reported t d.pdie 0x2801 p (p16 [p.val, r])))
  ∧ (∀ s (d : MDie) (g : Fin 256), open_ s d →
      ((s.routerCommit d g (s.now d.pdie)).2 = true →
        ∃ t, exec (.audGroupCommit d.die g) s = .next t ∧ t.answer = .ok
          ∧ ∀ o ∈ s.audGroupOuts d g, (t.audOut d o).pend = some (s.audShadow d o, s.now d.pdie))
      ∧ ((s.routerCommit d g (s.now d.pdie)).2 = false →
        ∃ t, exec (.audGroupCommit d.die g) s = .next t ∧ t.answer = .rejected 0x2802 ∧ t.bit Obj.audSticky d.die 0 1 = true
          ∧ ∀ o, t.audOut d o = s.audOut d o))

/-- DRAM_REQUEST_ENQUEUE of a request inside the capacity, with room at its port and no faulted channel, appends one queued
piece per granule touched, on the channel, rank and bank of R356, and shows the port's queued pieces in MEM.PORT.PENDING;
one that does not fit changes nothing. DRAM_COMMAND_ISSUE of a channel that carries traffic, whose only piece is a write
that is allowed, not urgent and not spoiled, removes the piece and writes its bytes at its address: every byte inside reads
as written, every byte outside as before; a read piece is marked issued and memory stays. DRAM_READ_RETURN of the only
issued piece, of a range that no store holds and no error touches, removes the piece, leaves memory and delivers the bytes
of memory to the master of the one transaction that waits for it. -/
def Obligations.MemoryRequestsAreSplitWrittenAndReturned : Prop :=
  (∀ s (d : MDie) (r : MemReq), s.up d.pdie = true → s.secOn d 5 = true → r.addr + r.len ≤ s.rdN Obj.memCapacity d.die 0 →
      (s.rdN Obj.memPortPending d.die r.port + (splitRequest r).length ≤ portCapacity →
        (∀ c < 12, s.rdN Obj.memChState d.die c ≠ 6) →
        ∃ t l, exec (.dramRequestEnqueue d r) s = .next t ∧ (t.md d).ram.pieces = (s.md d).ram.pieces ++ l
          ∧ l.map (·.req) = splitRequest r
          ∧ (∀ p ∈ l, p.queued = true ∧ p.enter = s.now d.pdie ∧ p.ch = (s.memLoc d p.req.addr).ch
              ∧ p.rank = (s.memLoc d p.req.addr).rank ∧ p.bank = (s.memLoc d p.req.addr).bank)
          ∧ t.rdN Obj.memPortPending d.die r.port =
              ((t.md d).ram.pieces.filter (fun p => p.queued && p.req.port.val == r.port.val)).length)
      ∧ (portCapacity < s.rdN Obj.memPortPending d.die r.port + (splitRequest r).length →
        exec (.dramRequestEnqueue d r) s = .next s))
  ∧ (∀ s (d : MDie) (c : Fin 12) busy p, s.up d.pdie = true → s.chanUp d c = true → (s.md d).ram.pieces = [p] → p.ch = c.val →
      p.queued = true → s.urgencyOf d p < 3 → (s.chan d c).alert = none → (s.chan d c).parity = 0 →
      p.rank * 16 + p.bank ∉ busy →
      (p.req.write = true → p.null = false →
        ∃ t, exec (.dramCommandIssue d c busy) s = .next t ∧ (t.md d).ram.pieces = []
          ∧ (t.md d).ram.mem = (s.md d).ram.mem.write p.req.addr p.req.data
          ∧ (∀ k < p.req.data.length, (t.md d).ram.mem.get (p.req.addr + k) = p.req.data.getD k 0)
          ∧ (∀ a, (a < p.req.addr ∨ p.req.addr + p.req.data.length ≤ a) → (t.md d).ram.mem.get a = (s.md d).ram.mem.get a)
          ∧ (t.md d.other).ram = (s.md d.other).ram)
      ∧ (p.req.write = false →
        ∃ t, exec (.dramCommandIssue d c busy) s = .next t
          ∧ (t.md d).ram.pieces = [{ p with issued := some (s.now d.pdie) }] ∧ (t.md d).ram.mem = (s.md d).ram.mem))
  ∧ (∀ s (d : MDie) (c : Fin 12) p x, s.up d.pdie = true → (s.md d).ram.pieces = [p] → p.ch = c.val → p.queued = false →
      p.req.write = false → p.again = false → (s.md d).ram.flips = [] → s.storeHeld d p.req.addr = false → (s.md d).bus.beats = [] →
      (s.md d).bus.txns = [x] → x.master = p.req.master → x.op.id = p.req.id → x.op.write = false → x.left = 1 → x.data = [] →
      x.parked = false → x.old = false → x.poison = false → x.error = false → x.op.addr ≤ p.req.addr →
      p.req.addr < x.op.addr + x.op.len →
    ∃ t, exec (.dramReadReturn d c [] []) s = .next t ∧ (t.md d).ram.pieces = [] ∧ (t.md d).bus.txns = []
      ∧ (t.md d).ram.mem = (s.md d).ram.mem
      ∧ t.sent = s.sent ++ [.bus d p.req.master p.req.id ((s.md d).ram.mem.read p.req.addr p.req.len) false false])

/-- REFRESH_DUE of a rank that is refreshed, at its due instant, no alert: with no urgent request and tRFC after its last REF
one refresh goes out and the owed ones stay; within tRFC it owes one more, with MEM.CH.STATUS bit 2; with an urgent one and
fewer than 4 owed, the rank owes one more and the postponement is counted; with 4 owed a refresh is forced, 4 stay owed, it
is counted and STICKY bit 4 set. MPR_TEMPERATURE_READ makes a rank hot at a hot reading, and keeps a hot rank hot until the
second cool one in a row. ACTIVATE_COUNTER_EPOCH in a new 64 ms epoch clears every activate counter. ZQCS_CALIBRATION keeps
its instant. PARITY_ALERT opens an alert with no replay and sets STATUS bit 0, or fails the running replay. ALERT_N_RELEASE
starts the next of at most three replays and counts it. PARITY_REPLAY_COMPLETE of a good replay ends the alert, counts it,
sets STICKY bit 2 and reports 0x3005 with the number of replays; after three failed ones the channel is faulted (6), its
pieces are gone, STICKY bit 3 stands and the fault 0x3006 waits for RECOVERY. -/
def Obligations.MemoryChannelsRefreshAndReplay : Prop :=
  (∀ s (d : MDie) (c : Fin 12) (k : Fin 2), s.up d.pdie = true → s.refreshed d c k = true → (s.chan d c).alert = none →
      s.refreshDue d c k = true →
      (s.chanUrgent d c = false → 0 < (s.md d).ram.rfc → tabGet (s.chan d c).owed k 0 ≤ 4 →
          (∀ e, (s.chan d c).ref.find? (fun e => e.1 == k.val) = some e → e.2 + (s.md d).ram.rfc ≤ s.memClock d) →
        ∃ t, exec (.refreshDue d c k) s = .next t ∧ tabGet (t.chan d c).owed k 0 = tabGet (s.chan d c).owed k 0
          ∧ tabGet (t.chan d c).ref k 0 = s.memClock d
          ∧ t.bit Obj.memChStatus d.die c 2 = (t.chan d c).owed.any (fun o => decide (0 < o.2)))
      ∧ (∀ e, s.chanUrgent d c = false → tabGet (s.chan d c).owed k 0 < 4 →
          (s.chan d c).ref.find? (fun e => e.1 == k.val) = some e → s.memClock d < e.2 + (s.md d).ram.rfc →
        ∃ t, exec (.refreshDue d c k) s = .next t ∧ tabGet (t.chan d c).owed k 0 = tabGet (s.chan d c).owed k 0 + 1
          ∧ t.bit Obj.memChStatus d.die c 2 = true)
      ∧ (s.chanUrgent d c = true → tabGet (s.chan d c).owed k 0 < 4 →
        ∃ t, exec (.refreshDue d c k) s = .next t ∧ tabGet (t.chan d c).owed k 0 = tabGet (s.chan d c).owed k 0 + 1
          ∧ t.rdN Obj.memChRefPostponeCount d.die c =
              min (s.rdN Obj.memChRefPostponeCount d.die c + 1) Obj.memChRefPostponeCount.ty.maxVal)
      ∧ (s.chanUrgent d c = true → tabGet (s.chan d c).owed k 0 = 4 →
        ∃ t, exec (.refreshDue d c k) s = .next t ∧ tabGet (t.chan d c).owed k 0 = 4 ∧ t.bit Obj.memChSticky d.die c 4 = true
          ∧ t.rdN Obj.memChRefForcedCount d.die c =
              min (s.rdN Obj.memChRefForcedCount d.die c + 1) Obj.memChRefForcedCount.ty.maxVal))
  ∧ (∀ s (d : MDie) (c : Fin 12) (k : Fin 2) hot, s.up d.pdie = true → s.refreshed d c k = true →
      s.rdN Obj.memRefreshMode d.die 0 = 0 → s.chanUrgent d c = false →
    ∃ t, exec (.mprTemperatureRead d c k hot) s = .next t ∧ t.objs = s.objs
      ∧ (hot = true → tabGet (t.chan d c).hot k false = true ∧ tabGet (t.chan d c).cool k 0 = 0)
      ∧ (hot = false → tabGet (t.chan d c).cool k 0 = tabGet (s.chan d c).cool k 0 + 1
          ∧ tabGet (t.chan d c).hot k false = (tabGet (s.chan d c).hot k false && decide (tabGet (s.chan d c).cool k 0 = 0))))
  ∧ (∀ s (d : MDie), s.up d.pdie = true → (s.md d).ram.epoch ≠ s.now d.pdie / 64000000 →
    ∃ t, exec (.activateCounterEpoch d) s = .next t ∧ t.objs = s.objs ∧ (t.md d).ram.epoch = s.now d.pdie / 64000000
      ∧ ∀ c, (t.chan d c).acts = [])
  ∧ (∀ s (d : MDie) (c : Fin 12) (k : Fin 2), s.up d.pdie = true → s.chanUp d c = true → k.val < (s.md d).ram.ranks →
      s.chanUrgent d c = false → (s.chan d c).alert = none →
    ∃ t, exec (.zqcsCalibration d c k) s = .next t ∧ tabGet (t.chan d c).zq k 0 = s.now d.pdie ∧ t.objs = s.objs)
  ∧ (∀ s (d : MDie) (c : Fin 12), s.up d.pdie = true → (s.rdN Obj.memChState d.die c = 3 ∨ s.rdN Obj.memChState d.die c = 5) →
      ((s.chan d c).alert = none →
        ∃ t a, exec (.parityAlert d c) s = .next t ∧ (t.chan d c).alert = some a ∧ a.replays = 0 ∧ a.running = false
          ∧ t.bit Obj.memChStatus d.die c 0 = true)
      ∧ (∀ a, (s.chan d c).alert = some a → a.running = true →
        ∃ t, exec (.parityAlert d c) s = .next t ∧ (t.chan d c).alert = some { a with failed := true }))
  ∧ (∀ s (d : MDie) (c : Fin 12) a, (s.chan d c).alert = some a → s.up d.pdie = true →
      (a.replays < 3 → (a.running = false ∨ a.failed = true) →
        ∃ t b, exec (.alertNRelease d c) s = .next t ∧ (t.chan d c).alert = some b ∧ b.replays = a.replays + 1 ∧ b.running = true
          ∧ t.rdN Obj.memChReplayCount d.die c = min (s.rdN Obj.memChReplayCount d.die c + 1) Obj.memChReplayCount.ty.maxVal)
      ∧ (a.running = true → a.failed = false → s.canReport d.pdie →
        ∃ t, exec (.parityReplayComplete d c) s = .next t ∧ (t.chan d c).alert = none ∧ t.bit Obj.memChSticky d.die c 2 = true
          ∧ t.rdN Obj.memChAlertCount d.die c = min (s.rdN Obj.memChAlertCount d.die c + 1) Obj.memChAlertCount.ty.maxVal
          ∧ s.reported t d.pdie 0x3005 c (p16 [c.val, a.replays]))
      ∧ (a.running = true → a.failed = true → 3 ≤ a.replays →
        ∃ t, exec (.parityReplayComplete d c) s = .next t ∧ t.rdN Obj.memChState d.die c = 6
          ∧ t.bit Obj.memChSticky d.die c 3 = true ∧ (d, 0x3006) ∈ t.recov.due ∧ ∀ p ∈ (t.md d).ram.pieces, p.ch ≠ c.val))

/-- SCRUB_GRANULE, while the granule's channel carries traffic, reads it and moves MEM.SCRUB.ADDR on by 256, from address 0
where a brown-out pass is due, with MEM.STATUS bit 3 set. SCRUB_PASS_COMPLETE clears bit 3, starts at 0 again and reports
0x3010 with the kind of pass and the beats found. STROBE_DRIFT_TRACK moves each byte lane by at most one step. EYE_CHECK
clears MEM.CH.STATUS bit 3; a failed one sets STICKY bit 7, reports 0x300A and asks for a retrain. MEM_CH_RETRAIN asks for
one at a channel that carries traffic, and has no effect elsewhere. IN_SERVICE_RETRAIN_DONE with a setting shows its eye in
MEM.CH.MARGIN, drift 0, state 3 and reports 0x300C; without one STICKY bit 8 stands and the fault 0x300D waits for RECOVERY.
FULL_RETRAIN_DONE with a setting does so too; without one the channel is fenced: state 7, no longer enabled, MEM.STICKY bit
0, event 0x300E, and every byte of the die's DRAM is lost. -/
def Obligations.MemoryIsScrubbedTrackedAndRetrained : Prop :=
  (∀ s (d : MDie) single multi bad, s.up d.pdie = true → s.secOn d 5 = true →
      s.rdN Obj.memScrubAddr d.die 0 < s.rdN Obj.memCapacity d.die 0 →
      s.chanUp d (s.memLoc d (s.rdN Obj.memScrubAddr d.die 0)).ch = true →
    ∃ t, exec (.scrubGranule d single multi bad) s = .next t ∧ t.bit Obj.memStatus d.die 0 3 = true
      ∧ ((s.power d.pdie).scrubDue = false ∨ (s.md d).ram.fast = true → t.rdN Obj.memScrubAddr d.die 0 = s.rdN Obj.memScrubAddr d.die 0 + 256)
      ∧ ((s.power d.pdie).scrubDue = true → (s.md d).ram.fast = false →
          t.rdN Obj.memScrubAddr d.die 0 = 256 ∧ (t.md d).ram.fast = true)
      ∧ (t.md d).ram.mem = (s.md d).ram.mem)
  ∧ (∀ s (d : MDie), s.up d.pdie = true → 0 < s.rdN Obj.memCapacity d.die 0 →
      s.rdN Obj.memCapacity d.die 0 ≤ s.rdN Obj.memScrubAddr d.die 0 → (s.md d).ram.corrected < 2 ^ 32 →
      (s.md d).ram.uncorrectable < 2 ^ 32 → s.canReport d.pdie →
    ∃ t, exec (.scrubPassComplete d) s = .next t ∧ t.bit Obj.memStatus d.die 0 3 = false ∧ t.rd Obj.memScrubAddr d.die 0 = 0
      ∧ (t.md d).ram.corrected = 0 ∧ (t.md d).ram.uncorrectable = 0
      ∧ s.reported t d.pdie 0x3010 0 (payloadOf [(16, if (s.md d).ram.fast then 2 else 1), (32, ((s.md d).ram.corrected : Int)),
          (32, ((s.md d).ram.uncorrectable : Int))]))
  ∧ (∀ s (d : MDie) (c : Fin 12) moves, s.up d.pdie = true → s.chanUp d c = true → (s.mode = .service ∨ s.mode = .recovery) →
    ∃ t, exec (.strobeDriftTrack d c moves) s = .next t
      ∧ ∀ k < 9, tabGet (t.chan d c).lanes k 0 = tabGet (s.chan d c).lanes k 0 + max (-1) (min 1 (moves.getD k 0)))
  ∧ (∀ s (d : MDie) (c : Fin 12), s.up d.pdie = true → s.chanUp d c = true → s.bit Obj.memChStatus d.die c 3 = true →
      (s.chan d c).alert = none → s.chanUrgent d c = false →
      (∃ t, exec (.eyeCheck d c none) s = .next t ∧ t.bit Obj.memChStatus d.die c 3 = false ∧ t.sent = s.sent)
      ∧ (∀ rank lane, s.canReport d.pdie →
        ∃ t, exec (.eyeCheck d c (some (rank, lane))) s = .next t ∧ t.bit Obj.memChStatus d.die c 3 = false
          ∧ t.bit Obj.memChSticky d.die c 7 = true ∧ c.val ∈ (t.md d).ram.retrains
          ∧ s.reported t d.pdie 0x300A c (p16 [c.val, rank, lane])))
  ∧ (∀ s (d : MDie) (c : Fin 12), s.serverUp = true →
      (s.reachable d = false → exec (.memChRetrain d c) s = .next (s.ans (.unreachable d.num)))
      ∧ (s.reachable d = true → s.chanUp d c = true →
        ∃ t, exec (.memChRetrain d c) s = .next t ∧ t.answer = .ok ∧ c.val ∈ (t.md d).ram.retrains)
      ∧ (s.reachable d = true → s.chanUp d c = false →
        exec (.memChRetrain d c) s = .next (s.ans (.noEffect (s.rdN Obj.memChState d.die c)))))
  ∧ (∀ s (d : MDie) (c : Fin 12) r, s.up d.pdie = true → (s.md d).ram.retrains = c.val :: r → c.val ∉ r → s.chanUp d c = true →
      (s.chan d c).alert = none → s.canReport d.pdie →
      (∀ e, ∃ t, exec (.inServiceRetrainDone d c (some e)) s = .next t ∧ t.rd Obj.memChMargin d.die c = (e : Nat)
        ∧ t.rd Obj.memChDrift d.die c = 0 ∧ t.rd Obj.memChState d.die c = 3 ∧ (t.md d).ram.retrains = r
        ∧ s.reported t d.pdie 0x300C c (p16 [c.val, e]))
      ∧ (∃ t, exec (.inServiceRetrainDone d c none) s = .next t ∧ t.bit Obj.memChSticky d.die c 8 = true
        ∧ t.bit Obj.memSticky d.die 0 3 = true ∧ (t.chan d c).failed = true ∧ t.recov.due = s.recov.due ++ [(d, 0x300D)]
        ∧ s.reported t d.pdie 0x300D c (p16 [c.val])))
  ∧ (∀ s (d : MDie) (c : Fin 12), s.up d.pdie = true → (d, c.val) ∈ s.recov.acts →
      (∀ e, s.memN d ≠ 0 →
        ∃ t, exec (.fullRetrainDone d c (some e)) s = .next t ∧ t.rd Obj.memChMargin d.die c = (e : Nat)
          ∧ t.rd Obj.memChState d.die c = 3 ∧ (d, c.val) ∉ t.recov.acts)
      ∧ (∃ t, exec (.fullRetrainDone d c none) s = .next t ∧ t.rd Obj.memChState d.die c = 7
          ∧ t.bit Obj.memChEnabled d.die 0 c = false ∧ t.bit Obj.memSticky d.die 0 0 = true ∧ (t.md d).ram.mem.cells = []
          ∧ (t.md d).ram.pieces = [] ∧ s.reported t .c 0x300E c (p16 [c.val])))

/-- BUS_TRANSACTION_ISSUE by a master that may issue: an access that does not decode is, for an ordinary master, parked with
BUS.MASTER.FAULT.ADDR, counts and event 0x3101, and for a privileged one reported as 0x3102 with BUS.STICKY bit 1; a DRAM
access waits for one piece per granule; a master that may not issue changes nothing. SEMAPHORE_READ of one semaphore by a
master that may issue returns its word, and a free one becomes the reader's. SEMAPHORE_WRITE of zero by the owner frees it;
a zero by another master changes no owner, sets BUS.STICKY bit 4 and reports 0x3106. MASTER_RESET toggles the generation,
frees the master's semaphores, and leaves only transactions of the old generation; a second one before the acknowledgement
changes nothing. MASTER_RESET_ACK ends it once none is left, counts and reports 0x3103. RESET_DRAIN_OVERRUN after 1 ms,
once, sets STICKY bit 3, reports 0x3104 and leaves the fault for RECOVERY. BUS_MASTER_RESET answers ACCESS outside TEST, and
in TEST resets the master. -/
def Obligations.BusTransactionsSemaphoresAndMasterResets : Prop :=
  (∀ s (d : MDie) (m : Fin 39) (o : BusOp), 0 < o.len → o.len ≤ 4096 → o.id < 256 → (o.write = true → o.data.length = o.len) →
      (s.mayIssue d m (s.debugOpen 1) = false → exec (.busTransactionIssue d m o) s = .next s)
      ∧ (s.mayIssue d m (s.debugOpen 1) = true → s.decodes d m o = none → busPrivileged m = false → s.canReport d.pdie →
        ∃ t x, exec (.busTransactionIssue d m o) s = .next t ∧ (t.md d).bus.txns = (s.md d).bus.txns ++ [x] ∧ x.op = o
          ∧ x.parked = true ∧ t.rdN Obj.busMasterFaultAddr d.die m = o.id * 2 ^ 56 + o.addr % 2 ^ 40
          ∧ t.rdN Obj.busMasterFaultCount d.die m = min (s.rdN Obj.busMasterFaultCount d.die m.val + 1) Obj.busMasterFaultCount.ty.maxVal
          ∧ t.bit Obj.busSticky d.die 0 0 = true
          ∧ s.reported t d.pdie 0x3101 m (payloadOf [(16, (m.val : Int)), (16, (o.id : Int)), (40, (o.addr : Int))]))
      ∧ (s.mayIssue d m (s.debugOpen 1) = true → s.decodes d m o = none → busPrivileged m = true → s.canReport d.pdie →
        ∃ t, exec (.busTransactionIssue d m o) s = .next t ∧ t.bit Obj.busSticky d.die 0 1 = true
          ∧ s.reported t d.pdie 0x3102 m (payloadOf [(16, (m.val : Int)), (16, (o.id : Int)), (40, (o.addr : Int))]))
      ∧ (s.mayIssue d m (s.debugOpen 1) = true → s.decodes d m o = some 0 →
        ∃ t x, exec (.busTransactionIssue d m o) s = .next t ∧ (t.md d).bus.txns = (s.md d).bus.txns ++ [x] ∧ x.op = o
          ∧ x.master = m.val ∧ x.left = (o.addr + o.len - 1) / 256 - o.addr / 256 + 1 ∧ x.old = false))
  ∧ (∀ s (d : MDie) (m : Fin 39) (n : Fin 256), s.mayIssue d m (s.debugOpen 1) = true → (masterPermit m).testBit 3 = true →
      (∃ t, exec (.semaphoreRead d m (8 * n.val) 8) s = .next t ∧ t.sent = s.sent ++ [.bus d m 0 (s.semBytes d (8 * n.val) 8) false false]
        ∧ (s.rdN Obj.busSemOwner d.die n = 0 → t.rdN Obj.busSemOwner d.die n = m.val + 1)
        ∧ (s.rdN Obj.busSemOwner d.die n ≠ 0 → t.objs = s.objs))
      ∧ (s.rdN Obj.busSemOwner d.die n = m.val + 1 →
        ∃ t, exec (.semaphoreWrite d m (8 * n.val) (List.replicate 8 0)) s = .next t ∧ t.rdN Obj.busSemOwner d.die n = 0
          ∧ s.agree t [Obj.busSemOwner.addr d.die n] ∧ s.onlyObjs t)
      ∧ (s.rdN Obj.busSemOwner d.die n ≠ m.val + 1 → s.canReport d.pdie →
        ∃ t, exec (.semaphoreWrite d m (8 * n.val) (List.replicate 8 0)) s = .next t
          ∧ (∀ k, t.rdN Obj.busSemOwner d.die k = s.rdN Obj.busSemOwner d.die k) ∧ t.bit Obj.busSticky d.die 0 4 = true
          ∧ s.reported t d.pdie 0x3106 n (p16 [n.val, m.val])))
  ∧ (∀ s (d : MDie) (m : Fin 39), s.up d.pdie = true → s.secOn d 1 = true →
      ((s.md d).bus.resets.any (fun r => r.1 == m.val) = true → exec (.masterReset d m) s = .next s)
      ∧ ((s.md d).bus.resets.any (fun r => r.1 == m.val) = false →
        ∃ t, exec (.masterReset d m) s = .next t ∧ t.rdN Obj.busMasterGen d.die m = 1 - s.rdN Obj.busMasterGen d.die m
          ∧ (∀ n < 256, s.rdN Obj.busSemOwner d.die n = m.val + 1 → t.rdN Obj.busSemOwner d.die n = 0)
          ∧ (∀ x ∈ (t.md d).bus.txns, x.master = m.val → x.old = true)
          ∧ (t.md d).bus.resets.any (fun r => r.1 == m.val) = true))
  ∧ (∀ s (d : MDie) (m : Fin 39), s.up d.pdie = true → (s.md d).bus.resets.any (fun r => r.1 == m.val) = true → s.canReport d.pdie →
      ((s.md d).bus.txns.any (fun x => x.master == m.val && x.old) = false →
        ∃ t, exec (.masterResetAck d m) s = .next t ∧ (t.md d).bus.resets.any (fun r => r.1 == m.val) = false
          ∧ t.rdN Obj.busMasterResetCount d.die m = min (s.rdN Obj.busMasterResetCount d.die m.val + 1) Obj.busMasterResetCount.ty.maxVal
          ∧ s.reported t d.pdie 0x3103 m (p16 [m.val, (tabGet (s.md d).bus.resets m (0, 0)).2]))
      ∧ ((s.md d).bus.txns.any (fun x => x.master == m.val && x.old) = true →
          (tabGet (s.md d).bus.resets m (0, 0)).1 + 1000000 ≤ s.now d.pdie → (s.md d).bus.overruns.contains m.val = false →
        ∃ t, exec (.resetDrainOverrun d m) s = .next t ∧ t.bit Obj.busSticky d.die 0 3 = true
          ∧ t.recov.due = s.recov.due ++ [(d, 0x3104)] ∧ s.reported t d.pdie 0x3104 m (p16 [m.val])))
  ∧ (∀ s (d : MDie) (m : Fin 48), s.serverUp = true →
      ((s.mode ≠ .test ∨ 39 ≤ m.val) → exec (.busMasterReset d m) s = .next (s.ans .access))
      ∧ (s.mode = .test → m.val < 39 → s.reachable d = false → exec (.busMasterReset d m) s = .next (s.ans (.unreachable d.num)))
      ∧ (s.mode = .test → m.val < 39 → s.reachable d = true →
        ∃ t, exec (.busMasterReset d m) s = .next t ∧ t.answer = .ok ∧ (t.md d).bus.resets.any (fun r => r.1 == m.val) = true))

/-- Server up: TEST_BIST_SECTION answers ACCESS while a self-test runs on the die, RANGE for a section below 6 or above 29,
ACCESS for a section that is not on, and otherwise starts the self-test, during which the section produces nothing.
BIST_COMPLETE ends it: with no failed element TEST.BIST.RESULT shows bits 31 and 30 and nothing is reported; with failed
ones bit 31 and their number, the elements are marked failed and event 0x1054 is reported. TEST_CRC_FRAMES answers RANGE for
0 or more than 1,000,000 frames and otherwise starts a run (state 1). CRC_RUN_END shows 2 without and 3 with failures and
reports 0x1055. Each injection answers UNREACHABLE, ACCESS outside TEST, RANGE for a count of 0 or a target that does not
exist, and otherwise adds its count to the faults that wait for the target, raises TEST.INJECT.COUNT and reports 0x1056. -/
def Obligations.TestFacilitiesRunAndInject : Prop :=
  let inj (s : State) (d : MDie) (o : Out) (kind target count : Nat) : Prop :=
    (s.reachable d = false → o = .next (s.ans (.unreachable d.num)))
    ∧ (s.reachable d = true → s.mode ≠ .test → o = .next (s.ans .access))
    ∧ (s.reachable d = true → s.mode = .test → (count = 0 ∨ s.injectOk d kind target = false) → o = .next (s.ans .range))
  let may (s : State) (d : MDie) (kind target count : Nat) : Prop :=
    s.serverUp = true ∧ s.reachable d = true ∧ s.mode = .test ∧ count ≠ 0 ∧ s.injectOk d kind target = true ∧ s.canReport d.pdie
  let told (s t : State) (d : MDie) (kind target : Nat) : Prop :=
    t.answer = .ok ∧ t.rdN Obj.testInjectCount d.die 0 = min (s.rdN Obj.testInjectCount d.die 0 + 1) Obj.testInjectCount.ty.maxVal
      ∧ s.reported t d.pdie 0x1056 0 (p16 [kind, target])
  (∀ s (d : MDie) sec, s.serverUp = true → s.reachable d = true →
      ((s.md d).test.bist.isSome = true → exec (.testBistSection d sec) s = .next (s.ans .access))
      ∧ ((s.md d).test.bist = none → (sec < 6 ∨ 29 < sec) → exec (.testBistSection d sec) s = .next (s.ans .range))
      ∧ ((s.md d).test.bist = none → 6 ≤ sec → sec ≤ 29 → s.section d.pdie sec ≠ 2 →
          exec (.testBistSection d sec) s = .next (s.ans .access))
      ∧ ((s.md d).test.bist = none → 6 ≤ sec → sec ≤ 29 → s.section d.pdie sec = 2 →
        ∃ t, exec (.testBistSection d sec) s = .next t ∧ t.answer = .ok ∧ t.secOn d sec = false ∧ t.objs = s.objs))
  ∧ (∀ s (d : MDie) bad n, (s.md d).test.bist = some n → s.up d.pdie = true →
      (bad = [] → ∃ t, exec (.bistComplete d bad) s = .next t ∧ (t.md d).test.bist = none
        ∧ t.rd Obj.testBistResult d.die n = 2 ^ 31 + 2 ^ 30 ∧ (t.md d).badElems = (s.md d).badElems ∧ t.ramLog = s.ramLog)
      ∧ (bad ≠ [] → s.canReport d.pdie → ∃ t, exec (.bistComplete d bad) s = .next t ∧ (t.md d).test.bist = none
        ∧ t.rd Obj.testBistResult d.die n = ((2 ^ 31 + bad.eraseDups.length % 65536 : Nat) : Int)
        ∧ (∀ e ∈ bad, (n, e) ∈ (t.md d).badElems)
        ∧ s.reported t d.pdie 0x1054 n (p16 [n, ((bad.eraseDups.length % 65536 : Nat) : Int)])))
  ∧ (∀ s (d : MDie) n, s.serverUp = true →
      (s.reachable d = false → exec (.testCrcFrames d n) s = .next (s.ans (.unreachable d.num)))
      ∧ (s.reachable d = true → (n = 0 ∨ 1000000 < n) → exec (.testCrcFrames d n) s = .next (s.ans .range))
      ∧ (s.reachable d = true → 0 < n → n ≤ 1000000 →
        ∃ t, exec (.testCrcFrames d n) s = .next t ∧ t.answer = .ok ∧ t.rd Obj.testCrcState d.die 0 = 1
          ∧ t.rd Obj.testCrcFails d.die 0 = 0 ∧ t.rd Obj.testCrcFrames d.die 0 = (n : Nat)
          ∧ (t.md d).test.crc = (s.crcRects d).map (fun i => (i, n))))
  ∧ (∀ s (d : MDie), s.up d.pdie = true → s.rdN Obj.testCrcState d.die 0 = 1 → (∀ x ∈ (s.md d).test.crc, x.2 = 0) → s.canReport d.pdie →
    ∃ t st, exec (.crcRunEnd d) s = .next t ∧ t.rdN Obj.testCrcState d.die 0 = st
      ∧ st = (if s.rdN Obj.testCrcFails d.die 0 = 0 then 2 else 3)
      ∧ s.reported t d.pdie 0x1055 0 (payloadOf [(16, (st : Int)), (32, (s.rdN Obj.testCrcFails d.die 0 : Int))]))
  ∧ (∀ s (d : MDie) x n, s.serverUp = true →
      inj s d (exec (.injectSingleBitEcc d x n) s) 1 x n
      ∧ inj s d (exec (.injectDoubleBitEcc d x n) s) 2 x n
      ∧ inj s d (exec (.injectCaParity d x n) s) 3 x n
      ∧ inj s d (exec (.injectBusParity d x n) s) 4 x n
      ∧ inj s d (exec (.injectQueueParity d x n) s) 5 x n
      ∧ inj s d (exec (.injectSymbolErrors d x n) s) 6 x n
      ∧ inj s d (exec (.injectUncorrectable d x n) s) 7 x n)
  ∧ (∀ s (d : MDie) x n, may s d 1 x n →
    ∃ t, exec (.injectSingleBitEcc d x n) s = .next t ∧ told s t d 1 x ∧ (t.chan d x).single = (s.chan d x).single + n)
  ∧ (∀ s (d : MDie) x n, may s d 2 x n →
    ∃ t, exec (.injectDoubleBitEcc d x n) s = .next t ∧ told s t d 2 x ∧ (t.chan d x).double = (s.chan d x).double + n)
  ∧ (∀ s (d : MDie) x n, may s d 3 x n →
    ∃ t, exec (.injectCaParity d x n) s = .next t ∧ told s t d 3 x ∧ (t.chan d x).parity = (s.chan d x).parity + n)
  ∧ (∀ s (d : MDie) x n, may s d 4 x n →
    ∃ t, exec (.injectBusParity d x n) s = .next t ∧ told s t d 4 x ∧ tabGet (t.md d).bus.beats x 0 = tabGet (s.md d).bus.beats x 0 + n)
  ∧ (∀ s (d : MDie) x n, may s d 5 x n →
    ∃ t, exec (.injectQueueParity d x n) s = .next t ∧ told s t d 5 x ∧ tabGet (t.md d).bus.words x 0 = tabGet (s.md d).bus.words x 0 + n)
  ∧ (∀ s (d : MDie) x n, may s d 6 x n →
    ∃ t, exec (.injectSymbolErrors d x n) s = .next t ∧ told s t d 6 x ∧ tabGet (t.md d).test.symbols x 0 = tabGet (s.md d).test.symbols x 0 + n)
  ∧ (∀ s (d : MDie) x n, may s d 7 x n →
    ∃ t, exec (.injectUncorrectable d x n) s = .next t ∧ told s t d 7 x ∧ tabGet (t.md d).test.codewords x 0 = tabGet (s.md d).test.codewords x 0 + n)

/-- On a die that compares: PACKET_COMPLETE_COMPARE moves the oldest complete packet into the table and sends its record to the
partner; with a full table it is released and counted as uncompared. COMPARE_RECORD_RECEIVED without a packet is kept; with
a packet of equal CRC and length it takes the packet out of the table, counts a match and keeps the flow as matched; with a
differing one and an error of the die itself it suppresses the packet, counts, sets SLV.STICKY bit 1 and, for the flow's
first before its resynchronization, reports 0x3205; with a differing one, errors on neither die and no die rejoining, it
releases the packet, counts a mismatch and sets SLV.STICKY bit 0. COMPARE_TIMEOUT after 6 µs releases the oldest packet of
the table, counts it and sets bit 4. ORPHAN_COMPARE_RECORD_EXPIRY drops the oldest record without a packet and changes no
object. RESYNCHRONIZATION completes the oldest due one, counts it at the other die and reports 0x3206 with kind 1 for a
channel, 2 for any other source. -/
def Obligations.PacketsOfThePairAreComparedAndReleased : Prop :=
  (∀ s (d : MDie) h rest, s.compares d = true → (s.md d).slv.built = h :: rest →
      ((s.md d).slv.table.length < compareMax →
          (s.md d).slv.orphans.find? (fun o => o.1.flow == h.flow && o.1.seq == h.seq) = none →
        ∃ t, exec (.packetCompleteCompare d) s = .next t ∧ (t.md d).slv.built = rest ∧ (t.md d).slv.table = (s.md d).slv.table ++ [h]
          ∧ t.sent = s.sent ++ [.pair d (compareBytes d h.record)] ∧ t.objs = s.objs)
      ∧ (compareMax ≤ (s.md d).slv.table.length →
        ∃ t, exec (.packetCompleteCompare d) s = .next t ∧ (t.md d).slv.built = rest
          ∧ (t.md d).slv.table = ((s.md d).slv.table ++ [h]).erase h
          ∧ t.rdN Obj.slvUncomparedCount d.die 0 = min (s.rdN Obj.slvUncomparedCount d.die 0 + 1) Obj.slvUncomparedCount.ty.maxVal))
  ∧ (∀ s (d : MDie) (r : CmpRec), s.compares d = true →
      (s.md d).slv.table.find? (fun h => h.flow == r.flow && h.seq == r.seq) = none →
    ∃ t, exec (.compareRecordReceived d r) s = .next t ∧ (t.md d).slv.orphans = (s.md d).slv.orphans ++ [(r, s.now d.pdie)]
      ∧ t.objs = s.objs ∧ t.sent = s.sent)
  ∧ (∀ s (d : MDie) (r : CmpRec) h, s.compares d = true →
      (s.md d).slv.table.find? (fun h => h.flow == r.flow && h.seq == r.seq) = some h →
      (r.crc = h.crc → r.len = h.len →
        ∃ t, exec (.compareRecordReceived d r) s = .next t ∧ (t.md d).slv.table = (s.md d).slv.table.erase h
          ∧ h.flow ∈ (t.md d).slv.matched
          ∧ t.rdN Obj.slvMatchCount d.die 0 = min (s.rdN Obj.slvMatchCount d.die 0 + 1) Obj.slvMatchCount.ty.maxVal)
      ∧ ((r.crc ≠ h.crc ∨ r.len ≠ h.len) → h.err = true → s.canReport d.pdie →
        ∃ t, exec (.compareRecordReceived d r) s = .next t ∧ (t.md d).slv.table = (s.md d).slv.table.erase h
          ∧ t.rdN Obj.slvSuppressCount d.die 0 = min (s.rdN Obj.slvSuppressCount d.die 0 + 1) Obj.slvSuppressCount.ty.maxVal
          ∧ t.bit Obj.slvSticky .p 0 1 = true ∧ h.flow ∈ (t.md d).slv.bad
          ∧ (h.flow ∉ (s.md d).slv.bad → s.reported t d.pdie 0x3205 h.flow (p16 [h.flow, h.seq])))
      ∧ ((r.crc ≠ h.crc ∨ r.len ≠ h.len) → h.err = false → r.err = false → s.slvState d ≠ 6 → s.slvState d.other ≠ 6 →
        ∃ t, exec (.compareRecordReceived d r) s = .next t ∧ (t.md d).slv.table = (s.md d).slv.table.erase h
          ∧ t.rdN Obj.slvMismatchCount d.die 0 = min (s.rdN Obj.slvMismatchCount d.die 0 + 1) Obj.slvMismatchCount.ty.maxVal
          ∧ t.bit Obj.slvSticky .p 0 0 = true))
  ∧ (∀ s (d : MDie) h rest, (s.md d).slv.table = h :: rest → s.up d.pdie = true → s.mode = .selvedge →
      h.at_ + compareWait ≤ s.now d.pdie →
    ∃ t, exec (.compareTimeout d) s = .next t ∧ (t.md d).slv.table = rest ∧ t.bit Obj.slvSticky .p 0 4 = true
      ∧ t.rdN Obj.slvTimeoutCount d.die 0 = min (s.rdN Obj.slvTimeoutCount d.die 0 + 1) Obj.slvTimeoutCount.ty.maxVal)
  ∧ (∀ s (d : MDie) o rest, (s.md d).slv.orphans = o :: rest → s.up d.pdie = true → o.2 + compareWait ≤ s.now d.pdie →
    ∃ t, exec (.orphanCompareRecordExpiry d) s = .next t ∧ (t.md d).slv.orphans = rest ∧ t.objs = s.objs ∧ t.sent = s.sent)
  ∧ (∀ s kind n src rest, s.pair.resyncs = (kind, n, src) :: rest → s.serverUp = true → s.mode = .selvedge → s.up .a = true →
      s.up .b = true →
    ∃ t, exec .resynchronization s = .next t ∧ t.pair.resyncs = rest
      ∧ t.rdN Obj.slvResyncCount src.other.die 0 = min (s.rdN Obj.slvResyncCount src.other.die 0 + 1) Obj.slvResyncCount.ty.maxVal
      ∧ s.reported t .c 0x3206 n (p16 [min kind 2, n]))

/-- DECISION_RECORD_RECEIVED by a partner that compares is kept. HEARTBEAT_SEND sends state, number, generation and error count,
and takes the next number. HEARTBEAT_DEADLINE with a copy on each path changes no count; without any it raises
SLV.HB.MISS.COUNT, and at the fourth in a row on both paths a die neither SOLO nor SPLIT stands as SOLO (3) and owner with
SLV.STICKY bit 2. OUT_HEARTBEAT_RECEIVED does so at once. SPLIT_ENTRY with two SOLO dies and declarations of both makes both
SPLIT (4), the lower GSEQ the owner, sets bit 3 and reports 0x3207. SPLIT_REJOIN after 4 heartbeats makes the owner SOLO and
the other REJOINING (6). PAIRED_ENTRY with both ALIGNING and matched makes both PAIRED (2) and reports 0x3201. BIST_ROTATION
of a PAIRED die moves to the next section, 6 after 29. RETURN_FROM_OUT takes a die whose configuration fits to REJOINING,
and a rejoining die whose flows have matched makes both PAIRED with event 0x3209. SLV_REJOIN answers UNREACHABLE, does the
same for a die that may return, and else answers OK. -/
def Obligations.HeartbeatsDeclareSplitAndRejoinThePair : Prop :=
  (∀ s (d : MDie) (r : Decision), s.compares d = true → s.ownsPair d = false →
    ∃ t, exec (.decisionRecordReceived d r) s = .next t ∧ (t.md d).slv.decisions = (s.md d).slv.decisions ++ [r] ∧ t.objs = s.objs)
  ∧ (∀ s (d : MDie), s.beats d = true →
    (∃ t, exec (.heartbeatSend d) s = .next t ∧ t.objs = s.objs ∧ (t.md d).slv.hbSeq = ((s.md d).slv.hbSeq + 1) % 2 ^ 32
      ∧ t.sent = s.sent ++ [.pair d (heartbeatBytes d (s.slvState d) (s.md d).slv.hbSeq s.pair.gen (s.md d).slv.errCount)])
    ∧ (∃ t, exec (.heartbeatDeadline d true true) s = .next t ∧ (t.md d).slv.missBridge = 0 ∧ (t.md d).slv.missC = 0
      ∧ t.rdN Obj.slvHbMissCount d.die 0 = s.rdN Obj.slvHbMissCount d.die 0 ∧ t.slvState d = s.slvState d)
    ∧ (∃ t, exec (.heartbeatDeadline d false false) s = .next t
      ∧ t.rdN Obj.slvHbMissCount d.die 0 = min (s.rdN Obj.slvHbMissCount d.die 0 + 1) Obj.slvHbMissCount.ty.maxVal
      ∧ (3 ≤ (s.md d).slv.missBridge → 3 ≤ (s.md d).slv.missC → s.slvState d ≠ 3 → s.slvState d ≠ 4 →
          t.slvState d = 3 ∧ t.ownsPair d = true ∧ t.bit Obj.slvSticky .p 0 2 = true ∧ (t.md d).slv.built = [])))
  ∧ (∀ s (d : MDie), s.compares d = true →
    ∃ t, exec (.outHeartbeatReceived d) s = .next t ∧ t.slvState d = 3 ∧ t.ownsPair d = true ∧ t.bit Obj.slvSticky .p 0 2 = true)
  ∧ (∀ s ga gb, s.declarationOf .a = some ga → s.declarationOf .b = some gb → s.serverUp = true → s.mode = .selvedge →
      s.slvState .a = 3 → s.slvState .b = 3 →
    ∃ t, exec .splitEntry s = .next t ∧ t.slvState .a = 4 ∧ t.slvState .b = 4 ∧ t.bit Obj.slvSticky .p 0 3 = true
      ∧ t.ownsPair (if ga < gb then .a else .b) = true ∧ t.pair.declared = []
      ∧ s.reported t .c 0x3207 (if ga < gb then 0 else 1) (p16 [if ga < gb then 0 else 1]))
  ∧ (∀ s (d : MDie), d = (if s.ownsPair .a then .b else .a) → s.serverUp = true → s.mode = .selvedge → s.slvState d = 4 →
      s.slvState d.other = 4 → 4 ≤ s.pair.heard →
    ∃ t, exec .splitRejoin s = .next t ∧ t.slvState d = 6 ∧ t.slvState d.other = 3 ∧ t.pair.heard = 0)
  ∧ (∀ s, s.serverUp = true → s.mode = .selvedge → s.slvState .a = 1 → s.slvState .b = 1 → s.allMatched .a = true →
      s.allMatched .b = true →
    ∃ t, exec .pairedEntry s = .next t ∧ t.slvState .a = 2 ∧ t.slvState .b = 2 ∧ s.reported t .c 0x3201 0 0)
  ∧ (∀ s (d : MDie) bad, s.up d.pdie = true → s.mode = .selvedge → s.slvState d = 2 →
    ∃ t, exec (.bistRotation d bad) s = .next t
      ∧ t.rdN Obj.slvBistSection d.die 0 = (if s.rdN Obj.slvBistSection d.die 0 < 29 then s.rdN Obj.slvBistSection d.die 0 + 1 else 6)
      ∧ ∀ e ∈ bad, t.elemBad d (s.rdN Obj.slvBistSection d.die 0) e = true)
  ∧ (∀ s (d : MDie), s.mayReturn d = true → ((s.copyMirrored d.other).configureDie d false).2 = none →
    (∃ t, exec (.returnFromOut d) s = .next t ∧ t.slvState d = 6)
    ∧ (∃ t, exec (.slvRejoin d) s = .next t ∧ t.slvState d = 6 ∧ t.answer = .ok))
  ∧ (∀ s (d : MDie), s.serverUp = true → s.mode = .selvedge → s.slvState d = 6 → s.allMatched d = true →
    ∃ t, exec (.returnFromOut d) s = .next t ∧ t.slvState .a = 2 ∧ t.slvState .b = 2 ∧ s.reported t .c 0x3209 d.num (p16 [d.num]))
  ∧ (∀ s (d : MDie), s.serverUp = true →
      (s.reachable d = false → exec (.slvRejoin d) s = .next (s.ans (.unreachable d.num)))
      ∧ (s.reachable d = true → s.mayReturn d = false → exec (.slvRejoin d) s = .next (s.ans .ok)))

/-- Server up. A request for a mode that is not listed from the present one is refused with MODE.REFUSE 1, one that R66 holds
back with 2; a refusal answers rejected under 0x1002, sets MODE.STICKY bit 0, reports 0x1002 with mode and reason and leaves
the mode. CONFIGURE goes to STANDBY, unless the references differ, and back at once, with MODE.PREVIOUS; CONFIGURE goes to
SERVICE, SELVEDGE or TEST where the checks of leaving it pass, and is refused with 6 where the references differ; SERVICE,
SELVEDGE and TEST begin the stop rule toward CONFIGURE, 100 µs ahead, with MODE.PENDING 3, and SERVICE toward SELVEDGE with
5; SELVEDGE goes to SERVICE at once with both dies OFF (0); RECOVERY holds the request. STOP_RULE_COMPLETE, every stream
stopped, enters CONFIGURE, or SELVEDGE with Die A SOLO (3), with MODE.PENDING 0xFF. STOP_RULE_CUT 2 s after the instant ends
every channel that has not and sets MODE.STICKY bit 4. -/
def Obligations.ModeRequestsFollowTheTransitionTable : Prop :=
  let asks : List (Mode × Instr) := [(.standby, .modeRequestStandby), (.configure, .modeRequestConfigure),
    (.service, .modeRequestService), (.selvedge, .modeRequestSelvedge), (.test, .modeRequestTest)]
  let refused (s : State) (m : Mode) (i : Instr) (reason : Nat) : Prop :=
    ∃ t, exec i s = .next t ∧ t.answer = .rejected 0x1002 ∧ t.rd Obj.modeRefuse .p 0 = (reason : Nat)
      ∧ t.bit Obj.modeSticky .p 0 0 = true ∧ t.mode = s.mode ∧ s.reported t .c 0x1002 0 (p16 [m.num, reason])
  (∀ s, s.serverUp = true → ∀ x ∈ asks,
      (listedMove s.mode x.1 = false → refused s x.1 x.2 1)
      ∧ (listedMove s.mode x.1 = true → s.timeHolds x.1 = true → refused s x.1 x.2 2))
  ∧ (∀ s, s.serverUp = true → s.trans = none →
      (s.mode = .configure → s.refDiffer false = false → ∃ t, exec .modeRequestStandby s = .next t ∧ t.mode = .standby ∧ t.answer = .ok
        ∧ t.rd Obj.modePrevious .p 0 = 3)
      ∧ (s.mode = .standby → ∃ t, exec .modeRequestConfigure s = .next t ∧ t.mode = .configure ∧ t.answer = .ok
        ∧ t.rd Obj.modePrevious .p 0 = 2)
      ∧ ((s.mode = .service ∨ s.mode = .selvedge ∨ s.mode = .test) →
        ∃ t, exec .modeRequestConfigure s = .next t ∧ t.mode = s.mode ∧ t.answer = .ok ∧ t.rd Obj.modePending .p 0 = 3
          ∧ t.bit Obj.modeStatus .p 0 0 = true
          ∧ t.trans = some { target := .configure, instant := s.time.base + 100000, source := s.mode })
      ∧ (s.mode = .recovery → ∃ t, exec .modeRequestConfigure s = .next t ∧ t.mode = .recovery ∧ t.answer = .ok
        ∧ t.recov.held = true ∧ s.agree t [Obj.modeStatus.addr .p 0])
      ∧ (s.mode = .selvedge → s.timeHolds .service = false → s.livingDies ≠ [] →
        ∃ t, exec .modeRequestService s = .next t ∧ t.mode = .service ∧ t.answer = .ok ∧ t.slvState .a = 0 ∧ t.slvState .b = 0)
      ∧ (s.mode = .service → s.timeHolds .selvedge = false → s.pairHolds .selvedge = false → 2 ≤ (s.livingDies).length →
        ∃ t, exec .modeRequestSelvedge s = .next t ∧ t.mode = .service ∧ t.answer = .ok ∧ t.rd Obj.modePending .p 0 = 5
          ∧ t.trans = some { target := .selvedge, instant := s.time.base + 100000, source := .service }))
  ∧ (∀ s, s.serverUp = true → s.mode = .configure → s.trans = none →
      ∀ x ∈ asks.drop 2, s.timeHolds x.1 = false → s.diesMissing x.1 = false → s.pairHolds x.1 = false →
        (s.refDiffer false = true → refused s x.1 x.2 6)
        ∧ (s.modeAsked.refDiffer false = false → (s.modeAsked.leaveConfigure (x.1 == .selvedge)).2 = none →
          ∃ t, exec x.2 s = .next t ∧ t.mode = x.1 ∧ t.answer = .ok))
  ∧ (∀ s, s.serverUp = true → s.mode = .configure → s.trans = none → s.diesMissing .test = false →
      s.modeAsked.refDiffer false = false → (s.modeAsked.leaveConfigure false).2 = none →
    ∃ t, exec .modeRequestTest s = .next t ∧ t.mode = .test ∧ t.answer = .ok)
  ∧ (∀ s u, s.trans = some u → s.serverUp = true → s.stopped .a = true → s.stopped .b = true →
    ∃ t, exec .stopRuleComplete s = .next t ∧ t.trans = none ∧ t.rd Obj.modePending .p 0 = 0xFF ∧ t.bit Obj.modeStatus .p 0 0 = false
      ∧ (u.target = .selvedge → t.mode = .selvedge ∧ t.slvState .a = 3 ∧ t.ownsPair .a = true)
      ∧ (u.target ≠ .selvedge → t.mode = .configure))
  ∧ (∀ s u (d : MDie) c, s.trans = some u → s.serverUp = true → u.instant + 2 * nsPerSec ≤ s.time.base →
      (s.stopFrom d).isSome = true → s.up d.pdie = true → c ∈ s.encChannels d → s.encState d c ≠ 0 →
    ∃ t, exec .stopRuleCut s = .next t ∧ t.encState d c = 0 ∧ t.bit Obj.modeSticky .p 0 4 = true)

/-- RECOVERY_ENTRY, server up, no transition under way, takes the oldest waiting fault: in SERVICE the mode becomes RECOVERY
with MODE.RECOVERY.CAUSE the event code, MODE.RECOVERY.DIES the die, MODE.STATUS bit 3, MODE.STICKY bit 1, one more in
MODE.COUNT and MODE.PREVIOUS 4; in RECOVERY the die is added to MODE.RECOVERY.DIES; in SELVEDGE a die neither SOLO nor SPLIT
goes OUT (5) and the mode stays; in TEST event 0x1005 reports the code and the mode stays. RECOVERY_END, with no action,
restart or waiting fault left, clears MODE.STATUS bit 3 and returns to the previous mode; where a request for CONFIGURE is
held, the stop rule begins instead, with MODE.PENDING 3. -/
def Obligations.RecoveryIsEnteredAndLeft : Prop :=
  (∀ s (d : MDie) code rest, s.recov.due = (d, code) :: rest → s.serverUp = true → s.trans = none →
      (s.mode = .service → ∃ t, exec .recoveryEntry s = .next t ∧ t.mode = .recovery ∧ t.recov.due = rest
        ∧ t.rd Obj.modeRecoveryCause .p 0 = (code : Nat) ∧ t.rdN Obj.modeRecoveryDies .p 0 = 2 ^ d.num
        ∧ t.bit Obj.modeStatus .p 0 3 = true ∧ t.bit Obj.modeSticky .p 0 1 = true ∧ t.rd Obj.modePrevious .p 0 = 4
        ∧ t.rdN Obj.modeCount .p 0 = min (s.rdN Obj.modeCount .p 0 + 1) Obj.modeCount.ty.maxVal)
      ∧ (s.mode = .recovery → ∃ t, exec .recoveryEntry s = .next t ∧ t.mode = .recovery ∧ t.recov.due = rest
        ∧ t.rdN Obj.modeRecoveryDies .p 0 = s.rdN Obj.modeRecoveryDies .p 0 ||| 2 ^ d.num)
      ∧ (s.mode = .selvedge → s.slvState d ≠ 3 → s.slvState d ≠ 4 →
        ∃ t, exec .recoveryEntry s = .next t ∧ t.mode = .selvedge ∧ t.slvState d = 5 ∧ t.recov.due = rest)
      ∧ (s.mode = .test → ∃ t, exec .recoveryEntry s = .next t ∧ t.mode = .test ∧ t.recov.due = rest
        ∧ s.reported t .c 0x1005 0 (p16 [code])))
  ∧ (∀ s, s.serverUp = true → s.mode = .recovery → s.trans = none → s.recov.acts = [] → s.recov.restarts = [] → s.recov.due = [] →
      (s.recov.held = false → ∃ t, exec .recoveryEnd s = .next t ∧ t.mode = Mode.ofNum (s.rdN Obj.modePrevious .p 0)
        ∧ t.bit Obj.modeStatus .p 0 3 = false ∧ t.rd Obj.modePrevious .p 0 = 7)
      ∧ (s.recov.held = true → ∃ t, exec .recoveryEnd s = .next t ∧ t.mode = .recovery ∧ t.recov.held = false
        ∧ t.rd Obj.modePending .p 0 = 3 ∧ t.bit Obj.modeStatus .p 0 3 = false
        ∧ t.trans = some { target := .configure, instant := s.time.base + 100000, source := .recovery }))

/-- PORST_RELEASE in RESET samples the straps and starts BOOT, unless a sequence fault hold lasts. BOOT_START in BOOT with a
slot that verifies runs Die C from the slot of R477, shows it in FW.SLOT.ACTIVE, makes a die whose link did not train
absent, and has BOOT ready; with no slot that verifies nothing changes. BOOT_FAILURE records step and cause, counts, holds
C_SYS00_FAULT_N low for 1 s, takes the other slot after three in a row and stops after six. BOOT_END starts the server in
STANDBY, or in CONFIGURE where that is the target, with BOOT.TIME; after a boot of Die C alone the mode stays.
BOOT_TARGET_RETRY of a move that a check holds back keeps retrying with MODE.STATUS bit 4. MEDIA_DIE_RETURN of a die that
was reset alone brings it up, running and reachable, or leaves it absent, and the mode stays; one that runs again in SERVICE
or RECOVERY after a reset of cause 2, 3 or 5 needs RECOVERY. -/
def Obligations.ThePartBootsAndItsDiesReturn : Prop :=
  (∀ s (straps : Fin 8), s.mode = .reset →
    ∃ t, exec (.porstRelease straps) s = .next t ∧ t.rd Obj.bootStraps .p 0 = (straps.val : Nat)
      ∧ t.mode = (if s.seqHold then .reset else .boot))
  ∧ (∀ s r, s.mode = .boot → s.boot.ready = false → s.boot.halted = false → (s.power .c).run ≠ .shutdown → (s.power .c).run ≠ .running →
      ((r.slot0 = true ∨ r.slot1 = true) →
        ∃ t, exec (.bootStart r) s = .next t ∧ t.boot.ready = true ∧ t.up .c = true
          ∧ t.rd Obj.fwSlotActive .p 0 = (s.bootSlot r : Nat)
          ∧ (r.a.link = false → (t.power .a).run = .absent) ∧ (r.b.link = false → (t.power .b).run = .absent))
      ∧ (r.slot0 = false → r.slot1 = false → exec (.bootStart r) s = .next s))
  ∧ (∀ s (step : Fin 8) (cause : Fin 5), s.mode = .boot → s.boot.ready = false → s.boot.halted = false →
    ∃ t, exec (.bootFailure step cause) s = .next t ∧ t.rd Obj.bootFailStep .p 0 = (step.val + 1 : Nat)
      ∧ t.rd Obj.bootFailCause .p 0 = (cause.val + 1 : Nat)
      ∧ t.rdN Obj.bootFailCount .p 0 = min (s.rdN Obj.bootFailCount .p 0 + 1) Obj.bootFailCount.ty.maxVal
      ∧ t.faultLow = true ∧ t.boot.failures = s.boot.failures + 1 ∧ t.boot.halted = decide (6 ≤ s.boot.failures + 1)
      ∧ t.boot.fallback = (if s.boot.slotFailures + 1 = 3 then !s.boot.fallback else s.boot.fallback)
      ∧ mapGet t.mram.objs (Obj.bootFailStep.addr .p 0) = some (step.val + 1 : Nat))
  ∧ (∀ s ms, s.boot.ready = true → s.up .c = true →
      (s.mode = .boot → s.bootTarget = .standby →
        ∃ t, exec (.bootEnd ms) s = .next t ∧ t.mode = .standby ∧ t.serverUp = true
          ∧ t.rd Obj.bootTime .p 0 = ((min ms (2 ^ 32 - 1) : Nat) : Int))
      ∧ (s.mode = .boot → s.bootTarget = .configure → ∃ t, exec (.bootEnd ms) s = .next t ∧ t.mode = .configure ∧ t.serverUp = true)
      ∧ (s.mode ≠ .boot → ∃ t, exec (.bootEnd ms) s = .next t ∧ t.mode = s.mode ∧ t.boot.ready = false
          ∧ t.rd Obj.bootTime .p 0 = ((min ms (2 ^ 32 - 1) : Nat) : Int)))
  ∧ (∀ s r, s.serverUp = true → s.boot.retrying = true → s.moveReason s.bootTarget = some r →
    ∃ t, exec .bootTargetRetry s = .next t ∧ t.boot.retrying = true ∧ t.bit Obj.modeStatus .p 0 4 = true ∧ t.mode = s.mode
      ∧ s.agree t [Obj.modeStatus.addr .p 0])
  ∧ (∀ s (d : MDie) b, s.serverUp = true → (s.power d.pdie).run = .resetAlone → b.link = true →
    ∃ t, exec (.mediaDieReturn d b) s = .next t ∧ t.mode = s.mode
      ∧ ((t.power d.pdie).run = .absent ∨ (t.up d.pdie = true ∧ t.rd Obj.uciState .c d.num = 2
          ∧ ((s.mode = .service ∨ s.mode = .recovery) →
              (s.rdN Obj.rstCause d.die 0 = 2 ∨ s.rdN Obj.rstCause d.die 0 = 3 ∨ s.rdN Obj.rstCause d.die 0 = 5) →
              (d, 0x1120) ∈ t.recov.due))))

/-- EVENT_RECORD_ARRIVAL from a reachable die takes the oldest record of its arbiter, numbers it with EVT.GSEQ.NEXT, appends it
to the RAM log and takes the next number; with none waiting nothing changes. After event 0x1120 of a rail-level reset of a
media die, event 0x1102 follows with the rail and voltage that the die recorded. OVERFLOW_MARKER_EMIT of an arbiter that
lost records and has room appends one marker 0x3F01 with their number and the first lost DSEQ, and no loss is pending.
UCIE_LINK_DOWN of a reachable die shows UCI.STATE 0, raises UCI.DOWN.COUNT, reports 0x1030 and resets master 31.
UCIE_RETRAIN shows UCI.STATE 2 and reports 0x1031. DIE_C_REATTACH of a die that waits for it shows UCI.STATE 2 and takes it
off the list. PERSISTENT_COUNT_FLUSH makes MRAM hold the running value of every listed read-only object flagged P, and
changes nothing else. -/
def Obligations.RecordsReachTheLogAndLinksAreServed : Prop :=
  (∀ s (d : MDie), (s.md d).arb.buf = [] → exec (.eventRecordArrival d) s = .next s)
  ∧ (∀ s (d : MDie) r rest, (s.md d).arb.buf = r :: rest → s.reachable d = true → r.code ≠ 0x3203 →
      (r.code ≠ 0x1120 ∨ (s.power d.pdie).aoDip = none) →
    ∃ t, exec (.eventRecordArrival d) s = .next t ∧ (t.md d).arb.buf = rest
      ∧ t.ramLog.getLast? = some { r with gseq := s.rdN Obj.evtGseqNext .c 0 }
      ∧ t.rdN Obj.evtGseqNext .c 0 = s.rdN Obj.evtGseqNext .c 0 + 1
      ∧ (s.bit Obj.evtCodeFlags .c r.code 0 = true →
          t.mram.log.getLast? = some (s.rdN Obj.volBootCount .p 0, { r with gseq := s.rdN Obj.evtGseqNext .c 0 }))
      ∧ (s.bit Obj.evtCodeFlags .c r.code 0 = false → t.mram = s.mram))
  ∧ (∀ s (d : MDie) r rest (rail mv : Nat), (s.md d).arb.buf = r :: rest → s.reachable d = true → r.code = 0x1120 → r.payload = p16 [2] →
      (s.power d.pdie).aoDip = some (rail, mv) →
    ∃ t, exec (.eventRecordArrival d) s = .next t ∧ (t.md d).arb.buf = rest ∧ s.reported t .c 0x1120 r.inst r.payload
      ∧ s.reported t .c 0x1102 rail (p16 [rail, mv]))
  ∧ (∀ s (d : MDie), s.up d.pdie = true → 0 < (s.md d).arb.lost → (s.md d).arb.buf.length < arbiterMax →
    ∃ t r, exec (.overflowMarkerEmit d) s = .next t ∧ (t.md d).arb.buf = (s.md d).arb.buf ++ [r] ∧ (t.md d).arb.lost = 0
      ∧ r.code = 0x3F01 ∧ r.ovfl = true ∧ r.dseq = s.rdN Obj.evtDseqNext d.die 0
      ∧ r.payload = payloadOf [(32, ((s.md d).arb.lost : Int)), (32, ((s.md d).arb.firstLost : Int))])
  ∧ (∀ s (d : MDie), s.reachable d = true →
    ∃ t, exec (.ucieLinkDown d) s = .next t ∧ t.rd Obj.uciState .c d.num = 0 ∧ t.reachable d = false
      ∧ t.rdN Obj.uciDownCount .c d.num = min (s.rdN Obj.uciDownCount .c d.num + 1) Obj.uciDownCount.ty.maxVal
      ∧ (t.md d).bus.resets.any (fun r => r.1 == 31) = true ∧ s.reported t .c 0x1030 d.num (p16 [d.num]))
  ∧ (∀ s (d : MDie), s.up .c = true → s.up d.pdie = true →
      (s.rdN Obj.uciState .c d.num ≠ 2 → d ∉ s.boot.reattach →
        ∃ t, exec (.ucieRetrain d) s = .next t ∧ t.rd Obj.uciState .c d.num = 2 ∧ s.reported t .c 0x1031 d.num (p16 [d.num]))
      ∧ (d ∈ s.boot.reattach →
        ∃ t, exec (.dieCReattach d) s = .next t ∧ t.rd Obj.uciState .c d.num = 2 ∧ d ∉ t.boot.reattach))
  ∧ (∀ s, s.up .c = true → s.dictWf = true →
    ∃ t, exec .persistentCountFlush s = .next t ∧ t = { s with mram := { s.mram with objs := t.mram.objs } }
      ∧ ∀ a v o, (a, v) ∈ s.objs → objAt a.index a.sub = some o → o.persist = true → o.acc = .ro → mapGet t.mram.objs a = some v)

/-- On a port that follows grandmasters: an Announce of a good grandmaster, the first known, is selected: TIME.STATE goes from
FREERUN to ACQUIRING, PTP.GM.IDENTITY shows it and STATUS bit 0 stands; one whose time lies below 1,000,000 s is counted,
reported once as 0x120B, and not selected; one with unsupported options is only counted. A one-step Sync of the grandmaster
that is followed, and the Follow_Up of a two-step one that waits, show receipt less origin less path delay in TIME.OFFSET
where that lies in its format; a two-step Sync waits. An offset beyond TIME.STEP.THRESHOLD, once a grandmaster was selected,
steps the time base at once, but in SERVICE, SELVEDGE and RECOVERY leads to STEP-PENDING. A Delay_Resp to the Delay_Req that
waits gives the mean path delay. Messages out of the options or of an excluded grandmaster are only counted.
PTP_DELAY_REQ_TRANSMIT, PTP_SYNC_TRANSMIT, PTP_ANNOUNCE_TRANSMIT and PTP_DELAY_REQ_RECEIVED drive their messages with the
next sequence numbers and change no object. SYNC_LOSS_TIMEOUT and ANNOUNCE_RECEIPT_TIMEOUT of the only grandmaster in LOCKED
lead to HOLDOVER, STICKY bit 0 and event 0x1202 with causes 1 and 2. -/
def Obligations.PtpMessagesDriveTheServo : Prop :=
  let counted (s : State) (t : State) : Prop := t.rdN Obj.timeCount .c 0 = min (s.rdN Obj.timeCount .c 0 + 1) Obj.timeCount.ty.maxVal
  (∀ s (p : Fin 8) h a tlv, s.ptpClient = true → s.ptpSlave p = true →
      (h.supported = false → ∃ t, exec (.ptpAnnounceReceived p h a tlv) s = .next t ∧ counted s t ∧ s.onlyObjs t)
      ∧ (h.supported = true → (h.domain : Int) = s.rd Obj.ptpDomain .c 0 → 1000000 ≤ a.secs → s.time.gm = none →
          s.time.candidates = [] → s.servo = 0 →
        ∃ t, exec (.ptpAnnounceReceived p h a tlv) s = .next t ∧ t.time.gm = some a ∧ t.servo = 1
          ∧ t.rd Obj.ptpGmIdentity .c 0 = (a.identity : Nat) ∧ t.bit Obj.timeStatus .c 0 0 = true)
      ∧ (h.supported = true → (h.domain : Int) = s.rd Obj.ptpDomain .c 0 → a.secs < 1000000 → s.time.gm = none →
          a.identity ∉ s.time.lowReported →
        ∃ t, exec (.ptpAnnounceReceived p h a tlv) s = .next t ∧ t.time.gm = none ∧ counted s t ∧ t.servo = s.servo
          ∧ s.reported t .c 0x120B 0 (payloadOf [(64, (a.identity : Int))]) ∧ a.identity ∈ t.time.lowReported))
  ∧ (∀ s (p : Fin 8) h, s.ptpCounted p h = true →
      (∀ rx origin, exec (.ptpSyncReceived p h rx origin) s = .next (s.bump Obj.timeCount .c 0))
      ∧ (∀ origin, exec (.ptpFollowUpReceived p h origin) s = .next (s.bump Obj.timeCount .c 0))
      ∧ (∀ rx, exec (.ptpDelayRespReceived p h rx) s = .next (s.bump Obj.timeCount .c 0)))
  ∧ (∀ s (p : Fin 8) h, s.ptpCounted p h = false → s.ptpFrom p h = true →
      (∀ (rx origin : Nat) off, off = (rx : Int) - origin - s.time.pathDelay → ∃ t, exec (.ptpSyncReceived p h rx (some origin)) s = .next t
        ∧ (-(2 ^ 47) ≤ off ∧ off < 2 ^ 47 → t.rd Obj.timeOffset .c 0 = off * 65536)
        ∧ (1 ≤ s.servo → s.servo ≤ 5 → s.rdN Obj.timeStepThreshold .c 0 < off.natAbs →
            (s.mode.stepsAtOnce = true → t.servo = 1 ∧ t.time.base = max timeFloor ((s.time.base : Int) - off).toNat
              ∧ t.bit Obj.timeSticky .c 0 1 = true)
            ∧ (s.mode.stepsAtOnce = false → t.servo = 5 ∧ t.time.base = s.time.base)))
      ∧ (∀ rx, ∃ t, exec (.ptpSyncReceived p h rx none) s = .next t ∧ t.objs = s.objs
        ∧ tabGet t.time.syncWait p (0, 0) = (h.seq, rx))
      ∧ (∀ (rx origin : Nat) off, off = (rx : Int) - origin - s.time.pathDelay →
          s.time.syncWait.find? (fun e => e.1 == p.val) = some (p.val, h.seq, rx) →
        ∃ t, exec (.ptpFollowUpReceived p h origin) s = .next t ∧ t.time.syncWait = tabDel s.time.syncWait p
          ∧ (-(2 ^ 47) ≤ off ∧ off < 2 ^ 47 → t.rd Obj.timeOffset .c 0 = off * 65536))
      ∧ (∀ (rx tx : Nat) diff, s.time.reqWait.find? (fun e => e.1 == p.val) = some (p.val, h.seq, tx) →
          s.time.syncDiff.find? (fun e => e.1 == p.val) = some (p.val, diff) →
        ∃ t, exec (.ptpDelayRespReceived p h rx) s = .next t ∧ t.objs = s.objs
          ∧ t.time.pathDelay = (diff + ((rx : Int) - tx)) / 2))
  ∧ (∀ s (p : Fin 8), s.ptpClient = true → s.ptpSlave p = true → s.time.gm.isSome = true →
    ∃ t, exec (.ptpDelayReqTransmit p) s = .next t ∧ t.objs = s.objs
      ∧ t.sent = s.sent ++ [.ptpDelayReq p (tabGet s.time.reqSeq p 0)]
      ∧ tabGet t.time.reqWait p (0, 0) = (tabGet s.time.reqSeq p 0, s.time.base)
      ∧ tabGet t.time.reqSeq p 0 = (tabGet s.time.reqSeq p 0 + 1) % 65536)
  ∧ (∀ s (p : Fin 8), s.ptpMaster p = true →
      (∃ t, exec (.ptpSyncTransmit p) s = .next t ∧ t.objs = s.objs
        ∧ t.sent = s.sent ++ [.ptpSync p (tabGet s.time.syncSeq p 0), .ptpFollowUp p (tabGet s.time.syncSeq p 0) s.time.base]
        ∧ tabGet t.time.syncSeq p 0 = (tabGet s.time.syncSeq p 0 + 1) % 65536)
      ∧ (∃ t, exec (.ptpAnnounceTransmit p) s = .next t ∧ t.objs = s.objs
        ∧ t.sent = s.sent ++ [.ptpAnnounce p (tabGet s.time.announceSeq p 0) s.announced.1 s.announced.2.1 s.announced.2.2.1 s.announced.2.2.2])
      ∧ (∀ h rx, h.supported = true → (h.domain : Int) = s.rd Obj.ptpDomain .c 0 →
        exec (.ptpDelayReqReceived p h rx) s = .next { s with sent := s.sent ++ [.ptpDelayResp p h.seq rx] }))
  ∧ (∀ s g, s.time.gm = some g → (∀ c ∈ s.time.candidates, c.identity = g.identity) → s.servo = 2 → s.ptpClient = true →
      (∃ t, exec .syncLossTimeout s = .next t ∧ t.time.gm = none ∧ t.servo = 3 ∧ t.bit Obj.timeStatus .c 0 0 = false
        ∧ t.bit Obj.timeSticky .c 0 0 = true ∧ s.reported t .c 0x1202 0 (p16 [1]))
      ∧ (∃ t, exec .announceReceiptTimeout s = .next t ∧ t.time.gm = none ∧ t.servo = 3 ∧ t.bit Obj.timeStatus .c 0 0 = false
        ∧ t.bit Obj.timeSticky .c 0 0 = true ∧ s.reported t .c 0x1202 0 (p16 [2])))

/-- TIME_STEP_REQUEST answers ACCESS outside STEP-PENDING, and there takes the last offset measured off the time base, never
below 1,000,000 s, with STICKY bit 1 and state ACQUIRING. MEDIA_DIE_STEERING sets a reachable die's counter to Die C's time
plus the slew that remains plus the error; an error above 2 ns with no slew left is reported as 0x120A. F10M_EDGE_TIMEOUT
clears STATUS bits 1 and 3, sets STICKY bit 2 and reports 0x1207 cause 1; F10M_MEASUREMENT accepts a good input and loses
one off frequency with cause 2. PPS_EDGE counts edges one second apart and sets STATUS bit 2 at the third; with another
TIME.SOURCE an edge more than 1 µs off a second sets STICKY bit 4 and reports 0x1209. PPS_LOSS_TIMEOUT clears bit 2, sets
STICKY bit 3 and reports 0x1208. TIME_PPS_SECONDS_SET answers ACCESS with another source, RANGE out of range, else keeps the
value. PPS_OUTPUT_SECOND drives one pulse per second, though a correction carries the time base up to 0.1 ms past it, and
the output is then high; in FREERUN and ACQUIRING it is low. TWILL_SYNC_RECEIVED over the link toward the root clears
TWL.STATUS bit 4 within 1 µs, sets it beyond, and at the eighth in a row sets TWL.STICKY bit 6 and reports 0x330B. -/
def Obligations.TimeStepsSteeringAndReferenceInputs : Prop :=
  (∀ s, s.serverUp = true →
      (s.servo ≠ 5 → exec .timeStepRequest s = .next (s.ans .access))
      ∧ (s.servo = 5 → ∃ t, exec .timeStepRequest s = .next t ∧ t.answer = .ok ∧ t.servo = 1 ∧ t.bit Obj.timeSticky .c 0 1 = true
        ∧ t.time.base = max timeFloor ((s.time.base : Int) - s.time.offset).toNat))
  ∧ (∀ s (d : MDie) err rest, s.reachable d = true → rest = slewTake (s.rdN Obj.timeSlewMax .c 0) (s.md d).time.slew →
    ∃ t, exec (.mediaDieSteering d err) s = .next t ∧ (t.md d).time.slew = rest
      ∧ t.now d.pdie = ((s.time.base : Int) + rest / 80 + err).toNat
      ∧ (2 < err.natAbs → rest = 0 → s.reported t .c 0x120A d.num (p16 [d.num, err]))
      ∧ ((err.natAbs ≤ 2 ∨ rest ≠ 0) → t.ramLog = s.ramLog))
  ∧ (∀ s, s.up .c = true →
      (s.bit Obj.timeStatus .c 0 1 = true → ∃ t, exec .f10mEdgeTimeout s = .next t ∧ t.bit Obj.timeStatus .c 0 1 = false
        ∧ t.bit Obj.timeStatus .c 0 3 = false ∧ t.bit Obj.timeSticky .c 0 2 = true ∧ s.reported t .c 0x1207 0 (p16 [1]))
      ∧ (s.bit Obj.timeStatus .c 0 1 = false → exec .f10mEdgeTimeout s = .next s)
      ∧ (s.bit Obj.timeStatus .c 0 1 = false → ∃ t, exec (.f10mMeasurement true true) s = .next t
        ∧ t.bit Obj.timeStatus .c 0 1 = true ∧ t.bit Obj.timeStatus .c 0 3 = decide (s.rdN Obj.timeSource .c 0 ≠ 0))
      ∧ (s.bit Obj.timeStatus .c 0 1 = true → ∀ complete, ∃ t, exec (.f10mMeasurement false complete) s = .next t
        ∧ t.bit Obj.timeStatus .c 0 1 = false ∧ s.reported t .c 0x1207 0 (p16 [2])))
  ∧ (∀ s t l, s.up .c = true → s.time.ppsLast = some l → l + nsPerSec ≤ t + 1000 → t ≤ l + nsPerSec + 1000 →
    ∃ u, exec (.ppsEdge t) s = .next u ∧ u.time.ppsRun = s.time.ppsRun + 1 ∧ u.time.ppsLast = some t
      ∧ (2 ≤ s.time.ppsRun → u.bit Obj.timeStatus .c 0 2 = true)
      ∧ (s.rdN Obj.timeSource .c 0 ≠ 2 → 1000 < ((t : Int) - nearestSecond t).natAbs →
          u.bit Obj.timeSticky .c 0 4 = true ∧ s.reported u .c 0x1209 0 (payloadOf [(32, (t : Int) - nearestSecond t)])))
  ∧ (∀ s, s.up .c = true → s.bit Obj.timeStatus .c 0 2 = true →
    ∃ t, exec .ppsLossTimeout s = .next t ∧ t.bit Obj.timeStatus .c 0 2 = false ∧ t.bit Obj.timeSticky .c 0 3 = true
      ∧ t.time.ppsRun = 0 ∧ s.reported t .c 0x1208 0 0)
  ∧ (∀ s v, s.serverUp = true →
      (s.rdN Obj.timeSource .c 0 ≠ 2 → exec (.timePpsSecondsSet v) s = .next (s.ans .access))
      ∧ (s.rdN Obj.timeSource .c 0 = 2 → (v < 1000000 ∨ 2 ^ 48 ≤ v) → exec (.timePpsSecondsSet v) s = .next (s.ans .range))
      ∧ (s.rdN Obj.timeSource .c 0 = 2 → 1000000 ≤ v → v < 2 ^ 48 →
        ∃ t, exec (.timePpsSecondsSet v) s = .next t ∧ t.answer = .ok ∧ t.time.ppsSet = some v ∧ t.objs = s.objs))
  ∧ (∀ s, s.up .c = true → 2 ≤ s.servo → s.time.base % nsPerSec ≤ 100000 →
      (s.time.ppsoDriven = false ∨ s.time.base / nsPerSec ≠ s.time.ppsoSecond) →
    ∃ t, exec .ppsOutputSecond s = .next t ∧ t.sent = s.sent ++ [.pps (s.time.base / nsPerSec)] ∧ t.objs = s.objs
      ∧ t.time.ppsoSecond = s.time.base / nsPerSec ∧ t.ppsoHigh = true)
  ∧ (∀ s, s.servo < 2 → s.ppsoHigh = false ∧ exec .ppsOutputSecond s = .next s)
  ∧ (∀ s (d : MDie) (q : Fin 8) src dst hops gen secs ns st h off, s.twlLive d q = true → s.timeFromTwill = false →
      off = (s.time.base : Int) - (secs * nsPerSec + ns + s.rdN Obj.twlLinkDelay d.die q : Nat) →
      (s.rootLink ≠ some (d, q.val) → exec (.twillSyncReceived d q ⟨src, dst, hops, gen, .sync secs ns st h⟩) s = .next s)
      ∧ (s.rootLink = some (d, q.val) →
        ∃ t, exec (.twillSyncReceived d q ⟨src, dst, hops, gen, .sync secs ns st h⟩) s = .next t
          ∧ t.bit Obj.twlStatus .p 0 4 = decide (1000 < off.natAbs)
          ∧ t.twill.offRun = (if off.natAbs ≤ 1000 then 0 else s.twill.offRun + 1)
          ∧ (1000 < off.natAbs → s.twill.offRun = 7 → t.bit Obj.twlSticky .p 0 6 = true
              ∧ s.reported t .c 0x330B 0 (payloadOf [(16, (s.twlId : Int)), (32, off)]))))

/-- Outside SELVEDGE, server up, die reachable: TIME_CUE_ENTRY_WRITE answers LENGTH for other than 32 bytes, ACCESS for an armed
or dispatched entry, RANGE for fields out of range, clears an entry with ACTION 0, and otherwise holds the bytes as LOADED
(1). TIME_CUE_ARM of a LOADED entry whose coordinate is not past makes it ARMED (2); a past one is counted and reported as
0x1210, and is armed with LATE 0, or LATE 2 with a period, and otherwise EXPIRED (5); any other state is answered as no
effect. TIME_CUE_DISARM of an ARMED entry makes it LOADED. TIME_CUE_GROUP_ARM and TIME_CUE_GROUP_DISARM do so for every
entry of the group, and answer OK. CUE_DISPATCH makes the first due entry of the order DISPATCHED (3) where its target takes
it and FAILED (6) where it refuses. -/
def Obligations.CuesAreWrittenArmedAndDispatched : Prop :=
  let open_ (s : State) (d : MDie) : Prop := s.serverUp = true ∧ s.mode ≠ .selvedge ∧ s.reachable d = true
  (∀ s (d : MDie) (k : Fin 1024) b, open_ s d →
      (b.length ≠ 32 → exec (.timeCueEntryWrite d k b) s = .next (s.ans .length))
      ∧ (b.length = 32 → (s.cueState d k = 2 ∨ s.cueState d k = 3) → exec (.timeCueEntryWrite d k b) s = .next (s.ans .access))
      ∧ (b.length = 32 → s.cueState d k ≠ 2 → s.cueState d k ≠ 3 → cueAction b ≠ 0 → cueOk (s.refRaster d) b = false →
          exec (.timeCueEntryWrite d k b) s = .next (s.ans .range))
      ∧ (b.length = 32 → s.cueState d k ≠ 2 → s.cueState d k ≠ 3 → (cueAction b = 0 ∨ cueOk (s.refRaster d) b = true) →
        ∃ t, exec (.timeCueEntryWrite d k b) s = .next t ∧ t.answer = .ok
          ∧ t.cueState d k = (if cueAction b = 0 then 0 else 1)
          ∧ t.cueEntry d k = (if cueAction b = 0 then List.replicate 32 0 else b)
          ∧ s.agree t [Obj.timeCueState.addr d.die k] ∧ s.agreeBytes t [Obj.timeCueEntry.addr d.die k]))
  ∧ (∀ s (d : MDie) (k : Fin 1024), open_ s d →
      (s.cueState d k ≠ 1 → exec (.timeCueArm d k) s = .next (s.ans (.noEffect (s.cueState d k))))
      ∧ (s.cueState d k = 1 → s.passed d (s.cueCoordInstant d (s.cueEntry d k)) = false →
        ∃ t, exec (.timeCueArm d k) s = .next t ∧ t.answer = .ok ∧ t.cueState d k = 2 ∧ s.agree t [Obj.timeCueState.addr d.die k])
      ∧ (s.cueState d k = 1 → s.passed d (s.cueCoordInstant d (s.cueEntry d k)) = true → s.canReport d.pdie →
        ∃ t, exec (.timeCueArm d k) s = .next t ∧ t.answer = .ok
          ∧ t.cueState d k = (if cueLate (s.cueEntry d k) = 0 ∨ (cueLate (s.cueEntry d k) = 2 ∧ cuePeriod (s.cueEntry d k) ≠ 0) then 2 else 5)
          ∧ t.rdN Obj.timeCueLateCount d.die 0 = min (s.rdN Obj.timeCueLateCount d.die 0 + 1) Obj.timeCueLateCount.ty.maxVal
          ∧ s.reported t d.pdie 0x1210 k (p16 [k.val, cueLate (s.cueEntry d k)]))
      ∧ (s.cueState d k ≠ 2 → exec (.timeCueDisarm d k) s = .next (s.ans (.noEffect (s.cueState d k))))
      ∧ (s.cueState d k = 2 →
        ∃ t, exec (.timeCueDisarm d k) s = .next t ∧ t.answer = .ok ∧ t.cueState d k = 1 ∧ s.agree t [Obj.timeCueState.addr d.die k]))
  ∧ (∀ s (d : MDie) (g : Fin 256), open_ s d →
      (∃ t, exec (.timeCueGroupArm d g) s = .next t ∧ t.answer = .ok
        ∧ ∀ k ∈ s.cueGroupIn d g 1, s.passed d (s.cueCoordInstant d (s.cueEntry d k)) = false → t.cueState d k = 2)
      ∧ (∃ t, exec (.timeCueGroupDisarm d g) s = .next t ∧ t.answer = .ok ∧ ∀ k ∈ s.cueGroupIn d g 2, t.cueState d k = 1))
  ∧ (∀ s (d : MDie) k, s.up d.pdie = true →
      s.cueMin d ((s.cuesIn d 2).filter (fun k =>
        decide (1 ≤ cueAction (s.cueEntry d k)) && decide (cueAction (s.cueEntry d k) ≤ 8)
          && (s.cueInstant d k).le (.ofNs (s.now d.pdie + dispatchAhead)) && !s.cueBusy d k)) = some k →
    ∃ t, exec (.cueDispatch d) s = .next t
      ∧ ((s.cueAct d (s.cueEntry d k) (s.cueInstant d k)).2 = 0 → t.cueState d k = 3
          ∧ s.agree t [Obj.timeCueState.addr d.die k] ∧ s.onlyObjs t)
      ∧ ((s.cueAct d (s.cueEntry d k) (s.cueInstant d k)).2 ≠ 0 → t.cueState d k = 6))

/-- Each of the eight actions that a target carries out, of a dispatched entry with that ACTION whose turn has come and that
does not repeat, makes the entry DONE (4) where the target acts and FAILED (6) where it refuses; an entry that is not
dispatched, or of another ACTION, changes nothing. Where the target takes it, a cued commit of gate lists leaves the shadow
lists pending from the cue's instant, a cued audio start starts the waiting ports of its group, a cued flow or channel start
or stop leaves its target starting (1) or stopping (3), and a cued format apply leaves the output's pending raster to come.
CUE_KEY_PICTURE on a running channel with no request waiting leaves the request at the cue's instant. CUE_MARKER of an armed
entry makes it DONE and reports 0x1212 with its argument. CUE_ARM_GROUP makes it DONE and arms every LOADED entry of its
group that follows it, at its own coordinate too; CUE_DISARM_GROUP makes the ARMED ones LOADED. -/
def Obligations.CuesExecuteInTurn : Prop :=
  let acts : List (Nat × (MDie → Fin 1024 → Instr)) := [(1, .cueCommit), (2, .cueKeyPicture), (3, .cueAudioStart), (4, .cueFlowStart),
    (5, .cueFlowStop), (6, .cueChannelStart), (7, .cueChannelStop), (8, .cueFormatApply)]
  let acts_ (s : State) (d : MDie) (k : Fin 1024) (a : Nat) : Prop := s.cueState d k = 3 ∧ cueAction (s.cueEntry d k) = a
    ∧ s.cueTurn d k = true ∧ (cuePeriod (s.cueEntry d k) = 0 ∨ cueRepeat (s.cueEntry d k) = 0)
    ∧ (s.cueAct d (s.cueEntry d k) (s.cueInstant d k)).2 = 0
  (∀ s (d : MDie) (k : Fin 1024), ∀ x ∈ acts,
      ((s.cueState d k ≠ 3 ∨ cueAction (s.cueEntry d k) ≠ x.1) → exec (x.2 d k) s = .next s)
      ∧ (s.cueState d k = 3 → cueAction (s.cueEntry d k) = x.1 → s.cueTurn d k = true →
          (cuePeriod (s.cueEntry d k) = 0 ∨ cueRepeat (s.cueEntry d k) = 0) →
        ∃ t, exec (x.2 d k) s = .next t
          ∧ t.cueState d k = (if (s.cueAct d (s.cueEntry d k) (s.cueInstant d k)).2 = 0 then 4 else 6)))
  ∧ (∀ s (d : MDie) (k : Fin 1024) n, n = cueInst (s.cueEntry d k) →
      (acts_ s d k 1 → ∃ t, exec (.cueCommit d k) s = .next t ∧ t.cueState d k = 4
        ∧ (cueIndex (s.cueEntry d k) = 0x1510 →
          (t.port d n).pending = some (s.gateShadow d n, gateStart (s.refRaster d) (s.gateShadow d n) (s.cueInstant d k).ceilNs)))
      ∧ (acts_ s d k 3 → ∃ t, exec (.cueAudioStart d k) s = .next t ∧ t.cueState d k = 4
        ∧ ∀ p ∈ s.audWaiting d (cueArg (s.cueEntry d k) % 256), (t.audPort d p).armed = none
            ∧ (t.audPort d p).n0 = some (audIndexFrom (s.portHz d p) (s.cueInstant d k).ceilNs))
      ∧ (acts_ s d k 4 → ∃ t, exec (.cueFlowStart d k) s = .next t ∧ t.cueState d k = 4
        ∧ (s.outState d n ≠ 2 → t.outState d n = 1 ∧ (t.flowOut d n).pend = some (true, s.controlInstant d n (s.cueInstant d k))))
      ∧ (acts_ s d k 5 → ∃ t, exec (.cueFlowStop d k) s = .next t ∧ t.cueState d k = 4
        ∧ (s.outState d n ≠ 0 → t.outState d n = 3 ∧ (t.flowOut d n).pend = some (false, s.controlInstant d n (s.cueInstant d k))))
      ∧ (acts_ s d k 6 → ∃ t, exec (.cueChannelStart d k) s = .next t ∧ t.cueState d k = 4
        ∧ (s.encState d n ≠ 2 → t.encState d n = 1 ∧ (t.enc d n).control.map Prod.fst = some true))
      ∧ (acts_ s d k 7 → ∃ t, exec (.cueChannelStop d k) s = .next t ∧ t.cueState d k = 4
        ∧ (s.encState d n ≠ 0 → t.encState d n = 3 ∧ (t.enc d n).control.map Prod.fst = some false))
      ∧ (∀ a, acts_ s d k 8 →
          a = Attr.ofWord
            (if s.rdN Obj.scnOutFormatPending d.die n = 0 then s.rdN Obj.scnOutFormat d.die n else s.rdN Obj.scnOutFormatPending d.die n)
            (s.rdN Obj.scnOutOfsPending d.die n)
            (if s.rdN Obj.scnOutAttrPending d.die n = 0xFFFF then s.rdN Obj.scnOutAttr d.die n else s.rdN Obj.scnOutAttrPending d.die n) →
        ∃ t, exec (.cueFormatApply d k) s = .next t ∧ t.cueState d k = 4
          ∧ (s.outAttr d n ≠ a ∨ (s.outp d n).next.isSome = true →
              (t.outp d n).next.map (fun r => (r.format, r.ofs)) = some (a.format, a.ofs))))
  ∧ (∀ s (d : MDie) (k : Fin 1024) c, s.cueState d k = 3 → cueAction (s.cueEntry d k) = 2 → s.cueTurn d k = true →
      cueIndex (s.cueEntry d k) = 0x2202 → cueInst (s.cueEntry d k) = c → c < 48 → s.secOn d secEnt = true → s.encState d c = 2 →
      (s.enc d c).cause.request = none →
    ∃ t, exec (.cueKeyPicture d k) s = .next t ∧ (t.enc d c).cause.request = some (s.cueInstant d k).ceilNs
      ∧ t.bit Obj.rcChStatus d.die c 2 = true)
  ∧ (∀ s (d : MDie) (k : Fin 1024), s.cueState d k = 2 → s.cueTurn d k = true →
      (cuePeriod (s.cueEntry d k) = 0 ∨ cueRepeat (s.cueEntry d k) = 0) →
      (cueAction (s.cueEntry d k) = 9 → s.canReport d.pdie →
        ∃ t, exec (.cueMarker d k) s = .next t ∧ t.cueState d k = 4
          ∧ s.reported t d.pdie 0x1212 k (payloadOf [(16, (k.val : Int)), (64, (cueArg (s.cueEntry d k) : Int))]))
      ∧ (cueAction (s.cueEntry d k) = 0x0A →
        ∃ t, exec (.cueArmGroup d k) s = .next t ∧ t.cueState d k = 4
          ∧ ∀ j ∈ s.cueFollowers d k 1, (s.cueInstant d k).le (s.cueCoordInstant d (s.cueEntry d j)) = true → t.cueState d j = 2)
      ∧ (cueAction (s.cueEntry d k) = 0x0B →
        ∃ t, exec (.cueDisarmGroup d k) s = .next t ∧ t.cueState d k = 4 ∧ ∀ j ∈ s.cueFollowers d k 2, t.cueState d j = 1))

/-- Server up. A write of LCS.ADVANCE with another serial number is answered RANGE and changes nothing else. With the package's
serial: BLANK goes to PROVISIONED in STANDBY or CONFIGURE where a slot holds an admin key, no slot-0xFF session remains, and
PROVISIONED to DEPLOYED in STANDBY or CONFIGURE; each sets LCS.STATE and its copy in MRAM, ends a token and reports 0x1020.
From PROVISIONED or DEPLOYED in any mode RETURN begins: answer OK, no session left, both media dies that ran held in reset,
debug closed, the erasure recorded. Every other transition, any while that erasure runs, and one whose precondition fails,
is answered ACCESS, sets LCS.STICKY bit 1, reports 0x1024 with the target, and LCS.STATE stays. Server up. A token of
another length than 100 bytes is answered LENGTH. One in its layout is checked in order: signature, challenge, serial,
expiry, state; the first failure n answers rejected under 0x1022, sets LCS.STICKY bit 0, reports 0x1022 with n and leaves
the scopes as they were; a token that passes is accepted: answer OK, its scope opens, 0x1021 is reported. Both draw a new
challenge of 16 bytes. DEBUG_TOKEN_EXPIRY, Die C running, once the time base has passed the expiry and TIME.STATE is not
FREERUN, ends the token: in PROVISIONED no scope is open. JTAG_TAP_ACCESS answers IDCODE with the part's code and BYPASS
with its input whether debug is open or not; a debug instruction has no effect while debug is closed. -/
def Obligations.LifecycleMovesForwardAndDebugFollowsIt : Prop :=
  (
    let asks : List (Nat × (Nat → Instr)) := [(1, .lcsAdvanceProvisioned), (2, .lcsAdvanceDeployed), (3, .lcsAdvanceReturn)]
    let allowed (s : State) (target : Nat) : Prop :=
      s.sec.erasing = false ∧ ((s.lifecycle = 0 ∧ target = 1 ∧ s.atRest = true ∧ s.hasAdmin = true)
        ∨ (s.lifecycle = 1 ∧ target = 2 ∧ s.atRest = true) ∨ ((s.lifecycle = 1 ∨ s.lifecycle = 2) ∧ target = 3))
    (∀ s serial, s.serverUp = true → serial ≠ s.rdN Obj.idSerial .p 0 → ∀ x ∈ asks, exec (x.2 serial) s = .next (s.ans .range))
    ∧ (∀ s serial, s.serverUp = true → serial = s.rdN Obj.idSerial .p 0 →
        (∀ x ∈ asks, ¬ allowed s x.1 →
          ∃ t, exec (x.2 serial) s = .next t ∧ t.answer = .access ∧ t.bit Obj.lcsSticky .p 0 1 = true
            ∧ s.reported t .c 0x1024 0 (p16 [x.1]) ∧ t.lifecycle = s.lifecycle ∧ t.mode = s.mode
            ∧ s.agree t (Obj.lcsSticky.addr .p 0 :: eventAddrs .c))
        ∧ (allowed s 1 → ∃ t, exec (.lcsAdvanceProvisioned serial) s = .next t ∧ t.answer = .ok ∧ t.lifecycle = 1
            ∧ mapGet t.mram.objs (Obj.lcsState.addr .p 0) = some 1 ∧ t.sec.token = none ∧ s.reported t .c 0x1020 0 (p16 [1])
            ∧ (∀ x ∈ t.vol.sessions, x.slot ≠ 0xFF) ∧ t.debugOpen 0 = false)
        ∧ (allowed s 2 → ∃ t, exec (.lcsAdvanceDeployed serial) s = .next t ∧ t.answer = .ok ∧ t.lifecycle = 2
            ∧ mapGet t.mram.objs (Obj.lcsState.addr .p 0) = some 2 ∧ t.sec.token = none ∧ s.reported t .c 0x1020 0 (p16 [2])
            ∧ t.vol.sessions = s.vol.sessions ∧ t.debugOpen 0 = false ∧ t.debugOpen 1 = false)
        ∧ (allowed s 3 → ∃ t, exec (.lcsAdvanceReturn serial) s = .next t ∧ t.answer = .ok ∧ t.vol.sessions = []
            ∧ t.sec.erasing = true ∧ t.sec.token = none ∧ t.debugOpen 0 = false
            ∧ (∀ d : MDie, s.up d.pdie = true → t.up d.pdie = false))))
  ∧ (
    (∀ s b, s.serverUp = true → b.length ≠ 100 → exec (.lcsDebugToken b) s = .next (s.ans .length))
    ∧ (∀ s b, s.serverUp = true → b.length = 100 → tokenShaped b = true →
        (∀ n, s.tokenReason b = some n →
          ∃ t, exec (.lcsDebugToken b) s = .next t ∧ t.answer = .rejected 0x1022 ∧ t.bit Obj.lcsSticky .p 0 0 = true
            ∧ s.reported t .c 0x1022 0 (p16 [n]) ∧ t.sec = s.sec ∧ t.lifecycle = s.lifecycle
            ∧ (t.rdBytes Obj.lcsDebugChallenge .p 0).length = 16
            ∧ s.agreeBytes t [Obj.lcsDebugChallenge.addr .p 0])
        ∧ (s.tokenReason b = none →
          ∃ t, exec (.lcsDebugToken b) s = .next t ∧ t.answer = .ok ∧ s.reported t .c 0x1021 0 (p16 [fieldAt b 34 1])
            ∧ t.sec.token = some (fieldAt b 34 1, fieldAt b 28 6) ∧ t.debugOpen 0 = (fieldAt b 34 1).testBit 0
            ∧ t.debugOpen 1 = (fieldAt b 34 1).testBit 1
            ∧ t.rdN Obj.lcsCount .p 0 = min (s.rdN Obj.lcsCount .p 0 + 1) Obj.lcsCount.ty.maxVal
            ∧ (t.rdBytes Obj.lcsDebugChallenge .p 0).length = 16
            ∧ s.agreeBytes t [Obj.lcsDebugChallenge.addr .p 0]))
    ∧ (∀ s scope expiry, s.sec.token = some (scope, expiry) → s.up .c = true → s.rdN Obj.timeState .c 0 ≠ 0 →
        (expiry * nsPerSec < s.time.base →
          ∃ t, exec .debugTokenExpiry s = .next t ∧ t.sec.token = none ∧ t.lifecycle = s.lifecycle
            ∧ (s.lifecycle = 1 → t.debugOpen 0 = false ∧ t.debugOpen 1 = false) ∧ s.agree t [Obj.lcsStatus.addr .p 0]
            ∧ t.blobs = s.blobs ∧ t.ramLog = s.ramLog)
        ∧ (s.time.base ≤ expiry * nsPerSec → exec .debugTokenExpiry s = .next s))
    ∧ (∀ s, exec (.jtagTapAccess .idcode) s = .next { s with sent := s.sent ++ [.tapIdcode (Config.idcode % 2 ^ 32)] }
        ∧ exec (.jtagTapAccess .bypass) s = .next { s with sent := s.sent ++ [.tapBypass] }
        ∧ (s.debugOpen 0 = false → exec (.jtagTapAccess .debug) s = .next s)))

/-- Server up. FW.IMAGE.DATA longer than 65,536 bytes is answered LENGTH and changes nothing else. Data that ends by 2^32 is
stored from FW.IMAGE.OFFSET on, the offset advances by its length, the answer is OK, and every byte of the image outside it
stays. FW.IMAGE.COMMIT refuses an image with a bad signature (reason 1), a major version below the running one's (2) or a
wrong length (3): rejected under 0x1041 with its event, both slots' versions and the boot choice unchanged; an accepted
image makes the inactive slot the next boot choice, shows its version and reports 0x1040 with slot and version. -/
def Obligations.FirmwareImagesAreWrittenAndCommitted : Prop :=
  (∀ s data, s.serverUp = true → 65536 < data.length → exec (.fwImageDataWrite data) s = .next (s.ans .length))
  ∧ (∀ s data, s.serverUp = true → data.length ≤ 65536 → s.rdN Obj.fwImageOffset .p 0 + data.length ≤ 2 ^ 32 →
    ∃ t, exec (.fwImageDataWrite data) s = .next t ∧ t.answer = .ok
      ∧ t.rd Obj.fwImageOffset .p 0 = ((s.rdN Obj.fwImageOffset .p 0 + data.length : Nat) : Int)
      ∧ (∀ k, k < data.length → t.sec.image.get (s.rdN Obj.fwImageOffset .p 0 + k) = data.getD k 0)
      ∧ (∀ a, (a < s.rdN Obj.fwImageOffset .p 0 ∨ s.rdN Obj.fwImageOffset .p 0 + data.length ≤ a) →
          t.sec.image.get a = s.sec.image.get a)
      ∧ s.agree t [Obj.fwImageOffset.addr .p 0] ∧ t.blobs = s.blobs ∧ t.mram = s.mram ∧ t.ramLog = s.ramLog)
  ∧ (∀ s, s.serverUp = true → ∃ t, exec .fwImageCommit s = .next t
      ∧ (match s.fwReason with
        | some r => t.answer = .rejected 0x1041 ∧ s.reported t .c 0x1041 0 (p16 [r]) ∧ t.sec = s.sec ∧ s.agree t (eventAddrs .c)
        | none => t.answer = .ok
          ∧ t.sec.chosen = 1 - s.rdN Obj.fwSlotActive .p 0
          ∧ t.rd Obj.fwSlotVersion .p (1 - s.rdN Obj.fwSlotActive .p 0) = ((Config.fwVersion s.sec.image.cells % 2 ^ 32 : Nat) : Int)
          ∧ s.reported t .c 0x1040 0
              (payloadOf [(16, ((1 - s.rdN Obj.fwSlotActive .p 0 : Nat) : Int)), (32, ((Config.fwVersion s.sec.image.cells % 2 ^ 32 : Nat) : Int))])
          ∧ s.agree t (Obj.fwSlotVersion.addr .p (1 - s.rdN Obj.fwSlotActive .p 0) :: eventAddrs .c)))

/-- Server up. An access to DIAG.WIN.DATA of a die that Die C does not reach is answered UNREACHABLE, outside TEST or outside
BLANK and RETURN it is answered ACCESS, and a write whose length is not DIAG.WIN.LEN is answered LENGTH; nothing else
changes. Permitted, an access whose address meets no decode fault and lies in DRAM is answered OK: a write stores its bytes
at DIAG.WIN.ADDR and leaves every other byte of the DRAM. An access that decodes to no target is answered rejected under
0x3F03, counts in DIAG.COUNT, and reports 0x3F03 with the address. The section a register lies in is the model's free value
(assumption 4), and so is what registers other than semaphores read as. -/
def Obligations.DiagnosticWindowsReachTheBus : Prop :=
  let refused (s : State) (d : MDie) (i : Instr) : Prop :=
    (s.reachable d = false → exec i s = .next (s.ans (.unreachable d.num)))
    ∧ (s.reachable d = true → s.diagAllowed = false → exec i s = .next (s.ans .access))
  let op (s : State) (d : MDie) (write : Bool) (len : Nat) (data : List Byte) : BusOp :=
    ⟨0, write, s.rdN Obj.diagWinAddr d.die 0, len, data, [], .other, (s.free 5).1, 0⟩
  (∀ s (d : MDie) data, s.serverUp = true → refused s d (.diagWinRead d) ∧ refused s d (.diagWinWrite d data))
  ∧ (∀ s (d : MDie) data, s.serverUp = true → s.reachable d = true → s.diagAllowed = true →
      (data.length ≠ s.rdN Obj.diagWinLen d.die 0 → exec (.diagWinWrite d data) s = .next (s.ans .length))
      ∧ (data.length = s.rdN Obj.diagWinLen d.die 0 → (s.free 5).2.decodes d 31 (op s d true data.length data) = some 0 →
          data ≠ [] →
        ∃ t, exec (.diagWinWrite d data) s = .next t ∧ t.answer = .ok
          ∧ (∀ k, k < data.length → (t.md d).ram.mem.get (s.rdN Obj.diagWinAddr d.die 0 + k) = data.getD k 0)
          ∧ (∀ a, (a < s.rdN Obj.diagWinAddr d.die 0 ∨ s.rdN Obj.diagWinAddr d.die 0 + data.length ≤ a) →
              (t.md d).ram.mem.get a = (s.md d).ram.mem.get a))
      ∧ ((s.free 5).2.decodes d 31 (op s d false (s.rdN Obj.diagWinLen d.die 0) []) = some 0 →
        ∃ t, exec (.diagWinRead d) s = .next t ∧ t.answer = .ok ∧ (t.md d).ram.mem = (s.md d).ram.mem)
      ∧ ((s.md d).arb.buf.length + 2 ≤ arbiterMax → (s.md d).arb.lost = 0 →
          (s.free 5).2.decodes d 31 (op s d false (s.rdN Obj.diagWinLen d.die 0) []) = none →
        ∃ t, exec (.diagWinRead d) s = .next t ∧ t.answer = .rejected 0x3F03
          ∧ s.reported t d.pdie 0x3F03 0 (payloadOf [(40, (s.rdN Obj.diagWinAddr d.die 0 : Int))])
          ∧ t.rdN Obj.diagCount d.die 0 = min (s.rdN Obj.diagCount d.die 0 + 1) Obj.diagCount.ty.maxVal
          ∧ (t.md d).ram.mem = (s.md d).ram.mem))

/-- Server up, no Loom commit of the package due (it goes first, R152), the item's die reached. An item that names no object of
its die is answered NO OBJECT, one past the last instance RANGE, one that may not be written ACCESS, one whose value has
another length LENGTH, one outside its range RANGE; the first of these in this order decides, and nothing but the answer
changes. An item at a die that Die C does not reach is answered UNREACHABLE. A good write of VOL.IMAGE.OFFSET,
VOL.SESSION.TIMEOUT or EVT.CODE.FLAGS is answered OK, the object holds the value, every other object stays, and MRAM holds
it too where the object is flagged P. A write to VOL.STICKY clears the bits written as 1 and leaves the others.
ENT.CH.SEI.USER of a media die, outside SELVEDGE, takes its bytes. -/
def Obligations.RegisterWritesAreCheckedInOrderAndStored : Prop :=
  let nodue (s : State) : Prop := s.twill.due.filter (fun c => c.2.2.le (.ofNs s.time.base)) = []
  let item (o : ObjDef) (d : Die) (i : Nat) (b : List Byte) : VolItem := ⟨d.num, o.index, o.sub, i, 0, b⟩
  (∀ s it m, s.serverUp = true → nodue s → s.beyond it true = some m → exec (.registerWrite it) s = .next (s.ans (.unreachable m.num)))
  ∧ (∀ s it, s.serverUp = true → nodue s → s.beyond it true = none →
      (dieOfByte it.die = none ∨ objAt it.index it.sub = none → exec (.registerWrite it) s = .next (s.ans .noObject))
      ∧ (∀ d o, dieOfByte it.die = some d → objAt it.index it.sub = some o →
          (o.dies.has d = false → exec (.registerWrite it) s = .next (s.ans .noObject))
          ∧ (o.dies.has d = true → o.instances d ≤ it.inst → exec (.registerWrite it) s = .next (s.ans .range))
          ∧ (o.dies.has d = true → it.inst < o.instances d →
              (s.mayWrite roleAdmin o d it.inst = false → exec (.registerWrite it) s = .next (s.ans .access))
              ∧ (s.mayWrite roleAdmin o d it.inst = true →
                  (o.ty.takes it.value.length = false → exec (.registerWrite it) s = .next (s.ans .length))
                  ∧ (o.ty.takes it.value.length = true → o.valueOk it.inst (o.ty.decode it.value) = false →
                      exec (.registerWrite it) s = .next (s.ans .range))))))
  ∧ (∀ s, s.serverUp = true → nodue s →
      (∀ v, v ≤ 4194303 → ∃ t, exec (.registerWrite (item Obj.volImageOffset .p 0 (natBe 4 v))) s = .next t ∧ t.answer = .ok
        ∧ t.rd Obj.volImageOffset .p 0 = (v : Nat) ∧ s.agree t [Obj.volImageOffset.addr .p 0] ∧ s.onlyObjs { t with answer := s.answer })
      ∧ (∀ v, 2 ≤ v → v ≤ 3600 →
        ∃ t, exec (.registerWrite (item Obj.volSessionTimeout .p 0 (natBe 2 v))) s = .next t ∧ t.answer = .ok
          ∧ t.rd Obj.volSessionTimeout .p 0 = (v : Nat) ∧ s.agree t [Obj.volSessionTimeout.addr .p 0]
          ∧ mapGet t.mram.objs (Obj.volSessionTimeout.addr .p 0) = some (v : Nat) ∧ t.mram.log = s.mram.log ∧ t.blobs = s.blobs)
      ∧ (∀ code v, code < 65536 → v < 4 →
        ∃ t, exec (.registerWrite (item Obj.evtCodeFlags .c code (natBe 1 v))) s = .next t ∧ t.answer = .ok
          ∧ t.rd Obj.evtCodeFlags .c code = (v : Nat) ∧ s.agree t [Obj.evtCodeFlags.addr .c code]
          ∧ mapGet t.mram.objs (Obj.evtCodeFlags.addr .c code) = some (v : Nat))
      ∧ (∀ v, v < 32 → ∃ t, exec (.registerWrite (item Obj.volSticky .p 0 (natBe 1 v))) s = .next t ∧ t.answer = .ok
        ∧ (∀ n, t.bit Obj.volSticky .p 0 n = (s.bit Obj.volSticky .p 0 n && !v.testBit n)) ∧ s.agree t [Obj.volSticky.addr .p 0])
      ∧ (∀ (d : MDie) c b, s.reachable d = true → s.mode ≠ .selvedge → c < 48 → 16 ≤ b.length → b.length ≤ 160 →
        ∃ t, exec (.registerWrite (item Obj.entChSeiUser d.die c b)) s = .next t ∧ t.answer = .ok
          ∧ t.rdBytes Obj.entChSeiUser d.die c = b ∧ s.agreeBytes t [Obj.entChSeiUser.addr d.die c] ∧ t.objs = s.objs))

/-- VOL.IMAGE.DATA, server up: at most 65,536 bytes that end within 4 MiB go to the staging area at VOL.IMAGE.OFFSET, which
advances by their length, with VOL.STATUS bit 1; longer data is answered LENGTH, data past the end RANGE, and neither
changes anything else. A WRITE of a session, no Loom commit due, whose second item fails its checks leaves both objects as
they were and is answered with that item. VOL.IMAGE.APPLY outside CONFIGURE is answered ACCESS. In CONFIGURE, a staged image
with a bad header, length or CRC is answered LENGTH, sets VOL.STICKY bit 4 and reports 0x1015 with status 4 and item 0; a
good image of one item that sets VOL.SESSION.TIMEOUT within its range is answered OK, the object holds the value, VOL.STATUS
bit 1 is clear, and 0x1015 reports status 0. -/
def Obligations.RequestsAreAllOrNothingAndImagesAreOneRequest : Prop :=
  let item (v : Nat) : VolItem := ⟨Die.p.num, Obj.volSessionTimeout.index, Obj.volSessionTimeout.sub, 0, 2, natBe 2 v⟩
  (∀ s data, s.serverUp = true →
      (65536 < data.length → exec (.volImageDataWrite data) s = .next (s.ans .length))
      ∧ (data.length ≤ 65536 → 4194304 < s.rdN Obj.volImageOffset .p 0 + data.length →
          exec (.volImageDataWrite data) s = .next (s.ans .range))
      ∧ (data.length ≤ 65536 → s.rdN Obj.volImageOffset .p 0 + data.length ≤ 4194304 →
        ∃ t, exec (.volImageDataWrite data) s = .next t ∧ t.answer = .ok
          ∧ t.rd Obj.volImageOffset .p 0 = ((s.rdN Obj.volImageOffset .p 0 + data.length : Nat) : Int)
          ∧ (∀ k, k < data.length → t.vol.staging.get (s.rdN Obj.volImageOffset .p 0 + k) = data.getD k 0)
          ∧ (∀ a, (a < s.rdN Obj.volImageOffset .p 0 ∨ s.rdN Obj.volImageOffset .p 0 + data.length ≤ a) →
              t.vol.staging.get a = s.vol.staging.get a)
          ∧ t.bit Obj.volStatus .p 0 1 = true ∧ s.agree t [Obj.volImageOffset.addr .p 0, Obj.volStatus.addr .p 0]
          ∧ t.blobs = s.blobs ∧ t.mram = s.mram))
  ∧ (∀ s x h v bad, s.asksNew x h (.volWrite h [item v, bad]) → x.role = roleAdmin → 2 ≤ v → v ≤ 3600 → findItem bad 1 = .error .noObject →
      s.twill.due.filter (fun c => c.2.2.le (.ofNs s.time.base)) = [] → 
    ∃ t, exec (.volWrite h [item v, bad]) s = .next t ∧ t.responds h (fun y => y.op = 0x11 ∧ y.status = .noObject ∧ y.item = 1)
      ∧ t.objs = s.objs ∧ t.blobs = s.blobs ∧ t.mram = s.mram)
  ∧ (∀ s, s.serverUp = true → s.mode ≠ .configure → exec .volImageApply s = .next (s.ans .access))
  ∧ (∀ s, s.serverUp = true → s.mode = .configure →
      (s.stagedItems = none → ∃ t, exec .volImageApply s = .next t ∧ t.answer = .length ∧ t.bit Obj.volSticky .p 0 4 = true
        ∧ s.reported t .c 0x1015 0 (p16 [4, 0]) ∧ s.agree t (Obj.volSticky.addr .p 0 :: eventAddrs .c))
      ∧ (∀ v, s.stagedItems = some [item v] → 2 ≤ v → v ≤ 3600 →
        ∃ t, exec .volImageApply s = .next t ∧ t.answer = .ok ∧ t.rd Obj.volSessionTimeout .p 0 = (v : Nat)
          ∧ t.bit Obj.volStatus .p 0 1 = false ∧ s.reported t .c 0x1015 0 (p16 [0, 0])
          ∧ s.agree t (Obj.volSessionTimeout.addr .p 0 :: Obj.volStatus.addr .p 0 :: eventAddrs .c)))

/-- On a port that serves: an OPEN with 16 sessions is answered BUSY, one of an empty slot ACCESS, without a session and without
a tag, and no session changes. Otherwise one session more exists: its number is not 0 and was not in use, it has the slot
and its role, has executed no SEQ, is not established, and holds the keys of HKDF-SHA-256 over the slot's key, salted with
the client's nonce and a device nonce of 16 bytes, which the answer carries with number and role; slot 0xFF, in BLANK and
RETURN, gives an admin session with no key, whose answer has no tag. CLOSE ends the session with event 0x1011 cause 1. A
session not established 2 s after OPEN ends with cause 3 and VOL.STICKY stays; one not heard for VOL.SESSION.TIMEOUT seconds
ends with cause 2 and VOL.STICKY bit 1. -/
def Obligations.SessionsOpenUnderAKeyAndEnd : Prop :=
  let ended (s t : State) (n cause : Nat) : Prop :=
    t.vol.sessions = s.vol.sessions.filter (fun x => x.num != n) ∧ s.reported t .c 0x1011 0 (payloadOf [(32, (n : Int)), (16, (cause : Int))])
  (∀ s h slot nonce, s.portServes h = true →
      (16 ≤ s.vol.sessions.length →
        ∃ t, exec (.volOpen h slot nonce) s = .next t ∧ t.vol.sessions = s.vol.sessions
          ∧ t.responds h (fun y => y.op = 1 ∧ y.status = .busy ∧ y.auth = false ∧ y.session = 0 ∧ y.tag = []))
      ∧ (s.vol.sessions.length < 16 → s.slotRole slot = none →
        ∃ t, exec (.volOpen h slot nonce) s = .next t ∧ t.vol.sessions = s.vol.sessions ∧ t.objs = s.objs
          ∧ t.responds h (fun y => y.op = 1 ∧ y.status = .access ∧ y.auth = false ∧ y.session = 0 ∧ y.tag = []))
      ∧ (∀ role, s.vol.sessions.length < 16 → s.slotRole slot = some role →
        ∃ t x device, exec (.volOpen h slot nonce) s = .next t ∧ t.vol.sessions = s.vol.sessions ++ [x]
          ∧ x.num ≠ 0 ∧ s.session? x.num = none ∧ x.slot = slot ∧ x.role = role ∧ x.high = 0 ∧ x.established = false
          ∧ x.last = s.time.base ∧ x.transfer = none ∧ x.subscribed = false ∧ device.length = 16
          ∧ (slot ≠ 0xFF → x.keyIn = hkdf256 ((s.rdBytes Obj.volKey .p slot).drop 1) (nonce ++ device) [0x56, 0x4F, 0x4C, 0x20, 0x63, 0x32, 0x64]
              ∧ x.keyOut = hkdf256 ((s.rdBytes Obj.volKey .p slot).drop 1) (nonce ++ device) [0x56, 0x4F, 0x4C, 0x20, 0x64, 0x32, 0x63])
          ∧ t.rd Obj.volSessions .p 0 = ((s.vol.sessions.length + 1 : Nat) : Int)
          ∧ t.responds h (fun y => y.op = 1 ∧ y.status = .ok ∧ y.session = x.num ∧ y.auth = (slot != 0xFF)
              ∧ y.payload = natBe 4 x.num ++ device ++ natBe 1 role ++ natBe 3 0)))
  ∧ (∀ (s : State), s.openState = true → s.slotRole 0xFF = some roleAdmin)
  ∧ (∀ (s : State), (s.lifecycle = 1 ∨ s.lifecycle = 2) → s.slotRole 0xFF = none)
  ∧ (∀ s x h, s.asksNew x h (.volClose h) →
    ∃ t, exec (.volClose h) s = .next t ∧ ended s t x.num 1 ∧ t.responds h (fun y => y.op = 2 ∧ y.status = .ok)
      ∧ t.bit Obj.volSticky .p 0 1 = s.bit Obj.volSticky .p 0 1)
  ∧ (∀ s n x, s.serverUp = true → s.session? n = some x →
      (x.established = false → x.last + 2 * nsPerSec ≤ s.time.base →
        ∃ t, exec (.sessionEstablishTimeout n) s = .next t ∧ ended s t n 3
          ∧ s.agree t (Obj.volSessions.addr .p 0 :: eventAddrs .c))
      ∧ (x.established = true → x.last + s.rdN Obj.volSessionTimeout .p 0 * nsPerSec ≤ s.time.base →
        ∃ t, exec (.sessionTimeout n) s = .next t ∧ ended s t n 2 ∧ t.bit Obj.volSticky .p 0 1 = true
          ∧ s.agree t (Obj.volSessions.addr .p 0 :: Obj.volSticky.addr .p 0 :: eventAddrs .c)))

/-- A session that OPEN makes has executed no SEQ, so its first may be 1. For a correct frame of an established session at the
present boot count: where its SEQ is above every SEQ executed it is executed, and that SEQ is then the highest and, unless
the request ended the session, its response the newest of at most 8 stored (said of NOP, whose execution is its response).
Where its SEQ is not above and one of the 8 stored responses has it, that response is sent again, and no object, log or
session changes but for the instant and the address it was heard from. Any other request is answered STALE with the highest
SEQ, and nothing more. -/
def Obligations.RequestsAreExecutedOnceAndRepeatsAnsweredFromTheStore : Prop :=
  let quiet (s t : State) : Prop := t.objs = s.objs ∧ t.blobs = s.blobs ∧ t.mram = s.mram ∧ t.ramLog = s.ramLog ∧ t.mode = s.mode
  (∀ s h slot nonce role, s.portServes h = true → s.vol.sessions.length < 16 → s.slotRole slot = some role →
    ∃ t x, exec (.volOpen h slot nonce) s = .next t ∧ x ∈ t.vol.sessions ∧ x ∉ s.vol.sessions ∧ x.high = 0 ∧ x.history = [])
  ∧ (∀ s x h, s.asksNew x h (.volNop h) →
    ∃ t z y, exec (.volNop h) s = .next t ∧ t.session? x.num = some z ∧ z.high = h.seq ∧ z.history = (y :: x.history).take 8
      ∧ y.seq = h.seq ∧ y.op = 3 ∧ y.status = .ok ∧ t.responds h (fun r => r = y) ∧ quiet s t)
  ∧ (∀ s x h i, s.asks x h i → x.established = true → h.boot = s.rdN Obj.volBootCount .p 0 → h.seq ≤ x.high → x.history.length ≤ 8 →
      (∀ y, x.history.find? (fun y => y.seq == h.seq) = some y →
        ∃ t z, exec i s = .next t ∧ t.responds h (fun r => r = y) ∧ quiet s t ∧ t.session? x.num = some z
          ∧ z = { x with last := s.time.base, port := h.port.val, peer := (h.ip, h.udp) })
      ∧ (x.history.find? (fun y => y.seq == h.seq) = none →
        ∃ t z, exec i s = .next t ∧ t.responds h (fun r => r.status = .stale x.high) ∧ quiet s t ∧ t.session? x.num = some z
          ∧ z = { x with last := s.time.base, port := h.port.val, peer := (h.ip, h.udp) }))

/-- For every frame of a session on a port that serves, where no session has its number or its tag fails: nothing is sent and
nothing waits for the SPI host, no session changes, VOL.COUNT counts it and VOL.STICKY bit 0 is set. Where no event 0x1012
was raised in the last second it is raised with the port and the session's key slot (of an unknown session the slot is the
model's free value, assumption 4); within the second the log stays. -/
def Obligations.FramesThatFailAuthenticationAreDiscarded : Prop :=
  let told (s t : State) (h : VolHdr) (slot : Option Nat) : Prop :=
    (s.vol.authEvent.any (fun e => decide (s.time.base < e + nsPerSec)) = true → t.ramLog = s.ramLog
      ∧ s.agree t [Obj.volCount.addr .p 0, Obj.volSticky.addr .p 0])
    ∧ (s.vol.authEvent.any (fun e => decide (s.time.base < e + nsPerSec)) = false →
      t.vol.authEvent = some s.time.base
      ∧ (match slot with
         | some v => s.reported t .c 0x1012 0 (p16 [h.port.val, v])
         | none => ∃ v, s.reported t .c 0x1012 0 (p16 [h.port.val, v]))
      ∧ s.agree t (Obj.volCount.addr .p 0 :: Obj.volSticky.addr .p 0 :: eventAddrs .c))
  let dropped (s : State) (h : VolHdr) (i : Instr) (slot : Option Nat) : Prop :=
    ∃ t, exec i s = .next t ∧ t.sent = s.sent ∧ t.vol.spiWaiting = s.vol.spiWaiting ∧ t.vol.sessions = s.vol.sessions
      ∧ t.blobs = s.blobs ∧ t.bit Obj.volSticky .p 0 0 = true
      ∧ t.rdN Obj.volCount .p 0 = min (s.rdN Obj.volCount .p 0 + 1) Obj.volCount.ty.maxVal ∧ told s t h slot
  ∀ s i h op n p, requestOf i = some (h, op, n, p) → s.portServes h = true →
    (s.session? h.session = none → dropped s h i none)
    ∧ (∀ x, s.session? h.session = some x → State.tagOk x h op n p = false → dropped s h i (some x.slot))

/-- For a new correct frame: NOP is answered OK. READ of VOL.SESSION.TIMEOUT returns its value in an item with its address, and
of an object that does not exist NO OBJECT; neither changes an object. DESCRIBE returns the descriptors of its items in
order. LIST returns up to 64 objects after a position, each as an 8-byte address. CLEAR.COUNT of VOL.COUNT sets it to 0 for
an admin or operator, and is answered ACCESS for a monitor, leaving it; of an object that is no counter it is answered
ACCESS. LOG.READ of log 0 returns the first records at or after the GSEQ, at most 34, each of 40 bytes, with the gap flag
where older ones were overwritten; of log 1 entries of 48 bytes at or after the boot count and GSEQ, at most 29. WRITE of
VOL.SESSION.TIMEOUT within its range by an admin or operator is answered OK and the object holds the value. -/
def Obligations.ReadsDescribeListClearAndLogRequestsAnswer : Prop :=
  let to_ (v : List Byte) (n : Nat) : VolItem := ⟨3, 0x1004, 5, 0, n, v⟩
  let vc : VolItem := ⟨3, 0x1004, 3, 0, 1, []⟩
  let quiet (s t : State) : Prop := t.objs = s.objs ∧ t.blobs = s.blobs ∧ t.mram = s.mram ∧ t.ramLog = s.ramLog
  (∀ s x h, s.asksNew x h (.volNop h) → ∃ t, exec (.volNop h) s = .next t ∧ t.responds h (fun y => y.op = 3 ∧ y.status = .ok) ∧ quiet s t)
  ∧ (∀ s x h, s.asksNew x h (.volRead h [to_ [] 1]) →
    ∃ t, exec (.volRead h [to_ [] 1]) s = .next t ∧ quiet s t
      ∧ t.responds h (fun y => y.op = 0x10 ∧ y.status = .ok ∧ y.items = 1
          ∧ y.payload = [3, 0x10, 4, 5, 0, 0, 0, 1, 0, 0, 0, 2] ++ natBe 2 (s.rdN Obj.volSessionTimeout .p 0 % 65536) ++ [0, 0]))
  ∧ (∀ s x h it, s.asksNew x h (.volRead h [it]) → findItem it (max 1 it.count) = .error .noObject → s.beyond it false = none →
    ∃ t, exec (.volRead h [it]) s = .next t ∧ quiet s t ∧ t.responds h (fun y => y.op = 0x10 ∧ y.status = .noObject ∧ y.item = 0))
  ∧ (∀ s x h (items : List VolItem) (l : List ObjDef), s.asksNew x h (.volDescribe h items) → items.length = l.length →
      (∀ (k : Nat) (o : ObjDef), l[k]? = some o → ∃ (it : VolItem) (d : Die), items[k]? = some it ∧ findItem it 1 = .ok (o, d)) →
    ∃ t, exec (.volDescribe h items) s = .next t ∧ quiet s t
      ∧ t.responds h (fun y => y.op = 0x12 ∧ y.status = .ok ∧ y.items = l.length ∧ y.descs = l))
  ∧ (∀ s x h die index sub, s.asksNew x h (.volList h die index sub) →
    ∃ t, exec (.volList h die index sub) s = .next t ∧ quiet s t
      ∧ t.responds h (fun y => y.op = 0x13 ∧ y.status = .ok ∧ y.items ≤ 64 ∧ y.payload.length = 8 * y.items
          ∧ (die = 0 → index = 0 → sub = 0 → y.items = 64)))
  ∧ (∀ s x h, s.asksNew x h (.volClearCount h [vc]) →
      (x.role = roleAdmin ∨ x.role = roleOperator →
        ∃ t, exec (.volClearCount h [vc]) s = .next t ∧ t.rd Obj.volCount .p 0 = 0 ∧ s.agree t [Obj.volCount.addr .p 0]
          ∧ t.responds h (fun y => y.op = 0x14 ∧ y.status = .ok))
      ∧ (x.role = roleMonitor → ∃ t, exec (.volClearCount h [vc]) s = .next t ∧ quiet s t
          ∧ t.responds h (fun y => y.op = 0x14 ∧ y.status = .access ∧ y.item = 0)))
  ∧ (∀ s x h, s.asksNew x h (.volClearCount h [to_ [] 1]) →
    ∃ t, exec (.volClearCount h [to_ [] 1]) s = .next t ∧ quiet s t ∧ t.responds h (fun y => y.status = .access))
  ∧ (∀ s x h count boot from_, s.asksNew x h (.volLogRead h 0 count boot from_) →
    ∃ t, exec (.volLogRead h 0 count boot from_) s = .next t ∧ quiet s t
      ∧ t.responds h (fun y => ∃ l, l = (s.ramLog.filter (fun r => decide (from_ ≤ r.gseq))).take (min count 34) ∧ y.op = 0x33
          ∧ y.status = .ok ∧ y.items = l.length ∧ y.payload = l.flatMap (·.bytes) ∧ y.payload.length = 40 * l.length
          ∧ (y.gap = true ↔ s.bit Obj.evtStatus .c 0 0 = true ∧ from_ < s.rdN Obj.evtLogOldest .c 0)))
  ∧ (∀ s x h count boot from_, s.asksNew x h (.volLogRead h 1 count boot from_) → from_ < 2 ^ 64 → (∀ e ∈ s.mram.log, e.2.gseq < 2 ^ 64) →
    ∃ t, exec (.volLogRead h 1 count boot from_) s = .next t ∧ quiet s t
      ∧ t.responds h (fun y => ∃ l, l = (s.mram.log.filter (fun e => decide (boot < e.1) || (e.1 == boot && decide (from_ ≤ e.2.gseq)))).take (min count 29)
          ∧ y.status = .ok ∧ y.items = l.length ∧ y.payload = l.flatMap (fun e => natBe 4 e.1 ++ natBe 4 0 ++ e.2.bytes)))
  ∧ (∀ s x h v, s.asksNew x h (.volWrite h [to_ (natBe 2 v) 0]) → x.role = roleAdmin ∨ x.role = roleOperator → 2 ≤ v → v ≤ 3600 →
      s.twill.due.filter (fun c => c.2.2.le (.ofNs s.time.base)) = [] → 
    ∃ t, exec (.volWrite h [to_ (natBe 2 v) 0]) s = .next t ∧ t.rd Obj.volSessionTimeout .p 0 = (v : Nat)
      ∧ s.agree t [Obj.volSessionTimeout.addr .p 0] ∧ t.responds h (fun y => y.op = 0x11 ∧ y.status = .ok))

/-- For a new correct frame: BEGIN of ENT.CH.SEI.USER of a die that is reached, by an admin or operator, with a length up to 160
and no transfer held and fewer than four in all, is answered OK with a number no session's transfer has; with a longer
length LENGTH, with one held or four in all BUSY, and nothing changes. DATA at the next offset, up to 1,384 bytes and within
the total, is appended and answered OK; any other segment is answered BULK with the offset expected. END with every byte
there, outside SELVEDGE and no Loom commit due, ends the transfer and writes the object once; before that it is answered
BULK. READ of ENT.CH.SEI.USER at offset 0, or with no snapshot of the last 10 s, takes a snapshot and returns its bytes from
the offset on; a later offset returns bytes of the snapshot held. BULK_TRANSFER_TIMEOUT ends a transfer without a segment
for VOL.SESSION.TIMEOUT seconds, BULK_SNAPSHOT_EXPIRY drops snapshots 10 s old and keeps the others. -/
def Obligations.BulkTransfersGatherSegmentsAndWriteOnce : Prop :=
  let sei (d : MDie) (c n : Nat) : VolItem := ⟨d.die.num, 0x2301, 0x0D, c, n, []⟩
  let quiet (s t : State) : Prop := t.objs = s.objs ∧ t.blobs = s.blobs ∧ t.mram = s.mram ∧ t.ramLog = s.ramLog
  (∀ s x h (d : MDie) c total, s.asksNew x h (.volBulkBegin h (sei d c 0) total) → s.reachable d = true → c < 48 →
      x.role = roleAdmin ∨ x.role = roleOperator →
      (total ≤ 160 → x.transfer = none → s.transfers.length < 4 →
        ∃ t z b, exec (.volBulkBegin h (sei d c 0) total) s = .next t ∧ quiet s t ∧ t.session? x.num = some z ∧ z.transfer = some b
          ∧ b.total = total ∧ b.data = [] ∧ b.addr = Obj.entChSeiUser.addr d.die c ∧ b.last = s.time.base ∧ b.id < 2 ^ 16
          ∧ (∀ e ∈ s.transfers, e.id ≠ b.id) ∧ t.responds h (fun y => y.op = 0x20 ∧ y.status = .ok ∧ y.payload = natBe 2 b.id))
      ∧ (160 < total → ∃ t, exec (.volBulkBegin h (sei d c 0) total) s = .next t ∧ quiet s t ∧ t.transfers = s.transfers
          ∧ t.responds h (fun y => y.status = .length))
      ∧ (total ≤ 160 → (x.transfer ≠ none ∨ 4 ≤ s.transfers.length) →
        ∃ t, exec (.volBulkBegin h (sei d c 0) total) s = .next t ∧ quiet s t ∧ t.transfers = s.transfers
          ∧ t.responds h (fun y => y.status = .busy)))
  ∧ (∀ s x h b id offset data, s.asksNew x h (.volBulkData h id offset data) → x.transfer = some b →
      (id = b.id → offset = b.data.length → data.length ≤ 1384 → b.data.length + data.length ≤ b.total →
        ∃ t z, exec (.volBulkData h id offset data) s = .next t ∧ quiet s t ∧ t.session? x.num = some z
          ∧ z.transfer = some { b with data := b.data ++ data, last := s.time.base } ∧ t.responds h (fun y => y.op = 0x21 ∧ y.status = .ok))
      ∧ (id ≠ b.id ∨ offset ≠ b.data.length →
        ∃ t z, exec (.volBulkData h id offset data) s = .next t ∧ quiet s t ∧ t.session? x.num = some z
          ∧ z.transfer = some b ∧ t.responds h (fun y => y.status = .bulk b.data.length)))
  ∧ (∀ s x h b id (d : MDie) c, s.asksNew x h (.volBulkEnd h id) → x.transfer = some b → x.role = roleAdmin ∨ x.role = roleOperator →
      b.addr = Obj.entChSeiUser.addr d.die c → c < 48 → s.reachable d = true → s.mode ≠ .selvedge → id = b.id →
      s.twill.due.filter (fun c => c.2.2.le (.ofNs s.time.base)) = [] → 
      (b.data.length = b.total → 16 ≤ b.total → b.total ≤ 160 →
        ∃ t z, exec (.volBulkEnd h id) s = .next t ∧ t.session? x.num = some z ∧ z.transfer = none
          ∧ t.rdBytes Obj.entChSeiUser d.die c = b.data ∧ s.agreeBytes t [Obj.entChSeiUser.addr d.die c]
          ∧ t.responds h (fun y => y.op = 0x22 ∧ y.status = .ok))
      ∧ (b.data.length ≠ b.total →
        ∃ t z, exec (.volBulkEnd h id) s = .next t ∧ quiet s t ∧ t.session? x.num = some z ∧ z.transfer = some b
          ∧ t.responds h (fun y => y.status = .bulk b.data.length)))
  ∧ (∀ s x h (d : MDie) c offset len, s.asksNew x h (.volBulkRead h (sei d c 1) offset len) → s.reachable d = true → c < 48 →
      (offset = 0 ∨ x.snaps.find? (fun n => n.1 == Obj.entChSeiUser.addr d.die c && decide (s.time.base < n.2.2 + 10 * nsPerSec)) = none →
        ∃ t z, exec (.volBulkRead h (sei d c 1) offset len) s = .next t ∧ quiet s t ∧ t.session? x.num = some z
          ∧ (Obj.entChSeiUser.addr d.die c, s.rdBytes Obj.entChSeiUser d.die c, s.time.base) ∈ z.snaps
          ∧ t.responds h (fun y => y.op = 0x23 ∧ y.status = .ok ∧ y.payload = ((s.rdBytes Obj.entChSeiUser d.die c).drop offset).take (min len 1392)))
      ∧ (∀ b at_, offset ≠ 0 → x.snaps.find? (fun n => n.1 == Obj.entChSeiUser.addr d.die c && decide (s.time.base < n.2.2 + 10 * nsPerSec))
          = some (Obj.entChSeiUser.addr d.die c, b, at_) →
        ∃ t, exec (.volBulkRead h (sei d c 1) offset len) s = .next t ∧ quiet s t
          ∧ t.responds h (fun y => y.op = 0x23 ∧ y.status = .ok ∧ y.payload = (b.drop offset).take (min len 1392))))
  ∧ (∀ s n x b, s.serverUp = true → s.session? n = some x → x.transfer = some b →
      b.last + s.rdN Obj.volSessionTimeout .p 0 * nsPerSec ≤ s.time.base →
    ∃ t z, exec (.bulkTransferTimeout n) s = .next t ∧ t.session? n = some z ∧ z = { x with transfer := none } ∧ quiet s t)
  ∧ (∀ s n x, s.serverUp = true → s.session? n = some x →
    ∃ t z, exec (.bulkSnapshotExpiry n) s = .next t ∧ t.session? n = some z ∧ quiet s t
      ∧ (∀ e ∈ z.snaps, s.time.base < e.2.2 + 10 * nsPerSec)
      ∧ (∀ e ∈ x.snaps, s.time.base < e.2.2 + 10 * nsPerSec → e ∈ z.snaps))

/-- For a new correct frame: SUBSCRIBE of up to 8 ranges replaces the filter and sets the next GSEQ, 0 meaning the next new
record; more ranges are answered LENGTH. ACK removes the records up to its GSEQ from those not acknowledged. NOTIFY_SEND of
an established, subscribed session sends the matching records of the log from its next GSEQ on, up to 34, in one NOTIFY to
the address of its most recent correct request, with its count and the gap flag after a loss, where its 1,024 unacknowledged
records leave room; where they leave none, the loss is reported once by 0x3F02 with the first lost GSEQ and EVT.STICKY bit
0, and the run of losses goes on. NOTIFY_RETRANSMIT of a NOTIFY not acknowledged for 100 ms sends it again up to 5 times;
then its records are lost. -/
def Obligations.NotificationsAreDeliveredAcknowledgedAndLost : Prop :=
  let quiet (s t : State) : Prop := t.objs = s.objs ∧ t.blobs = s.blobs ∧ t.mram = s.mram ∧ t.ramLog = s.ramLog
  let out (t : State) (port : Nat) : List Sent := if port = 2 then t.vol.spiWaiting else t.sent
  (∀ s x h start ranges, s.asksNew x h (.volSubscribe h start ranges) →
      (ranges.length ≤ 8 → ∃ t z, exec (.volSubscribe h start ranges) s = .next t ∧ quiet s t ∧ t.session? x.num = some z
        ∧ z.subscribed = true ∧ z.ranges = ranges ∧ z.nextGseq = (if start = 0 then s.rdN Obj.evtGseqNext .c 0 else start)
        ∧ t.responds h (fun y => y.op = 0x30 ∧ y.status = .ok))
      ∧ (8 < ranges.length → ∃ t z, exec (.volSubscribe h start ranges) s = .next t ∧ quiet s t ∧ t.session? x.num = some z
        ∧ z.ranges = x.ranges ∧ z.nextGseq = x.nextGseq ∧ t.responds h (fun y => y.status = .length)))
  ∧ (∀ s x h gseq, s.asksNew x h (.volAck h gseq) →
    ∃ t z, exec (.volAck h gseq) s = .next t ∧ quiet s t ∧ t.session? x.num = some z
      ∧ z.notices.flatMap (·.records) = (x.notices.flatMap (·.records)).filter (fun r => decide (gseq < r.gseq))
      ∧ t.responds h (fun y => y.op = 0x32 ∧ y.status = .ok))
  ∧ (∀ s n x l last, s.serverUp = true → s.session? n = some x → x.num = n → x.established = true → x.subscribed = true →
      l = s.ramLog.filter (fun r => decide (x.nextGseq ≤ r.gseq) && s.matches_ x r) → (l.take 34).getLast? = some last →
      (x.unacked + (l.take 34).length ≤ 1024 →
        ∃ t z, exec (.volNotifySend n) s = .next t ∧ quiet s t ∧ t.session? n = some z ∧ z.nextGseq = last.gseq + 1 ∧ z.losing = false
          ∧ z.notices = x.notices ++ [⟨x.notifies + 1, x.losing, l.take 34, 0, s.time.base⟩] ∧ z.notifies = x.notifies + 1
          ∧ out t x.port = out s x.port ++ [.notify x.port x.peer.1 x.peer.2 n (x.notifies + 1) x.losing (l.take 34)])
      ∧ (1024 ≤ x.unacked → x.losing = false → ∀ first, l.head? = some first →
        ∃ t z, exec (.volNotifySend n) s = .next t ∧ t.session? n = some z ∧ z.losing = true ∧ z.nextGseq = last.gseq + 1
          ∧ z.notices = x.notices ∧ t.bit Obj.evtSticky .c 0 0 = true
          ∧ s.reported t .c 0x3F02 0 (payloadOf [(32, (n : Int)), (64, (first.gseq : Int))]))
      ∧ (1024 ≤ x.unacked → x.losing = true →
        ∃ t, exec (.volNotifySend n) s = .next t ∧ quiet s t ∧ out t x.port = out s x.port))
  ∧ (∀ s n x y, s.serverUp = true → s.session? n = some x → x.num = n →
      x.notices.find? (fun z => decide (z.last + 100000000 ≤ s.time.base)) = some y →
      (y.again < 5 →
        ∃ t z, exec (.notifyRetransmit n) s = .next t ∧ quiet s t ∧ t.session? n = some z
          ∧ { y with again := y.again + 1, last := s.time.base } ∈ z.notices
          ∧ out t x.port = out s x.port ++ [.notify x.port x.peer.1 x.peer.2 n y.count y.gap y.records])
      ∧ (5 ≤ y.again → x.losing = false → ∀ first, y.records.head? = some first →
        ∃ t z, exec (.notifyRetransmit n) s = .next t ∧ t.session? n = some z ∧ z.losing = true ∧ y ∉ z.notices
          ∧ t.bit Obj.evtSticky .c 0 0 = true
          ∧ s.reported t .c 0x3F02 0 (payloadOf [(32, (n : Int)), (64, (first.gseq : Int))])))

/-- Die C running. An ARP request or an echo for the port's own address is answered to its sender, and one for another address
is not; a fragment or a malformed VOL datagram counts in VOL.COUNT; everything else changes nothing. The port's own address
is VOL.PORT.IPV4, or 169.254.a.b from the serial number and the port where that is 0. A change of link shows in
VOL.PORT.STATUS bit 0. With STRAP0: a frame written while one is executed is refused and the next status shows bit 1;
otherwise the refusal is cleared, a good frame makes the port busy while the server runs, and a malformed one counts in
VOL.COUNT; a read returns the oldest waiting frame and removes it, or none; the status byte shows bit 0 a frame waits, bit 1
refused, bit 2 server up. -/
def Obligations.FieldPortsAndTheSpiPortAnswer : Prop :=
  (∀ (s : State) (port : Fin 2), s.rdN Obj.volPortIpv4 .c port.val ≠ 0 → s.fieldAddr port.val = s.rdN Obj.volPortIpv4 .c port.val)
  ∧ (∀ (s : State) (port : Fin 2), s.rdN Obj.volPortIpv4 .c port.val = 0 →
      s.fieldAddr port.val = ((169 * 256 + 254) * 256 + (1 + s.rdN Obj.idSerial .p 0 % 254)) * 256 + (1 + port.val))
  ∧ (∀ s (port : Fin 2) ip mac, s.up .c = true →
      (ip = s.fieldAddr port.val →
        exec (.fieldNetFrame port (.arp ip mac)) s = .next { s with sent := s.sent ++ [.fieldArp port.val ip mac] }
        ∧ exec (.fieldNetFrame port (.echo ip mac)) s = .next { s with sent := s.sent ++ [.fieldEcho port.val ip mac] })
      ∧ (ip ≠ s.fieldAddr port.val →
        exec (.fieldNetFrame port (.arp ip mac)) s = .next s ∧ exec (.fieldNetFrame port (.echo ip mac)) s = .next s)
      ∧ (∀ f ∈ [FieldFrame.ptp, .vol true, .other], exec (.fieldNetFrame port f) s = .next s)
      ∧ (∀ f ∈ [FieldFrame.vol false, .fragment], ∃ t, exec (.fieldNetFrame port f) s = .next t ∧ s.onlyObjs t
          ∧ s.agree t [Obj.volCount.addr .p 0]
          ∧ t.rdN Obj.volCount .p 0 = min (s.rdN Obj.volCount .p 0 + 1) Obj.volCount.ty.maxVal)
      ∧ (∀ up, ∃ t, exec (.fieldNetworkLinkChange port up) s = .next t ∧ s.onlyObjs t ∧ t.bit Obj.volPortStatus .c port.val 0 = up
          ∧ s.agree t [Obj.volPortStatus.addr .c port.val]))
  ∧ (∀ s, s.up .c = true → s.strap 0 = true →
      (∀ good, s.vol.spiBusy = true → exec (.spiWriteFrame good) s = .next { s with vol := { s.vol with spiRefused := true } })
      ∧ (s.vol.spiBusy = false →
          exec (.spiWriteFrame true) s = .next { s with vol := { s.vol with spiRefused := false, spiBusy := s.serverUp } }
          ∧ (∃ t, exec (.spiWriteFrame false) s = .next t ∧ t.vol = { s.vol with spiRefused := false, spiBusy := false }
              ∧ s.agree t [Obj.volCount.addr .p 0]
              ∧ t.rdN Obj.volCount .p 0 = min (s.rdN Obj.volCount .p 0 + 1) Obj.volCount.ty.maxVal))
      ∧ (s.vol.spiWaiting = [] → exec .spiReadFrame s = .next { s with sent := s.sent ++ [.spiNone] })
      ∧ (∀ f r, s.vol.spiWaiting = f :: r →
          exec .spiReadFrame s = .next { s with vol := { s.vol with spiWaiting := r }, sent := s.sent ++ [f] })
      ∧ (∃ v, exec .spiReadStatus s = .next { s with sent := s.sent ++ [.spiStatus v] } ∧ v < 8
          ∧ (v.testBit 0 = true ↔ s.vol.spiWaiting ≠ []) ∧ v.testBit 1 = s.vol.spiRefused ∧ v.testBit 2 = s.serverUp))

/-- With a command c at the front of the queue, a step is exec of c on the state whose queue is the rest. With an empty queue
the part idles (the model's choice, assumption 7): where no die runs and no Loom commit of the package is due, only the
timer of a boot failure counts down; where Die C runs, no erasure runs and none is due, its time base counts one nanosecond,
in HOLDOVER and STEP-PENDING by the frequency ratio held, and no object changes. -/
def Obligations.StepExecutesTheFrontCommandAndIdlesWithoutOne : Prop :=
  (∀ (c : Instr) (rest : List Instr) (s : State), s.pending = c :: rest → step s = exec c { s with pending := rest })
  ∧ (∀ (s : State), s.pending = [] → s.up .c = false → s.up .a = false → s.up .b = false →
      (∀ c ∈ s.twill.due, c.2.2.le (.ofNs s.time.base) = false) →
      step s = .next { s with boot := { s.boot with faultLeft := s.boot.faultLeft - 1 } })
  ∧ (∀ (s : State) b, s.pending = [] → s.up .c = true → s.sec.erasing = false →
      b = s.time.base + (if s.servo = 3 ∨ s.servo = 5 then (1 + (s.time.fraction + s.time.ratio) / (nsPerSec : Nat)).toNat else 1) →
      (∀ c ∈ s.twill.due, c.2.2.le (.ofNs b) = false) →
      ∃ t, step s = .next t ∧ t.time.base = b ∧ t.objs = s.objs ∧ t.blobs = s.blobs ∧ t.mram = s.mram
        ∧ t.pending = [])

/-- In State.reset the mode is RESET, every numeric object reads its start value, no STRING or DOMAIN object has been written,
no die runs, both event logs and both arbiters are empty, no session exists and no command waits; the maps and memories are
in canonical form. The start values of objects without a default in the spec are the model's choice (assumption 5). -/
def Obligations.ResetStateIsInResetModeEmptyAndInForm : Prop :=
  State.reset.mode = .reset ∧ State.reset.pending = [] ∧ State.reset.ramLog = [] ∧ State.reset.mram.log = []
  ∧ State.reset.dieA.arb.buf = [] ∧ State.reset.dieB.arb.buf = [] ∧ State.reset.vol.sessions = []
  ∧ (∀ d : PDie, State.reset.up d = false) ∧ State.reset.blobs = []
  ∧ (∀ o d i, State.reset.rd o d i = o.start d i) ∧ State.reset.wf = true

/-- For every state and command: where exec answers a next state, the queue is what it was. For every state whose maps of
objects and their copies in MRAM are in canonical form, where a step answers a next state, that state's are in canonical
form: each address at most once, in ascending order, so that equal dictionaries are equal data. -/
def Obligations.EveryStepKeepsTheCanonicalForm : Prop :=
  (∀ (c : Instr) (s t : State), exec c s = .next t → t.pending = s.pending)
  ∧ (∀ (s t : State), s.dictWf = true → step s = .next t → t.dictWf = true)

/-- For every state whose RAM log holds at most 65,536 records, whose persistent log holds at most its capacity, whose arbiters
hold at most 4,096 records each and which has at most 16 sessions: where a step answers a next state, the same holds of that
state. It holds at reset. -/
def Obligations.EveryStepKeepsLogsAndSessionsWithinTheirCapacity : Prop :=
  let fits (s : State) : Prop := s.ramLog.length ≤ 65536 ∧ s.mram.log.length ≤ persistLogMax
    ∧ s.dieA.arb.buf.length ≤ 4096 ∧ s.dieB.arb.buf.length ≤ 4096 ∧ s.vol.sessions.length ≤ 16
  fits State.reset ∧ (∀ (s t : State), fits s → step s = .next t → fits t)

/-- For every state whose byte memories (the DRAM of each media die, the staging area of dictionary images, the inactive
firmware slot) list their addresses in rising order and no byte that equals what an unlisted address reads as: where a step
answers a next state, the same holds of that state. It holds at reset, and a written byte of a memory reads back while every
other byte stays. -/
def Obligations.EveryStepKeepsTheByteMemoriesCanonical : Prop :=
  State.reset.memoriesWf = true
  ∧ (∀ (s t : State), s.memoriesWf = true → step s = .next t → t.memoriesWf = true)
  ∧ (∀ (m : Memory) (a b : Nat) (v : Byte), (m.put a v).get b = if a = b then v else m.get b)
end

