-- ==== Sys2Proof/Laws/Maps.lean ====
section
/-! SUPPORT. Laws of the dictionary's maps and of the byte memories: reading after a write, and the canonical forms that every
operation keeps. -/

namespace Sys2Proof.Machine

/-! ### Object addresses -/

theorem dieNum_inj {x y : Die} (h : x.num = y.num) : x = y := by
  cases x <;> cases y <;> simp_all [Die.num]

theorem addrLt_irrefl (a : ObjAddr) : addrLt a a = false := by simp [addrLt]

theorem addrLt_trans {a b c : ObjAddr} (h : addrLt a b = true) (k : addrLt b c = true) : addrLt a c = true := by
  simp only [addrLt, Bool.or_eq_true, Bool.and_eq_true, decide_eq_true_eq] at *
  omega

theorem addrLt_total {a b : ObjAddr} (h : ¬ b = a) (k : addrLt a b = false) : addrLt b a = true := by
  obtain ⟨ad, ai, as, an⟩ := a
  obtain ⟨bd, bi, bs, bn⟩ := b
  refine Decidable.byContradiction (fun hc => h ?_)
  simp only [addrLt, Bool.or_eq_true, Bool.and_eq_true, decide_eq_true_eq, Bool.or_eq_false_iff, Bool.and_eq_false_iff,
    decide_eq_false_iff_not] at *
  have hd : bd.num = ad.num := by omega
  have : bd = ad := dieNum_inj hd
  simp only [ObjAddr.mk.injEq]
  exact ⟨this, by omega, by omega, by omega⟩

/-! ### Maps -/

variable {α : Type}

theorem mapGet_mapPut (m : List (ObjAddr × α)) (a b : ObjAddr) (v : α) :
    mapGet (mapPut m a v) b = if a = b then some v else mapGet m b := by
  induction m with
  | nil => simp [mapPut, mapGet]
  | cons e r ih =>
    obtain ⟨c, w⟩ := e
    simp only [mapPut]
    split
    · rename_i h; subst h; by_cases h : c = b <;> simp [mapGet, h]
    · split
      · rename_i h _; by_cases k : a = b <;> simp [mapGet, k]
      · rename_i h _
        simp only [mapGet, ih]
        by_cases k : c = b
        · subst k; simp [Ne.symm h]
        · simp [k]

/-- The first address of a map, if it has one, lies above `a`. -/
def mapAbove (a : ObjAddr) (m : List (ObjAddr × α)) : Prop := ∀ e ∈ m.head?, addrLt a e.1 = true

theorem mapWf_cons (a : ObjAddr) (v : α) (m : List (ObjAddr × α)) :
    mapWf ((a, v) :: m) = true ↔ mapAbove a m ∧ mapWf m = true := by
  cases m with
  | nil => simp [mapWf, mapAbove]
  | cons e r => obtain ⟨b, w⟩ := e; simp [mapWf, mapAbove]

theorem mapWf_iff (m : List (ObjAddr × α)) : mapWf m = true ↔ m.Pairwise (fun x y => addrLt x.1 y.1 = true) := by
  induction m with
  | nil => simp [mapWf]
  | cons e r ih =>
    obtain ⟨a, v⟩ := e
    rw [mapWf_cons, ih, List.pairwise_cons]
    constructor
    · rintro ⟨h, k⟩
      refine ⟨fun x hx => ?_, k⟩
      cases r with
      | nil => simp at hx
      | cons f r' =>
        have hf : addrLt a f.1 = true := h f (by simp)
        rcases List.mem_cons.mp hx with rfl | hx
        · exact hf
        · exact addrLt_trans hf ((List.pairwise_cons.mp k).1 x hx)
    · rintro ⟨h, k⟩
      refine ⟨fun x hx => h x ?_, k⟩
      exact List.mem_of_mem_head? hx

theorem mapWf_filter (m : List (ObjAddr × α)) (p : ObjAddr × α → Bool) (h : mapWf m = true) :
    mapWf (m.filter p) = true := by
  rw [mapWf_iff] at *
  exact h.filter p

theorem mapWf_mapDel (m : List (ObjAddr × α)) (a : ObjAddr) (h : mapWf m = true) : mapWf (mapDel m a) = true :=
  mapWf_filter m _ h

theorem mem_mapPut (m : List (ObjAddr × α)) (a : ObjAddr) (v : α) {x : ObjAddr × α} (h : x ∈ mapPut m a v) :
    x.1 = a ∨ x ∈ m := by
  induction m with
  | nil => simp_all [mapPut]
  | cons e r ih =>
    obtain ⟨b, w⟩ := e
    simp only [mapPut] at h
    split at h
    · rcases List.mem_cons.mp h with rfl | h
      · exact .inl rfl
      · exact .inr (List.mem_cons_of_mem _ h)
    · split at h
      · rcases List.mem_cons.mp h with rfl | h
        · exact .inl rfl
        · exact .inr h
      · rcases List.mem_cons.mp h with rfl | h
        · exact .inr (List.mem_cons_self ..)
        · exact (ih h).imp_right (List.mem_cons_of_mem _)

theorem mapWf_mapPut (m : List (ObjAddr × α)) (a : ObjAddr) (v : α) (h : mapWf m = true) :
    mapWf (mapPut m a v) = true := by
  rw [mapWf_iff] at *
  induction m with
  | nil => simp [mapPut]
  | cons e r ih =>
    obtain ⟨b, w⟩ := e
    have hc := List.pairwise_cons.mp h
    simp only [mapPut]
    split
    · rename_i hb; subst hb; exact List.pairwise_cons.mpr ⟨hc.1, hc.2⟩
    · split
      · rename_i hlt
        refine List.pairwise_cons.mpr ⟨fun x hx => ?_, h⟩
        rcases List.mem_cons.mp hx with rfl | hx
        · exact hlt
        · exact addrLt_trans hlt (hc.1 x hx)
      · rename_i hne hlt
        refine List.pairwise_cons.mpr ⟨fun x hx => ?_, ih hc.2⟩
        rcases mem_mapPut r a v hx with ha | hx
        · rw [ha]; exact addrLt_total hne (by simpa using hlt)
        · exact hc.1 x hx

theorem mapGet_filter (m : List (ObjAddr × α)) (p : ObjAddr → Bool) (a : ObjAddr) :
    mapGet (m.filter (fun e => p e.1)) a = if p a = true then mapGet m a else none := by
  induction m with
  | nil => simp [mapGet]
  | cons e r ih =>
    obtain ⟨b, w⟩ := e
    simp only [List.filter_cons]
    split
    · rename_i h
      by_cases k : b = a
      · subst k; simp [mapGet, h]
      · simp [mapGet, k, ih]
    · rename_i h
      rw [ih]
      by_cases k : b = a
      · subst k; simp [h]
      · simp [mapGet, k]

theorem mapGet_mapDel (m : List (ObjAddr × α)) (a b : ObjAddr) :
    mapGet (mapDel m a) b = if a = b then none else mapGet m b := by
  rw [mapDel, mapGet_filter m (fun x => decide (x ≠ a))]
  by_cases h : a = b
  · simp [h]
  · simp [h, Ne.symm h]

/-! ### Byte memories -/

theorem cellGet_cellPut (l : List Host.Cell) (a b : Nat) (v : Byte) :
    cellGet (cellPut l a v) b = if a = b then some v else cellGet l b := by
  induction l with
  | nil => simp [cellPut, cellGet]
  | cons e r ih =>
    obtain ⟨c, w⟩ := e
    simp only [cellPut]
    split
    · rename_i h; subst h; by_cases h : c = b <;> simp [cellGet, h]
    · split
      · by_cases k : a = b <;> simp [cellGet, k]
      · rename_i h _
        simp only [cellGet, ih]
        by_cases k : c = b
        · subst k; simp [Ne.symm h]
        · simp [k]

theorem cellGet_cellDel (l : List Host.Cell) (a b : Nat) :
    cellGet (cellDel l a) b = if a = b then none else cellGet l b := by
  induction l with
  | nil => simp [cellDel, cellGet]
  | cons e r ih =>
    obtain ⟨c, w⟩ := e
    simp only [cellDel, List.filter_cons] at *
    by_cases h : c = a
    · subst h
      simp only [ne_eq, not_true_eq_false, decide_false, Bool.false_eq_true, ↓reduceIte, ih]
      by_cases k : c = b <;> simp [cellGet, k]
    · simp only [ne_eq, h, not_false_eq_true, decide_true, ↓reduceIte, cellGet, ih]
      by_cases k : c = b
      · subst k; simp [Ne.symm h]
      · simp [k]

/-- Reading a byte after writing one. -/
theorem Memory.get_put (m : Memory) (a b : Nat) (v : Byte) :
    (m.put a v).get b = if a = b then v else m.get b := by
  unfold Memory.put
  split
  · rename_i h
    simp only [Memory.get, cellGet_cellDel, Memory.unlisted]
    by_cases k : a = b
    · simp [k, h.1, h.2]
    · simp [k]
  · simp only [Memory.get, cellGet_cellPut, Memory.unlisted]
    by_cases k : a = b <;> simp [k]

theorem rising_iff (l : List Host.Cell) : rising l = true ↔ l.Pairwise (fun x y => x.1 < y.1) := by
  induction l with
  | nil => simp [rising]
  | cons e r ih =>
    obtain ⟨a, v⟩ := e
    cases r with
    | nil => simp [rising]
    | cons f r' =>
      obtain ⟨b, w⟩ := f
      rw [List.pairwise_cons]
      simp only [rising, Bool.and_eq_true, decide_eq_true_eq, ih]
      constructor
      · rintro ⟨h, k⟩
        refine ⟨fun x hx => ?_, k⟩
        rcases List.mem_cons.mp hx with rfl | hx
        · exact h
        · exact Nat.lt_trans h ((List.pairwise_cons.mp k).1 x hx)
      · rintro ⟨h, k⟩
        exact ⟨h (b, w) (by simp), k⟩

theorem mem_cellPut (l : List Host.Cell) (a : Nat) (v : Byte) {x : Host.Cell} (h : x ∈ cellPut l a v) :
    x = (a, v) ∨ x ∈ l := by
  induction l with
  | nil => simp_all [cellPut]
  | cons e r ih =>
    obtain ⟨b, w⟩ := e
    simp only [cellPut] at h
    split at h
    · rcases List.mem_cons.mp h with rfl | h
      · exact .inl rfl
      · exact .inr (List.mem_cons_of_mem _ h)
    · split at h
      · rcases List.mem_cons.mp h with rfl | h
        · exact .inl rfl
        · exact .inr h
      · rcases List.mem_cons.mp h with rfl | h
        · exact .inr (List.mem_cons_self ..)
        · exact (ih h).imp_right (List.mem_cons_of_mem _)

theorem rising_cellPut (l : List Host.Cell) (a : Nat) (v : Byte) (h : rising l = true) : rising (cellPut l a v) = true := by
  rw [rising_iff] at *
  induction l with
  | nil => simp [cellPut]
  | cons e r ih =>
    obtain ⟨b, w⟩ := e
    have hc := List.pairwise_cons.mp h
    simp only [cellPut]
    split
    · rename_i hb; subst hb; exact List.pairwise_cons.mpr ⟨hc.1, hc.2⟩
    · split
      · rename_i hlt
        refine List.pairwise_cons.mpr ⟨fun x hx => ?_, h⟩
        rcases List.mem_cons.mp hx with rfl | hx
        · exact hlt
        · exact Nat.lt_trans hlt (hc.1 x hx)
      · rename_i hne hlt
        refine List.pairwise_cons.mpr ⟨fun x hx => ?_, ih hc.2⟩
        rcases mem_cellPut r a v hx with rfl | hx
        · exact Nat.lt_of_le_of_ne (Nat.le_of_not_lt hlt) hne
        · exact hc.1 x hx

/-- A write of one byte keeps the canonical form. -/
theorem Memory.wf_put (m : Memory) (a : Nat) (v : Byte) (h : m.wf = true) : (m.put a v).wf = true := by
  unfold Memory.put
  simp only [Memory.wf, Bool.and_eq_true, Bool.or_eq_true] at h ⊢
  split
  · rename_i hz
    constructor
    · have := (rising_iff _).mp h.1
      exact (rising_iff _).mpr (this.filter _)
    · rcases h.2 with k | k
      · exact .inl k
      · right
        rw [List.all_eq_true] at k ⊢
        exact fun x hx => k x (List.mem_filter.mp hx).1
  · rename_i hz
    refine ⟨rising_cellPut _ _ _ h.1, ?_⟩
    cases hl : m.lost with
    | some e => exact .inl rfl
    | none =>
      right
      have hv : v ≠ 0 := fun hv => hz ⟨hl, hv⟩
      rcases h.2 with k | k
      · simp [hl] at k
      · rw [List.all_eq_true] at k ⊢
        intro x hx
        rcases mem_cellPut _ _ _ hx with rfl | hx
        · simpa using hv
        · exact k x hx

/-- A write of bytes keeps the canonical form. -/
theorem Memory.wf_write (b : List Byte) : ∀ (m : Memory) (a : Nat), m.wf = true → (m.write a b).wf = true := by
  induction b with
  | nil => exact fun _ _ h => h
  | cons v r ih => exact fun m a h => ih _ _ (m.wf_put a v h)

/-- Reading a byte after writing several from an address on: inside them the written byte, elsewhere the former one. -/
theorem Memory.get_write (b : List Byte) : ∀ (m : Memory) (a x : Nat),
    (m.write a b).get x = if a ≤ x ∧ x < a + b.length then b.getD (x - a) 0 else m.get x := by
  induction b with
  | nil =>
    intro m a x
    have h : ¬ (a ≤ x ∧ x < a + ([] : List Byte).length) := by simp only [List.length_nil]; omega
    rw [if_neg h, Memory.write]
  | cons v r ih =>
    intro m a x
    rw [Memory.write, ih, Memory.get_put]
    by_cases h : a = x
    · subst h
      simp
    · simp only [h, if_false, List.length_cons]
      by_cases k : a + 1 ≤ x ∧ x < a + 1 + r.length
      · have k' : a ≤ x ∧ x < a + (r.length + 1) := by omega
        have e : x - a = (x - (a + 1)) + 1 := by omega
        simp [k, k', e]
      · have k' : ¬ (a ≤ x ∧ x < a + (r.length + 1)) := by omega
        simp only [k', if_false]
        exact if_neg k

end Sys2Proof.Machine
end

