-- ==== Sys2Proof/Laws/State.lean ====
section
/-! SUPPORT. What each shared operation of Machine/Ops.lean and Machine/Flags.lean does to each part of the state, said once: the
statements' proofs cite these lemmas and unfold no operation. -/

namespace Sys2Proof.Machine

/-! ### Objects -/

/-- Reading an object after writing one. -/
theorem State.rd_wr (s : State) (o p : ObjDef) (d e : Die) (i j : Nat) (v : Int) :
    (s.wr o d i v).rd p e j = if o.addr d i = p.addr e j then v else s.rd p e j := by
  simp only [State.rd, State.wr, mapGet_mapPut]
  split <;> simp

@[simp] theorem State.rd_wr_same (s : State) (o : ObjDef) (d : Die) (i : Nat) (v : Int) :
    (s.wr o d i v).rd o d i = v := by simp [State.rd_wr]

@[simp] theorem State.rdN_wr_same (s : State) (o : ObjDef) (d : Die) (i : Nat) (v : Int) :
    (s.wr o d i v).rdN o d i = v.toNat := by simp [State.rdN]

/-- Two rows of the object table at different addresses. -/
def ObjDef.apart (o p : ObjDef) : Bool := o.index != p.index || o.sub != p.sub

theorem ObjDef.addr_ne {o p : ObjDef} (h : o.apart p = true) (d e : Die) (i j : Nat) : o.addr d i ≠ p.addr e j := by
  intro hc
  simp only [ObjDef.addr, ObjAddr.mk.injEq] at hc
  simp [ObjDef.apart, hc] at h

/-- A write to one row leaves every other row's objects. -/
theorem State.rd_wr_apart {o p : ObjDef} (h : o.apart p = true) (s : State) (d e : Die) (i j : Nat) (v : Int) :
    (s.wr o d i v).rd p e j = s.rd p e j := by
  rw [State.rd_wr, if_neg (ObjDef.addr_ne h d e i j)]

theorem State.rdN_wr_apart {o p : ObjDef} (h : o.apart p = true) (s : State) (d e : Die) (i j : Nat) (v : Int) :
    (s.wr o d i v).rdN p e j = s.rdN p e j := by
  simp [State.rdN, State.rd_wr_apart h]

theorem State.bit_wr_apart {o p : ObjDef} (h : o.apart p = true) (s : State) (d e : Die) (i j : Nat) (v : Int) (n : Nat) :
    (s.wr o d i v).bit p e j n = s.bit p e j n := by
  simp [State.bit, State.rdN_wr_apart h]

/-- A write to one instance leaves the others. -/
theorem State.rd_wr_inst {i j : Nat} (h : i ≠ j) (s : State) (o : ObjDef) (d e : Die) (v : Int) :
    (s.wr o d i v).rd o e j = s.rd o e j := by
  rw [State.rd_wr, if_neg (by simp [ObjDef.addr, h])]

/-- A write on one die leaves the others'. -/
theorem State.rd_wr_die {d e : Die} (h : d ≠ e) (s : State) (o : ObjDef) (i j : Nat) (v : Int) :
    (s.wr o d i v).rd o e j = s.rd o e j := by
  rw [State.rd_wr, if_neg (by simp [ObjDef.addr, h])]

@[simp] theorem State.rdBytes_wr (s : State) (o p : ObjDef) (d e : Die) (i j : Nat) (v : Int) :
    (s.wr o d i v).rdBytes p e j = s.rdBytes p e j := rfl

@[simp] theorem State.rdBytes_wrBytes_same (s : State) (o : ObjDef) (d : Die) (i : Nat) (v : List Byte) :
    (s.wrBytes o d i v).rdBytes o d i = v := by simp [State.rdBytes, State.wrBytes, mapGet_mapPut]

theorem State.rdBytes_wrBytes_apart {o p : ObjDef} (h : o.apart p = true) (s : State) (d e : Die) (i j : Nat) (v : List Byte) :
    (s.wrBytes o d i v).rdBytes p e j = s.rdBytes p e j := by
  simp [State.rdBytes, State.wrBytes, mapGet_mapPut, ObjDef.addr_ne h d e i j]

@[simp] theorem State.rd_wrBytes (s : State) (o p : ObjDef) (d e : Die) (i j : Nat) (v : List Byte) :
    (s.wrBytes o d i v).rd p e j = s.rd p e j := rfl

/-! ### What `State.wr` leaves -/

@[simp] theorem State.blobs_wr (s : State) (o : ObjDef) (d : Die) (i : Nat) (v : Int) : (s.wr o d i v).blobs = s.blobs := rfl

@[simp] theorem State.mram_wr (s : State) (o : ObjDef) (d : Die) (i : Nat) (v : Int) : (s.wr o d i v).mram = s.mram := rfl

@[simp] theorem State.ramLog_wr (s : State) (o : ObjDef) (d : Die) (i : Nat) (v : Int) : (s.wr o d i v).ramLog = s.ramLog := rfl

@[simp] theorem State.powerA_wr (s : State) (o : ObjDef) (d : Die) (i : Nat) (v : Int) : (s.wr o d i v).powerA = s.powerA := rfl

@[simp] theorem State.powerB_wr (s : State) (o : ObjDef) (d : Die) (i : Nat) (v : Int) : (s.wr o d i v).powerB = s.powerB := rfl

@[simp] theorem State.powerC_wr (s : State) (o : ObjDef) (d : Die) (i : Nat) (v : Int) : (s.wr o d i v).powerC = s.powerC := rfl

@[simp] theorem State.time_wr (s : State) (o : ObjDef) (d : Die) (i : Nat) (v : Int) : (s.wr o d i v).time = s.time := rfl

@[simp] theorem State.dieA_wr (s : State) (o : ObjDef) (d : Die) (i : Nat) (v : Int) : (s.wr o d i v).dieA = s.dieA := rfl

@[simp] theorem State.dieB_wr (s : State) (o : ObjDef) (d : Die) (i : Nat) (v : Int) : (s.wr o d i v).dieB = s.dieB := rfl

@[simp] theorem State.brownouts_wr (s : State) (o : ObjDef) (d : Die) (i : Nat) (v : Int) : (s.wr o d i v).brownouts = s.brownouts := rfl

@[simp] theorem State.twill_wr (s : State) (o : ObjDef) (d : Die) (i : Nat) (v : Int) : (s.wr o d i v).twill = s.twill := rfl

@[simp] theorem State.pair_wr (s : State) (o : ObjDef) (d : Die) (i : Nat) (v : Int) : (s.wr o d i v).pair = s.pair := rfl

@[simp] theorem State.seqHold_wr (s : State) (o : ObjDef) (d : Die) (i : Nat) (v : Int) : (s.wr o d i v).seqHold = s.seqHold := rfl

@[simp] theorem State.eqTable_wr (s : State) (o : ObjDef) (d : Die) (i : Nat) (v : Int) : (s.wr o d i v).eqTable = s.eqTable := rfl

@[simp] theorem State.vol_wr (s : State) (o : ObjDef) (d : Die) (i : Nat) (v : Int) : (s.wr o d i v).vol = s.vol := rfl

@[simp] theorem State.boot_wr (s : State) (o : ObjDef) (d : Die) (i : Nat) (v : Int) : (s.wr o d i v).boot = s.boot := rfl

@[simp] theorem State.sec_wr (s : State) (o : ObjDef) (d : Die) (i : Nat) (v : Int) : (s.wr o d i v).sec = s.sec := rfl

@[simp] theorem State.trans_wr (s : State) (o : ObjDef) (d : Die) (i : Nat) (v : Int) : (s.wr o d i v).trans = s.trans := rfl

@[simp] theorem State.recov_wr (s : State) (o : ObjDef) (d : Die) (i : Nat) (v : Int) : (s.wr o d i v).recov = s.recov := rfl

@[simp] theorem State.answer_wr (s : State) (o : ObjDef) (d : Die) (i : Nat) (v : Int) : (s.wr o d i v).answer = s.answer := rfl

@[simp] theorem State.sent_wr (s : State) (o : ObjDef) (d : Die) (i : Nat) (v : Int) : (s.wr o d i v).sent = s.sent := rfl

@[simp] theorem State.freeCtr_wr (s : State) (o : ObjDef) (d : Die) (i : Nat) (v : Int) : (s.wr o d i v).freeCtr = s.freeCtr := rfl

@[simp] theorem State.pending_wr (s : State) (o : ObjDef) (d : Die) (i : Nat) (v : Int) : (s.wr o d i v).pending = s.pending := rfl


/-! ### What `State.wrBytes` leaves -/

@[simp] theorem State.objs_wrBytes (s : State) (o : ObjDef) (d : Die) (i : Nat) (v : List Byte) : (s.wrBytes o d i v).objs = s.objs := rfl

@[simp] theorem State.mram_wrBytes (s : State) (o : ObjDef) (d : Die) (i : Nat) (v : List Byte) : (s.wrBytes o d i v).mram = s.mram := rfl

@[simp] theorem State.ramLog_wrBytes (s : State) (o : ObjDef) (d : Die) (i : Nat) (v : List Byte) : (s.wrBytes o d i v).ramLog = s.ramLog := rfl

@[simp] theorem State.powerA_wrBytes (s : State) (o : ObjDef) (d : Die) (i : Nat) (v : List Byte) : (s.wrBytes o d i v).powerA = s.powerA := rfl

@[simp] theorem State.powerB_wrBytes (s : State) (o : ObjDef) (d : Die) (i : Nat) (v : List Byte) : (s.wrBytes o d i v).powerB = s.powerB := rfl

@[simp] theorem State.powerC_wrBytes (s : State) (o : ObjDef) (d : Die) (i : Nat) (v : List Byte) : (s.wrBytes o d i v).powerC = s.powerC := rfl

@[simp] theorem State.time_wrBytes (s : State) (o : ObjDef) (d : Die) (i : Nat) (v : List Byte) : (s.wrBytes o d i v).time = s.time := rfl

@[simp] theorem State.dieA_wrBytes (s : State) (o : ObjDef) (d : Die) (i : Nat) (v : List Byte) : (s.wrBytes o d i v).dieA = s.dieA := rfl

@[simp] theorem State.dieB_wrBytes (s : State) (o : ObjDef) (d : Die) (i : Nat) (v : List Byte) : (s.wrBytes o d i v).dieB = s.dieB := rfl

@[simp] theorem State.brownouts_wrBytes (s : State) (o : ObjDef) (d : Die) (i : Nat) (v : List Byte) : (s.wrBytes o d i v).brownouts = s.brownouts := rfl

@[simp] theorem State.twill_wrBytes (s : State) (o : ObjDef) (d : Die) (i : Nat) (v : List Byte) : (s.wrBytes o d i v).twill = s.twill := rfl

@[simp] theorem State.pair_wrBytes (s : State) (o : ObjDef) (d : Die) (i : Nat) (v : List Byte) : (s.wrBytes o d i v).pair = s.pair := rfl

@[simp] theorem State.seqHold_wrBytes (s : State) (o : ObjDef) (d : Die) (i : Nat) (v : List Byte) : (s.wrBytes o d i v).seqHold = s.seqHold := rfl

@[simp] theorem State.eqTable_wrBytes (s : State) (o : ObjDef) (d : Die) (i : Nat) (v : List Byte) : (s.wrBytes o d i v).eqTable = s.eqTable := rfl

@[simp] theorem State.vol_wrBytes (s : State) (o : ObjDef) (d : Die) (i : Nat) (v : List Byte) : (s.wrBytes o d i v).vol = s.vol := rfl

@[simp] theorem State.boot_wrBytes (s : State) (o : ObjDef) (d : Die) (i : Nat) (v : List Byte) : (s.wrBytes o d i v).boot = s.boot := rfl

@[simp] theorem State.sec_wrBytes (s : State) (o : ObjDef) (d : Die) (i : Nat) (v : List Byte) : (s.wrBytes o d i v).sec = s.sec := rfl

@[simp] theorem State.trans_wrBytes (s : State) (o : ObjDef) (d : Die) (i : Nat) (v : List Byte) : (s.wrBytes o d i v).trans = s.trans := rfl

@[simp] theorem State.recov_wrBytes (s : State) (o : ObjDef) (d : Die) (i : Nat) (v : List Byte) : (s.wrBytes o d i v).recov = s.recov := rfl

@[simp] theorem State.answer_wrBytes (s : State) (o : ObjDef) (d : Die) (i : Nat) (v : List Byte) : (s.wrBytes o d i v).answer = s.answer := rfl

@[simp] theorem State.sent_wrBytes (s : State) (o : ObjDef) (d : Die) (i : Nat) (v : List Byte) : (s.wrBytes o d i v).sent = s.sent := rfl

@[simp] theorem State.freeCtr_wrBytes (s : State) (o : ObjDef) (d : Die) (i : Nat) (v : List Byte) : (s.wrBytes o d i v).freeCtr = s.freeCtr := rfl

@[simp] theorem State.pending_wrBytes (s : State) (o : ObjDef) (d : Die) (i : Nat) (v : List Byte) : (s.wrBytes o d i v).pending = s.pending := rfl


/-! ### What `State.putBit` leaves -/

@[simp] theorem State.blobs_putBit (s : State) (o : ObjDef) (d : Die) (i n : Nat) (b : Bool) : (s.putBit o d i n b).blobs = s.blobs := rfl

@[simp] theorem State.mram_putBit (s : State) (o : ObjDef) (d : Die) (i n : Nat) (b : Bool) : (s.putBit o d i n b).mram = s.mram := rfl

@[simp] theorem State.ramLog_putBit (s : State) (o : ObjDef) (d : Die) (i n : Nat) (b : Bool) : (s.putBit o d i n b).ramLog = s.ramLog := rfl

@[simp] theorem State.powerA_putBit (s : State) (o : ObjDef) (d : Die) (i n : Nat) (b : Bool) : (s.putBit o d i n b).powerA = s.powerA := rfl

@[simp] theorem State.powerB_putBit (s : State) (o : ObjDef) (d : Die) (i n : Nat) (b : Bool) : (s.putBit o d i n b).powerB = s.powerB := rfl

@[simp] theorem State.powerC_putBit (s : State) (o : ObjDef) (d : Die) (i n : Nat) (b : Bool) : (s.putBit o d i n b).powerC = s.powerC := rfl

@[simp] theorem State.time_putBit (s : State) (o : ObjDef) (d : Die) (i n : Nat) (b : Bool) : (s.putBit o d i n b).time = s.time := rfl

@[simp] theorem State.dieA_putBit (s : State) (o : ObjDef) (d : Die) (i n : Nat) (b : Bool) : (s.putBit o d i n b).dieA = s.dieA := rfl

@[simp] theorem State.dieB_putBit (s : State) (o : ObjDef) (d : Die) (i n : Nat) (b : Bool) : (s.putBit o d i n b).dieB = s.dieB := rfl

@[simp] theorem State.brownouts_putBit (s : State) (o : ObjDef) (d : Die) (i n : Nat) (b : Bool) : (s.putBit o d i n b).brownouts = s.brownouts := rfl

@[simp] theorem State.twill_putBit (s : State) (o : ObjDef) (d : Die) (i n : Nat) (b : Bool) : (s.putBit o d i n b).twill = s.twill := rfl

@[simp] theorem State.pair_putBit (s : State) (o : ObjDef) (d : Die) (i n : Nat) (b : Bool) : (s.putBit o d i n b).pair = s.pair := rfl

@[simp] theorem State.seqHold_putBit (s : State) (o : ObjDef) (d : Die) (i n : Nat) (b : Bool) : (s.putBit o d i n b).seqHold = s.seqHold := rfl

@[simp] theorem State.eqTable_putBit (s : State) (o : ObjDef) (d : Die) (i n : Nat) (b : Bool) : (s.putBit o d i n b).eqTable = s.eqTable := rfl

@[simp] theorem State.vol_putBit (s : State) (o : ObjDef) (d : Die) (i n : Nat) (b : Bool) : (s.putBit o d i n b).vol = s.vol := rfl

@[simp] theorem State.boot_putBit (s : State) (o : ObjDef) (d : Die) (i n : Nat) (b : Bool) : (s.putBit o d i n b).boot = s.boot := rfl

@[simp] theorem State.sec_putBit (s : State) (o : ObjDef) (d : Die) (i n : Nat) (b : Bool) : (s.putBit o d i n b).sec = s.sec := rfl

@[simp] theorem State.trans_putBit (s : State) (o : ObjDef) (d : Die) (i n : Nat) (b : Bool) : (s.putBit o d i n b).trans = s.trans := rfl

@[simp] theorem State.recov_putBit (s : State) (o : ObjDef) (d : Die) (i n : Nat) (b : Bool) : (s.putBit o d i n b).recov = s.recov := rfl

@[simp] theorem State.answer_putBit (s : State) (o : ObjDef) (d : Die) (i n : Nat) (b : Bool) : (s.putBit o d i n b).answer = s.answer := rfl

@[simp] theorem State.sent_putBit (s : State) (o : ObjDef) (d : Die) (i n : Nat) (b : Bool) : (s.putBit o d i n b).sent = s.sent := rfl

@[simp] theorem State.freeCtr_putBit (s : State) (o : ObjDef) (d : Die) (i n : Nat) (b : Bool) : (s.putBit o d i n b).freeCtr = s.freeCtr := rfl

@[simp] theorem State.pending_putBit (s : State) (o : ObjDef) (d : Die) (i n : Nat) (b : Bool) : (s.putBit o d i n b).pending = s.pending := rfl


/-! ### What `State.setBit` leaves -/

@[simp] theorem State.blobs_setBit (s : State) (o : ObjDef) (d : Die) (i n : Nat) : (s.setBit o d i n).blobs = s.blobs := rfl

@[simp] theorem State.mram_setBit (s : State) (o : ObjDef) (d : Die) (i n : Nat) : (s.setBit o d i n).mram = s.mram := rfl

@[simp] theorem State.ramLog_setBit (s : State) (o : ObjDef) (d : Die) (i n : Nat) : (s.setBit o d i n).ramLog = s.ramLog := rfl

@[simp] theorem State.powerA_setBit (s : State) (o : ObjDef) (d : Die) (i n : Nat) : (s.setBit o d i n).powerA = s.powerA := rfl

@[simp] theorem State.powerB_setBit (s : State) (o : ObjDef) (d : Die) (i n : Nat) : (s.setBit o d i n).powerB = s.powerB := rfl

@[simp] theorem State.powerC_setBit (s : State) (o : ObjDef) (d : Die) (i n : Nat) : (s.setBit o d i n).powerC = s.powerC := rfl

@[simp] theorem State.time_setBit (s : State) (o : ObjDef) (d : Die) (i n : Nat) : (s.setBit o d i n).time = s.time := rfl

@[simp] theorem State.dieA_setBit (s : State) (o : ObjDef) (d : Die) (i n : Nat) : (s.setBit o d i n).dieA = s.dieA := rfl

@[simp] theorem State.dieB_setBit (s : State) (o : ObjDef) (d : Die) (i n : Nat) : (s.setBit o d i n).dieB = s.dieB := rfl

@[simp] theorem State.brownouts_setBit (s : State) (o : ObjDef) (d : Die) (i n : Nat) : (s.setBit o d i n).brownouts = s.brownouts := rfl

@[simp] theorem State.twill_setBit (s : State) (o : ObjDef) (d : Die) (i n : Nat) : (s.setBit o d i n).twill = s.twill := rfl

@[simp] theorem State.pair_setBit (s : State) (o : ObjDef) (d : Die) (i n : Nat) : (s.setBit o d i n).pair = s.pair := rfl

@[simp] theorem State.seqHold_setBit (s : State) (o : ObjDef) (d : Die) (i n : Nat) : (s.setBit o d i n).seqHold = s.seqHold := rfl

@[simp] theorem State.eqTable_setBit (s : State) (o : ObjDef) (d : Die) (i n : Nat) : (s.setBit o d i n).eqTable = s.eqTable := rfl

@[simp] theorem State.vol_setBit (s : State) (o : ObjDef) (d : Die) (i n : Nat) : (s.setBit o d i n).vol = s.vol := rfl

@[simp] theorem State.boot_setBit (s : State) (o : ObjDef) (d : Die) (i n : Nat) : (s.setBit o d i n).boot = s.boot := rfl

@[simp] theorem State.sec_setBit (s : State) (o : ObjDef) (d : Die) (i n : Nat) : (s.setBit o d i n).sec = s.sec := rfl

@[simp] theorem State.trans_setBit (s : State) (o : ObjDef) (d : Die) (i n : Nat) : (s.setBit o d i n).trans = s.trans := rfl

@[simp] theorem State.recov_setBit (s : State) (o : ObjDef) (d : Die) (i n : Nat) : (s.setBit o d i n).recov = s.recov := rfl

@[simp] theorem State.answer_setBit (s : State) (o : ObjDef) (d : Die) (i n : Nat) : (s.setBit o d i n).answer = s.answer := rfl

@[simp] theorem State.sent_setBit (s : State) (o : ObjDef) (d : Die) (i n : Nat) : (s.setBit o d i n).sent = s.sent := rfl

@[simp] theorem State.freeCtr_setBit (s : State) (o : ObjDef) (d : Die) (i n : Nat) : (s.setBit o d i n).freeCtr = s.freeCtr := rfl

@[simp] theorem State.pending_setBit (s : State) (o : ObjDef) (d : Die) (i n : Nat) : (s.setBit o d i n).pending = s.pending := rfl


/-! ### What `State.clrBit` leaves -/

@[simp] theorem State.blobs_clrBit (s : State) (o : ObjDef) (d : Die) (i n : Nat) : (s.clrBit o d i n).blobs = s.blobs := rfl

@[simp] theorem State.mram_clrBit (s : State) (o : ObjDef) (d : Die) (i n : Nat) : (s.clrBit o d i n).mram = s.mram := rfl

@[simp] theorem State.ramLog_clrBit (s : State) (o : ObjDef) (d : Die) (i n : Nat) : (s.clrBit o d i n).ramLog = s.ramLog := rfl

@[simp] theorem State.powerA_clrBit (s : State) (o : ObjDef) (d : Die) (i n : Nat) : (s.clrBit o d i n).powerA = s.powerA := rfl

@[simp] theorem State.powerB_clrBit (s : State) (o : ObjDef) (d : Die) (i n : Nat) : (s.clrBit o d i n).powerB = s.powerB := rfl

@[simp] theorem State.powerC_clrBit (s : State) (o : ObjDef) (d : Die) (i n : Nat) : (s.clrBit o d i n).powerC = s.powerC := rfl

@[simp] theorem State.time_clrBit (s : State) (o : ObjDef) (d : Die) (i n : Nat) : (s.clrBit o d i n).time = s.time := rfl

@[simp] theorem State.dieA_clrBit (s : State) (o : ObjDef) (d : Die) (i n : Nat) : (s.clrBit o d i n).dieA = s.dieA := rfl

@[simp] theorem State.dieB_clrBit (s : State) (o : ObjDef) (d : Die) (i n : Nat) : (s.clrBit o d i n).dieB = s.dieB := rfl

@[simp] theorem State.brownouts_clrBit (s : State) (o : ObjDef) (d : Die) (i n : Nat) : (s.clrBit o d i n).brownouts = s.brownouts := rfl

@[simp] theorem State.twill_clrBit (s : State) (o : ObjDef) (d : Die) (i n : Nat) : (s.clrBit o d i n).twill = s.twill := rfl

@[simp] theorem State.pair_clrBit (s : State) (o : ObjDef) (d : Die) (i n : Nat) : (s.clrBit o d i n).pair = s.pair := rfl

@[simp] theorem State.seqHold_clrBit (s : State) (o : ObjDef) (d : Die) (i n : Nat) : (s.clrBit o d i n).seqHold = s.seqHold := rfl

@[simp] theorem State.eqTable_clrBit (s : State) (o : ObjDef) (d : Die) (i n : Nat) : (s.clrBit o d i n).eqTable = s.eqTable := rfl

@[simp] theorem State.vol_clrBit (s : State) (o : ObjDef) (d : Die) (i n : Nat) : (s.clrBit o d i n).vol = s.vol := rfl

@[simp] theorem State.boot_clrBit (s : State) (o : ObjDef) (d : Die) (i n : Nat) : (s.clrBit o d i n).boot = s.boot := rfl

@[simp] theorem State.sec_clrBit (s : State) (o : ObjDef) (d : Die) (i n : Nat) : (s.clrBit o d i n).sec = s.sec := rfl

@[simp] theorem State.trans_clrBit (s : State) (o : ObjDef) (d : Die) (i n : Nat) : (s.clrBit o d i n).trans = s.trans := rfl

@[simp] theorem State.recov_clrBit (s : State) (o : ObjDef) (d : Die) (i n : Nat) : (s.clrBit o d i n).recov = s.recov := rfl

@[simp] theorem State.answer_clrBit (s : State) (o : ObjDef) (d : Die) (i n : Nat) : (s.clrBit o d i n).answer = s.answer := rfl

@[simp] theorem State.sent_clrBit (s : State) (o : ObjDef) (d : Die) (i n : Nat) : (s.clrBit o d i n).sent = s.sent := rfl

@[simp] theorem State.freeCtr_clrBit (s : State) (o : ObjDef) (d : Die) (i n : Nat) : (s.clrBit o d i n).freeCtr = s.freeCtr := rfl

@[simp] theorem State.pending_clrBit (s : State) (o : ObjDef) (d : Die) (i n : Nat) : (s.clrBit o d i n).pending = s.pending := rfl


/-! ### What `State.addCount` leaves -/

@[simp] theorem State.blobs_addCount (s : State) (o : ObjDef) (d : Die) (i n : Nat) : (s.addCount o d i n).blobs = s.blobs := rfl

@[simp] theorem State.mram_addCount (s : State) (o : ObjDef) (d : Die) (i n : Nat) : (s.addCount o d i n).mram = s.mram := rfl

@[simp] theorem State.ramLog_addCount (s : State) (o : ObjDef) (d : Die) (i n : Nat) : (s.addCount o d i n).ramLog = s.ramLog := rfl

@[simp] theorem State.powerA_addCount (s : State) (o : ObjDef) (d : Die) (i n : Nat) : (s.addCount o d i n).powerA = s.powerA := rfl

@[simp] theorem State.powerB_addCount (s : State) (o : ObjDef) (d : Die) (i n : Nat) : (s.addCount o d i n).powerB = s.powerB := rfl

@[simp] theorem State.powerC_addCount (s : State) (o : ObjDef) (d : Die) (i n : Nat) : (s.addCount o d i n).powerC = s.powerC := rfl

@[simp] theorem State.time_addCount (s : State) (o : ObjDef) (d : Die) (i n : Nat) : (s.addCount o d i n).time = s.time := rfl

@[simp] theorem State.dieA_addCount (s : State) (o : ObjDef) (d : Die) (i n : Nat) : (s.addCount o d i n).dieA = s.dieA := rfl

@[simp] theorem State.dieB_addCount (s : State) (o : ObjDef) (d : Die) (i n : Nat) : (s.addCount o d i n).dieB = s.dieB := rfl

@[simp] theorem State.brownouts_addCount (s : State) (o : ObjDef) (d : Die) (i n : Nat) : (s.addCount o d i n).brownouts = s.brownouts := rfl

@[simp] theorem State.twill_addCount (s : State) (o : ObjDef) (d : Die) (i n : Nat) : (s.addCount o d i n).twill = s.twill := rfl

@[simp] theorem State.pair_addCount (s : State) (o : ObjDef) (d : Die) (i n : Nat) : (s.addCount o d i n).pair = s.pair := rfl

@[simp] theorem State.seqHold_addCount (s : State) (o : ObjDef) (d : Die) (i n : Nat) : (s.addCount o d i n).seqHold = s.seqHold := rfl

@[simp] theorem State.eqTable_addCount (s : State) (o : ObjDef) (d : Die) (i n : Nat) : (s.addCount o d i n).eqTable = s.eqTable := rfl

@[simp] theorem State.vol_addCount (s : State) (o : ObjDef) (d : Die) (i n : Nat) : (s.addCount o d i n).vol = s.vol := rfl

@[simp] theorem State.boot_addCount (s : State) (o : ObjDef) (d : Die) (i n : Nat) : (s.addCount o d i n).boot = s.boot := rfl

@[simp] theorem State.sec_addCount (s : State) (o : ObjDef) (d : Die) (i n : Nat) : (s.addCount o d i n).sec = s.sec := rfl

@[simp] theorem State.trans_addCount (s : State) (o : ObjDef) (d : Die) (i n : Nat) : (s.addCount o d i n).trans = s.trans := rfl

@[simp] theorem State.recov_addCount (s : State) (o : ObjDef) (d : Die) (i n : Nat) : (s.addCount o d i n).recov = s.recov := rfl

@[simp] theorem State.answer_addCount (s : State) (o : ObjDef) (d : Die) (i n : Nat) : (s.addCount o d i n).answer = s.answer := rfl

@[simp] theorem State.sent_addCount (s : State) (o : ObjDef) (d : Die) (i n : Nat) : (s.addCount o d i n).sent = s.sent := rfl

@[simp] theorem State.freeCtr_addCount (s : State) (o : ObjDef) (d : Die) (i n : Nat) : (s.addCount o d i n).freeCtr = s.freeCtr := rfl

@[simp] theorem State.pending_addCount (s : State) (o : ObjDef) (d : Die) (i n : Nat) : (s.addCount o d i n).pending = s.pending := rfl


/-! ### What `State.bump` leaves -/

@[simp] theorem State.blobs_bump (s : State) (o : ObjDef) (d : Die) (i : Nat) : (s.bump o d i).blobs = s.blobs := rfl

@[simp] theorem State.mram_bump (s : State) (o : ObjDef) (d : Die) (i : Nat) : (s.bump o d i).mram = s.mram := rfl

@[simp] theorem State.ramLog_bump (s : State) (o : ObjDef) (d : Die) (i : Nat) : (s.bump o d i).ramLog = s.ramLog := rfl

@[simp] theorem State.powerA_bump (s : State) (o : ObjDef) (d : Die) (i : Nat) : (s.bump o d i).powerA = s.powerA := rfl

@[simp] theorem State.powerB_bump (s : State) (o : ObjDef) (d : Die) (i : Nat) : (s.bump o d i).powerB = s.powerB := rfl

@[simp] theorem State.powerC_bump (s : State) (o : ObjDef) (d : Die) (i : Nat) : (s.bump o d i).powerC = s.powerC := rfl

@[simp] theorem State.time_bump (s : State) (o : ObjDef) (d : Die) (i : Nat) : (s.bump o d i).time = s.time := rfl

@[simp] theorem State.dieA_bump (s : State) (o : ObjDef) (d : Die) (i : Nat) : (s.bump o d i).dieA = s.dieA := rfl

@[simp] theorem State.dieB_bump (s : State) (o : ObjDef) (d : Die) (i : Nat) : (s.bump o d i).dieB = s.dieB := rfl

@[simp] theorem State.brownouts_bump (s : State) (o : ObjDef) (d : Die) (i : Nat) : (s.bump o d i).brownouts = s.brownouts := rfl

@[simp] theorem State.twill_bump (s : State) (o : ObjDef) (d : Die) (i : Nat) : (s.bump o d i).twill = s.twill := rfl

@[simp] theorem State.pair_bump (s : State) (o : ObjDef) (d : Die) (i : Nat) : (s.bump o d i).pair = s.pair := rfl

@[simp] theorem State.seqHold_bump (s : State) (o : ObjDef) (d : Die) (i : Nat) : (s.bump o d i).seqHold = s.seqHold := rfl

@[simp] theorem State.eqTable_bump (s : State) (o : ObjDef) (d : Die) (i : Nat) : (s.bump o d i).eqTable = s.eqTable := rfl

@[simp] theorem State.vol_bump (s : State) (o : ObjDef) (d : Die) (i : Nat) : (s.bump o d i).vol = s.vol := rfl

@[simp] theorem State.boot_bump (s : State) (o : ObjDef) (d : Die) (i : Nat) : (s.bump o d i).boot = s.boot := rfl

@[simp] theorem State.sec_bump (s : State) (o : ObjDef) (d : Die) (i : Nat) : (s.bump o d i).sec = s.sec := rfl

@[simp] theorem State.trans_bump (s : State) (o : ObjDef) (d : Die) (i : Nat) : (s.bump o d i).trans = s.trans := rfl

@[simp] theorem State.recov_bump (s : State) (o : ObjDef) (d : Die) (i : Nat) : (s.bump o d i).recov = s.recov := rfl

@[simp] theorem State.answer_bump (s : State) (o : ObjDef) (d : Die) (i : Nat) : (s.bump o d i).answer = s.answer := rfl

@[simp] theorem State.sent_bump (s : State) (o : ObjDef) (d : Die) (i : Nat) : (s.bump o d i).sent = s.sent := rfl

@[simp] theorem State.freeCtr_bump (s : State) (o : ObjDef) (d : Die) (i : Nat) : (s.bump o d i).freeCtr = s.freeCtr := rfl

@[simp] theorem State.pending_bump (s : State) (o : ObjDef) (d : Die) (i : Nat) : (s.bump o d i).pending = s.pending := rfl


/-! ### What `State.setMode` leaves -/

@[simp] theorem State.blobs_setMode (s : State) (m : Mode) : (s.setMode m).blobs = s.blobs := rfl

@[simp] theorem State.mram_setMode (s : State) (m : Mode) : (s.setMode m).mram = s.mram := rfl

@[simp] theorem State.ramLog_setMode (s : State) (m : Mode) : (s.setMode m).ramLog = s.ramLog := rfl

@[simp] theorem State.powerA_setMode (s : State) (m : Mode) : (s.setMode m).powerA = s.powerA := rfl

@[simp] theorem State.powerB_setMode (s : State) (m : Mode) : (s.setMode m).powerB = s.powerB := rfl

@[simp] theorem State.powerC_setMode (s : State) (m : Mode) : (s.setMode m).powerC = s.powerC := rfl

@[simp] theorem State.time_setMode (s : State) (m : Mode) : (s.setMode m).time = s.time := rfl

@[simp] theorem State.dieA_setMode (s : State) (m : Mode) : (s.setMode m).dieA = s.dieA := rfl

@[simp] theorem State.dieB_setMode (s : State) (m : Mode) : (s.setMode m).dieB = s.dieB := rfl

@[simp] theorem State.brownouts_setMode (s : State) (m : Mode) : (s.setMode m).brownouts = s.brownouts := rfl

@[simp] theorem State.twill_setMode (s : State) (m : Mode) : (s.setMode m).twill = s.twill := rfl

@[simp] theorem State.pair_setMode (s : State) (m : Mode) : (s.setMode m).pair = s.pair := rfl

@[simp] theorem State.seqHold_setMode (s : State) (m : Mode) : (s.setMode m).seqHold = s.seqHold := rfl

@[simp] theorem State.eqTable_setMode (s : State) (m : Mode) : (s.setMode m).eqTable = s.eqTable := rfl

@[simp] theorem State.vol_setMode (s : State) (m : Mode) : (s.setMode m).vol = s.vol := rfl

@[simp] theorem State.boot_setMode (s : State) (m : Mode) : (s.setMode m).boot = s.boot := rfl

@[simp] theorem State.sec_setMode (s : State) (m : Mode) : (s.setMode m).sec = s.sec := rfl

@[simp] theorem State.trans_setMode (s : State) (m : Mode) : (s.setMode m).trans = s.trans := rfl

@[simp] theorem State.recov_setMode (s : State) (m : Mode) : (s.setMode m).recov = s.recov := rfl

@[simp] theorem State.answer_setMode (s : State) (m : Mode) : (s.setMode m).answer = s.answer := rfl

@[simp] theorem State.sent_setMode (s : State) (m : Mode) : (s.setMode m).sent = s.sent := rfl

@[simp] theorem State.freeCtr_setMode (s : State) (m : Mode) : (s.setMode m).freeCtr = s.freeCtr := rfl

@[simp] theorem State.pending_setMode (s : State) (m : Mode) : (s.setMode m).pending = s.pending := rfl


/-! ### What `State.send` leaves -/

@[simp] theorem State.objs_send (s : State) (o : Sent) : (s.send o).objs = s.objs := rfl

@[simp] theorem State.blobs_send (s : State) (o : Sent) : (s.send o).blobs = s.blobs := rfl

@[simp] theorem State.mram_send (s : State) (o : Sent) : (s.send o).mram = s.mram := rfl

@[simp] theorem State.ramLog_send (s : State) (o : Sent) : (s.send o).ramLog = s.ramLog := rfl

@[simp] theorem State.powerA_send (s : State) (o : Sent) : (s.send o).powerA = s.powerA := rfl

@[simp] theorem State.powerB_send (s : State) (o : Sent) : (s.send o).powerB = s.powerB := rfl

@[simp] theorem State.powerC_send (s : State) (o : Sent) : (s.send o).powerC = s.powerC := rfl

@[simp] theorem State.time_send (s : State) (o : Sent) : (s.send o).time = s.time := rfl

@[simp] theorem State.dieA_send (s : State) (o : Sent) : (s.send o).dieA = s.dieA := rfl

@[simp] theorem State.dieB_send (s : State) (o : Sent) : (s.send o).dieB = s.dieB := rfl

@[simp] theorem State.brownouts_send (s : State) (o : Sent) : (s.send o).brownouts = s.brownouts := rfl

@[simp] theorem State.twill_send (s : State) (o : Sent) : (s.send o).twill = s.twill := rfl

@[simp] theorem State.pair_send (s : State) (o : Sent) : (s.send o).pair = s.pair := rfl

@[simp] theorem State.seqHold_send (s : State) (o : Sent) : (s.send o).seqHold = s.seqHold := rfl

@[simp] theorem State.eqTable_send (s : State) (o : Sent) : (s.send o).eqTable = s.eqTable := rfl

@[simp] theorem State.vol_send (s : State) (o : Sent) : (s.send o).vol = s.vol := rfl

@[simp] theorem State.boot_send (s : State) (o : Sent) : (s.send o).boot = s.boot := rfl

@[simp] theorem State.sec_send (s : State) (o : Sent) : (s.send o).sec = s.sec := rfl

@[simp] theorem State.trans_send (s : State) (o : Sent) : (s.send o).trans = s.trans := rfl

@[simp] theorem State.recov_send (s : State) (o : Sent) : (s.send o).recov = s.recov := rfl

@[simp] theorem State.answer_send (s : State) (o : Sent) : (s.send o).answer = s.answer := rfl

@[simp] theorem State.freeCtr_send (s : State) (o : Sent) : (s.send o).freeCtr = s.freeCtr := rfl

@[simp] theorem State.pending_send (s : State) (o : Sent) : (s.send o).pending = s.pending := rfl


/-! ### What `State.persistNum` leaves -/

@[simp] theorem State.blobs_persistNum (s : State) (o : ObjDef) (d : Die) (i : Nat) (v : Int) : (s.persistNum o d i v).blobs = s.blobs := rfl

@[simp] theorem State.ramLog_persistNum (s : State) (o : ObjDef) (d : Die) (i : Nat) (v : Int) : (s.persistNum o d i v).ramLog = s.ramLog := rfl

@[simp] theorem State.powerA_persistNum (s : State) (o : ObjDef) (d : Die) (i : Nat) (v : Int) : (s.persistNum o d i v).powerA = s.powerA := rfl

@[simp] theorem State.powerB_persistNum (s : State) (o : ObjDef) (d : Die) (i : Nat) (v : Int) : (s.persistNum o d i v).powerB = s.powerB := rfl

@[simp] theorem State.powerC_persistNum (s : State) (o : ObjDef) (d : Die) (i : Nat) (v : Int) : (s.persistNum o d i v).powerC = s.powerC := rfl

@[simp] theorem State.time_persistNum (s : State) (o : ObjDef) (d : Die) (i : Nat) (v : Int) : (s.persistNum o d i v).time = s.time := rfl

@[simp] theorem State.dieA_persistNum (s : State) (o : ObjDef) (d : Die) (i : Nat) (v : Int) : (s.persistNum o d i v).dieA = s.dieA := rfl

@[simp] theorem State.dieB_persistNum (s : State) (o : ObjDef) (d : Die) (i : Nat) (v : Int) : (s.persistNum o d i v).dieB = s.dieB := rfl

@[simp] theorem State.brownouts_persistNum (s : State) (o : ObjDef) (d : Die) (i : Nat) (v : Int) : (s.persistNum o d i v).brownouts = s.brownouts := rfl

@[simp] theorem State.twill_persistNum (s : State) (o : ObjDef) (d : Die) (i : Nat) (v : Int) : (s.persistNum o d i v).twill = s.twill := rfl

@[simp] theorem State.pair_persistNum (s : State) (o : ObjDef) (d : Die) (i : Nat) (v : Int) : (s.persistNum o d i v).pair = s.pair := rfl

@[simp] theorem State.seqHold_persistNum (s : State) (o : ObjDef) (d : Die) (i : Nat) (v : Int) : (s.persistNum o d i v).seqHold = s.seqHold := rfl

@[simp] theorem State.eqTable_persistNum (s : State) (o : ObjDef) (d : Die) (i : Nat) (v : Int) : (s.persistNum o d i v).eqTable = s.eqTable := rfl

@[simp] theorem State.vol_persistNum (s : State) (o : ObjDef) (d : Die) (i : Nat) (v : Int) : (s.persistNum o d i v).vol = s.vol := rfl

@[simp] theorem State.boot_persistNum (s : State) (o : ObjDef) (d : Die) (i : Nat) (v : Int) : (s.persistNum o d i v).boot = s.boot := rfl

@[simp] theorem State.sec_persistNum (s : State) (o : ObjDef) (d : Die) (i : Nat) (v : Int) : (s.persistNum o d i v).sec = s.sec := rfl

@[simp] theorem State.trans_persistNum (s : State) (o : ObjDef) (d : Die) (i : Nat) (v : Int) : (s.persistNum o d i v).trans = s.trans := rfl

@[simp] theorem State.recov_persistNum (s : State) (o : ObjDef) (d : Die) (i : Nat) (v : Int) : (s.persistNum o d i v).recov = s.recov := rfl

@[simp] theorem State.answer_persistNum (s : State) (o : ObjDef) (d : Die) (i : Nat) (v : Int) : (s.persistNum o d i v).answer = s.answer := rfl

@[simp] theorem State.sent_persistNum (s : State) (o : ObjDef) (d : Die) (i : Nat) (v : Int) : (s.persistNum o d i v).sent = s.sent := rfl

@[simp] theorem State.freeCtr_persistNum (s : State) (o : ObjDef) (d : Die) (i : Nat) (v : Int) : (s.persistNum o d i v).freeCtr = s.freeCtr := rfl

@[simp] theorem State.pending_persistNum (s : State) (o : ObjDef) (d : Die) (i : Nat) (v : Int) : (s.persistNum o d i v).pending = s.pending := rfl


/-! ### What `State.logRecord` leaves -/

@[simp] theorem State.blobs_logRecord (s : State) (r : EventRec) : (s.logRecord r).blobs = s.blobs := by
  simp only [State.logRecord]; split <;> rfl

@[simp] theorem State.powerA_logRecord (s : State) (r : EventRec) : (s.logRecord r).powerA = s.powerA := by
  simp only [State.logRecord]; split <;> rfl

@[simp] theorem State.powerB_logRecord (s : State) (r : EventRec) : (s.logRecord r).powerB = s.powerB := by
  simp only [State.logRecord]; split <;> rfl

@[simp] theorem State.powerC_logRecord (s : State) (r : EventRec) : (s.logRecord r).powerC = s.powerC := by
  simp only [State.logRecord]; split <;> rfl

@[simp] theorem State.time_logRecord (s : State) (r : EventRec) : (s.logRecord r).time = s.time := by
  simp only [State.logRecord]; split <;> rfl

@[simp] theorem State.dieA_logRecord (s : State) (r : EventRec) : (s.logRecord r).dieA = s.dieA := by
  simp only [State.logRecord]; split <;> rfl

@[simp] theorem State.dieB_logRecord (s : State) (r : EventRec) : (s.logRecord r).dieB = s.dieB := by
  simp only [State.logRecord]; split <;> rfl

@[simp] theorem State.brownouts_logRecord (s : State) (r : EventRec) : (s.logRecord r).brownouts = s.brownouts := by
  simp only [State.logRecord]; split <;> rfl

@[simp] theorem State.twill_logRecord (s : State) (r : EventRec) : (s.logRecord r).twill = s.twill := by
  simp only [State.logRecord]; split <;> rfl

@[simp] theorem State.pair_logRecord (s : State) (r : EventRec) : (s.logRecord r).pair = s.pair := by
  simp only [State.logRecord]; split <;> rfl

@[simp] theorem State.seqHold_logRecord (s : State) (r : EventRec) : (s.logRecord r).seqHold = s.seqHold := by
  simp only [State.logRecord]; split <;> rfl

@[simp] theorem State.eqTable_logRecord (s : State) (r : EventRec) : (s.logRecord r).eqTable = s.eqTable := by
  simp only [State.logRecord]; split <;> rfl

@[simp] theorem State.vol_logRecord (s : State) (r : EventRec) : (s.logRecord r).vol = s.vol := by
  simp only [State.logRecord]; split <;> rfl

@[simp] theorem State.boot_logRecord (s : State) (r : EventRec) : (s.logRecord r).boot = s.boot := by
  simp only [State.logRecord]; split <;> rfl

@[simp] theorem State.sec_logRecord (s : State) (r : EventRec) : (s.logRecord r).sec = s.sec := by
  simp only [State.logRecord]; split <;> rfl

@[simp] theorem State.trans_logRecord (s : State) (r : EventRec) : (s.logRecord r).trans = s.trans := by
  simp only [State.logRecord]; split <;> rfl

@[simp] theorem State.recov_logRecord (s : State) (r : EventRec) : (s.logRecord r).recov = s.recov := by
  simp only [State.logRecord]; split <;> rfl

@[simp] theorem State.answer_logRecord (s : State) (r : EventRec) : (s.logRecord r).answer = s.answer := by
  simp only [State.logRecord]; split <;> rfl

@[simp] theorem State.sent_logRecord (s : State) (r : EventRec) : (s.logRecord r).sent = s.sent := by
  simp only [State.logRecord]; split <;> rfl

@[simp] theorem State.freeCtr_logRecord (s : State) (r : EventRec) : (s.logRecord r).freeCtr = s.freeCtr := by
  simp only [State.logRecord]; split <;> rfl

@[simp] theorem State.pending_logRecord (s : State) (r : EventRec) : (s.logRecord r).pending = s.pending := by
  simp only [State.logRecord]; split <;> rfl


/-! ### What `State.raiseC` leaves -/

@[simp] theorem State.blobs_raiseC (s : State) (c i p : Nat) : (s.raiseC c i p).blobs = s.blobs := by
  simp [State.raiseC, State.takeDseq]

@[simp] theorem State.powerA_raiseC (s : State) (c i p : Nat) : (s.raiseC c i p).powerA = s.powerA := by
  simp [State.raiseC, State.takeDseq]

@[simp] theorem State.powerB_raiseC (s : State) (c i p : Nat) : (s.raiseC c i p).powerB = s.powerB := by
  simp [State.raiseC, State.takeDseq]

@[simp] theorem State.powerC_raiseC (s : State) (c i p : Nat) : (s.raiseC c i p).powerC = s.powerC := by
  simp [State.raiseC, State.takeDseq]

@[simp] theorem State.time_raiseC (s : State) (c i p : Nat) : (s.raiseC c i p).time = s.time := by
  simp [State.raiseC, State.takeDseq]

@[simp] theorem State.dieA_raiseC (s : State) (c i p : Nat) : (s.raiseC c i p).dieA = s.dieA := by
  simp [State.raiseC, State.takeDseq]

@[simp] theorem State.dieB_raiseC (s : State) (c i p : Nat) : (s.raiseC c i p).dieB = s.dieB := by
  simp [State.raiseC, State.takeDseq]

@[simp] theorem State.brownouts_raiseC (s : State) (c i p : Nat) : (s.raiseC c i p).brownouts = s.brownouts := by
  simp [State.raiseC, State.takeDseq]

@[simp] theorem State.twill_raiseC (s : State) (c i p : Nat) : (s.raiseC c i p).twill = s.twill := by
  simp [State.raiseC, State.takeDseq]

@[simp] theorem State.pair_raiseC (s : State) (c i p : Nat) : (s.raiseC c i p).pair = s.pair := by
  simp [State.raiseC, State.takeDseq]

@[simp] theorem State.seqHold_raiseC (s : State) (c i p : Nat) : (s.raiseC c i p).seqHold = s.seqHold := by
  simp [State.raiseC, State.takeDseq]

@[simp] theorem State.eqTable_raiseC (s : State) (c i p : Nat) : (s.raiseC c i p).eqTable = s.eqTable := by
  simp [State.raiseC, State.takeDseq]

@[simp] theorem State.vol_raiseC (s : State) (c i p : Nat) : (s.raiseC c i p).vol = s.vol := by
  simp [State.raiseC, State.takeDseq]

@[simp] theorem State.boot_raiseC (s : State) (c i p : Nat) : (s.raiseC c i p).boot = s.boot := by
  simp [State.raiseC, State.takeDseq]

@[simp] theorem State.sec_raiseC (s : State) (c i p : Nat) : (s.raiseC c i p).sec = s.sec := by
  simp [State.raiseC, State.takeDseq]

@[simp] theorem State.trans_raiseC (s : State) (c i p : Nat) : (s.raiseC c i p).trans = s.trans := by
  simp [State.raiseC, State.takeDseq]

@[simp] theorem State.recov_raiseC (s : State) (c i p : Nat) : (s.raiseC c i p).recov = s.recov := by
  simp [State.raiseC, State.takeDseq]

@[simp] theorem State.answer_raiseC (s : State) (c i p : Nat) : (s.raiseC c i p).answer = s.answer := by
  simp [State.raiseC, State.takeDseq]

@[simp] theorem State.sent_raiseC (s : State) (c i p : Nat) : (s.raiseC c i p).sent = s.sent := by
  simp [State.raiseC, State.takeDseq]

@[simp] theorem State.freeCtr_raiseC (s : State) (c i p : Nat) : (s.raiseC c i p).freeCtr = s.freeCtr := by
  simp [State.raiseC, State.takeDseq]

@[simp] theorem State.pending_raiseC (s : State) (c i p : Nat) : (s.raiseC c i p).pending = s.pending := by
  simp [State.raiseC, State.takeDseq]


/-! ### What `State.updMd` leaves -/

@[simp] theorem State.objs_updMd (s : State) (d : MDie) (f : MediaDie → MediaDie) : (s.updMd d f).objs = s.objs := by cases d <;> rfl

@[simp] theorem State.blobs_updMd (s : State) (d : MDie) (f : MediaDie → MediaDie) : (s.updMd d f).blobs = s.blobs := by cases d <;> rfl

@[simp] theorem State.mram_updMd (s : State) (d : MDie) (f : MediaDie → MediaDie) : (s.updMd d f).mram = s.mram := by cases d <;> rfl

@[simp] theorem State.ramLog_updMd (s : State) (d : MDie) (f : MediaDie → MediaDie) : (s.updMd d f).ramLog = s.ramLog := by cases d <;> rfl

@[simp] theorem State.powerA_updMd (s : State) (d : MDie) (f : MediaDie → MediaDie) : (s.updMd d f).powerA = s.powerA := by cases d <;> rfl

@[simp] theorem State.powerB_updMd (s : State) (d : MDie) (f : MediaDie → MediaDie) : (s.updMd d f).powerB = s.powerB := by cases d <;> rfl

@[simp] theorem State.powerC_updMd (s : State) (d : MDie) (f : MediaDie → MediaDie) : (s.updMd d f).powerC = s.powerC := by cases d <;> rfl

@[simp] theorem State.time_updMd (s : State) (d : MDie) (f : MediaDie → MediaDie) : (s.updMd d f).time = s.time := by cases d <;> rfl

@[simp] theorem State.brownouts_updMd (s : State) (d : MDie) (f : MediaDie → MediaDie) : (s.updMd d f).brownouts = s.brownouts := by cases d <;> rfl

@[simp] theorem State.twill_updMd (s : State) (d : MDie) (f : MediaDie → MediaDie) : (s.updMd d f).twill = s.twill := by cases d <;> rfl

@[simp] theorem State.pair_updMd (s : State) (d : MDie) (f : MediaDie → MediaDie) : (s.updMd d f).pair = s.pair := by cases d <;> rfl

@[simp] theorem State.seqHold_updMd (s : State) (d : MDie) (f : MediaDie → MediaDie) : (s.updMd d f).seqHold = s.seqHold := by cases d <;> rfl

@[simp] theorem State.eqTable_updMd (s : State) (d : MDie) (f : MediaDie → MediaDie) : (s.updMd d f).eqTable = s.eqTable := by cases d <;> rfl

@[simp] theorem State.vol_updMd (s : State) (d : MDie) (f : MediaDie → MediaDie) : (s.updMd d f).vol = s.vol := by cases d <;> rfl

@[simp] theorem State.boot_updMd (s : State) (d : MDie) (f : MediaDie → MediaDie) : (s.updMd d f).boot = s.boot := by cases d <;> rfl

@[simp] theorem State.sec_updMd (s : State) (d : MDie) (f : MediaDie → MediaDie) : (s.updMd d f).sec = s.sec := by cases d <;> rfl

@[simp] theorem State.trans_updMd (s : State) (d : MDie) (f : MediaDie → MediaDie) : (s.updMd d f).trans = s.trans := by cases d <;> rfl

@[simp] theorem State.recov_updMd (s : State) (d : MDie) (f : MediaDie → MediaDie) : (s.updMd d f).recov = s.recov := by cases d <;> rfl

@[simp] theorem State.answer_updMd (s : State) (d : MDie) (f : MediaDie → MediaDie) : (s.updMd d f).answer = s.answer := by cases d <;> rfl

@[simp] theorem State.sent_updMd (s : State) (d : MDie) (f : MediaDie → MediaDie) : (s.updMd d f).sent = s.sent := by cases d <;> rfl

@[simp] theorem State.freeCtr_updMd (s : State) (d : MDie) (f : MediaDie → MediaDie) : (s.updMd d f).freeCtr = s.freeCtr := by cases d <;> rfl

@[simp] theorem State.pending_updMd (s : State) (d : MDie) (f : MediaDie → MediaDie) : (s.updMd d f).pending = s.pending := by cases d <;> rfl


/-! ### What `State.updPower` leaves -/

@[simp] theorem State.objs_updPower (s : State) (d : PDie) (f : PowerSt → PowerSt) : (s.updPower d f).objs = s.objs := by cases d <;> rfl

@[simp] theorem State.blobs_updPower (s : State) (d : PDie) (f : PowerSt → PowerSt) : (s.updPower d f).blobs = s.blobs := by cases d <;> rfl

@[simp] theorem State.mram_updPower (s : State) (d : PDie) (f : PowerSt → PowerSt) : (s.updPower d f).mram = s.mram := by cases d <;> rfl

@[simp] theorem State.ramLog_updPower (s : State) (d : PDie) (f : PowerSt → PowerSt) : (s.updPower d f).ramLog = s.ramLog := by cases d <;> rfl

@[simp] theorem State.time_updPower (s : State) (d : PDie) (f : PowerSt → PowerSt) : (s.updPower d f).time = s.time := by cases d <;> rfl

@[simp] theorem State.dieA_updPower (s : State) (d : PDie) (f : PowerSt → PowerSt) : (s.updPower d f).dieA = s.dieA := by cases d <;> rfl

@[simp] theorem State.dieB_updPower (s : State) (d : PDie) (f : PowerSt → PowerSt) : (s.updPower d f).dieB = s.dieB := by cases d <;> rfl

@[simp] theorem State.brownouts_updPower (s : State) (d : PDie) (f : PowerSt → PowerSt) : (s.updPower d f).brownouts = s.brownouts := by cases d <;> rfl

@[simp] theorem State.twill_updPower (s : State) (d : PDie) (f : PowerSt → PowerSt) : (s.updPower d f).twill = s.twill := by cases d <;> rfl

@[simp] theorem State.pair_updPower (s : State) (d : PDie) (f : PowerSt → PowerSt) : (s.updPower d f).pair = s.pair := by cases d <;> rfl

@[simp] theorem State.seqHold_updPower (s : State) (d : PDie) (f : PowerSt → PowerSt) : (s.updPower d f).seqHold = s.seqHold := by cases d <;> rfl

@[simp] theorem State.eqTable_updPower (s : State) (d : PDie) (f : PowerSt → PowerSt) : (s.updPower d f).eqTable = s.eqTable := by cases d <;> rfl

@[simp] theorem State.vol_updPower (s : State) (d : PDie) (f : PowerSt → PowerSt) : (s.updPower d f).vol = s.vol := by cases d <;> rfl

@[simp] theorem State.boot_updPower (s : State) (d : PDie) (f : PowerSt → PowerSt) : (s.updPower d f).boot = s.boot := by cases d <;> rfl

@[simp] theorem State.sec_updPower (s : State) (d : PDie) (f : PowerSt → PowerSt) : (s.updPower d f).sec = s.sec := by cases d <;> rfl

@[simp] theorem State.trans_updPower (s : State) (d : PDie) (f : PowerSt → PowerSt) : (s.updPower d f).trans = s.trans := by cases d <;> rfl

@[simp] theorem State.recov_updPower (s : State) (d : PDie) (f : PowerSt → PowerSt) : (s.updPower d f).recov = s.recov := by cases d <;> rfl

@[simp] theorem State.answer_updPower (s : State) (d : PDie) (f : PowerSt → PowerSt) : (s.updPower d f).answer = s.answer := by cases d <;> rfl

@[simp] theorem State.sent_updPower (s : State) (d : PDie) (f : PowerSt → PowerSt) : (s.updPower d f).sent = s.sent := by cases d <;> rfl

@[simp] theorem State.freeCtr_updPower (s : State) (d : PDie) (f : PowerSt → PowerSt) : (s.updPower d f).freeCtr = s.freeCtr := by cases d <;> rfl

@[simp] theorem State.pending_updPower (s : State) (d : PDie) (f : PowerSt → PowerSt) : (s.updPower d f).pending = s.pending := by cases d <;> rfl


/-! ### What `State.noteError` leaves -/

@[simp] theorem State.objs_noteError (s : State) (d : MDie) (c p : Nat) : (s.noteError d c p).objs = s.objs := by
  unfold State.noteError; split <;> simp

@[simp] theorem State.mram_noteError (s : State) (d : MDie) (c p : Nat) : (s.noteError d c p).mram = s.mram := by
  unfold State.noteError; split <;> simp

@[simp] theorem State.ramLog_noteError (s : State) (d : MDie) (c p : Nat) : (s.noteError d c p).ramLog = s.ramLog := by
  unfold State.noteError; split <;> simp

@[simp] theorem State.powerA_noteError (s : State) (d : MDie) (c p : Nat) : (s.noteError d c p).powerA = s.powerA := by
  unfold State.noteError; split <;> simp

@[simp] theorem State.powerB_noteError (s : State) (d : MDie) (c p : Nat) : (s.noteError d c p).powerB = s.powerB := by
  unfold State.noteError; split <;> simp

@[simp] theorem State.powerC_noteError (s : State) (d : MDie) (c p : Nat) : (s.noteError d c p).powerC = s.powerC := by
  unfold State.noteError; split <;> simp

@[simp] theorem State.time_noteError (s : State) (d : MDie) (c p : Nat) : (s.noteError d c p).time = s.time := by
  unfold State.noteError; split <;> simp

@[simp] theorem State.brownouts_noteError (s : State) (d : MDie) (c p : Nat) : (s.noteError d c p).brownouts = s.brownouts := by
  unfold State.noteError; split <;> simp

@[simp] theorem State.twill_noteError (s : State) (d : MDie) (c p : Nat) : (s.noteError d c p).twill = s.twill := by
  unfold State.noteError; split <;> simp

@[simp] theorem State.pair_noteError (s : State) (d : MDie) (c p : Nat) : (s.noteError d c p).pair = s.pair := by
  unfold State.noteError; split <;> simp

@[simp] theorem State.seqHold_noteError (s : State) (d : MDie) (c p : Nat) : (s.noteError d c p).seqHold = s.seqHold := by
  unfold State.noteError; split <;> simp

@[simp] theorem State.eqTable_noteError (s : State) (d : MDie) (c p : Nat) : (s.noteError d c p).eqTable = s.eqTable := by
  unfold State.noteError; split <;> simp

@[simp] theorem State.vol_noteError (s : State) (d : MDie) (c p : Nat) : (s.noteError d c p).vol = s.vol := by
  unfold State.noteError; split <;> simp

@[simp] theorem State.boot_noteError (s : State) (d : MDie) (c p : Nat) : (s.noteError d c p).boot = s.boot := by
  unfold State.noteError; split <;> simp

@[simp] theorem State.sec_noteError (s : State) (d : MDie) (c p : Nat) : (s.noteError d c p).sec = s.sec := by
  unfold State.noteError; split <;> simp

@[simp] theorem State.trans_noteError (s : State) (d : MDie) (c p : Nat) : (s.noteError d c p).trans = s.trans := by
  unfold State.noteError; split <;> simp

@[simp] theorem State.recov_noteError (s : State) (d : MDie) (c p : Nat) : (s.noteError d c p).recov = s.recov := by
  unfold State.noteError; split <;> simp

@[simp] theorem State.answer_noteError (s : State) (d : MDie) (c p : Nat) : (s.noteError d c p).answer = s.answer := by
  unfold State.noteError; split <;> simp

@[simp] theorem State.sent_noteError (s : State) (d : MDie) (c p : Nat) : (s.noteError d c p).sent = s.sent := by
  unfold State.noteError; split <;> simp

@[simp] theorem State.freeCtr_noteError (s : State) (d : MDie) (c p : Nat) : (s.noteError d c p).freeCtr = s.freeCtr := by
  unfold State.noteError; split <;> simp

@[simp] theorem State.pending_noteError (s : State) (d : MDie) (c p : Nat) : (s.noteError d c p).pending = s.pending := by
  unfold State.noteError; split <;> simp


/-! ### What `State.emitMarker` leaves -/

@[simp] theorem State.mram_emitMarker (s : State) (d : MDie) : (s.emitMarker d).mram = s.mram := by
  unfold State.emitMarker; simp only []; split <;> simp [State.takeDseq]

@[simp] theorem State.ramLog_emitMarker (s : State) (d : MDie) : (s.emitMarker d).ramLog = s.ramLog := by
  unfold State.emitMarker; simp only []; split <;> simp [State.takeDseq]

@[simp] theorem State.powerA_emitMarker (s : State) (d : MDie) : (s.emitMarker d).powerA = s.powerA := by
  unfold State.emitMarker; simp only []; split <;> simp [State.takeDseq]

@[simp] theorem State.powerB_emitMarker (s : State) (d : MDie) : (s.emitMarker d).powerB = s.powerB := by
  unfold State.emitMarker; simp only []; split <;> simp [State.takeDseq]

@[simp] theorem State.powerC_emitMarker (s : State) (d : MDie) : (s.emitMarker d).powerC = s.powerC := by
  unfold State.emitMarker; simp only []; split <;> simp [State.takeDseq]

@[simp] theorem State.time_emitMarker (s : State) (d : MDie) : (s.emitMarker d).time = s.time := by
  unfold State.emitMarker; simp only []; split <;> simp [State.takeDseq]

@[simp] theorem State.brownouts_emitMarker (s : State) (d : MDie) : (s.emitMarker d).brownouts = s.brownouts := by
  unfold State.emitMarker; simp only []; split <;> simp [State.takeDseq]

@[simp] theorem State.twill_emitMarker (s : State) (d : MDie) : (s.emitMarker d).twill = s.twill := by
  unfold State.emitMarker; simp only []; split <;> simp [State.takeDseq]

@[simp] theorem State.pair_emitMarker (s : State) (d : MDie) : (s.emitMarker d).pair = s.pair := by
  unfold State.emitMarker; simp only []; split <;> simp [State.takeDseq]

@[simp] theorem State.seqHold_emitMarker (s : State) (d : MDie) : (s.emitMarker d).seqHold = s.seqHold := by
  unfold State.emitMarker; simp only []; split <;> simp [State.takeDseq]

@[simp] theorem State.eqTable_emitMarker (s : State) (d : MDie) : (s.emitMarker d).eqTable = s.eqTable := by
  unfold State.emitMarker; simp only []; split <;> simp [State.takeDseq]

@[simp] theorem State.vol_emitMarker (s : State) (d : MDie) : (s.emitMarker d).vol = s.vol := by
  unfold State.emitMarker; simp only []; split <;> simp [State.takeDseq]

@[simp] theorem State.boot_emitMarker (s : State) (d : MDie) : (s.emitMarker d).boot = s.boot := by
  unfold State.emitMarker; simp only []; split <;> simp [State.takeDseq]

@[simp] theorem State.sec_emitMarker (s : State) (d : MDie) : (s.emitMarker d).sec = s.sec := by
  unfold State.emitMarker; simp only []; split <;> simp [State.takeDseq]

@[simp] theorem State.trans_emitMarker (s : State) (d : MDie) : (s.emitMarker d).trans = s.trans := by
  unfold State.emitMarker; simp only []; split <;> simp [State.takeDseq]

@[simp] theorem State.recov_emitMarker (s : State) (d : MDie) : (s.emitMarker d).recov = s.recov := by
  unfold State.emitMarker; simp only []; split <;> simp [State.takeDseq]

@[simp] theorem State.answer_emitMarker (s : State) (d : MDie) : (s.emitMarker d).answer = s.answer := by
  unfold State.emitMarker; simp only []; split <;> simp [State.takeDseq]

@[simp] theorem State.sent_emitMarker (s : State) (d : MDie) : (s.emitMarker d).sent = s.sent := by
  unfold State.emitMarker; simp only []; split <;> simp [State.takeDseq]

@[simp] theorem State.freeCtr_emitMarker (s : State) (d : MDie) : (s.emitMarker d).freeCtr = s.freeCtr := by
  unfold State.emitMarker; simp only []; split <;> simp [State.takeDseq]

@[simp] theorem State.pending_emitMarker (s : State) (d : MDie) : (s.emitMarker d).pending = s.pending := by
  unfold State.emitMarker; simp only []; split <;> simp [State.takeDseq]


/-! ### What `State.raiseMedia` leaves -/

@[simp] theorem State.mram_raiseMedia (s : State) (d : MDie) (c i p : Nat) : (s.raiseMedia d c i p).mram = s.mram := by
  unfold State.raiseMedia; simp only []; split <;> simp [State.takeDseq]

@[simp] theorem State.ramLog_raiseMedia (s : State) (d : MDie) (c i p : Nat) : (s.raiseMedia d c i p).ramLog = s.ramLog := by
  unfold State.raiseMedia; simp only []; split <;> simp [State.takeDseq]

@[simp] theorem State.powerA_raiseMedia (s : State) (d : MDie) (c i p : Nat) : (s.raiseMedia d c i p).powerA = s.powerA := by
  unfold State.raiseMedia; simp only []; split <;> simp [State.takeDseq]

@[simp] theorem State.powerB_raiseMedia (s : State) (d : MDie) (c i p : Nat) : (s.raiseMedia d c i p).powerB = s.powerB := by
  unfold State.raiseMedia; simp only []; split <;> simp [State.takeDseq]

@[simp] theorem State.powerC_raiseMedia (s : State) (d : MDie) (c i p : Nat) : (s.raiseMedia d c i p).powerC = s.powerC := by
  unfold State.raiseMedia; simp only []; split <;> simp [State.takeDseq]

@[simp] theorem State.time_raiseMedia (s : State) (d : MDie) (c i p : Nat) : (s.raiseMedia d c i p).time = s.time := by
  unfold State.raiseMedia; simp only []; split <;> simp [State.takeDseq]

@[simp] theorem State.brownouts_raiseMedia (s : State) (d : MDie) (c i p : Nat) : (s.raiseMedia d c i p).brownouts = s.brownouts := by
  unfold State.raiseMedia; simp only []; split <;> simp [State.takeDseq]

@[simp] theorem State.twill_raiseMedia (s : State) (d : MDie) (c i p : Nat) : (s.raiseMedia d c i p).twill = s.twill := by
  unfold State.raiseMedia; simp only []; split <;> simp [State.takeDseq]

@[simp] theorem State.pair_raiseMedia (s : State) (d : MDie) (c i p : Nat) : (s.raiseMedia d c i p).pair = s.pair := by
  unfold State.raiseMedia; simp only []; split <;> simp [State.takeDseq]

@[simp] theorem State.seqHold_raiseMedia (s : State) (d : MDie) (c i p : Nat) : (s.raiseMedia d c i p).seqHold = s.seqHold := by
  unfold State.raiseMedia; simp only []; split <;> simp [State.takeDseq]

@[simp] theorem State.eqTable_raiseMedia (s : State) (d : MDie) (c i p : Nat) : (s.raiseMedia d c i p).eqTable = s.eqTable := by
  unfold State.raiseMedia; simp only []; split <;> simp [State.takeDseq]

@[simp] theorem State.vol_raiseMedia (s : State) (d : MDie) (c i p : Nat) : (s.raiseMedia d c i p).vol = s.vol := by
  unfold State.raiseMedia; simp only []; split <;> simp [State.takeDseq]

@[simp] theorem State.boot_raiseMedia (s : State) (d : MDie) (c i p : Nat) : (s.raiseMedia d c i p).boot = s.boot := by
  unfold State.raiseMedia; simp only []; split <;> simp [State.takeDseq]

@[simp] theorem State.sec_raiseMedia (s : State) (d : MDie) (c i p : Nat) : (s.raiseMedia d c i p).sec = s.sec := by
  unfold State.raiseMedia; simp only []; split <;> simp [State.takeDseq]

@[simp] theorem State.trans_raiseMedia (s : State) (d : MDie) (c i p : Nat) : (s.raiseMedia d c i p).trans = s.trans := by
  unfold State.raiseMedia; simp only []; split <;> simp [State.takeDseq]

@[simp] theorem State.recov_raiseMedia (s : State) (d : MDie) (c i p : Nat) : (s.raiseMedia d c i p).recov = s.recov := by
  unfold State.raiseMedia; simp only []; split <;> simp [State.takeDseq]

@[simp] theorem State.answer_raiseMedia (s : State) (d : MDie) (c i p : Nat) : (s.raiseMedia d c i p).answer = s.answer := by
  unfold State.raiseMedia; simp only []; split <;> simp [State.takeDseq]

@[simp] theorem State.sent_raiseMedia (s : State) (d : MDie) (c i p : Nat) : (s.raiseMedia d c i p).sent = s.sent := by
  unfold State.raiseMedia; simp only []; split <;> simp [State.takeDseq]

@[simp] theorem State.freeCtr_raiseMedia (s : State) (d : MDie) (c i p : Nat) : (s.raiseMedia d c i p).freeCtr = s.freeCtr := by
  unfold State.raiseMedia; simp only []; split <;> simp [State.takeDseq]

@[simp] theorem State.pending_raiseMedia (s : State) (d : MDie) (c i p : Nat) : (s.raiseMedia d c i p).pending = s.pending := by
  unfold State.raiseMedia; simp only []; split <;> simp [State.takeDseq]


/-! ### What `State.raise` leaves -/

@[simp] theorem State.powerA_raise (s : State) (d : PDie) (c i p : Nat) : (s.raise d c i p).powerA = s.powerA := by
  cases d <;> simp [State.raise]

@[simp] theorem State.powerB_raise (s : State) (d : PDie) (c i p : Nat) : (s.raise d c i p).powerB = s.powerB := by
  cases d <;> simp [State.raise]

@[simp] theorem State.powerC_raise (s : State) (d : PDie) (c i p : Nat) : (s.raise d c i p).powerC = s.powerC := by
  cases d <;> simp [State.raise]

@[simp] theorem State.time_raise (s : State) (d : PDie) (c i p : Nat) : (s.raise d c i p).time = s.time := by
  cases d <;> simp [State.raise]

@[simp] theorem State.brownouts_raise (s : State) (d : PDie) (c i p : Nat) : (s.raise d c i p).brownouts = s.brownouts := by
  cases d <;> simp [State.raise]

@[simp] theorem State.twill_raise (s : State) (d : PDie) (c i p : Nat) : (s.raise d c i p).twill = s.twill := by
  cases d <;> simp [State.raise]

@[simp] theorem State.pair_raise (s : State) (d : PDie) (c i p : Nat) : (s.raise d c i p).pair = s.pair := by
  cases d <;> simp [State.raise]

@[simp] theorem State.seqHold_raise (s : State) (d : PDie) (c i p : Nat) : (s.raise d c i p).seqHold = s.seqHold := by
  cases d <;> simp [State.raise]

@[simp] theorem State.eqTable_raise (s : State) (d : PDie) (c i p : Nat) : (s.raise d c i p).eqTable = s.eqTable := by
  cases d <;> simp [State.raise]

@[simp] theorem State.vol_raise (s : State) (d : PDie) (c i p : Nat) : (s.raise d c i p).vol = s.vol := by
  cases d <;> simp [State.raise]

@[simp] theorem State.boot_raise (s : State) (d : PDie) (c i p : Nat) : (s.raise d c i p).boot = s.boot := by
  cases d <;> simp [State.raise]

@[simp] theorem State.sec_raise (s : State) (d : PDie) (c i p : Nat) : (s.raise d c i p).sec = s.sec := by
  cases d <;> simp [State.raise]

@[simp] theorem State.trans_raise (s : State) (d : PDie) (c i p : Nat) : (s.raise d c i p).trans = s.trans := by
  cases d <;> simp [State.raise]

@[simp] theorem State.recov_raise (s : State) (d : PDie) (c i p : Nat) : (s.raise d c i p).recov = s.recov := by
  cases d <;> simp [State.raise]

@[simp] theorem State.answer_raise (s : State) (d : PDie) (c i p : Nat) : (s.raise d c i p).answer = s.answer := by
  cases d <;> simp [State.raise]

@[simp] theorem State.sent_raise (s : State) (d : PDie) (c i p : Nat) : (s.raise d c i p).sent = s.sent := by
  cases d <;> simp [State.raise]

@[simp] theorem State.freeCtr_raise (s : State) (d : PDie) (c i p : Nat) : (s.raise d c i p).freeCtr = s.freeCtr := by
  cases d <;> simp [State.raise]

@[simp] theorem State.pending_raise (s : State) (d : PDie) (c i p : Nat) : (s.raise d c i p).pending = s.pending := by
  cases d <;> simp [State.raise]


/-! ### Reading objects through the operations -/

/-- Objects read the same where the map is the same. -/
theorem State.rd_of_objs {s t : State} (h : t.objs = s.objs) (o : ObjDef) (d : Die) (i : Nat) : t.rd o d i = s.rd o d i := by
  simp [State.rd, h]

@[simp] theorem State.rd_updMd (s : State) (e : MDie) (f : MediaDie → MediaDie) (o : ObjDef) (d : Die) (i : Nat) :
    (s.updMd e f).rd o d i = s.rd o d i := State.rd_of_objs (by simp) o d i

@[simp] theorem State.rd_updPower (s : State) (e : PDie) (f : PowerSt → PowerSt) (o : ObjDef) (d : Die) (i : Nat) :
    (s.updPower e f).rd o d i = s.rd o d i := State.rd_of_objs (by simp) o d i

@[simp] theorem State.rd_send (s : State) (x : Sent) (o : ObjDef) (d : Die) (i : Nat) :
    (s.send x).rd o d i = s.rd o d i := State.rd_of_objs (by simp) o d i

@[simp] theorem State.rd_noteError (s : State) (e : MDie) (c p : Nat) (o : ObjDef) (d : Die) (i : Nat) :
    (s.noteError e c p).rd o d i = s.rd o d i := State.rd_of_objs (by simp) o d i

/-- A row that the event arbiters and the logs do not write. -/
def ObjDef.quiet (o : ObjDef) : Bool := o.index != 0x3F00 && o.index != 0x3F10

theorem ObjDef.quiet_apart {o p : ObjDef} (h : o.quiet = true) (k : p.quiet = false) : p.apart o = true := by
  simp only [ObjDef.quiet, ObjDef.apart, bne_iff_ne, ne_eq, Bool.and_eq_true, Bool.or_eq_true, Bool.and_eq_false_iff] at *
  left
  rcases k with k | k <;> simp at k <;> omega

theorem State.rd_logRecord {o : ObjDef} (h : o.quiet = true) (s : State) (r : EventRec) (d : Die) (i : Nat) :
    (s.logRecord r).rd o d i = s.rd o d i := by
  simp only [State.logRecord]
  rw [State.rd_wr_apart (o := Obj.evtLogOldest) (ObjDef.quiet_apart h rfl),
    State.rd_wr_apart (o := Obj.evtStatus) (ObjDef.quiet_apart h rfl),
    State.rd_wr_apart (o := Obj.evtCount) (ObjDef.quiet_apart h rfl),
    State.rd_wr_apart (o := Obj.evtGseqNext) (ObjDef.quiet_apart h rfl)]
  split <;> simp only [State.rd]

theorem State.rd_takeDseq {o : ObjDef} (h : o.quiet = true) (s : State) (e : PDie) (d : Die) (i : Nat) :
    (s.takeDseq e).rd o d i = s.rd o d i := State.rd_wr_apart (o := Obj.evtDseqNext) (ObjDef.quiet_apart h rfl) ..

theorem State.rd_emitMarker {o : ObjDef} (h : o.quiet = true) (s : State) (m : MDie) (d : Die) (i : Nat) :
    (s.emitMarker m).rd o d i = s.rd o d i := by
  unfold State.emitMarker; simp only []; split <;> simp [State.rd_takeDseq h]

/-- Raising an event writes no object but those of the arbiters and the logs. -/
theorem State.rd_raise {o : ObjDef} (h : o.quiet = true) (s : State) (e : PDie) (c n p : Nat) (d : Die) (i : Nat) :
    (s.raise e c n p).rd o d i = s.rd o d i := by
  have media : ∀ m : MDie, (s.raiseMedia m c n p).rd o d i = s.rd o d i := by
    intro m
    unfold State.raiseMedia
    simp only []
    split
    · simp [State.rd_takeDseq h, State.rd_emitMarker h]
    · rw [State.rd_updMd, State.rd_wr_apart (o := Obj.evtDropCount) (ObjDef.quiet_apart h rfl)]
      simp [State.rd_takeDseq h, State.rd_emitMarker h]
  cases e with
  | a => exact media .a
  | b => exact media .b
  | c => simp only [State.raise, State.raiseC]; rw [State.rd_logRecord h, State.rd_takeDseq h]

theorem State.rdN_raise {o : ObjDef} (h : o.quiet = true) (s : State) (e : PDie) (c n p : Nat) (d : Die) (i : Nat) :
    (s.raise e c n p).rdN o d i = s.rdN o d i := by simp [State.rdN, State.rd_raise h]

/-! ### Status bits and counters -/

theorem testBit_withBit (v n m : Nat) (b : Bool) : (withBit v n b).testBit m = if n = m then b else v.testBit m := by
  unfold withBit
  by_cases h : n = m
  · subst h
    split
    · simp_all
    · rename_i k
      cases b <;> simp_all [Nat.testBit_xor]
  · split <;> simp [Nat.testBit_xor, Nat.testBit_two_pow_of_ne h]

/-- A bit read after one bit of the same object was written. -/
theorem State.bit_putBit (s : State) (o : ObjDef) (d : Die) (i n m : Nat) (b : Bool) :
    (s.putBit o d i n b).bit o d i m = if n = m then b else s.bit o d i m := by
  simp only [State.bit, State.putBit, State.rdN_wr_same, Int.toNat_natCast, testBit_withBit]

@[simp] theorem State.bit_setBit_same (s : State) (o : ObjDef) (d : Die) (i n : Nat) : (s.setBit o d i n).bit o d i n = true := by
  simp [State.setBit, State.bit_putBit]

@[simp] theorem State.bit_clrBit_same (s : State) (o : ObjDef) (d : Die) (i n : Nat) : (s.clrBit o d i n).bit o d i n = false := by
  simp [State.clrBit, State.bit_putBit]

theorem State.rd_putBit_apart {o p : ObjDef} (h : o.apart p = true) (s : State) (d e : Die) (i j n : Nat) (b : Bool) :
    (s.putBit o d i n b).rd p e j = s.rd p e j := State.rd_wr_apart h ..

theorem State.rd_setBit_apart {o p : ObjDef} (h : o.apart p = true) (s : State) (d e : Die) (i j n : Nat) :
    (s.setBit o d i n).rd p e j = s.rd p e j := State.rd_wr_apart h ..

theorem State.rd_clrBit_apart {o p : ObjDef} (h : o.apart p = true) (s : State) (d e : Die) (i j n : Nat) :
    (s.clrBit o d i n).rd p e j = s.rd p e j := State.rd_wr_apart h ..

/-- A counter grows by `n` and stops at the largest value of its type (R30). -/
@[simp] theorem State.rdN_addCount_same (s : State) (o : ObjDef) (d : Die) (i n : Nat) :
    (s.addCount o d i n).rdN o d i = min (s.rdN o d i + n) o.ty.maxVal := by
  rw [State.addCount, State.rdN_wr_same, Int.toNat_natCast]

@[simp] theorem State.rdN_bump_same (s : State) (o : ObjDef) (d : Die) (i : Nat) :
    (s.bump o d i).rdN o d i = min (s.rdN o d i + 1) o.ty.maxVal := State.rdN_addCount_same ..

theorem State.rd_addCount_apart {o p : ObjDef} (h : o.apart p = true) (s : State) (d e : Die) (i j n : Nat) :
    (s.addCount o d i n).rd p e j = s.rd p e j := State.rd_wr_apart h ..

theorem State.rd_bump_apart {o p : ObjDef} (h : o.apart p = true) (s : State) (d e : Die) (i j : Nat) :
    (s.bump o d i).rd p e j = s.rd p e j := State.rd_wr_apart h ..

@[simp] theorem State.power_updPower (s : State) (d : PDie) (f : PowerSt → PowerSt) :
    (s.updPower d f).power d = f (s.power d) := by cases d <;> rfl

@[simp] theorem State.md_updMd (s : State) (d : MDie) (f : MediaDie → MediaDie) : (s.updMd d f).md d = f (s.md d) := by
  cases d <;> rfl

end Sys2Proof.Machine
end

