-- ==== Sys2Proof/Tests/Slice0.lean ====
section
/-! SUPPORT. Tests: ill-formed terms that the well-formedness check refuses, worked examples of the spec with the values it gives, and
for each statement with hypotheses concrete states and operands that meet them, clause by clause. -/

open Sys2Proof Sys2Proof.Machine

namespace Sys2Proof.Tests

set_option maxRecDepth 100000
set_option Elab.async false

/-! ### States that the tests build on -/

/-- A state with numeric objects set. -/
def put (s : State) (l : List (ObjDef × Die × Nat × Int)) : State :=
  l.foldl (fun (s : State) e => s.wr e.1 e.2.1 e.2.2.1 e.2.2.2) s

/-- A state in which all three dies run, their links are up, every section is on, and the mode is `m`. -/
def live (m : Mode) : State :=
  let sec := fun (d : Die) => (List.range 30).map (fun n => (Obj.pwrSectionState.addr d n, (2 : Int)))
  { State.reset with
    objs := [(Obj.modeState.addr .p 0, (m.num : Int)), (Obj.uciState.addr .c 0, 2), (Obj.uciState.addr .c 1, 2)] ++ sec .a ++ sec .b
    powerA := { PowerSt.start with run := .running }, powerB := { PowerSt.start with run := .running },
    powerC := { PowerSt.start with run := .running } }

/-- A state with byte objects set. -/
def putB (s : State) (l : List (ObjDef × Die × Nat × List Byte)) : State :=
  l.foldl (fun (s : State) e => s.wrBytes e.1 e.2.1 e.2.2.1 e.2.2.2) s

/-- A byte object of `n` bytes from (low bit, value) fields, its first byte most significant. -/
def fields (n : Nat) (l : List (Nat × Nat)) : List Byte :=
  natBe n (l.foldl (fun a e => a + e.2 * 2 ^ e.1) 0)

/-- The equalization table of no class and no row: its header and CRC-32. -/
def eqEmpty : List Byte :=
  [69, 81, 84, 66, 0, 1] ++ List.replicate 26 0 ++ natBe 4 1143110975
/-- Some module's identification. -/
def someModule : ModuleInfo :=
  { revision := 0x50, identifier := 0x18, mediaType := 2, vendor := List.replicate 16 65, oui := [0, 1, 2], part := List.replicate 16 66,
    rev := [49, 49], serial := List.replicate 16 67, date := List.replicate 8 50, maxPower := 40, appMatches := true, biasLanes := 8,
    hasInEq := true, hasPre := true, hasPost := true, hasAmp := true }

/-- Port 0 of Die A is an Ethernet port and up. -/
def netUp (m : Mode) : State := put (live m) [(Obj.quadMode, .a, 0, 1), (Obj.laneStatus, .a, 0, 7)]

/-- Header and payload of a packet. -/
def aRtp : Rtp := { pt := 96, ssrc := 1, seq := 5, ts := 0, marker := false, segs := [], audio := [], data := [7, 8] }

/-- A packet of a flow. -/
def aPkt (flow len : Nat) : Pkt :=
  { kind := .media, port := 0, flow := flow, leg := 1, len := len, rtp := aRtp, arrival := 0, poison := false,
    release := some 0, interval := 0, ready := false }

/-- A gate set with one entry, all gates shut. -/
def shutGate : GateSet := { enable := true, base := ⟨0, 1, 0⟩, num := 1000000, den := 1, list := [(0, 1000000)] }

/-- Quad 2 of Die A carries an up Twill link. -/
def twl (st : Int) : State :=
  put (live .service) [(Obj.quadMode, .a, 2, 4), (Obj.laneStatus, .a, 8, 7), (Obj.twlEnable, .p, 0, 1), (Obj.twlLinkState, .a, 2, st)]

/-- A package of the fabric. -/
def aPkg (serial id : Nat) : TwlPkg := { serial := serial, id := id, pref := 0, fw := 0, ref := 0 }

/-- A receive channel. -/
def aRx (dev : Nat) : TwlRx :=
  { device := dev, srcDie := 0, port := 4, path := [], refused := [], seq := some 9, line := 0, pic := ⟨[], [], 0⟩, anc := ⟨[], [], 0⟩,
    src := none, lost := none, audio := [], tried := 99 }

/-- What an ALLOC ACK tells of the source. -/
def aSrc : TwlSrc := { on := true, format := 0x0607, ofs := 0, sampling := 0, depth := 1, color := 1, tcs := 0, range := 0, rates := [] }
/-- Sixty-four transmit channels take source port 4 of Die A. -/
def tapped : State :=
  (twl 3).updTwill (fun t => { t with tx := (List.range 64).map (fun n =>
    (n, { port := 4, path := [], device := 6, rxDie := 0, rx := n, seq := 0 })) })
/-- The only partner, on a refused link, has another Reference Raster. -/
def refused : State :=
  (put (twl 5) [(Obj.idSerial, .p, 0, 5)]).updTlink .a 2 (fun k => { k with peer := { aPkg 4 6 with ref := 1 } })

/-- A link record of this package. -/
def aRec : TwlRec :=
  { id := 0, die := 0, quad := 2, rid := 6, rdie := 0, rquad := 0, state := 3, delay := 100, out := 0, in_ := 0, cost := 1 }
/-- Receive channel 3 of Die A degraded, with a link record from its source to this package. -/
def reroute : State :=
  put ((twl 3).updTwill (fun t => { t with rx := [(3, aRx 6)], recs := [{ id := 6, die := 0, quad := 0, rid := (twl 3).twlId, rdie := 0, rquad := 2, state := 3, delay := 100, out := 0, in_ := 0, cost := 1 }] }))
    [(Obj.twlChState, .a, 3, 3)]

/-- A coefficient set of which the first `n` phases are a single tap of one, and the rest zero. -/
def coefs (n : Nat) : List Byte := (List.replicate n ([4, 0] ++ List.replicate 14 0)).flatten ++ List.replicate ((64 - n) * 16) 0

/-- Chain 1 of Die A works in frame mode with converter 0; it has stored these pictures. -/
def frcChain (pics : List Nat) (ready : Bool) : State :=
  (put (live .service) [(Obj.cnvChainFrc, .a, 1, 0)]).updChain .a 1 (fun x =>
    { x with work := some (State.reset.chainShadow .a 1), store := pics.map (fun k => (k, [])), ready := ready })

/-- The picture number that converter 0 of `frcChain` shows now, before its delay. -/
def frcNow : Int × Nat :=
  let s := frcChain [] false
  frcPosition (fmt (s.chainIn .a 1).format) (fmt (s.chainOut .a 1).format) (s.chainIn .a 1).ofs (s.chainOut .a 1).ofs
    (coordOf (fmt (s.chainOut .a 1).format) (s.chainOut .a 1).ofs (s.now .a)).frame

/-- The set a compositor holds at reset. -/
def aCmp : CmpCfg := State.reset.cmpShadow .a 0
/-- The set an output holds at reset. -/
def anOut : OutCfg := State.reset.outShadow .a 0

/-- The set an encode channel holds at reset. -/
def anEnc : EncCfg := State.reset.encShadow .a 0

/-- Encode channel 47 of Die A in some state, with these fields. -/
def chan (st : Int) (f : EncSt → EncSt) : State :=
  (put (live .service) [(Obj.encChEnable, .a, 47, 1), (Obj.encChState, .a, 47, st)]).updEnc .a 47 f

/-- A picture being coded. -/
def aPic (num : Nat) (hrd : Bool) (rows : List EncRow) : EncPic :=
  { cfg := anEnc, rateNew := false, num := num, frame := num, field := 0, idx := 0, order := 0, slot := 0, src := [], typed := true,
    irap := true, idr := true, ref := true, ovh := 0, budget := some 0, guard := false, recov := false, user := none, rows := rows,
    missed := false, shift := 0, hrd := hrd, filler := 0, nth := 0, removal := 0,
    head := ⟨.idr, .i, 0, [], []⟩ }

/-- A row that is stored and searched. -/
def aRow : EncRow := { EncRow.start with stored := true, searched := true }
/-- The same, coded. -/
def codedRow : EncRow := { aRow with qp := some 20, data := [(0, [1, 2])] }
/-- The same, complete at the present only. -/
def lateRow : EncRow := { codedRow with doneAt := 1000000000000000 }

/-- Decoder context 3 of Die A in some state, fed by flow 9. -/
def decs (st : Int) (f : DecSt → DecSt) : State :=
  (putB (put (live .service) [(Obj.decCtxEnable, .a, 3, 1), (Obj.decCtxState, .a, 3, st)])
    [(Obj.flowInDesc, .a, 9, fields 64 [(508, 5), (160, 3)])]).updDec .a 3 f

/-- An access unit. -/
def anAu : AccessUnit := ⟨7, [[2, 1, 5]], 3, 0⟩
/-- A sequence parameter set. -/
def anSps : Sps :=
  { profile := 1, profileIdc := 2, level := 51, levelIdc := 153, width := 3840, height := 2160, depth := 10, chroma := 0, buffers := 0,
    fieldSeq := false, reorder := 0, latency := 0 }
/-- What the engine finds in an access unit. -/
def someAu (irap : Nat) (sps : Option Sps) : AuInfo :=
  { irap := irap, rasl := false, sps := sps, badNals := 0, poc := 0, refs := [], keep := [], output := true, parity := 0, chromaLoc := 0,
    vui := none, lost := [], rows := [] }
/-- A decoded picture. -/
def aDecPic : DecPic :=
  { cvs := 0, poc := 0, waiting := true, ref := false, age := 0, concealed := false, parity := 0, chroma := 0, chromaLoc := 0, depth := 10,
    vui := none, pix := [] }

/-- TDM port 15 of Die A in some state. -/
def tdm (role st : Int) (m : Mode) : State :=
  put (live m) [(Obj.audPortEnable, .a, 15, 1), (Obj.audPortRole, .a, 15, role), (Obj.audPortState, .a, 15, st)]

/-- Port 15 of Die A has been armed since an instant. -/
def armed (t : Nat) : State := (tdm 1 1 .service).updAudPort .a 15 (fun x => { x with armed := some t })

/-- The DRAM of Die A is trained: 12 channels, 4 GiB each. -/
def memUp (m : Mode) : State :=
  (put (live m) ((List.range 12).map (fun c => (Obj.memChState, Die.a, c, (3 : Int))) ++
    [(Obj.memCapacity, .a, 0, 51539607552), (Obj.memChEnabled, .a, 0, 4095), (Obj.laneStatus, .a, 0, 7), (Obj.quadMode, .a, 0, 1)])).updRam .a
      (fun r => { r with ranks := 2, gib := 2 })

/-- A DRAM request. -/
def aReq (write : Bool) : MemReq :=
  { port := 24, master := 31, id := 5, write := write, addr := 512, len := 2, data := if write then [7, 8] else [], poison := [], use := .other }
/-- A piece of it at the controller. -/
def aPiece (write : Bool) (issued : Option Nat) : MemPiece :=
  { req := aReq write, ch := 11, rank := 1, bank := 15, enter := 1000000000000000, late := false, issued := issued, null := false, again := false, bad := false }
/-- The same with a piece that has waited for ever. -/
def urgent (owed : Tab Nat) : State :=
  ((memUp .service).updRam .a (fun r => { r with pieces := [{ aPiece true none with enter := 0 }] })).updChan .a 11 (fun x => { x with owed := owed })
/-- A bus transaction. -/
def anOp (write : Bool) (addr : Nat) : BusOp :=
  { id := 5, write := write, addr := addr, len := 2, data := if write then [7, 8] else [], poison := [], use := .other, sec := 5, waited := 0 }
/-- The same under way. -/
def aTxn (old : Bool) : BusTxn :=
  { master := 31, gen := 0, op := anOp false 512, left := 1, data := [], poison := false, error := false, parked := false, old := old }

/-- Both dies run in SELVEDGE, in these states of the pair, Die A its owner. -/
def pairIn (a b : Int) : State := put (live .selvedge) [(Obj.slvState, .a, 0, a), (Obj.slvState, .b, 0, b)]
/-- A held packet. -/
def aHeld (err : Bool) : HeldPkt := { flow := 9, seq := 5, crc := 1, len := 40, queue := 5, pkt := aPkt 9 60, err := err, at_ := 0 }
/-- The compare record of a packet. -/
def aCmpRec (crc : Nat) : CmpRec := { err := false, flow := 9, seq := 5, crc := crc, len := 40, ts := 0 }

/-- An event record. -/
def aRecord (code : Nat) : EventRec :=
  { gseq := 0, dseq := 3, code := code, die := .a, hold := false, free := false, ovfl := false, inst := 0, coord := ⟨0, 1, 0⟩, payload := 0 }
/-- What BOOT finds on a sound die. -/
def bootDie : DieBoot := { link := true, fails := [], eyes := (List.range 12).map (fun c => (c, 40)), steps := [], modules := [0] }
/-- What BOOT finds, slot 0 good or not. -/
def bootRun (ok : Bool) : BootRun := { slot0 := ok, slot1 := false, bad := [], a := bootDie, b := bootDie }
/-- Both media dies are trained, and time is locked. -/
def ready (m : Mode) : State :=
  put (live m) ([Die.a, Die.b].flatMap (fun d => [(Obj.memCapacity, d, 0, (51539607552 : Int)), (Obj.memChEnabled, d, 0, 4095)]) ++
    [(Obj.timeState, .c, 0, 2)])

/-- Header and message of a grandmaster that Die C follows on PTP port 7. -/
def ptpPort (m : Mode) : State := put (live m) [(Obj.ptpPortRole, .c, 7, 1), (Obj.ptpPortBinding, .c, 7, 0)]
/-- A grandmaster. -/
def aGm : Announce := { identity := 99, priority1 := 128, clockClass := 6, accuracy := 32, variance := 0, priority2 := 128, steps := 0, secs := 2000000 }
/-- A header of its messages. -/
def aHdr : PtpHeader := { domain := ((live .service).rdN Obj.ptpDomain .c 0), supported := true, gm := 99, seq := 5 }
/-- Die C follows that grandmaster. -/
def follows (f : TimeSt → TimeSt) : State := (ptpPort .service).updTime (fun t => f { t with gm := some aGm, candidates := [aGm] })

/-- A cue entry. -/
def cueB (frame action idx inst group : Nat) : List Byte :=
  natBe 6 frame ++ natBe 2 1 ++ natBe 2 0 ++ natBe 1 action ++ natBe 1 0 ++ natBe 2 idx ++ natBe 2 inst ++ List.replicate 12 0 ++ natBe 1 group ++
    List.replicate 3 0
/-- Cue 1,023 of Die A in some state. -/
def cued (st : Int) (b : List Byte) : State := putB (put (live .service) [(Obj.timeCueState, .a, 1023, st)]) [(Obj.timeCueEntry, .a, 1023, b)]

/-- The root of the fabric lies behind Twill quad 2 of Die A. -/
def rooted : State :=
  put (((twl 3).updTwill (fun t => { t with recs := [{ aRec with id := 6, quad := 0, rid := (twl 3).twlId, rdie := 0, rquad := 2 }] })).updTlink .a 2
      (fun k => { k with peer := aPkg 77 6, peerDie := 0, peerQuad := 0 }))
    [(Obj.twlState, .p, 0, 2), (Obj.twlRootId, .p, 0, 6)]

/-- An open session, and a header of a request in it. -/
def aSes : Session :=
  { num := 21, slot := 0xFF, role := roleAdmin, established := true, last := 0, port := 0, high := 4, history := [], keyIn := [], keyOut := [],
    peer := (5, 6), subscribed := false, ranges := [], nextGseq := 0, notices := [], notifies := 0, losing := false, transfer := none, snaps := [] }
/-- A request header. -/
def aReqHdr (session seq : Nat) : VolHdr :=
  { port := 1, ip := 5, udp := 6, session := session, seq := seq, boot := 0, auth := false, tag := [] }
/-- The dictionary server with one session. -/
def served (x : Session) : State := { live .service with vol := { (live .service).vol with sessions := [x] } }
/-- An item that names one instance. -/
def reg (o : ObjDef) (d : Die) (i : Nat) (v : List Byte) : VolItem := ⟨d.num, o.index, o.sub, i, 0, v⟩
/-- A response kept for repeats. -/
def aResponse : Response :=
  { session := 21, seq := 3, op := 3, status := .ok, item := 0, items := 0, gap := false, auth := false, payload := [], descs := [], tag := [] }
/-- A bulk transfer with some bytes. -/
def aBulk (n : Nat) : Bulk := { id := 7, addr := Obj.entChSeiUser.addr .a 47, total := 16, data := List.replicate n 1, last := 0 }
/-- A notification under way. -/
def aNotice (again : Nat) : Notice := { count := 1, gap := false, records := [aRecord 0x1310], again := again, last := 0 }
/-- The configuration strap is set. -/
def strapped : State := put (live .service) [(Obj.bootStraps, .p, 0, 1)]

/-- A debug token for serial number 5, signed under RFC 8032 with the seed 00 01 … 1F, and the part it is for. -/
def token : List Byte :=
  natBe 36 0x4442544b0000000000000005000102030405060708090a0b0c0d0e0f0000002dc6c00300 ++
  natBe 64 0x046de72ede5a11190369bcbf8f53ed1292940a68b3d30de8c8e9e4397453a4e1f80c80a4fa21f5d7fd75de60d12b81bb3c990bb379652c94f3e752d518918702
/-- A part that holds the debug key and a challenge. -/
def keyed (life : Int) : State :=
  putB (put (live .service) [(Obj.lcsState, .p, 0, life), (Obj.lcsDebugKeyId, .p, 0, 9), (Obj.idSerial, .p, 0, 5)])
    [(Obj.lcsDebugKey, .p, 0, natBe 32 0x03a107bff3ce10be1d70dd18e74bc09967e4d6309ba50d5f1ddc8664125531b8),
     (Obj.lcsDebugChallenge, .p, 0, natBe 16 0x000102030405060708090a0b0c0d0e0f)]

/-- A staged image of one write: VOL.SESSION.TIMEOUT to 60. -/
def stagedImage : List Byte :=
  [0x44, 0x49, 0x4D, 0x47, 0, 1, 0, 1, 0, 0, 0, 32, 0, 0, 0, 0, 3, 0x10, 4, 5, 0, 0, 0, 2, 0, 60, 0, 0] ++ natBe 4 735926446

/-- An outcome is a next state. -/
def isNext (o : Out) : Bool := match o with | .next _ => true | _ => false
/-- That state. -/
def nextOf (o : Out) : State := match o with | .next t => t | _ => State.reset
theorem eq_next {o : Out} (h : isNext o = true) : o = .next (nextOf o) := by cases o <;> first | rfl | cases h
/-- An answer is this status. -/
def isError {α : Type} (r : Except Status α) (x : Status) : Bool := match r with | .error y => y == x | _ => false
theorem eq_error {α : Type} {r : Except Status α} {x : Status} (h : isError r x = true) : r = .error x := by
  cases r with
  | error y => simp only [isError, beq_iff_eq] at h; rw [h]
  | ok y => simp [isError] at h

/-! ### Well-formedness: one ill-formed term for each check -/

/-- A datagram. -/
def aUdp : Udp := { vlan := 0xFFFF, src := 1, dst := 2, port := 5004, size := 20, clean := true, rtp := aRtp }
/-- A received frame. -/
def frameOf (b : Body) : Instr := .rxFrame .a 0 { len := 64, good := true, body := b }
/-- A control message. -/
def aMsg : TwlMsg := { src := 5, dst := 0xFE, hops := 1, gen := 7, body := .idAssign 77 6 }
/-- A media flit. -/
def aFlit : TwlFlit := { slot := 34, content := 0, seq := 1, data := List.replicate 60 0 }
/-- An item of a request. -/
def anItem : VolItem := ⟨3, 0x1004, 5, 0, 1, []⟩

/-- Terms of every shape with the highest values that the fields hold. -/
theorem test_wf_takes_the_highest_values :
    [Instr.sequenceFault .a 6, .sequenceFault .c 4, .railWarningCrossing .b 6 0 65535, .railRecovery .a 6 0 65535 65535, .railResetCrossing .c 4 65535,
      .sectionPowerGood .a 29, .sectionWakeTimeout .b 29, .thermalSample .a (List.replicate 12 (0, true)), .thermalSample .c (List.replicate 4 (0, true)),
      .portDown .a 31 65535, .moduleStatePoll .a 7 true someModule, .moduleReadyTimeout .a 7 255, frameOf (.udp aUdp), frameOf .pause,
      frameOf (.arpRequest (2 ^ 32 - 1) (2 ^ 32 - 1) (2 ^ 48 - 1)), .arpUnresolvedTimeout .a 0 (2 ^ 32 - 1), .loomDstBackupWrite .a 0 (2 ^ 32 - 1),
      .helloReceived .a 7 (aPkg (2 ^ 64 - 1) 255) 1 7, .idAssignReceived (2 ^ 64 - 1) 255, .allocReceived .a 0 aMsg, .mediaFlitReceived .a 0 aFlit,
      .guardTest .a false 7, .guardTest .a true 63, .latch .a false 7, .latch .a true 63, .dramRequestEnqueue .a (aReq true),
      .dramRequestEnqueue .a (aReq false), .busTransactionIssue .a 38 (anOp true 0), .semaphoreRead .a 0 0 (2 ^ 32 - 1), .compareRecordReceived .a (aCmpRec 1),
      .ptpAnnounceReceived 0 aHdr aGm none, .bootEnd (2 ^ 32 - 1), .testBistSection .a 255, .injectSingleBitEcc .a 0 65535,
      .lcsAdvanceReturn (2 ^ 64 - 1), .registerWrite anItem, .volOpen (aReqHdr 0 0) 255 (List.replicate 16 0),
      .volRead (aReqHdr (2 ^ 32 - 1) (2 ^ 64 - 1)) [anItem], .volList (aReqHdr 1 1) 255 65535 255, .volBulkBegin (aReqHdr 1 1) anItem (2 ^ 32 - 1),
      .volLogRead (aReqHdr 1 1) 255 65535 (2 ^ 32 - 1) (2 ^ 64 - 1)].all Instr.wf = true := by decide +kernel

/-- Unit numbers and lengths that the part does not have. -/
theorem test_wf_refuses_units :
    [Instr.sequenceFault .a 7, .sequenceFault .c 5, .railWarningCrossing .b 7 0 0, .railRecovery .a 7 0 0 0, .railResetCrossing .c 5 0,
      .sectionPowerGood .a 30, .sectionWakeTimeout .b 30, .thermalSample .a (List.replicate 11 (0, true)), .thermalSample .c (List.replicate 5 (0, true)),
      .helloReceived .a 7 (aPkg 1 1) 2 0, .helloReceived .a 7 (aPkg 1 1) 0 8, .guardTest .a false 8, .latch .a false 8].any Instr.wf = false := by
  decide +kernel

/-- Values that do not fit the fields of supplies, lanes, modules and routes. -/
theorem test_wf_refuses_fields :
    [Instr.railWarningCrossing .b 6 0 65536, .railRecovery .a 6 0 65536 0, .railRecovery .a 6 0 0 65536, .railResetCrossing .c 4 65536,
      .portDown .a 31 65536, .moduleStatePoll .a 7 true { someModule with revision := 256 }, .moduleStatePoll .a 7 true { someModule with identifier := 256 },
      .moduleStatePoll .a 7 true { someModule with mediaType := 256 }, .moduleStatePoll .a 7 true { someModule with maxPower := 256 },
      .moduleReadyTimeout .a 7 256, .loomDstBackupWrite .a 0 (2 ^ 32), .bootEnd (2 ^ 32), .testBistSection .a 256, .injectSingleBitEcc .a 0 65536,
      .injectDoubleBitEcc .a 0 65536, .injectCaParity .a 0 65536, .injectBusParity .a 0 65536, .injectQueueParity .a 0 65536, .injectSymbolErrors .a 0 65536,
      .injectUncorrectable .a 0 65536, .lcsAdvanceProvisioned (2 ^ 64), .lcsAdvanceDeployed (2 ^ 64), .lcsAdvanceReturn (2 ^ 64)].any Instr.wf = false := by
  decide +kernel

/-- Received frames and datagrams. -/
theorem test_wf_refuses_frames :
    [frameOf (.arpRequest (2 ^ 32) 0 0), frameOf (.arpRequest 0 (2 ^ 32) 0), frameOf (.arpRequest 0 0 (2 ^ 48)), frameOf (.arpReply (2 ^ 32) 0),
      frameOf (.arpReply 0 (2 ^ 48)), frameOf (.icmpEcho (2 ^ 32) 0 0), frameOf (.icmpEcho 0 (2 ^ 32) 0), frameOf (.icmpEcho 0 0 (2 ^ 48)),
      frameOf (.udp { aUdp with vlan := 65536 }), frameOf (.udp { aUdp with src := 2 ^ 32 }), frameOf (.udp { aUdp with dst := 2 ^ 32 }),
      frameOf (.udp { aUdp with port := 65536 }), frameOf (.udp { aUdp with rtp := { aRtp with pt := 128 } }),
      frameOf (.udp { aUdp with rtp := { aRtp with ssrc := 2 ^ 32 } }), frameOf (.udp { aUdp with rtp := { aRtp with seq := 65536 } }),
      frameOf (.udp { aUdp with rtp := { aRtp with ts := 2 ^ 32 } }), .arpUnresolvedTimeout .a 0 (2 ^ 32)].any Instr.wf = false := by decide +kernel

/-- Twill messages and flits. -/
theorem test_wf_refuses_twill :
    [Instr.helloReceived .a 7 (aPkg (2 ^ 64) 1) 0 0, .helloReceived .a 7 (aPkg 1 256) 0 0, .helloReceived .a 7 { aPkg 1 1 with pref := 256 } 0 0,
      .helloReceived .a 7 { aPkg 1 1 with fw := 2 ^ 32 } 0 0, .helloReceived .a 7 { aPkg 1 1 with ref := 65536 } 0 0, .idAssignReceived (2 ^ 64) 0,
      .idAssignReceived 0 256, .linkStateReceived .a 0 { aMsg with src := 256 }, .allocReceived .a 0 { aMsg with dst := 256 },
      .allocAckReceived .a 0 { aMsg with hops := 256 }, .allocNackReceived .a 0 { aMsg with gen := 2 ^ 32 }, .freeReceived .a 0 { aMsg with src := 256 },
      .controlFlitReceived .a 0 false true { aMsg with src := 256 }, .twillSyncReceived .a 0 { aMsg with src := 256 },
      .mediaFlitReceived .a 0 { aFlit with slot := 64 }, .mediaFlitReceived .a 0 { aFlit with content := 16 },
      .mediaFlitReceived .a 0 { aFlit with seq := 65536 }, .mediaFlitReceived .a 0 { aFlit with data := [] }].any Instr.wf = false := by decide +kernel

/-- Memory requests, bus transactions, compare records and Announce messages. -/
theorem test_wf_refuses_requests :
    [Instr.dramRequestEnqueue .a { aReq true with len := 3 }, .dramRequestEnqueue .a { aReq false with data := [1] },
      .busTransactionIssue .a 38 { anOp true 0 with id := 256 }, .busTransactionIssue .a 38 { anOp true 0 with len := 3 },
      .busTransactionIssue .a 38 { anOp false 0 with data := [1] }, .semaphoreRead .a 0 0 (2 ^ 32),
      .compareRecordReceived .a { aCmpRec 1 with flow := 4096 }, .compareRecordReceived .a { aCmpRec 1 with seq := 65536 },
      .compareRecordReceived .a (aCmpRec (2 ^ 32)), .compareRecordReceived .a { aCmpRec 1 with len := 65536 },
      .compareRecordReceived .a { aCmpRec 1 with ts := 2 ^ 32 }, .ptpAnnounceReceived 0 aHdr { aGm with identity := 2 ^ 64 } none,
      .ptpAnnounceReceived 0 aHdr { aGm with priority1 := 256 } none, .ptpAnnounceReceived 0 aHdr { aGm with clockClass := 256 } none,
      .ptpAnnounceReceived 0 aHdr { aGm with accuracy := 256 } none, .ptpAnnounceReceived 0 aHdr { aGm with variance := 65536 } none,
      .ptpAnnounceReceived 0 aHdr { aGm with priority2 := 256 } none, .ptpAnnounceReceived 0 aHdr { aGm with steps := 65536 } none].any Instr.wf
      = false := by decide +kernel

/-- Headers, items and operands of VOL requests. -/
theorem test_wf_refuses_vol :
    [Instr.volNop { aReqHdr 1 1 with ip := 2 ^ 32 }, .volNop { aReqHdr 1 1 with udp := 65536 }, .volClose (aReqHdr (2 ^ 32) 1), .volNop (aReqHdr 1 (2 ^ 64)),
      .volNop { aReqHdr 1 1 with boot := 2 ^ 32 }, .volNop { aReqHdr 1 1 with tag := [0] }, .volNop { aReqHdr 1 1 with auth := true },
      .registerWrite { anItem with die := 256 }, .volRead (aReqHdr 1 1) [anItem, { anItem with index := 65536 }],
      .volWrite (aReqHdr 1 1) [{ anItem with sub := 256 }], .volDescribe (aReqHdr 1 1) [{ anItem with inst := 65536 }],
      .volClearCount (aReqHdr 1 1) [{ anItem with count := 65536 }], .volOpen (aReqHdr 0 0) 256 (List.replicate 16 0), .volOpen (aReqHdr 0 0) 0 [],
      .volList (aReqHdr 1 1) 256 0 0, .volList (aReqHdr 1 1) 0 65536 0, .volList (aReqHdr 1 1) 0 0 256, .volBulkBegin (aReqHdr 1 1) anItem (2 ^ 32),
      .volBulkData (aReqHdr 1 1) (2 ^ 32) 0 [], .volBulkData (aReqHdr 1 1) 0 (2 ^ 32) [], .volBulkEnd (aReqHdr 1 1) (2 ^ 32),
      .volBulkRead (aReqHdr 1 1) anItem (2 ^ 32) 0, .volBulkRead (aReqHdr 1 1) anItem 0 (2 ^ 32), .volSubscribe (aReqHdr 1 1) (2 ^ 64) [],
      .volSubscribe (aReqHdr 1 1) 0 [(65536, 0)], .volSubscribe (aReqHdr 1 1) 0 [(0, 65536)], .volAck (aReqHdr 1 1) (2 ^ 64),
      .volLogRead (aReqHdr 1 1) 256 0 0 0, .volLogRead (aReqHdr 1 1) 0 65536 0 0, .volLogRead (aReqHdr 1 1) 0 0 (2 ^ 32) 0,
      .volLogRead (aReqHdr 1 1) 0 0 0 (2 ^ 64)].any Instr.wf = false := by decide +kernel

/-! ### Worked examples of the spec -/

/-- 2160p59.94 (R70). -/
def ref5994 : Format := fmt 0x0607

/-- The example after R72: a PTP time on the Reference Raster. -/
theorem test_coordinate_of_a_time : coordOf ref5994 0 1700000000123456789 = ⟨101898101905, 1130, 1263⟩ := by decide +kernel

/-- The example after R77: the cue's instant lies between 131,863,059.25 and 131,863,059.27 ns of the second. -/
theorem test_instant_of_a_coordinate :
    (instantOf ref5994 0 ⟨101898101906, 14, 0⟩).ceilNs = 1700000000131863060
      ∧ Instant.le ⟨170000000013186305925, 100⟩ (instantOf ref5994 0 ⟨101898101906, 14, 0⟩) = true
      ∧ Instant.le (instantOf ref5994 0 ⟨101898101906, 14, 0⟩) ⟨170000000013186305927, 100⟩ = true := by decide +kernel

/-- The example after R115: a bias of 3,790 over a baseline of 3,125 has drifted by 212 permille. -/
theorem test_bias_drift :
    wearDrifts (overlay (overlay (overlay (List.replicate 104 0) 3 [0x40]) 64 (natBe 2 3125)) 80 (natBe 2 3790)) 1 = [(212, 0)] := by
  decide +kernel

/-- The example after R137: three refills of its table. -/
def shaped (rate burst : Nat) (held : Bool) (tokens : Int) : State :=
  ((put (live .service) [(Obj.shpRate, .a, 3, (rate : Nat)), (Obj.shpBurst, .a, 3, (burst : Nat)), (Obj.shpTokens, .a, 3, tokens)]).updQueue .a 3
    (fun x => { x with rate := 1000000000, burst := 9216, held := held }))
theorem test_shaper_refills_at_a_new_rate :
    ((shaped 400000000 9216 true (-256000)).refill .a 3 1000).rd Obj.shpTokens .a 3 = -243200 := by decide +kernel
theorem test_shaper_refills_to_a_new_burst :
    ((shaped 400000000 2000 true 2359296).refill .a 3 1000).rd Obj.shpTokens .a 3 = 512000 := by decide +kernel

/-- The example after R147: 4320p120 YCbCr-4:2:2 10-bit takes a bond of 8. -/
theorem test_bond : bondOf ⟨0x070B, 0, 0, 0, 0, 0, 0⟩ = some 8 := by decide +kernel

/-- The example after R168: one crossfade step. -/
theorem test_crossfade : crossfade ⟨1000003, true⟩ ⟨-200000, true⟩ 16 6 = ⟨700002, true⟩ := by decide +kernel

/-- The example after R179: 1,920 to 3,840. -/
theorem test_scaler_positions :
    sclStep 1920 3840 = 524288 ∧ sclInit 524288 = -262144 ∧ sclH 1920 3840 0 false = (-1, 48) ∧ sclH 1920 3840 1 false = (0, 16)
      ∧ sclH 1920 3840 3839 false = (1919, 16) := by decide +kernel

/-- The example after R185: a pre-LUT entry and a row of the gamut matrix. -/
theorem test_colour_unit :
    lutAt (overlay (List.replicate 6150 0) 1024 (natBe 2 8506 ++ natBe 2 8569)) 0 16400 = 8538
      ∧ clip3 0 32768 (shrRne (matRow (natBe 2 5140 ++ natBe 2 2697 ++ natBe 2 355 ++ List.replicate 18 0) 0
          (fun i => match i with | 0 => 8538 | 1 => 4000 | _ => 2000)) 13) = 6761 := by decide +kernel

/-- The table after R190: positions of six output pictures of a 1080p50 to 1080p59.94 conversion, before FRC.DELAY. -/
theorem test_converter_positions :
    (List.range 6).map (fun n => frcPosition (fmt 0x0506) (fmt 0x0507) 0 0 (101898101905 + n)) =
      [(85000000005, 49425), (85000000006, 38557), (85000000007, 27688), (85000000008, 16820), (85000000009, 5952), (85000000009, 60620)] := by
  decide +kernel

/-- The standard check value of the CRC (R217) and its bytes of one rectangle. -/
theorem test_crc : crc32 [0x31, 0x32, 0x33, 0x34, 0x35, 0x36, 0x37, 0x38, 0x39] = 0xCBF43926 := by decide +kernel
theorem test_crc_words :
    [0x0200, 0x0040, 0x0200, 0x03AC].flatMap crcWord = [0x00, 0x02, 0x40, 0x00, 0x00, 0x02, 0xAC, 0x03] := by decide +kernel

/-- The example after R259: a horizontal half-sample. -/
theorem test_half_sample :
    predAt ⟨8, 1, fun _ x => [500, 510, 520, 530, 600, 610, 620, 630].getD x 0⟩ 2 0 0 3 = 565 := by decide +kernel

/-- The worked example of rate control (after R288): its channel. -/
def exGeom : EncGeom :=
  { vvc := true, ctu := 128, w := 7680, h := 4352, cols := 60, rows := 34, np := 120, dp := 1, tiles := 1, wave := true, pq := false }
/-- Its settings. -/
def exEnc : EncCfg :=
  { anEnc with
    irapType := 1, vbr := false, bitrate := 400000000, cpb := 5000000, cpbInit := 80, cpbTarget := 80, react := 8, gain := 4,
    qpStep := 1, qpMin := 0, qpMax := 63, wRef := 16, wIrap := 48, ofsIrap := -3, ofsNonref := 0 }
theorem test_rc_minimum_pictures : sPic exGeom false = 66912 ∧ sPic exGeom true = 1176672 ∧ bAvg exGeom exEnc = 3333333 := by decide +kernel
theorem test_rc_budgets :
    pictureBudget exGeom exEnc 474000000 0 false true 512 = 3326571 ∧ pictureBudget exGeom exEnc 476738560 0 true true 2048 = 3970773
      ∧ pictureBudget exGeom exEnc 424632320 0 false true 512 = 3275146 := by decide +kernel
theorem test_rc_rows :
    rhoOf [(792000, 800000)] = 4055 ∧ rowQp exGeom exEnc 0 194000 4055 3326571 2 37 = 37
      ∧ rhoOf [(780000, 800000)] = 3993 ∧ rowQp exGeom exEnc 780000 187000 3993 3326571 10 37 = 36 := by decide +kernel
theorem test_rc_starts : qStart exEnc (some (37, 0)) 1 = 34 ∧ qStart exEnc (some (35, 1)) 0 = 38 := by decide +kernel
theorem test_rc_account : hrdStep exGeom exEnc 474000000 0 3310512 = (476738560, 0, 0) ∧ fullness exGeom 476738560 = 3972821
      ∧ hrdStep exGeom exEnc 476738560 0 3767552 = (424632320, 0, 0) := by decide +kernel

/-- Step 11 of the same example: the guard sends CTUs from 42 on to Scrim. -/
def exGuard : GuardSt := { pic := false, charge := 78000 * 256, bins := 0, job := 0, jobBins := 0, jobScrim := false, scrim := [] }
/-- Row 31 of that picture. -/
def exRow : GuardIn :=
  { geom := exGeom, irap := true, row := 31, limit := 3970773, exact := 3416000, before := 236000 * 256, cap := 10000000, force := 60 }
theorem test_rc_guard :
    (guardCtu exRow exGuard 41 ⟨2000 * 256, 0, 0, 0⟩).scrim = []
      ∧ (guardCtu exRow { exGuard with charge := 80000 * 256 } 42 ⟨2100 * 256, 0, 0, 0⟩).scrim = [(42, true, false)] := by decide +kernel

/-- The example after R294: two channels on one entropy engine, and the bin caps. -/
def exJobs : List EntJob :=
  [{ ch := 0, cap := 142222, rowNum := 128, rowDen := 540000, live := true }, { ch := 1, cap := 284444, rowNum := 64, rowDen := 67500, live := true }]
theorem test_bin_cap :
    (put State.reset [(Obj.encChFormat, .a, 47, 0x070B), (Obj.encChCodec, .a, 47, 1), (Obj.encChCtu, .a, 47, 2), (Obj.entChBinrate, .a, 47, 600000000)]).binCap
      .a 47 = 142222 := by decide +kernel
theorem test_entropy_admission : entAdmitted exJobs = true := by decide +kernel

/-- The example after R336: five 24-bit slots packed into two words. -/
theorem test_audio_packing :
    audPack 24 0xB5 [0x123456, -5517841, 1, -2, 0x7F0000] =
      { mask := 0xB5, words := [(0x123456ABCDEF0000, 8, false), (0x01FFFFFE7F000000, 7, false)] } := by decide +kernel

/-- The example after R348: gain, and the code an L24 flow carries. -/
theorem test_audio_gain :
    audGain ⟨audEnter 24 5000000, true⟩ 95010794 = ⟨906093540, true⟩ ∧ audLeave 24 ⟨906093540, true⟩ = 3539428 := by decide +kernel

/-- The example after R431: 5,330 ns are one line of the destination, rounded up. -/
theorem test_twill_lines : twlLines ref5994 5330 = 1 := by decide +kernel

/-- Test vectors of FIPS 180-4 and FIPS 197, which the spec names. -/
theorem test_sha256 :
    sha256 [0x61, 0x62, 0x63] = natBe 32 0xba7816bf8f01cfea414140de5dae2223b00361a396177a9cb410ff61f20015ad := by decide +kernel
theorem test_aes : aesBlock (aesKeys (natBe 32 0x000102030405060708090a0b0c0d0e0f101112131415161718191a1b1c1d1e1f)) (natBe 16 0x00112233445566778899aabbccddeeff)
    = natBe 16 0x8ea2b7ca516745bfeafc49904b496089 := by decide +kernel

/-- The example after R229: a 4320p120 channel alone on an engine is admitted; a 4320p Deferred one beside it fails the test. -/
theorem test_engine_admission :
    (producerOf 0x070B 128 true).load = 4010803200 * 1001 ∧ admitted [producerOf 0x070B 128 true] = true
      ∧ admitted [producerOf 0x070B 128 true, producerOf 0x070B 128 false] = false
      ∧ (producerOf 0x0606 64 true).load = 417792000 * 1001 := by decide +kernel

/-- The example after R340: an island's integrator and correction. -/
theorem test_island :
    (((put (live .service) [(Obj.audPortEnable, .a, 0, 1), (Obj.audPortRole, .a, 0, 0), (Obj.audPortIsland, .a, 0, 0), (Obj.audPortFifoTarget, .a, 0, 8),
        (Obj.audIslKp, .a, 0, 512), (Obj.audIslKi, .a, 0, 64)]).updAudIsl .a 0 (fun x => { x with integ := 999488 })).islandStep .a 0 520).rd Obj.audIslCorr .a 0 = 8002 := by
  decide +kernel

/-! ### Witnesses of the statements -/

/-- The state of a clause below. -/
def s1 : State := { live .service with seqHold := true }
/-- The state of a clause below. -/
def s2 : State := { live .boot with boot := { BootSt.start with ready := true } }
/-- The state of a clause below. -/
def s3 : State := put { live .standby with powerC := { PowerSt.start with run := .shutdown } } [(Obj.thermTj, .c, 0, 0)]
/-- The state of a clause below. -/
def s4 : State := put { live .standby with powerA := { PowerSt.start with run := .shutdown } } [(Obj.thermTj, .a, 0, 0)]

/-- Meets the hypotheses of `Obligations.ResetsRecordTheirCauseAndKeepMramAndTheOtherDies`, clause by clause. -/
theorem witness_ResetsRecordTheirCauseAndKeepMramAndTheOtherDies :
  (((fun (s : State) =>
    (s.seqHold = false)) (live .service))
    ∧ ((fun (s : State) =>
    (s.seqHold = true)) s1)
    ∧ ((fun (s : State) =>
    (s.seqHold = false) ∧ (s.serverUp = true)) (live .service)))
  ∧ (((fun (d : PDie) (rail : Nat) =>
    (rail < railCount d) ∧ (3 ≤ railGroup d rail)) .a 5)
    ∧ ((fun (s : State) (m : MDie) (rail : Nat) (mv : Nat) =>
    (rail < railCount m.pdie) ∧ (s.up m.pdie = true) ∧ (railSample mv < railReset m.pdie rail)) (live .service) ((.b : MDie)) 0 100)
    ∧ ((fun (s : State) (rail : Nat) (mv : Nat) =>
    (rail < railCount .c) ∧ (s.up .c = true) ∧ (railSample mv < railReset .c rail) ∧ (s.mode ≠ .boot) ∧ (s.boot.ready = false)) (live .service) 0 100))
  ∧ (((fun (s : State) (rail : Nat) (mv : Nat) =>
    (rail < railCount .c) ∧ (s.up .c = true) ∧ (railSample mv < railReset .c rail) ∧ (s.mode = .boot ∨ s.boot.ready = true)) s2 0 100)
    ∧ ((fun (s : State) (d : MDie) =>
    (s.serverUp = true) ∧ (s.up d.pdie = true)) (live .service) .b)
    ∧ ((fun (s : State) =>
    (s.up .c = true) ∧ (s.mode ≠ .boot) ∧ (s.boot.ready = false)) (live .standby)))
  ∧ (((fun (s : State) =>
    (s.up .c = true) ∧ (s.mode = .boot ∨ s.boot.ready = true)) (live .boot))
    ∧ ((fun (s : State) =>
    (s.cooled .c = true)) s3)
    ∧ ((fun (s : State) (d : MDie) =>
    (s.serverUp = true) ∧ (s.cooled d.pdie = true)) s4 .a)) :=
  ⟨by decide +kernel, by decide +kernel, by decide +kernel, by decide +kernel⟩

/-- The state of a clause below. -/
def s5 : State := { live .service with powerA := { PowerSt.start with run := .running, dips := [(1, ⟨5, railReset .a 1⟩)] } }
/-- The state of a clause below. -/
def s6 : State := { live .service with brownouts := [(.c, 0), (.a, 1)] }

/-- Meets the hypotheses of `Obligations.WarningDipsAreRecordedAndReported`, clause by clause. -/
theorem witness_WarningDipsAreRecordedAndReported :
  (((fun (s : State) (d : PDie) (rail : Nat) (mv : Nat) =>
    (rail < railCount d) ∧ (s.up d = true) ∧ (railSample mv < railWarn d rail) ∧ (rail ∉ (s.power d).dips.map (·.1))) (live .service) .a 6 (railWarn .a 6 - 5))
    ∧ ((fun (s : State) (d : PDie) (rail : Nat) (mv : Nat) (volt : Nat) (dip : Dip) =>
    (rail < railCount d) ∧ (s.up d = true) ∧ ((s.power d).dips.find? (fun e => e.1 == rail) = some (rail, dip)) ∧ (railReset d rail ≤ min dip.lowest (railSample mv)) ∧ (railWarn d rail + 15 ≤ railSample volt) ∧ (s.canReport d)) s5 .a 1 (railReset .a 1) (railWarn .a 1 + 15) (⟨5, railReset .a 1⟩))
    ∧ ((fun (s : State) (d : PDie) (rail : Nat) =>
    (s.brownouts.find? (fun e => e.1 == d) = some (d, rail)) ∧ (s.heardFrom d = true)) s6 .a 1)) :=
  by decide +kernel

/-- The state of a clause below. -/
def s7 : State := { live .standby with powerB := { PowerSt.start with run := .running, wakeQueue := [29, 3] } }
/-- The state of a clause below. -/
def s8 : State := put (live .standby) [(Obj.pwrSectionState, .a, 29, 1)]
/-- The state of a clause below. -/
def s9 : State := { live .standby with powerA := { PowerSt.start with run := .running, critRun := 1 } }

/-- Meets the hypotheses of `Obligations.SectionsWakeInTurnAndSensorsAreFollowed`, clause by clause. -/
theorem witness_SectionsWakeInTurnAndSensorsAreFollowed :
  (((fun (s : State) (d : MDie) (n : Nat) (r : List Nat) =>
    ((s.power d.pdie).wakeQueue = n :: r) ∧ (s.reachable d = true) ∧ ((∀ k < 30, s.section d.pdie k ≠ 1))) s7 .b 29 ([3]))
    ∧ ((fun (s : State) (d : MDie) (n : Nat) =>
    (n < 30) ∧ (s.section d.pdie n = 1)) s8 .a 29)
    ∧ ((fun (s : State) (d : MDie) (n : Nat) =>
    (n < 30) ∧ (s.section d.pdie n = 1)) s8 .a 29))
  ∧ (((fun (n : Nat) =>
    (30 ≤ n)) 30)
    ∧ ((fun (n : Nat) =>
    (30 ≤ n)) 30)
    ∧ ((fun (s : State) (d : PDie) (readings : List (Int × Bool)) (tj : Int) =>
    let good (s : State) (d : PDie) (readings : List (Int × Bool)) (tj : Int) : Prop :=
        s.up d = true ∧ readings.length = sensorCount d ∧ (∀ i < sensorCount d, s.rd Obj.thermSensorTemp d.die i ≠ tempFailed)
          ∧ (∀ r ∈ readings, sensorBad r = false ∧ r.1 ≤ tj) ∧ (∃ r ∈ readings, r.1 = tj)
    (good s d readings tj) ∧ (tj < degC 95) ∧ (s.lowerLimit ≤ tj)) (live .standby) .c (List.replicate 4 (degC 95 - 1, true)) (degC 95 - 1)))
  ∧ (((fun (s : State) (d : PDie) (readings : List (Int × Bool)) (tj : Int) (hot : Nat) =>
    let good (s : State) (d : PDie) (readings : List (Int × Bool)) (tj : Int) : Prop :=
        s.up d = true ∧ readings.length = sensorCount d ∧ (∀ i < sensorCount d, s.rd Obj.thermSensorTemp d.die i ≠ tempFailed)
          ∧ (∀ r ∈ readings, sensorBad r = false ∧ r.1 ≤ tj) ∧ (∃ r ∈ readings, r.1 = tj)
    (good s d readings tj) ∧ (degC 100 ≤ tj) ∧ (tj < degC 115) ∧ (s.bit Obj.thermStatus d.die 0 0 = false) ∧ (hot < sensorCount d) ∧ ((readings.getD hot (0, false)).1 = tj) ∧ ((∀ j < hot, (readings.getD j (0, false)).1 ≠ tj)) ∧ (s.canReport d)) (live .standby) .a ([(0, true), (degC 100, true)] ++ List.replicate 10 (degC 20, true)) (degC 100) 1)
    ∧ ((fun (s : State) (d : PDie) (readings : List (Int × Bool)) (tj : Int) =>
    let good (s : State) (d : PDie) (readings : List (Int × Bool)) (tj : Int) : Prop :=
        s.up d = true ∧ readings.length = sensorCount d ∧ (∀ i < sensorCount d, s.rd Obj.thermSensorTemp d.die i ≠ tempFailed)
          ∧ (∀ r ∈ readings, sensorBad r = false ∧ r.1 ≤ tj) ∧ (∃ r ∈ readings, r.1 = tj)
    (good s d readings tj) ∧ (degC 115 ≤ tj) ∧ ((s.power d).critRun = 1)) s9 .a (List.replicate 12 (degC 115, true)) (degC 115))
    ∧ ((fun (s : State) (d : PDie) (readings : List (Int × Bool)) =>
    (s.up d = true) ∧ (readings.length = sensorCount d) ∧ ((∀ r ∈ readings, sensorBad r = true))) (live .standby) .c (List.replicate 4 (0, false))))
  ∧ ((fun (d : PDie) (readings : List (Int × Bool)) =>
    (readings.length ≠ sensorCount d)) .c (List.replicate 5 (0, true))) :=
  ⟨by decide +kernel, by decide +kernel, by decide +kernel, by decide +kernel⟩

/-- The state of a clause below. -/
def s10 : State := put (live .service) [(Obj.laneStatus, .a, 31, 1)]
/-- The state of a clause below. -/
def s11 : State := put (live .service) [(Obj.laneStatus, .a, 0, 9)]
/-- The state of a clause below. -/
def s12 : State := put (live .test) [(Obj.lanePatternRx, .b, 3, 4)]
/-- The state of a clause below. -/
def s13 : State := put (live .test) [(Obj.lanePatternRx, .b, 3, 4), (Obj.laneStatus, .b, 3, 32)]

/-- Meets the hypotheses of `Obligations.LaneStatusAndTheEqualizationTable`, clause by clause. -/
theorem witness_LaneStatusAndTheEqualizationTable :
  (((fun (s : State) (d : MDie) (l : Fin 32) =>
    (s.up d.pdie = true) ∧ (s.bit Obj.laneStatus d.die l 0 = true)) s10 .a 31)
    ∧ ((fun (s : State) (d : MDie) (l : Fin 32) =>
    (s.up d.pdie = true) ∧ (s.bit Obj.laneStatus d.die l 3 = true)) s11 .a 0)
    ∧ ((fun (s : State) (d : MDie) (l : Fin 32) (phase : Nat) (rx : List PamLevel) (gray : List Nat) (e : Nat) =>
    (s.up d.pdie = true) ∧ (s.mode = .test) ∧ (s.rdN Obj.lanePatternRx d.die l ≠ 0) ∧ (s.bit Obj.laneStatus d.die l 5 = false) ∧ ((s.lane d l).run = 0) ∧ (s.rdN Obj.laneLoopback d.die l ≠ 1) ∧ (recvGray (s.rxPre d l) (s.eqBit d l 12) (s.lane d l).rxPrev rx = (gray, e)) ∧ (gray = (List.range 64).map (fun k => patternSymbol (s.rdN Obj.lanePatternRx d.die l) (s.rdN Obj.lanePatternUser d.die l) (phase + k)))) s12 .b 3 0 ((List.range 64).map (fun k => levelOf (patternSymbol 4 0 k))) ((List.range 64).map (fun k => patternSymbol 4 0 k)) 0))
  ∧ (((fun (s : State) (d : MDie) (l : Fin 32) (phase : Nat) (rx : List PamLevel) (gray : List Nat) (e : Nat) (n : Nat) =>
    (s.up d.pdie = true) ∧ (s.bit Obj.laneStatus d.die l 5 = true) ∧ ((s.lane d l).run = 0) ∧ (s.rdN Obj.laneLoopback d.die l ≠ 1) ∧ (recvGray (s.rxPre d l) (s.eqBit d l 12) (s.lane d l).rxPrev rx = (gray, e)) ∧ (gray = (List.range n).map (fun k => patternSymbol (s.rdN Obj.lanePatternRx d.die l) (s.rdN Obj.lanePatternUser d.die l) (phase + k)))) s13 .b 3 0 ((List.range 64).map (fun k => levelOf (patternSymbol 4 0 k))) ((List.range 64).map (fun k => patternSymbol 4 0 k)) 0 64)
    ∧ ((fun (s : State) (d : MDie) (l : Fin 32) (phase : Nat) (rx : List PamLevel) (gray : List Nat) (e : Nat) =>
    (s.up d.pdie = true) ∧ (s.bit Obj.laneStatus d.die l 5 = true) ∧ ((s.lane d l).run = 0) ∧ (s.rdN Obj.laneLoopback d.die l ≠ 1) ∧ (recvGray (s.rxPre d l) (s.eqBit d l 12) (s.lane d l).rxPrev rx = (gray, e)) ∧ (gray.length = 64) ∧ ((∀ k < 64, gray.getD k 0 ≠ patternSymbol (s.rdN Obj.lanePatternRx d.die l) (s.rdN Obj.lanePatternUser d.die l) (phase + k)))) s13 .b 3 0 ((List.range 64).map (fun k => levelOf (3 - patternSymbol 4 0 k))) ((List.range 64).map (fun k => 3 - patternSymbol 4 0 k)) 3)
    ∧ ((fun (s : State) (d : MDie) (q : Fin 8) =>
    (s.up d.pdie = true) ∧ (s.secOn d (6 + q) = true)) (live .standby) .a 7))
  ∧ (((fun (s : State) (d : MDie) (l : Fin 32) (n : Nat) =>
    (s.up d.pdie = true) ∧ (s.rdN Obj.laneFecBypass d.die l = 0) ∧ (tabGet (s.md d).test.symbols l 0 = 0) ∧ (s.firstLane d l = false) ∧ (s.rdN Obj.laneFecDegrade d.die l < n) ∧ (s.bit Obj.laneStatus d.die l 4 = false) ∧ (s.canReport d.pdie)) (live .service) .a 4 5000001)
    ∧ ((fun (s : State) =>
    (s.serverUp = true) ∧ (s.mode ≠ .configure)) (live .standby))
    ∧ ((fun (s : State) (b : List Byte) =>
    (s.serverUp = true) ∧ (s.mode = .configure) ∧ (37412 < b.length)) (live .configure) (List.replicate 37413 0)))
  ∧ (((fun (s : State) (b : List Byte) (r : Nat) (n : Nat) =>
    (s.serverUp = true) ∧ (s.mode = .configure) ∧ (b.length ≤ 37412) ∧ (eqCheck b = some (r, n))) (live .configure) ([]) 1 0)
    ∧ ((fun (s : State) (b : List Byte) =>
    (s.serverUp = true) ∧ (s.mode = .configure) ∧ (b.length ≤ 37412) ∧ (eqCheck b = none)) (live .configure) eqEmpty)) :=
  ⟨by decide +kernel, by decide +kernel, by decide +kernel, by decide +kernel⟩

/-- The state of a clause below. -/
def s14 : State := put (live .service) [(Obj.quadMode, .a, 0, 1), (Obj.laneState, .a, 0, 3)]
/-- The state of a clause below. -/
def s15 : State := put (live .service) [(Obj.quadMode, .a, 0, 1), (Obj.laneStatus, .a, 0, 7)]
/-- The state of a clause below. -/
def s16 : State := put (live .service) [(Obj.quadStatus, .a, 7, 1)]
/-- The state of a clause below. -/
def s17 : State := put (live .service) [(Obj.quadMode, .a, 7, 1)]
/-- The state of a clause below. -/
def s18 : State := put { live .service with dieA := { MediaDie.start with lanes := [(2, { LaneSt.start with target := some 3 })] } } [(Obj.laneState, .a, 2, 4)]

/-- Meets the hypotheses of `Obligations.PortsComeUpAndGoDownWithTheirLanes`, clause by clause. -/
theorem witness_PortsComeUpAndGoDownWithTheirLanes :
  (((fun (s : State) (d : MDie) (f : Fin 32) =>
    (s.up d.pdie = true) ∧ (s.firstLane d f = true) ∧ (s.portUp d f = false) ∧ (s.canReport d.pdie) ∧ ((∀ l ∈ s.portLanes d f, s.laneState d l = 3))) s14 .a 0)
    ∧ ((fun (s : State) (d : MDie) (l : Fin 32) (f : Fin 32) (cause : Nat) =>
    (s.up d.pdie = true) ∧ (cause = 1 ∨ cause = 2) ∧ ((s.portLanes d l).head? = some f.val) ∧ (s.portUp d f = true) ∧ (s.quad d (f / 4) ≠ 4) ∧ (s.canReport d.pdie)) s15 .a 0 0 2)
    ∧ ((fun (s : State) (d : MDie) (q : Fin 8) =>
    (s.up d.pdie = true) ∧ (s.bit Obj.quadStatus d.die q 0 = true) ∧ (s.canReport d.pdie) ∧ ((∀ l < 32, s.portUp d l = false))) s16 .a 7))
  ∧ (((fun (s : State) (d : MDie) (l : Fin 32) =>
    (s.serverUp = true) ∧ (s.up d.pdie = true) ∧ (s.firstLane d l = true)) s17 .a 31)
    ∧ ((fun (s : State) (d : MDie) (l : Fin 32) =>
    (s.serverUp = true) ∧ (s.up d.pdie = true) ∧ (s.firstLane d l = false)) (live .service) .a 31)
    ∧ ((fun (s : State) (d : MDie) (l : Fin 32) (x : LaneSt) (k : Nat) =>
    (s.up d.pdie = true) ∧ (s.laneState d l = 4) ∧ (tabGet (s.md d).lanes l LaneSt.start = x) ∧ (x.held = none) ∧ (x.target = some k)) s18 .a 2 ({ LaneSt.start with target := some 3 }) 3)) :=
  ⟨by decide +kernel, by decide +kernel⟩

/-- The state of a clause below. -/
def s19 : State := (live .service).updCage .a 2 (fun c => { c with step := .polling })
/-- The state of a clause below. -/
def s20 : State := (live .service).updCage .a 0 (fun c => { c with step := .powering, info := some someModule })
/-- The state of a clause below. -/
def s21 : State := (live .service).updCage .a 0 (fun c => { c with step := .dataPath, info := some someModule })
/-- The state of a clause below. -/
def s22 : State := (live .service).updCage .b 6 (fun c => { c with step := .done, info := some someModule })

/-- Meets the hypotheses of `Obligations.ModuleInsertionSequence`, clause by clause. -/
theorem witness_ModuleInsertionSequence :
  (((fun (s : State) (d : MDie) (n : Fin 8) =>
    (s.serverUp = true) ∧ (s.up d.pdie = true) ∧ (s.cageServed d n = true) ∧ ((s.cage d n).step = .empty)) (live .service) .b 7)
    ∧ ((fun (s : State) (d : MDie) (n : Fin 8) =>
    (s.busOpen d n = true) ∧ ((s.cage d n).step = .polling)) s19 .a 2)
    ∧ ((fun (s : State) (d : MDie) (n : Fin 8) =>
    (s.serverUp = true) ∧ (s.cageServed d n = true) ∧ ((s.cage d n).step = .polling)) s19 .a 2))
  ∧ (((fun (s : State) (d : MDie) (n : Fin 8) =>
    (s.busOpen d n = true) ∧ ((s.cage d n).step = .powering)) s20 .a 0)
    ∧ ((fun (s : State) (d : MDie) (n : Fin 8) =>
    (s.busOpen d n = true) ∧ ((s.cage d n).step = .dataPath)) s21 .a 0)
    ∧ ((fun (s : State) (d : MDie) (n : Fin 8) =>
    (s.serverUp = true) ∧ (s.up d.pdie = true) ∧ (s.cageServed d n = true) ∧ ((s.cage d n).step ≠ .empty)) s22 .b 6)) :=
  ⟨by decide +kernel, by decide +kernel⟩

/-- The state of a clause below. -/
def s23 : State := put (live .service) [(Obj.cageStatus, .a, 4, 3)]
/-- The state of a clause below. -/
def s24 : State := (put (live .service) [(Obj.cageStatus, .a, 4, 3)]).updCage .a 4 (fun c => { c with noAck := 3 })
/-- The state of a clause below. -/
def s25 : State := put (live .service) [(Obj.cageStatus, .a, 4, 35)]
/-- The state of a clause below. -/
def s26 : State := putB (put (live .service) [(Obj.cageStatus, .a, 4, 7), (Obj.cageWearRecord, .a, 4, 9)]) [(Obj.wearRecord, .p, 9, List.replicate 96 255)]
/-- The state of a clause below. -/
def s27 : State := putB (live .service) [(Obj.wearRecord, .p, 9, List.replicate 96 255)]

/-- Meets the hypotheses of `Obligations.ModuleBusAndMonitorsAreWatched`, clause by clause. -/
theorem witness_ModuleBusAndMonitorsAreWatched :
  (((fun (s : State) (d : MDie) (n : Fin 8) (v : Nat) =>
    (s.busOpen d n = true) ∧ (s.bit Obj.cageStatus d.die n 1 = true) ∧ (v ≠ 0)) s23 .a 4 8)
    ∧ ((fun (s : State) (d : MDie) (n : Fin 8) =>
    (s.busOpen d n = true) ∧ (s.bit Obj.cageStatus d.die n 0 = true)) s24 .a 4)
    ∧ ((fun (s : State) (d : MDie) (n : Fin 8) =>
    (s.serverUp = true) ∧ (s.up d.pdie = true) ∧ (s.cageServed d n = true) ∧ (s.bit Obj.cageStatus d.die n 5 = true)) s25 .a 4))
  ∧ (((fun (s : State) (d : MDie) (n : Fin 8) =>
    (s.busOpen d n = true) ∧ (s.bit Obj.cageStatus d.die n 1 = true)) s23 .a 4)
    ∧ ((fun (s : State) (d : MDie) (n : Nat) (w : Nat) =>
    (s.serverUp = true) ∧ (s.wearCages = [(d, n)]) ∧ (s.rdN Obj.cageWearRecord d.die n = w) ∧ ((s.rdBytes Obj.wearRecord .p w).length = 96)) s26 .a 4 9)
    ∧ ((fun (s : State) (d : MDie) (n : Nat) (w : Nat) =>
    (s.serverUp = true) ∧ (s.wearCages = [(d, n)]) ∧ (s.rdN Obj.cageWearRecord d.die n = w) ∧ ((s.rdBytes Obj.wearRecord .p w).length = 96)) s26 .a 4 9))
  ∧ ((fun (s : State) =>
    (s.up .c = true) ∧ (mapWf s.blobs = true)) s27) :=
  ⟨by decide +kernel, by decide +kernel, by decide +kernel⟩

/-- The state of a clause below. -/
def s28 : State := (live .service).updPort .b 31 (fun p => { p with arp := [(0xC0A80001, none)] })
/-- The state of a clause below. -/
def s29 : State := (live .service).updPort .a 4 (fun p => { p with fifo := [(7, 1, { vlan := 0xFFFF, src := 1, dst := 2, port := 5004, size := 20, clean := true, rtp := aRtp }, 70)] })
/-- The state of a clause below. -/
def s30 : State := putB (put (live .service) [(Obj.flowInStatus, .a, 4095, 7)]) [(Obj.flowInDesc, .a, 4095, fields 64 [(508, 1)])]
/-- The state of a clause below. -/
def s31 : State := putB (put (live .service) [(Obj.flowInStatus, .a, 9, 1), (Obj.flowInFormat, .a, 9, 0x0607)]) [(Obj.flowInDesc, .a, 9, fields 64 [(508, 1), (507, 1)])]

/-- Meets the hypotheses of `Obligations.ReceivedFramesAreClassifiedOrCounted`, clause by clause. -/
theorem witness_ReceivedFramesAreClassifiedOrCounted :
  (((fun (s : State) (d : MDie) (p : Fin 32) (f : Frame) =>
    (s.up d.pdie = true) ∧ (s.ethPort d p = true) ∧ (s.portUp d p = true) ∧ (f.good = false ∨ f.len < 64 ∨ 9216 < f.len)) (netUp .service) .a 0 ({ len := 9217, good := true, body := .other }))
    ∧ ((fun (s : State) (d : MDie) (p : Fin 32) (len : Nat) =>
    (s.up d.pdie = true) ∧ (s.ethPort d p = true) ∧ (s.portUp d p = true) ∧ (64 ≤ len) ∧ (len ≤ 9216) ∧ ((s.port d p).fifoBytes + len ≤ 65536)) (netUp .service) .a 0 64)
    ∧ ((fun (s : State) (d : MDie) (p : Fin 32) (ip : Nat) =>
    (s.up d.pdie = true) ∧ (tabGet (s.port d p).arp ip (some 0) = none) ∧ (s.canReport d.pdie)) s28 .b 31 0xC0A80001))
  ∧ (((fun (s : State) (d : MDie) (p : Fin 32) (f : Nat) (leg : Nat) (u : Udp) (n : Nat) (rest : List (Nat × Nat × Udp × Nat)) =>
    (s.up d.pdie = true) ∧ (s.inForce = true) ∧ ((s.port d p).fifo = (f, leg, u, n) :: rest)) s29 .a 4 7 1 ({ vlan := 0xFFFF, src := 1, dst := 2, port := 5004, size := 20, clean := true, rtp := aRtp }) 70 ([]))
    ∧ ((fun (s : State) (d : MDie) (f : Fin 4096) (leg : Fin 2) =>
    (s.up d.pdie = true) ∧ (s.inForce = true) ∧ (descKind (s.inDesc d f) ≠ 0) ∧ (s.bit Obj.flowInStatus d.die f (leg + 1) = true) ∧ (s.bit Obj.flowInStatus d.die f (2 - leg) = true) ∧ (s.bit Obj.flowInStatus d.die f 0 = true) ∧ (s.canReport d.pdie)) s30 .a 4095 0)
    ∧ ((fun (s : State) (d : MDie) (f : Fin 4096) =>
    (s.up d.pdie = true) ∧ (s.inForce = true) ∧ (descKind (s.inDesc d f) = 1) ∧ (descBits (s.inDesc d f) 507 507 = 1)) s31 .a 9)) :=
  ⟨by decide +kernel, by decide +kernel⟩

/-- The state of a clause below. -/
def s32 : State := put (live .service) [(Obj.encChEnable, .a, 47, 1), (Obj.encBoltSize, .a, 47, 4)]
/-- The state of a clause below. -/
def s33 : State := put (live .service) [(Obj.encChEnable, .a, 47, 1), (Obj.encBoltFill, .a, 47, 100)]
/-- The state of a clause below. -/
def s34 : State := (putB (put (live .service) [(Obj.scnOutEnable, .a, 3, 1), (Obj.flowOutState, .a, 9, 2)]) [(Obj.flowOutDesc, .a, 9, fields 64 [(508, 1), (504, 1), (160, 3)])]).updFlowOut .a 9 (fun x => { x with run := true })
/-- The state of a clause below. -/
def s35 : State := (putB (put (live .service) [(Obj.scnOutEnable, .a, 3, 1), (Obj.flowOutState, .a, 9, 2)]) [(Obj.flowOutDesc, .a, 9, fields 64 [(508, 4), (160, 3)])]).updFlowOut .a 9 (fun x => { x with run := true })
/-- The state of a clause below. -/
def s36 : State := (putB (put (live .service) [(Obj.queDepth, .a, 5, 2)]) [(Obj.flowInDesc, .a, 9, fields 64 [(508, 4), (180, 5), (160, 2)])]).updQueue .a 5 (fun q => { q with pkts := [aPkt 9 400] })
/-- The state of a clause below. -/
def s37 : State := (putB (put (live .service) [(Obj.queDepth, .a, 5, 1)]) [(Obj.flowInDesc, .a, 9, fields 64 [(508, 4), (180, 5), (160, 2)])]).updQueue .a 5 (fun q => { q with pkts := [aPkt 9 400], taken := 1 })

/-- Meets the hypotheses of `Obligations.QueuesAreFilledAndDrained`, clause by clause. -/
theorem witness_QueuesAreFilledAndDrained :
  (((fun (s : State) (d : MDie) (ch : Fin 48) (n : Nat) =>
    (s.up d.pdie = true) ∧ (s.encUsed d ch = true) ∧ (s.rdN Obj.encBoltFill d.die ch + n ≤ s.boltBytes d ch)) s32 .a 47 4096)
    ∧ ((fun (s : State) (d : MDie) (ch : Fin 48) (n : Nat) =>
    (s.up d.pdie = true) ∧ (s.encUsed d ch = true) ∧ (0 < s.rdN Obj.encBoltFill d.die ch) ∧ (n ≤ s.rdN Obj.encBoltFill d.die ch)) s33 .a 47 100)
    ∧ ((fun (s : State) (d : MDie) (f : Fin 4096) (k : Nat) (np : Nat) (rows : List (Nat × Nat × Nat)) =>
    (s.up d.pdie = true) ∧ (descKind (s.outDesc d f) = 1) ∧ (k < np) ∧ (s.packed d f k np rows = true) ∧ (s.outSends d (descTarget (s.outDesc d f)) = true) ∧ (s.sends d f = true)) s34 .a 9 0 2 ([(0, 0, 8)])))
  ∧ (((fun (s : State) (d : MDie) (f : Fin 4096) =>
    (s.up d.pdie = true) ∧ (descKind (s.outDesc d f) = 4) ∧ (s.outSends d (descTarget (s.outDesc d f)) = true) ∧ (s.sends d f = true)) s35 .a 9)
    ∧ ((fun (s : State) (d : MDie) (q : Fin 4096) (p : Pkt) (rest : List Pkt) =>
    (s.up d.pdie = true) ∧ (s.ingressQueue d q = true) ∧ ((s.queue d q).pkts = p :: rest) ∧ (tabGet (s.md d).bus.words q 0 = 0) ∧ ((s.queue d q).taken + 1 < cellsOf p.len)) s36 .a 5 (aPkt 9 400) ([]))
    ∧ ((fun (s : State) (d : MDie) (q : Fin 4096) (p : Pkt) (rest : List Pkt) =>
    (s.up d.pdie = true) ∧ (s.ingressQueue d q = true) ∧ ((s.queue d q).pkts = p :: rest) ∧ (tabGet (s.md d).bus.words q 0 = 0) ∧ (cellsOf p.len ≤ (s.queue d q).taken + 1) ∧ (descKind (s.inDesc d p.flow) = 4) ∧ (p.poison = false)) s37 .a 5 (aPkt 9 400) ([]))) :=
  ⟨by decide +kernel, by decide +kernel⟩

/-- The state of a clause below. -/
def s38 : State := (netUp .service).updQueue .a 4088 (fun q => { q with pkts := [aPkt 4096 100], deficit := 200 })
/-- The state of a clause below. -/
def s39 : State := (putB (put (live .service) [(Obj.shpTokens, .a, 5, 100)]) [(Obj.flowOutDesc, .a, 9, fields 64 [(508, 2), (488, 0), (480, 255), (180, 5)])]).updQueue .a 5 (fun q => { q with held := false, rate := 1000000, burst := 1500 })
/-- The state of a clause below. -/
def s40 : State := (putB (live .service) [(Obj.flowOutDesc, .a, 9, fields 64 [(508, 1), (488, 0), (480, 255), (180, 5)])]).updQueue .a 5 (fun q => { q with pkts := [aPkt 9 400] })
/-- The state of a clause below. -/
def s41 : State := (live .service).updFlowOut .a 9 (fun f => { f with pend := some (true, 0) })
/-- The state of a clause below. -/
def s42 : State := putB (live .service) [(Obj.flowOutDesc, .a, 9, fields 64 [(508, 2), (480, 255)])]
/-- The state of a clause below. -/
def s43 : State := putB (put (live .service) [(Obj.flowOutState, .a, 9, 2)]) [(Obj.flowOutDesc, .a, 9, fields 64 [(508, 2), (480, 255)])]

/-- Meets the hypotheses of `Obligations.EgressIsScheduledShapedAndPaced`, clause by clause. -/
theorem witness_EgressIsScheduledShapedAndPaced :
  (((fun (s : State) (d : MDie) (p : Fin 32) (h : Pkt) (rest : List Pkt) =>
    (s.up d.pdie = true) ∧ (s.ethPort d p = true) ∧ (s.portUp d p = true) ∧ (s.txFree d p (s.now d.pdie * 1000) = true) ∧ (s.outFlows d = []) ∧ ((s.port d p).gates = none) ∧ ((s.port d p).pending = none) ∧ ((s.queue d (ctlQueue p)).pkts = h :: rest) ∧ ((s.queue d (ctlQueue p)).rate = 0) ∧ (4096 ≤ h.flow) ∧ (h.port = p.val) ∧ (tabGet (s.md d).bus.words (ctlQueue p) 0 = 0) ∧ ((s.frameLen d h : Int) ≤ (s.queue d (ctlQueue p)).deficit)) s38 .a 0 (aPkt 4096 100) ([]))
    ∧ ((fun (s : State) (d : MDie) (q : Nat) =>
    (s.up d.pdie = true) ∧ (((s.md d).net.queues.map (·.1)).Nodup) ∧ ((s.queue d q).held = false) ∧ ((s.queue d q).rate ≠ 0)) s39 .a 5)
    ∧ ((fun (s : State) (d : MDie) (f : Fin 4096) (leg : Fin 2) (h : Pkt) (rest : List Pkt) (r : Nat) =>
    (s.up d.pdie = true) ∧ ((s.queue d (descQueue (s.outDesc d f) (leg + 1))).pkts = h :: rest) ∧ (s.paced d h = true) ∧ (h.flow = f.val) ∧ (h.release = some r) ∧ (r ≤ s.now d.pdie)) s40 .a 9 0 (aPkt 9 400) ([]) 0))
  ∧ (((fun (s : State) (d : MDie) (f : Fin 4096) (start : Bool) (at_ : Nat) =>
    (s.up d.pdie = true) ∧ ((s.flowOut d f).pend = some (start, at_)) ∧ (at_ ≤ s.now d.pdie)) s41 .a 9 true 0)
    ∧ ((fun (s : State) (d : MDie) (f : Fin 4096) =>
    (s.serverUp = true) ∧ (s.mode ≠ .selvedge) ∧ (s.reachable d = true) ∧ (s.outLive d f = true) ∧ (s.outState d f = 0)) s42 .a 9)
    ∧ ((fun (s : State) (d : MDie) (f : Fin 4096) =>
    (s.serverUp = true) ∧ (s.mode ≠ .selvedge) ∧ (s.reachable d = true) ∧ (s.outLive d f = true) ∧ (s.outState d f = 2)) s43 .a 9)) :=
  ⟨by decide +kernel, by decide +kernel⟩

/-- The state of a clause below. -/
def s44 : State := put (live .configure) [(Obj.gateEnable, .a, 31, 1), (Obj.gateCycleNum, .a, 31, 1000), (Obj.gateCycleDen, .a, 31, 1)]
/-- The state of a clause below. -/
def s45 : State := put (live .configure) [(Obj.gateEnable, .a, 31, 1), (Obj.gateCycleNum, .a, 31, 999), (Obj.gateCycleDen, .a, 31, 1)]
/-- The state of a clause below. -/
def s46 : State := (live .service).updPort .a 0 (fun p => { p with pending := some (shutGate, ⟨0, 1⟩) })
/-- The state of a clause below. -/
def s47 : State := (netUp .service).updPort .a 0 (fun p => { p with gates := some shutGate, tx := some (3, 0, 2000000000000000000, false) })

/-- Meets the hypotheses of `Obligations.GateListsStartAndAreWatched`, clause by clause. -/
theorem witness_GateListsStartAndAreWatched :
  (((fun (s : State) (d : MDie) (p : Fin 32) =>
    (s.serverUp = true) ∧ (s.mode ≠ .selvedge) ∧ (s.reachable d = true) ∧ ((s.gateShadow d p).cycleOk = true)) s44 .a 31)
    ∧ ((fun (s : State) (d : MDie) (p : Fin 32) =>
    (s.serverUp = true) ∧ (s.mode ≠ .selvedge) ∧ (s.reachable d = true) ∧ ((s.gateShadow d p).cycleOk = false)) s45 .a 31)
    ∧ ((fun (s : State) (d : MDie) (p : Fin 32) (g : GateSet) (st : Instant) =>
    (s.up d.pdie = true) ∧ ((s.port d p).pending = some (g, st)) ∧ (st.le (.ofNs (s.now d.pdie)) = true) ∧ (s.canReport d.pdie)) s46 .a 0 shutGate (⟨0, 1⟩)))
  ∧ ((fun (s : State) (d : MDie) (p : Fin 32) (tc : Nat) (st : Nat) (e : Nat) =>
    (s.up d.pdie = true) ∧ ((s.port d p).gates.isSome = true) ∧ ((s.port d p).tx = some (tc, st, e, false)) ∧ (s.now d.pdie * 1000 < e) ∧ (s.gateOpenPs d p tc (s.now d.pdie * 1000) = some 0) ∧ (s.canReport d.pdie)) s47 .a 0 3 0 2000000000000000000) :=
  ⟨by decide +kernel, by decide +kernel⟩

/-- The state of a clause below. -/
def s48 : State := put (live .service) [(Obj.loomDstBind, .a, 7, 0x1003), (Obj.loomRouteGroup, .a, 7, 5)]
/-- The state of a clause below. -/
def s49 : State := (put (live .service) [(Obj.loomDstBind, .a, 7, 0x1003), (Obj.loomRouteGroup, .a, 7, 5), (Obj.loomDstBind, .b, 8, 0x1003), (Obj.loomRouteGroup, .b, 8, 5)]).updTwill (fun t => { t with due := [([.a, .b], 5, ⟨77, 1⟩)] })
/-- The state of a clause below. -/
def s50 : State := put (live .service) [(Obj.loomDstBind, .a, 7, 0x1003), (Obj.loomRouteGroup, .a, 7, 5), (Obj.loomRouteSource, .a, 7, 0x40000100)]

/-- Meets the hypotheses of `Obligations.LoomGroupsCommitWholeOrNotAtAll`, clause by clause. -/
theorem witness_LoomGroupsCommitWholeOrNotAtAll :
  (((fun (s : State) (d : MDie) (g : Fin 256) =>
    (s.serverUp = true) ∧ (s.mode ≠ .selvedge) ∧ (s.reachable d = true) ∧ (s.loomOn d = true) ∧ ((∀ c ∈ s.twill.due, c.2.2.le (.ofNs s.time.base) = false)) ∧ ((∀ p ∈ s.groupDsts d g, s.rdN Obj.loomRouteSource d.die p = 0))) s48 .a 5)
    ∧ ((fun (s : State) =>
    (s.serverUp = true) ∧ (s.mode ≠ .selvedge) ∧ (s.reachable .a = true) ∧ (s.reachable .b = true) ∧ ((∀ c ∈ s.twill.due, c.2.2.le (.ofNs s.time.base) = false)) ∧ ((Instant.ofNs (s.time.base + 100000)).le (.ofNs (s.now .a)) = false)) (live .service)))
  ∧ ((fun (s : State) (g : Nat) (i : Instant) =>
    (s.loomOn .a = true) ∧ (s.loomOn .b = true) ∧ (s.twill.due = [([.a, .b], g, i)]) ∧ (i.le (.ofNs s.time.base) = true) ∧ ((∀ (d : MDie), ∀ p ∈ s.groupDsts d g, s.rdN Obj.loomRouteSource d.die p = 0))) s49 5 (⟨77, 1⟩))
  ∧ ((fun (s : State) (g : Nat) (i : Instant) =>
    (s.loomOn .a = true) ∧ (s.loomOn .b = true) ∧ (s.twill.due = [([.a, .b], g, i)]) ∧ (i.le (.ofNs s.time.base) = true) ∧ ((∀ (d : MDie), ∀ p ∈ s.groupDsts d g, s.rdN Obj.loomRouteSource d.die p = 0))) s49 5 (⟨77, 1⟩))
  ∧ ((fun (s : State) (g : Nat) (i : Instant) (d : MDie) (p : Nat) =>
    (s.loomOn .a = true) ∧ (s.loomOn .b = true) ∧ (s.twill.due = [([.a, .b], g, i)]) ∧ (i.le (.ofNs s.time.base) = true) ∧ ((∀ (d : MDie), ∀ p ∈ s.groupDsts d g, s.rdN Obj.loomRouteSource d.die p = 0)) ∧ (p ∈ s.groupDsts d g)) s49 5 (⟨77, 1⟩) ((.b : MDie)) 8)
  ∧ ((fun (s : State) (g : Nat) (i : Instant) (d : MDie) (p : Nat) =>
    (s.loomOn .a = true) ∧ (s.loomOn .b = true) ∧ (s.twill.due = [([.a, .b], g, i)]) ∧ (i.le (.ofNs s.time.base) = true) ∧ ((∀ (d : MDie), ∀ p ∈ s.groupDsts d g, s.rdN Obj.loomRouteSource d.die p = 0)) ∧ (p ∈ s.groupDsts d g)) s49 5 (⟨77, 1⟩) ((.b : MDie)) 8)
  ∧ (((fun (s : State) (d : MDie) (g : Fin 256) (p : Nat) =>
    (s.serverUp = true) ∧ (s.mode ≠ .selvedge) ∧ (s.reachable d = true) ∧ (s.loomOn d = true) ∧ ((∀ c ∈ s.twill.due, c.2.2.le (.ofNs s.time.base) = false)) ∧ (s.groupDsts d g = [p]) ∧ (routeCoded (s.rdN Obj.loomRouteSource d.die p) = false)) s50 .a 5 7)
    ∧ ((fun (s : State) (d : MDie) =>
    (s.serverUp = true) ∧ (s.mode ≠ .selvedge) ∧ (s.reachable d = true)) (live .service) .a)
    ∧ ((fun (s : State) (d : MDie) (r : Nat) =>
    (s.serverUp = true) ∧ (s.mode ≠ .selvedge) ∧ (s.reachable d = true) ∧ (2 ^ 32 ≤ r ∨ routeCoded r = false)) (live .service) .b 0x41000000)) :=
  ⟨by decide +kernel, ⟨by decide +kernel, by decide +kernel, by decide +kernel, by decide +kernel, fun d => by cases d <;> decide +kernel⟩, ⟨by decide +kernel, by decide +kernel, by decide +kernel, by decide +kernel, fun d => by cases d <;> decide +kernel⟩, ⟨by decide +kernel, by decide +kernel, by decide +kernel, by decide +kernel, fun d => by cases d <;> decide +kernel, by decide +kernel⟩, ⟨by decide +kernel, by decide +kernel, by decide +kernel, by decide +kernel, fun d => by cases d <;> decide +kernel, by decide +kernel⟩, by decide +kernel⟩

/-- The state of a clause below. -/
def s51 : State := (live .service).updDst .a 7 (fun x => { x with pend := some ⟨0x40000002, 5, 1000, false⟩, lost := some 3 })
/-- The state of a clause below. -/
def s52 : State := (put (live .service) [(Obj.loomDstBind, .a, 7, 0x1003)]).updDst .a 7 (fun x => { x with primary := 0x40000002 })
/-- The state of a clause below. -/
def s53 : State := put (live .service) [(Obj.loomBridgeTxUsed, .a, 0, 3), (Obj.loomStatus, .a, 0, 3), (Obj.loomStatus, .b, 0, 3)]

/-- Meets the hypotheses of `Obligations.DestinationsSwitchAndLoseTheirSource`, clause by clause. -/
theorem witness_DestinationsSwitchAndLoseTheirSource :
  (((fun (s : State) (d : MDie) (p : Fin 256) (pr : PendRoute) =>
    (s.loomOn d = true) ∧ ((s.dst d p).pend = some pr) ∧ (pr.land ≤ s.now d.pdie) ∧ (s.twill.open_ = []) ∧ ((∀ c ∈ s.twill.due, c.2.2.le (.ofNs s.time.base) = false))) s51 .a 7 (⟨0x40000002, 5, 1000, false⟩))
    ∧ ((fun (s : State) (d : MDie) (p : Fin 256) (m : Fin 5) (u : State) (c : Nat) =>
    (s.loomOn d = true) ∧ (s.noteRemote d p (s.dst d p).primary (if m.val = 0 then none else some m.val) = u) ∧ (u.routeLoss d p (s.dst d p).primary = some c)) s52 .a 7 ((0 : Fin 5)) s52 3)
    ∧ ((fun (s : State) (d : MDie) (p : Fin 256) (m : Fin 5) (u : State) =>
    (s.loomOn d = true) ∧ (s.noteRemote d p (s.dst d p).primary (if m.val = 0 then none else some m.val) = u) ∧ (u.routeLoss d p (s.dst d p).primary = none)) (live .service) .a 7 ((4 : Fin 5)) (live .service)))
  ∧ ((fun (s : State) =>
    (s.up .a = true) ∧ (s.up .b = true)) s53) :=
  ⟨by decide +kernel, by decide +kernel⟩

/-- The state of a clause below. -/
def s54 : State := put (live .service) [(Obj.fsyStatus, .a, 31, 1), (Obj.fsySlots, .a, 31, 3)]
/-- The state of a clause below. -/
def s55 : State := (put (live .service) [(Obj.fsyStatus, .a, 31, 1), (Obj.fsySlots, .a, 31, 3)]).updFsy .a 31 (fun x => { x with writing := some ⟨77, [(0, ⟨1, 2, 3⟩)], [], 0⟩ })
/-- The state of a clause below. -/
def s56 : State := (put (live .service) [(Obj.fsyStatus, .a, 31, 1), (Obj.fsySource, .a, 31, 4), (Obj.loomSrcBind, .a, 4, 0x201F), (Obj.loomSrcBond, .a, 4, 1)]).updFsy .a 31 (fun x => { x with unread := [⟨77, [], [], 5⟩, ⟨78, [], [], 6⟩] })
/-- The state of a clause below. -/
def s57 : State := (put (live .service) [(Obj.fsyStatus, .a, 31, 1), (Obj.fsyFormat, .a, 31, 0x0607)]).updFsy .a 31 (fun x => { x with rateCount := 65, rateStart := 1000000000000000 - 1067733333 })

/-- Meets the hypotheses of `Obligations.FrameSynchronizersWriteAndReadWholeFrames`, clause by clause. -/
theorem witness_FrameSynchronizersWriteAndReadWholeFrames :
  (((fun (s : State) (d : MDie) (n : Fin 32) =>
    (s.up d.pdie = true) ∧ (s.fsyRuns d n = true) ∧ ((s.fsy d n).writing = none) ∧ ((s.fsy d n).unread.length + 2 ≠ s.rdN Obj.fsySlots d.die n)) s54 .a 31)
    ∧ ((fun (s : State) (d : MDie) (n : Fin 32) (pic : Picture) =>
    (s.up d.pdie = true) ∧ (s.fsyRuns d n = true) ∧ ((s.fsy d n).writing = some pic)) s55 .a 31 (⟨77, [(0, ⟨1, 2, 3⟩)], [], 0⟩))
    ∧ ((fun (s : State) (d : MDie) (n : Fin 32) (pic : Picture) (rest : List Picture) =>
    (s.up d.pdie = true) ∧ (s.mode ≠ .selvedge) ∧ (s.fsyRuns d n = true) ∧ ((s.fsyMember d n).2 = 0) ∧ (s.fsyBond d n = [n.val]) ∧ (s.rdN Obj.fsyPolicy d.die n ≠ 1) ∧ ((s.fsy d n).unread = pic :: rest) ∧ (pic.done < s.now d.pdie)) s56 .a 31 (⟨77, [], [], 5⟩) ([⟨78, [], [], 6⟩])))
  ∧ ((fun (s : State) (d : MDie) (n : Fin 32) (f : Format) (rate : Int) =>
    (s.up d.pdie = true) ∧ (s.fsyRuns d n = true) ∧ (64 < (s.fsy d n).rateCount) ∧ ((s.fsy d n).rateStart < s.now d.pdie) ∧ (fmt (s.rdN Obj.fsyFormat d.die n) = f) ∧ (divFlr ((64 * f.den * nsPerSec * 1000000000 : Nat) : Int) (f.num * (s.now d.pdie - (s.fsy d n).rateStart : Nat)) - 1000000000 = rate) ∧ (satS rate 32 = rate)) s57 .a 31 (fmt 0x0607) 0) :=
  ⟨by decide +kernel, by decide +kernel⟩

/-- The state of a clause below. -/
def s58 : State := put (twl 1) [(Obj.idSerial, .p, 0, 5)]
/-- The state of a clause below. -/
def s59 : State := (put (twl 1) [(Obj.idSerial, .p, 0, 5)]).judgeLinks
/-- The state of a clause below. -/
def s60 : State := put (twl 3) [(Obj.idSerial, .p, 0, 5)]

/-- Meets the hypotheses of `Obligations.TwillLinksComeUpAndAreLost`, clause by clause. -/
theorem witness_TwillLinksComeUpAndAreLost :
  (((fun (s : State) =>
    (s.up .c = true)) (twl 3))
    ∧ ((fun (s : State) (d : MDie) (q : Fin 8) (p : TwlPkg) =>
    (s.twlLive d q = true) ∧ (s.twlPortUp d q = true) ∧ (s.rdN Obj.twlEnable .p 0 = 1) ∧ (s.tlinkState d q < 3)) (twl 1) .a 2 (aPkg 77 6))
    ∧ ((fun (s : State) (d : MDie) (q : Fin 8) =>
    (s.twlLive d q = true) ∧ (s.tlinkState d q = 3) ∧ ((s.tlink d q).last + 8000000 ≤ s.time.base)) (twl 3) .a 2))
  ∧ (((fun (s : State) (d : MDie) (q : Fin 8) (p : TwlPkg) (recs : List TwlRec) =>
    (s.twlLive d q = true) ∧ (s.tlinkState d q = 3) ∧ (p.serial ≠ s.twlSelf.serial) ∧ (s.twill.recs.filter (fun r => r.id == p.id) ≠ recs)) (twl 3) .a 2 (aPkg 77 6) ([{ aRec with id := 6, rid := 9 }]))
    ∧ ((fun (s : State) (u : State) (root : TwlPkg) =>
    (s.up .c = true) ∧ (s.rdN Obj.twlEnable .p 0 = 1) ∧ (s.twill.changed + 20000000 ≤ s.time.base) ∧ (s.judgeLinks = u) ∧ (u.selfReason = none) ∧ (rootOf ((u.twlSelf :: u.twill.pkgs).filter (fun p => joinReason (u.twlSelf :: u.twill.pkgs) p == none)) = some root)) s58 s59 ((put (twl 1) [(Obj.idSerial, .p, 0, 5)]).twlSelf))
    ∧ ((fun (s : State) (u : State) =>
    (s.up .c = true) ∧ (s.rdN Obj.twlEnable .p 0 = 1) ∧ (s.twill.changed + 20000000 ≤ s.time.base) ∧ (s.judgeLinks = u) ∧ (u.selfReason ≠ none)) refused refused.judgeLinks))
  ∧ (((fun (s : State) (id : Nat) =>
    (s.up .c = true) ∧ (s.rdN Obj.twlEnable .p 0 = 1) ∧ (id ≠ s.twlId)) s60 63)
    ∧ ((fun (s : State) =>
    (s.up .c = true)) (twl 3))) :=
  ⟨by decide +kernel, by decide +kernel, by decide +kernel⟩

/-- The state of a clause below. -/
def s61 : State := (twl 3).updTlink .a 2 (fun k => { k with tx := (List.range 35).map (fun n => (n, (6, 0, n))) })
/-- The state of a clause below. -/
def s62 : State := put ((twl 3).updTwill (fun t => { t with rx := [(3, aRx 6)] })) [(Obj.twlChState, .a, 3, 1)]
/-- The state of a clause below. -/
def s63 : State := reroute.freeOld .a 3 (aRx 6)
/-- The state of a clause below. -/
def s64 : State := ((reroute.freeOld .a 3 (aRx 6)).tryPath .a 3 { aRx 6 with refused := [] } 4).getD State.reset
/-- The state of a clause below. -/
def s65 : State := put ((twl 3).updTwill (fun t => { t with rx := [(3, aRx 6)] })) [(Obj.twlChState, .a, 3, 3)]
/-- The state of a clause below. -/
def s66 : State := (put ((twl 3).updTwill (fun t => { t with rx := [(3, aRx 6)] })) [(Obj.twlChState, .a, 3, 3)]).freeOld .a 3 (aRx 6)

/-- Meets the hypotheses of `Obligations.TwillChannelsAreAllocatedAndFreed`, clause by clause. -/
theorem witness_TwillChannelsAreAllocatedAndFreed :
  (((fun (s : State) (d : MDie) (q : Fin 8) (srcDie : Nat) (port : Nat) (e : MDie) (n : Nat) (slot : Nat) =>
    (s.twlLive d q = true) ∧ (s.tlinkState d q = 3) ∧ ((if srcDie = 0 then MDie.a else .b) = e) ∧ (s.tapsOf e port < 64) ∧ (lowestFree s.twill.tx (e.num * 256) twlChannels = some n) ∧ (lowestFree (s.tlink d q).tx 0 twlSlots = some slot)) (twl 3) .a 2 0 4 .a 0 0)
    ∧ ((fun (s : State) (d : MDie) (q : Fin 8) (srcDie : Nat) (port : Nat) (e : MDie) =>
    (s.twlLive d q = true) ∧ (s.tlinkState d q = 3) ∧ ((if srcDie = 0 then MDie.a else .b) = e) ∧ (64 ≤ s.tapsOf e port)) tapped .a 2 0 4 .a)
    ∧ ((fun (s : State) (d : MDie) (q : Fin 8) (srcDie : Nat) (port : Nat) (e : MDie) =>
    (s.twlLive d q = true) ∧ (s.tlinkState d q = 3) ∧ ((if srcDie = 0 then MDie.a else .b) = e) ∧ (s.tapsOf e port < 64) ∧ (lowestFree s.twill.tx (e.num * 256) twlChannels = none ∨ lowestFree (s.tlink d q).tx 0 twlSlots = none)) s61 .a 2 0 4 .a))
  ∧ (((fun (s : State) (d : MDie) (q : Fin 8) (e : MDie) (rx : Nat) =>
    (s.twlLive d q = true) ∧ (s.tlinkState d q = 3) ∧ (s.rdN Obj.twlChState e.die rx = 1)) s62 .a 2 .a 3)
    ∧ ((fun (s : State) (d : MDie) (q : Fin 8) (e : MDie) (rx : Nat) (h : TwlHop) (taps : Bool) (c : TwlRx) =>
    (s.twlLive d q = true) ∧ (s.rdN Obj.twlChState e.die rx ≠ 4) ∧ (s.twill.rx.find? (fun x => x.1 == twlKey e rx) = some (twlKey e rx, c)) ∧ (taps = true ∨ s.findPath c.device c.srcDie e (c.refused ++ [h]) = none) ∧ ((∀ o ∈ s.twill.open_, (e, rx) ∉ o.wait))) s62 .a 2 .a 3 (⟨6, 0, 1⟩) false (aRx 6))
    ∧ ((fun (s : State) (d : MDie) (q : Fin 8) =>
    (s.twlLive d q = true)) (twl 3) .a 2))
  ∧ (((fun (s : State) (d : MDie) (n : Fin 128) (k : Nat) (c : TwlRx) (v : State) (u : State) =>
    (s.up .c = true) ∧ (s.rxDue d n = true) ∧ ((∀ m < n.val, s.rxDue d m = false)) ∧ (s.twill.rx.find? (fun x => x.1 == twlKey d n) = some (k, c)) ∧ (s.freeOld d n c = v) ∧ (v.tryPath d n { c with refused := [] } 4 = some u)) reroute .a 3 3 (aRx 6) s63 s64)
    ∧ ((fun (s : State) (d : MDie) (n : Fin 128) (k : Nat) (c : TwlRx) (v : State) (u : State) =>
    (s.up .c = true) ∧ (s.rxDue d n = true) ∧ ((∀ m < n.val, s.rxDue d m = false)) ∧ (s.twill.rx.find? (fun x => x.1 == twlKey d n) = some (k, c)) ∧ (s.freeOld d n c = v) ∧ (v.tryPath d n { c with refused := [] } 4 = some u)) reroute .a 3 3 (aRx 6) s63 s64)
    ∧ ((fun (s : State) (d : MDie) (n : Fin 128) (k : Nat) (c : TwlRx) (v : State) =>
    (s.up .c = true) ∧ (s.rxDue d n = true) ∧ ((∀ m < n.val, s.rxDue d m = false)) ∧ (s.twill.rx.find? (fun x => x.1 == twlKey d n) = some (k, c)) ∧ (s.freeOld d n c = v) ∧ (v.tryPath d n { c with refused := [] } 4 = none)) s65 .a 3 3 (aRx 6) s66)) :=
  ⟨by decide +kernel, by decide +kernel, by decide +kernel⟩

/-- The state of a clause below. -/
def s67 : State := put (twl 3) [(Obj.twlPark, .p, 0, 1)]
/-- The state of a clause below. -/
def s68 : State := (twl 3).updTwill (fun t => { t with fwd := [(2 * 64 + 5, (8 + 3, 1))] })
/-- The state of a clause below. -/
def s69 : State := ((twl 3).updTwill (fun t => { t with rx := [(3, aRx 6)] })).updTlink .a 2 (fun k => { k with rx := [(5, (6, 0, 3))] })

/-- Meets the hypotheses of `Obligations.TwillLinksMeasureParkAndCarryFlits`, clause by clause. -/
theorem witness_TwillLinksMeasureParkAndCarryFlits :
  (((fun (s : State) (d : MDie) (q : Fin 8) =>
    (s.twlLive d q = true) ∧ (s.tlinkState d q = 3)) (twl 3) .a 2)
    ∧ ((fun (s : State) (d : MDie) (q : Fin 8) =>
    (s.twlLive d q = true)) (twl 3) .a 2)
    ∧ ((fun (s : State) (d : MDie) (q : Fin 8) =>
    (s.twlLive d q = true) ∧ (s.tlinkState d q = 3) ∧ (s.rdN Obj.twlPark .p 0 = 1) ∧ ((s.tlink d q).tx = []) ∧ ((s.tlink d q).rx = []) ∧ ((s.tlink d q).idle + 10 * nsPerSec ≤ s.time.base)) s67 .a 2))
  ∧ (((fun (s : State) (d : MDie) (q : Fin 8) =>
    (s.twlLive d q = true) ∧ (s.tlinkState d q = 4)) (twl 4) .a 2)
    ∧ ((fun (s : State) (d : MDie) (q : Fin 8) =>
    (s.twlLive d q = true) ∧ (s.tlinkState d q = 4)) (twl 4) .a 2)
    ∧ ((fun (s : State) (d : MDie) (q : Fin 8) (f : TwlFlit) (k : Nat) (l : MDie) (r : Fin 8) (slot : Nat) =>
    (s.twlLive d q = true) ∧ (s.tlinkState d q = 3) ∧ (s.twill.fwd.find? (fun e => e.1 == (d.num * 8 + q) * 64 + f.slot) = some (k, l.num * 8 + r, slot))) s68 .a 2 ({ slot := 5, content := 0, seq := 10, data := [] }) 133 .b 3 1))
  ∧ (((fun (s : State) (d : MDie) (q : Fin 8) (f : TwlFlit) (dev : Nat) (e : MDie) (rx : Nat) (k : Nat) (c : TwlRx) (n : Nat) =>
    (s.twlLive d q = true) ∧ (s.tlinkState d q = 3) ∧ (s.twill.fwd.find? (fun e => e.1 == (d.num * 8 + q) * 64 + f.slot) = none) ∧ ((s.tlink d q).rx.find? (fun e => e.1 == f.slot) = some (f.slot, dev, e.num, rx)) ∧ (s.twill.rx.find? (fun x => x.1 == twlKey e rx) = some (k, c)) ∧ (c.seq = some n)) s69 .a 2 ({ slot := 5, content := 0, seq := 12, data := [] }) 6 .a 3 3 (aRx 6) 9)
    ∧ ((fun (s : State) (d : MDie) (q : Fin 8) (kind3 : Bool) (crcOk : Bool) =>
    (s.twlLive d q = true) ∧ ((kind3 = true ∨ crcOk = false))) (twl 3) .a 2 true true)
    ∧ ((fun (s : State) (d : MDie) (q : Fin 8) (kind3 : Bool) (crcOk : Bool) (m : TwlMsg) =>
    (s.twlLive d q = true) ∧ (kind3 = false) ∧ (crcOk = true) ∧ (m.dst = s.twlId)) (twl 3) .a 2 false true ({ src := 6, dst := (twl 3).twlId, hops := 1, gen := 1, body := .free 0 3 [] })))
  ∧ ((fun (s : State) =>
    (s.up .c = true)) (twl 3)) :=
  ⟨by decide +kernel, by decide +kernel, by decide +kernel, by decide +kernel⟩

/-- The state of a clause below. -/
def s70 : State := putB (put (live .service) [(Obj.cnvChainEnable, .a, 31, 1), (Obj.cnvChainMode, .a, 31, 1), (Obj.memCapacity, .a, 0, 17179869184), (Obj.memChEnabled, .a, 0, 4095)]) [(Obj.cnvCoefSet, .a, 0, List.replicate 1024 1)]
/-- The state of a clause below. -/
def s71 : State := put (live .service) [(Obj.cnvChainEnable, .a, 31, 1), (Obj.cnvSclVtaps, .a, 31, 99)]
/-- The state of a clause below. -/
def s72 : State := (live .service).updChain .a 31 (fun x => { x with pend := some (State.reset.chainShadow .a 0, 0) })
/-- The state of a clause below. -/
def s73 : State := put (live .service) [(Obj.cnvCoefUsers, .a, 63, 1)]

/-- Meets the hypotheses of `Obligations.ConversionChainsCommitAndApplyTheirSets`, clause by clause. -/
theorem witness_ConversionChainsCommitAndApplyTheirSets :
  (((fun (s : State) (d : MDie) (n : Fin 32) =>
    (s.serverUp = true) ∧ (s.mode ≠ .selvedge) ∧ (s.reachable d = true) ∧ (s.chainUsed d n = true) ∧ (((s.ans .ok).chainCommit d n (.ofNs (s.now d.pdie))).2 = true)) s70 .a 31)
    ∧ ((fun (s : State) (d : MDie) (n : Fin 32) =>
    (s.serverUp = true) ∧ (s.mode ≠ .selvedge) ∧ (s.reachable d = true) ∧ (s.chainUsed d n = true) ∧ (((s.ans .ok).chainCommit d n (.ofNs (s.now d.pdie))).2 = false)) s71 .a 31)
    ∧ ((fun (s : State) (d : MDie) (n : Fin 32) (g : ChainCfg) (land : Nat) =>
    (s.up d.pdie = true) ∧ (s.secOn d secCnv = true) ∧ ((s.chain d n).pend = some (g, land)) ∧ (land ≤ s.now d.pdie)) s72 .a 31 (State.reset.chainShadow .a 0) 0))
  ∧ (((fun (s : State) (d : MDie) (b : List Byte) =>
    (s.serverUp = true) ∧ (s.mode ≠ .selvedge) ∧ (s.reachable d = true) ∧ (b.length ≠ 1024)) (live .service) .a (List.replicate 1025 1))
    ∧ ((fun (s : State) (d : MDie) (n : Fin 64) (b : List Byte) =>
    (s.serverUp = true) ∧ (s.mode ≠ .selvedge) ∧ (s.reachable d = true) ∧ (b.length = 1024) ∧ (s.rdN Obj.cnvCoefUsers d.die n ≠ 0)) s73 .a 63 (List.replicate 1024 1))
    ∧ ((fun (s : State) (d : MDie) (n : Fin 64) (b : List Byte) =>
    (s.serverUp = true) ∧ (s.mode ≠ .selvedge) ∧ (s.reachable d = true) ∧ (b.length = 1024) ∧ (s.rdN Obj.cnvCoefUsers d.die n = 0) ∧ ((∀ ph < 64, coefPhaseOk b ph = true))) (live .service) .a 63 (coefs 64)))
  ∧ ((fun (s : State) (d : MDie) (n : Fin 64) (b : List Byte) (ph : Nat) =>
    (s.serverUp = true) ∧ (s.mode ≠ .selvedge) ∧ (s.reachable d = true) ∧ (b.length = 1024) ∧ (s.rdN Obj.cnvCoefUsers d.die n = 0) ∧ (ph < 64) ∧ (coefPhaseOk b ph = false) ∧ ((∀ k < ph, coefPhaseOk b k = true))) (live .service) .a 63 (List.replicate 1024 1) 0) :=
  ⟨by decide +kernel, by decide +kernel, by decide +kernel⟩

/-- The state of a clause below. -/
def s74 : State := (put (live .service) [(Obj.cnvChainMode, .a, 1, 1)]).updChain .a 1 (fun x => { x with work := some (State.reset.chainShadow .a 1) })
/-- The state of a clause below. -/
def s75 : State := frcChain [(frcNow.1 - State.reset.rdN Obj.cnvFrcDelay .a 0).toNat, (frcNow.1 - State.reset.rdN Obj.cnvFrcDelay .a 0).toNat + 1] true

/-- Meets the hypotheses of `Obligations.OutputPicturesComeFromTheStoredOnes`, clause by clause. -/
theorem witness_OutputPicturesComeFromTheStoredOnes :
  (((fun (s : State) (d : MDie) (n : Fin 32) (g : ChainCfg) =>
    (s.up d.pdie = true) ∧ (s.secOn d secCnv = true) ∧ ((s.chain d n).work = some g) ∧ (s.frameMode d n = true) ∧ (s.rdN Obj.cnvChainFrc d.die n = 0xFF)) s74 .a 1 (State.reset.chainShadow .a 1))
    ∧ ((fun (s : State) (d : MDie) (n : Fin 32) (g : ChainCfg) (m : Nat) (k : Int) (q : Int) (ph : Nat) =>
    (s.up d.pdie = true) ∧ (s.secOn d secCnv = true) ∧ ((s.chain d n).work = some g) ∧ (s.frameMode d n = true) ∧ (s.rdN Obj.cnvChainFrc d.die n = m) ∧ (m ≠ 0xFF) ∧ (frcPosition (fmt (s.chainIn d n).format) (fmt (s.chainOut d n).format) (s.chainIn d n).ofs (s.chainOut d n).ofs (coordOf (fmt (s.chainOut d n).format) (s.chainOut d n).ofs (s.now d.pdie)).frame = (q, ph)) ∧ (q - s.rdN Obj.cnvFrcDelay d.die m = k) ∧ (((s.chain d n).picture k).isSome = true) ∧ (((s.chain d n).picture (k + 1)).isSome = true) ∧ (s.fieldFor d n m (k + 1).toNat = none)) s75 .a 1 (State.reset.chainShadow .a 1) 0 (frcNow.1 - State.reset.rdN Obj.cnvFrcDelay .a 0) frcNow.1 frcNow.2)
    ∧ ((fun (s : State) (d : MDie) (n : Fin 32) (g : ChainCfg) (m : Nat) (k : Int) (q : Int) (ph : Nat) =>
    (s.up d.pdie = true) ∧ (s.secOn d secCnv = true) ∧ ((s.chain d n).work = some g) ∧ (s.frameMode d n = true) ∧ (s.rdN Obj.cnvChainFrc d.die n = m) ∧ (m ≠ 0xFF) ∧ (frcPosition (fmt (s.chainIn d n).format) (fmt (s.chainOut d n).format) (s.chainIn d n).ofs (s.chainOut d n).ofs (coordOf (fmt (s.chainOut d n).format) (s.chainOut d n).ofs (s.now d.pdie)).frame = (q, ph)) ∧ (q - s.rdN Obj.cnvFrcDelay d.die m = k) ∧ ((s.chain d n).picture k = none ∨ (s.chain d n).picture (k + 1) = none) ∧ ((s.chain d n).ready = false) ∧ ((s.chain d n).picture (k + 1) = none)) (frcChain [] false) .a 1 (State.reset.chainShadow .a 1) 0 (frcNow.1 - State.reset.rdN Obj.cnvFrcDelay .a 0) frcNow.1 frcNow.2))
  ∧ ((fun (s : State) (d : MDie) (n : Fin 32) (g : ChainCfg) (m : Nat) (k : Int) (q : Int) (ph : Nat) =>
    (s.up d.pdie = true) ∧ (s.secOn d secCnv = true) ∧ ((s.chain d n).work = some g) ∧ (s.frameMode d n = true) ∧ (s.rdN Obj.cnvChainFrc d.die n = m) ∧ (m ≠ 0xFF) ∧ (frcPosition (fmt (s.chainIn d n).format) (fmt (s.chainOut d n).format) (s.chainIn d n).ofs (s.chainOut d n).ofs (coordOf (fmt (s.chainOut d n).format) (s.chainOut d n).ofs (s.now d.pdie)).frame = (q, ph)) ∧ (q - s.rdN Obj.cnvFrcDelay d.die m = k) ∧ ((s.chain d n).picture k = none ∨ (s.chain d n).picture (k + 1) = none) ∧ ((s.chain d n).ready = true ∨ ((s.chain d n).picture (k + 1)).isSome = true) ∧ (s.canReport d.pdie)) (frcChain [] true) .a 1 (State.reset.chainShadow .a 1) 0 (frcNow.1 - State.reset.rdN Obj.cnvFrcDelay .a 0) frcNow.1 frcNow.2) :=
  ⟨by decide +kernel, by decide +kernel⟩

/-- The state of a clause below. -/
def s76 : State := put (live .service) [(Obj.compSurfSize, .a, 0, 1), (Obj.compSurfOffset, .a, 0, 1048575)]
/-- The state of a clause below. -/
def s77 : State := put (live .service) [(Obj.compSurfSize, .a, 0, 1), (Obj.compSurfOffset, .a, 0, 1048576)]
/-- The state of a clause below. -/
def s78 : State := put (live .service) [(Obj.cmpEnable, .a, 7, 1)]
/-- The state of a clause below. -/
def s79 : State := put (live .service) [(Obj.cmpEnable, .a, 7, 1), (Obj.pwrSectionState, .a, 20, 0), (Obj.pwrSectionState, .a, 19, 0), (Obj.pwrSectionState, .a, 18, 0), (Obj.pwrSectionState, .a, 17, 0), (Obj.pwrSectionState, .a, 21, 0)]
/-- The state of a clause below. -/
def s80 : State := ((live .service).updCmp .a 2 (fun x => { x with pend := some aCmp, queued := true })).updVideo .a (fun v => { v with pressQueue := [2] })
/-- The state of a clause below. -/
def s81 : State := (live .service).updCmp .a 2 (fun x => { x with pend := some aCmp, pressing := some 5 })
/-- The state of a clause below. -/
def s82 : State := (live .service).updCmp .a 7 (fun x => { x with pend := some aCmp })
/-- The state of a clause below. -/
def s83 : State := (live .service).updCmp .a 7 (fun x => { x with pend := some aCmp, queued := true })
/-- The state of a clause below. -/
def s84 : State := (live .service).updCmp .a 7 (fun x => { x with staged := some aCmp })

/-- Meets the hypotheses of `Obligations.CompositorsCommitPressAndLatch`, clause by clause. -/
theorem witness_CompositorsCommitPressAndLatch :
  (((fun (s : State) (d : MDie) (b : List Byte) =>
    (s.serverUp = true) ∧ (s.mode ≠ .selvedge) ∧ (s.reachable d = true) ∧ (b.length ≤ 65536) ∧ (s.rdN Obj.compSurfOffset d.die 0 + b.length ≤ s.regionBytes d)) s76 .a ([7]))
    ∧ ((fun (s : State) (d : MDie) (b : List Byte) =>
    (s.serverUp = true) ∧ (s.mode ≠ .selvedge) ∧ (s.reachable d = true) ∧ (b.length ≤ 65536) ∧ (s.regionBytes d < s.rdN Obj.compSurfOffset d.die 0 + b.length)) s77 .a ([7]))
    ∧ ((fun (s : State) (d : MDie) (n : Fin 8) =>
    (s.serverUp = true) ∧ (s.mode ≠ .selvedge) ∧ (s.reachable d = true) ∧ (s.cmpUsed d n = true) ∧ (((s.ans .ok).cmpCommit d n (.ofNs (s.now d.pdie)) false true).2 = true)) s78 .a 7))
  ∧ (((fun (s : State) (d : MDie) (n : Fin 8) =>
    (s.serverUp = true) ∧ (s.mode ≠ .selvedge) ∧ (s.reachable d = true) ∧ (s.cmpUsed d n = true) ∧ (((s.ans .ok).cmpCommit d n (.ofNs (s.now d.pdie)) false true).2 = false)) s79 .a 7)
    ∧ ((fun (s : State) (d : MDie) (n : Fin 8) =>
    (s.serverUp = true) ∧ (s.mode ≠ .selvedge) ∧ (s.reachable d = true) ∧ (s.cmpUsed d n = true) ∧ (((s.ans .ok).cmpCommit d n (.ofNs (s.now d.pdie)) true true).2 = true)) s78 .a 7)
    ∧ ((fun (s : State) (d : MDie) (n : Fin 8) =>
    (s.serverUp = true) ∧ (s.mode ≠ .selvedge) ∧ (s.reachable d = true) ∧ (s.cmpUsed d n = true) ∧ (((s.ans .ok).cmpCommit d n (.ofNs (s.now d.pdie)) true true).2 = false)) s79 .a 7))
  ∧ (((fun (s : State) (d : MDie) (n : Fin 8) (g : CmpCfg) =>
    (s.up d.pdie = true) ∧ (s.secOn d (secCmp n) = true) ∧ ((s.cmp d n).pend = some g) ∧ ((s.cmp d n).queued = true) ∧ ((s.md d).video.pressQueue.find? (fun j => secCmp j == secCmp n) = some n.val) ∧ ((∀ j < 8, secCmp j = secCmp n → (s.cmp d j).pressing = none))) s80 .a 2 aCmp)
    ∧ ((fun (s : State) (d : MDie) (n : Fin 8) (g : CmpCfg) (e : Nat) =>
    (s.up d.pdie = true) ∧ (s.secOn d (secCmp n) = true) ∧ ((s.cmp d n).pend = some g) ∧ ((s.cmp d n).pressing = some e) ∧ (e ≤ s.now d.pdie)) s81 .a 2 aCmp 5)
    ∧ ((fun (s : State) (d : MDie) (n : Fin 64) (g : CmpCfg) =>
    (n.val < 8) ∧ (s.up d.pdie = true) ∧ (s.secOn d (secCmp n) = true) ∧ ((s.cmp d n).pend = some g) ∧ ((s.cmp d n).rest.all (fun r => decide (r.start ≤ s.now d.pdie)) = true) ∧ (notLate (s.cmp d n).lateUntil (fmt (s.cmpAttr d n).format) (s.cmpAttr d n).ofs (s.now d.pdie) = true) ∧ ((s.cmp d n).queued = false) ∧ ((s.cmp d n).pressing = none)) s82 .a 7 aCmp))
  ∧ (((fun (s : State) (d : MDie) (n : Fin 64) (g : CmpCfg) =>
    (n.val < 8) ∧ (s.up d.pdie = true) ∧ (s.secOn d (secCmp n) = true) ∧ ((s.cmp d n).pend = some g) ∧ ((s.cmp d n).rest.all (fun r => decide (r.start ≤ s.now d.pdie)) = true) ∧ (notLate (s.cmp d n).lateUntil (fmt (s.cmpAttr d n).format) (s.cmpAttr d n).ofs (s.now d.pdie) = true) ∧ ((s.cmp d n).queued = true ∨ (s.cmp d n).pressing ≠ none)) s83 .a 7 aCmp)
    ∧ ((fun (s : State) (d : MDie) (n : Fin 64) (g : CmpCfg) =>
    (n.val < 8) ∧ (s.up d.pdie = true) ∧ (s.secOn d (secCmp n) = true) ∧ ((s.cmp d n).staged = some g)) s84 .a 7 aCmp)
    ∧ ((fun (n : Fin 64) =>
    (8 ≤ n.val)) 8))
  ∧ ((fun (n : Fin 64) =>
    (8 ≤ n.val)) 8) :=
  ⟨by decide +kernel, by decide +kernel, by decide +kernel, by decide +kernel, by decide +kernel⟩

/-- The state of a clause below. -/
def s85 : State := put (live .service) [(Obj.scnOutEnable, .a, 63, 1)]
/-- The state of a clause below. -/
def s86 : State := put (live .service) [(Obj.scnOutEnable, .a, 63, 1), (Obj.pwrSectionState, .a, 21, 0)]
/-- The state of a clause below. -/
def s87 : State := put (live .service) [(Obj.scnOutEnable, .a, 63, 1), (Obj.scnOutOfsPending, .a, 63, 100)]
/-- The state of a clause below. -/
def s88 : State := (live .service).updOutp .a 63 (fun x => { x with pend := some anOut })
/-- The state of a clause below. -/
def s89 : State := (live .service).updOutp .a 63 (fun x => { x with staged := some anOut })
/-- The state of a clause below. -/
def s90 : State := (live .service).updOutp .a 63 (fun x => { x with next := some ⟨0x0603, 7, 0x0110, 5, 1, ⟨0, 1⟩, 4, ⟨0, 1⟩, 0⟩ })
/-- The state of a clause below. -/
def s91 : State := (live .service).updOutp .a 63 (fun x => { x with work := some { anOut with crc := List.replicate 16 ⟨⟨0, 0, 8, 2⟩, 1, 0⟩ } })

/-- Meets the hypotheses of `Obligations.OutputsCommitLatchAndChangeRaster`, clause by clause. -/
theorem witness_OutputsCommitLatchAndChangeRaster :
  (((fun (s : State) (d : MDie) (m : Fin 64) =>
    (s.serverUp = true) ∧ (s.mode ≠ .selvedge) ∧ (s.reachable d = true) ∧ (s.outUsed d m = true) ∧ (s.outFault d m (s.outShadow d m) = none)) s85 .a 63)
    ∧ ((fun (s : State) (d : MDie) (m : Fin 64) (r : Nat) =>
    (s.serverUp = true) ∧ (s.mode ≠ .selvedge) ∧ (s.reachable d = true) ∧ (s.outUsed d m = true) ∧ (s.outFault d m (s.outShadow d m) = some r)) s86 .a 63 5)
    ∧ ((fun (s : State) (d : MDie) (m : Fin 64) (a : Attr) =>
    (s.serverUp = true) ∧ (s.mode ≠ .selvedge) ∧ (s.reachable d = true) ∧ (s.outUsed d m = true) ∧ (s.secOn d secScn = true) ∧ (a = Attr.ofWord (if s.rdN Obj.scnOutFormatPending d.die m = 0 then s.rdN Obj.scnOutFormat d.die m else s.rdN Obj.scnOutFormatPending d.die m) (s.rdN Obj.scnOutOfsPending d.die m) (if s.rdN Obj.scnOutAttrPending d.die m = 0xFFFF then s.rdN Obj.scnOutAttr d.die m else s.rdN Obj.scnOutAttrPending d.die m)) ∧ (s.pendingOk d m a = true) ∧ (s.outAttr d m ≠ a ∨ (s.outp d m).next.isSome = true)) s87 .a 63 ({ (live .service).outAttr .a 63 with ofs := 100 })))
  ∧ (((fun (s : State) (d : MDie) (m : Fin 64) (g : OutCfg) =>
    (s.up d.pdie = true) ∧ (s.secOn d secScn = true) ∧ ((s.outp d m).next = none) ∧ ((s.outp d m).pend = some g) ∧ (notLate (s.outp d m).lateUntil (s.outRasterNow d m).1 (s.outRasterNow d m).2 (s.now d.pdie) = true)) s88 .a 63 anOut)
    ∧ ((fun (s : State) (d : MDie) (m : Fin 64) (g : OutCfg) =>
    (s.up d.pdie = true) ∧ (s.secOn d secScn = true) ∧ ((s.outp d m).staged = some g)) s89 .a 63 anOut)
    ∧ ((fun (s : State) (d : MDie) (m : Fin 64) (r : NextRaster) =>
    (s.up d.pdie = true) ∧ (s.secOn d secScn = true) ∧ ((s.outp d m).next = some r) ∧ (r.start ≤ s.now d.pdie) ∧ (s.canReport d.pdie)) s90 .a 63 (⟨0x0603, 7, 0x0110, 5, 1, ⟨0, 1⟩, 4, ⟨0, 1⟩, 0⟩)))
  ∧ ((fun (s : State) (d : MDie) (i : Fin 1024) (c : CrcCfg) =>
    (s.up d.pdie = true) ∧ (s.secOn d secScn = true) ∧ ((s.outp d (i.val / 16)).work.bind (fun g => g.crc[i.val % 16]?) = some c) ∧ (0 < c.rect.w) ∧ (c.mode = 1) ∧ (s.outSilent d (i.val / 16) = false)) s91 .a 1023 (⟨⟨0, 0, 8, 2⟩, 1, 0⟩)) :=
  ⟨by decide +kernel, by decide +kernel, by decide +kernel⟩

/-- The state of a clause below. -/
def s92 : State := chan 1 (fun x => { x with control := some (true, 0), work := some anEnc })
/-- The state of a clause below. -/
def s93 : State := chan 3 (fun x => { x with control := some (false, 0), work := some anEnc })
/-- The state of a clause below. -/
def s94 : State := chan 2 (fun x => { x with pend := some (anEnc, 0) })
/-- The state of a clause below. -/
def s95 : State := put (chan 2 (fun x => { x with moveTo := some 1 })) [(Obj.encChOfs, .a, 47, 2114 * 4400)]
/-- The state of a clause below. -/
def s96 : State := put (chan 2 (fun x => { x with moveTo := some 255 })) [(Obj.encChOfs, .a, 47, 2114 * 4400)]
/-- The state of a clause below. -/
def s97 : State := put (chan 2 id) [(Obj.entChEngines, .a, 47, 128)]

/-- Meets the hypotheses of `Obligations.EncodeChannelsCommitStartStopAndMove`, clause by clause. -/
theorem witness_EncodeChannelsCommitStartStopAndMove :
  (((fun (s : State) (d : MDie) (c : Fin 48) =>
    (s.serverUp = true) ∧ (s.mode ≠ .selvedge) ∧ (s.reachable d = true) ∧ (s.encUsed d c = true)) (chan 0 id) .a 47)
    ∧ ((fun (s : State) (d : MDie) =>
    (s.serverUp = true) ∧ (s.mode ≠ .selvedge) ∧ (s.reachable d = true) ∧ (s.encModes = false)) (live .configure) .a)
    ∧ ((fun (s : State) (d : MDie) =>
    (s.serverUp = true) ∧ (s.mode ≠ .selvedge) ∧ (s.reachable d = true) ∧ (s.encModes = false)) (live .configure) .a))
  ∧ (((fun (s : State) (d : MDie) (c : Fin 48) =>
    (s.serverUp = true) ∧ (s.mode ≠ .selvedge) ∧ (s.reachable d = true) ∧ (s.encModes = true) ∧ (s.encIdle d c true = true)) (live .service) .a 47)
    ∧ ((fun (s : State) (d : MDie) (c : Fin 48) =>
    (s.serverUp = true) ∧ (s.mode ≠ .selvedge) ∧ (s.reachable d = true) ∧ (s.encModes = true) ∧ (s.encUsed d c = true) ∧ (s.encState d c ≠ 2)) (chan 0 id) .a 47)
    ∧ ((fun (s : State) (d : MDie) (c : Fin 48) =>
    (s.serverUp = true) ∧ (s.mode ≠ .selvedge) ∧ (s.reachable d = true) ∧ (s.encModes = true) ∧ (s.encUsed d c = true) ∧ (s.encState d c ≠ 0)) (chan 2 id) .a 47))
  ∧ (((fun (s : State) (d : MDie) (c : Fin 48) (land : Nat) (g : EncCfg) =>
    (s.up d.pdie = true) ∧ (s.encModes = true) ∧ (land ≤ s.now d.pdie) ∧ (s.canReport d.pdie) ∧ ((s.enc d c).control = some (true, land)) ∧ ((s.enc d c).work = some g)) s92 .a 47 0 anEnc)
    ∧ ((fun (s : State) (d : MDie) (c : Fin 48) (land : Nat) =>
    (s.up d.pdie = true) ∧ (s.encModes = true) ∧ (land ≤ s.now d.pdie) ∧ (s.canReport d.pdie) ∧ ((s.enc d c).control = some (false, land)) ∧ ((s.enc d c).pics = [])) s93 .a 47 0)
    ∧ ((fun (s : State) (d : MDie) (c : Fin 48) (g : EncCfg) (land : Nat) =>
    (s.up d.pdie = true) ∧ ((s.enc d c).pend = some (g, land)) ∧ (land ≤ s.now d.pdie)) s94 .a 47 anEnc 0))
  ∧ (((fun (s : State) (d : MDie) (c : Fin 48) (e : Nat) =>
    (s.up d.pdie = true) ∧ ((s.enc d c).moveTo = some e) ∧ ((s.enc d c).entMove = none) ∧ (s.atPictureBoundary d c = true) ∧ (e ≠ 0xFF)) s95 .a 47 1)
    ∧ ((fun (s : State) (d : MDie) (c : Fin 48) (e : Nat) =>
    (s.up d.pdie = true) ∧ ((s.enc d c).moveTo = some e) ∧ ((s.enc d c).entMove = none) ∧ (s.atPictureBoundary d c = true) ∧ (e = 0xFF)) s96 .a 47 255)
    ∧ ((fun (s : State) (d : MDie) (e : Fin 2) (pix : Bool) =>
    (s.up d.pdie = true) ∧ (s.inForce = true) ∧ (s.secOn d (if pix then secPix e else secMot e) = true)) (chan 2 id) .a 1 true))
  ∧ ((fun (s : State) (d : MDie) (k : Fin 8) =>
    (s.up d.pdie = true) ∧ (s.inForce = true) ∧ (k.val ∉ (s.md d).entDead) ∧ (s.entOn d k ≠ [])) s97 .a 7) :=
  ⟨by decide +kernel, by decide +kernel, by decide +kernel, by decide +kernel, by decide +kernel⟩

/-- The state of a clause below. -/
def s98 : State := chan 2 (fun x => { x with work := some anEnc })
/-- The state of a clause below. -/
def s99 : State := put (chan 2 (fun x => { x with work := some anEnc })) [(Obj.encChOfs, .a, 47, 1969 * 4400)]
/-- The state of a clause below. -/
def s100 : State := put (chan 2 (fun x => { x with work := some anEnc, queue := [[]] })) [(Obj.encChPriority, .a, 47, 2)]
/-- The state of a clause below. -/
def s101 : State := chan 2 (fun x => { x with pics := [aPic 7 false [{ aRow with searched := false }]] })
/-- The state of a clause below. -/
def s102 : State := chan 2 (fun x => { x with pics := [aPic 7 false [aRow]] })
/-- The state of a clause below. -/
def s103 : State := (put (frcChain [7] false) [(Obj.cnvChainEnable, .a, 1, 1)]).updChain .a 1 (fun x => { x with jobs := [(7, 2, 0)] })
/-- The state of a clause below. -/
def s104 : State := put (frcChain [7] false) [(Obj.cnvChainEnable, .a, 1, 1), (Obj.motFrcEngine, .a, 0, 1), (Obj.cnvFrcChannel, .a, 0, 255)]
/-- The state of a clause below. -/
def s105 : State := chan 2 (fun x => { x with work := some anEnc, pics := [aPic 7 false [aRow]] })
/-- The state of a clause below. -/
def s106 : State := chan 2 (fun x => { x with work := some anEnc, pics := [aPic 7 false [codedRow]] })

/-- Meets the hypotheses of `Obligations.EncodePicturesAreStoredSearchedAndCoded`, clause by clause. -/
theorem witness_EncodePicturesAreStoredSearchedAndCoded :
  (((fun (s : State) (d : MDie) (c : Fin 48) (g : EncCfg) =>
    ((s.enc d c).work = some g) ∧ (s.up d.pdie = true) ∧ (s.encState d c = 2) ∧ (s.encLive d c = true) ∧ (s.endedRow d c = none)) s98 .a 47 anEnc)
    ∧ ((fun (s : State) (d : MDie) (c : Fin 48) (g : EncCfg) (num : Nat) (frame : Nat) (field : Nat) =>
    ((s.enc d c).work = some g) ∧ (s.up d.pdie = true) ∧ (s.encState d c = 2) ∧ (s.encLive d c = true) ∧ (s.endedRow d c = some (num, frame, field, 0)) ∧ (s.encPic? d c num = none) ∧ ((s.enc d c).stopping = false) ∧ (0 < (s.encGeom d c).rows)) s99 .a 47 anEnc ((((put (live .service) [(Obj.encChOfs, .a, 47, 1969 * 4400)]).endedRow .a 47).getD (0, 0, 0, 0)).1) ((((put (live .service) [(Obj.encChOfs, .a, 47, 1969 * 4400)]).endedRow .a 47).getD (0, 0, 0, 0)).1) 0)
    ∧ ((fun (s : State) (d : MDie) (c : Fin 48) (g : EncCfg) (head : Tab Pix) (rest : List (Tab Pix)) =>
    ((s.enc d c).work = some g) ∧ (s.up d.pdie = true) ∧ (s.encState d c = 2) ∧ (s.encLive d c = false) ∧ ((s.enc d c).queue = head :: rest) ∧ ((s.enc d c).pics = []) ∧ ((s.enc d c).stopping = false) ∧ (0 < (s.encGeom d c).rows)) s100 .a 47 anEnc ([]) ([])))
  ∧ (((fun (s : State) (d : MDie) (c : Fin 48) (pic : Nat) (row : Nat) (p : EncPic) =>
    (s.up d.pdie = true) ∧ (s.encPic? d c pic = some p) ∧ (p.motionReady row = true) ∧ (s.refsReady d c pic p.idx = true) ∧ (s.released d c p row 1 = true)) s101 .a 47 7 0 (aPic 7 false [{ aRow with searched := false }]))
    ∧ ((fun (s : State) (d : MDie) (c : Fin 48) (pic : Nat) (row : Nat) (p : EncPic) =>
    (s.up d.pdie = true) ∧ (s.encPic? d c pic = some p) ∧ (p.motionReady row = false ∨ s.released d c p row 1 = false)) s102 .a 47 7 0 (aPic 7 false [aRow]))
    ∧ ((fun (s : State) (d : MDie) (m : Fin 48) (n : Nat) (pic : Nat) (row : Nat) (g : ChainCfg) (cur : Tab Pix) =>
    (s.up d.pdie = true) ∧ (s.frcChain d m = some n) ∧ ((s.chain d n).work = some g) ∧ ((s.chain d n).store.find? (fun e => e.1 == pic) = some (pic, cur)) ∧ ((s.chain d n).jobs.any (fun j => j.1 == pic && j.2.1 == row) = true)) s103 .a 0 1 7 2 (State.reset.chainShadow .a 1) ([])))
  ∧ (((fun (s : State) (d : MDie) (m : Fin 4) (n : Nat) (pic : Nat) (row : Nat) (cur : Tab Pix) =>
    (s.up d.pdie = true) ∧ (s.frcChain d m = some n) ∧ ((let inter := interlaced (fmt (s.rdN Obj.cnvChainInFormat d.die n)).family; (s.chain d n).store.find? (fun e => some (picOfNum inter e.1).1 == ((s.chain d n).store.getLast?).map (fun l => (picOfNum inter l.1).1) && !(s.chain d n).rowTaken inter e.1 row) = some (pic, cur))) ∧ (s.rdN Obj.motFrcEngine d.die m < 2) ∧ (48 ≤ s.rdN Obj.cnvFrcChannel d.die m) ∧ (row * 64 < (s.storeSize d n).2)) s104 .a 0 1 7 33 ([]))
    ∧ ((fun (s : State) (d : MDie) (m : Fin 4) (n : Nat) (row : Nat) (lvl : Nat) (j : Nat × Nat × Nat) =>
    (s.up d.pdie = true) ∧ (lvl ≤ 3) ∧ (s.frcChain d m = some n) ∧ ((s.chain d n).jobs.find? (fun j => j.2.1 == row && decide (j.2.2 ≤ s.now d.pdie)) = some j) ∧ (s.canReport d.pdie)) s103 .a 0 1 2 3 ((7, 2, 0)))
    ∧ ((fun (s : State) (d : MDie) (c : Fin 48) (pic : Nat) (row : Nat) (ctus : List Ctu) (p : EncPic) =>
    (s.encCodes d c = true) ∧ (s.encPic? d c pic = some p) ∧ (s.pixelReady d c p row = true) ∧ (s.pixelTurn d c p row = true) ∧ (ctus.length = (s.encGeom d c).cols)) s105 .a 47 7 0 (List.replicate 60 ⟨100, 20, 50, 10⟩) (aPic 7 false [aRow])))
  ∧ (((fun (s : State) (d : MDie) (c : Fin 48) (pic : Nat) (row : Nat) (p : EncPic) =>
    (s.encCodes d c = true) ∧ (s.encPic? d c pic = some p) ∧ (s.pixelReady d c p row = false ∨ s.pixelTurn d c p row = false)) s106 .a 47 7 0 (aPic 7 false [codedRow]))
    ∧ ((fun (s : State) (d : MDie) (c : Fin 48) (stage : Fin 3) (pic : Nat) (row : Nat) (lvl : Nat) (p : EncPic) (w : EncRow) =>
    (s.encCodes d c = true) ∧ (s.encPic? d c pic = some p) ∧ (p.row? row = some w) ∧ (s.canReport d.pdie) ∧ (s.pastDeadline d c p row stage.val = true) ∧ (((stage.val = 1 ∧ p.motionReady row = true ∧ lvl ≤ 3 ∧ s.refsReady d c pic p.idx = true) ∨ (stage.val = 2 ∧ w.stored = true ∧ w.data = [] ∧ w.qp = none)))) s105 .a 47 2 7 0 0 (aPic 7 false [aRow]) aRow)) :=
  ⟨by decide +kernel, by decide +kernel, by decide +kernel, by decide +kernel⟩

/-- The state of a clause below. -/
def s107 : State := chan 2 (fun x => { x with work := some anEnc, pics := [aPic 7 false [{ aRow with qp := some 20 }]] })
/-- The state of a clause below. -/
def s108 : State := chan 2 (fun x => { x with work := some anEnc, pics := [aPic 7 true [codedRow]] })
/-- The state of a clause below. -/
def s109 : State := chan 2 (fun x => { x with work := some anEnc, pics := [aPic 7 true [lateRow]] })

/-- Meets the hypotheses of `Obligations.EncodedRowsAreAccountedAndReleased`, clause by clause. -/
theorem witness_EncodedRowsAreAccountedAndReleased :
  (((fun (s : State) (d : MDie) (c : Fin 48) (pic : Nat) (row : Nat) (tile : Nat) (data : List Byte) (p : EncPic) (w : EncRow) =>
    (s.encCodes d c = true) ∧ (s.encPic? d c pic = some p) ∧ (p.row? row = some w) ∧ (w.qp.isSome = true) ∧ (tile < (s.encGeom d c).tiles) ∧ (w.data.any (fun e => e.1 == tile) = false) ∧ ((row = 0 ∨ ∃ v, p.row? (row - 1) = some v ∧ v.data.any (fun e => e.1 == tile) = true)) ∧ ((∀ q ∈ (s.enc d c).pics, q.hrd = true ∨ p.order ≤ q.order)) ∧ (s.released d c p row 3 = true)) s107 .a 47 7 0 0 ([1]) (aPic 7 false [{ aRow with qp := some 20 }]) ({ aRow with qp := some 20 }))
    ∧ ((fun (s : State) (d : MDie) (c : Fin 48) (p : EncPic) =>
    (s.encCodes d c = true) ∧ (((s.enc d c).pics.filter (fun q => !q.hrd)).find? (fun q => ((s.enc d c).pics.filter (fun r => !r.hrd)).all (fun r => decide (q.order ≤ r.order))) = some p) ∧ ((∀ r ∈ p.rows, r.coded (s.encGeom d c).tiles = true))) s106 .a 47 (aPic 7 false [codedRow]))
    ∧ ((fun (s : State) (d : MDie) (c : Fin 48) (pic : Nat) (row : Nat) (p : EncPic) (r : EncRow) =>
    (s.encPic? d c pic = some p) ∧ (p.row? row = some r) ∧ (s.rowReady d c p row r = false)) s106 .a 47 7 0 (aPic 7 false [codedRow]) codedRow))
  ∧ (((fun (s : State) (d : MDie) (c : Fin 48) (pic : Nat) (row : Nat) (p : EncPic) (r : EncRow) =>
    (s.encPic? d c pic = some p) ∧ (p.row? row = some r) ∧ (s.rowReady d c p row r = false)) s106 .a 47 7 0 (aPic 7 false [codedRow]) codedRow)
    ∧ ((fun (s : State) (d : MDie) (c : Fin 48) (pic : Nat) (row : Nat) (p : EncPic) (r : EncRow) =>
    (s.encPic? d c pic = some p) ∧ (p.row? row = some r) ∧ (s.encCodes d c = true) ∧ (s.rowReady d c p row r = true) ∧ (s.rowLate d c p row r = false) ∧ ((s.releaseAt d c p row).ceilNs ≤ s.now d.pdie)) s108 .a 47 7 0 (aPic 7 true [codedRow]) codedRow)
    ∧ ((fun (s : State) (d : MDie) (c : Fin 48) (pic : Nat) (row : Nat) (p : EncPic) (r : EncRow) =>
    (s.encPic? d c pic = some p) ∧ (p.row? row = some r) ∧ (s.encCodes d c = true) ∧ (s.rowReady d c p row r = true) ∧ (s.rowLate d c p row r = true) ∧ ((s.releaseAt d c p row).ceilNs ≤ s.now d.pdie)) s109 .a 47 7 0 (aPic 7 true [lateRow]) lateRow)) :=
  ⟨by decide +kernel, by decide +kernel⟩

/-- The state of a clause below. -/
def s110 : State := chan 2 (fun x => { x with cause := ⟨false, some 3, false⟩ })
/-- The state of a clause below. -/
def s111 : State := put (chan 2 (fun x => { x with recovMap := some 0 })) [(Obj.rcGzMapSlot, .a, 47, 2)]
/-- The state of a clause below. -/
def s112 : State := put (chan 2 id) [(Obj.rcGzMapOffset, .a, 47, 1020)]
/-- The state of a clause below. -/
def s113 : State := put (chan 2 id) [(Obj.rcGzMapOffset, .a, 47, 1019)]
/-- The state of a clause below. -/
def s114 : State := put (chan 2 id) [(Obj.encChPriority, .a, 47, 2), (Obj.encDeferFeed, .a, 47, 0x1000)]

/-- Meets the hypotheses of `Obligations.EncodeRequestsAndUploadsAreTaken`, clause by clause. -/
theorem witness_EncodeRequestsAndUploadsAreTaken :
  (((fun (s : State) (d : MDie) (c : Fin 48) =>
    (s.serverUp = true) ∧ (s.mode ≠ .selvedge) ∧ (s.reachable d = true) ∧ (s.encState d c ≠ 2)) (chan 1 id) .a 47)
    ∧ ((fun (s : State) (d : MDie) (c : Fin 48) =>
    (s.serverUp = true) ∧ (s.mode ≠ .selvedge) ∧ (s.reachable d = true) ∧ (s.encState d c = 2) ∧ ((s.enc d c).cause.request = none)) (chan 2 id) .a 47)
    ∧ ((fun (s : State) (d : MDie) (c : Fin 48) =>
    (s.serverUp = true) ∧ (s.mode ≠ .selvedge) ∧ (s.reachable d = true) ∧ (s.encState d c = 2) ∧ ((s.enc d c).cause.request.isSome = true)) s110 .a 47))
  ∧ (((fun (s : State) (d : MDie) =>
    (s.serverUp = true) ∧ (s.mode ≠ .selvedge) ∧ (s.reachable d = true)) (chan 0 id) .a)
    ∧ ((fun (s : State) (d : MDie) (c : Fin 48) =>
    (s.serverUp = true) ∧ (s.mode ≠ .selvedge) ∧ (s.reachable d = true) ∧ (s.mapInUse d c (s.rdN Obj.rcGzMapSlot d.die c) = true)) s111 .a 47)
    ∧ ((fun (s : State) (d : MDie) (c : Fin 48) (data : List Byte) =>
    (s.serverUp = true) ∧ (s.mode ≠ .selvedge) ∧ (s.reachable d = true) ∧ (s.mapInUse d c (s.rdN Obj.rcGzMapSlot d.die c) = false) ∧ (mapBytes (s.encGeom d c) < s.rdN Obj.rcGzMapOffset d.die c + data.length)) s112 .a 47 ([1])))
  ∧ (((fun (s : State) (d : MDie) (c : Fin 48) (data : List Byte) =>
    (s.serverUp = true) ∧ (s.mode ≠ .selvedge) ∧ (s.reachable d = true) ∧ (s.mapInUse d c (s.rdN Obj.rcGzMapSlot d.die c) = false) ∧ (s.rdN Obj.rcGzMapOffset d.die c + data.length ≤ mapBytes (s.encGeom d c))) s113 .a 47 ([1]))
    ∧ ((fun (s : State) (d : MDie) (c : Fin 48) =>
    (s.serverUp = true) ∧ (s.mode ≠ .selvedge) ∧ (s.reachable d = true) ∧ ((s.encLive d c = true ∨ (s.deferFeed d c).1 ≠ 1 ∨ s.deferFull d c = true))) (chan 2 id) .a 47)
    ∧ ((fun (s : State) (d : MDie) (c : Fin 48) =>
    (s.serverUp = true) ∧ (s.mode ≠ .selvedge) ∧ (s.reachable d = true) ∧ ((s.encLive d c = true ∨ (s.deferFeed d c).1 ≠ 1 ∨ s.deferFull d c = true))) (chan 2 id) .a 47))
  ∧ (((fun (s : State) (d : MDie) (c : Fin 48) =>
    (s.serverUp = true) ∧ (s.mode ≠ .selvedge) ∧ (s.reachable d = true) ∧ (s.encLive d c = false) ∧ ((s.deferFeed d c).1 = 1) ∧ (s.deferFull d c = false)) s114 .a 47)
    ∧ ((fun (s : State) (d : MDie) (c : Fin 48) (w : Nat) (h : Nat) (cw : Nat) (ch : Nat) =>
    (s.serverUp = true) ∧ (s.mode ≠ .selvedge) ∧ (s.reachable d = true) ∧ (s.encLive d c = false) ∧ ((s.deferFeed d c).1 = 1) ∧ (s.deferFull d c = false) ∧ (pictureSize (fmt (s.rdN Obj.encChFormat d.die c)).family = (w, h)) ∧ (chromaSize (s.rdN Obj.encChProfile d.die c == 1) w h = (cw, ch)) ∧ ((s.enc d c).upload.length ≠ 2 * (w * h + 2 * cw * ch))) s114 .a 47 3840 2160 1920 ((chromaSize ((chan 2 id).rdN Obj.encChProfile .a 47 == 1) 3840 2160).2))) :=
  ⟨by decide +kernel, by decide +kernel, by decide +kernel, by decide +kernel⟩

/-- The state of a clause below. -/
def s115 : State := put (decs 2 (fun x => { x with rx := [{ aRtp with marker := true, data := [2, 1, 5] }] })) [(Obj.decCtxCpbSize, .a, 3, 3)]
/-- The state of a clause below. -/
def s116 : State := put (decs 2 (fun x => { x with rx := [{ aRtp with marker := true, data := [2, 1, 5] }] })) [(Obj.decCtxCpbSize, .a, 3, 2)]
/-- The state of a clause below. -/
def s117 : State := decs 2 (fun x => { x with rx := [{ aRtp with marker := true, data := [98, 1, 0, 9] }] })
/-- The state of a clause below. -/
def s118 : State := decs 1 (fun x => { x with cpb := [anAu] })
/-- The state of a clause below. -/
def s119 : State := decs 2 (fun x => { x with dpb := [aDecPic], active := some anSps })
/-- The state of a clause below. -/
def s120 : State := put (decs 2 id) [(Obj.decCtxStatus, .a, 3, 9), (Obj.decCtxOutput, .a, 3, 0x1004)]

/-- Meets the hypotheses of `Obligations.DecodersStoreDecodeOutputAndStop`, clause by clause. -/
theorem witness_DecodersStoreDecodeOutputAndStop :
  (((fun (s : State) (d : MDie) (n : Fin 4) (f : Nat) =>
    (s.decFlow d n = some f) ∧ (s.decUsed d n = true) ∧ (descKind (s.inDesc d f) ≠ 7) ∧ (splitAu (s.dec d n).rx = none)) (decs 2 id) .a 3 9)
    ∧ ((fun (s : State) (d : MDie) (n : Fin 4) (f : Nat) (au : List Rtp) (rest : List Rtp) (nals : List (List Byte)) =>
    (s.decFlow d n = some f) ∧ (s.decUsed d n = true) ∧ (descKind (s.inDesc d f) ≠ 7) ∧ (splitAu (s.dec d n).rx = some (au, rest)) ∧ (nals = (au.foldl (Reasm.take (descKind (s.inDesc d f) == 6)) { nals := [], open_ := none, last := (s.dec d n).last }).nals) ∧ (nals ≠ []) ∧ (cpbBytes (s.dec d n).cpb + sumOver nals (·.length) ≤ s.rdN Obj.decCtxCpbSize d.die n)) s115 .a 3 9 ([{ aRtp with marker := true, data := [2, 1, 5] }]) ([]) ([[2, 1, 5]]))
    ∧ ((fun (s : State) (d : MDie) (n : Fin 4) (f : Nat) (au : List Rtp) (rest : List Rtp) (nals : List (List Byte)) =>
    (s.decFlow d n = some f) ∧ (s.decUsed d n = true) ∧ (descKind (s.inDesc d f) ≠ 7) ∧ (splitAu (s.dec d n).rx = some (au, rest)) ∧ (nals = (au.foldl (Reasm.take (descKind (s.inDesc d f) == 6)) { nals := [], open_ := none, last := (s.dec d n).last }).nals) ∧ (nals ≠ []) ∧ (s.rdN Obj.decCtxCpbSize d.die n < cpbBytes (s.dec d n).cpb + sumOver nals (·.length))) s116 .a 3 9 ([{ aRtp with marker := true, data := [2, 1, 5] }]) ([]) ([[2, 1, 5]])))
  ∧ (((fun (s : State) (d : MDie) (n : Fin 4) (f : Nat) (au : List Rtp) (rest : List Rtp) (nals : List (List Byte)) =>
    (s.decFlow d n = some f) ∧ (s.decUsed d n = true) ∧ (descKind (s.inDesc d f) ≠ 7) ∧ (splitAu (s.dec d n).rx = some (au, rest)) ∧ (nals = (au.foldl (Reasm.take (descKind (s.inDesc d f) == 6)) { nals := [], open_ := none, last := (s.dec d n).last }).nals) ∧ (nals = [])) s117 .a 3 9 ([{ aRtp with marker := true, data := [98, 1, 0, 9] }]) ([]) ([]))
    ∧ ((fun (s : State) (d : MDie) =>
    (s.decNext d = none)) (decs 2 id) .a)
    ∧ ((fun (s : State) (d : MDie) (i : AuInfo) (n : Nat) (a : AccessUnit) =>
    (s.decNext d = some (n, a)) ∧ (i.badNals = 0) ∧ (s.decState d n = 1) ∧ (i.irap = 0) ∧ (i.sps = none)) s118 .a ((someAu 0 none : AuInfo)) 3 anAu))
  ∧ (((fun (s : State) (d : MDie) (i : AuInfo) (n : Nat) (a : AccessUnit) (p : Sps) (r : Nat) =>
    (s.decNext d = some (n, a)) ∧ (i.badNals = 0) ∧ (s.decState d n = 1) ∧ (i.sps = some p) ∧ (s.spsFault d n p = some r) ∧ (s.canReport d.pdie)) s118 .a ((someAu 1 (some { anSps with level := 63 }) : AuInfo)) 3 anAu ({ anSps with level := 63 }) 2)
    ∧ ((fun (s : State) (d : MDie) (i : AuInfo) (n : Nat) (a : AccessUnit) (p : Sps) =>
    (s.decNext d = some (n, a)) ∧ (i.badNals = 0) ∧ (s.decState d n = 1) ∧ (i.sps = some p) ∧ (s.spsFault d n p = none) ∧ (i.irap ≠ 0) ∧ (i.rasl = false) ∧ (i.refs = []) ∧ (i.lost = []) ∧ (s.mode ≠ .selvedge) ∧ (s.canReport d.pdie)) s118 .a ((someAu 1 (some anSps) : AuInfo)) 3 anAu anSps)
    ∧ ((fun (s : State) (d : MDie) (n : Fin 4) (p : DecPic) =>
    (firstOut (s.dec d n).dpb = some p) ∧ (s.decUsed d n = true) ∧ (s.decState d n = 2) ∧ (s.bumps d n = true) ∧ (s.decHeld d n = false)) s119 .a 3 aDecPic))
  ∧ (((fun (s : State) (d : MDie) (n : Fin 4) =>
    (s.decUsed d n = true) ∧ (s.decHeld d n = true) ∧ (s.deferFull d (s.decOutput d n).2 = false)) s120 .a 3)
    ∧ ((fun (s : State) (d : MDie) (n : Fin 4) =>
    (s.serverUp = true) ∧ (s.mode ≠ .selvedge) ∧ (s.reachable d = true) ∧ (s.rd Obj.decCtxEnable d.die n = 1)) (decs 3 id) .a 3)
    ∧ ((fun (s : State) (d : MDie) (n : Fin 4) =>
    (s.decUsed d n = true) ∧ (s.decState d n = 2) ∧ (s.decHeld d n = false) ∧ ((s.dec d n).lastOut + s.decTimeout d n ≤ s.now d.pdie) ∧ ((s.dec d n).dpb = []) ∧ (s.canReport d.pdie)) (decs 2 id) .a 3)) :=
  ⟨by decide +kernel, by decide +kernel, by decide +kernel, by decide +kernel⟩

/-- The state of a clause below. -/
def s121 : State := { tdm 1 2 .service with trans := some { target := .standby, instant := 5, source := .service } }

/-- Meets the hypotheses of `Obligations.AudioPortsFollowTheirClocks`, clause by clause. -/
theorem witness_AudioPortsFollowTheirClocks :
  (((fun (s : State) (d : MDie) (p : Fin 16) =>
    (s.up d.pdie = true) ∧ (s.secOn d secAud = true) ∧ (s.audPortUsed d p = true) ∧ (s.inForce = true) ∧ (s.rdN Obj.audPortState d.die p ≠ 3) ∧ ((∀ t, s.stopFrom d = some t → s.now d.pdie < t))) (tdm 1 2 .service) .a 15)
    ∧ ((fun (s : State) (d : MDie) (p : Fin 16) (at_ : Nat) =>
    (s.up d.pdie = true) ∧ (s.secOn d secAud = true) ∧ (s.audPortUsed d p = true) ∧ (s.inForce = true) ∧ (s.rdN Obj.audPortState d.die p ≠ 3) ∧ (s.stopFrom d = some at_) ∧ (at_ ≤ s.now d.pdie)) s121 .a 15 5)
    ∧ ((fun (s : State) (d : MDie) (p : Fin 16) =>
    (s.up d.pdie = true) ∧ (s.secOn d secAud = true) ∧ (s.audPortUsed d p = true) ∧ (s.portMaster d p = false) ∧ ((s.rdN Obj.audPortState d.die p = 1 ∨ s.rdN Obj.audPortState d.die p = 2 ∨ s.rdN Obj.audPortState d.die p = 4)) ∧ (s.canReport d.pdie)) (tdm 1 2 .service) .a 15))
  ∧ (((fun (s : State) (d : MDie) (p : Fin 16) =>
    (s.up d.pdie = true) ∧ (s.secOn d secAud = true) ∧ (s.audPortUsed d p = true) ∧ (s.portMaster d p = false) ∧ ((s.rdN Obj.audPortState d.die p = 1 ∨ s.rdN Obj.audPortState d.die p = 2 ∨ s.rdN Obj.audPortState d.die p = 4)) ∧ (s.canReport d.pdie)) (tdm 1 2 .service) .a 15)
    ∧ ((fun (s : State) (d : MDie) (p : Fin 16) =>
    (s.up d.pdie = true) ∧ (s.secOn d secAud = true) ∧ (s.rdN Obj.audPortState d.die p = 3) ∧ (s.canReport d.pdie)) (tdm 1 3 .service) .a 15)
    ∧ ((fun (s : State) (d : MDie) (p : Fin 16) (rate : Nat) =>
    (s.up d.pdie = true) ∧ (s.secOn d secAud = true) ∧ ((s.rdN Obj.audPortState d.die p = 2 ∨ s.rdN Obj.audPortState d.die p = 4)) ∧ ((s.audPort d p).gate < s.now d.pdie / 10000000) ∧ (rate = gateRate (s.audPort d p).edges (s.audPort d p).first (s.audPort d p).last)) (tdm 1 2 .service) .a 15 (gateRate 0 0 0)))
  ∧ (((fun (s : State) (d : MDie) (p : Fin 16) =>
    (s.serverUp = true) ∧ (s.mode ≠ .selvedge) ∧ (s.reachable d = true) ∧ (s.audPortUsed d p = true)) (tdm 1 0 .service) .a 15)
    ∧ ((fun (s : State) (d : MDie) (p : Fin 16) =>
    (s.serverUp = true) ∧ (s.mode ≠ .selvedge) ∧ (s.reachable d = true) ∧ (s.audPortUsed d p = false)) (live .service) .a 15)
    ∧ ((fun (s : State) (d : MDie) (p : Fin 16) =>
    (s.serverUp = true) ∧ (s.mode ≠ .selvedge) ∧ (s.reachable d = true) ∧ ((s.audPort d p).armed.isSome = true)) (armed 0) .a 15))
  ∧ (((fun (s : State) (d : MDie) (p : Fin 16) =>
    (s.serverUp = true) ∧ (s.mode ≠ .selvedge) ∧ (s.reachable d = true) ∧ ((s.audPort d p).armed = none)) (tdm 1 2 .service) .a 15)
    ∧ ((fun (s : State) (d : MDie) =>
    (s.serverUp = true) ∧ (s.mode ≠ .selvedge) ∧ (s.reachable d = true)) (armed 0) .a)) :=
  ⟨by decide +kernel, by decide +kernel, by decide +kernel, by decide +kernel⟩

/-- The state of a clause below. -/
def s122 : State := (live .service).updAud .a (fun x => { x with last := [(7, 1000000000000)] })
/-- The state of a clause below. -/
def s123 : State := (put (live .service) [(Obj.audIslStatus, .a, 7, 1)]).updAudIsl .a 7 (fun x => { x with whole := some 640 })
/-- The state of a clause below. -/
def s124 : State := (put (live .service) [(Obj.loomDstAudioFirst, .a, 255, 5), (Obj.loomDstAudioCount, .a, 255, 2)]).updDst .a 255 (fun x => { x with followDue := some (.ofNs 0) })
/-- The state of a clause below. -/
def s125 : State := (putB (put (live .service) [(Obj.flowOutState, .a, 9, 2)]) [(Obj.flowOutDesc, .a, 9, fields 64 [(508, 3), (480, 255), (224, 2)])]).updFlowOut .a 9 (fun x => { x with run := true })
/-- The state of a clause below. -/
def s126 : State := put (tdm 1 0 .service) [(Obj.audPortOutFirst, .a, 15, 3)]
/-- The state of a clause below. -/
def s127 : State := put (tdm 1 0 .service) [(Obj.pwrSectionState, .a, 28, 0)]
/-- The state of a clause below. -/
def s128 : State := put (live .service) [(Obj.pwrSectionState, .a, 28, 0)]

/-- Meets the hypotheses of `Obligations.AudioIsRoutedCommittedFollowedAndSent`, clause by clause. -/
theorem witness_AudioIsRoutedCommittedFollowedAndSent :
  (((fun (s : State) (d : MDie) (b : Fin 8) (n : Nat) =>
    (s.up d.pdie = true) ∧ (s.secOn d secAud = true) ∧ (s.inForce = true) ∧ (s.bankHz d b ≠ 0) ∧ (n = s.nextIndex d b) ∧ (audBegun (s.bankHz d b) n (s.now d.pdie) = false)) s122 .a 7 1000000000001)
    ∧ ((fun (s : State) (d : MDie) (b : Fin 8) (n : Nat) =>
    (s.up d.pdie = true) ∧ (s.secOn d secAud = true) ∧ (s.inForce = true) ∧ (s.bankHz d b ≠ 0) ∧ (n = s.nextIndex d b) ∧ (audBegun (s.bankHz d b) n (s.now d.pdie) = true)) (live .service) .a 7 ((live .service).nextIndex .a 7))
    ∧ ((fun (s : State) (d : MDie) (i : Fin 8) (sum : Nat) (e : Int) (integ : Int) =>
    ((s.audIsl d i).whole = some sum) ∧ (s.up d.pdie = true) ∧ (s.bit Obj.audIslStatus d.die i 0 = true) ∧ (e = (sum : Int) - 64 * ((s.leadPort d i).map (fun p => s.rdN Obj.audPortFifoTarget d.die p)).getD 0) ∧ (integ = clip3 (-549755648) 549755648 ((s.audIsl d i).integ + s.rd Obj.audIslKi d.die i * e))) s123 .a 7 640 640 (clip3 (-549755648) 549755648 ((live .service).rd Obj.audIslKi .a 7 * 640))))
  ∧ (((fun (s : State) (d : MDie) (p : Fin 256) (f : Nat) (c : Nat) =>
    (s.up d.pdie = true) ∧ (s.secOn d secAud = true) ∧ ((s.dst d p).followDue.isSome = true) ∧ (s.dstAudio d p = (f, c))) s124 .a 255 5 2)
    ∧ ((fun (s : State) (d : MDie) (f : Fin 4096) =>
    (s.up d.pdie = true) ∧ (s.secOn d secAud = true) ∧ (descAudio (s.outDesc d f) = true) ∧ (s.sends d f = true) ∧ (s.inSelvedge = false) ∧ (audBegun (audFlowHz (s.outDesc d f)) (s.egressFirst d f + audPerPacket (s.outDesc d f)) (s.now d.pdie) = true)) s125 .a 9)
    ∧ ((fun (s : State) (d : MDie) (p : Fin 16) (im : Nat) (om : Nat) =>
    (s.serverUp = true) ∧ (s.mode ≠ .selvedge) ∧ (s.reachable d = true) ∧ (s.audPortUsed d p = true) ∧ (im = s.rdN Obj.audPortInMask d.die p) ∧ (om = s.rdN Obj.audPortOutMask d.die p) ∧ (s.audPortFault d p im om = none)) s126 .a 15 ((put (tdm 1 0 .service) [(Obj.audPortOutFirst, .a, 15, 3)]).rdN Obj.audPortInMask .a 15) ((put (tdm 1 0 .service) [(Obj.audPortOutFirst, .a, 15, 3)]).rdN Obj.audPortOutMask .a 15)))
  ∧ (((fun (s : State) (d : MDie) (p : Fin 16) (im : Nat) (om : Nat) (r : Nat) =>
    (s.serverUp = true) ∧ (s.mode ≠ .selvedge) ∧ (s.reachable d = true) ∧ (s.audPortUsed d p = true) ∧ (im = s.rdN Obj.audPortInMask d.die p) ∧ (om = s.rdN Obj.audPortOutMask d.die p) ∧ (s.audPortFault d p im om = some r) ∧ (s.canReport d.pdie)) s127 .a 15 ((put (tdm 1 0 .service) [(Obj.pwrSectionState, .a, 28, 0)]).rdN Obj.audPortInMask .a 15) ((put (tdm 1 0 .service) [(Obj.pwrSectionState, .a, 28, 0)]).rdN Obj.audPortOutMask .a 15) 5)
    ∧ ((fun (s : State) (d : MDie) (g : Fin 256) =>
    (s.serverUp = true) ∧ (s.mode ≠ .selvedge) ∧ (s.reachable d = true) ∧ ((s.routerCommit d g (s.now d.pdie)).2 = true)) (live .service) .a 255)
    ∧ ((fun (s : State) (d : MDie) (g : Fin 256) =>
    (s.serverUp = true) ∧ (s.mode ≠ .selvedge) ∧ (s.reachable d = true) ∧ ((s.routerCommit d g (s.now d.pdie)).2 = false)) s128 .a 255)) :=
  ⟨by decide +kernel, by decide +kernel, by decide +kernel⟩

/-- The state of a clause below. -/
def s129 : State := put (memUp .service) [(Obj.memPortPending, .a, 24, 64)]
/-- The state of a clause below. -/
def s130 : State := (memUp .service).updRam .a (fun r => { r with pieces := [aPiece true none] })
/-- The state of a clause below. -/
def s131 : State := (memUp .service).updRam .a (fun r => { r with pieces := [aPiece false none] })
/-- The state of a clause below. -/
def s132 : State := ((memUp .service).updRam .a (fun r => { r with pieces := [aPiece false (some 0)] })).updBus .a (fun b => { b with txns := [aTxn false] })

/-- Meets the hypotheses of `Obligations.MemoryRequestsAreSplitWrittenAndReturned`, clause by clause. -/
theorem witness_MemoryRequestsAreSplitWrittenAndReturned :
  (((fun (s : State) (d : MDie) (r : MemReq) =>
    (s.up d.pdie = true) ∧ (s.secOn d 5 = true) ∧ (r.addr + r.len ≤ s.rdN Obj.memCapacity d.die 0) ∧ (s.rdN Obj.memPortPending d.die r.port + (splitRequest r).length ≤ portCapacity) ∧ ((∀ c < 12, s.rdN Obj.memChState d.die c ≠ 6))) (memUp .service) .a (({ aReq true with addr := 255 } : MemReq)))
    ∧ ((fun (s : State) (d : MDie) (r : MemReq) =>
    (s.up d.pdie = true) ∧ (s.secOn d 5 = true) ∧ (r.addr + r.len ≤ s.rdN Obj.memCapacity d.die 0) ∧ (portCapacity < s.rdN Obj.memPortPending d.die r.port + (splitRequest r).length)) s129 .a ((aReq true : MemReq)))
    ∧ ((fun (s : State) (d : MDie) (c : Fin 12) (busy : List Nat) (p : MemPiece) =>
    (s.up d.pdie = true) ∧ (s.chanUp d c = true) ∧ ((s.md d).ram.pieces = [p]) ∧ (p.ch = c.val) ∧ (p.queued = true) ∧ (s.urgencyOf d p < 3) ∧ ((s.chan d c).alert = none) ∧ ((s.chan d c).parity = 0) ∧ (p.rank * 16 + p.bank ∉ busy) ∧ (p.req.write = true) ∧ (p.null = false)) s130 .a 11 ([]) (aPiece true none)))
  ∧ (((fun (s : State) (d : MDie) (c : Fin 12) (busy : List Nat) (p : MemPiece) =>
    (s.up d.pdie = true) ∧ (s.chanUp d c = true) ∧ ((s.md d).ram.pieces = [p]) ∧ (p.ch = c.val) ∧ (p.queued = true) ∧ (s.urgencyOf d p < 3) ∧ ((s.chan d c).alert = none) ∧ ((s.chan d c).parity = 0) ∧ (p.rank * 16 + p.bank ∉ busy) ∧ (p.req.write = false)) s131 .a 11 ([]) (aPiece false none))
    ∧ ((fun (s : State) (d : MDie) (c : Fin 12) (p : MemPiece) (x : BusTxn) =>
    (s.up d.pdie = true) ∧ ((s.md d).ram.pieces = [p]) ∧ (p.ch = c.val) ∧ (p.queued = false) ∧ (p.req.write = false) ∧ (p.again = false) ∧ ((s.md d).ram.flips = []) ∧ (s.storeHeld d p.req.addr = false) ∧ ((s.md d).bus.beats = []) ∧ ((s.md d).bus.txns = [x]) ∧ (x.master = p.req.master) ∧ (x.op.id = p.req.id) ∧ (x.op.write = false) ∧ (x.left = 1) ∧ (x.data = []) ∧ (x.parked = false) ∧ (x.old = false) ∧ (x.poison = false) ∧ (x.error = false) ∧ (x.op.addr ≤ p.req.addr) ∧ (p.req.addr < x.op.addr + x.op.len)) s132 .a 11 (aPiece false (some 0)) (aTxn false))) :=
  ⟨by decide +kernel, by decide +kernel⟩

/-- The state of a clause below. -/
def s133 : State := ((memUp .service).updRam .a (fun r => { r with rfc := 560 })).updChan .a 11 (fun x => { x with due := [(1, 7)], owed := [(1, 4)], ref := [(1, 9)] })
/-- The state of a clause below. -/
def s134 : State := ((memUp .service).updRam .a (fun r => { r with rfc := 560 })).updChan .a 11 (fun x => { x with due := [(1, 7)], owed := [(1, 3)], ref := [(1, 1599999999999999)] })
/-- The state of a clause below. -/
def s135 : State := (urgent [(1, 3)]).updChan .a 11 (fun x => { x with due := [(1, 7)] })
/-- The state of a clause below. -/
def s136 : State := (urgent [(1, 4)]).updChan .a 11 (fun x => { x with due := [(1, 7)] })
/-- The state of a clause below. -/
def s137 : State := (memUp .service).updChan .a 11 (fun x => { x with alert := some ⟨0, true, false, []⟩ })
/-- The state of a clause below. -/
def s138 : State := (memUp .service).updChan .a 11 (fun x => { x with alert := some ⟨2, true, true, []⟩ })
/-- The state of a clause below. -/
def s139 : State := (memUp .service).updChan .a 11 (fun x => { x with alert := some ⟨1, true, false, []⟩ })
/-- The state of a clause below. -/
def s140 : State := (memUp .service).updChan .a 11 (fun x => { x with alert := some ⟨3, true, true, []⟩ })

/-- Meets the hypotheses of `Obligations.MemoryChannelsRefreshAndReplay`, clause by clause. -/
theorem witness_MemoryChannelsRefreshAndReplay :
  (((fun (s : State) (d : MDie) (c : Fin 12) (k : Fin 2) =>
    (s.up d.pdie = true) ∧ (s.refreshed d c k = true) ∧ ((s.chan d c).alert = none) ∧ (s.refreshDue d c k = true) ∧ (s.chanUrgent d c = false) ∧ (0 < (s.md d).ram.rfc) ∧ (tabGet (s.chan d c).owed k 0 ≤ 4) ∧ ((∀ e, (s.chan d c).ref.find? (fun e => e.1 == k.val) = some e → e.2 + (s.md d).ram.rfc ≤ s.memClock d))) s133 .a 11 1)
    ∧ ((fun (s : State) (d : MDie) (c : Fin 12) (k : Fin 2) (e : Nat × Nat) =>
    (s.up d.pdie = true) ∧ (s.refreshed d c k = true) ∧ ((s.chan d c).alert = none) ∧ (s.refreshDue d c k = true) ∧ (s.chanUrgent d c = false) ∧ (tabGet (s.chan d c).owed k 0 < 4) ∧ ((s.chan d c).ref.find? (fun e => e.1 == k.val) = some e) ∧ (s.memClock d < e.2 + (s.md d).ram.rfc)) s134 .a 11 1 ((1, 1599999999999999)))
    ∧ ((fun (s : State) (d : MDie) (c : Fin 12) (k : Fin 2) =>
    (s.up d.pdie = true) ∧ (s.refreshed d c k = true) ∧ ((s.chan d c).alert = none) ∧ (s.refreshDue d c k = true) ∧ (s.chanUrgent d c = true) ∧ (tabGet (s.chan d c).owed k 0 < 4)) s135 .a 11 1))
  ∧ (((fun (s : State) (d : MDie) (c : Fin 12) (k : Fin 2) =>
    (s.up d.pdie = true) ∧ (s.refreshed d c k = true) ∧ ((s.chan d c).alert = none) ∧ (s.refreshDue d c k = true) ∧ (s.chanUrgent d c = true) ∧ (tabGet (s.chan d c).owed k 0 = 4)) s136 .a 11 1)
    ∧ ((fun (s : State) (d : MDie) (c : Fin 12) (k : Fin 2) =>
    (s.up d.pdie = true) ∧ (s.refreshed d c k = true) ∧ (s.rdN Obj.memRefreshMode d.die 0 = 0) ∧ (s.chanUrgent d c = false)) (memUp .service) .a 11 1)
    ∧ ((fun (s : State) (d : MDie) =>
    (s.up d.pdie = true) ∧ ((s.md d).ram.epoch ≠ s.now d.pdie / 64000000)) (live .service) .b))
  ∧ (((fun (s : State) (d : MDie) (c : Fin 12) (k : Fin 2) =>
    (s.up d.pdie = true) ∧ (s.chanUp d c = true) ∧ (k.val < (s.md d).ram.ranks) ∧ (s.chanUrgent d c = false) ∧ ((s.chan d c).alert = none)) (memUp .service) .a 11 1)
    ∧ ((fun (s : State) (d : MDie) (c : Fin 12) =>
    (s.up d.pdie = true) ∧ ((s.rdN Obj.memChState d.die c = 3 ∨ s.rdN Obj.memChState d.die c = 5)) ∧ ((s.chan d c).alert = none)) (memUp .service) .a 11)
    ∧ ((fun (s : State) (d : MDie) (c : Fin 12) (a : AlertSt) =>
    (s.up d.pdie = true) ∧ ((s.rdN Obj.memChState d.die c = 3 ∨ s.rdN Obj.memChState d.die c = 5)) ∧ ((s.chan d c).alert = some a) ∧ (a.running = true)) s137 .a 11 (⟨0, true, false, []⟩)))
  ∧ (((fun (s : State) (d : MDie) (c : Fin 12) (a : AlertSt) =>
    ((s.chan d c).alert = some a) ∧ (s.up d.pdie = true) ∧ (a.replays < 3) ∧ ((a.running = false ∨ a.failed = true))) s138 .a 11 (⟨2, true, true, []⟩))
    ∧ ((fun (s : State) (d : MDie) (c : Fin 12) (a : AlertSt) =>
    ((s.chan d c).alert = some a) ∧ (s.up d.pdie = true) ∧ (a.running = true) ∧ (a.failed = false) ∧ (s.canReport d.pdie)) s139 .a 11 (⟨1, true, false, []⟩))
    ∧ ((fun (s : State) (d : MDie) (c : Fin 12) (a : AlertSt) =>
    ((s.chan d c).alert = some a) ∧ (s.up d.pdie = true) ∧ (a.running = true) ∧ (a.failed = true) ∧ (3 ≤ a.replays)) s140 .a 11 (⟨3, true, true, []⟩))) :=
  ⟨by decide +kernel, by decide +kernel, by decide +kernel, by decide +kernel⟩

/-- The state of a clause below. -/
def s141 : State := put (memUp .service) [(Obj.memScrubAddr, .a, 0, 51539607552)]
/-- The state of a clause below. -/
def s142 : State := put (memUp .service) [(Obj.memChStatus, .a, 11, 8)]
/-- The state of a clause below. -/
def s143 : State := { live .service with powerA := { PowerSt.start with run := .held } }
/-- The state of a clause below. -/
def s144 : State := (memUp .service).updRam .a (fun r => { r with retrains := [11] })
/-- The state of a clause below. -/
def s145 : State := { memUp .recovery with recov := { RecovSt.start with acts := [(.a, 11)] } }

/-- Meets the hypotheses of `Obligations.MemoryIsScrubbedTrackedAndRetrained`, clause by clause. -/
theorem witness_MemoryIsScrubbedTrackedAndRetrained :
  (((fun (s : State) (d : MDie) =>
    (s.up d.pdie = true) ∧ (s.secOn d 5 = true) ∧ (s.rdN Obj.memScrubAddr d.die 0 < s.rdN Obj.memCapacity d.die 0) ∧ (s.chanUp d (s.memLoc d (s.rdN Obj.memScrubAddr d.die 0)).ch = true)) (memUp .service) .a)
    ∧ ((fun (s : State) (d : MDie) =>
    (s.up d.pdie = true) ∧ (0 < s.rdN Obj.memCapacity d.die 0) ∧ (s.rdN Obj.memCapacity d.die 0 ≤ s.rdN Obj.memScrubAddr d.die 0) ∧ ((s.md d).ram.corrected < 2 ^ 32) ∧ ((s.md d).ram.uncorrectable < 2 ^ 32) ∧ (s.canReport d.pdie)) s141 .a)
    ∧ ((fun (s : State) (d : MDie) (c : Fin 12) =>
    (s.up d.pdie = true) ∧ (s.chanUp d c = true) ∧ ((s.mode = .service ∨ s.mode = .recovery))) (memUp .service) .a 11))
  ∧ (((fun (s : State) (d : MDie) (c : Fin 12) =>
    (s.up d.pdie = true) ∧ (s.chanUp d c = true) ∧ (s.bit Obj.memChStatus d.die c 3 = true) ∧ ((s.chan d c).alert = none) ∧ (s.chanUrgent d c = false)) s142 .a 11)
    ∧ ((fun (s : State) (d : MDie) (c : Fin 12) =>
    (s.up d.pdie = true) ∧ (s.chanUp d c = true) ∧ (s.bit Obj.memChStatus d.die c 3 = true) ∧ ((s.chan d c).alert = none) ∧ (s.chanUrgent d c = false) ∧ (s.canReport d.pdie)) s142 .a 11)
    ∧ ((fun (s : State) (d : MDie) =>
    (s.serverUp = true) ∧ (s.reachable d = false)) s143 .a))
  ∧ (((fun (s : State) (d : MDie) (c : Fin 12) =>
    (s.serverUp = true) ∧ (s.reachable d = true) ∧ (s.chanUp d c = true)) (memUp .service) .a 11)
    ∧ ((fun (s : State) (d : MDie) (c : Fin 12) =>
    (s.serverUp = true) ∧ (s.reachable d = true) ∧ (s.chanUp d c = false)) (live .service) .a 11)
    ∧ ((fun (s : State) (d : MDie) (c : Fin 12) (r : List Nat) =>
    (s.up d.pdie = true) ∧ ((s.md d).ram.retrains = c.val :: r) ∧ (c.val ∉ r) ∧ (s.chanUp d c = true) ∧ ((s.chan d c).alert = none) ∧ (s.canReport d.pdie)) s144 .a 11 ([])))
  ∧ (((fun (s : State) (d : MDie) (c : Fin 12) (r : List Nat) =>
    (s.up d.pdie = true) ∧ ((s.md d).ram.retrains = c.val :: r) ∧ (c.val ∉ r) ∧ (s.chanUp d c = true) ∧ ((s.chan d c).alert = none) ∧ (s.canReport d.pdie)) s144 .a 11 ([]))
    ∧ ((fun (s : State) (d : MDie) (c : Fin 12) =>
    (s.up d.pdie = true) ∧ ((d, c.val) ∈ s.recov.acts) ∧ (s.memN d ≠ 0)) s145 .a 11)
    ∧ ((fun (s : State) (d : MDie) (c : Fin 12) =>
    (s.up d.pdie = true) ∧ ((d, c.val) ∈ s.recov.acts)) s145 .a 11)) :=
  ⟨by decide +kernel, by decide +kernel, by decide +kernel, by decide +kernel⟩

/-- The state of a clause below. -/
def s146 : State := (memUp .service).updBus .a (fun b => { b with resets := [(31, (0, 0))] })
/-- The state of a clause below. -/
def s147 : State := put (memUp .service) [(Obj.busSemOwner, .a, 255, 39)]
/-- The state of a clause below. -/
def s148 : State := put (memUp .service) [(Obj.busSemOwner, .a, 255, 1)]
/-- The state of a clause below. -/
def s149 : State := (memUp .service).updBus .a (fun b => { b with resets := [(31, (0, 0))], txns := [aTxn true] })
/-- The state of a clause below. -/
def s150 : State := { memUp .test with powerA := { PowerSt.start with run := .held } }

/-- Meets the hypotheses of `Obligations.BusTransactionsSemaphoresAndMasterResets`, clause by clause. -/
theorem witness_BusTransactionsSemaphoresAndMasterResets :
  (((fun (s : State) (d : MDie) (m : Fin 39) (o : BusOp) =>
    (0 < o.len) ∧ (o.len ≤ 4096) ∧ (o.id < 256) ∧ ((o.write = true → o.data.length = o.len)) ∧ (s.mayIssue d m (s.debugOpen 1) = false)) s146 .a 31 ((anOp true 512 : BusOp)))
    ∧ ((fun (s : State) (d : MDie) (m : Fin 39) (o : BusOp) =>
    (0 < o.len) ∧ (o.len ≤ 4096) ∧ (o.id < 256) ∧ ((o.write = true → o.data.length = o.len)) ∧ (s.mayIssue d m (s.debugOpen 1) = true) ∧ (s.decodes d m o = none) ∧ (busPrivileged m = false) ∧ (s.canReport d.pdie)) (memUp .service) .a 38 ((anOp true 512 : BusOp)))
    ∧ ((fun (s : State) (d : MDie) (m : Fin 39) (o : BusOp) =>
    (0 < o.len) ∧ (o.len ≤ 4096) ∧ (o.id < 256) ∧ ((o.write = true → o.data.length = o.len)) ∧ (s.mayIssue d m (s.debugOpen 1) = true) ∧ (s.decodes d m o = none) ∧ (busPrivileged m = true) ∧ (s.canReport d.pdie)) (memUp .service) .a 31 ((anOp true 0xFFFFFFFFFF : BusOp))))
  ∧ (((fun (s : State) (d : MDie) (m : Fin 39) (o : BusOp) =>
    (0 < o.len) ∧ (o.len ≤ 4096) ∧ (o.id < 256) ∧ ((o.write = true → o.data.length = o.len)) ∧ (s.mayIssue d m (s.debugOpen 1) = true) ∧ (s.decodes d m o = some 0)) (memUp .service) .a 0 ((anOp false 512 : BusOp)))
    ∧ ((fun (s : State) (d : MDie) (m : Fin 39) =>
    (s.mayIssue d m (s.debugOpen 1) = true) ∧ ((masterPermit m).testBit 3 = true)) (memUp .service) .a 38)
    ∧ ((fun (s : State) (d : MDie) (m : Fin 39) (n : Fin 256) =>
    (s.mayIssue d m (s.debugOpen 1) = true) ∧ ((masterPermit m).testBit 3 = true) ∧ (s.rdN Obj.busSemOwner d.die n = m.val + 1)) s147 .a 38 255))
  ∧ (((fun (s : State) (d : MDie) (m : Fin 39) (n : Fin 256) =>
    (s.mayIssue d m (s.debugOpen 1) = true) ∧ ((masterPermit m).testBit 3 = true) ∧ (s.rdN Obj.busSemOwner d.die n ≠ m.val + 1) ∧ (s.canReport d.pdie)) s148 .a 38 255)
    ∧ ((fun (s : State) (d : MDie) (m : Fin 39) =>
    (s.up d.pdie = true) ∧ (s.secOn d 1 = true) ∧ ((s.md d).bus.resets.any (fun r => r.1 == m.val) = true)) s146 .a 31)
    ∧ ((fun (s : State) (d : MDie) (m : Fin 39) =>
    (s.up d.pdie = true) ∧ (s.secOn d 1 = true) ∧ ((s.md d).bus.resets.any (fun r => r.1 == m.val) = false)) (memUp .service) .a 38))
  ∧ (((fun (s : State) (d : MDie) (m : Fin 39) =>
    (s.up d.pdie = true) ∧ ((s.md d).bus.resets.any (fun r => r.1 == m.val) = true) ∧ (s.canReport d.pdie) ∧ ((s.md d).bus.txns.any (fun x => x.master == m.val && x.old) = false)) s146 .a 31)
    ∧ ((fun (s : State) (d : MDie) (m : Fin 39) =>
    (s.up d.pdie = true) ∧ ((s.md d).bus.resets.any (fun r => r.1 == m.val) = true) ∧ (s.canReport d.pdie) ∧ ((s.md d).bus.txns.any (fun x => x.master == m.val && x.old) = true) ∧ ((tabGet (s.md d).bus.resets m (0, 0)).1 + 1000000 ≤ s.now d.pdie) ∧ ((s.md d).bus.overruns.contains m.val = false)) s149 .a 31)
    ∧ ((fun (s : State) (m : Fin 48) =>
    (s.serverUp = true) ∧ ((s.mode ≠ .test ∨ 39 ≤ m.val))) (memUp .test) 39))
  ∧ (((fun (s : State) (d : MDie) (m : Fin 48) =>
    (s.serverUp = true) ∧ (s.mode = .test) ∧ (m.val < 39) ∧ (s.reachable d = false)) s150 .a 38)
    ∧ ((fun (s : State) (d : MDie) (m : Fin 48) =>
    (s.serverUp = true) ∧ (s.mode = .test) ∧ (m.val < 39) ∧ (s.reachable d = true)) (memUp .test) .a 38)) :=
  ⟨by decide +kernel, by decide +kernel, by decide +kernel, by decide +kernel, by decide +kernel⟩

/-- The state of a clause below. -/
def s151 : State := (memUp .test).updMd .a (fun m => { m with test := { m.test with bist := some 6 } })
/-- The state of a clause below. -/
def s152 : State := put (memUp .test) [(Obj.pwrSectionState, .a, 29, 1)]
/-- The state of a clause below. -/
def s153 : State := (memUp .test).updMd .a (fun m => { m with test := { m.test with bist := some 29 } })
/-- The state of a clause below. -/
def s154 : State := put (memUp .test) [(Obj.testCrcState, .a, 0, 1)]

/-- Meets the hypotheses of `Obligations.TestFacilitiesRunAndInject`, clause by clause. -/
theorem witness_TestFacilitiesRunAndInject :
  (((fun (s : State) (d : MDie) =>
    (s.serverUp = true) ∧ (s.reachable d = true) ∧ ((s.md d).test.bist.isSome = true)) s151 .a)
    ∧ ((fun (s : State) (d : MDie) (sec : Nat) =>
    (s.serverUp = true) ∧ (s.reachable d = true) ∧ ((s.md d).test.bist = none) ∧ ((sec < 6 ∨ 29 < sec))) (memUp .test) .a 30)
    ∧ ((fun (s : State) (d : MDie) (sec : Nat) =>
    (s.serverUp = true) ∧ (s.reachable d = true) ∧ ((s.md d).test.bist = none) ∧ (6 ≤ sec) ∧ (sec ≤ 29) ∧ (s.section d.pdie sec ≠ 2)) s152 .a 29))
  ∧ (((fun (s : State) (d : MDie) (sec : Nat) =>
    (s.serverUp = true) ∧ (s.reachable d = true) ∧ ((s.md d).test.bist = none) ∧ (6 ≤ sec) ∧ (sec ≤ 29) ∧ (s.section d.pdie sec = 2)) (memUp .test) .a 29)
    ∧ ((fun (s : State) (d : MDie) (bad : List Nat) (n : Nat) =>
    ((s.md d).test.bist = some n) ∧ (s.up d.pdie = true) ∧ (bad = [])) s153 .a ([]) 29)
    ∧ ((fun (s : State) (d : MDie) (bad : List Nat) (n : Nat) =>
    ((s.md d).test.bist = some n) ∧ (s.up d.pdie = true) ∧ (bad ≠ []) ∧ (s.canReport d.pdie)) s153 .a ([3, 4]) 29))
  ∧ (((fun (s : State) (d : MDie) =>
    (s.serverUp = true) ∧ (s.reachable d = false)) s150 .a)
    ∧ ((fun (s : State) (d : MDie) (n : Nat) =>
    (s.serverUp = true) ∧ (s.reachable d = true) ∧ ((n = 0 ∨ 1000000 < n))) (memUp .test) .a 1000001)
    ∧ ((fun (s : State) (d : MDie) (n : Nat) =>
    (s.serverUp = true) ∧ (s.reachable d = true) ∧ (0 < n) ∧ (n ≤ 1000000)) (memUp .test) .a 1000000))
  ∧ (((fun (s : State) (d : MDie) =>
    (s.up d.pdie = true) ∧ (s.rdN Obj.testCrcState d.die 0 = 1) ∧ ((∀ x ∈ (s.md d).test.crc, x.2 = 0)) ∧ (s.canReport d.pdie)) s154 .a)
    ∧ ((fun (s : State) =>
    (s.serverUp = true)) (memUp .test))
    ∧ ((fun (s : State) =>
    (s.serverUp = true)) (memUp .test)))
  ∧ (((fun (s : State) =>
    (s.serverUp = true)) (memUp .test))
    ∧ ((fun (s : State) =>
    (s.serverUp = true)) (memUp .test))
    ∧ ((fun (s : State) =>
    (s.serverUp = true)) (memUp .test)))
  ∧ (((fun (s : State) =>
    (s.serverUp = true)) (memUp .test))
    ∧ ((fun (s : State) =>
    (s.serverUp = true)) (memUp .test))
    ∧ ((fun (s : State) (d : MDie) (x : Nat) (n : Nat) =>
    (s.serverUp = true) ∧ (s.reachable d = true) ∧ (s.mode = .test) ∧ (n ≠ 0) ∧ (s.injectOk d 1 x = true) ∧ (s.canReport d.pdie)) (memUp .test) .a 11 1))
  ∧ (((fun (s : State) (d : MDie) (x : Nat) (n : Nat) =>
    (s.serverUp = true) ∧ (s.reachable d = true) ∧ (s.mode = .test) ∧ (n ≠ 0) ∧ (s.injectOk d 2 x = true) ∧ (s.canReport d.pdie)) (memUp .test) .a 11 1)
    ∧ ((fun (s : State) (d : MDie) (x : Nat) (n : Nat) =>
    (s.serverUp = true) ∧ (s.reachable d = true) ∧ (s.mode = .test) ∧ (n ≠ 0) ∧ (s.injectOk d 3 x = true) ∧ (s.canReport d.pdie)) (memUp .test) .a 11 1)
    ∧ ((fun (s : State) (d : MDie) (x : Nat) (n : Nat) =>
    (s.serverUp = true) ∧ (s.reachable d = true) ∧ (s.mode = .test) ∧ (n ≠ 0) ∧ (s.injectOk d 4 x = true) ∧ (s.canReport d.pdie)) (memUp .test) .a 38 1))
  ∧ (((fun (s : State) (d : MDie) (x : Nat) (n : Nat) =>
    (s.serverUp = true) ∧ (s.reachable d = true) ∧ (s.mode = .test) ∧ (n ≠ 0) ∧ (s.injectOk d 5 x = true) ∧ (s.canReport d.pdie)) (memUp .test) .a 4095 1)
    ∧ ((fun (s : State) (d : MDie) (x : Nat) (n : Nat) =>
    (s.serverUp = true) ∧ (s.reachable d = true) ∧ (s.mode = .test) ∧ (n ≠ 0) ∧ (s.injectOk d 6 x = true) ∧ (s.canReport d.pdie)) (memUp .test) .a 31 1)
    ∧ ((fun (s : State) (d : MDie) (x : Nat) (n : Nat) =>
    (s.serverUp = true) ∧ (s.reachable d = true) ∧ (s.mode = .test) ∧ (n ≠ 0) ∧ (s.injectOk d 7 x = true) ∧ (s.canReport d.pdie)) (memUp .test) .a 0 1)) :=
  ⟨by decide +kernel, by decide +kernel, by decide +kernel, by decide +kernel, by decide +kernel, by decide +kernel, by decide +kernel, by decide +kernel⟩

/-- The state of a clause below. -/
def s155 : State := (pairIn 2 2).updSlv .a (fun x => { x with built := [aHeld false] })
/-- The state of a clause below. -/
def s156 : State := (pairIn 2 2).updSlv .a (fun x => { x with built := [aHeld false], table := List.replicate 4096 { aHeld false with seq := 6 } })
/-- The state of a clause below. -/
def s157 : State := (pairIn 2 2).updSlv .a (fun x => { x with table := [aHeld false] })
/-- The state of a clause below. -/
def s158 : State := (pairIn 2 2).updSlv .a (fun x => { x with table := [aHeld true] })
/-- The state of a clause below. -/
def s159 : State := (pairIn 2 2).updSlv .a (fun x => { x with orphans := [(aCmpRec 1, 0)] })
/-- The state of a clause below. -/
def s160 : State := { pairIn 2 2 with pair := { (pairIn 2 2).pair with resyncs := [(1, 9, .a)] } }

/-- Meets the hypotheses of `Obligations.PacketsOfThePairAreComparedAndReleased`, clause by clause. -/
theorem witness_PacketsOfThePairAreComparedAndReleased :
  (((fun (s : State) (d : MDie) (h : HeldPkt) (rest : List HeldPkt) =>
    (s.compares d = true) ∧ ((s.md d).slv.built = h :: rest) ∧ ((s.md d).slv.table.length < compareMax) ∧ ((s.md d).slv.orphans.find? (fun o => o.1.flow == h.flow && o.1.seq == h.seq) = none)) s155 .a (aHeld false) ([]))
    ∧ ((fun (s : State) (d : MDie) (h : HeldPkt) (rest : List HeldPkt) =>
    (s.compares d = true) ∧ ((s.md d).slv.built = h :: rest) ∧ (compareMax ≤ (s.md d).slv.table.length)) s156 .a (aHeld false) ([]))
    ∧ ((fun (s : State) (d : MDie) (r : CmpRec) =>
    (s.compares d = true) ∧ ((s.md d).slv.table.find? (fun h => h.flow == r.flow && h.seq == r.seq) = none)) (pairIn 2 2) .a ((aCmpRec 1 : CmpRec))))
  ∧ (((fun (s : State) (d : MDie) (r : CmpRec) (h : HeldPkt) =>
    (s.compares d = true) ∧ ((s.md d).slv.table.find? (fun h => h.flow == r.flow && h.seq == r.seq) = some h) ∧ (r.crc = h.crc) ∧ (r.len = h.len)) s157 .a ((aCmpRec 1 : CmpRec)) (aHeld false))
    ∧ ((fun (s : State) (d : MDie) (r : CmpRec) (h : HeldPkt) =>
    (s.compares d = true) ∧ ((s.md d).slv.table.find? (fun h => h.flow == r.flow && h.seq == r.seq) = some h) ∧ ((r.crc ≠ h.crc ∨ r.len ≠ h.len)) ∧ (h.err = true) ∧ (s.canReport d.pdie)) s158 .a ((aCmpRec 2 : CmpRec)) (aHeld true))
    ∧ ((fun (s : State) (d : MDie) (r : CmpRec) (h : HeldPkt) =>
    (s.compares d = true) ∧ ((s.md d).slv.table.find? (fun h => h.flow == r.flow && h.seq == r.seq) = some h) ∧ ((r.crc ≠ h.crc ∨ r.len ≠ h.len)) ∧ (h.err = false) ∧ (r.err = false) ∧ (s.slvState d ≠ 6) ∧ (s.slvState d.other ≠ 6)) s157 .a ((aCmpRec 2 : CmpRec)) (aHeld false)))
  ∧ (((fun (s : State) (d : MDie) (h : HeldPkt) (rest : List HeldPkt) =>
    ((s.md d).slv.table = h :: rest) ∧ (s.up d.pdie = true) ∧ (s.mode = .selvedge) ∧ (h.at_ + compareWait ≤ s.now d.pdie)) s157 .a (aHeld false) ([]))
    ∧ ((fun (s : State) (d : MDie) (o : CmpRec × Nat) (rest : List (CmpRec × Nat)) =>
    ((s.md d).slv.orphans = o :: rest) ∧ (s.up d.pdie = true) ∧ (o.2 + compareWait ≤ s.now d.pdie)) s159 .a ((aCmpRec 1, 0)) ([]))
    ∧ ((fun (s : State) (kind : Nat) (n : Nat) (src : MDie) (rest : List (Nat × Nat × MDie)) =>
    (s.pair.resyncs = (kind, n, src) :: rest) ∧ (s.serverUp = true) ∧ (s.mode = .selvedge) ∧ (s.up .a = true) ∧ (s.up .b = true)) s160 1 9 .a ([]))) :=
  ⟨by decide +kernel, by decide +kernel, by decide +kernel⟩

/-- The state of a clause below. -/
def s161 : State := (pairIn 2 2).updSlv .a (fun x => { x with missBridge := 3, missC := 3 })
/-- The state of a clause below. -/
def s162 : State := { pairIn 3 3 with pair := { (pairIn 3 3).pair with declared := [(.a, 7), (.b, 6)] } }
/-- The state of a clause below. -/
def s163 : State := { pairIn 4 4 with pair := { (pairIn 4 4).pair with heard := 4 } }
/-- The state of a clause below. -/
def s164 : State := put (pairIn 3 5) [(Obj.memCapacity, .b, 0, 51539607552), (Obj.memChEnabled, .b, 0, 4095), (Obj.memCapacity, .a, 0, 51539607552), (Obj.memChEnabled, .a, 0, 4095)]
/-- The state of a clause below. -/
def s165 : State := { pairIn 3 5 with powerB := { PowerSt.start with run := .held } }

/-- Meets the hypotheses of `Obligations.HeartbeatsDeclareSplitAndRejoinThePair`, clause by clause. -/
theorem witness_HeartbeatsDeclareSplitAndRejoinThePair :
  (((fun (s : State) (d : MDie) =>
    (s.compares d = true) ∧ (s.ownsPair d = false)) (pairIn 2 2) .b)
    ∧ ((fun (s : State) (d : MDie) =>
    (s.beats d = true)) (pairIn 2 2) .a)
    ∧ ((fun (s : State) (d : MDie) =>
    (s.beats d = true)) (pairIn 2 2) .a))
  ∧ (((fun (s : State) (d : MDie) =>
    (s.beats d = true)) s161 .a)
    ∧ ((fun (s : State) (d : MDie) =>
    (s.compares d = true)) (pairIn 2 2) .b)
    ∧ ((fun (s : State) (ga : Nat) (gb : Nat) =>
    (s.declarationOf .a = some ga) ∧ (s.declarationOf .b = some gb) ∧ (s.serverUp = true) ∧ (s.mode = .selvedge) ∧ (s.slvState .a = 3) ∧ (s.slvState .b = 3)) s162 7 6))
  ∧ (((fun (s : State) (d : MDie) =>
    (d = (if s.ownsPair .a then .b else .a)) ∧ (s.serverUp = true) ∧ (s.mode = .selvedge) ∧ (s.slvState d = 4) ∧ (s.slvState d.other = 4) ∧ (4 ≤ s.pair.heard)) s163 .b)
    ∧ ((fun (s : State) =>
    (s.serverUp = true) ∧ (s.mode = .selvedge) ∧ (s.slvState .a = 1) ∧ (s.slvState .b = 1) ∧ (s.allMatched .a = true) ∧ (s.allMatched .b = true)) (pairIn 1 1))
    ∧ ((fun (s : State) (d : MDie) =>
    (s.up d.pdie = true) ∧ (s.mode = .selvedge) ∧ (s.slvState d = 2)) (pairIn 2 2) .a))
  ∧ (((fun (s : State) (d : MDie) =>
    (s.mayReturn d = true) ∧ (((s.copyMirrored d.other).configureDie d false).2 = none)) s164 .b)
    ∧ ((fun (s : State) (d : MDie) =>
    (s.serverUp = true) ∧ (s.mode = .selvedge) ∧ (s.slvState d = 6) ∧ (s.allMatched d = true)) (pairIn 3 6) .b)
    ∧ ((fun (s : State) (d : MDie) =>
    (s.serverUp = true) ∧ (s.reachable d = false)) s165 .b))
  ∧ ((fun (s : State) (d : MDie) =>
    (s.serverUp = true) ∧ (s.reachable d = true) ∧ (s.mayReturn d = false)) (pairIn 2 2) .b) :=
  ⟨by decide +kernel, by decide +kernel, by decide +kernel, by decide +kernel, by decide +kernel⟩

/-- The state of a clause below. -/
def s166 : State := put (ready .configure) [(Obj.quadMode, .a, 2, 4), (Obj.timeRefFormat, .a, 0, 0x0603)]
/-- The state of a clause below. -/
def s167 : State := put (ready .configure) [(Obj.uciState, .c, 1, 0)]
/-- The state of a clause below. -/
def s168 : State := { ready .service with trans := some { target := .configure, instant := 0, source := .service } }
/-- The state of a clause below. -/
def s169 : State := { put (ready .service) [(Obj.encChEnable, .a, 47, 1), (Obj.encChState, .a, 47, 2)] with trans := some { target := .configure, instant := 0, source := .service } }

/-- Meets the hypotheses of `Obligations.ModeRequestsFollowTheTransitionTable`, clause by clause. -/
theorem witness_ModeRequestsFollowTheTransitionTable :
  ((fun (s : State) (x : Mode × Instr) =>
    let asks : List (Mode × Instr) := [(.standby, .modeRequestStandby), (.configure, .modeRequestConfigure),
        (.service, .modeRequestService), (.selvedge, .modeRequestSelvedge), (.test, .modeRequestTest)]
    (s.serverUp = true) ∧ (x ∈ asks) ∧ (listedMove s.mode x.1 = false)) (live .service) ((.standby, .modeRequestStandby)))
  ∧ ((fun (s : State) (x : Mode × Instr) =>
    let asks : List (Mode × Instr) := [(.standby, .modeRequestStandby), (.configure, .modeRequestConfigure),
        (.service, .modeRequestService), (.selvedge, .modeRequestSelvedge), (.test, .modeRequestTest)]
    (s.serverUp = true) ∧ (x ∈ asks) ∧ (listedMove s.mode x.1 = true) ∧ (s.timeHolds x.1 = true)) (live .configure) ((.selvedge, .modeRequestSelvedge)))
  ∧ (((fun (s : State) =>
    (s.serverUp = true) ∧ (s.trans = none) ∧ (s.mode = .configure) ∧ (s.refDiffer false = false)) (live .configure))
    ∧ ((fun (s : State) =>
    (s.serverUp = true) ∧ (s.trans = none) ∧ (s.mode = .standby)) (live .standby))
    ∧ ((fun (s : State) =>
    (s.serverUp = true) ∧ (s.trans = none) ∧ ((s.mode = .service ∨ s.mode = .selvedge ∨ s.mode = .test))) (live .test)))
  ∧ (((fun (s : State) =>
    (s.serverUp = true) ∧ (s.trans = none) ∧ (s.mode = .recovery)) (live .recovery))
    ∧ ((fun (s : State) =>
    (s.serverUp = true) ∧ (s.trans = none) ∧ (s.mode = .selvedge) ∧ (s.timeHolds .service = false) ∧ (s.livingDies ≠ [])) (ready .selvedge))
    ∧ ((fun (s : State) =>
    (s.serverUp = true) ∧ (s.trans = none) ∧ (s.mode = .service) ∧ (s.timeHolds .selvedge = false) ∧ (s.pairHolds .selvedge = false) ∧ (2 ≤ (s.livingDies).length)) (ready .service)))
  ∧ (((fun (s : State) (x : Mode × Instr) =>
    let asks : List (Mode × Instr) := [(.standby, .modeRequestStandby), (.configure, .modeRequestConfigure),
        (.service, .modeRequestService), (.selvedge, .modeRequestSelvedge), (.test, .modeRequestTest)]
    (s.serverUp = true) ∧ (s.mode = .configure) ∧ (s.trans = none) ∧ (x ∈ asks.drop 2) ∧ (s.timeHolds x.1 = false) ∧ (s.diesMissing x.1 = false) ∧ (s.pairHolds x.1 = false) ∧ (s.refDiffer false = true)) s166 ((.service, .modeRequestService)))
    ∧ ((fun (s : State) (x : Mode × Instr) =>
    let asks : List (Mode × Instr) := [(.standby, .modeRequestStandby), (.configure, .modeRequestConfigure),
        (.service, .modeRequestService), (.selvedge, .modeRequestSelvedge), (.test, .modeRequestTest)]
    (s.serverUp = true) ∧ (s.mode = .configure) ∧ (s.trans = none) ∧ (x ∈ asks.drop 2) ∧ (s.timeHolds x.1 = false) ∧ (s.diesMissing x.1 = false) ∧ (s.pairHolds x.1 = false) ∧ (s.modeAsked.refDiffer false = false) ∧ ((s.modeAsked.leaveConfigure (x.1 == .selvedge)).2 = none)) s167 ((.service, .modeRequestService)))
    ∧ ((fun (s : State) =>
    (s.serverUp = true) ∧ (s.mode = .configure) ∧ (s.trans = none) ∧ (s.diesMissing .test = false) ∧ (s.modeAsked.refDiffer false = false) ∧ ((s.modeAsked.leaveConfigure false).2 = none)) s167))
  ∧ (((fun (s : State) (u : Trans) =>
    (s.trans = some u) ∧ (s.serverUp = true) ∧ (s.stopped .a = true) ∧ (s.stopped .b = true)) s168 ({ target := .configure, instant := 0, source := .service }))
    ∧ ((fun (s : State) (u : Trans) (d : MDie) (c : Nat) =>
    (s.trans = some u) ∧ (s.serverUp = true) ∧ (u.instant + 2 * nsPerSec ≤ s.time.base) ∧ ((s.stopFrom d).isSome = true) ∧ (s.up d.pdie = true) ∧ (c ∈ s.encChannels d) ∧ (s.encState d c ≠ 0)) s169 ({ target := .configure, instant := 0, source := .service }) .a 47)) :=
  ⟨⟨by decide +kernel, by simp, by decide +kernel⟩, ⟨by decide +kernel, by simp, by decide +kernel, by decide +kernel⟩, by decide +kernel, by decide +kernel, by decide +kernel, by decide +kernel⟩

/-- The state of a clause below. -/
def s170 : State := { ready .service with recov := { RecovSt.start with due := [(.a, 0x3006)] } }
/-- The state of a clause below. -/
def s171 : State := { ready .recovery with recov := { RecovSt.start with due := [(.a, 0x3006)] } }
/-- The state of a clause below. -/
def s172 : State := { pairIn 2 2 with recov := { RecovSt.start with due := [(.a, 0x3006)] } }
/-- The state of a clause below. -/
def s173 : State := { ready .test with recov := { RecovSt.start with due := [(.a, 0x3006)] } }
/-- The state of a clause below. -/
def s174 : State := put (ready .recovery) [(Obj.modePrevious, .p, 0, 4)]
/-- The state of a clause below. -/
def s175 : State := { ready .recovery with recov := { RecovSt.start with held := true } }

/-- Meets the hypotheses of `Obligations.RecoveryIsEnteredAndLeft`, clause by clause. -/
theorem witness_RecoveryIsEnteredAndLeft :
  (((fun (s : State) (d : MDie) (code : Nat) (rest : List (MDie × Nat)) =>
    (s.recov.due = (d, code) :: rest) ∧ (s.serverUp = true) ∧ (s.trans = none) ∧ (s.mode = .service)) s170 .a 0x3006 ([]))
    ∧ ((fun (s : State) (d : MDie) (code : Nat) (rest : List (MDie × Nat)) =>
    (s.recov.due = (d, code) :: rest) ∧ (s.serverUp = true) ∧ (s.trans = none) ∧ (s.mode = .recovery)) s171 .a 0x3006 ([]))
    ∧ ((fun (s : State) (d : MDie) (code : Nat) (rest : List (MDie × Nat)) =>
    (s.recov.due = (d, code) :: rest) ∧ (s.serverUp = true) ∧ (s.trans = none) ∧ (s.mode = .selvedge) ∧ (s.slvState d ≠ 3) ∧ (s.slvState d ≠ 4)) s172 .a 0x3006 ([])))
  ∧ (((fun (s : State) (d : MDie) (code : Nat) (rest : List (MDie × Nat)) =>
    (s.recov.due = (d, code) :: rest) ∧ (s.serverUp = true) ∧ (s.trans = none) ∧ (s.mode = .test)) s173 .a 0x3006 ([]))
    ∧ ((fun (s : State) =>
    (s.serverUp = true) ∧ (s.mode = .recovery) ∧ (s.trans = none) ∧ (s.recov.acts = []) ∧ (s.recov.restarts = []) ∧ (s.recov.due = []) ∧ (s.recov.held = false)) s174)
    ∧ ((fun (s : State) =>
    (s.serverUp = true) ∧ (s.mode = .recovery) ∧ (s.trans = none) ∧ (s.recov.acts = []) ∧ (s.recov.restarts = []) ∧ (s.recov.due = []) ∧ (s.recov.held = true)) s175)) :=
  ⟨by decide +kernel, by decide +kernel⟩

/-- The state of a clause below. -/
def s176 : State := State.reset.setMode .boot
/-- The state of a clause below. -/
def s177 : State := { put (live .boot) [(Obj.bootStraps, .p, 0, 2)] with boot := { BootSt.start with ready := true } }
/-- The state of a clause below. -/
def s178 : State := { live .service with boot := { BootSt.start with ready := true } }
/-- The state of a clause below. -/
def s179 : State := { live .standby with boot := { BootSt.start with retrying := true } }
/-- The state of a clause below. -/
def s180 : State := { live .service with powerA := { PowerSt.start with run := .resetAlone } }

/-- Meets the hypotheses of `Obligations.ThePartBootsAndItsDiesReturn`, clause by clause. -/
theorem witness_ThePartBootsAndItsDiesReturn :
  (((fun (s : State) =>
    (s.mode = .reset)) State.reset)
    ∧ ((fun (s : State) (r : BootRun) =>
    (s.mode = .boot) ∧ (s.boot.ready = false) ∧ (s.boot.halted = false) ∧ ((s.power .c).run ≠ .shutdown) ∧ ((s.power .c).run ≠ .running) ∧ ((r.slot0 = true ∨ r.slot1 = true))) s176 (bootRun true))
    ∧ ((fun (s : State) (r : BootRun) =>
    (s.mode = .boot) ∧ (s.boot.ready = false) ∧ (s.boot.halted = false) ∧ ((s.power .c).run ≠ .shutdown) ∧ ((s.power .c).run ≠ .running) ∧ (r.slot0 = false) ∧ (r.slot1 = false)) s176 (bootRun false)))
  ∧ (((fun (s : State) =>
    (s.mode = .boot) ∧ (s.boot.ready = false) ∧ (s.boot.halted = false)) s176)
    ∧ ((fun (s : State) =>
    (s.boot.ready = true) ∧ (s.up .c = true) ∧ (s.mode = .boot) ∧ (s.bootTarget = .standby)) s2)
    ∧ ((fun (s : State) =>
    (s.boot.ready = true) ∧ (s.up .c = true) ∧ (s.mode = .boot) ∧ (s.bootTarget = .configure)) s177))
  ∧ (((fun (s : State) =>
    (s.boot.ready = true) ∧ (s.up .c = true) ∧ (s.mode ≠ .boot)) s178)
    ∧ ((fun (s : State) (r : Nat) =>
    (s.serverUp = true) ∧ (s.boot.retrying = true) ∧ (s.moveReason s.bootTarget = some r)) s179 1)
    ∧ ((fun (s : State) (d : MDie) (b : DieBoot) =>
    (s.serverUp = true) ∧ ((s.power d.pdie).run = .resetAlone) ∧ (b.link = true)) s180 .a bootDie)) :=
  ⟨by decide +kernel, by decide +kernel, by decide +kernel⟩

/-- The state of a clause below. -/
def s181 : State := (live .service).updMd .a (fun m => { m with arb := { m.arb with buf := [aRecord 0x1310] } })
/-- The state of a clause below. -/
def s182 : State := { (live .service).updMd .a (fun m => { m with arb := { m.arb with buf := [{ aRecord 0x1120 with payload := p16 [2] }] } }) with powerA := { PowerSt.start with run := .running, aoDip := some (4, 700) } }
/-- The state of a clause below. -/
def s183 : State := (live .service).updMd .a (fun m => { m with arb := { m.arb with lost := 4 } })
/-- The state of a clause below. -/
def s184 : State := put (live .service) [(Obj.uciState, .c, 1, 0)]
/-- The state of a clause below. -/
def s185 : State := { live .service with boot := { BootSt.start with reattach := [.b] } }

/-- Meets the hypotheses of `Obligations.RecordsReachTheLogAndLinksAreServed`, clause by clause. -/
theorem witness_RecordsReachTheLogAndLinksAreServed :
  (((fun (s : State) (d : MDie) =>
    ((s.md d).arb.buf = [])) (live .service) .a)
    ∧ ((fun (s : State) (d : MDie) (r : EventRec) (rest : List EventRec) =>
    ((s.md d).arb.buf = r :: rest) ∧ (s.reachable d = true) ∧ (r.code ≠ 0x3203) ∧ ((r.code ≠ 0x1120 ∨ (s.power d.pdie).aoDip = none))) s181 .a (aRecord 0x1310) ([]))
    ∧ ((fun (s : State) (d : MDie) (r : EventRec) (rest : List EventRec) (rail : Nat) (mv : Nat) =>
    ((s.md d).arb.buf = r :: rest) ∧ (s.reachable d = true) ∧ (r.code = 0x1120) ∧ (r.payload = p16 [2]) ∧ ((s.power d.pdie).aoDip = some (rail, mv))) s182 .a ({ aRecord 0x1120 with payload := p16 [2] }) ([]) 4 700))
  ∧ (((fun (s : State) (d : MDie) =>
    (s.up d.pdie = true) ∧ (0 < (s.md d).arb.lost) ∧ ((s.md d).arb.buf.length < arbiterMax)) s183 .a)
    ∧ ((fun (s : State) (d : MDie) =>
    (s.reachable d = true)) (live .service) .b)
    ∧ ((fun (s : State) (d : MDie) =>
    (s.up .c = true) ∧ (s.up d.pdie = true) ∧ (s.rdN Obj.uciState .c d.num ≠ 2) ∧ (d ∉ s.boot.reattach)) s184 .b))
  ∧ (((fun (s : State) (d : MDie) =>
    (s.up .c = true) ∧ (s.up d.pdie = true) ∧ (d ∈ s.boot.reattach)) s185 .b)
    ∧ ((fun (s : State) =>
    (s.up .c = true) ∧ (s.dictWf = true)) (live .service))) :=
  ⟨by decide +kernel, by decide +kernel, by decide +kernel⟩

/-- The state of a clause below. -/
def s186 : State := put (follows id) [(Obj.timeState, .c, 0, 2)]
/-- The state of a clause below. -/
def s187 : State := follows (fun t => { t with syncWait := [(7, (5, 1000))] })
/-- The state of a clause below. -/
def s188 : State := follows (fun t => { t with reqWait := [(7, (5, 1000))], syncDiff := [(7, 100)] })
/-- The state of a clause below. -/
def s189 : State := put (ptpPort .service) [(Obj.ptpPortRole, .c, 7, 3)]

/-- Meets the hypotheses of `Obligations.PtpMessagesDriveTheServo`, clause by clause. -/
theorem witness_PtpMessagesDriveTheServo :
  (((fun (s : State) (p : Fin 8) (h : PtpHeader) =>
    (s.ptpClient = true) ∧ (s.ptpSlave p = true) ∧ (h.supported = false)) (ptpPort .service) 7 ({ aHdr with supported := false }))
    ∧ ((fun (s : State) (p : Fin 8) (h : PtpHeader) (a : Announce) =>
    (s.ptpClient = true) ∧ (s.ptpSlave p = true) ∧ (h.supported = true) ∧ ((h.domain : Int) = s.rd Obj.ptpDomain .c 0) ∧ (1000000 ≤ a.secs) ∧ (s.time.gm = none) ∧ (s.time.candidates = []) ∧ (s.servo = 0)) (ptpPort .service) 7 aHdr aGm)
    ∧ ((fun (s : State) (p : Fin 8) (h : PtpHeader) (a : Announce) =>
    (s.ptpClient = true) ∧ (s.ptpSlave p = true) ∧ (h.supported = true) ∧ ((h.domain : Int) = s.rd Obj.ptpDomain .c 0) ∧ (a.secs < 1000000) ∧ (s.time.gm = none) ∧ (a.identity ∉ s.time.lowReported)) (ptpPort .service) 7 aHdr ({ aGm with secs := 999999 })))
  ∧ (((fun (s : State) (p : Fin 8) (h : PtpHeader) =>
    (s.ptpCounted p h = true)) (ptpPort .service) 7 ({ aHdr with supported := false }))
    ∧ ((fun (s : State) (p : Fin 8) (h : PtpHeader) =>
    (s.ptpCounted p h = true)) (ptpPort .service) 7 ({ aHdr with supported := false }))
    ∧ ((fun (s : State) (p : Fin 8) (h : PtpHeader) =>
    (s.ptpCounted p h = true)) (ptpPort .service) 7 ({ aHdr with supported := false })))
  ∧ (((fun (s : State) (p : Fin 8) (h : PtpHeader) (rx : Nat) (origin : Nat) (off : Int) =>
    (s.ptpCounted p h = false) ∧ (s.ptpFrom p h = true) ∧ (off = (rx : Int) - origin - s.time.pathDelay)) s186 7 aHdr 2000000000 0 2000000000)
    ∧ ((fun (s : State) (p : Fin 8) (h : PtpHeader) =>
    (s.ptpCounted p h = false) ∧ (s.ptpFrom p h = true)) (follows id) 7 aHdr)
    ∧ ((fun (s : State) (p : Fin 8) (h : PtpHeader) (rx : Nat) (origin : Nat) (off : Int) =>
    (s.ptpCounted p h = false) ∧ (s.ptpFrom p h = true) ∧ (off = (rx : Int) - origin - s.time.pathDelay) ∧ (s.time.syncWait.find? (fun e => e.1 == p.val) = some (p.val, h.seq, rx))) s187 7 aHdr 1000 900 100))
  ∧ (((fun (s : State) (p : Fin 8) (h : PtpHeader) (tx : Nat) (diff : Int) =>
    (s.ptpCounted p h = false) ∧ (s.ptpFrom p h = true) ∧ (s.time.reqWait.find? (fun e => e.1 == p.val) = some (p.val, h.seq, tx)) ∧ (s.time.syncDiff.find? (fun e => e.1 == p.val) = some (p.val, diff))) s188 7 aHdr 1000 100)
    ∧ ((fun (s : State) (p : Fin 8) =>
    (s.ptpClient = true) ∧ (s.ptpSlave p = true) ∧ (s.time.gm.isSome = true)) (follows id) 7)
    ∧ ((fun (s : State) (p : Fin 8) =>
    (s.ptpMaster p = true)) s189 7))
  ∧ (((fun (s : State) (p : Fin 8) =>
    (s.ptpMaster p = true)) s189 7)
    ∧ ((fun (s : State) (p : Fin 8) (h : PtpHeader) =>
    (s.ptpMaster p = true) ∧ (h.supported = true) ∧ ((h.domain : Int) = s.rd Obj.ptpDomain .c 0)) s189 7 aHdr)
    ∧ ((fun (s : State) (g : Announce) =>
    (s.time.gm = some g) ∧ ((∀ c ∈ s.time.candidates, c.identity = g.identity)) ∧ (s.servo = 2) ∧ (s.ptpClient = true)) s186 aGm))
  ∧ ((fun (s : State) (g : Announce) =>
    (s.time.gm = some g) ∧ ((∀ c ∈ s.time.candidates, c.identity = g.identity)) ∧ (s.servo = 2) ∧ (s.ptpClient = true)) s186 aGm) :=
  ⟨by decide +kernel, by decide +kernel, by decide +kernel, by decide +kernel, by decide +kernel, by decide +kernel⟩

/-- The state of a clause below. -/
def s190 : State := put (live .service) [(Obj.timeState, .c, 0, 5)]
/-- The state of a clause below. -/
def s191 : State := put (live .service) [(Obj.timeStatus, .c, 0, 2)]
/-- The state of a clause below. -/
def s192 : State := (live .service).updTime (fun t => { t with ppsLast := some 5000000000 })
/-- The state of a clause below. -/
def s193 : State := put (live .service) [(Obj.timeStatus, .c, 0, 4)]
/-- The state of a clause below. -/
def s194 : State := put (live .service) [(Obj.timeSource, .c, 0, 2)]
/-- The state of a clause below. -/
def s195 : State := put (live .service) [(Obj.timeState, .c, 0, 2)]

/-- Meets the hypotheses of `Obligations.TimeStepsSteeringAndReferenceInputs`, clause by clause. -/
theorem witness_TimeStepsSteeringAndReferenceInputs :
  (((fun (s : State) =>
    (s.serverUp = true) ∧ (s.servo ≠ 5)) (live .service))
    ∧ ((fun (s : State) =>
    (s.serverUp = true) ∧ (s.servo = 5)) s190)
    ∧ ((fun (s : State) (d : MDie) (rest : Int) =>
    (s.reachable d = true) ∧ (rest = slewTake (s.rdN Obj.timeSlewMax .c 0) (s.md d).time.slew)) (live .service) .a (slewTake ((live .service).rdN Obj.timeSlewMax .c 0) (live .service).dieA.time.slew)))
  ∧ (((fun (s : State) =>
    (s.up .c = true) ∧ (s.bit Obj.timeStatus .c 0 1 = true)) s191)
    ∧ ((fun (s : State) =>
    (s.up .c = true) ∧ (s.bit Obj.timeStatus .c 0 1 = false)) (live .service))
    ∧ ((fun (s : State) =>
    (s.up .c = true) ∧ (s.bit Obj.timeStatus .c 0 1 = false)) (live .service)))
  ∧ (((fun (s : State) =>
    (s.up .c = true) ∧ (s.bit Obj.timeStatus .c 0 1 = true)) s191)
    ∧ ((fun (s : State) (t : Nat) (l : Nat) =>
    (s.up .c = true) ∧ (s.time.ppsLast = some l) ∧ (l + nsPerSec ≤ t + 1000) ∧ (t ≤ l + nsPerSec + 1000)) s192 6000001000 5000000000)
    ∧ ((fun (s : State) =>
    (s.up .c = true) ∧ (s.bit Obj.timeStatus .c 0 2 = true)) s193))
  ∧ (((fun (s : State) =>
    (s.serverUp = true) ∧ (s.rdN Obj.timeSource .c 0 ≠ 2)) (live .service))
    ∧ ((fun (s : State) (v : Nat) =>
    (s.serverUp = true) ∧ (s.rdN Obj.timeSource .c 0 = 2) ∧ ((v < 1000000 ∨ 2 ^ 48 ≤ v))) s194 999999)
    ∧ ((fun (s : State) (v : Nat) =>
    (s.serverUp = true) ∧ (s.rdN Obj.timeSource .c 0 = 2) ∧ (1000000 ≤ v) ∧ (v < 2 ^ 48)) s194 1000000))
  ∧ (((fun (s : State) =>
    (s.up .c = true) ∧ (2 ≤ s.servo) ∧ (s.time.base % nsPerSec ≤ 100000) ∧ ((s.time.ppsoDriven = false ∨ s.time.base / nsPerSec ≠ s.time.ppsoSecond))) s195)
    ∧ ((fun (s : State) =>
    (s.servo < 2)) (live .service))
    ∧ ((fun (s : State) =>
    (s.servo < 2)) (live .service)))
  ∧ (((fun (s : State) (d : MDie) (q : Fin 8) (secs : Nat) (ns : Nat) (off : Int) =>
    (s.twlLive d q = true) ∧ (s.timeFromTwill = false) ∧ (off = (s.time.base : Int) - (secs * nsPerSec + ns + s.rdN Obj.twlLinkDelay d.die q : Nat)) ∧ (s.rootLink ≠ some (d, q.val))) (twl 3) .a 2 1000000 500 (1000000000000000 - (1000000 * nsPerSec + 500 + (twl 3).rdN Obj.twlLinkDelay .a 2 : Nat)))
    ∧ ((fun (s : State) (d : MDie) (q : Fin 8) (secs : Nat) (ns : Nat) (off : Int) =>
    (s.twlLive d q = true) ∧ (s.timeFromTwill = false) ∧ (off = (s.time.base : Int) - (secs * nsPerSec + ns + s.rdN Obj.twlLinkDelay d.die q : Nat)) ∧ (s.rootLink = some (d, q.val))) rooted .a 2 1000000 500 (1000000000000000 - (1000000 * nsPerSec + 500 + rooted.rdN Obj.twlLinkDelay .a 2 : Nat)))) :=
  ⟨by decide +kernel, by decide +kernel, by decide +kernel, by decide +kernel, by decide +kernel, by decide +kernel⟩

/-- The state of a clause below. -/
def s196 : State := put (live .service) [(Obj.timeCueState, .a, 1023, 3)]
/-- The state of a clause below. -/
def s197 : State := cued 1 (cueB (2 ^ 40) 9 0 0 0)
/-- The state of a clause below. -/
def s198 : State := cued 1 (cueB (2 ^ 40) 9 0 0 255)
/-- The state of a clause below. -/
def s199 : State := cued 2 (cueB (2 ^ 40) 9 0 0 255)
/-- The state of a clause below. -/
def s200 : State := cued 2 (cueB 0 2 0x2202 47 0)

/-- Meets the hypotheses of `Obligations.CuesAreWrittenArmedAndDispatched`, clause by clause. -/
theorem witness_CuesAreWrittenArmedAndDispatched :
  (((fun (s : State) (d : MDie) (b : List Byte) =>
    (s.serverUp = true) ∧ (s.mode ≠ .selvedge) ∧ (s.reachable d = true) ∧ (b.length ≠ 32)) (live .service) .a ([1]))
    ∧ ((fun (s : State) (d : MDie) (k : Fin 1024) (b : List Byte) =>
    (s.serverUp = true) ∧ (s.mode ≠ .selvedge) ∧ (s.reachable d = true) ∧ (b.length = 32) ∧ ((s.cueState d k = 2 ∨ s.cueState d k = 3))) s196 .a 1023 (cueB 0 9 0 0 0))
    ∧ ((fun (s : State) (d : MDie) (k : Fin 1024) (b : List Byte) =>
    (s.serverUp = true) ∧ (s.mode ≠ .selvedge) ∧ (s.reachable d = true) ∧ (b.length = 32) ∧ (s.cueState d k ≠ 2) ∧ (s.cueState d k ≠ 3) ∧ (cueAction b ≠ 0) ∧ (cueOk (s.refRaster d) b = false)) (live .service) .a 1023 (cueB 0 12 0 0 0)))
  ∧ (((fun (s : State) (d : MDie) (k : Fin 1024) (b : List Byte) =>
    (s.serverUp = true) ∧ (s.mode ≠ .selvedge) ∧ (s.reachable d = true) ∧ (b.length = 32) ∧ (s.cueState d k ≠ 2) ∧ (s.cueState d k ≠ 3) ∧ ((cueAction b = 0 ∨ cueOk (s.refRaster d) b = true))) (live .service) .a 1023 (cueB 0 11 0 0 0))
    ∧ ((fun (s : State) (d : MDie) (k : Fin 1024) =>
    (s.serverUp = true) ∧ (s.mode ≠ .selvedge) ∧ (s.reachable d = true) ∧ (s.cueState d k ≠ 1)) (live .service) .a 1023)
    ∧ ((fun (s : State) (d : MDie) (k : Fin 1024) =>
    (s.serverUp = true) ∧ (s.mode ≠ .selvedge) ∧ (s.reachable d = true) ∧ (s.cueState d k = 1) ∧ (s.passed d (s.cueCoordInstant d (s.cueEntry d k)) = false)) s197 .a 1023))
  ∧ (((fun (s : State) (d : MDie) (k : Fin 1024) =>
    (s.serverUp = true) ∧ (s.mode ≠ .selvedge) ∧ (s.reachable d = true) ∧ (s.cueState d k = 1) ∧ (s.passed d (s.cueCoordInstant d (s.cueEntry d k)) = true) ∧ (s.canReport d.pdie)) (cued 1 (cueB 0 9 0 0 0)) .a 1023)
    ∧ ((fun (s : State) (d : MDie) (k : Fin 1024) =>
    (s.serverUp = true) ∧ (s.mode ≠ .selvedge) ∧ (s.reachable d = true) ∧ (s.cueState d k ≠ 2)) (live .service) .a 1023)
    ∧ ((fun (s : State) (d : MDie) (k : Fin 1024) =>
    (s.serverUp = true) ∧ (s.mode ≠ .selvedge) ∧ (s.reachable d = true) ∧ (s.cueState d k = 2)) (cued 2 (cueB 0 9 0 0 0)) .a 1023))
  ∧ (((fun (s : State) (d : MDie) =>
    (s.serverUp = true) ∧ (s.mode ≠ .selvedge) ∧ (s.reachable d = true)) s198 .a)
    ∧ ((fun (s : State) (d : MDie) =>
    (s.serverUp = true) ∧ (s.mode ≠ .selvedge) ∧ (s.reachable d = true)) s199 .a)
    ∧ ((fun (s : State) (d : MDie) (k : Nat) =>
    (s.up d.pdie = true) ∧ (s.cueMin d ((s.cuesIn d 2).filter (fun k => decide (1 ≤ cueAction (s.cueEntry d k)) && decide (cueAction (s.cueEntry d k) ≤ 8) && (s.cueInstant d k).le (.ofNs (s.now d.pdie + dispatchAhead)) && !s.cueBusy d k)) = some k)) s200 .a 1023)) :=
  ⟨by decide +kernel, by decide +kernel, by decide +kernel, by decide +kernel⟩

/-- The state of a clause below. -/
def s201 : State := cued 3 (cueB 0 1 0x1600 5 0)
/-- The state of a clause below. -/
def s202 : State := put (cued 3 (cueB 0 1 0x1510 31 0)) [(Obj.gateEnable, .a, 31, 1), (Obj.gateCycleNum, .a, 31, 1000), (Obj.gateCycleDen, .a, 31, 1)]
/-- The state of a clause below. -/
def s203 : State := put ((cued 3 (cueB 0 3 0x2806 0 0)).updAudPort .a 15 (fun x => { x with armed := some 0 })) [(Obj.audPortState, .a, 15, 1)]
/-- The state of a clause below. -/
def s204 : State := putB (cued 3 (cueB 0 4 0x1420 9 0)) [(Obj.flowOutDesc, .a, 9, fields 64 [(508, 2), (480, 255)])]
/-- The state of a clause below. -/
def s205 : State := putB (put (cued 3 (cueB 0 5 0x1420 9 0)) [(Obj.flowOutState, .a, 9, 2)]) [(Obj.flowOutDesc, .a, 9, fields 64 [(508, 2), (480, 255)])]
/-- The state of a clause below. -/
def s206 : State := put (cued 3 (cueB 0 6 0x2001 47 0)) [(Obj.encChEnable, .a, 47, 1)]
/-- The state of a clause below. -/
def s207 : State := put (cued 3 (cueB 0 7 0x2001 47 0)) [(Obj.encChEnable, .a, 47, 1), (Obj.encChState, .a, 47, 2)]
/-- The state of a clause below. -/
def s208 : State := put (cued 3 (cueB 0 8 0x1810 63 0)) [(Obj.scnOutEnable, .a, 63, 1), (Obj.scnOutOfsPending, .a, 63, 100)]
/-- The state of a clause below. -/
def s209 : State := put (cued 3 (cueB 0 2 0x2202 47 0)) [(Obj.encChEnable, .a, 47, 1), (Obj.encChState, .a, 47, 2)]
/-- The state of a clause below. -/
def s210 : State := cued 2 (cueB 0 10 0 0 7)
/-- The state of a clause below. -/
def s211 : State := cued 2 (cueB 0 11 0 0 7)

/-- Meets the hypotheses of `Obligations.CuesExecuteInTurn`, clause by clause. -/
theorem witness_CuesExecuteInTurn :
  ((fun (s : State) (d : MDie) (k : Fin 1024) (x : Nat × (MDie → Fin 1024 → Instr)) =>
    let acts : List (Nat × (MDie → Fin 1024 → Instr)) := [(1, .cueCommit), (2, .cueKeyPicture), (3, .cueAudioStart), (4, .cueFlowStart),
        (5, .cueFlowStop), (6, .cueChannelStart), (7, .cueChannelStop), (8, .cueFormatApply)]
    (x ∈ acts) ∧ ((s.cueState d k ≠ 3 ∨ cueAction (s.cueEntry d k) ≠ x.1))) (live .service) .a 0 ((8, Instr.cueFormatApply)))
  ∧ ((fun (s : State) (d : MDie) (k : Fin 1024) (x : Nat × (MDie → Fin 1024 → Instr)) =>
    let acts : List (Nat × (MDie → Fin 1024 → Instr)) := [(1, .cueCommit), (2, .cueKeyPicture), (3, .cueAudioStart), (4, .cueFlowStart),
        (5, .cueFlowStop), (6, .cueChannelStart), (7, .cueChannelStop), (8, .cueFormatApply)]
    (x ∈ acts) ∧ (s.cueState d k = 3) ∧ (cueAction (s.cueEntry d k) = x.1) ∧ (s.cueTurn d k = true) ∧ ((cuePeriod (s.cueEntry d k) = 0 ∨ cueRepeat (s.cueEntry d k) = 0))) s201 .a 1023 ((1, Instr.cueCommit)))
  ∧ (((fun (s : State) (d : MDie) (k : Fin 1024) (n : Nat) =>
    (n = cueInst (s.cueEntry d k)) ∧ (s.cueState d k = 3) ∧ (cueAction (s.cueEntry d k) = 1) ∧ (s.cueTurn d k = true) ∧ (cuePeriod (s.cueEntry d k) = 0 ∨ cueRepeat (s.cueEntry d k) = 0) ∧ ((s.cueAct d (s.cueEntry d k) (s.cueInstant d k)).2 = 0)) s202 .a 1023 31)
    ∧ ((fun (s : State) (d : MDie) (k : Fin 1024) (n : Nat) =>
    (n = cueInst (s.cueEntry d k)) ∧ (s.cueState d k = 3) ∧ (cueAction (s.cueEntry d k) = 3) ∧ (s.cueTurn d k = true) ∧ (cuePeriod (s.cueEntry d k) = 0 ∨ cueRepeat (s.cueEntry d k) = 0) ∧ ((s.cueAct d (s.cueEntry d k) (s.cueInstant d k)).2 = 0)) s203 .a 1023 0)
    ∧ ((fun (s : State) (d : MDie) (k : Fin 1024) (n : Nat) =>
    (n = cueInst (s.cueEntry d k)) ∧ (s.cueState d k = 3) ∧ (cueAction (s.cueEntry d k) = 4) ∧ (s.cueTurn d k = true) ∧ (cuePeriod (s.cueEntry d k) = 0 ∨ cueRepeat (s.cueEntry d k) = 0) ∧ ((s.cueAct d (s.cueEntry d k) (s.cueInstant d k)).2 = 0)) s204 .a 1023 9))
  ∧ (((fun (s : State) (d : MDie) (k : Fin 1024) (n : Nat) =>
    (n = cueInst (s.cueEntry d k)) ∧ (s.cueState d k = 3) ∧ (cueAction (s.cueEntry d k) = 5) ∧ (s.cueTurn d k = true) ∧ (cuePeriod (s.cueEntry d k) = 0 ∨ cueRepeat (s.cueEntry d k) = 0) ∧ ((s.cueAct d (s.cueEntry d k) (s.cueInstant d k)).2 = 0)) s205 .a 1023 9)
    ∧ ((fun (s : State) (d : MDie) (k : Fin 1024) (n : Nat) =>
    (n = cueInst (s.cueEntry d k)) ∧ (s.cueState d k = 3) ∧ (cueAction (s.cueEntry d k) = 6) ∧ (s.cueTurn d k = true) ∧ (cuePeriod (s.cueEntry d k) = 0 ∨ cueRepeat (s.cueEntry d k) = 0) ∧ ((s.cueAct d (s.cueEntry d k) (s.cueInstant d k)).2 = 0)) s206 .a 1023 47)
    ∧ ((fun (s : State) (d : MDie) (k : Fin 1024) (n : Nat) =>
    (n = cueInst (s.cueEntry d k)) ∧ (s.cueState d k = 3) ∧ (cueAction (s.cueEntry d k) = 7) ∧ (s.cueTurn d k = true) ∧ (cuePeriod (s.cueEntry d k) = 0 ∨ cueRepeat (s.cueEntry d k) = 0) ∧ ((s.cueAct d (s.cueEntry d k) (s.cueInstant d k)).2 = 0)) s207 .a 1023 47))
  ∧ (((fun (s : State) (d : MDie) (k : Fin 1024) (n : Nat) (a : Attr) =>
    (n = cueInst (s.cueEntry d k)) ∧ (s.cueState d k = 3) ∧ (cueAction (s.cueEntry d k) = 8) ∧ (s.cueTurn d k = true) ∧ (cuePeriod (s.cueEntry d k) = 0 ∨ cueRepeat (s.cueEntry d k) = 0) ∧ ((s.cueAct d (s.cueEntry d k) (s.cueInstant d k)).2 = 0) ∧ (a = Attr.ofWord (if s.rdN Obj.scnOutFormatPending d.die n = 0 then s.rdN Obj.scnOutFormat d.die n else s.rdN Obj.scnOutFormatPending d.die n) (s.rdN Obj.scnOutOfsPending d.die n) (if s.rdN Obj.scnOutAttrPending d.die n = 0xFFFF then s.rdN Obj.scnOutAttr d.die n else s.rdN Obj.scnOutAttrPending d.die n))) s208 .a 1023 63 ({ (live .service).outAttr .a 63 with ofs := 100 }))
    ∧ ((fun (s : State) (d : MDie) (k : Fin 1024) (c : Nat) =>
    (s.cueState d k = 3) ∧ (cueAction (s.cueEntry d k) = 2) ∧ (s.cueTurn d k = true) ∧ (cueIndex (s.cueEntry d k) = 0x2202) ∧ (cueInst (s.cueEntry d k) = c) ∧ (c < 48) ∧ (s.secOn d secEnt = true) ∧ (s.encState d c = 2) ∧ ((s.enc d c).cause.request = none)) s209 .a 1023 47)
    ∧ ((fun (s : State) (d : MDie) (k : Fin 1024) =>
    (s.cueState d k = 2) ∧ (s.cueTurn d k = true) ∧ ((cuePeriod (s.cueEntry d k) = 0 ∨ cueRepeat (s.cueEntry d k) = 0)) ∧ (cueAction (s.cueEntry d k) = 9) ∧ (s.canReport d.pdie)) (cued 2 (cueB 0 9 0 0 0)) .a 1023))
  ∧ (((fun (s : State) (d : MDie) (k : Fin 1024) =>
    (s.cueState d k = 2) ∧ (s.cueTurn d k = true) ∧ ((cuePeriod (s.cueEntry d k) = 0 ∨ cueRepeat (s.cueEntry d k) = 0)) ∧ (cueAction (s.cueEntry d k) = 0x0A)) s210 .a 1023)
    ∧ ((fun (s : State) (d : MDie) (k : Fin 1024) =>
    (s.cueState d k = 2) ∧ (s.cueTurn d k = true) ∧ ((cuePeriod (s.cueEntry d k) = 0 ∨ cueRepeat (s.cueEntry d k) = 0)) ∧ (cueAction (s.cueEntry d k) = 0x0B)) s211 .a 1023)) :=
  ⟨⟨by simp, by decide +kernel⟩, ⟨by simp, by decide +kernel, by decide +kernel, by decide +kernel, by decide +kernel⟩, by decide +kernel, by decide +kernel, by decide +kernel, by decide +kernel⟩

/-- The state of a clause below. -/
def s212 : State := put ((keyed 0).setMode .standby) [(Obj.volKeyRole, .p, 7, (roleAdmin : Nat))]
/-- The state of a clause below. -/
def s213 : State := (keyed 1).setMode .configure
/-- The state of a clause below. -/
def s214 : State := { put (live .service) [(Obj.timeState, .c, 0, 2)] with sec := { SecSt.start with token := some (3, 999999) } }
/-- The state of a clause below. -/
def s215 : State := { put (live .service) [(Obj.timeState, .c, 0, 2)] with sec := { SecSt.start with token := some (3, 1000000) } }

/-- Meets the hypotheses of `Obligations.LifecycleMovesForwardAndDebugFollowsIt`, clause by clause. -/
theorem witness_LifecycleMovesForwardAndDebugFollowsIt :
  ((fun (s : State) (serial : Nat) (x : Nat × (Nat → Instr)) =>
    let asks : List (Nat × (Nat → Instr)) := [(1, .lcsAdvanceProvisioned), (2, .lcsAdvanceDeployed), (3, .lcsAdvanceReturn)]
    (s.serverUp = true) ∧ (serial ≠ s.rdN Obj.idSerial .p 0) ∧ (x ∈ asks)) (keyed 0) 6 ((1, Instr.lcsAdvanceProvisioned)))
  ∧ ((fun (s : State) (serial : Nat) (x : Nat × (Nat → Instr)) =>
    let asks : List (Nat × (Nat → Instr)) := [(1, .lcsAdvanceProvisioned), (2, .lcsAdvanceDeployed), (3, .lcsAdvanceReturn)]
    (s.serverUp = true) ∧ (serial = s.rdN Obj.idSerial .p 0) ∧ (x ∈ asks) ∧ (¬ ( s.sec.erasing = false ∧ ((s.lifecycle = 0 ∧ x.1 = 1 ∧ s.atRest = true ∧ s.hasAdmin = true) ∨ (s.lifecycle = 1 ∧ x.1 = 2 ∧ s.atRest = true) ∨ ((s.lifecycle = 1 ∨ s.lifecycle = 2) ∧ x.1 = 3))))) (keyed 0) 5 ((2, Instr.lcsAdvanceDeployed)))
  ∧ (((fun (s : State) (serial : Nat) =>
    (s.serverUp = true) ∧ (serial = s.rdN Obj.idSerial .p 0) ∧ (s.sec.erasing = false) ∧ ((s.lifecycle = 0 ∧ 1 = 1 ∧ s.atRest = true ∧ s.hasAdmin = true) ∨ (s.lifecycle = 1 ∧ 1 = 2 ∧ s.atRest = true) ∨ ((s.lifecycle = 1 ∨ s.lifecycle = 2) ∧ 1 = 3))) s212 5)
    ∧ ((fun (s : State) (serial : Nat) =>
    (s.serverUp = true) ∧ (serial = s.rdN Obj.idSerial .p 0) ∧ (s.sec.erasing = false) ∧ ((s.lifecycle = 0 ∧ 2 = 1 ∧ s.atRest = true ∧ s.hasAdmin = true) ∨ (s.lifecycle = 1 ∧ 2 = 2 ∧ s.atRest = true) ∨ ((s.lifecycle = 1 ∨ s.lifecycle = 2) ∧ 2 = 3))) s213 5)
    ∧ ((fun (s : State) (serial : Nat) =>
    (s.serverUp = true) ∧ (serial = s.rdN Obj.idSerial .p 0) ∧ (s.sec.erasing = false) ∧ ((s.lifecycle = 0 ∧ 3 = 1 ∧ s.atRest = true ∧ s.hasAdmin = true) ∨ (s.lifecycle = 1 ∧ 3 = 2 ∧ s.atRest = true) ∨ ((s.lifecycle = 1 ∨ s.lifecycle = 2) ∧ 3 = 3))) (keyed 2) 5))
  ∧ (((fun (s : State) (b : List Byte) =>
    (s.serverUp = true) ∧ (b.length ≠ 100)) (live .service) ([1]))
    ∧ ((fun (s : State) (b : List Byte) (n : Nat) =>
    (s.serverUp = true) ∧ (b.length = 100) ∧ (tokenShaped b = true) ∧ (s.tokenReason b = some n)) (keyed 2) token 5)
    ∧ ((fun (s : State) (b : List Byte) =>
    (s.serverUp = true) ∧ (b.length = 100) ∧ (tokenShaped b = true) ∧ (s.tokenReason b = none)) (keyed 1) token))
  ∧ (((fun (s : State) (scope : Nat) (expiry : Nat) =>
    (s.sec.token = some (scope, expiry)) ∧ (s.up .c = true) ∧ (s.rdN Obj.timeState .c 0 ≠ 0) ∧ (expiry * nsPerSec < s.time.base)) s214 3 999999)
    ∧ ((fun (s : State) (scope : Nat) (expiry : Nat) =>
    (s.sec.token = some (scope, expiry)) ∧ (s.up .c = true) ∧ (s.rdN Obj.timeState .c 0 ≠ 0) ∧ (s.time.base ≤ expiry * nsPerSec)) s215 3 1000000)
    ∧ ((fun (s : State) =>
    (s.debugOpen 0 = false)) (keyed 2))) :=
  ⟨⟨by decide +kernel, by decide +kernel, by simp⟩, ⟨by decide +kernel, by decide +kernel, by simp, by decide +kernel⟩, by decide +kernel, by decide +kernel, by decide +kernel⟩

/-- Meets the hypotheses of `Obligations.FirmwareImagesAreWrittenAndCommitted`, clause by clause. -/
theorem witness_FirmwareImagesAreWrittenAndCommitted :
  ((fun (s : State) (data : List Byte) =>
    (s.serverUp = true) ∧ (65536 < data.length)) (live .service) (List.replicate 65537 0))
  ∧ (((fun (s : State) (data : List Byte) =>
    (s.serverUp = true) ∧ (data.length ≤ 65536) ∧ (s.rdN Obj.fwImageOffset .p 0 + data.length ≤ 2 ^ 32)) (live .service) ([1, 2]))
    ∧ ((fun (s : State) =>
    (s.serverUp = true)) (live .service))) :=
  ⟨⟨by decide +kernel, by rw [List.length_replicate]; decide⟩, by decide +kernel⟩

/-- The state of a clause below. -/
def s216 : State := put (memUp .test) [(Obj.diagWinLen, .a, 0, 2)]
/-- The state of a clause below. -/
def s217 : State := put (memUp .test) [(Obj.diagWinLen, .a, 0, 2), (Obj.diagWinAddr, .a, 0, 512)]
/-- The state of a clause below. -/
def s218 : State := put (memUp .test) [(Obj.diagWinLen, .a, 0, 2), (Obj.diagWinAddr, .a, 0, 0xFFFFFFFF00)]

/-- Meets the hypotheses of `Obligations.DiagnosticWindowsReachTheBus`, clause by clause. -/
theorem witness_DiagnosticWindowsReachTheBus :
  (((fun (s : State) =>
    (s.serverUp = true)) (live .service))
    ∧ ((fun (s : State) =>
    (s.serverUp = true)) (live .service))
    ∧ ((fun (s : State) (d : MDie) (data : List Byte) =>
    (s.serverUp = true) ∧ (s.reachable d = true) ∧ (s.diagAllowed = true) ∧ (data.length ≠ s.rdN Obj.diagWinLen d.die 0)) s216 .a ([1])))
  ∧ (((fun (s : State) (d : MDie) (data : List Byte) =>
    let op (s : State) (d : MDie) (write : Bool) (len : Nat) (data : List Byte) : BusOp :=
        ⟨0, write, s.rdN Obj.diagWinAddr d.die 0, len, data, [], .other, (s.free 5).1, 0⟩
    (s.serverUp = true) ∧ (s.reachable d = true) ∧ (s.diagAllowed = true) ∧ (data.length = s.rdN Obj.diagWinLen d.die 0) ∧ ((s.free 5).2.decodes d 31 (op s d true data.length data) = some 0) ∧ (data ≠ [])) s217 .a ([1, 2]))
    ∧ ((fun (s : State) (d : MDie) (data : List Byte) =>
    let op (s : State) (d : MDie) (write : Bool) (len : Nat) (data : List Byte) : BusOp :=
        ⟨0, write, s.rdN Obj.diagWinAddr d.die 0, len, data, [], .other, (s.free 5).1, 0⟩
    (s.serverUp = true) ∧ (s.reachable d = true) ∧ (s.diagAllowed = true) ∧ ((s.free 5).2.decodes d 31 (op s d false (s.rdN Obj.diagWinLen d.die 0) []) = some 0)) s217 .a ([]))
    ∧ ((fun (s : State) (d : MDie) (data : List Byte) =>
    let op (s : State) (d : MDie) (write : Bool) (len : Nat) (data : List Byte) : BusOp :=
        ⟨0, write, s.rdN Obj.diagWinAddr d.die 0, len, data, [], .other, (s.free 5).1, 0⟩
    (s.serverUp = true) ∧ (s.reachable d = true) ∧ (s.diagAllowed = true) ∧ ((s.md d).arb.buf.length + 2 ≤ arbiterMax) ∧ ((s.md d).arb.lost = 0) ∧ ((s.free 5).2.decodes d 31 (op s d false (s.rdN Obj.diagWinLen d.die 0) []) = none)) s218 .a ([]))) :=
  ⟨by decide +kernel, by decide +kernel⟩

/-- The state of a clause below. -/
def s219 : State := put (live .service) [(Obj.volSticky, .p, 0, 31)]

/-- Meets the hypotheses of `Obligations.RegisterWritesAreCheckedInOrderAndStored`, clause by clause. -/
theorem witness_RegisterWritesAreCheckedInOrderAndStored :
  (((fun (s : State) (it : VolItem) (m : MDie) =>
    (s.serverUp = true) ∧ (s.twill.due.filter (fun c => c.2.2.le (.ofNs s.time.base)) = []) ∧ (s.beyond it true = some m)) s184 (reg Obj.thermTj .b 0 []) .b)
    ∧ ((fun (s : State) (it : VolItem) =>
    (s.serverUp = true) ∧ (s.twill.due.filter (fun c => c.2.2.le (.ofNs s.time.base)) = []) ∧ (s.beyond it true = none) ∧ (dieOfByte it.die = none ∨ objAt it.index it.sub = none)) (live .service) (⟨3, 0xFFFF, 1, 0, 0, []⟩))
    ∧ ((fun (s : State) (it : VolItem) (d : Die) (o : ObjDef) =>
    (s.serverUp = true) ∧ (s.twill.due.filter (fun c => c.2.2.le (.ofNs s.time.base)) = []) ∧ (s.beyond it true = none) ∧ (dieOfByte it.die = some d) ∧ (objAt it.index it.sub = some o) ∧ (o.dies.has d = false)) (live .service) (reg Obj.loomDstBind .c 0 []) .c Obj.loomDstBind))
  ∧ (((fun (s : State) (it : VolItem) (d : Die) (o : ObjDef) =>
    (s.serverUp = true) ∧ (s.twill.due.filter (fun c => c.2.2.le (.ofNs s.time.base)) = []) ∧ (s.beyond it true = none) ∧ (dieOfByte it.die = some d) ∧ (objAt it.index it.sub = some o) ∧ (o.dies.has d = true) ∧ (o.instances d ≤ it.inst)) (live .service) (reg Obj.loomDstBind .a 256 []) .a Obj.loomDstBind)
    ∧ ((fun (s : State) (it : VolItem) (d : Die) (o : ObjDef) =>
    (s.serverUp = true) ∧ (s.twill.due.filter (fun c => c.2.2.le (.ofNs s.time.base)) = []) ∧ (s.beyond it true = none) ∧ (dieOfByte it.die = some d) ∧ (objAt it.index it.sub = some o) ∧ (o.dies.has d = true) ∧ (it.inst < o.instances d) ∧ (s.mayWrite roleAdmin o d it.inst = false)) (live .service) (reg Obj.thermTj .a 0 [0, 0]) .a Obj.thermTj)
    ∧ ((fun (s : State) (it : VolItem) (d : Die) (o : ObjDef) =>
    (s.serverUp = true) ∧ (s.twill.due.filter (fun c => c.2.2.le (.ofNs s.time.base)) = []) ∧ (s.beyond it true = none) ∧ (dieOfByte it.die = some d) ∧ (objAt it.index it.sub = some o) ∧ (o.dies.has d = true) ∧ (it.inst < o.instances d) ∧ (s.mayWrite roleAdmin o d it.inst = true) ∧ (o.ty.takes it.value.length = false)) (live .service) (reg Obj.volSessionTimeout .p 0 [1]) .p Obj.volSessionTimeout))
  ∧ (((fun (s : State) (it : VolItem) (d : Die) (o : ObjDef) =>
    (s.serverUp = true) ∧ (s.twill.due.filter (fun c => c.2.2.le (.ofNs s.time.base)) = []) ∧ (s.beyond it true = none) ∧ (dieOfByte it.die = some d) ∧ (objAt it.index it.sub = some o) ∧ (o.dies.has d = true) ∧ (it.inst < o.instances d) ∧ (s.mayWrite roleAdmin o d it.inst = true) ∧ (o.ty.takes it.value.length = true) ∧ (o.valueOk it.inst (o.ty.decode it.value) = false)) (live .service) (reg Obj.volSessionTimeout .p 0 [0, 1]) .p Obj.volSessionTimeout)
    ∧ ((fun (s : State) (v : Nat) =>
    (s.serverUp = true) ∧ (s.twill.due.filter (fun c => c.2.2.le (.ofNs s.time.base)) = []) ∧ (v ≤ 4194303)) (live .service) 4194303)
    ∧ ((fun (s : State) (v : Nat) =>
    (s.serverUp = true) ∧ (s.twill.due.filter (fun c => c.2.2.le (.ofNs s.time.base)) = []) ∧ (2 ≤ v) ∧ (v ≤ 3600)) (live .service) 3600))
  ∧ (((fun (s : State) (code : Nat) (v : Nat) =>
    (s.serverUp = true) ∧ (s.twill.due.filter (fun c => c.2.2.le (.ofNs s.time.base)) = []) ∧ (code < 65536) ∧ (v < 4)) (live .service) 65535 3)
    ∧ ((fun (s : State) (v : Nat) =>
    (s.serverUp = true) ∧ (s.twill.due.filter (fun c => c.2.2.le (.ofNs s.time.base)) = []) ∧ (v < 32)) s219 18)
    ∧ ((fun (s : State) (d : MDie) (c : Nat) (b : List Byte) =>
    (s.serverUp = true) ∧ (s.twill.due.filter (fun c => c.2.2.le (.ofNs s.time.base)) = []) ∧ (s.reachable d = true) ∧ (s.mode ≠ .selvedge) ∧ (c < 48) ∧ (16 ≤ b.length) ∧ (b.length ≤ 160)) (live .service) .a 47 (List.replicate 160 7))) :=
  ⟨by decide +kernel, by decide +kernel, by decide +kernel, by decide +kernel⟩

/-- The state of a clause below. -/
def s220 : State := put (live .service) [(Obj.volImageOffset, .p, 0, 4194303)]
/-- The state of a clause below. -/
def s221 : State := put (live .service) [(Obj.volImageOffset, .p, 0, 4194302)]
/-- The state of a clause below. -/
def s222 : State := { live .configure with vol := { (live .configure).vol with staging := { cells := [], lost := none } } }
/-- The state of a clause below. -/
def s223 : State := { live .configure with vol := { (live .configure).vol with staging := { cells := [], lost := none : Memory }.write 0 stagedImage } }

/-- Meets the hypotheses of `Obligations.RequestsAreAllOrNothingAndImagesAreOneRequest`, clause by clause. -/
theorem witness_RequestsAreAllOrNothingAndImagesAreOneRequest :
  ((fun (s : State) (data : List Byte) =>
    (s.serverUp = true) ∧ (65536 < data.length)) (live .service) (List.replicate 65537 0))
  ∧ (((fun (s : State) (data : List Byte) =>
    (s.serverUp = true) ∧ (data.length ≤ 65536) ∧ (4194304 < s.rdN Obj.volImageOffset .p 0 + data.length)) s220 ([1, 2]))
    ∧ ((fun (s : State) (data : List Byte) =>
    (s.serverUp = true) ∧ (data.length ≤ 65536) ∧ (s.rdN Obj.volImageOffset .p 0 + data.length ≤ 4194304)) s221 ([1, 2])))
  ∧ ((fun (s : State) (x : Session) (h : VolHdr) (v : Nat) (bad : VolItem) =>
    let item (v : Nat) : VolItem := ⟨Die.p.num, Obj.volSessionTimeout.index, Obj.volSessionTimeout.sub, 0, 2, natBe 2 v⟩
    (s.asksNew x h (.volWrite h [item v, bad])) ∧ (x.role = roleAdmin) ∧ (2 ≤ v) ∧ (v ≤ 3600) ∧ (findItem bad 1 = .error .noObject) ∧ (s.twill.due.filter (fun c => c.2.2.le (.ofNs s.time.base)) = [])) (served aSes) aSes (aReqHdr 21 5) 60 (⟨3, 0xFFFF, 1, 0, 0, []⟩))
  ∧ (((fun (s : State) =>
    (s.serverUp = true) ∧ (s.mode ≠ .configure)) (live .service))
    ∧ ((fun (s : State) =>
    (s.serverUp = true) ∧ (s.mode = .configure) ∧ (s.stagedItems = none)) s222)
    ∧ ((fun (s : State) (v : Nat) =>
    let item (v : Nat) : VolItem := ⟨Die.p.num, Obj.volSessionTimeout.index, Obj.volSessionTimeout.sub, 0, 2, natBe 2 v⟩
    (s.serverUp = true) ∧ (s.mode = .configure) ∧ (s.stagedItems = some [item v]) ∧ (2 ≤ v) ∧ (v ≤ 3600)) s223 60)) :=
  ⟨⟨by decide +kernel, by rw [List.length_replicate]; decide⟩, by decide +kernel, ⟨by decide +kernel, by decide +kernel, by decide +kernel, by decide +kernel, eq_error (by decide +kernel), by decide +kernel⟩, by decide +kernel⟩

/-- The state of a clause below. -/
def s224 : State := { live .service with vol := { (live .service).vol with sessions := List.replicate 16 aSes } }
/-- The state of a clause below. -/
def s225 : State := putB (put (live .service) [(Obj.volKeyRole, .p, 7, 1)]) [(Obj.volKey, .p, 7, List.replicate 33 9)]
/-- The state of a clause below. -/
def s226 : State := served { aSes with established := false }

/-- Meets the hypotheses of `Obligations.SessionsOpenUnderAKeyAndEnd`, clause by clause. -/
theorem witness_SessionsOpenUnderAKeyAndEnd :
  (((fun (s : State) (h : VolHdr) =>
    (s.portServes h = true) ∧ (16 ≤ s.vol.sessions.length)) s224 (aReqHdr 0 0))
    ∧ ((fun (s : State) (h : VolHdr) (slot : Nat) =>
    (s.portServes h = true) ∧ (s.vol.sessions.length < 16) ∧ (s.slotRole slot = none)) (live .service) (aReqHdr 0 0) 7)
    ∧ ((fun (s : State) (h : VolHdr) (slot : Nat) (role : Nat) =>
    (s.portServes h = true) ∧ (s.vol.sessions.length < 16) ∧ (s.slotRole slot = some role)) s225 (aReqHdr 0 0) 7 1))
  ∧ (((fun (s : State) =>
    (s.openState = true)) (live .service))
    ∧ ((fun (s : State) =>
    ((s.lifecycle = 1 ∨ s.lifecycle = 2))) (keyed 2))
    ∧ ((fun (s : State) (x : Session) (h : VolHdr) =>
    (s.asksNew x h (.volClose h))) (served aSes) aSes (aReqHdr 21 5)))
  ∧ (((fun (s : State) (n : Nat) (x : Session) =>
    (s.serverUp = true) ∧ (s.session? n = some x) ∧ (x.established = false) ∧ (x.last + 2 * nsPerSec ≤ s.time.base)) s226 21 ({ aSes with established := false }))
    ∧ ((fun (s : State) (n : Nat) (x : Session) =>
    (s.serverUp = true) ∧ (s.session? n = some x) ∧ (x.established = true) ∧ (x.last + s.rdN Obj.volSessionTimeout .p 0 * nsPerSec ≤ s.time.base)) (served aSes) 21 aSes)) :=
  ⟨by decide +kernel, by decide +kernel, by decide +kernel⟩

/-- The state of a clause below. -/
def s227 : State := served { aSes with history := [aResponse] }

/-- Meets the hypotheses of `Obligations.RequestsAreExecutedOnceAndRepeatsAnsweredFromTheStore`, clause by clause. -/
theorem witness_RequestsAreExecutedOnceAndRepeatsAnsweredFromTheStore :
  (((fun (s : State) (h : VolHdr) (slot : Nat) (role : Nat) =>
    (s.portServes h = true) ∧ (s.vol.sessions.length < 16) ∧ (s.slotRole slot = some role)) (live .service) (aReqHdr 0 0) 255 roleAdmin)
    ∧ ((fun (s : State) (x : Session) (h : VolHdr) =>
    (s.asksNew x h (.volNop h))) (served aSes) aSes (aReqHdr 21 5))
    ∧ ((fun (s : State) (x : Session) (h : VolHdr) (i : Instr) (y : Response) =>
    (s.asks x h i) ∧ (x.established = true) ∧ (h.boot = s.rdN Obj.volBootCount .p 0) ∧ (h.seq ≤ x.high) ∧ (x.history.length ≤ 8) ∧ (x.history.find? (fun y => y.seq == h.seq) = some y)) s227 ({ aSes with history := [aResponse] }) (aReqHdr 21 3) (.volNop (aReqHdr 21 3)) aResponse))
  ∧ ((fun (s : State) (x : Session) (h : VolHdr) (i : Instr) =>
    (s.asks x h i) ∧ (x.established = true) ∧ (h.boot = s.rdN Obj.volBootCount .p 0) ∧ (h.seq ≤ x.high) ∧ (x.history.length ≤ 8) ∧ (x.history.find? (fun y => y.seq == h.seq) = none)) (served aSes) aSes (aReqHdr 21 4) (.volNop (aReqHdr 21 4))) :=
  ⟨by decide +kernel, by decide +kernel⟩

/-- Meets the hypotheses of `Obligations.FramesThatFailAuthenticationAreDiscarded`, clause by clause. -/
theorem witness_FramesThatFailAuthenticationAreDiscarded :
  (((fun (s : State) (i : Instr) (h : VolHdr) (op : Nat) (n : Nat) (p : List Byte) =>
    (requestOf i = some (h, op, n, p)) ∧ (s.portServes h = true) ∧ (s.session? h.session = none)) (live .service) (.volAck (aReqHdr 21 5) 9) (aReqHdr 21 5) 0x32 0 (natBe 8 9))
    ∧ ((fun (s : State) (i : Instr) (h : VolHdr) (op : Nat) (n : Nat) (p : List Byte) (x : Session) =>
    (requestOf i = some (h, op, n, p)) ∧ (s.portServes h = true) ∧ (s.session? h.session = some x) ∧ (State.tagOk x h op n p = false)) (served aSes) (.volAck { aReqHdr 21 5 with auth := true } 9) ({ aReqHdr 21 5 with auth := true }) 0x32 0 (natBe 8 9) aSes)) :=
  by decide +kernel

/-- The state of a clause below. -/
def s228 : State := put (served { aSes with role := roleOperator }) [(Obj.volCount, .p, 0, 8)]
/-- The state of a clause below. -/
def s229 : State := served { aSes with role := roleMonitor }
/-- The state of a clause below. -/
def s230 : State := { served aSes with ramLog := [aRecord 0x1310] }

/-- Meets the hypotheses of `Obligations.ReadsDescribeListClearAndLogRequestsAnswer`, clause by clause. -/
theorem witness_ReadsDescribeListClearAndLogRequestsAnswer :
  (((fun (s : State) (x : Session) (h : VolHdr) =>
    (s.asksNew x h (.volNop h))) (served aSes) aSes (aReqHdr 21 5))
    ∧ ((fun (s : State) (x : Session) (h : VolHdr) =>
    let to_ (v : List Byte) (n : Nat) : VolItem := ⟨3, 0x1004, 5, 0, n, v⟩
    (s.asksNew x h (.volRead h [to_ [] 1]))) (served aSes) aSes (aReqHdr 21 5)))
  ∧ ((fun (s : State) (x : Session) (h : VolHdr) (it : VolItem) =>
    (s.asksNew x h (.volRead h [it])) ∧ (findItem it (max 1 it.count) = .error .noObject) ∧ (s.beyond it false = none)) (served aSes) aSes (aReqHdr 21 5) (⟨3, 0xFFFF, 1, 0, 1, []⟩))
  ∧ (((fun (s : State) (x : Session) (h : VolHdr) (die : Nat) (index : Nat) (sub : Nat) =>
    (s.asksNew x h (.volList h die index sub))) (served aSes) aSes (aReqHdr 21 5) 0 0 0)
    ∧ ((fun (s : State) (x : Session) (h : VolHdr) =>
    let vc : VolItem := ⟨3, 0x1004, 3, 0, 1, []⟩
    (s.asksNew x h (.volClearCount h [vc])) ∧ (x.role = roleAdmin ∨ x.role = roleOperator)) s228 ({ aSes with role := roleOperator }) (aReqHdr 21 5))
    ∧ ((fun (s : State) (x : Session) (h : VolHdr) =>
    let vc : VolItem := ⟨3, 0x1004, 3, 0, 1, []⟩
    (s.asksNew x h (.volClearCount h [vc])) ∧ (x.role = roleMonitor)) s229 ({ aSes with role := roleMonitor }) (aReqHdr 21 5)))
  ∧ (((fun (s : State) (x : Session) (h : VolHdr) =>
    let to_ (v : List Byte) (n : Nat) : VolItem := ⟨3, 0x1004, 5, 0, n, v⟩
    (s.asksNew x h (.volClearCount h [to_ [] 1]))) (served aSes) aSes (aReqHdr 21 5))
    ∧ ((fun (s : State) (x : Session) (h : VolHdr) (count : Nat) (boot : Nat) (from_ : Nat) =>
    (s.asksNew x h (.volLogRead h 0 count boot from_))) s230 aSes (aReqHdr 21 5) 34 0 0)
    ∧ ((fun (s : State) (x : Session) (h : VolHdr) (count : Nat) (boot : Nat) (from_ : Nat) =>
    (s.asksNew x h (.volLogRead h 1 count boot from_)) ∧ (from_ < 2 ^ 64) ∧ ((∀ e ∈ s.mram.log, e.2.gseq < 2 ^ 64))) (served aSes) aSes (aReqHdr 21 5) 29 0 0))
  ∧ ((fun (s : State) (x : Session) (h : VolHdr) (v : Nat) =>
    let to_ (v : List Byte) (n : Nat) : VolItem := ⟨3, 0x1004, 5, 0, n, v⟩
    (s.asksNew x h (.volWrite h [to_ (natBe 2 v) 0])) ∧ (x.role = roleAdmin ∨ x.role = roleOperator) ∧ (2 ≤ v) ∧ (v ≤ 3600) ∧ (s.twill.due.filter (fun c => c.2.2.le (.ofNs s.time.base)) = [])) (served aSes) aSes (aReqHdr 21 5) 3600) :=
  ⟨by decide +kernel, ⟨by decide +kernel, eq_error (by decide +kernel), by decide +kernel⟩, by decide +kernel, by decide +kernel, by decide +kernel⟩

/-- The state of a clause below. -/
def s231 : State := served { aSes with transfer := some (aBulk 0) }
/-- The state of a clause below. -/
def s232 : State := served { aSes with transfer := some (aBulk 16) }
/-- The state of a clause below. -/
def s233 : State := served { aSes with transfer := some (aBulk 15) }
/-- The state of a clause below. -/
def s234 : State := served { aSes with snaps := [(Obj.entChSeiUser.addr .a 47, [1, 2, 3], 1000000000000000)] }
/-- The state of a clause below. -/
def s235 : State := served { aSes with snaps := [(Obj.entChSeiUser.addr .a 47, [1, 2, 3], 0)] }

/-- Meets the hypotheses of `Obligations.BulkTransfersGatherSegmentsAndWriteOnce`, clause by clause. -/
theorem witness_BulkTransfersGatherSegmentsAndWriteOnce :
  (((fun (s : State) (x : Session) (h : VolHdr) (d : MDie) (c : Nat) (total : Nat) =>
    let sei (d : MDie) (c n : Nat) : VolItem := ⟨d.die.num, 0x2301, 0x0D, c, n, []⟩
    (s.asksNew x h (.volBulkBegin h (sei d c 0) total)) ∧ (s.reachable d = true) ∧ (c < 48) ∧ (x.role = roleAdmin ∨ x.role = roleOperator) ∧ (total ≤ 160) ∧ (x.transfer = none) ∧ (s.transfers.length < 4)) (served aSes) aSes (aReqHdr 21 5) .a 47 160)
    ∧ ((fun (s : State) (x : Session) (h : VolHdr) (d : MDie) (c : Nat) (total : Nat) =>
    let sei (d : MDie) (c n : Nat) : VolItem := ⟨d.die.num, 0x2301, 0x0D, c, n, []⟩
    (s.asksNew x h (.volBulkBegin h (sei d c 0) total)) ∧ (s.reachable d = true) ∧ (c < 48) ∧ (x.role = roleAdmin ∨ x.role = roleOperator) ∧ (160 < total)) (served aSes) aSes (aReqHdr 21 5) .a 47 161)
    ∧ ((fun (s : State) (x : Session) (h : VolHdr) (d : MDie) (c : Nat) (total : Nat) =>
    let sei (d : MDie) (c n : Nat) : VolItem := ⟨d.die.num, 0x2301, 0x0D, c, n, []⟩
    (s.asksNew x h (.volBulkBegin h (sei d c 0) total)) ∧ (s.reachable d = true) ∧ (c < 48) ∧ (x.role = roleAdmin ∨ x.role = roleOperator) ∧ (total ≤ 160) ∧ ((x.transfer ≠ none ∨ 4 ≤ s.transfers.length))) s231 ({ aSes with transfer := some (aBulk 0) }) (aReqHdr 21 5) .a 47 160))
  ∧ (((fun (s : State) (x : Session) (h : VolHdr) (b : Bulk) (id : Nat) (offset : Nat) (data : List Byte) =>
    (s.asksNew x h (.volBulkData h id offset data)) ∧ (x.transfer = some b) ∧ (id = b.id) ∧ (offset = b.data.length) ∧ (data.length ≤ 1384) ∧ (b.data.length + data.length ≤ b.total)) s231 ({ aSes with transfer := some (aBulk 0) }) (aReqHdr 21 5) (aBulk 0) 7 0 (List.replicate 16 3))
    ∧ ((fun (s : State) (x : Session) (h : VolHdr) (b : Bulk) (id : Nat) (offset : Nat) (data : List Byte) =>
    (s.asksNew x h (.volBulkData h id offset data)) ∧ (x.transfer = some b) ∧ (id ≠ b.id ∨ offset ≠ b.data.length)) s231 ({ aSes with transfer := some (aBulk 0) }) (aReqHdr 21 5) (aBulk 0) 7 1 ([3]))
    ∧ ((fun (s : State) (x : Session) (h : VolHdr) (b : Bulk) (id : Nat) (d : MDie) (c : Nat) =>
    (s.asksNew x h (.volBulkEnd h id)) ∧ (x.transfer = some b) ∧ (x.role = roleAdmin ∨ x.role = roleOperator) ∧ (b.addr = Obj.entChSeiUser.addr d.die c) ∧ (c < 48) ∧ (s.reachable d = true) ∧ (s.mode ≠ .selvedge) ∧ (id = b.id) ∧ (s.twill.due.filter (fun c => c.2.2.le (.ofNs s.time.base)) = []) ∧ (b.data.length = b.total) ∧ (16 ≤ b.total) ∧ (b.total ≤ 160)) s232 ({ aSes with transfer := some (aBulk 16) }) (aReqHdr 21 5) (aBulk 16) 7 .a 47))
  ∧ (((fun (s : State) (x : Session) (h : VolHdr) (b : Bulk) (id : Nat) (d : MDie) (c : Nat) =>
    (s.asksNew x h (.volBulkEnd h id)) ∧ (x.transfer = some b) ∧ (x.role = roleAdmin ∨ x.role = roleOperator) ∧ (b.addr = Obj.entChSeiUser.addr d.die c) ∧ (c < 48) ∧ (s.reachable d = true) ∧ (s.mode ≠ .selvedge) ∧ (id = b.id) ∧ (s.twill.due.filter (fun c => c.2.2.le (.ofNs s.time.base)) = []) ∧ (b.data.length ≠ b.total)) s233 ({ aSes with transfer := some (aBulk 15) }) (aReqHdr 21 5) (aBulk 15) 7 .a 47)
    ∧ ((fun (s : State) (x : Session) (h : VolHdr) (d : MDie) (c : Nat) (offset : Nat) (len : Nat) =>
    let sei (d : MDie) (c n : Nat) : VolItem := ⟨d.die.num, 0x2301, 0x0D, c, n, []⟩
    (s.asksNew x h (.volBulkRead h (sei d c 1) offset len)) ∧ (s.reachable d = true) ∧ (c < 48) ∧ (offset = 0 ∨ x.snaps.find? (fun n => n.1 == Obj.entChSeiUser.addr d.die c && decide (s.time.base < n.2.2 + 10 * nsPerSec)) = none)) (served aSes) aSes (aReqHdr 21 5) .a 47 0 1392)
    ∧ ((fun (s : State) (x : Session) (h : VolHdr) (d : MDie) (c : Nat) (offset : Nat) (len : Nat) (b : List Byte) (at_ : Nat) =>
    let sei (d : MDie) (c n : Nat) : VolItem := ⟨d.die.num, 0x2301, 0x0D, c, n, []⟩
    (s.asksNew x h (.volBulkRead h (sei d c 1) offset len)) ∧ (s.reachable d = true) ∧ (c < 48) ∧ (offset ≠ 0) ∧ (x.snaps.find? (fun n => n.1 == Obj.entChSeiUser.addr d.die c && decide (s.time.base < n.2.2 + 10 * nsPerSec)) = some (Obj.entChSeiUser.addr d.die c, b, at_))) s234 ({ aSes with snaps := [(Obj.entChSeiUser.addr .a 47, [1, 2, 3], 1000000000000000)] }) (aReqHdr 21 5) .a 47 2 1 ([1, 2, 3]) 1000000000000000))
  ∧ (((fun (s : State) (n : Nat) (x : Session) (b : Bulk) =>
    (s.serverUp = true) ∧ (s.session? n = some x) ∧ (x.transfer = some b) ∧ (b.last + s.rdN Obj.volSessionTimeout .p 0 * nsPerSec ≤ s.time.base)) s233 21 ({ aSes with transfer := some (aBulk 15) }) (aBulk 15))
    ∧ ((fun (s : State) (n : Nat) (x : Session) =>
    (s.serverUp = true) ∧ (s.session? n = some x)) s235 21 ({ aSes with snaps := [(Obj.entChSeiUser.addr .a 47, [1, 2, 3], 0)] }))) :=
  ⟨by decide +kernel, by decide +kernel, by decide +kernel, by decide +kernel⟩

/-- The state of a clause below. -/
def s236 : State := served { aSes with notices := [aNotice 1] }
/-- The state of a clause below. -/
def s237 : State := { served { aSes with subscribed := true } with ramLog := [aRecord 0x1310] }
/-- The state of a clause below. -/
def s238 : State := { served { aSes with subscribed := true, notices := [{ aNotice 1 with records := List.replicate 1024 (aRecord 0x1311) }] } with ramLog := [aRecord 0x1310] }
/-- The state of a clause below. -/
def s239 : State := { served { aSes with losing := true, subscribed := true, notices := [{ aNotice 1 with records := List.replicate 1024 (aRecord 0x1311) }] } with ramLog := [aRecord 0x1310] }
/-- The state of a clause below. -/
def s240 : State := served { aSes with notices := [aNotice 4] }
/-- The state of a clause below. -/
def s241 : State := served { aSes with notices := [aNotice 5] }

/-- Meets the hypotheses of `Obligations.NotificationsAreDeliveredAcknowledgedAndLost`, clause by clause. -/
theorem witness_NotificationsAreDeliveredAcknowledgedAndLost :
  (((fun (s : State) (x : Session) (h : VolHdr) (start : Nat) (ranges : List (Nat × Nat)) =>
    (s.asksNew x h (.volSubscribe h start ranges)) ∧ (ranges.length ≤ 8)) (served aSes) aSes (aReqHdr 21 5) 0 (List.replicate 8 (0, 1)))
    ∧ ((fun (s : State) (x : Session) (h : VolHdr) (start : Nat) (ranges : List (Nat × Nat)) =>
    (s.asksNew x h (.volSubscribe h start ranges)) ∧ (8 < ranges.length)) (served aSes) aSes (aReqHdr 21 5) 0 (List.replicate 9 (0, 1)))
    ∧ ((fun (s : State) (x : Session) (h : VolHdr) (gseq : Nat) =>
    (s.asksNew x h (.volAck h gseq))) s236 ({ aSes with notices := [aNotice 1] }) (aReqHdr 21 5) 0))
  ∧ (((fun (s : State) (n : Nat) (x : Session) (l : List EventRec) (last : EventRec) =>
    (s.serverUp = true) ∧ (s.session? n = some x) ∧ (x.num = n) ∧ (x.established = true) ∧ (x.subscribed = true) ∧ (l = s.ramLog.filter (fun r => decide (x.nextGseq ≤ r.gseq) && s.matches_ x r)) ∧ ((l.take 34).getLast? = some last) ∧ (x.unacked + (l.take 34).length ≤ 1024)) s237 21 ({ aSes with subscribed := true }) ([aRecord 0x1310]) (aRecord 0x1310))
    ∧ ((fun (s : State) (n : Nat) (x : Session) (l : List EventRec) (last : EventRec) (first : EventRec) =>
    (s.serverUp = true) ∧ (s.session? n = some x) ∧ (x.num = n) ∧ (x.established = true) ∧ (x.subscribed = true) ∧ (l = s.ramLog.filter (fun r => decide (x.nextGseq ≤ r.gseq) && s.matches_ x r)) ∧ ((l.take 34).getLast? = some last) ∧ (1024 ≤ x.unacked) ∧ (x.losing = false) ∧ (l.head? = some first)) s238 21 ({ aSes with subscribed := true, notices := [{ aNotice 1 with records := List.replicate 1024 (aRecord 0x1311) }] }) ([aRecord 0x1310]) (aRecord 0x1310) (aRecord 0x1310))
    ∧ ((fun (s : State) (n : Nat) (x : Session) (l : List EventRec) (last : EventRec) =>
    (s.serverUp = true) ∧ (s.session? n = some x) ∧ (x.num = n) ∧ (x.established = true) ∧ (x.subscribed = true) ∧ (l = s.ramLog.filter (fun r => decide (x.nextGseq ≤ r.gseq) && s.matches_ x r)) ∧ ((l.take 34).getLast? = some last) ∧ (1024 ≤ x.unacked) ∧ (x.losing = true)) s239 21 ({ aSes with losing := true, subscribed := true, notices := [{ aNotice 1 with records := List.replicate 1024 (aRecord 0x1311) }] }) ([aRecord 0x1310]) (aRecord 0x1310)))
  ∧ (((fun (s : State) (n : Nat) (x : Session) (y : Notice) =>
    (s.serverUp = true) ∧ (s.session? n = some x) ∧ (x.num = n) ∧ (x.notices.find? (fun z => decide (z.last + 100000000 ≤ s.time.base)) = some y) ∧ (y.again < 5)) s240 21 ({ aSes with notices := [aNotice 4] }) (aNotice 4))
    ∧ ((fun (s : State) (n : Nat) (x : Session) (y : Notice) (first : EventRec) =>
    (s.serverUp = true) ∧ (s.session? n = some x) ∧ (x.num = n) ∧ (x.notices.find? (fun z => decide (z.last + 100000000 ≤ s.time.base)) = some y) ∧ (5 ≤ y.again) ∧ (x.losing = false) ∧ (y.records.head? = some first)) s241 21 ({ aSes with notices := [aNotice 5] }) (aNotice 5) (aRecord 0x1310))) :=
  ⟨by decide +kernel, by decide +kernel, by decide +kernel⟩

/-- The state of a clause below. -/
def s242 : State := put (live .service) [(Obj.volPortIpv4, .c, 1, 7)]
/-- The state of a clause below. -/
def s243 : State := { strapped with vol := { strapped.vol with spiBusy := true } }
/-- The state of a clause below. -/
def s244 : State := { strapped with vol := { strapped.vol with spiWaiting := [.spiNone] } }

/-- Meets the hypotheses of `Obligations.FieldPortsAndTheSpiPortAnswer`, clause by clause. -/
theorem witness_FieldPortsAndTheSpiPortAnswer :
  (((fun (s : State) (port : Fin 2) =>
    (s.rdN Obj.volPortIpv4 .c port.val ≠ 0)) s242 1)
    ∧ ((fun (s : State) (port : Fin 2) =>
    (s.rdN Obj.volPortIpv4 .c port.val = 0)) (live .service) 1)
    ∧ ((fun (s : State) (port : Fin 2) (ip : Nat) =>
    (s.up .c = true) ∧ (ip = s.fieldAddr port.val)) (live .service) 1 ((live .service).fieldAddr 1)))
  ∧ (((fun (s : State) (port : Fin 2) (ip : Nat) =>
    (s.up .c = true) ∧ (ip = s.fieldAddr port.val)) (live .service) 1 ((live .service).fieldAddr 1))
    ∧ ((fun (s : State) (port : Fin 2) (ip : Nat) =>
    (s.up .c = true) ∧ (ip ≠ s.fieldAddr port.val)) (live .service) 1 9)
    ∧ ((fun (s : State) (port : Fin 2) (ip : Nat) =>
    (s.up .c = true) ∧ (ip ≠ s.fieldAddr port.val)) (live .service) 1 9))
  ∧ (((fun (s : State) (f : FieldFrame) =>
    (s.up .c = true) ∧ (f ∈ [FieldFrame.ptp, .vol true, .other])) (live .service) (.vol true))
    ∧ ((fun (s : State) (f : FieldFrame) =>
    (s.up .c = true) ∧ (f ∈ [FieldFrame.vol false, .fragment])) (live .service) .fragment)
    ∧ ((fun (s : State) (up : Bool) =>
    (s.up .c = true)) (live .service) true))
  ∧ (((fun (s : State) =>
    (s.up .c = true) ∧ (s.strap 0 = true) ∧ (s.vol.spiBusy = true)) s243)
    ∧ ((fun (s : State) =>
    (s.up .c = true) ∧ (s.strap 0 = true) ∧ (s.vol.spiBusy = false)) strapped)
    ∧ ((fun (s : State) =>
    (s.up .c = true) ∧ (s.strap 0 = true) ∧ (s.vol.spiBusy = false)) strapped))
  ∧ (((fun (s : State) =>
    (s.up .c = true) ∧ (s.strap 0 = true) ∧ (s.vol.spiWaiting = [])) strapped)
    ∧ ((fun (s : State) (f : Sent) (r : List Sent) =>
    (s.up .c = true) ∧ (s.strap 0 = true) ∧ (s.vol.spiWaiting = f :: r)) s244 .spiNone ([]))
    ∧ ((fun (s : State) =>
    (s.up .c = true) ∧ (s.strap 0 = true)) strapped)) :=
  ⟨by decide +kernel, by decide +kernel, by decide +kernel, by decide +kernel, by decide +kernel⟩

/-- The state of a clause below. -/
def s245 : State := { live .service with pending := [.wrstAssert] }

/-- Meets the hypotheses of `Obligations.StepExecutesTheFrontCommandAndIdlesWithoutOne`, clause by clause. -/
theorem witness_StepExecutesTheFrontCommandAndIdlesWithoutOne :
  (((fun (c : Instr) (rest : List Instr) (s : State) =>
    (s.pending = c :: rest)) ((.wrstAssert : Instr)) (([] : List Instr)) s245)
    ∧ ((fun (s : State) =>
    (s.pending = []) ∧ (s.up .c = false) ∧ (s.up .a = false) ∧ (s.up .b = false) ∧ ((∀ c ∈ s.twill.due, c.2.2.le (.ofNs s.time.base) = false))) State.reset)
    ∧ ((fun (s : State) (b : Nat) =>
    (s.pending = []) ∧ (s.up .c = true) ∧ (s.sec.erasing = false) ∧ (b = s.time.base + (if s.servo = 3 ∨ s.servo = 5 then (1 + (s.time.fraction + s.time.ratio) / (nsPerSec : Nat)).toNat else 1)) ∧ ((∀ c ∈ s.twill.due, c.2.2.le (.ofNs b) = false))) (live .service) 1000000000000001)) :=
  by decide +kernel

/-- The state of a clause below. -/
def s246 : State := nextOf (exec .wrstAssert (live .service))
/-- The state of a clause below. -/
def s247 : State := nextOf (step (live .service))

/-- Meets the hypotheses of `Obligations.EveryStepKeepsTheCanonicalForm`, clause by clause. -/
theorem witness_EveryStepKeepsTheCanonicalForm :
  ((fun (c : Instr) (s : State) (t : State) =>
    (exec c s = .next t)) ((.wrstAssert : Instr)) (live .service) s246)
  ∧ ((fun (s : State) (t : State) =>
    (s.dictWf = true) ∧ (step s = .next t)) (live .service) s247) :=
  ⟨eq_next (by decide +kernel), ⟨by decide +kernel, eq_next (by decide +kernel)⟩⟩

/-- Meets the hypotheses of `Obligations.EveryStepKeepsLogsAndSessionsWithinTheirCapacity`, clause by clause. -/
theorem witness_EveryStepKeepsLogsAndSessionsWithinTheirCapacity :
  ((fun (s : State) (t : State) =>
    (s.ramLog.length ≤ 65536) ∧ (s.mram.log.length ≤ persistLogMax) ∧ (s.dieA.arb.buf.length ≤ 4096) ∧ (s.dieB.arb.buf.length ≤ 4096) ∧ (s.vol.sessions.length ≤ 16) ∧ (step s = .next t)) (live .service) s247) :=
  ⟨by decide +kernel, by decide +kernel, by decide +kernel, by decide +kernel, by decide +kernel, eq_next (by decide +kernel)⟩

/-- Meets the hypotheses of `Obligations.EveryStepKeepsTheByteMemoriesCanonical`, clause by clause. -/
theorem witness_EveryStepKeepsTheByteMemoriesCanonical :
  ((fun (s : State) (t : State) =>
    (s.memoriesWf = true) ∧ (step s = .next t)) (live .service) s247) :=
  ⟨by decide +kernel, eq_next (by decide +kernel)⟩

/-- Channel 47 of Die A takes uploaded pictures; it has been given these bytes. -/
def uploaded (l : List Byte) : State :=
  let s := put (chan 2 id) [(Obj.encChPriority, .a, 47, 2), (Obj.encDeferFeed, .a, 47, 0x1000)]
  { s with dieA := { s.dieA with enc := [(47, { EncSt.start with upload := l })] } }

/-- The last clause of `EncodeRequestsAndUploadsAreTaken`: an upload of exactly the picture's length. -/
theorem witness_AnUploadOfTheExactLength :
    ∃ (s : State) (w h cw ch : Nat), (s.serverUp = true ∧ s.mode ≠ .selvedge ∧ s.reachable .a = true) ∧ s.encLive .a 47 = false
      ∧ (s.deferFeed .a 47).1 = 1 ∧ s.deferFull .a 47 = false ∧ pictureSize (fmt (s.rdN Obj.encChFormat .a 47)).family = (w, h)
      ∧ chromaSize (s.rdN Obj.encChProfile .a 47 == 1) w h = (cw, ch) ∧ (s.enc .a 47).upload.length = 2 * (w * h + 2 * cw * ch) := by
  have e (l : List Byte) : ((uploaded l).serverUp = (uploaded []).serverUp ∧ (uploaded l).mode = (uploaded []).mode)
      ∧ (uploaded l).reachable .a = (uploaded []).reachable .a ∧ (uploaded l).deferFeed = (uploaded []).deferFeed ∧ (uploaded l).rdN = (uploaded []).rdN
      ∧ (uploaded l).encLive .a 47 = (uploaded []).encLive .a 47 ∧ (uploaded l).deferFull .a 47 = (uploaded []).deferFull .a 47
      ∧ ((uploaded l).enc .a 47).upload = l := ⟨⟨rfl, rfl⟩, rfl, rfl, rfl, rfl, rfl, rfl⟩
  have f : ((uploaded []).serverUp = true ∧ (uploaded []).mode ≠ .selvedge ∧ (uploaded []).reachable .a = true)
      ∧ (uploaded []).encLive .a 47 = false ∧ ((uploaded []).deferFeed .a 47).1 = 1 ∧ (uploaded []).deferFull .a 47 = false
      ∧ pictureSize (fmt ((uploaded []).rdN Obj.encChFormat .a 47)).family = (3840, 2160) := by decide +kernel
  generalize hq : chromaSize ((uploaded []).rdN Obj.encChProfile .a 47 == 1) 3840 2160 = q
  obtain ⟨⟨e1, e2⟩, e3, e8, e4, e5, e6, e7⟩ := e (List.replicate (2 * (3840 * 2160 + 2 * q.1 * q.2)) 0)
  refine ⟨uploaded (List.replicate (2 * (3840 * 2160 + 2 * q.1 * q.2)) 0), 3840, 2160, q.1, q.2, ⟨?_, ?_, ?_⟩, ?_, ?_, ?_, ?_, ?_, ?_⟩
  · rw [e1]; exact f.1.1
  · rw [e2]; exact f.1.2.1
  · rw [e3]; exact f.1.2.2
  · rw [e5]; exact f.2.1
  · rw [e8]; exact f.2.2.1
  · rw [e6]; exact f.2.2.2.1
  · rw [e4]; exact f.2.2.2.2
  · rw [e4, hq]
  · rw [e7, List.length_replicate]

/-- The second group of clauses of `TestFacilitiesRunAndInject`: every kind of injection with its highest target. -/
theorem witness_EveryInjectionHasATarget :
    ∀ x ∈ [(1, 11), (2, 11), (3, 11), (4, 38), (5, 4095), (6, 31), (7, 0)],
      (memUp .test).serverUp = true ∧ (memUp .test).reachable .a = true ∧ (memUp .test).mode = .test
        ∧ (memUp .test).injectOk .a x.1 x.2 = true ∧ (memUp .test).canReport .a := by decide +kernel

/-- The description clause of `ReadsDescribeListClearAndLogRequestsAnswer`, one item. -/
theorem witness_ADescriptionOfOneItem :
    ∃ (s : State) (x : Session) (h : VolHdr) (items : List VolItem) (l : List ObjDef),
      s.asksNew x h (.volDescribe h items) ∧ items.length = l.length ∧ l ≠ []
        ∧ ∀ (k : Nat) (o : ObjDef), l[k]? = some o → ∃ (it : VolItem) (d : Die), items[k]? = some it ∧ findItem it 1 = .ok (o, d) := by
  refine ⟨served aSes, aSes, aReqHdr 21 5, [reg Obj.volSessionTimeout .p 0 []], [Obj.volSessionTimeout], by decide +kernel, rfl, by decide, ?_⟩
  intro k o hk
  rcases k with _ | k
  · cases hk; exact ⟨_, .p, rfl, by decide +kernel⟩
  · simp at hk

end Sys2Proof.Tests
end

section
namespace Sys2Proof.Machine

/-! ### The reset state -/

/-- Settles O57: at reset no object has been written, and the mode is the start value of its register. -/
theorem resetStateIsInResetModeEmptyAndInForm : Obligations.ResetStateIsInResetModeEmptyAndInForm := by
  refine ⟨?_, rfl, rfl, rfl, rfl, rfl, rfl, fun d => ?_, rfl, fun o d i => rfl, ?_⟩
  · decide
  · cases d <;> rfl
  · decide

end Sys2Proof.Machine
end

section
namespace Sys2Proof.Machine

-- One proof after the other: the proofs below are many, and each of them elaborated at once would hold a stack of its own.
set_option Elab.async false

/-- What of a media die the invariants of a step speak of: its arbiter's buffer and the bytes of its DRAM. -/
def MediaDie.kept (m : MediaDie) : List EventRec × Memory := (m.arb.buf, m.ram.mem)

/-- What of a state the invariants of a step speak of, beyond the dictionary's maps: the queue, the logs and arbiters, the
sessions and the byte memories. -/
def State.keptBeyondMaps (s : State) :=
  (s.pending, (s.mram.log, s.ramLog, s.vol.sessions), (s.dieA.kept, s.dieB.kept, s.vol.staging, s.sec.image))

/-- The dictionary's maps and their copies in MRAM. -/
def State.maps (s : State) := (s.objs, s.blobs, s.mram.objs, s.mram.blobs)

/-- The logs, the arbiters and the sessions are within their capacity (R89, R459, R464). -/
def State.logsFit (s : State) : Prop :=
  s.ramLog.length ≤ ramLogMax ∧ s.mram.log.length ≤ persistLogMax
    ∧ s.dieA.arb.buf.length ≤ arbiterMax ∧ s.dieB.arb.buf.length ≤ arbiterMax ∧ s.vol.sessions.length ≤ 16

/-- What every operation of the part keeps on the way from a state `r` to a state `t`: the queue; the canonical form of the
dictionary's maps and of the byte memories, and the capacity of the logs, where `r` has them. -/
structure Keeps (r t : State) : Prop where
  pending : t.pending = r.pending
  dictWf : r.dictWf = true → t.dictWf = true
  logsFit : r.logsFit → t.logsFit
  memoriesWf : r.memoriesWf = true → t.memoriesWf = true

/-- A meaning whose next state, if it answers one, keeps all that. -/
def KeepsOut (r : State) (o : Out) : Prop := ∀ t, o = .next t → Keeps r t

section
variable {r s t : State}

/-! ### How states and answers are put together -/

theorem Keeps.refl (s : State) : Keeps s s := ⟨rfl, id, id, id⟩

theorem Keeps.trans (h : Keeps r s) (k : Keeps s t) : Keeps r t :=
  ⟨k.pending.trans h.pending, k.dictWf ∘ h.dictWf, k.logsFit ∘ h.logsFit, k.memoriesWf ∘ h.memoriesWf⟩

theorem State.dictWf_iff : s.dictWf = true ↔
    mapWf s.objs = true ∧ mapWf s.blobs = true ∧ mapWf s.mram.objs = true ∧ mapWf s.mram.blobs = true := by
  simp only [State.dictWf, Bool.and_eq_true, and_assoc]

/-- A change of the dictionary's maps that keeps their canonical form. -/
theorem Keeps.mapsTo (h : Keeps r s) (w : s.dictWf = true → t.dictWf = true)
    (e : t.keptBeyondMaps = s.keptBeyondMaps := by rfl) : Keeps r t := by
  simp only [State.keptBeyondMaps, MediaDie.kept, Prod.mk.injEq] at e
  obtain ⟨hq, ⟨hl, hr, hs⟩, ⟨ha, hma⟩, ⟨hb, hmb⟩, hst, him⟩ := e
  refine h.trans ⟨hq, w, fun k => ?_, fun k => ?_⟩
  · simpa only [State.logsFit, hr, hl, ha, hb, hs] using k
  · simpa only [State.memoriesWf, hma, hmb, hst, him] using k

/-- A change of fields that no invariant speaks of. -/
theorem Keeps.same (h : Keeps r s) (m : t.maps = s.maps := by rfl)
    (e : t.keptBeyondMaps = s.keptBeyondMaps := by rfl) : Keeps r t := by
  simp only [State.maps, Prod.mk.injEq] at m
  obtain ⟨ho, hb, hmo, hmb⟩ := m
  exact h.mapsTo (by simp only [State.dictWf, ho, hb, hmo, hmb, imp_self]) e

theorem Keeps.ite {c : Prop} {i : Decidable c} (h : Keeps r s) (k : Keeps r t) : Keeps r (if c then s else t) := by
  split <;> assumption

theorem Keeps.foldl {α : Type _} {f : State → α → State} {l : List α} (hf : ∀ t x, Keeps r t → Keeps r (f t x))
    (h : Keeps r s) : Keeps r (l.foldl f s) := by
  induction l generalizing s with
  | nil => exact h
  | cons x l ih => exact ih (hf s x h)

theorem Keeps.foldl_fst {α β : Type _} {f : State × β → α → State × β} {l : List α} {p : State × β}
    (hf : ∀ q x, Keeps r q.1 → Keeps r (f q x).1) (h : Keeps r p.1) : Keeps r (l.foldl f p).1 := by
  induction l generalizing p with
  | nil => exact h
  | cons x l ih => exact ih (hf p x h)

theorem Keeps.fst {β : Type _} {p : State × β} {y : β} (e : p = (t, y)) (h : Keeps r p.1) : Keeps r t := by
  subst e; exact h

theorem Keeps.snd {β : Type _} {p : β × State} {y : β} (e : p = (y, t)) (h : Keeps r p.2) : Keeps r t := by
  subst e; exact h

theorem KeepsOut.next (h : Keeps r s) : KeepsOut r (.next s) := by
  rintro t ⟨⟩; exact h

theorem KeepsOut.fault {x : Fault} : KeepsOut r (.fault x) := by
  rintro t ⟨⟩

theorem KeepsOut.refused {x : Refusal} : KeepsOut r (.refused x) := by
  rintro t ⟨⟩

theorem KeepsOut.when {p : Bool} (h : Keeps r s) (k : Keeps r t) : KeepsOut r (when p s t) := .next (.ite k h)

theorem KeepsOut.ite {c : Prop} {i : Decidable c} {o o' : Out} (h : KeepsOut r o) (k : KeepsOut r o') :
    KeepsOut r (if c then o else o') := by
  split <;> assumption

/-! ### Changes of one field -/

theorem Keeps.setPowerA {v} (h : Keeps r s) : Keeps r { s with powerA := v } := h.same

theorem Keeps.setPowerB {v} (h : Keeps r s) : Keeps r { s with powerB := v } := h.same

theorem Keeps.setPowerC {v} (h : Keeps r s) : Keeps r { s with powerC := v } := h.same

theorem Keeps.setTime {v} (h : Keeps r s) : Keeps r { s with time := v } := h.same

theorem Keeps.setBrownouts {v} (h : Keeps r s) : Keeps r { s with brownouts := v } := h.same

theorem Keeps.setTwill {v} (h : Keeps r s) : Keeps r { s with twill := v } := h.same

theorem Keeps.setPair {v} (h : Keeps r s) : Keeps r { s with pair := v } := h.same

theorem Keeps.setEqTable {v} (h : Keeps r s) : Keeps r { s with eqTable := v } := h.same

theorem Keeps.setBoot {v} (h : Keeps r s) : Keeps r { s with boot := v } := h.same

theorem Keeps.setTrans {v} (h : Keeps r s) : Keeps r { s with trans := v } := h.same

theorem Keeps.setRecov {v} (h : Keeps r s) : Keeps r { s with recov := v } := h.same

theorem Keeps.setAnswer {v} (h : Keeps r s) : Keeps r { s with answer := v } := h.same

theorem Keeps.setSent {v} (h : Keeps r s) : Keeps r { s with sent := v } := h.same

theorem Keeps.setFreeCtr {v} (h : Keeps r s) : Keeps r { s with freeCtr := v } := h.same

theorem Keeps.setVol {v : VolSt} (h : Keeps r s)
    (e : (v.sessions, v.staging) = (s.vol.sessions, s.vol.staging) := by rfl) : Keeps r { s with vol := v } := by
  obtain ⟨es, et⟩ := Prod.mk.inj e
  exact h.same rfl (by simp only [State.keptBeyondMaps, MediaDie.kept, es, et])

theorem Keeps.setSec {v : SecSt} (h : Keeps r s) (e : v.image = s.sec.image := by rfl) : Keeps r { s with sec := v } :=
  h.same rfl (by simp only [State.keptBeyondMaps, MediaDie.kept, e])

theorem Keeps.setMram {v : Mram} (h : Keeps r s)
    (e : (v.objs, v.blobs, v.log) = (s.mram.objs, s.mram.blobs, s.mram.log) := by rfl) : Keeps r { s with mram := v } := by
  simp only [Prod.mk.injEq] at e
  obtain ⟨eo, eb, el⟩ := e
  exact h.same (by simp only [State.maps, eo, eb]) (by simp only [State.keptBeyondMaps, MediaDie.kept, el])

/-! ### Named operations -/

theorem Keeps.wr {o d i v} (h : Keeps r s) : Keeps r (s.wr o d i v) :=
  h.mapsTo fun w => by
    obtain ⟨wo, wb, wm⟩ := State.dictWf_iff.mp w
    exact State.dictWf_iff.mpr ⟨mapWf_mapPut _ _ _ wo, wb, wm⟩

theorem Keeps.putBytes {a v} (h : Keeps r s) : Keeps r { s with blobs := mapPut s.blobs a v } :=
  h.mapsTo fun w => by
    obtain ⟨wo, wb, wm⟩ := State.dictWf_iff.mp w
    exact State.dictWf_iff.mpr ⟨wo, mapWf_mapPut _ _ _ wb, wm⟩

theorem Keeps.wrBytes {o d i v} (h : Keeps r s) : Keeps r (s.wrBytes o d i v) :=
  h.putBytes

theorem Keeps.setMode {m} (h : Keeps r s) : Keeps r (s.setMode m) :=
  h.wr

theorem Keeps.updPower {d f} (h : Keeps r s) : Keeps r (s.updPower d f) := by
  unfold State.updPower
  split
  · exact h.setPowerA
  · exact h.setPowerB
  · exact h.setPowerC

/-- A change of a media die that keeps its arbiter within its capacity and its DRAM canonical. -/
theorem Keeps.updMdTo {d f} (h : Keeps r s)
    (hb : (s.md d).arb.buf.length ≤ arbiterMax → (f (s.md d)).arb.buf.length ≤ arbiterMax)
    (hm : (s.md d).ram.mem.wf = true → (f (s.md d)).ram.mem.wf = true) : Keeps r (s.updMd d f) := by
  refine h.trans ⟨by simp, fun w => ?_, fun w => ?_, fun w => ?_⟩
  · simpa [State.dictWf] using w
  · obtain ⟨wr, wl, wa, wb, ws⟩ := w
    cases d
    · exact ⟨wr, wl, hb wa, wb, ws⟩
    · exact ⟨wr, wl, wa, hb wb, ws⟩
  · simp only [State.memoriesWf, Bool.and_eq_true] at w ⊢
    obtain ⟨⟨⟨wa, wb⟩, wv⟩, wi⟩ := w
    cases d
    · exact ⟨⟨⟨hm wa, wb⟩, wv⟩, wi⟩
    · exact ⟨⟨⟨wa, hm wb⟩, wv⟩, wi⟩

/-- A change of a media die's fields that no invariant speaks of. -/
theorem Keeps.updMd {d f} (h : Keeps r s) (e : (f (s.md d)).kept = (s.md d).kept := by rfl) :
    Keeps r (s.updMd d f) := by
  simp only [MediaDie.kept, Prod.mk.injEq] at e
  obtain ⟨eb, em⟩ := e
  exact h.updMdTo (by rw [eb]; exact id) (by rw [em]; exact id)

theorem Keeps.takeDseq {d} (h : Keeps r s) : Keeps r (s.takeDseq d) :=
  h.wr

theorem length_keepNewest_le {α : Type _} (n : Nat) (l : List α) : (keepNewest n l).length ≤ n := by
  simp only [keepNewest, List.length_drop]; omega

/-- A change of the logs that keeps them within their capacity. -/
theorem Keeps.logsTo {a : List EventRec} {b : List (Nat × EventRec)} (h : Keeps r s)
    (ha : s.logsFit → a.length ≤ ramLogMax) (hb : s.logsFit → b.length ≤ persistLogMax) :
    Keeps r { s with ramLog := a, mram := { s.mram with log := b } } := by
  refine h.trans ⟨rfl, fun w => ?_, fun w => ⟨ha w, hb w, w.2.2⟩, fun w => ?_⟩
  · simpa only [State.dictWf] using w
  · simpa only [State.memoriesWf] using w

theorem Keeps.logRecord {x} (h : Keeps r s) : Keeps r (s.logRecord x) := by
  unfold State.logRecord
  extract_lets g x1 ram wrap ram1 keep per pwrap s1 m s2
  have hr : ram1.length ≤ ramLogMax := length_keepNewest_le ..
  have h1 : Keeps r s1 := h.logsTo (fun _ => hr) fun w => w.2.1
  have h2 : Keeps r s2 := by
    dsimp only [s2]
    split
    · exact h1.logsTo (fun w => w.1) (fun _ => length_keepNewest_le ..)
    · exact h1
  exact h2.wr.wr.wr.wr

theorem Keeps.noteError {d code payload} (h : Keeps r s) : Keeps r (s.noteError d code payload) :=
  .ite h.putBytes.updMd h

theorem Keeps.emitMarker {d} (h : Keeps r s) : Keeps r (s.emitMarker d) := by
  unfold State.emitMarker
  extract_lets a
  split
  · rename_i room
    refine h.takeDseq.updMdTo (fun _ => ?_) id
    simpa using Nat.succ_le_of_lt room.2
  · exact h

theorem arb_noteError (s : State) (d : MDie) (c p : Nat) : ((s.noteError d c p).md d).arb = (s.md d).arb := by
  unfold State.noteError
  split
  · cases d <;> rfl
  · rfl

theorem Keeps.raiseMedia {d code inst payload} (h : Keeps r s) : Keeps r (s.raiseMedia d code inst payload) := by
  unfold State.raiseMedia
  extract_lets s1 rec1 a s2 s3
  have h2 : Keeps r s2 := h.emitMarker.takeDseq.noteError
  split
  · rename_i room
    refine h2.updMdTo (fun _ => ?_) id
    simpa using Nat.succ_le_of_lt room
  · have ha : (s2.md d).arb = a := arb_noteError ..
    exact h2.wr.updMdTo (fun w => ha ▸ w) id

theorem Keeps.inOrder {old d} (h : Keeps r s) : Keeps r (s.inOrder old d) := by
  unfold State.inOrder
  refine h.updMdTo (fun w => ?_) id
  simp only [List.length_append, List.length_take, List.length_zipWith, List.length_drop]
  omega

theorem Keeps.raiseC {code inst payload} (h : Keeps r s) : Keeps r (s.raiseC code inst payload) :=
  h.takeDseq.logRecord

theorem Keeps.raise {d code inst payload} (h : Keeps r s) : Keeps r (s.raise d code inst payload) := by
  unfold State.raise
  split
  · exact h.raiseMedia
  · exact h.raiseMedia
  · exact h.raiseC

theorem Keeps.free {w} (h : Keeps r s) : Keeps r (s.free w).2 :=
  h.setFreeCtr

theorem Keeps.send {o} (h : Keeps r s) : Keeps r (s.send o) :=
  h.setSent

/-! ### Status, sticky and count objects -/

theorem Keeps.putBit {o d i n b} (h : Keeps r s) : Keeps r (s.putBit o d i n b) :=
  h.wr

theorem Keeps.setBit {o d i n} (h : Keeps r s) : Keeps r (s.setBit o d i n) :=
  h.putBit

theorem Keeps.clrBit {o d i n} (h : Keeps r s) : Keeps r (s.clrBit o d i n) :=
  h.putBit

theorem Keeps.w1c {o d i mask} (h : Keeps r s) : Keeps r (s.w1c o d i mask) :=
  h.wr

theorem Keeps.addCount {o d i n} (h : Keeps r s) : Keeps r (s.addCount o d i n) :=
  h.wr

theorem Keeps.bump {o d i} (h : Keeps r s) : Keeps r (s.bump o d i) :=
  h.addCount

theorem Keeps.putMramBytes {a v} (h : Keeps r s) :
    Keeps r { s with mram := { s.mram with blobs := mapPut s.mram.blobs a v } } :=
  h.mapsTo fun w => by
    obtain ⟨wo, wb, wmo, wmb⟩ := State.dictWf_iff.mp w
    exact State.dictWf_iff.mpr ⟨wo, wb, wmo, mapWf_mapPut _ _ _ wmb⟩

theorem Keeps.persistBytes {o d i v} (h : Keeps r s) : Keeps r (s.persistBytes o d i v) :=
  h.wrBytes.putMramBytes

theorem Keeps.putMramNum {a v} (h : Keeps r s) :
    Keeps r { s with mram := { s.mram with objs := mapPut s.mram.objs a v } } :=
  h.mapsTo fun w => by
    obtain ⟨wo, wb, wmo, wmb⟩ := State.dictWf_iff.mp w
    exact State.dictWf_iff.mpr ⟨wo, wb, mapWf_mapPut _ _ _ wmo, wmb⟩

theorem Keeps.persistNum {o d i v} (h : Keeps r s) : Keeps r (s.persistNum o d i v) :=
  h.wr.putMramNum

theorem Keeps.bumpNow {o d i} (h : Keeps r s) : Keeps r (s.bumpNow o d i) := by
  unfold State.bumpNow
  exact h.bump.persistNum

theorem Keeps.setArmed {d k i b} (h : Keeps r s) : Keeps r (s.setArmed d k i b) := by
  unfold State.setArmed
  extract_lets
  split
  · exact h.updMd.putBit
  · exact h.updMd

theorem Keeps.watermark {d k i level} (h : Keeps r s) : Keeps r (s.watermark d k i level) := by
  unfold State.watermark
  exact .ite h.setBit.bump.setArmed (.ite h.setArmed h)

/-! ### Twill links -/

theorem Keeps.updTwill {f} (h : Keeps r s) : Keeps r (s.updTwill f) :=
  h.setTwill

theorem Keeps.updTlink {d q f} (h : Keeps r s) : Keeps r (s.updTlink d q f) :=
  h.updTwill

theorem Keeps.refreshTopology (h : Keeps r s) : Keeps r s.refreshTopology := by
  unfold State.refreshTopology
  exact .wrBytes (.foldl (fun _ _ h => h.wr.wr) (.foldl (fun _ _ h => h.wr.wr) h))

theorem Keeps.twlSend {l m} (h : Keeps r s) : Keeps r (s.twlSend l m) :=
  h.send

theorem Keeps.twlFlood {except m} (h : Keeps r s) : Keeps r (s.twlFlood except m) :=
  .foldl (fun _ _ h => h.twlSend) h

theorem Keeps.floodLinkState (h : Keeps r s) : Keeps r s.floodLinkState :=
  h.twlFlood

theorem Keeps.dropSlots {gone} (h : Keeps r s) : Keeps r (s.dropSlots gone) := by
  unfold State.dropSlots
  exact h.updTwill.updTwill

theorem Keeps.loseBroken (h : Keeps r s) : Keeps r s.loseBroken := by
  unfold State.loseBroken
  exact .dropSlots (.updTwill (.foldl (fun _ _ h => h.wr) h))

theorem Keeps.dropUnreachable (h : Keeps r s) : Keeps r s.dropUnreachable := by
  unfold State.dropUnreachable
  exact .loseBroken (.wr (.updTwill (.foldl (fun _ _ h => h.setBit.raise) h)))

theorem Keeps.newGeneration (h : Keeps r s) : Keeps r s.newGeneration := by
  unfold State.newGeneration
  exact h.wr.bump.updTwill.refreshTopology.floodLinkState

theorem Keeps.freeRx {d n} (h : Keeps r s) : Keeps r (s.freeRx d n) := by
  unfold State.freeRx
  split
  · exact h
  · extract_lets s1
    have h1 : Keeps r s1 := by
      dsimp only [s1]
      split
      · exact h
      · exact h.dropSlots.twlSend
    exact h1.updTwill.wr.wr.wrBytes.wr.refreshTopology

theorem Keeps.linkOut {d q st} (h : Keeps r s) : Keeps r (s.linkOut d q st) := by
  unfold State.linkOut
  exact h.wr.updTwill.dropUnreachable.newGeneration

theorem Keeps.linkLost {d q} (h : Keeps r s) : Keeps r (s.linkLost d q) := by
  unfold State.linkLost
  exact .ite h (.updTlink (.ite h.setBit.raise.linkOut h.wr))

theorem Keeps.fabricReset {d} (h : Keeps r s) : Keeps r (s.fabricReset d) := by
  unfold State.fabricReset
  exact .foldl (fun _ _ h => h.freeRx) (.foldl (fun _ _ h => h.linkLost) h)

theorem Keeps.twlStatus (h : Keeps r s) : Keeps r s.twlStatus := by
  unfold State.twlStatus
  exact h.putBit.putBit.putBit.putBit

theorem Keeps.leaveFabric (h : Keeps r s) : Keeps r s.leaveFabric := by
  unfold State.leaveFabric
  exact .twlStatus (.updTwill (.wr (.wr (.foldl (fun _ _ h => h.linkLost) h))))

theorem Keeps.fabricEnabled (h : Keeps r s) : Keeps r s.fabricEnabled :=
  .ite h.twlStatus h.leaveFabric

/-! ### Power and resets -/

theorem Keeps.showDraw {d n m} (h : Keeps r s) : Keeps r (s.showDraw d n m) := by
  unfold State.showDraw
  extract_lets
  split
  · split
    · exact h.wr
    · split
      exact .wr (.snd ‹_› h.free)
  · exact h.wr

theorem Keeps.setSection {d n st} (h : Keeps r s) : Keeps r (s.setSection d n st) := by
  unfold State.setSection
  extract_lets _ s2
  have h2 : Keeps r s2 := by
    dsimp only [s2]
    split
    · exact h.wr
    · exact .foldl (fun _ _ h => h.putBit) h.wr
  exact .showDraw (.ite h2.clrBit h2)

theorem Keeps.powerForMode {d m} (h : Keeps r s) : Keeps r (s.powerForMode d m) := by
  unfold State.powerForMode
  exact .updPower (.foldl (fun _ _ h => h.showDraw) (.foldl (fun _ _ h => .ite h (.ite h (.ite h.setSection
    (.ite h h.setSection)))) h))

/-- Objects leave the dictionary, and their copies MRAM. -/
theorem Keeps.dropObjects {p : ObjAddr × Int → Bool} {q : ObjAddr × List Byte → Bool} (h : Keeps r s) :
    Keeps r { s with objs := s.objs.filter p, blobs := s.blobs.filter q } :=
  h.mapsTo fun w => by
    obtain ⟨wo, wb, wm⟩ := State.dictWf_iff.mp w
    exact State.dictWf_iff.mpr ⟨mapWf_filter _ _ wo, mapWf_filter _ _ wb, wm⟩

theorem Memory.wf_empty (l : Option Nat) : (⟨[], l⟩ : Memory).wf = true := by simp [Memory.wf, rising]

/-- A media die loses all it holds. -/
theorem Keeps.startMd {d} (h : Keeps r s) : Keeps r (s.updMd d (fun _ => MediaDie.start)) :=
  h.updMdTo (fun _ => Nat.zero_le _) (fun _ => Memory.wf_empty _)

theorem Keeps.resetMedia {d cause run} (h : Keeps r s) : Keeps r (s.resetMedia d cause run) := by
  unfold State.resetMedia
  extract_lets keep ran recov s1 paired seq errs s2 s3 _ s4 s5 s6
  have h1 : Keeps r s1 := (h.dropObjects (p := fun e => keep e.1) (q := fun e => keep e.1)).same
  have h2 : Keeps r s2 := .ite h1.send h1
  have h6 : Keeps r s6 := h2.fabricReset.startMd.updPower.wr.wr
  exact .ite h6.wr.raise (.ite h6.wr h6)

theorem Keeps.resetDieC {cause run} (h : Keeps r s) : Keeps r (s.resetDieC cause run) := by
  unfold State.resetDieC
  extract_lets keep _ _ s1 s2
  have h0 := h.dropObjects (p := fun e => keep e.1) (q := fun e => keep e.1)
  have h1 : Keeps r s1 := by
    refine h0.trans ⟨rfl, id, fun w => ?_, fun w => ?_⟩
    · obtain ⟨-, wl, wa, wb, -⟩ := w
      exact ⟨Nat.zero_le _, wl, wa, wb, Nat.zero_le _⟩
    · simp only [State.memoriesWf, Bool.and_eq_true] at w ⊢
      obtain ⟨⟨wd, -⟩, wi⟩ := w
      exact ⟨⟨wd, Memory.wf_empty _⟩, wi⟩
  exact h1.wr.wr.same.updPower.wr

theorem Keeps.resetPackage {cause ao} (h : Keeps r s) : Keeps r (s.resetPackage cause ao) := by
  unfold State.resetPackage
  extract_lets keep pw
  refine .wr (.wr (.wr (h.trans ⟨rfl, fun w => ?_, fun w => ?_, fun w => ?_⟩)))
  · obtain ⟨wo, wb, wm⟩ := State.dictWf_iff.mp w
    exact State.dictWf_iff.mpr ⟨mapWf_filter _ _ wo, mapWf_filter _ _ wb, wm⟩
  · exact ⟨Nat.zero_le _, w.2.1, Nat.zero_le _, Nat.zero_le _, Nat.zero_le _⟩
  · simp only [State.memoriesWf, Bool.and_eq_true] at w ⊢
    exact ⟨⟨⟨Memory.wf_empty _, Memory.wf_empty _⟩, Memory.wf_empty _⟩, w.2⟩

theorem Keeps.dipReported {d cause} (h : Keeps r s) : Keeps r (s.dipReported d cause) := by
  unfold State.dipReported
  split
  · exact .ite h.raise h
  · exact h

theorem Keeps.received {d r'} (h : Keeps r s) : Keeps r (s.received d r') :=
  .ite h.setBrownouts (.ite h.dipReported h)

theorem Keeps.bootFail {step cause} (h : Keeps r s) : Keeps r (s.bootFail step cause) := by
  unfold State.bootFail
  exact .setBoot (.ite h.persistNum.persistNum.bumpNow.updPower.updPower.updPower
    h.persistNum.persistNum.bumpNow.updPower)

theorem Keeps.dieCFails {cause fail run} (h : Keeps r s) : Keeps r (s.dieCFails cause fail run) := by
  unfold State.dieCFails
  exact .ite h.resetDieC.bootFail h.resetDieC

theorem Keeps.drainArbiter {d} (h : Keeps r s) : Keeps r (s.drainArbiter d) := by
  unfold State.drainArbiter
  extract_lets s1
  have h1 : Keeps r s1 := .foldl (fun _ _ h => h.logRecord.received) h
  exact .ite (h1.updMdTo (fun _ => Nat.zero_le _) id) h

theorem KeepsOut.sequenceFault {d rail} (h : Keeps r s) : KeepsOut r (execSequenceFault d rail s) := by
  have hold : ∀ f, Keeps r { s with mram := { s.mram with seqFault := f }, seqHold := true } := fun _ => h.same
  exact .ite .fault (.when h (.resetPackage (hold _)))

theorem KeepsOut.porstAssert {inRange} (h : Keeps r s) : KeepsOut r (execPorstAssert inRange s) := by
  have hold : ∀ q b, Keeps r { s with seqHold := q, boot := b } := fun _ _ => h.same
  exact .next (hold _ _).resetPackage

theorem Keeps.warmReset {cause} (h : Keeps r s) : Keeps r (s.warmReset cause) := by
  unfold State.warmReset
  exact .ite h.resetPackage.wr.wr.wr h.resetPackage.setMode

theorem KeepsOut.wrstAssert (h : Keeps r s) : KeepsOut r (execWrstAssert s) :=
  .next h.warmReset

theorem KeepsOut.railWarningCrossing {d rail first mv} (h : Keeps r s) :
    KeepsOut r (execRailWarningCrossing d rail first mv s) :=
  .ite .fault (.when h h.updPower.clrBit.wr)

theorem Keeps.scheduleDipPass {d} (h : Keeps r s) : Keeps r (s.scheduleDipPass d) := by
  unfold State.scheduleDipPass
  extract_lets _ s1
  have h1 : Keeps r s1 := h.updPower
  split
  · exact h1
  · exact .ite (.foldl (fun _ _ h => h.setBit) h1) h1

theorem Keeps.bootDip (h : Keeps r s) : Keeps r s.bootDip := by
  unfold State.bootDip
  exact .ite (.ite h.setBoot h.bootFail) h

theorem KeepsOut.railRecovery {d rail last mv volt} (h : Keeps r s) :
    KeepsOut r (execRailRecovery d rail last mv volt s) := by
  unfold execRailRecovery
  extract_lets
  split
  · exact .fault
  · split
    · exact .next h
    · extract_lets _ _ _ s7
      have h7 : Keeps r s7 := by
        dsimp only [s7]
        split
        · exact h.updPower.setBit.wr.setBit.persistNum.raise.setBrownouts
        · exact h.updPower.setBit.wr.setBit.persistNum.raise
      exact .when h h7.scheduleDipPass.bootDip

theorem KeepsOut.brownoutEventReceived {d} (h : Keeps r s) : KeepsOut r (execBrownoutEventReceived d s) := by
  unfold execBrownoutEventReceived
  split
  · exact .next h
  · exact .when h h.setBrownouts.bumpNow.bumpNow

theorem KeepsOut.railResetCrossing {d rail mv} (h : Keeps r s) : KeepsOut r (execRailResetCrossing d rail mv s) := by
  unfold execRailResetCrossing
  extract_lets s1
  have h1 : Keeps r s1 := h.updPower
  split
  · exact .fault
  · refine .when h ?_
    split
    · exact h1.resetMedia
    · exact h1.resetMedia
    · exact h1.dieCFails

theorem KeepsOut.sectionWake {d} (h : Keeps r s) : KeepsOut r (execSectionWake d s) := by
  unfold execSectionWake
  split
  · exact .next h
  · exact .when h h.updPower.setSection

theorem KeepsOut.sectionWakeTimeout {d sec} (h : Keeps r s) : KeepsOut r (execSectionWakeTimeout d sec s) :=
  .ite .fault (.when h h.setSection.raise)

theorem Keeps.thermalSample {d readings} (h : Keeps r s) : Keeps r (s.thermalSample d readings) := by
  unfold State.thermalSample
  extract_lets _ _ failed working s1 _ _ s2
  have h1 : Keeps r s1 := .foldl (fun _ _ h => h.wr) h
  have hfail : ∀ {u : State}, Keeps r u →
      Keeps r (failed.foldl (fun s i => (s.raise d 0x1112 i (p16 [i])).setBit Obj.thermSticky d.die 0 2) u) :=
    fun h => .foldl (fun _ _ h => h.raise.setBit) h
  have h2 : Keeps r s2 := hfail h1.wr.updPower
  clear_value working
  split
  · exact .ite h2 h2.setBit.raise
  · extract_lets _ _ _ s3 _ s4 _ s5 s6 s7 s8 s9
    have h3 : Keeps r s3 := h1.wr.wr
    have h4 : Keeps r s4 := .ite h3.setBit.setBit.bump.raise (.ite h3.clrBit h3)
    have h5 : Keeps r s5 := h4.updPower
    have h7 : Keeps r s7 := hfail (.ite h5.raise h5)
    have h8 : Keeps r s8 := .ite (.ite h7 h7.setBit.setBit.raise) h7.clrBit
    have h9 : Keeps r s9 := .ite (.ite h8 h8.setBit.raise) h8
    split
    · split
      · exact h9.drainArbiter.resetMedia
      · exact h9.drainArbiter.resetMedia
      · exact h9.dieCFails
    · exact h9

theorem KeepsOut.thermalSample {d readings} (h : Keeps r s) : KeepsOut r (execThermalSample d readings s) := by
  unfold execThermalSample
  extract_lets _ working s1
  have h1 : Keeps r s1 := .foldl (fun _ _ h => h.wr) h
  split
  · exact .fault
  · split
    · exact .next h.thermalSample
    · refine .when h ?_
      dsimp only [working]
      split
      · exact h1.wr
      · exact h1.wr.wr

theorem KeepsOut.dieCThermalRestart (h : Keeps r s) : KeepsOut r (execDieCThermalRestart s) :=
  .when h h.updPower

theorem KeepsOut.dieCWatchdogExpiry (h : Keeps r s) : KeepsOut r (execDieCWatchdogExpiry s) :=
  .when h h.dieCFails

theorem Keeps.ans {a} (h : Keeps r s) : Keeps r (s.ans a) :=
  h.setAnswer

theorem Keeps.mirror {d} {f : MDie → Instant → State → State} (hf : ∀ m i t, Keeps r t → Keeps r (f m i t))
    (h : Keeps r s) : Keeps r (s.mirror d f) := by
  unfold State.mirror
  extract_lets l s1 bad _ s2
  have h1 : Keeps r s1 := h.ans
  have h2 : Keeps r s2 := .ite h1.setPair h1
  clear_value l
  split
  · exact h.ans
  · split
    · exact h.ans
    · exact .foldl (fun _ _ h => hf _ _ _ h) h2

theorem KeepsOut.rstRequestRestart {d} (h : Keeps r s) : KeepsOut r (execRstRequestRestart d s) :=
  .when h (.ite h.updPower.ans h.ans)

theorem KeepsOut.rstRequestDieReset {d} (h : Keeps r s) : KeepsOut r (execRstRequestDieReset d s) :=
  .when h h.resetMedia.ans

theorem KeepsOut.rstRequestWarmPackage (h : Keeps r s) : KeepsOut r (execRstRequestWarmPackage s) :=
  .when h h.warmReset.ans

/-! ### Lanes -/

theorem Keeps.updLane {d l f} (h : Keeps r s) : Keeps r (s.updLane d l f) :=
  h.updMd

theorem Keeps.updCage {d n f} (h : Keeps r s) : Keeps r (s.updCage d n f) :=
  h.updMd

theorem Keeps.cdrOff {d lane} (h : Keeps r s) : Keeps r (s.cdrOff d lane) :=
  h.clrBit.clrBit

theorem Keeps.startLane {d lane target} (h : Keeps r s) : Keeps r (s.startLane d lane target) := by
  unfold State.startLane
  exact .wr (.updLane (.ite h.cdrOff h))

theorem Keeps.requestLane {d lane target} (h : Keeps r s) : Keeps r (s.requestLane d lane target) := by
  unfold State.requestLane
  split
  · exact h
  · exact h.updLane
  · exact .ite h h.startLane

theorem Keeps.pllFollows {d q} (h : Keeps r s) : Keeps r (s.pllFollows d q) := by
  unfold State.pllFollows
  exact .ite h h.clrBit

theorem Keeps.laneOff {d lane} (h : Keeps r s) : Keeps r (s.laneOff d lane) := by
  unfold State.laneOff
  exact h.wr.cdrOff.updLane

theorem Keeps.lanesForMode {d m} (h : Keeps r s) : Keeps r (s.lanesForMode d m) := by
  unfold State.lanesForMode
  exact .foldl (fun _ _ h => h.pllFollows) (.foldl (fun _ _ h => .ite (.ite h h.laneOff) (.requestLane
    (.ite h.wr h))) h)

theorem KeepsOut.cdrFreeze {d lane} (h : Keeps r s) : KeepsOut r (execCdrFreeze d lane s) :=
  .when h h.setBit

theorem KeepsOut.cdrReacquire {d lane symbols} (h : Keeps r s) : KeepsOut r (execCdrReacquire d lane symbols s) :=
  .when h h.clrBit.addCount

theorem KeepsOut.fecDegradeCheck {d lane symbols corrected uncorrected} (h : Keeps r s) :
    KeepsOut r (execFecDegradeCheck d lane symbols corrected uncorrected s) := by
  unfold execFecDegradeCheck
  extract_lets _ _ _ _ _ _ s2 _ _ s5
  have h2 : Keeps r s2 := h.updMd.addCount
  have h5 : Keeps r s5 := .ite (.ite h2.addCount.addCount.setBit h2.addCount.addCount) h2
  exact .when h (.ite h5.setBit.setBit.raise (.ite h5.clrBit h5))

theorem KeepsOut.quadPllRelock {d quad} (h : Keeps r s) : KeepsOut r (execQuadPllRelock d quad s) :=
  .when h h.setBit

theorem KeepsOut.laneEqTableWrite {t} (h : Keeps r s) : KeepsOut r (execLaneEqTableWrite t s) := by
  refine .when h ?_
  split
  · exact h.ans
  · split
    · exact h.ans
    · split
      · exact h.raise.ans
      · exact h.persistBytes.ans

theorem Keeps.cycleLane {d lane} (h : Keeps r s) : Keeps r (s.cycleLane d lane) := by
  unfold State.cycleLane
  split
  · exact h.startLane.requestLane
  · exact h.startLane.requestLane
  · exact h.updLane
  · exact h

theorem Keeps.runChecker {d lane phase rx} (h : Keeps r s) : Keeps r (s.runChecker d lane phase rx) := by
  unfold State.runChecker
  extract_lets
  split
  extract_lets
  split
  extract_lets _ _ s2 _ _ s5
  have h2 : Keeps r s2 := .ite h.updLane h.updLane.updLane
  have h5 : Keeps r s5 := .addCount (.addCount (.ite h2.putBit.setBit h2.putBit))
  exact .ite h5.send (.ite h5.send h5)

theorem KeepsOut.patternCheckerLock {d x} (h : Keeps r s) : KeepsOut r (execPatternCheckerLock d x s) :=
  .when h h.runChecker

theorem KeepsOut.patternCheckerLoss {d lane phase rx} (h : Keeps r s) :
    KeepsOut r (execPatternCheckerLoss d lane phase rx s) :=
  .when h h.runChecker

/-! ### Modules and cages -/

theorem Keeps.cageAck {d n} (h : Keeps r s) : Keeps r (s.cageAck d n) :=
  h.updCage

theorem Keeps.cmis {d n w} (h : Keeps r s) : Keeps r (s.cmis d n w) :=
  .foldl (fun _ _ h => h.send) h

theorem KeepsOut.moduleInserted {d cage} (h : Keeps r s) : KeepsOut r (execModuleInserted d cage s) := by
  unfold execModuleInserted
  exact .when h h.setBit.setBit.bump.updCage.raise

theorem Keeps.setRow {d cage row} (h : Keeps r s) : Keeps r (s.setRow d cage row) :=
  .foldl (fun _ _ h => h.updLane) h

theorem Keeps.selectRow {d cage m} (h : Keeps r s) : Keeps r (s.selectRow d cage m) := by
  unfold State.selectRow
  extract_lets _ _ row
  dsimp only [row]
  split
  · exact h.wr.setRow.setBit
  · exact h.wr.setRow.clrBit.raise

theorem Keeps.powerUpCage {d n m} (h : Keeps r s) : Keeps r (s.powerUpCage d n m) :=
  .ite h.cmis.updCage h

theorem Keeps.cagesFollow {d m} (h : Keeps r s) : Keeps r (s.cagesFollow d m) :=
  .foldl (fun _ _ h => h.powerUpCage) h

theorem Keeps.identify {d cage m} (h : Keeps r s) : Keeps r (s.identify d cage m) := by
  unfold State.identify
  extract_lets _ _ twin s1 s2 _ s3 s4
  have h1 : Keeps r s1 := h.wrBytes.setBit.updCage
  have h2 : Keeps r s2 := .ite h1.setBit.raise (.ite h1.setBit.raise h1)
  have h3 : Keeps r s3 := .ite h2.selectRow.setBit.raise h2.selectRow
  have h4 : Keeps r s4 := by
    dsimp only [s4]
    clear_value twin s3
    split
    · exact h3.wr.raise
    · exact .wr (.wrBytes (.ite h3.raise h3))
  exact .powerUpCage (.ite (.foldl (fun _ _ h => h.laneOff) h4.raise) h4.raise)

theorem KeepsOut.moduleStatePoll {d cage lowPwr info} (h : Keeps r s) :
    KeepsOut r (execModuleStatePoll d cage lowPwr info s) :=
  .when h (.ite h.identify h.cageAck)

theorem KeepsOut.moduleReadyTimeout {d cage st} (h : Keeps r s) : KeepsOut r (execModuleReadyTimeout d cage st s) :=
  .when h h.updCage.raise

theorem KeepsOut.moduleReady {d cage} (h : Keeps r s) : KeepsOut r (execModuleReady d cage s) := by
  unfold execModuleReady
  exact .when h (.foldl (fun _ _ h => h.requestLane) h.setBit.updCage.cmis)

theorem KeepsOut.datapathActivated {d cage} (h : Keeps r s) : KeepsOut r (execDatapathActivated d cage s) :=
  .when h h.setBit.updCage

theorem KeepsOut.moduleInterrupt {d cage flags} (h : Keeps r s) : KeepsOut r (execModuleInterrupt d cage flags s) :=
  .when h (.foldl (fun _ _ h => h.setBit.raise) h.cageAck)

theorem KeepsOut.mgmtBusNoAck {d cage} (h : Keeps r s) : KeepsOut r (execMgmtBusNoAck d cage s) := by
  unfold execMgmtBusNoAck
  exact .when h (.ite h.updCage h.updCage.setBit.setBit.updCage.raise)

theorem KeepsOut.mgmtBusRetry {d cage ok} (h : Keeps r s) : KeepsOut r (execMgmtBusRetry d cage ok s) :=
  .when h h.clrBit.updCage

theorem KeepsOut.monitorPoll {d cage delayed temp bias} (h : Keeps r s) :
    KeepsOut r (execMonitorPoll d cage delayed temp bias s) :=
  .when h (.ite h.bump h.wr.updCage)

theorem Keeps.wearWarn {d cage n reason met value} (h : Keeps r s) :
    Keeps r (s.wearWarn d cage n reason met value) := by
  unfold State.wearWarn
  exact .ite h.wrBytes.setBit.setBit.raise h

theorem Keeps.wearMinuteWarn {d cage n} (h : Keeps r s) : Keeps r (s.wearMinuteWarn d cage n) := by
  unfold State.wearMinuteWarn
  exact h.wearWarn.wearWarn

theorem KeepsOut.wearMinuteUpdate (h : Keeps r s) : KeepsOut r (execWearMinuteUpdate s) := by
  refine .when h ?_
  refine .foldl (fun _ _ h => ?_) h
  split
  exact h.wrBytes.wearMinuteWarn

theorem Keeps.wearHourOver (h : Keeps r s) : Keeps r s.wearHourOver :=
  .foldl (fun _ _ h => h.updMd) h

theorem KeepsOut.wearHourUpdate (h : Keeps r s) : KeepsOut r (execWearHourUpdate s) := by
  refine .when h (.wearHourOver (.foldl (fun _ _ h => ?_) h))
  split
  extract_lets
  split
  · exact h.wrBytes.wearMinuteWarn
  · split
    rename_i v s1 e1
    have h1 : Keeps r s1 := by
      refine .snd e1 ?_
      split
      · exact h
      · split
        exact .snd ‹_› h.free
    exact h1.wrBytes.wearWarn.wearMinuteWarn

theorem mapWf_foldl_mapPut {α : Type} (l : List (ObjAddr × α)) :
    ∀ m : List (ObjAddr × α), mapWf m = true → mapWf (l.foldl (fun m e => mapPut m e.1 e.2) m) = true := by
  induction l with
  | nil => exact fun _ w => w
  | cons e l ih => exact fun m w => ih _ (mapWf_mapPut m e.1 e.2 w)

theorem Keeps.flushWear (h : Keeps r s) : Keeps r s.flushWear :=
  h.mapsTo fun w => by
    obtain ⟨wo, wb, wmo, wmb⟩ := State.dictWf_iff.mp w
    exact State.dictWf_iff.mpr ⟨wo, wb, wmo, mapWf_foldl_mapPut _ _ wmb⟩

theorem KeepsOut.wearRecordFlush (h : Keeps r s) : KeepsOut r (execWearRecordFlush s) :=
  .when h h.flushWear

theorem Keeps.powerDownCage {d n} (h : Keeps r s) : Keeps r (s.powerDownCage d n) := by
  unfold State.powerDownCage
  exact .ite (.updCage (.clrBit (.clrBit (.cmis (.ite h h.cmis))))) h

theorem Keeps.modulesStandby (h : Keeps r s) : Keeps r s.modulesStandby :=
  .foldl (fun _ _ h => .ite h.powerDownCage h) h

theorem Keeps.cageUnserved {d n} (h : Keeps r s) : Keeps r (s.cageUnserved d n) := by
  unfold State.cageUnserved
  exact h.updCage.wr.wr.wr

/-! ### Streams and packing -/

theorem Keeps.updNet {d f} (h : Keeps r s) : Keeps r (s.updNet d f) :=
  h.updMd

theorem Keeps.updQueue {d q f} (h : Keeps r s) : Keeps r (s.updQueue d q f) :=
  h.updNet

theorem Keeps.updFlowIn {d k f} (h : Keeps r s) : Keeps r (s.updFlowIn d k f) :=
  h.updNet

theorem Keeps.updFlowOut {d k f} (h : Keeps r s) : Keeps r (s.updFlowOut d k f) :=
  h.updNet

theorem Keeps.updPort {d p f} (h : Keeps r s) : Keeps r (s.updPort d p f) :=
  h.updNet

theorem Keeps.setDepth {d q n} (h : Keeps r s) : Keeps r (s.setDepth d q n) := by
  unfold State.setDepth
  exact h.wr.wr.putBit.watermark

theorem Keeps.refusePkt {d q flow egress} (h : Keeps r s) : Keeps r (s.refusePkt d q flow egress) := by
  unfold State.refusePkt
  extract_lets _ _ s2
  have h2 : Keeps r s2 := .ite h.bump.setBit.setBit h.bump.setBit
  exact .ite h2 h2.raise

theorem Keeps.enqueue {d q p egress} (h : Keeps r s) : Keeps r (s.enqueue d q p egress) := by
  unfold State.enqueue
  exact .ite h.updQueue.setDepth h.refusePkt

theorem Keeps.dequeue {d q} (h : Keeps r s) : Keeps r (s.dequeue d q) := by
  unfold State.dequeue
  split
  · exact h
  · exact h.updQueue.setDepth

theorem Keeps.legUp {d f leg} (h : Keeps r s) : Keeps r (s.legUp d f leg) := by
  unfold State.legUp
  extract_lets s1
  have h1 : Keeps r s1 := .ite h h.setBit.raise
  exact .ite h1 h1.setBit.raise

theorem Keeps.legDown {d f leg} (h : Keeps r s) : Keeps r (s.legDown d f leg) := by
  unfold State.legDown
  extract_lets s1
  have h1 : Keeps r s1 := h.clrBit.setBit.raise
  exact .ite h (.ite h1 h1.clrBit.setBit.raise)

theorem Keeps.merge {d f leg seq} (h : Keeps r s) : Keeps r (s.merge d f leg seq).1 := by
  unfold State.merge
  extract_lets
  split
  extract_lets _ s4
  have h4 : Keeps r s4 := .ite h.bump.legUp.updFlowIn h.bump.legUp.updFlowIn.addCount.setBit
  split
  · exact h4.bump
  · exact h4.bump
  · exact h4.bump
  · exact h4.bump.bump.setBit.raise

theorem Keeps.queueIngress {d f leg u} (h : Keeps r s) : Keeps r (s.queueIngress d f leg u) :=
  h.enqueue

theorem Keeps.checkTimestamp {d f ts} (h : Keeps r s) : Keeps r (s.checkTimestamp d f ts) := by
  unfold State.checkTimestamp
  exact .ite (.ite h.updFlowIn.setBit.setBit.raise h.updFlowIn) (.ite h.updFlowIn.clrBit h.updFlowIn)

theorem Keeps.completeFrame {d f} (h : Keeps r s) : Keeps r (s.completeFrame d f) := by
  unfold State.completeFrame
  extract_lets
  split
  extract_lets s1 s2
  have h1 : Keeps r s1 := h.addCount
  have h2 : Keeps r s2 := by
    dsimp only [s2]
    split
    · exact .ite h1.checkTimestamp h1
    · exact h1
  exact h2.updFlowIn

theorem Keeps.flowControl {d f start from_} (h : Keeps r s) : Keeps r (s.flowControl d f start from_) := by
  unfold State.flowControl
  exact .ite h h.updFlowOut.wr

theorem KeepsOut.flowOutStart {d flow} (h : Keeps r s) : KeepsOut r (execFlowOutStart d flow s) :=
  .when h (.mirror (fun _ _ _ h => .ite h.wr.flowControl.ans h.ans) h)

theorem KeepsOut.flowOutStop {d flow} (h : Keeps r s) : KeepsOut r (execFlowOutStop d flow s) :=
  .when h (.mirror (fun _ _ _ h => .ite h.wr.flowControl.ans h.ans) h)

theorem Keeps.parityError {d place number} (h : Keeps r s) : Keeps r (s.parityError d place number) :=
  h.bump.setBit.raise

theorem Keeps.popWords {d q words bad} (h : Keeps r s) : Keeps r (s.popWords d q words bad).1 := by
  unfold State.popWords
  extract_lets _ s1
  have h1 : Keeps r s1 := .ite h h.updMd
  split
  · exact h1
  · exact .foldl (fun _ _ h => h.parityError) h1.setBit

/-! ### The network -/

theorem Keeps.discardFrame {d p} (h : Keeps r s) : Keeps r (s.discardFrame d p) :=
  h.bump.setBit

theorem Keeps.ownPacket {d p kind len} (h : Keeps r s) : Keeps r (s.ownPacket d p kind len) :=
  h.enqueue

theorem Keeps.askHop {d p hop} (h : Keeps r s) : Keeps r (s.askHop d p hop) := by
  unfold State.askHop
  split
  · exact h
  · exact .ite h h.updPort.ownPacket

theorem Keeps.releaseHeld {d} (h : Keeps r s) : Keeps r (s.releaseHeld d) :=
  .foldl (fun _ _ h => .ite h.wr h) h

theorem Keeps.igmpReports {d p} (h : Keeps r s) : Keeps r (s.igmpReports d p) :=
  .ite h (.foldl (fun _ _ h => .foldl (fun _ _ h => .ite h.ownPacket h) h) h)

theorem Keeps.rxUdp {d p len u} (h : Keeps r s) : Keeps r (s.rxUdp d p len u) := by
  unfold State.rxUdp
  split
  · exact h.discardFrame
  · split
    · exact h.discardFrame
    · exact .ite h.bump (.ite h.discardFrame h.updPort)

theorem Keeps.rxEcho {d p dst src mac len} (h : Keeps r s) : Keeps r (s.rxEcho d p dst src mac len) := by
  unfold State.rxEcho
  exact .ite h.discardFrame (.ite h.discardFrame h.updPort.ownPacket)

theorem Keeps.classify {d p f} (h : Keeps r s) : Keeps r (s.classify d p f) := by
  unfold State.classify
  extract_lets
  split
  · exact h.discardFrame
  · exact h.discardFrame
  · exact h.discardFrame
  · exact h
  · exact h.igmpReports
  · exact .ite h.ownPacket h.discardFrame
  · exact .releaseHeld (.ite h.updPort.setBit h.updPort)
  · exact h.rxEcho
  · exact h.rxUdp

theorem KeepsOut.rxFrame {d port f} (h : Keeps r s) : KeepsOut r (execRxFrame d port f s) := by
  unfold execRxFrame
  refine .when h ?_
  split
  · exact h.discardFrame
  · split
    · exact h.discardFrame
    · exact .ite h.bump.setBit h.classify

theorem KeepsOut.arpUnresolvedTimeout {d port ip} (h : Keeps r s) :
    KeepsOut r (execArpUnresolvedTimeout d port ip s) := by
  unfold execArpUnresolvedTimeout
  exact .when h (.ownPacket (.foldl (fun _ _ h => .ite h.wr.setBit h) (.ite h.setBit.raise.clrBit h.setBit.raise)))

theorem Keeps.pickLoop {d p tc ps ring n} (h : Keeps r s) : Keeps r (s.pickLoop d p tc ps ring n).1 := by
  induction n generalizing s with
  | zero => exact h
  | succ n ih =>
    unfold State.pickLoop
    split
    extract_lets cur q next s1
    have h1 : Keeps r s1 := .ite h.updQueue.updPort h
    split
    · split
      · exact h1
      · exact ih h1.updPort
    · exact ih h.updPort

theorem Keeps.pick {d p tc ps} (h : Keeps r s) : Keeps r (s.pick d p tc ps).1 := by
  unfold State.pick
  dsimp only
  exact h.pickLoop

theorem Keeps.pickPort {d p ps n} (h : Keeps r s) : Keeps r (s.pickPort d p ps n).1 := by
  induction n generalizing s with
  | zero => exact h
  | succ n ih =>
    unfold State.pickPort
    split
    · exact .fst (by assumption) h.pick
    · exact ih (.fst (by assumption) h.pick)

theorem Keeps.discardUnfit {d p} (h : Keeps r s) : Keeps r (s.discardUnfit d p) := by
  unfold State.discardUnfit
  split
  · exact h
  · refine .foldl (fun _ _ h => ?_) h
    split
    · exact h
    · extract_lets
      split
      · exact h
      · exact .ite h.dequeue.bump.raise h

theorem Keeps.countLate {d h'} (h : Keeps r s) : Keeps r (s.countLate d h') := by
  unfold State.countLate
  extract_lets
  split
  · exact h
  · split
    · split
      exact .ite h.bump.setBit h.bump.setBit.raise
    · exact h

theorem Keeps.sendHead {d p tc q} (h : Keeps r s) : Keeps r (s.sendHead d p tc q) := by
  unfold State.sendHead
  extract_lets
  split
  · exact h
  · extract_lets _ _ s3 _ s5
    have h3 : Keeps r s3 := .ite h.dequeue.updQueue h.dequeue.updQueue.wr
    have h5 : Keeps r s5 := .ite h3.updPort.countLate h3.updPort
    exact .ite h5.popWords.bump (.send (.ite h5.popWords.bump h5.popWords))

theorem KeepsOut.egressSchedule {d port} (h : Keeps r s) : KeepsOut r (execEgressSchedule d port s) := by
  unfold execEgressSchedule
  refine .when h ?_
  split
  · exact .fst (by assumption) h.discardUnfit.pickPort
  · exact .sendHead (.fst (by assumption) h.discardUnfit.pickPort)

theorem Keeps.refill {d q period} (h : Keeps r s) : Keeps r (s.refill d q period) := by
  unfold State.refill
  exact .ite h.updQueue.wr h.updQueue.wr

theorem KeepsOut.shaperRefill {d} (h : Keeps r s) : KeepsOut r (execShaperRefill d s) :=
  .when h (.foldl (fun _ _ h => h.refill) h)

theorem KeepsOut.pacedPacketRelease {d flow leg} (h : Keeps r s) :
    KeepsOut r (execPacedPacketRelease d flow leg s) := by
  unfold execPacedPacketRelease
  extract_lets
  split
  · exact .next h
  · exact .when h h.updQueue

theorem KeepsOut.flowControlLanding {d flow} (h : Keeps r s) : KeepsOut r (execFlowControlLanding d flow s) := by
  unfold execFlowControlLanding
  extract_lets
  split
  · exact .next h
  · exact .when h (.ite (.foldl (fun _ _ h => h.askHop) h.updFlowOut.wr) h.updFlowOut.wr)

theorem Keeps.commitGates {d p t} (h : Keeps r s) : Keeps r (s.commitGates d p t) := by
  unfold State.commitGates
  exact h.updPort.wrBytes.wr

theorem KeepsOut.gateCommit {d port} (h : Keeps r s) : KeepsOut r (execGateCommit d port s) :=
  .when h (.mirror (fun _ _ _ h => .ite h.commitGates.ans h.ans) h)

theorem Keeps.gateOverrun {d p} (h : Keeps r s) : Keeps r (s.gateOverrun d p) := by
  unfold State.gateOverrun
  extract_lets
  split
  · exact .ite h.updPort.bump.raise h
  · exact h

theorem KeepsOut.gateSetStart {d port} (h : Keeps r s) : KeepsOut r (execGateSetStart d port s) := by
  unfold execGateSetStart
  extract_lets
  split
  · exact .next h
  · exact .when h h.updPort.wr.raise.gateOverrun

theorem KeepsOut.gateEntryBoundary {d port} (h : Keeps r s) : KeepsOut r (execGateEntryBoundary d port s) :=
  .when h h.gateOverrun.discardUnfit

/-! ### Twill channels -/

theorem Keeps.wakeLink {d q} (h : Keeps r s) : Keeps r (s.wakeLink d q) :=
  .foldl (fun _ _ h => h.requestLane) h

theorem Keeps.sendAlloc {d rx c} (h : Keeps r s) : Keeps r (s.sendAlloc d rx c) := by
  unfold State.sendAlloc
  split
  · exact h
  · exact .ite h.wakeLink h.twlSend

theorem Keeps.allocRx {d dev srcDie base member f} (h : Keeps r s) :
    Keeps r (s.allocRx d dev srcDie base member f).1 := by
  unfold State.allocRx
  extract_lets
  split
  · exact h
  · split
    · exact h.updTwill.wr.wr.wrBytes.wr.refreshTopology.sendAlloc
    · exact h

/-! ### Loom routes and groups -/

theorem Keeps.updDst {d p f} (h : Keeps r s) : Keeps r (s.updDst d p f) :=
  h.updMd

theorem Keeps.syncBridge {e} (h : Keeps r s) : Keeps r (s.syncBridge e) := by
  unfold State.syncBridge
  exact h.updMd.wr.wr

theorem Keeps.refreshLoom (h : Keeps r s) : Keeps r s.refreshLoom := by
  unfold State.refreshLoom
  exact .foldl (fun _ _ h => .foldl (fun _ _ h => h.wr) h) (.foldl (fun _ _ h => h.syncBridge) h)

/-- A fold over results keeps what each step from a result keeps. -/
theorem Keeps.foldlOk {α ε β : Type _} {f : Except ε (State × β) → α → Except ε (State × β)} {l : List α}
    {a : Except ε (State × β)} {w : β}
    (hf : ∀ b x, (∀ t w, b = .ok (t, w) → Keeps r t) → ∀ t w, f b x = .ok (t, w) → Keeps r t)
    (h : ∀ t w, a = .ok (t, w) → Keeps r t) (e : l.foldl f a = .ok (t, w)) : Keeps r t := by
  induction l generalizing a with
  | nil => exact h _ _ e
  | cons x l ih => exact ih (hf a x h) e

theorem Keeps.takeTwill {d p x sel w} (e : s.takeTwill d p x sel = .ok (t, w)) (h : Keeps r s) : Keeps r t := by
  unfold State.takeTwill at e
  split at e
  · cases e
  · refine .foldlOk (fun b m hb t w e => ?_) (fun t w e => ?_) e
    · split at e
      · cases e
      · rename_i s1 _
        have h1 := hb s1 _ rfl
        split at e
        · cases e
        · split at e
          · cases e
          · cases e
            exact .fst (by assumption) h1.allocRx
    · cases e
      exact h

theorem Keeps.takeRoute {d p x pend sel w} (e : s.takeRoute d p x pend sel = .ok (t, w)) (h : Keeps r s) :
    Keeps r t := by
  unfold State.takeRoute at e
  extract_lets put at e
  have hput : ∀ {u}, Keeps r u → Keeps r (put u) := fun h => h.updDst.wr.refreshLoom
  split at e
  · cases e
  · split at e
    · cases e
      exact hput h
    · split at e
      · cases e
      · cases e
        exact hput (.takeTwill (by assumption) h)
    · split at e
      · cases e
      · cases e
        exact hput h

theorem Keeps.loomReject {d reason group dst} (h : Keeps r s) : Keeps r (s.loomReject d reason group dst) :=
  h.setBit.bump.raise

theorem Keeps.takeGroup {g i sel l w} (e : s.takeGroup g i sel l = .ok (t, w)) (h : Keeps r s) : Keeps r t := by
  unfold State.takeGroup at e
  refine .foldlOk (fun b x hb t w e => ?_) (fun t w e => ?_) e
  · split at e
    · cases e
    · rename_i s1 _
      have h1 := hb s1 _ rfl
      dsimp only at e
      split at e
      · cases e
      · cases e
        exact .takeRoute (by assumption) h1
  · cases e
    exact h

theorem Keeps.markLate {g t l} (h : Keeps r s) : Keeps r (s.markLate g t l) := by
  unfold State.markLate
  refine .foldl (fun _ _ h => ?_) h
  split
  exact .ite h.setBit.raise h

theorem Keeps.commitGroup {ds g t} (h : Keeps r s) : Keeps r (s.commitGroup ds g t) := by
  unfold State.commitGroup
  extract_lets
  split
  · exact h.loomReject.ans
  · extract_lets s1
    have h1 : Keeps r s1 := .markLate (.takeGroup (by assumption) h)
    exact .ite h1.ans h1.updTwill

theorem Keeps.rejectOpen {c dst reason} (h : Keeps r s) : Keeps r (s.rejectOpen c dst reason) := by
  unfold State.rejectOpen
  extract_lets
  split
  · exact h.updTwill.persistNum.refreshLoom.ans
  · exact .ans (.loomReject (.refreshLoom (.foldl (fun _ _ h => h.updDst.wr) h.updTwill)))

theorem Keeps.runDue (h : Keeps r s) : Keeps r s.runDue := by
  unfold State.runDue
  exact .ite h (.foldl (fun _ _ h => h.commitGroup) h.updTwill)

theorem Keeps.commitWrite {d g} (h : Keeps r s) : Keeps r (s.commitWrite d g) := by
  unfold State.commitWrite
  extract_lets s1
  have h1 : Keeps r s1 := h.runDue
  split
  · exact h1.ans
  · extract_lets
    split
    · exact h1.ans
    · exact .ite h1.commitGroup h1.updTwill

theorem KeepsOut.loomGroupCommit {d group} (h : Keeps r s) : KeepsOut r (execLoomGroupCommit d group s) :=
  .when h h.commitWrite

theorem KeepsOut.loomGroupCommitPackage {group} (h : Keeps r s) : KeepsOut r (execLoomGroupCommitPackage group s) :=
  .when h h.commitWrite

theorem Keeps.freeIdleRx {d} (h : Keeps r s) : Keeps r (s.freeIdleRx d) := by
  unfold State.freeIdleRx
  exact .foldl (fun _ _ h => h.freeRx) h

theorem Keeps.takeBackup {d p x sel w} (e : s.takeBackup d p x sel = .ok (t, w)) (h : Keeps r s) : Keeps r t := by
  unfold State.takeBackup at e
  extract_lets put at e
  have hput : ∀ {u}, Keeps r u → Keeps r (put u) := fun h => h.persistNum.refreshLoom
  split at e
  · cases e
  · split at e
    · cases e
      exact hput h
    · split at e
      · cases e
      · cases e
        exact hput (.takeTwill (by assumption) h)
    · split at e
      · cases e
      · cases e
        exact hput h

theorem KeepsOut.loomDstBackupWrite {d dst route} (h : Keeps r s) :
    KeepsOut r (execLoomDstBackupWrite d dst route s) := by
  unfold execLoomDstBackupWrite
  refine .when h ?_
  refine .mirror (fun _ _ _ h => ?_) h
  split
  · exact h.ans
  · split
    · exact h.ans
    · exact .ans (.freeIdleRx (.ite (.takeBackup (by assumption) h) (.updTwill (.takeBackup (by assumption) h))))

theorem Keeps.noteRemote {d p r' cause} (h : Keeps r s) : Keeps r (s.noteRemote d p r' cause) := by
  unfold State.noteRemote
  split
  · exact h
  · refine .foldl (fun _ _ h => ?_) h
    split
    · exact h.updTwill
    · exact h

theorem Keeps.judgeLoss {d p} (h : Keeps r s) : Keeps r (s.judgeLoss d p) := by
  unfold State.judgeLoss
  extract_lets
  split
  · exact h.updDst
  · exact .ite h.updDst.setBit h.updDst

theorem KeepsOut.sourceLossDetect {d x} (h : Keeps r s) : KeepsOut r (execSourceLossDetect d x s) := by
  unfold execSourceLossDetect
  exact .when h h.noteRemote.judgeLoss

theorem Keeps.showBlack {d p black} (h : Keeps r s) : Keeps r (s.showBlack d p black) :=
  h.putBit.putBit

theorem Keeps.followDue {d p} (h : Keeps r s) : Keeps r (s.followDue d p) :=
  h.updDst

theorem Keeps.switchTo {d p r'} (h : Keeps r s) : Keeps r (s.switchTo d p r') := by
  unfold State.switchTo
  exact h.wr.wr.bump.followDue.showBlack.refreshLoom

theorem Keeps.landRoute {d p pr} (h : Keeps r s) : Keeps r (s.landRoute d p pr) := by
  unfold State.landRoute
  exact h.updDst.wr.clrBit.clrBit.switchTo.freeIdleRx

theorem Keeps.followBlack {d p} (h : Keeps r s) : Keeps r (s.followBlack d p) :=
  h.showBlack.followDue

theorem Keeps.beginLoss {d p cause} (h : Keeps r s) : Keeps r (s.beginLoss d p cause) := by
  unfold State.beginLoss
  extract_lets _ _ s3
  have h3 : Keeps r s3 := h.setBit.setBit.raise.updDst
  split
  · exact .ite h3 h3.followBlack
  · exact .ite h3.setBit.raise.switchTo.followBlack h3.setBit.raise.switchTo
  · exact h3.followBlack

theorem Keeps.endLoss {d p} (h : Keeps r s) : Keeps r (s.endLoss d p) := by
  unfold State.endLoss
  exact h.clrBit.raise.updDst.followDue.showBlack

theorem Keeps.stayLost {d p} (h : Keeps r s) : Keeps r (s.stayLost d p) := by
  unfold State.stayLost
  extract_lets _ s1
  have h1 : Keeps r s1 := .ite h h.switchTo
  exact .ite h1 (.ite h1.followBlack h1.showBlack.followDue)

theorem Keeps.stayBackup {d p t0} (h : Keeps r s) : Keeps r (s.stayBackup d p t0) :=
  h.updDst.stayLost

theorem Keeps.onBackup {d p} (h : Keeps r s) : Keeps r (s.onBackup d p) := by
  unfold State.onBackup
  extract_lets
  split
  · exact .ite h.clrBit.clrBit.setBit.raise.updDst.switchTo h.stayBackup
  · exact h.stayBackup
  · exact h.stayBackup

theorem Keeps.dstSwitch {d p} (h : Keeps r s) : Keeps r (s.dstSwitch d p) := by
  unfold State.dstSwitch
  extract_lets _ _ due
  dsimp only [due]
  split
  · exact h.landRoute
  · split
    · exact h.onBackup
    · split
      · split
        · exact h.endLoss
        · exact .ite h.updDst.followBlack h.updDst
      · split
        · exact h.beginLoss
        · exact h.updDst
        · exact h

theorem Keeps.dstSwitchLine {d p} (h : Keeps r s) : Keeps r (s.dstSwitchLine d p) := by
  unfold State.dstSwitchLine
  extract_lets
  split
  exact h.runDue.dstSwitch.updDst

theorem KeepsOut.dieBridgeDown (h : Keeps r s) : KeepsOut r (execDieBridgeDown s) :=
  .next (.foldl (fun _ _ h => .ite (.ite h.clrBit h.clrBit.setBit) h) h)

theorem KeepsOut.dieBridgeRestored (h : Keeps r s) : KeepsOut r (execDieBridgeRestored s) :=
  .when h (.foldl (fun _ _ h => h.setBit) h)

theorem Keeps.loomTake {d route sel} (h : Keeps r s) : Keeps r (s.loomTake d route sel) := by
  unfold State.loomTake
  refine .foldl (fun _ _ h => ?_) h
  extract_lets s1
  have h1 : Keeps r s1 := h.wr
  split
  extract_lets _ _ _ s2
  have h2 : Keeps r s2 := by
    dsimp only [s2]
    split
    · exact .ite (.takeRoute (by assumption) h1) (.updTwill (.takeRoute (by assumption) h1))
    · exact h1.updDst.wr.setBit.raise
  split
  · exact h2.persistNum
  · exact .ite (.takeBackup (by assumption) h2) (.updTwill (.takeBackup (by assumption) h2))

theorem Keeps.loomLeaveConfigure {sel} (h : Keeps r s) : Keeps r (s.loomLeaveConfigure sel) :=
  .foldl (fun _ _ h => .ite h.loomTake h) h

theorem Keeps.loomOff {d} (h : Keeps r s) : Keeps r (s.loomOff d) := by
  unfold State.loomOff
  exact .refreshLoom (.freeIdleRx (.foldl (fun _ _ h => h.wr.wr.wr.wr.updDst) h))

/-! ### Frame synchronizers -/

theorem Keeps.updFsy {d n f} (h : Keeps r s) : Keeps r (s.updFsy d n f) :=
  h.updMd

theorem Keeps.setFill {d n} (h : Keeps r s) : Keeps r (s.setFill d n) := by
  unfold State.setFill
  exact h.wr.watermark

theorem Keeps.fsyDrop {d n} (h : Keeps r s) : Keeps r (s.fsyDrop d n) := by
  unfold State.fsyDrop
  extract_lets _ s1
  have h1 : Keeps r s1 := h.updFsy.bump.setBit
  exact .setFill (.ite h1 h1.raise)

theorem Keeps.fsyRepeat {d n} (h : Keeps r s) : Keeps r (s.fsyRepeat d n) := by
  unfold State.fsyRepeat
  exact .ite h.bump.setBit h.bump.setBit.raise

theorem Keeps.fsyComplete {d n} (h : Keeps r s) : Keeps r (s.fsyComplete d n) := by
  unfold State.fsyComplete
  extract_lets
  split
  · exact h
  · split
    split
    extract_lets _ _ s1
    have h1 : Keeps r s1 := by
      dsimp only [s1]
      split
      · exact h.addCount
      · exact h
    exact h1.updFsy.setBit.setFill

theorem Keeps.fsyStartFrame {d n ts} (h : Keeps r s) : Keeps r (s.fsyStartFrame d n ts) := by
  unfold State.fsyStartFrame
  exact .updFsy (.ite h.fsyComplete.fsyDrop h.fsyComplete)

theorem KeepsOut.fsyWriterFrameStart {d n ts} (h : Keeps r s) : KeepsOut r (execFsyWriterFrameStart d n ts s) :=
  .when h h.fsyStartFrame

theorem KeepsOut.fsyFrameComplete {d n} (h : Keeps r s) : KeepsOut r (execFsyFrameComplete d n s) :=
  .when h h.fsyComplete

theorem Keeps.fsyWrite {d port segs} (h : Keeps r s) : Keeps r (s.fsyWrite d port segs) := by
  unfold State.fsyWrite
  refine .foldl (fun _ _ h => ?_) h
  extract_lets
  split
  · exact h
  · exact h.updFsy

theorem Keeps.fsyShow {d n drops} (h : Keeps r s) : Keeps r (s.fsyShow d n drops) := by
  unfold State.fsyShow
  extract_lets s1
  have h1 : Keeps r s1 := .foldl (fun _ _ h => h.fsyDrop) h
  split
  · exact .ite h1.updFsy.fsyRepeat h1
  · exact h1.updFsy.setFill

theorem Keeps.fsyRead {d n drops} (h : Keeps r s) : Keeps r (s.fsyRead d n drops) :=
  .foldl (fun _ _ h => h.fsyShow) h

theorem KeepsOut.fsyRateMeasurement {d n} (h : Keeps r s) : KeepsOut r (execFsyRateMeasurement d n s) := by
  obtain ⟨sat, hsat⟩ : ∃ f, f = @satS := ⟨_, rfl⟩
  unfold execFsyRateMeasurement
  rw [← hsat]
  refine .when h ?_
  extract_lets f nominal rate old
  have h1 : Keeps r (if sat rate 32 = rate then (rate, s) else (signed 32 (s.free 32).1, (s.free 32).2)).2 := by
    split
    · exact h
    · exact h.free (w := 32)
  generalize (if sat rate 32 = rate then _ else _) = p at h1 ⊢
  exact .ite h1.wr.updFsy.raise h1.wr.updFsy

theorem Keeps.fsyInput {d port lost} (h : Keeps r s) : Keeps r (s.fsyInput d port lost) := by
  unfold State.fsyInput
  refine .foldl (fun _ _ h => ?_) h
  split
  · exact h
  · exact .ite h.setBit.setBit.raise (.ite h h.clrBit)

theorem Keeps.fsyPoison {d n row col samples} (h : Keeps r s) : Keeps r (s.fsyPoison d n row col samples) := by
  unfold State.fsyPoison
  extract_lets
  split
  extract_lets _ _ s2
  have h2 : Keeps r s2 := by
    dsimp only [s2]
    split
    · exact h.updFsy.addCount
    · exact h.updFsy
  exact h2.setBit

theorem Keeps.depacketize {d f r'} (h : Keeps r s) : Keeps r (s.depacketize d f r') := by
  unfold State.depacketize
  exact h.updFlowIn

theorem Keeps.takeAnc {d port ts data} (h : Keeps r s) : Keeps r (s.takeAnc d port ts data) := by
  unfold State.takeAnc
  extract_lets
  split
  · exact h.updMd
  · exact h.updMd.updFsy

/-! ### Memory allocation -/

theorem Keeps.refreshMem {d} (h : Keeps r s) : Keeps r (s.refreshMem d) := by
  unfold State.refreshMem
  exact h.wr.wr

theorem Keeps.updStores {d f} (h : Keeps r s) : Keeps r (s.updStores d f) :=
  h.updMd.refreshMem

theorem Keeps.freeStores {d subject inst} (h : Keeps r s) : Keeps r (s.freeStores d subject inst) :=
  h.updStores

theorem Keeps.item32 {n} (h : Keeps r s) : Keeps r (s.item32 n).2 := by
  unfold State.item32
  split
  · exact h
  · exact h.free

theorem Keeps.memRefuse {d kind subject short} (h : Keeps r s) : Keeps r (s.memRefuse d kind subject short) :=
  h.item32.setBit.bump.raise

theorem Keeps.allocStores {d subject inst parts traffic} (e : s.allocStores d subject inst parts traffic = .ok t)
    (h : Keeps r s) : Keeps r t := by
  unfold State.allocStores at e
  dsimp only at e
  split at e
  · cases e
  · split at e
    · cases e
    · cases e
      exact h.updStores

/-! ### Pixel engines -/

theorem Keeps.refreshEngines {d} (h : Keeps r s) : Keeps r (s.refreshEngines d) := by
  unfold State.refreshEngines
  exact .wr (.foldl (fun _ _ h => h.wr) (.foldl (fun _ _ h => h.wr.wr.wr.wr) h))

theorem Keeps.shareRefuse {d kind n short} (h : Keeps r s) : Keeps r (s.shareRefuse d kind n short) :=
  h.setBit.bump.wr.raise

theorem Keeps.placeChannel {d c} (h : Keeps r s) : Keeps r (s.placeChannel d c).1 := by
  unfold State.placeChannel
  extract_lets
  split
  · exact h
  · split
    · exact h
    · split
      · exact h.shareRefuse
      · exact h.wr.refreshEngines

theorem Keeps.placeBorrower {d m chain} (h : Keeps r s) : Keeps r (s.placeBorrower d m chain).1 := by
  unfold State.placeBorrower
  extract_lets
  split
  · exact h
  · split
    · exact h
    · split
      · exact h.shareRefuse
      · exact h.wr.refreshEngines

theorem Keeps.dropBorrower {d m} (h : Keeps r s) : Keeps r (s.dropBorrower d m) :=
  h.wr.refreshEngines

/-! ### Images -/

theorem Keeps.updVideo {d f} (h : Keeps r s) : Keeps r (s.updVideo d f) :=
  h.updMd

theorem Keeps.updChain {d n f} (h : Keeps r s) : Keeps r (s.updChain d n f) :=
  h.updVideo

theorem Keeps.updCmp {d n f} (h : Keeps r s) : Keeps r (s.updCmp d n f) :=
  h.updVideo

theorem Keeps.updOutp {d n f} (h : Keeps r s) : Keeps r (s.updOutp d n f) :=
  h.updVideo

/-! ### Conversion chains -/

theorem Keeps.refreshCoefs {d} (h : Keeps r s) : Keeps r (s.refreshCoefs d) := by
  unfold State.refreshCoefs
  exact .foldl (fun _ _ h => .ite h h.wr) h

theorem Keeps.cnvReject {d n reason} (h : Keeps r s) : Keeps r (s.cnvReject d n reason) := by
  unfold State.cnvReject
  exact h.setBit.bump.setBit.wr.raise.ans

theorem Keeps.lineShort {d scaler short} (h : Keeps r s) : Keeps r (s.lineShort d scaler short) :=
  h.setBit.wr.raise

theorem Keeps.replaceBorrowers {d} (h : Keeps r s) : Keeps r (s.replaceBorrowers d) := by
  unfold State.replaceBorrowers
  refine .foldl (fun _ _ h => ?_) h.updMd
  split
  · exact h
  · split
    · exact h
    · split
      · exact .fst (by assumption) h.placeBorrower
      · exact .ite h.setBit.raise h

theorem Keeps.chainCommit {d n t} (h : Keeps r s) : Keeps r (s.chainCommit d n t).1 := by
  obtain ⟨R, hR⟩ : ∃ R, R = @routeLanding := ⟨_, rfl⟩
  obtain ⟨Rc, hRc⟩ : ∃ R, R = @State.chainStores := ⟨_, rfl⟩
  unfold State.chainCommit
  rw [← hR, ← hRc]
  extract_lets
  split
  · exact h.setBit.cnvReject
  · exact h.cnvReject
  · split
    · exact h.setBit.bump.setBit.lineShort.ans
    · split
      rename_i s1 placed e1
      have h1 : Keeps r s1 := by
        refine .fst e1 ?_
        split
        · exact h
        · exact h.placeBorrower
      split
      · exact h1.cnvReject
      · split
        split
        · exact h.cnvReject.memRefuse
        · rename_i s2 e2
          have h2 : Keeps r s2 := .allocStores e2 h1
          split
          extract_lets s3 s4 s5
          have h5 : Keeps r s5 := h2.updChain.wr.wr.setBit.refreshCoefs
          exact .ans (.replaceBorrowers (.ite h5.setBit.raise h5))

theorem KeepsOut.cnvChainCommit {d chain} (h : Keeps r s) : KeepsOut r (execCnvChainCommit d chain s) :=
  .when h (.mirror (fun _ _ _ h => .ite h.chainCommit h.ans) h)

theorem KeepsOut.chainConfigApply {d chain} (h : Keeps r s) : KeepsOut r (execChainConfigApply d chain s) := by
  unfold execChainConfigApply
  extract_lets
  split
  · exact .next h
  · extract_lets _ s2 s3
    have h2 : Keeps r s2 := h.updChain.clrBit.setBit.bump
    have h3 : Keeps r s3 := .ite h2.setBit h2
    exact .when h (.refreshCoefs (.ite h3 h3.setBit))

theorem KeepsOut.cnvCoefSetWrite {d set_ data} (h : Keeps r s) : KeepsOut r (execCnvCoefSetWrite d set_ data s) := by
  unfold execCnvCoefSetWrite
  refine .when h ?_
  refine .mirror (fun _ _ _ h => ?_) h
  split
  · exact h.ans
  · split
    · exact h.ans
    · split
      · exact h.setBit.bump.raise.ans
      · exact h.persistBytes.ans

theorem Keeps.chainInput {d n} (h : Keeps r s) : Keeps r (s.chainInput d n) := by
  unfold State.chainInput
  extract_lets
  split
  · exact h
  · split
    extract_lets _ _ _ s2
    have h2 : Keeps r s2 := .ite h.updChain.clrBit h.updChain
    exact .ite h2 h2.putBit.putBit.wr

/-! ### Compositors and outputs -/

theorem KeepsOut.compSurfDataWrite {d data} (h : Keeps r s) : KeepsOut r (execCompSurfDataWrite d data s) :=
  .when h (.mirror (fun _ _ _ h => .ite h.ans (.ite h.ans h.updVideo.wr.ans)) h)

theorem Keeps.showFelt {d n} (h : Keeps r s) : Keeps r (s.showFelt d n) := by
  unfold State.showFelt
  exact h.putBit.putBit.wr

theorem Keeps.queuePress {d n need} (h : Keeps r s) : Keeps r (s.queuePress d n need) := by
  unfold State.queuePress
  exact h.updVideo.updCmp.showFelt

theorem Keeps.cmpReject {d n reason layer} (h : Keeps r s) : Keeps r (s.cmpReject d n reason layer) := by
  unfold State.cmpReject
  split
  extract_lets s1
  have h1 : Keeps r s1 := by
    dsimp only [s1]
    refine .bump ?_
    refine .setBit ?_
    refine .snd (by assumption) ?_
    split
    · exact h
    · exact h.free
  exact .ans (.raise (.ite h1.setBit.wr h1))

theorem Keeps.scalerReject {d scaler x} (h : Keeps r s) : Keeps r (s.scalerReject d scaler x) := by
  unfold State.scalerReject
  split
  · exact h.lineShort
  · exact h.raise
  · exact h.raise
  · exact h.raise
  · exact h.setBit.raise

theorem Keeps.refreshScalers {d} (h : Keeps r s) : Keeps r (s.refreshScalers d) :=
  .foldl (fun _ _ h => .ite h (.ite h h.wr.wr)) h

theorem Keeps.cmpCommit {d n t forced judged} (h : Keeps r s) : Keeps r (s.cmpCommit d n t forced judged).1 := by
  unfold State.cmpCommit
  extract_lets
  split
  · with_reducible exact h.cmpReject
  split
  · with_reducible exact h.cmpReject
  split
  · with_reducible exact h.cmpReject
  split
  · with_reducible exact h.cmpReject.scalerReject
  split
  · with_reducible exact h.cmpReject
  split
  · with_reducible exact h.cmpReject.memRefuse
  · rename_i s1 e1
    have h1 : Keeps r s1 := .allocStores e1 h
    extract_lets _ _ _ _ s2 s3 s4 s5
    have h5 : Keeps r s5 := h1.updCmp.queuePress.setBit.wr.refreshScalers.refreshCoefs
    with_reducible exact .ans (.ite h5.setBit.bump.raise h5)

theorem KeepsOut.cmpCommit {d n} (h : Keeps r s) : KeepsOut r (execCmpCommit d n s) :=
  .when h (.mirror (fun _ _ _ h => .ite h.cmpCommit h.ans) h)

theorem KeepsOut.cmpFeltRebuild {d n} (h : Keeps r s) : KeepsOut r (execCmpFeltRebuild d n s) :=
  .when h (.mirror (fun _ _ _ h => .ite h.cmpCommit h.ans) h)

theorem KeepsOut.feltPressStart {d n} (h : Keeps r s) : KeepsOut r (execFeltPressStart d n s) := by
  unfold execFeltPressStart
  extract_lets
  split
  · exact .next h
  · exact .when h h.updVideo.updCmp.showFelt

theorem KeepsOut.feltPressComplete {d n} (h : Keeps r s) : KeepsOut r (execFeltPressComplete d n s) := by
  unfold execFeltPressComplete
  extract_lets
  split
  · exact .when h h.updCmp.bump.showFelt
  · exact .next h

theorem Keeps.outReject {d m reason} (h : Keeps r s) : Keeps r (s.outReject d m reason) := by
  unfold State.outReject
  exact h.setBit.bump.setBit.wr.raise.ans

theorem Keeps.outCommit {d m t judged} (h : Keeps r s) : Keeps r (s.outCommit d m t judged).1 := by
  unfold State.outCommit
  extract_lets
  split
  · exact h.outReject
  · split
    exact .ans (.ite h.updOutp.setBit.setBit.bump.raise h.updOutp.setBit)

theorem KeepsOut.scnOutCommit {d m} (h : Keeps r s) : KeepsOut r (execScnOutCommit d m s) :=
  .when h (.mirror (fun _ _ _ h => .ite h.outCommit h.ans) h)

theorem Keeps.cmpGuard {d n} (h : Keeps r s) : Keeps r (s.cmpGuard d n) := by
  unfold State.cmpGuard
  extract_lets _ _ _ s1
  have h1 : Keeps r s1 := .ite h.updCmp h
  exact .ite h1 (.ite h1.updCmp.setBit.raise h1.updCmp)

theorem Keeps.outGuard {d m} (h : Keeps r s) : Keeps r (s.outGuard d m) := by
  unfold State.outGuard
  extract_lets
  split
  exact .ite h h.updOutp

theorem KeepsOut.guardTest {d out n} (h : Keeps r s) : KeepsOut r (execGuardTest d out n s) := by
  unfold execGuardTest
  exact .ite (.when h h.outGuard) (.ite .fault (.when h h.cmpGuard))

theorem Keeps.cmpLatch {d n} (h : Keeps r s) : Keeps r (s.cmpLatch d n) := by
  unfold State.cmpLatch
  extract_lets
  split
  · exact h
  · exact h.updCmp.bump.setBit.putBit.wrBytes.showFelt.refreshCoefs

theorem Keeps.outLatch {d m} (h : Keeps r s) : Keeps r (s.outLatch d m) := by
  unfold State.outLatch
  split
  · exact h
  · exact h.updOutp.bump.setBit.putBit

theorem KeepsOut.latch {d out n} (h : Keeps r s) : KeepsOut r (execLatch d out n s) := by
  unfold execLatch
  exact .ite (.when h h.outLatch) (.ite .fault (.when h h.cmpLatch))

theorem Keeps.outGoOver {d m r'} (h : Keeps r s) : Keeps r (s.outGoOver d m r') := by
  unfold State.outGoOver
  exact h.updOutp

theorem Keeps.outStep {d m t step} (h : Keeps r s) : Keeps r (s.outStep d m t step) := by
  unfold State.outStep
  split
  · exact h.outGoOver
  · exact .ite h h.outGoOver

theorem Keeps.cmpStep {d n t step} (h : Keeps r s) : Keeps r (s.cmpStep d n t step) := by
  unfold State.cmpStep
  exact .ite h h.updCmp

theorem Keeps.formatApply {d m t} (h : Keeps r s) : Keeps r (s.formatApply d m t).1 := by
  unfold State.formatApply
  extract_lets
  split
  · exact h.outReject
  · split
    · exact h.outReject
    · split
      · exact h.ans
      · exact h.outGoOver.ans

theorem KeepsOut.scnOutFormatApply {d m} (h : Keeps r s) : KeepsOut r (execScnOutFormatApply d m s) :=
  .when h (.mirror (fun _ _ _ h => .ite h.formatApply h.ans) h)

theorem KeepsOut.newRasterStart {d m} (h : Keeps r s) : KeepsOut r (execNewRasterStart d m s) := by
  unfold execNewRasterStart
  extract_lets
  split
  · exact .next h
  · exact .when h (.raise (.bump (.setBit (.updOutp (.foldl (fun _ _ h => h.persistNum.persistNum)
    h.persistNum.persistNum.persistNum)))))

theorem Keeps.crcCompare {d m r' value expect} (h : Keeps r s) : Keeps r (s.crcCompare d m r' value expect) := by
  unfold State.crcCompare
  extract_lets _ _ _ _ s3
  have h3 : Keeps r s3 := h.updOutp.setBit.setBit.bump
  exact .ite (.ite h.updOutp.clrBit.raise h.updOutp) (.ite h3 h3.raise)

theorem Keeps.crcRunFrame {d i bad} (h : Keeps r s) : Keeps r (s.crcRunFrame d i bad) := by
  unfold State.crcRunFrame
  exact .ite h (.ite h.updMd.bump h.updMd)

theorem Keeps.crcEnd {d m r' c} (h : Keeps r s) : Keeps r (s.crcEnd d m r' c) := by
  unfold State.crcEnd
  extract_lets _ _ _ _ _ _ s2
  have h2 : Keeps r s2 := h.wr.wr.setBit
  split
  · exact h2.crcRunFrame.crcCompare
  · split
    · exact h2.crcCompare
    · exact h2.persistNum.updOutp
  · exact h2

theorem KeepsOut.crcRectEnd {d rect} (h : Keeps r s) : KeepsOut r (execCrcRectEnd d rect s) := by
  unfold execCrcRectEnd
  extract_lets
  split
  · exact .next h
  · exact .when h h.crcEnd

theorem Keeps.videoOff {d} (h : Keeps r s) : Keeps r (s.videoOff d) := by
  unfold State.videoOff
  exact .refreshEngines (.refreshCoefs (.foldl (fun _ _ h => h.wrBytes)
    (.foldl (fun _ _ h => .foldl (fun _ _ h => h.wr) h) h.updVideo)))

theorem Keeps.videoLeaveConfigure {d} (h : Keeps r s) : Keeps r (s.videoLeaveConfigure d).1 := by
  obtain ⟨A, hA⟩ : ∃ A, A = @State.allocStores := ⟨_, rfl⟩
  have e : @State.videoLeaveConfigure = @State.videoLeaveConfigure := rfl
  conv at e => rhs; delta State.videoLeaveConfigure
  rw [e, ← hA]
  beta_reduce
  extract_lets _ s1 each
  have h1 : Keeps r s1 := h.videoOff
  have folds : ∀ {n used go} {acc : State × Bool}, (∀ u k, Keeps r u → Keeps r (go u k).1) → Keeps r acc.1 →
      Keeps r (each n used go acc).1 := by
    intro n used go acc hgo ha
    refine .foldl_fst (fun _ _ h => ?_) ha
    split
    · exact hgo _ _ h
    · exact h
  clear_value each
  split
  rename_i s2 ok e2
  have h2 : Keeps r s2 := by
    refine .fst e2 ?_
    split
    · rw [hA] at *
      exact .allocStores ‹_› h1
    · exact h1.cmpReject.memRefuse
  extract_lets acc1 acc2
  have ha1 : Keeps r acc1.1 := folds (fun _ _ h => h.chainCommit) h2
  have ha2 : Keeps r acc2.1 := folds (fun _ _ h => h.cmpCommit) ha1
  exact folds (fun _ _ h => h.outCommit) ha2

/-! ### Egress -/

theorem Keeps.freeBytes {n} (h : Keeps r s) : Keeps r (s.freeBytes n).2 :=
  h.setFreeCtr

theorem Keeps.buildPackets {d f pt p pace} (h : Keeps r s) : Keeps r (s.buildPackets d f pt p pace).1 := by
  unfold State.buildPackets
  dsimp only
  exact h.updFlowOut

theorem Keeps.pushPackets {d l} (h : Keeps r s) : Keeps r (s.pushPackets d l) :=
  .foldl (fun _ _ h => h.enqueue) h

theorem Keeps.updSlv {d f} (h : Keeps r s) : Keeps r (s.updSlv d f) :=
  h.updMd

theorem Keeps.emit {d f pt p pace} (h : Keeps r s) : Keeps r (s.emit d f pt p pace) := by
  unfold State.emit
  split
  · exact h
  · split
    extract_lets
    split
    · exact .pushPackets (.fst (by assumption) h.buildPackets)
    · split
      · exact .fst (by assumption) h.buildPackets
      · exact .pushPackets (.ite (.foldl (fun _ _ h => h.send) (.fst (by assumption) h.buildPackets))
        (.fst (by assumption) h.buildPackets))
      · exact .pushPackets (.fst (by assumption) h.buildPackets)
      · exact .foldl (fun _ _ h => h.updSlv) (.fst (by assumption) h.buildPackets)

/-! ### The Selvedge pair -/

theorem Keeps.tellDecision {d x} (h : Keeps r s) : Keeps r (s.tellDecision d x) := by
  unfold State.tellDecision
  exact .ite h.send h

theorem Keeps.dropDecision {d x} (h : Keeps r s) : Keeps r (s.dropDecision d x) :=
  h.updSlv

theorem Keeps.decisionMissed {d kind res} (h : Keeps r s) : Keeps r (s.decisionMissed d kind res) := by
  unfold State.decisionMissed
  exact .ite h.bump.setBit h.bump.setBit.raise

theorem Keeps.fsyDecide {d n} (h : Keeps r s) : Keeps r (s.fsyDecide d n) := by
  unfold State.fsyDecide
  exact h.updFsy.tellDecision

theorem Keeps.fsyApply {d n drops ts} (h : Keeps r s) : Keeps r (s.fsyApply d n drops ts) :=
  .ite (.foldl (fun _ _ h => .ite h.fsyRepeat h) h) h.fsyRead

theorem Keeps.fsyFollow {d n} (h : Keeps r s) : Keeps r (s.fsyFollow d n) := by
  unfold State.fsyFollow
  split
  · exact .ite h.dropDecision.fsyApply h.dropDecision.decisionMissed.fsyRead
  · exact h.decisionMissed.fsyRead

theorem KeepsOut.fsyReadDecision {d n} (h : Keeps r s) : KeepsOut r (execFsyReadDecision d n s) := by
  unfold execFsyReadDecision
  refine .when h ?_
  extract_lets
  split
  · exact h.fsyRead
  · split
    · split
      · exact h.fsyDecide
      · split
        · exact h.updFsy.fsyApply
        · exact h.fsyRead
    · exact h.fsyFollow

/-! ### The audio router -/

theorem Keeps.updAud {d f} (h : Keeps r s) : Keeps r (s.updAud d f) :=
  h.updMd

theorem Keeps.updAudOut {d o f} (h : Keeps r s) : Keeps r (s.updAudOut d o f) :=
  h.updAud

theorem Keeps.updAudPort {d p f} (h : Keeps r s) : Keeps r (s.updAudPort d p f) :=
  h.updAud

theorem Keeps.updAudIsl {d i f} (h : Keeps r s) : Keeps r (s.updAudIsl d i f) :=
  h.updAud

theorem Keeps.updAudFlow {d k f} (h : Keeps r s) : Keeps r (s.updAudFlow d k f) :=
  h.updAud

theorem Keeps.audPortReject {d p reason} (h : Keeps r s) : Keeps r (s.audPortReject d p reason) := by
  unfold State.audPortReject
  exact h.setBit.bump.wr.raise.ans

theorem Keeps.refreshProducers {d} (h : Keeps r s) : Keeps r (s.refreshProducers d) := by
  unfold State.refreshProducers
  exact .foldl (fun _ _ h => h.wr) (.foldl (fun _ _ h => h.wr) h)

theorem Keeps.routerReject {d group reason ch} (h : Keeps r s) : Keeps r (s.routerReject d group reason ch) := by
  unfold State.routerReject
  exact h.setBit.bump.raise.ans

theorem Keeps.routerCommit {d g t} (h : Keeps r s) : Keeps r (s.routerCommit d g t).1 := by
  unfold State.routerCommit
  extract_lets
  split
  · exact h.routerReject
  · split
    · exact h.routerReject
    · exact .ans (.foldl (fun _ _ h => h.updAudOut) h)

/-! ### Audio -/

theorem Keeps.audFill {d p} (h : Keeps r s) : Keeps r (s.audFill d p) := by
  unfold State.audFill
  exact h.wr.watermark

theorem Keeps.audSlip {d p kind} (h : Keeps r s) : Keeps r (s.audSlip d p kind) := by
  unfold State.audSlip
  extract_lets _ s1
  have h1 : Keeps r s1 := h.bump.setBit.setBit
  exact .ite h1 h1.raise

theorem Keeps.slipNow {d p kind n need} (h : Keeps r s) : Keeps r (s.slipNow d p kind n need).2 := by
  unfold State.slipNow
  split
  · exact .ite h.tellDecision h
  · split
    · exact h.dropDecision
    · exact .ite h.decisionMissed h

theorem Keeps.audPoisonRead {d p} (h : Keeps r s) : Keeps r (s.audPoisonRead d p) := by
  unfold State.audPoisonRead
  exact .ite h.setBit h.setBit.raise

theorem Keeps.putAudIn {d n x} (h : Keeps r s) : Keeps r (s.putAudIn d n x) :=
  h.updAud

theorem Keeps.audTakeIn {d p n first} (h : Keeps r s) : Keeps r (s.audTakeIn d p n first) := by
  unfold State.audTakeIn
  split
  extract_lets s1
  have h1 : Keeps r s1 := .ite (.audSlip (.snd (by assumption) h.slipNow)) (.updAudPort
    (.snd (by assumption) h.slipNow))
  split
  · exact h1
  · extract_lets s2
    have h2 : Keeps r s2 := .foldl (fun _ _ h => h.putAudIn) h1
    exact .audFill (.ite h2.audPoisonRead h2)

theorem Keeps.audTickIn {d n p} (h : Keeps r s) : Keeps r (s.audTickIn d n p) := by
  unfold State.audTickIn
  extract_lets
  split
  · exact h
  · exact .ite h.updAudPort.audTakeIn (.foldl (fun _ _ h => h.putAudIn) h)

theorem Keeps.audTickFlow {d n f} (h : Keeps r s) : Keeps r (s.audTickFlow d n f) := by
  unfold State.audTickFlow
  extract_lets
  split
  · extract_lets s3
    have h3 : Keeps r s3 := .foldl (fun _ _ h => h.putAudIn) h.updAudFlow
    exact .ite h3.clrBit h3
  · exact .setBit (.setBit (.bump (.updAudFlow (.foldl (fun _ _ h => h.putAudIn) h))))

theorem Keeps.audTickTwill {d n} (h : Keeps r s) : Keeps r (s.audTickTwill d n) :=
  .foldl (fun _ _ h => .foldl (fun _ _ h => h.putAudIn) h) h

theorem Keeps.showAudOut {d o n} (h : Keeps r s) : Keeps r (s.showAudOut d o n) := by
  unfold State.showAudOut
  exact h.wr.wr

theorem Keeps.audTickOut {d hz n o} (h : Keeps r s) : Keeps r (s.audTickOut d hz n o) := by
  unfold State.audTickOut
  exact h.updAudOut.showAudOut

theorem Keeps.audTickPort {d n p} (h : Keeps r s) : Keeps r (s.audTickPort d n p) := by
  unfold State.audTickPort
  extract_lets
  split
  · exact h
  · exact .ite h (.audFill (.updAudPort (.ite h.slipNow.updAudPort.audSlip h.slipNow)))

theorem Keeps.routerTick {d b hz n} (h : Keeps r s) : Keeps r (s.routerTick d b hz n) := by
  unfold State.routerTick
  exact .updAud (.foldl (fun _ _ h => h.audTickPort) (.foldl (fun _ _ h => h.audTickOut) (.audTickTwill
    (.foldl (fun _ _ h => h.audTickFlow) (.foldl (fun _ _ h => h.audTickIn) h)))))

theorem KeepsOut.routerTick {d bank} (h : Keeps r s) : KeepsOut r (execRouterTick d bank s) := by
  unfold execRouterTick
  exact .when h h.routerTick

theorem Keeps.sumLead {d p} (h : Keeps r s) : Keeps r (s.sumLead d p) := by
  unfold State.sumLead
  exact .ite h h.updAudIsl

theorem Keeps.fsyEdge {d p} (h : Keeps r s) : Keeps r (s.fsyEdge d p) := by
  unfold State.fsyEdge
  exact h.updAudPort

theorem Keeps.audFrameDone {d p codes} (h : Keeps r s) : Keeps r (s.audFrameDone d p codes) := by
  unfold State.audFrameDone
  extract_lets
  split
  · exact h
  · exact .ite h (.updAudPort (.ite h.slipNow.updAudPort.audSlip h.slipNow))

theorem Keeps.audRealigned {d p} (h : Keeps r s) : Keeps r (s.audRealigned d p) :=
  h.updAudPort

theorem Keeps.applyMasks {d p} (h : Keeps r s) : Keeps r (s.applyMasks d p) := by
  unfold State.applyMasks
  split
  · exact .ite h.updAudPort.refreshProducers h
  · exact h

theorem Keeps.audSendFrame {d p} (h : Keeps r s) : Keeps r (s.audSendFrame d p) := by
  unfold State.audSendFrame
  extract_lets
  split
  · exact h
  · split
    · exact h.send
    · split
      extract_lets s1
      have h1 : Keeps r s1 := .ite (.audSlip (.updAudPort (.snd (by assumption) h.slipNow))) (.updAudPort
        (.snd (by assumption) h.slipNow))
      split
      · exact h1.send
      · exact .send (.ite h1.audPoisonRead h1)

theorem Keeps.setAudState {d p st} (h : Keeps r s) : Keeps r (s.setAudState d p st) :=
  h.wr.putBit.putBit

theorem KeepsOut.tdmFrameSync {d port slots} (h : Keeps r s) : KeepsOut r (execTdmFrameSync d port slots s) := by
  unfold execTdmFrameSync
  exact .when h (.ite h.setAudState (.audFill (.updAudPort (.audSendFrame (.sumLead (.applyMasks (.audRealigned
    (.audFrameDone (.fsyEdge (.ite h.setAudState.setBit h))))))))))

theorem Keeps.audPortCommit {d p t} (h : Keeps r s) : Keeps r (s.audPortCommit d p t).1 := by
  unfold State.audPortCommit
  extract_lets
  split
  · exact h.audPortReject
  · exact h.updAudPort.ans

theorem KeepsOut.audPortCommit {d port} (h : Keeps r s) : KeepsOut r (execAudPortCommit d port s) :=
  .when h (.mirror (fun _ _ _ h => .ite h.audPortCommit h) h)

theorem KeepsOut.audGroupCommit {d group} (h : Keeps r s) : KeepsOut r (execAudGroupCommit d group s) :=
  .when h (.mirror (fun _ _ _ h => h.routerCommit) h)

theorem Keeps.islandStep {d i sum} (h : Keeps r s) : Keeps r (s.islandStep d i sum) := by
  unfold State.islandStep
  extract_lets _ _ _ _ _ _ _ _ s2
  have h2 : Keeps r s2 := .ite h.updAudIsl.wr.clrBit h.updAudIsl.wr
  exact .ite h2.clrBit.setBit.setBit.raise (.ite h2.setBit.raise h2)

theorem KeepsOut.islandUpdate {d island} (h : Keeps r s) : KeepsOut r (execIslandUpdate d island s) := by
  unfold execIslandUpdate
  split
  · exact .next h
  · exact .when h h.islandStep

theorem Keeps.startIsland {d i} (h : Keeps r s) : Keeps r (s.startIsland d i) := by
  unfold State.startIsland
  split
  · exact h.updAudIsl.wr.wr
  · split
    · exact h
    · split
      exact .wr (.wr (.updAudIsl (.snd ‹_› h.free)))

theorem Keeps.audRealign {d p} (h : Keeps r s) : Keeps r (s.audRealign d p) := by
  unfold State.audRealign
  exact .audFill (.setAudState (.foldl (fun _ _ h => h.audSlip) h.updAudPort))

theorem Keeps.judgeClass {d p cls} (h : Keeps r s) : Keeps r (s.judgeClass d p cls) := by
  unfold State.judgeClass
  exact .ite h (.ite h.setAudState.setBit.raise (.ite h.audRealign h))

theorem KeepsOut.rateGate {d port} (h : Keeps r s) : KeepsOut r (execRateGate d port s) := by
  unfold execRateGate
  exact .when h (.judgeClass (.ite h.updAudPort.wr.wr.updAudPort.setBit.raise h.updAudPort.wr.wr))

theorem KeepsOut.slaveClockStop {d port} (h : Keeps r s) : KeepsOut r (execSlaveClockStop d port s) := by
  unfold execSlaveClockStop
  exact .when h h.setAudState.clrBit.setBit.setBit.updAudPort.raise

theorem KeepsOut.slaveClockReturn {d port} (h : Keeps r s) : KeepsOut r (execSlaveClockReturn d port s) := by
  unfold execSlaveClockReturn
  exact .when h h.setBit.raise.audRealign.fsyEdge.updAudPort

theorem KeepsOut.frameSyncGlitch {d port bck} (h : Keeps r s) : KeepsOut r (execFrameSyncGlitch d port bck s) := by
  unfold execFrameSyncGlitch
  exact .when h h.updAudPort.bump.setBit.setBit.raise.send

theorem Keeps.rebase {d f k cause} (h : Keeps r s) : Keeps r (s.rebase d f k cause) := by
  unfold State.rebase
  exact h.updAudFlow.bump.setBit.raise

theorem Keeps.audRebase {d f ts cur cause due} (h : Keeps r s) : Keeps r (s.audRebase d f ts cur cause due) := by
  unfold State.audRebase
  extract_lets
  split
  · exact .ite h.rebase.tellDecision h
  · split
    · exact h.dropDecision.rebase
    · exact .ite h.decisionMissed.rebase h

theorem Keeps.audPacket {d f r'} (h : Keeps r s) : Keeps r (s.audPacket d f r') := by
  unfold State.audPacket
  extract_lets
  split
  extract_lets _ s4
  have h4 : Keeps r s4 := .ite h.updAudFlow.audRebase.updAudFlow h.updAudFlow.audRebase.updAudFlow.addCount.setBit
  exact .ite h4 h4.setBit

theorem KeepsOut.audioEgressPacket {d flow} (h : Keeps r s) : KeepsOut r (execAudioEgressPacket d flow s) := by
  unfold execAudioEgressPacket
  exact .when h h.updAud.emit

theorem Keeps.audArm {d p} (h : Keeps r s) : Keeps r (s.audArm d p) := by
  unfold State.audArm
  exact .ite h.ans h.updAudPort.setAudState.audFill.ans

theorem KeepsOut.audPortArm {d port} (h : Keeps r s) : KeepsOut r (execAudPortArm d port s) :=
  .when h (.mirror (fun _ _ _ h => h.audArm) h)

theorem Keeps.audDisarm {d p} (h : Keeps r s) : Keeps r (s.audDisarm d p) := by
  unfold State.audDisarm
  exact .ite h.ans (.ans (.ite h.updAudPort.setAudState h.updAudPort))

theorem KeepsOut.audPortDisarm {d port} (h : Keeps r s) : KeepsOut r (execAudPortDisarm d port s) :=
  .when h (.mirror (fun _ _ _ h => h.audDisarm) h)

theorem Keeps.audTrigger {d g t} (h : Keeps r s) : Keeps r (s.audTrigger d g t) := by
  unfold State.audTrigger
  exact .ite h (.raise (.wr (.foldl (fun _ _ h => .ite h.updAudPort.setAudState h.updAudPort) h)))

theorem KeepsOut.audStartTrigger {d group} (h : Keeps r s) : KeepsOut r (execAudStartTrigger d group s) :=
  .when h (.mirror (fun _ _ _ h => h.audTrigger) h)

theorem Keeps.followChannel {d o src t} (h : Keeps r s) : Keeps r (s.followChannel d o src t) := by
  unfold State.followChannel
  exact h.updAudOut.showAudOut

theorem KeepsOut.audioFollowSwitch {d dst} (h : Keeps r s) : KeepsOut r (execAudioFollowSwitch d dst s) := by
  unfold execAudioFollowSwitch
  extract_lets
  split
  · exact .next h
  · refine .when h ?_
    split
    exact .foldl (fun _ _ h => .ite h.followChannel h) h.updDst

theorem Keeps.audRest {d} (h : Keeps r s) : Keeps r (s.audRest d) := by
  unfold State.audRest
  extract_lets _ _ _ _ s1 zero s2
  have h2 : Keeps r s2 := .foldl (fun _ _ h => h.setAudState.audFill) h.updAud
  have zeroed : ∀ {u} o v, Keeps r u → Keeps r (zero u o v) := fun _ _ h => .foldl (fun _ _ h => h.wr) h
  exact zeroed _ _ (zeroed _ _ (zeroed _ _ h2))

theorem Keeps.audStop {d} (h : Keeps r s) : Keeps r (s.audStop d) :=
  h.updAud.audRest

theorem Keeps.audOff {d} (h : Keeps r s) : Keeps r (s.audOff d) := by
  unfold State.audOff
  exact .foldl (fun _ _ h => h.wr) h.audStop.updAud

theorem Keeps.audLeaveConfigure {d} (h : Keeps r s) : Keeps r (s.audLeaveConfigure d).1 := by
  obtain ⟨A, hA⟩ : ∃ A, A = @State.allocStores := ⟨_, rfl⟩
  unfold State.audLeaveConfigure
  rw [← hA]
  extract_lets s1 acc1 s2 outs acc2 s3
  have ha1 : Keeps r acc1.1 := by
    refine .foldl_fst (fun _ _ h => ?_) h.audRest
    extract_lets
    split
    · exact h.audPortReject
    · with_reducible exact h.updAudPort
  clear_value acc1
  have h2 : Keeps r s2 := ha1.refreshProducers
  have ha2 : Keeps r acc2.1 := by
    dsimp only [acc2]
    split
    · with_reducible exact h2.loomReject.ans
    · exact h2
  clear_value acc2
  split
  rename_i s4 ok e4
  have h4 : Keeps r s4 := by
    refine .fst e4 ?_
    split
    · with_reducible exact ha2.routerReject
    · with_reducible exact .foldl (fun _ _ h => h.updAudOut.showAudOut) ha2
  extract_lets s5 fl
  have h5 : Keeps r s5 := .foldl (fun _ _ h => h.startIsland) h4
  clear_value s5
  split
  rename_i s6 bad e6
  refine .fst e6 (.foldl_fst (fun _ _ h => ?_) h5)
  split
  · rw [hA] at *
    exact .allocStores ‹_› h
  · exact h

theorem Keeps.audTimeStep {d} (h : Keeps r s) : Keeps r (s.audTimeStep d) :=
  h.updAud

/-! ### Encode channels and their plans -/

theorem Keeps.updEnc {d c f} (h : Keeps r s) : Keeps r (s.updEnc d c f) :=
  h.updMd

theorem Keeps.setEncState {d c st} (h : Keeps r s) : Keeps r (s.setEncState d c st) :=
  h.wr.putBit

theorem Keeps.refreshEntropy {d} (h : Keeps r s) : Keeps r (s.refreshEntropy d) :=
  .foldl (fun _ _ h => h.wr.wr.putBit) h

theorem Keeps.setEntropy {d c l} (h : Keeps r s) : Keeps r (s.setEntropy d c l) :=
  h.wr.refreshEntropy

theorem Keeps.encReject {d c reason} (h : Keeps r s) : Keeps r (s.encReject d c reason) := by
  unfold State.encReject
  exact h.setBit.bump.setBit.wr.raise.ans

theorem Keeps.rcReject {d c reason tier} (h : Keeps r s) : Keeps r (s.rcReject d c reason tier) := by
  unfold State.rcReject
  exact .ans (.raise (.wr (.setBit (.bump (.setBit (.setBit (.bump (.setBit (.ite h.wr h)))))))))

theorem Keeps.showEnc {d c g} (h : Keeps r s) : Keeps r (s.showEnc d c g) := by
  unfold State.showEnc
  exact h.wr.wr.wr.wr.wr.wr

/-- The state with which a result goes on, whether it is an error or not. -/
abbrev resultState {α : Type} : Except (State × α) State → State
  | .ok t => t
  | .error e => e.1

theorem Keeps.encTake {d c g} (h : Keeps r s) : Keeps r (resultState (s.encTake d c g)) := by
  have h1 : Keeps r (s.placeChannel d c).1 := h.placeChannel
  unfold State.encTake
  extract_lets q
  generalize s.placeChannel d c = p at h1 ⊢
  obtain ⟨s1, ok⟩ := p
  split
  · exact h
  dsimp -zeta only
  split
  · exact h1
  extract_lets ent
  have hent : ∀ s2, ent = some s2 → Keeps r s2 := by
    intro s2 e2
    dsimp only [ent] at e2
    split at e2
    · obtain ⟨_, _, rfl⟩ := Option.map_eq_some_iff.mp e2
      exact h1.setEntropy
    · cases e2
      exact h1
  clear_value ent
  split
  · exact h
  · split
    · exact h
    · exact .allocStores ‹_› (hent _ rfl)

theorem Keeps.encCheck {d c} (h : Keeps r s) : Keeps r (s.encCheck d c).1 := by
  unfold State.encCheck
  extract_lets g
  have ht : Keeps r (resultState (s.encTake d c g)) := h.encTake
  split
  · exact h.encReject
  · split
    · exact h.rcReject
    · generalize s.encTake d c g = x at ht ⊢
      split
      · with_reducible exact .memRefuse (.encReject ht)
      · with_reducible exact .encReject ht
      · with_reducible exact .showEnc ht

theorem Keeps.encLate {d c late} (h : Keeps r s) : Keeps r (s.encLate d c late) :=
  .ite h.setBit.raise h

theorem Keeps.encCommit {d c t} (h : Keeps r s) : Keeps r (s.encCommit d c t).1 := by
  obtain ⟨R, hR⟩ : ∃ R, R = @routeLanding := ⟨_, rfl⟩
  unfold State.encCommit
  rw [← hR]
  split
  · exact .fst ‹_› h.encCheck
  · rename_i s1 _ e1
    have h1 : Keeps r s1 := .fst e1 h.encCheck
    extract_lets
    split
    exact .ans (.replaceBorrowers (.encLate (.setBit h1.updEnc)))

theorem KeepsOut.encChCommit {d ch} (h : Keeps r s) : KeepsOut r (execEncChCommit d ch s) := by
  unfold execEncChCommit
  exact .when h (.mirror (fun _ _ _ h => .ite h.encCommit h) h)

theorem Keeps.encControl {d c start t} (h : Keeps r s) : Keeps r (s.encControl d c start t) := by
  have e : @State.encControl = @State.encControl := rfl
  conv at e => rhs; delta State.encControl
  rw [e]
  beta_reduce
  extract_lets
  split
  exact .encLate (.setEncState h.updEnc)

theorem Keeps.encControlOn {d c start t} (h : Keeps r s) : Keeps r (s.encControlOn d c start t) :=
  .ite h.ans (.ite h.ans h.wr.encControl)

theorem Keeps.encControlWrite {d c start} (h : Keeps r s) : Keeps r (s.encControlWrite d c start) :=
  .mirror (fun _ _ _ h => h.encControlOn) h

theorem KeepsOut.encChStart {d ch} (h : Keeps r s) : KeepsOut r (execEncChStart d ch s) :=
  .when h h.encControlWrite

theorem KeepsOut.encChStop {d ch} (h : Keeps r s) : KeepsOut r (execEncChStop d ch s) :=
  .when h h.encControlWrite

theorem Keeps.encPlaceAll {d l} (h : Keeps r s) : Keeps r (s.encPlaceAll d l).1 := by
  refine .foldl_fst (fun u c h => ?_) h
  have h1 : Keeps r (u.1.encCheck d c).1 := h.encCheck
  generalize u.1.encCheck d c = p at h1 ⊢
  obtain ⟨s1, _ | g⟩ := p
  · exact h1
  · with_reducible exact h1.updEnc

theorem Keeps.encClear {d} (h : Keeps r s) : Keeps r (s.encClear d) := by
  unfold State.encClear
  exact .refreshEntropy (.refreshEngines (.updMd (.foldl (fun _ _ h => .ite h.wr.wr.freeStores h) h)))

/-! ### Pictures of an encode channel -/

theorem Keeps.updPic {d c num f} (h : Keeps r s) : Keeps r (s.updPic d c num f) :=
  h.updEnc

theorem Keeps.updRow {d c num r' f} (h : Keeps r s) : Keeps r (s.updRow d c num r' f) :=
  h.updPic

theorem Keeps.encEnded {d c cause} (h : Keeps r s) : Keeps r (s.encEnded d c cause) := by
  unfold State.encEnded
  exact .raise (.ite h.updEnc.setEncState.updEnc h.updEnc)

theorem Keeps.encStartLands {d c} (h : Keeps r s) : Keeps r (s.encStartLands d c) := by
  unfold State.encStartLands
  split
  · exact h
  · exact h.updEnc.wr.setEncState.raise

theorem Keeps.encStopLands {d c} (h : Keeps r s) : Keeps r (s.encStopLands d c) := by
  unfold State.encStopLands
  extract_lets
  split
  · exact h.updEnc.encEnded
  · exact h.updEnc.updEnc.updPic

theorem KeepsOut.channelControlLanding {d ch} (h : Keeps r s) : KeepsOut r (execChannelControlLanding d ch s) := by
  unfold execChannelControlLanding
  extract_lets
  split
  · exact .next h
  · exact .when h (.ite h.encStartLands h.encStopLands)

theorem KeepsOut.encConfigApply {d ch} (h : Keeps r s) : KeepsOut r (execEncConfigApply d ch s) := by
  unfold execEncConfigApply
  extract_lets
  split
  · exact .next h
  · exact .when h h.updEnc.clrBit

theorem Keeps.encBegin {d c num frame field g} (h : Keeps r s) : Keeps r (s.encBegin d c num frame field g) := by
  unfold State.encBegin
  exact h.updEnc

theorem Keeps.encStore {d c num r' img} (h : Keeps r s) : Keeps r (s.encStore d c num r' img) := by
  unfold State.encStore
  extract_lets
  split
  extract_lets s1
  have h1 : Keeps r s1 := h.updPic
  split
  · split
    · exact h1.updEnc
    · exact h1
  · exact h1

theorem Keeps.liveRow {d c g x} (h : Keeps r s) : Keeps r (s.liveRow d c g x) := by
  unfold State.liveRow
  extract_lets
  split
  extract_lets s1
  have h1 : Keeps r s1 := .ite h.encBegin h
  split
  · exact h1
  · split
    · exact h1
    · split
      · exact h1
      · split
        exact h1.putBit.encStore

theorem Keeps.deferRow {d c g} (h : Keeps r s) : Keeps r (s.deferRow d c g) := by
  unfold State.deferRow
  extract_lets _ _ s1
  have h1 : Keeps r s1 := .ite h.encBegin h
  split
  · exact h
  · split
    · exact h
    · split
      · exact h1
      · exact .ite h1.encStore.updEnc.wr h1.encStore

theorem KeepsOut.sourceRowEnd {d ch} (h : Keeps r s) : KeepsOut r (execSourceRowEnd d ch s) := by
  unfold execSourceRowEnd
  extract_lets
  split
  · exact .next h
  · refine .when h ?_
    split
    · split
      · exact h
      · exact h.liveRow
    · exact h.deferRow

theorem Keeps.encPoison {d c kind} (h : Keeps r s) : Keeps r (s.encPoison d c kind) := by
  unfold State.encPoison
  exact .raise (.bump (.setBit (.ite h.updEnc h)))

theorem Keeps.encTimeStep {d c step} (h : Keeps r s) : Keeps r (s.encTimeStep d c step) := by
  unfold State.encTimeStep
  exact .ite h (.raise (.bump (.setBit (.updEnc (.foldl (fun _ _ h => .updPic
    (.foldl (fun _ _ h => .ite h h.encStore) h)) h)))))

theorem Keeps.motionRow {d c p r' reached lvl} (h : Keeps r s) : Keeps r (s.motionRow d c p r' reached lvl) := by
  unfold State.motionRow
  extract_lets
  split
  exact .ite h.updEnc.updRow.addCount.wr h.updEnc.updRow.addCount

theorem Keeps.channelMotion {d c num r'} (h : Keeps r s) : Keeps r (s.channelMotion d c num r') := by
  unfold State.channelMotion
  split
  · exact h
  · exact .ite h.motionRow h

theorem Keeps.borrowedRow {d n pic r' reached lvl} (h : Keeps r s) :
    Keeps r (s.borrowedRow d n pic r' reached lvl) := by
  unfold State.borrowedRow
  extract_lets
  split
  · split
    extract_lets
    split
    split
    exact h.updChain
  · exact h

theorem Keeps.borrowedMotion {d m pic r'} (h : Keeps r s) : Keeps r (s.borrowedMotion d m pic r') := by
  unfold State.borrowedMotion
  split
  · exact h
  · exact .ite h.borrowedRow h

theorem KeepsOut.motionJobComplete {d conv n pic row} (h : Keeps r s) :
    KeepsOut r (execMotionJobComplete d conv n pic row s) :=
  .when h (.ite h.borrowedMotion h.channelMotion)

theorem KeepsOut.borrowedJobRelease {d conv row} (h : Keeps r s) :
    KeepsOut r (execBorrowedJobRelease d conv row s) := by
  unfold execBorrowedJobRelease
  split
  · exact .next h
  · extract_lets
    split
    · exact .next h
    · exact .when h h.updChain

theorem KeepsOut.borrowedJobDeadline {d conv row reached lvl} (h : Keeps r s) :
    KeepsOut r (execBorrowedJobDeadline d conv row reached lvl s) := by
  unfold execBorrowedJobDeadline
  split
  · exact .next h
  · split
    · exact .next h
    · exact .when h h.borrowedRow.setBit.bump.raise

/-! ### Coding -/

theorem Keeps.refreshRcStatus {d c} (h : Keeps r s) : Keeps r (s.refreshRcStatus d c) := by
  unfold State.refreshRcStatus
  exact h.putBit

theorem Keeps.recovMapStart {d c} (h : Keeps r s) : Keeps r (s.recovMapStart d c) := by
  unfold State.recovMapStart
  exact h.updEnc.setBit.setBit.refreshRcStatus.raise

theorem Keeps.recovMapEnd {d c n} (h : Keeps r s) : Keeps r (s.recovMapEnd d c n) := by
  unfold State.recovMapEnd
  exact h.updEnc.clrBit.setBit.refreshRcStatus.raise

theorem Keeps.picStart {d c p} (h : Keeps r s) : Keeps r (s.picStart d c p) := by
  unfold State.picStart
  extract_lets
  split
  extract_lets _ _ _ _ _ s4
  have h4 : Keeps r s4 := .ite h.updPic.updEnc.clrBit.bump.wr.raise h.updPic.updEnc
  exact .ite h4.clrBit.raise h4

theorem Keeps.picBudget {d c p} (h : Keeps r s) : Keeps r (s.picBudget d c p) := by
  unfold State.picBudget
  extract_lets _ _ _ _ s2
  have h2 : Keeps r s2 := .wr (.updPic (.ite h.updEnc h))
  split
  · exact .ite h2.recovMapEnd h2
  · exact h2

theorem Keeps.scrimReport {d c p r' old st} (h : Keeps r s) : Keeps r (s.scrimReport d c p r' old st) := by
  unfold State.scrimReport
  extract_lets _ _ _ s2 _ s4
  have h2 : Keeps r s2 := h.addCount.setBit.setBit.setBit
  have h4 : Keeps r s4 := by
    dsimp only [s4]
    split
    · exact .ite h2.bump h2.bump.raise
    · exact h.addCount
  split
  · exact h4
  · exact .ite h4.addCount.setBit h4.addCount.setBit.raise

theorem Keeps.codeRow {d c p r' q ctus force} (h : Keeps r s) : Keeps r (s.codeRow d c p r' q ctus force) := by
  unfold State.codeRow
  exact h.updPic.updEnc.scrimReport

theorem Keeps.boltAccount {d c num r'} (h : Keeps r s) : Keeps r (s.boltAccount d c num r') :=
  h.updEnc

theorem Keeps.picQpDone {d c num} (h : Keeps r s) : Keeps r (s.picQpDone d c num) := by
  unfold State.picQpDone
  split
  · exact h
  · exact .ite h.updEnc.wr h.updEnc.wr.clrBit

theorem Keeps.pixelJob {d c num r' ctus} (h : Keeps r s) : Keeps r (s.pixelJob d c num r' ctus) := by
  unfold State.pixelJob
  split
  · exact h
  · extract_lets _ s2 s3
    have h2 : Keeps r s2 := .boltAccount (.ite h.picStart h)
    have h3 : Keeps r s3 := by
      dsimp only [s3]
      split
      · exact .ite h2.picBudget h2
      · exact h2
    split
    · exact h
    · split
      · exact h3
      · exact .ite h3.codeRow.picQpDone h3.codeRow

theorem KeepsOut.pixelJobStart {d ch pic row ctus} (h : Keeps r s) :
    KeepsOut r (execPixelJobStart d ch pic row ctus s) :=
  .when h h.pixelJob

theorem Keeps.windowMissed {d c num stage r'} (h : Keeps r s) : Keeps r (s.windowMissed d c num stage r') := by
  unfold State.windowMissed
  exact h.updPic.setBit.bump.raise

theorem KeepsOut.stageWindowMiss {d ch stage pic row reached lvl} (h : Keeps r s) :
    KeepsOut r (execStageWindowMiss d ch stage pic row reached lvl s) := by
  unfold execStageWindowMiss
  extract_lets
  split
  · exact .next h
  · split
    · exact .next h
    · extract_lets s2
      have h2 : Keeps r s2 := by
        dsimp only [s2]
        split
        · exact h.updRow.codeRow
        · exact h.updRow
      exact .ite (.when h h.motionRow.windowMissed) (.ite (.when h h2.windowMissed) (.next h))

theorem Keeps.keyRequest {d c t} (h : Keeps r s) : Keeps r (s.keyRequest d c t) :=
  .ite h.bump h.updEnc.setBit

theorem KeepsOut.rcKeyRequest {d ch} (h : Keeps r s) : KeepsOut r (execRcKeyRequest d ch s) := by
  unfold execRcKeyRequest
  exact .when h (.mirror (fun _ _ _ h => .ite h.keyRequest.ans h.ans) h)

theorem Keeps.seiSend {d c t} (h : Keeps r s) : Keeps r (s.seiSend d c t) :=
  h.updEnc.setBit

theorem KeepsOut.entChSeiUserSend {d ch} (h : Keeps r s) : KeepsOut r (execEntChSeiUserSend d ch s) :=
  .when h (.mirror (fun _ _ _ h => h.seiSend.ans) h)

theorem KeepsOut.rcGzMapDataWrite {d ch data} (h : Keeps r s) : KeepsOut r (execRcGzMapDataWrite d ch data s) := by
  unfold execRcGzMapDataWrite
  exact .when h (.mirror (fun _ _ _ h => .ite h.ans (.ite h.ans h.updEnc.wr.ans)) h)

theorem KeepsOut.encDeferDataWrite {d ch data} (h : Keeps r s) : KeepsOut r (execEncDeferDataWrite d ch data s) := by
  unfold execEncDeferDataWrite
  exact .when h (.mirror (fun _ _ _ h => .ite h.ans h.updEnc.ans) h)

theorem KeepsOut.encDeferPush {d ch} (h : Keeps r s) : KeepsOut r (execEncDeferPush d ch s) := by
  unfold execEncDeferPush
  extract_lets
  split
  split
  exact .when h (.mirror (fun _ _ _ h => .ite h.ans (.ite h.ans h.updEnc.wr.ans)) h)

/-! ### What an encode channel sends -/

theorem KeepsOut.entropyJobComplete {d ch pic row tile data crcLuma crcChroma} (h : Keeps r s) :
    KeepsOut r (execEntropyJobComplete d ch pic row tile data crcLuma crcChroma s) := by
  unfold execEntropyJobComplete
  extract_lets
  split
  · exact .when h (.ite h.updRow.updEnc h.updRow)
  · exact .next h

theorem Keeps.hrdUpdate {d c p} (h : Keeps r s) : Keeps r (s.hrdUpdate d c p) := by
  unfold State.hrdUpdate
  extract_lets
  split
  exact h.updPic.updEnc.wr.addCount.bump.putBit

theorem KeepsOut.pictureHrdUpdate {d ch} (h : Keeps r s) : KeepsOut r (execPictureHrdUpdate d ch s) := by
  unfold execPictureHrdUpdate
  extract_lets
  split
  · exact .next h
  · exact .when h h.hrdUpdate

theorem Keeps.rtpRow {d f g p k r'} (h : Keeps r s) : Keeps r (s.rtpRow d f g p k r') := by
  unfold State.rtpRow
  exact .foldl (fun _ _ h => h.emit) h

theorem Keeps.takeCc {d c f pid n} (h : Keeps r s) : Keeps r (s.takeCc d c f pid n).2 := by
  unfold State.takeCc
  dsimp only
  exact h.updEnc

theorem Keeps.tsSend {d f t27 l} (h : Keeps r s) : Keeps r (s.tsSend d f t27 l) :=
  .foldl (fun _ _ h => h.emit) h

theorem Keeps.tsPsi {d c f t27 vvc due} (h : Keeps r s) : Keeps r (s.tsPsi d c f t27 vvc due) := by
  unfold State.tsPsi
  exact .ite h h.takeCc.takeCc.updEnc.tsSend

theorem Keeps.tsRow {d c f g p k r' t27} (h : Keeps r s) : Keeps r (s.tsRow d c f g p k r' t27) := by
  unfold State.tsRow
  exact h.tsPsi.takeCc.tsSend

theorem Keeps.rowOut {d c p k r' t27} (h : Keeps r s) : Keeps r (s.rowOut d c p k r' t27) := by
  unfold State.rowOut
  extract_lets _ s1
  have h1 : Keeps r s1 := .foldl (fun _ _ h => .ite h.tsRow h.rtpRow) h
  exact .ite h1.updEnc h1

theorem Keeps.rowDone {d c p k} (h : Keeps r s) : Keeps r (s.rowDone d c p k) := by
  unfold State.rowDone
  extract_lets _ _ s2
  have h2 : Keeps r s2 := .ite h.updRow.setRecov h.updRow
  exact .ite (.ite h2.updEnc.encEnded h2.updEnc) h2

theorem KeepsOut.rowPacketRelease {d ch pic row} (h : Keeps r s) :
    KeepsOut r (execRowPacketRelease d ch pic row s) := by
  unfold execRowPacketRelease
  extract_lets
  split
  · exact .when h (.rowDone (.rowOut (.ite h.clrBit h)))
  · exact .next h

theorem KeepsOut.lateRowRelease {d ch pic row} (h : Keeps r s) : KeepsOut r (execLateRowRelease d ch pic row s) := by
  unfold execLateRowRelease
  extract_lets
  split
  · exact .when h (.rowDone (.rowOut (.ite h.setBit.setBit.bump.setBit.bump h.setBit.setBit.bump.setBit.bump.raise)))
  · exact .next h

theorem Keeps.encCut {d c} (h : Keeps r s) : Keeps r (s.encCut d c) := by
  unfold State.encCut
  exact .updEnc (.foldl (fun _ _ h => .ite h.setBit.raise h) h)

theorem Keeps.encRestart {d c} (h : Keeps r s) : Keeps r (s.encRestart d c) := by
  unfold State.encRestart
  split
  · exact h
  · exact .setEncState (.ite h.updEnc.wr.recovMapStart h.updEnc.wr)

theorem Keeps.encStopCapacity {d c} (h : Keeps r s) : Keeps r (s.encStopCapacity d c) := by
  unfold State.encStopCapacity
  exact h.encCut.updEnc.wr.refreshEngines.setEntropy.setRecov.setEncState.setBit.setBit.raise

theorem Keeps.borrowersFollow {d} (h : Keeps r s) : Keeps r (s.borrowersFollow d) :=
  .ite h.replaceBorrowers h

theorem KeepsOut.channelReplacement {d ch} (h : Keeps r s) : KeepsOut r (execChannelReplacement d ch s) := by
  unfold execChannelReplacement
  extract_lets _ _ s1 s2
  have h1 : Keeps r s1 := by
    dsimp only [s1]
    split
    · exact h.wr.refreshEngines
    · exact h
  have h2 : Keeps r s2 := by
    dsimp only [s2]
    split
    · exact h1.setEntropy
    · exact h1
  exact .when h (.borrowersFollow (.ite h.encStopCapacity (.ite h2.updEnc.encRestart h2.updEnc)))

/-! ### Frame rate conversion -/

theorem KeepsOut.dstSwitchLine {d dst} (h : Keeps r s) : KeepsOut r (execDstSwitchLine d dst s) := by
  unfold execDstSwitchLine
  exact .when h (.ite h.dstSwitchLine.chainInput h.dstSwitchLine)

theorem Keeps.storePicture {d n g frame} (h : Keeps r s) : Keeps r (s.storePicture d n g frame) := by
  unfold State.storePicture
  extract_lets
  split
  exact .updChain (.ite h.clrBit h)

theorem Keeps.frcFallback {d m blocks} (h : Keeps r s) : Keeps r (s.frcFallback d m blocks) := by
  unfold State.frcFallback
  extract_lets _ s1
  have h1 : Keeps r s1 := h.bump.setBit.setBit
  exact .ite h1 h1.raise

theorem Keeps.frcMissing {d n m g k frame} (h : Keeps r s) : Keeps r (s.frcMissing d n m g k frame) := by
  unfold State.frcMissing
  extract_lets
  split
  extract_lets _ s2
  have h2 : Keeps r s2 := .ite h.updChain.clrBit h.updChain
  exact .ite h2.setBit.bump.raise h2

theorem Keeps.frcBlend {d n m g k ph frame pa pb} (h : Keeps r s) : Keeps r (s.frcBlend d n m g k ph frame pa pb) := by
  unfold State.frcBlend
  extract_lets
  split
  extract_lets _ _ _ _ _ _ s2
  have h2 : Keeps r s2 := .ite h.updChain.clrBit.setBit.raise h.updChain.clrBit
  exact .ite h2.frcFallback h2.clrBit

theorem KeepsOut.frcOutputPicture {d chain} (h : Keeps r s) : KeepsOut r (execFrcOutputPicture d chain s) := by
  unfold execFrcOutputPicture
  extract_lets
  split
  · exact .next h
  · refine .when h ?_
    split
    · exact h.storePicture
    · split
      extract_lets
      split
      · exact h.frcBlend
      · exact h.frcMissing

/-! ### Decoders -/

theorem Keeps.updDec {d n f} (h : Keeps r s) : Keeps r (s.updDec d n f) :=
  h.updMd

theorem Keeps.setDecState {d n st} (h : Keeps r s) : Keeps r (s.setDecState d n st) :=
  h.wr.putBit

theorem Keeps.decPush {d n r'} (h : Keeps r s) : Keeps r (s.decPush d n r') :=
  .ite h.updDec h

theorem Keeps.refreshCpb {d n} (h : Keeps r s) : Keeps r (s.refreshCpb d n) :=
  h.wr

theorem Keeps.decDiscard {d n} (h : Keeps r s) : Keeps r (s.decDiscard d n) :=
  h.bump

theorem Keeps.storeAu {d n ts nals} (h : Keeps r s) : Keeps r (s.storeAu d n ts nals) := by
  unfold State.storeAu
  exact .ite h.decDiscard (.ite (.ite h.setBit.decDiscard h.setBit.decDiscard.raise) h.updDec.refreshCpb)

theorem KeepsOut.decoderAccessUnit {d ctx} (h : Keeps r s) : KeepsOut r (execDecoderAccessUnit d ctx s) := by
  unfold execDecoderAccessUnit
  extract_lets
  split
  · exact .next h
  · extract_lets
    split
    · exact .next h
    · split
      · split
        · exact .next h
        · exact .next h.updDec.storeAu
      · split
        · exact .next h
        · exact .next h.updDec.storeAu

theorem Keeps.noteConcealed {d n c} (h : Keeps r s) : Keeps r (s.noteConcealed d n c) :=
  h.putBit

theorem Keeps.checkVui {d n p} (h : Keeps r s) : Keeps r (s.checkVui d n p) := by
  unfold State.checkVui
  extract_lets
  split
  · exact h
  · exact .ite h.clrBit (.ite h.setBit.setBit h.setBit.setBit.raise)

theorem Keeps.decFrame {d port ts pix} (h : Keeps r s) : Keeps r (s.decFrame d port ts pix) := by
  unfold State.decFrame
  refine .foldl (fun _ _ h => ?_) h.fsyInput
  split
  · exact h
  · exact h.fsyStartFrame.updFsy.fsyComplete

theorem Keeps.decDefer {d n c p w h'} (h : Keeps r s) : Keeps r (s.decDefer d n c p w h') := by
  unfold State.decDefer
  exact .ite h.updEnc.wr.setBit h.updEnc.wr

theorem Keeps.decOutFrame {d n pix} (h : Keeps r s) : Keeps r (s.decOutFrame d n pix) := by
  unfold State.decOutFrame
  split
  have h1 : Keeps r (s.free 32).2 := h.free
  exact .ite h1.decFrame h1

theorem Keeps.decLoneField {d n p} (h : Keeps r s) : Keeps r (s.decLoneField d n p) := by
  unfold State.decLoneField
  extract_lets
  split
  exact .decOutFrame (.noteConcealed (.updDec (.ite h h.bump.updDec)))

theorem Keeps.decEmit {d n p} (h : Keeps r s) : Keeps r (s.decEmit d n p) := by
  unfold State.decEmit
  extract_lets _ _ _ s3
  have h3 : Keeps r s3 := h.checkVui.bump.updDec.noteConcealed
  split
  extract_lets
  split
  split
  · exact h3.decDefer
  · split
    · exact h3.decOutFrame
    · split
      · exact h3.updDec
      · exact .ite h3.decLoneField.updDec h3.updDec.noteConcealed.decOutFrame

theorem Keeps.decFlush {d n k} (h : Keeps r s) : Keeps r (s.decFlush d n k) := by
  induction k generalizing s with
  | zero => exact h
  | succ k ih =>
    unfold State.decFlush
    split
    · exact h
    · exact ih h.updDec.decEmit

theorem Keeps.decMakeRoom {d n size k} (h : Keeps r s) : Keeps r (s.decMakeRoom d n size k) := by
  induction k generalizing s with
  | zero => exact h
  | succ k ih =>
    unfold State.decMakeRoom
    split
    · exact h
    · exact .ite h (ih h.updDec.decEmit)

theorem KeepsOut.decoderPictureOutput {d ctx} (h : Keeps r s) : KeepsOut r (execDecoderPictureOutput d ctx s) := by
  unfold execDecoderPictureOutput
  extract_lets
  split
  · exact .next h
  · exact .when h h.updDec.decEmit

theorem KeepsOut.deferQueueResume {d ctx} (h : Keeps r s) : KeepsOut r (execDeferQueueResume d ctx s) := by
  unfold execDeferQueueResume
  exact .when h h.clrBit

theorem Keeps.decWait {d n} (h : Keeps r s) : Keeps r (s.decWait d n) := by
  unfold State.decWait
  exact h.updDec.setDecState

theorem Keeps.decUnsupported {d n reason} (h : Keeps r s) : Keeps r (s.decUnsupported d n reason) :=
  h.decWait.setBit.raise

theorem Keeps.decSubst {d n k} (h : Keeps r s) : Keeps r (s.decSubst d n k) := by
  unfold State.decSubst
  exact .ite h (.ite h.addCount.setBit.updDec h.addCount.setBit.updDec.raise)

theorem Keeps.decReplace {d n k reason} (h : Keeps r s) : Keeps r (s.decReplace d n k reason) := by
  unfold State.decReplace
  exact .ite h (.ite h.addCount.setBit.updDec h.addCount.setBit.updDec.raise)

theorem Keeps.concealEnd {d n} (h : Keeps r s) : Keeps r (s.concealEnd d n) := by
  unfold State.concealEnd
  exact .ite h h.updDec.raise

theorem Keeps.decodePicture {d n i sp} (h : Keeps r s) : Keeps r (s.decodePicture d n i sp) := by
  unfold State.decodePicture
  extract_lets s1 _ _ _ _ _ _ s3
  have h1 : Keeps r s1 := .ite h.updDec h
  have h3 : Keeps r s3 := .ite h1.decSubst.decReplace.concealEnd h1.decSubst.decReplace
  exact .updDec (.decMakeRoom (.updDec (.ite h3.bump.updDec h3)))

theorem Keeps.decDecide {d n ts} (h : Keeps r s) : Keeps r (s.decDecide d n ts) := by
  unfold State.decDecide
  split
  · exact h.tellDecision
  · split
    · exact .ite h.dropDecision h.dropDecision.decisionMissed
    · exact h.decisionMissed

theorem Keeps.decodeAu {d n ts i} (h : Keeps r s) : Keeps r (s.decodeAu d n ts i) := by
  unfold State.decodeAu
  extract_lets s1 fault _ s2 _ s4 s5
  have h1 : Keeps r s1 := h.addCount
  have h2 : Keeps r s2 := .ite h1.decDecide h1
  have h4 : Keeps r s4 := .ite h2.updDec.setDecState.raise (.ite h2.updDec h2)
  have h5 : Keeps r s5 := by
    dsimp only [s5]
    split
    · exact h4.updDec.wr
    · exact h4
  dsimp only [fault]
  split
  · exact h1.decDiscard.decUnsupported
  · split
    · exact h1.decDiscard
    · split
      · exact h1.decDiscard
      · split
        · exact h5.decDiscard
        · split
          · exact h5.decDiscard
          · exact h5.decodePicture

theorem KeepsOut.decodeAccessUnit {d info} (h : Keeps r s) : KeepsOut r (execDecodeAccessUnit d info s) := by
  unfold execDecodeAccessUnit
  split
  · exact .next h
  · exact .next h.updDec.refreshCpb.decodeAu

theorem Keeps.decRestart {d n} (h : Keeps r s) : Keeps r (s.decRestart d n) :=
  .ite h h.updDec.decWait.refreshCpb

theorem KeepsOut.decCtxRestart {d ctx} (h : Keeps r s) : KeepsOut r (execDecCtxRestart d ctx s) :=
  .when h (.mirror (fun _ _ _ h => h.decRestart.ans) h)

theorem Keeps.decStop {d n cause} (h : Keeps r s) : Keeps r (s.decStop d n cause) := by
  unfold State.decStop
  extract_lets _ s2
  have h2 : Keeps r s2 := h.decFlush.decWait.setDecState.setBit
  split
  exact .ite h2.raise.fsyInput h2.raise

theorem KeepsOut.decoderNoOutputTimeout {d ctx} (h : Keeps r s) : KeepsOut r (execDecoderNoOutputTimeout d ctx s) := by
  unfold execDecoderNoOutputTimeout
  exact .when h h.decStop

theorem Keeps.decFlowDown {d f} (h : Keeps r s) : Keeps r (s.decFlowDown d f) :=
  .foldl (fun _ _ h => .ite h.decStop h) h

theorem Keeps.decTaint {d n} (h : Keeps r s) : Keeps r (s.decTaint d n) := by
  unfold State.decTaint
  split
  · exact h
  · exact .ite h h.bump.updDec

theorem Keeps.decPoison {d n} (h : Keeps r s) : Keeps r (s.decPoison d n) :=
  .ite h.decReplace.decTaint h

theorem Keeps.decIdle {d n} (h : Keeps r s) : Keeps r (s.decIdle d n) := by
  unfold State.decIdle
  exact h.updDec.setDecState.wr.refreshCpb

theorem Keeps.decReject {d n reason} (h : Keeps r s) : Keeps r (s.decReject d n reason) := by
  unfold State.decReject
  exact h.setBit.bump.setBit.wr.raise

theorem Keeps.decLeaveConfigure {d} (h : Keeps r s) : Keeps r (s.decLeaveConfigure d).1 := by
  obtain ⟨R, hR⟩ : ∃ R, R = @State.decStores := ⟨_, rfl⟩
  unfold State.decLeaveConfigure
  rw [← hR]
  extract_lets s1
  have h1 : Keeps r s1 := .wr (.foldl (fun _ _ h => h.decIdle) h)
  refine .foldl_fst (fun _ _ h => ?_) h1
  extract_lets s2
  split
  · exact h.decReject
  · split
    split
    · exact h.decReject.memRefuse
    · exact .decRestart (.wr (.allocStores ‹_› h))

/-! ### Ingress -/

theorem Keeps.flowInput {d f lost} (h : Keeps r s) : Keeps r (s.flowInput d f lost) := by
  unfold State.flowInput
  exact .ite h.fsyInput h

theorem Keeps.takePacket {d f leg u} (h : Keeps r s) : Keeps r (s.takePacket d f leg u) := by
  unfold State.takePacket
  extract_lets
  split
  extract_lets s1
  have h1 : Keeps r s1 := .ite (.fst (by assumption) h.merge) (.flowInput (.fst (by assumption) h.merge))
  split
  · exact h1
  · exact h1
  · exact .ite h1.queueIngress.audPacket h1.queueIngress

theorem KeepsOut.mediaPacketReceived {d port} (h : Keeps r s) : KeepsOut r (execMediaPacketReceived d port s) := by
  unfold execMediaPacketReceived
  split
  · exact .next h
  · exact .when h h.updPort.takePacket

theorem KeepsOut.legTimeout {d flow leg} (h : Keeps r s) : KeepsOut r (execLegTimeout d flow leg s) := by
  unfold execLegTimeout
  exact .when h (.ite h.legDown.flowInput.decFlowDown h.legDown)

theorem KeepsOut.flowSwitchLine {d flow} (h : Keeps r s) : KeepsOut r (execFlowSwitchLine d flow s) := by
  unfold execFlowSwitchLine
  exact .when h h.completeFrame

theorem Keeps.pushVideo {d f k np rows} (h : Keeps r s) : Keeps r (s.pushVideo d f k np rows) := by
  unfold State.pushVideo
  exact h.emit

theorem Keeps.pushAnc {d f} (h : Keeps r s) : Keeps r (s.pushAnc d f) := by
  unfold State.pushAnc
  exact .foldl (fun _ _ h => h.emit) h

theorem Keeps.setBolt {d c n} (h : Keeps r s) : Keeps r (s.setBolt d c n) :=
  h.wr.watermark

theorem KeepsOut.queuePush {d p} (h : Keeps r s) : KeepsOut r (execQueuePush d p s) := by
  unfold execQueuePush
  split
  · exact .when h h.pushVideo
  · exact .when h h.pushAnc
  · exact .when h h.setBolt

theorem Keeps.depart {d p} (h : Keeps r s) : Keeps r (s.depart d p) := by
  unfold State.depart
  extract_lets
  split
  · exact .ite h (.ite h.depacketize h.fsyWrite)
  · exact .ite h h.takeAnc
  · exact h
  · exact h
  · exact h
  · exact .ite h.decPoison h.decPush

theorem Keeps.popCell {d q bad} (h : Keeps r s) : Keeps r (s.popCell d q bad) := by
  unfold State.popCell
  split
  · exact h
  · exact .ite h.popWords.updQueue.setDepth.depart h.popWords.updQueue.setDepth

theorem Keeps.popAudio {d p input bad} (h : Keeps r s) : Keeps r (s.popAudio d p input bad) := by
  unfold State.popAudio
  extract_lets
  split
  · exact h
  · split
    · exact h
    · exact .foldl (fun _ _ h => h.parityError) h.updMd

theorem KeepsOut.queuePop {d p} (h : Keeps r s) : KeepsOut r (execQueuePop d p s) := by
  unfold execQueuePop
  split
  · exact .when h h.popCell
  · exact .when h h.popAudio
  · exact .when h h.setBolt

/-! ### Recovery -/

theorem Keeps.enterMode {m} (h : Keeps r s) : Keeps r (s.enterMode m) := by
  unfold State.enterMode
  exact h.setMode.wr.raise

theorem Keeps.recoveryFault {d code} (h : Keeps r s) : Keeps r (s.recoveryFault d code) := by
  unfold State.recoveryFault
  exact h.setRecov

theorem Keeps.goOut {d} (h : Keeps r s) : Keeps r (s.goOut d) := by
  unfold State.goOut
  exact .ite h h.send.updSlv.wr.raise

theorem Keeps.makeAbsent {d cause} (h : Keeps r s) : Keeps r (s.makeAbsent d cause) := by
  unfold State.makeAbsent
  exact .raise (.clrBit (.wr (.setRecov (.updPower (.foldl (fun _ _ h => .ite h h.setSection) h.fabricReset)))))

theorem Keeps.updChan {d c f} (h : Keeps r s) : Keeps r (s.updChan d c f) :=
  h.updMd

theorem Keeps.restartStreams {d} (h : Keeps r s) : Keeps r (s.restartStreams d) := by
  unfold State.restartStreams
  exact .foldl (fun _ _ h => h.decRestart) (.setRecov (.foldl (fun _ _ h => h.encCut.setEncState.updEnc) h))

theorem Keeps.startActions {d restart} (h : Keeps r s) : Keeps r (s.startActions d restart) := by
  unfold State.startActions
  extract_lets _ _ _ s2
  have h2 : Keeps r s2 := .foldl (fun _ _ h => h.wr) h.setRecov
  exact .ite h2.restartStreams h2

theorem Keeps.enterRecovery {d code} (h : Keeps r s) : Keeps r (s.enterRecovery d code) := by
  unfold State.enterRecovery
  exact .ite h.wr.startActions h.setRecov.wr.wr.setBit.bump.setBit.enterMode.raise.startActions

theorem Keeps.takeFault {d code} (h : Keeps r s) : Keeps r (s.takeFault d code) := by
  unfold State.takeFault
  split
  · exact .ite h.startActions h.enterRecovery
  · exact .ite h.startActions h.enterRecovery
  · exact h.raise.startActions
  · exact .ite h.startActions (.ite h.enterRecovery h.goOut.startActions)
  · exact h.startActions

theorem KeepsOut.recoveryEntry (h : Keeps r s) : KeepsOut r (execRecoveryEntry s) := by
  unfold execRecoveryEntry
  extract_lets
  split
  · exact .next h
  · exact .when h h.setRecov.takeFault

theorem Keeps.stopStreams {d t} (h : Keeps r s) : Keeps r (s.stopStreams d t) := by
  unfold State.stopStreams
  exact .foldl (fun _ _ h => h.decRestart) (.foldl (fun _ _ h => h.flowControl) (.foldl (fun _ _ h => h.encControl) h))

theorem Keeps.beginStop {m t} (h : Keeps r s) : Keeps r (s.beginStop m t) := by
  unfold State.beginStop
  exact .foldl (fun _ _ h => .ite h.stopStreams h) h.setTrans.wr.setBit

theorem KeepsOut.recoveryEnd (h : Keeps r s) : KeepsOut r (execRecoveryEnd s) := by
  unfold execRecoveryEnd
  exact .when h (.ite h.item32.clrBit.raise.setRecov.beginStop h.item32.clrBit.raise.enterMode)

theorem Keeps.pairLoss {d e} (h : Keeps r s) : Keeps r (s.pairLoss d e) := by
  unfold State.pairLoss
  extract_lets _ _ _ _ _ _ _ s4
  have h4 : Keeps r s4 := .foldl (fun _ _ h => h.dropBorrower) (.foldl (fun _ _ h => .ite h h.updEnc)
    (.foldl (fun _ _ h => .ite h.encCut h.encCut.setEncState) h.setBit.raise))
  exact .ite h4.updMd.borrowersFollow.recoveryFault h4.updMd.borrowersFollow

theorem KeepsOut.enginePairLoss {d e pix} (h : Keeps r s) : KeepsOut r (execEnginePairLoss d e pix s) := by
  unfold execEnginePairLoss
  exact .when h h.setSection.pairLoss

theorem KeepsOut.entropyEngineStall {d e} (h : Keeps r s) : KeepsOut r (execEntropyEngineStall d e s) := by
  unfold execEntropyEngineStall
  extract_lets _ _ _ _ _ _ _ s4
  have h4 : Keeps r s4 := .foldl (fun _ _ h => h.updEnc) (.foldl (fun _ _ h => .ite h.encCut h.encCut.setEncState)
    h.updMd.setBit.raise)
  exact .when h (.ite h4.recoveryFault h4)

/-! ### The bus and its poison -/

theorem Keeps.surfaceLost {d n layer row col samples since late} (h : Keeps r s) :
    Keeps r (s.surfaceLost d n layer row col samples since late) := by
  unfold State.surfaceLost
  exact .ite h.updCmp.setBit.addCount h.updCmp.setBit.addCount.raise

theorem Keeps.borrowPoison {d n} (h : Keeps r s) : Keeps r (s.borrowPoison d n) :=
  h.setBit.raise

theorem Keeps.poisonUse {d u} (h : Keeps r s) : Keeps r (s.poisonUse d u) := by
  unfold State.poisonUse
  split
  · exact h
  · exact h.fsyPoison
  · exact h.surfaceLost
  · exact h.encPoison
  · exact h.encPoison
  · exact h.borrowPoison
  · exact h.decPoison

theorem Keeps.readUse {d u since poisoned} (h : Keeps r s) : Keeps r (s.readUse d u since poisoned) := by
  unfold State.readUse
  split
  · exact .ite h.surfaceLost (.ite h.poisonUse h)
  · exact .ite h.poisonUse h

theorem Keeps.updBus {d f} (h : Keeps r s) : Keeps r (s.updBus d f) :=
  h.updMd

theorem Keeps.receiveBeats {d m n} (h : Keeps r s) : Keeps r (s.receiveBeats d m n).1 := by
  unfold State.receiveBeats
  extract_lets
  split
  · exact h
  · exact .foldl (fun _ _ h => h.parityError) h.updBus

theorem Keeps.showMaster {d m} (h : Keeps r s) : Keeps r (s.showMaster d m) := by
  unfold State.showMaster
  exact h.wr.wr.putBit.putBit

theorem Keeps.respond {d t} (h : Keeps r s) : Keeps r (s.respond d t) :=
  .ite h h.send

theorem Keeps.deliver {d} (h : Keeps r s) : Keeps r (s.deliver d) := by
  unfold State.deliver
  split
  exact .foldl (fun _ _ h => h.respond.showMaster) h.updBus

theorem Keeps.busPiece {d m id addr data poison} (h : Keeps r s) : Keeps r (s.busPiece d m id addr data poison) := by
  unfold State.busPiece
  exact h.updBus.deliver

/-! ### DRAM -/

theorem Keeps.showCapacity {d} (h : Keeps r s) : Keeps r (s.showCapacity d) :=
  h.wr.refreshMem

theorem Keeps.remap {d} (h : Keeps r s) : Keeps r (s.remap d) := by
  unfold State.remap
  exact h.showCapacity.setBit.raise

/-- A change of a media die's DRAM block that keeps its bytes canonical. -/
theorem Keeps.updRamTo {d f} (h : Keeps r s) (hm : (s.md d).ram.mem.wf = true → (f (s.md d).ram).mem.wf = true) :
    Keeps r (s.updRam d f) :=
  h.updMdTo id hm

/-- A change of a media die's DRAM block that leaves its bytes. -/
theorem Keeps.updRam {d f} (h : Keeps r s) (e : (f (s.md d).ram).mem = (s.md d).ram.mem := by rfl) :
    Keeps r (s.updRam d f) :=
  h.updRamTo (by rw [e]; exact id)

theorem Keeps.showPort {d port} (h : Keeps r s) : Keeps r (s.showPort d port) := by
  unfold State.showPort
  exact h.wr.watermark

theorem Keeps.failPiece {d c r'} (h : Keeps r s) : Keeps r (s.failPiece d c r') :=
  .ite h.bump.busPiece h.freeBytes.poisonUse.busPiece

theorem Keeps.enterPieces {d l} (h : Keeps r s) : Keeps r (s.enterPieces d l) :=
  .foldl (fun _ _ h => .ite h.failPiece h.updRam) h

theorem KeepsOut.dramRequestEnqueue {d r'} (h : Keeps r s) : KeepsOut r (execDramRequestEnqueue d r' s) := by
  unfold execDramRequestEnqueue
  exact .when h h.enterPieces.showPort

theorem Keeps.showChan {d c} (h : Keeps r s) : Keeps r (s.showChan d c) := by
  unfold State.showChan
  exact h.putBit.putBit.putBit

theorem Keeps.forceRefresh {d c rank} (h : Keeps r s) : Keeps r (s.forceRefresh d c rank) := by
  unfold State.forceRefresh
  exact .ite h h.updChan.setBit.bump.raise

theorem Keeps.payOwed {d c} (h : Keeps r s) : Keeps r (s.payOwed d c) :=
  .ite h (.foldl (fun _ _ h => .ite h.updChan h) h)

theorem Keeps.refreshRate {d c rank} (h : Keeps r s) : Keeps r (s.refreshRate d c rank) := by
  unfold State.refreshRate
  exact .ite h h.updChan.raise

theorem Keeps.nextDue {d c rank} (h : Keeps r s) : Keeps r (s.nextDue d c rank) := by
  unfold State.nextDue
  exact h.updChan

theorem KeepsOut.refreshDue {d ch rank} (h : Keeps r s) : KeepsOut r (execRefreshDue d ch rank s) := by
  unfold execRefreshDue
  extract_lets _ s1
  have h1 : Keeps r s1 := h.payOwed.refreshRate.nextDue
  exact .when h (.showChan (.payOwed (.forceRefresh (.ite h1.updChan.bump h1.updChan))))

theorem KeepsOut.mprTemperatureRead {d ch rank hot} (h : Keeps r s) :
    KeepsOut r (execMprTemperatureRead d ch rank hot s) := by
  unfold execMprTemperatureRead
  exact .when h h.updChan

theorem Keeps.countActivate {d c rank bank} (h : Keeps r s) : Keeps r (s.countActivate d c rank bank) := by
  unfold State.countActivate
  exact .ite h.updChan (.forceRefresh (.ite h.updChan.bump.setBit h.updChan.bump.setBit.raise))

theorem KeepsOut.activateCounterEpoch {d} (h : Keeps r s) : KeepsOut r (execActivateCounterEpoch d s) :=
  .when h h.updRam

theorem KeepsOut.zqcsCalibration {d ch rank} (h : Keeps r s) : KeepsOut r (execZqcsCalibration d ch rank s) := by
  unfold execZqcsCalibration
  exact .when h h.updChan

theorem Keeps.parityAlert {d c} (h : Keeps r s) : Keeps r (s.parityAlert d c) := by
  unfold State.parityAlert
  extract_lets
  split
  · exact .ite h.updChan h
  · exact h.updChan.showChan

theorem KeepsOut.parityAlert {d ch} (h : Keeps r s) : KeepsOut r (execParityAlert d ch s) :=
  .when h h.parityAlert

theorem KeepsOut.alertNRelease {d ch} (h : Keeps r s) : KeepsOut r (execAlertNRelease d ch s) := by
  unfold execAlertNRelease
  extract_lets
  split
  · exact .next h
  · exact .when h (.bump (.foldl (fun _ _ h => h.countActivate) h.updRam.updChan))

theorem Keeps.parityEscalate {d c} (h : Keeps r s) : Keeps r (s.parityEscalate d c) := by
  unfold State.parityEscalate
  exact .recoveryFault (.showChan (.raise (.setBit (.foldl (fun _ _ h => h.failPiece.showPort)
    h.updRam.bump.raise.updChan.wr))))

theorem KeepsOut.parityReplayComplete {d ch} (h : Keeps r s) : KeepsOut r (execParityReplayComplete d ch s) := by
  unfold execParityReplayComplete
  extract_lets
  split
  · exact .next h
  · exact .when h (.ite h.parityEscalate (.showChan (.payOwed
    (.foldl (fun _ _ h => h.forceRefresh) h.updChan.bump.setBit.raise))))

theorem Keeps.markOverdue {d c} (h : Keeps r s) : Keeps r (s.markOverdue d c) := by
  unfold State.markOverdue
  exact .foldl (fun _ _ h => .ite h (.ite h.updRam.setBit.bump h.updRam.setBit.bump.item32.raise)) h

theorem Keeps.writeFlips {d c r'} (h : Keeps r s) : Keeps r (s.writeFlips d c r') := by
  unfold State.writeFlips
  exact .foldl (fun _ _ h => h.updRam) (.foldl (fun _ _ h => .ite h.updChan.updRam (.ite h.updChan.updRam h)) h.updRam)

theorem Keeps.showLatency {d p} (h : Keeps r s) : Keeps r (s.showLatency d p) :=
  h.wr

theorem Keeps.issuePiece {d c p} (h : Keeps r s) : Keeps r (s.issuePiece d c p) := by
  unfold State.issuePiece
  extract_lets q s1 s2 s3 s4 s5
  have h3 : Keeps r s3 := h.updRam.updChan.countActivate
  have h4 : Keeps r s4 := .ite (h3.updRamTo (Memory.wf_write _ _ _)).writeFlips h3
  have h5 : Keeps r s5 := .ite h4.showLatency.busPiece h4
  exact h5.showPort

theorem KeepsOut.dramCommandIssue {d ch busy} (h : Keeps r s) : KeepsOut r (execDramCommandIssue d ch busy s) := by
  unfold execDramCommandIssue
  extract_lets _ s1
  have h1 : Keeps r s1 := h.markOverdue.payOwed
  refine .when h ?_
  split
  · exact h1
  · split
    · exact h1.showChan
    · exact .showChan (.ite h1.issuePiece.updChan.parityAlert h1.issuePiece)

theorem Keeps.eccCorrected {d c l} (h : Keeps r s) : Keeps r (s.eccCorrected d c l) :=
  .foldl (fun _ _ h => .ite h.bump.wr.setBit h.bump.wr.setBit.raise) h

theorem Keeps.eccUncorrectable {d c l} (h : Keeps r s) : Keeps r (s.eccUncorrectable d c l) := by
  refine .foldl_fst (fun _ _ h => ?_) h
  extract_lets
  split
  · exact h.bump.wr.setBit.setBit
  · exact h.bump.wr.setBit.setBit.raise

theorem KeepsOut.dramReadReturn {d ch single multi} (h : Keeps r s) :
    KeepsOut r (execDramReadReturn d ch single multi s) := by
  unfold execDramReadReturn
  extract_lets
  split
  · exact .next h
  · refine .when h ?_
    split
    extract_lets _ s1 s2 s3
    have h2 : Keeps r s2 := h.updRam.updChan
    have h3 : Keeps r s3 := .ite h2 h2.eccCorrected.eccUncorrectable
    split
    rename_i data s4 e4
    have h4 : Keeps r s4 := by
      refine .snd e4 ?_
      split
      · exact h3.freeBytes
      · exact h3
    split
    rename_i s5 hit e5
    have h5 : Keeps r s5 := .fst e5 h4.receiveBeats
    extract_lets s6 s7
    have h7 : Keeps r s7 := h5.readUse.showLatency
    exact .ite h7 h7.busPiece

theorem KeepsOut.scrubGranule {d single multi overwritten} (h : Keeps r s) :
    KeepsOut r (execScrubGranule d single multi overwritten s) := by
  unfold execScrubGranule
  refine .when h ?_
  extract_lets _ s1
  have h1 : Keeps r s1 := .ite h.updRam.wr h
  exact h1.eccCorrected.eccUncorrectable.updRam.wr.setBit

theorem KeepsOut.scrubPassComplete {d} (h : Keeps r s) : KeepsOut r (execScrubPassComplete d s) := by
  unfold execScrubPassComplete
  exact .when h (.clrBit (.wr (.updRam (.ite h.item32.item32.raise.updPower h.item32.item32.raise))))

theorem Keeps.nextRetrain {d} (h : Keeps r s) : Keeps r (s.nextRetrain d) := by
  unfold State.nextRetrain
  split
  · exact h
  · exact .ite h.wr h

theorem Keeps.askRetrain {d c} (h : Keeps r s) : Keeps r (s.askRetrain d c) :=
  .ite h h.updRam.nextRetrain

theorem KeepsOut.strobeDriftTrack {d ch moves} (h : Keeps r s) : KeepsOut r (execStrobeDriftTrack d ch moves s) := by
  unfold execStrobeDriftTrack
  extract_lets _ _ _ _ _ _ s2
  have h2 : Keeps r s2 := .foldl (fun _ _ h => h.setBit.raise.setBit) h.updChan.wr
  exact .when h (.ite h2.askRetrain h2)

theorem KeepsOut.eyeCheck {d ch failed} (h : Keeps r s) : KeepsOut r (execEyeCheck d ch failed s) := by
  unfold execEyeCheck
  extract_lets _ _ _ s2
  have h2 : Keeps r s2 := .ite h.clrBit h.clrBit.updPower
  refine .when h ?_
  split
  · exact h2
  · exact h2.setBit.raise.askRetrain

theorem KeepsOut.memChRetrain {d ch} (h : Keeps r s) : KeepsOut r (execMemChRetrain d ch s) := by
  unfold execMemChRetrain
  exact .when h (.ite h.ans (.ite h.askRetrain.ans h.ans))

theorem Keeps.newSettings {d c eye} (h : Keeps r s) : Keeps r (s.newSettings d c eye) := by
  unfold State.newSettings
  exact h.updChan.wr.wr.wr

theorem KeepsOut.inServiceRetrainDone {d ch eye} (h : Keeps r s) :
    KeepsOut r (execInServiceRetrainDone d ch eye s) := by
  unfold execInServiceRetrainDone
  extract_lets _ _ _ _ s4
  have h4 : Keeps r s4 := by
    dsimp only [s4]
    split
    · exact h.updRam.newSettings.raise
    · exact h.updRam.wr.updChan.setBit.setBit.raise.recoveryFault
  exact .when h h4.nextRetrain

theorem Keeps.disableStore {d x} (h : Keeps r s) : Keeps r (s.disableStore d x) := by
  unfold State.disableStore
  exact .ite h.updAud.raise (.ite h.encCut.encReject.updEnc.ans (.ite h.clrBit.loomReject.ans (.ite h.decReject.wr
    (.ite h.cnvReject.updChain.ans (.ite h.cmpReject.updCmp.ans h.cmpReject.ans)))))

theorem Keeps.reallocate {d} (h : Keeps r s) : Keeps r (s.reallocate d) := by
  unfold State.reallocate
  refine .foldl (fun _ _ h => ?_) h.updStores
  split
  · exact .allocStores (by assumption) h
  · exact h.disableStore.memRefuse

theorem Keeps.loseContents {d} (h : Keeps r s) : Keeps r (s.loseContents d) := by
  unfold State.loseContents
  extract_lets e s1 s2
  have h2 : Keeps r s2 := h.same.updRamTo (fun _ => Memory.wf_empty _)
  exact h2.updVideo.updMd

theorem Keeps.fence {d c} (h : Keeps r s) : Keeps r (s.fence d c) := by
  unfold State.fence
  exact .reallocate (.loseContents (.raise (.remap (.foldl (fun _ _ h => .showPort (.ite h.busPiece h)) (.updRam
    (.foldl (fun _ _ h => .ite h h.failPiece) h.wr.clrBit.setBit.updChan.updRam))))))

theorem KeepsOut.fullRetrainDone {d ch eye} (h : Keeps r s) : KeepsOut r (execFullRetrainDone d ch eye s) := by
  unfold execFullRetrainDone
  extract_lets _ _ _ s2
  have h2 : Keeps r s2 := by
    dsimp only [s2]
    split
    · exact h.setRecov.newSettings
    · exact h.setRecov.fence
  exact .when h (.ite h2.makeAbsent (.ite h2 (.ite h2 h2.restartStreams)))

/-! ### Bus masters -/

theorem Keeps.semRead {d m ofs len} (h : Keeps r s) : Keeps r (s.semRead d m ofs len).2 := by
  unfold State.semRead
  dsimp only
  exact .foldl (fun _ _ h => .ite h.wr h) h

theorem Keeps.semWrite {d m ofs data} (h : Keeps r s) : Keeps r (s.semWrite d m ofs data) :=
  .foldl (fun _ _ h => .ite h.wr h.setBit.raise) h

theorem KeepsOut.semaphoreRead {d m ofs len} (h : Keeps r s) : KeepsOut r (execSemaphoreRead d m ofs len s) :=
  .when h h.semRead.send

theorem KeepsOut.semaphoreWrite {d m ofs data} (h : Keeps r s) : KeepsOut r (execSemaphoreWrite d m ofs data s) :=
  .when h h.semWrite

theorem Keeps.addTxn {d m o left data error parked} (h : Keeps r s) :
    Keeps r (s.addTxn d m o left data error parked) := by
  unfold State.addTxn
  exact h.updBus.showMaster

theorem Keeps.parkFault {d m o} (h : Keeps r s) : Keeps r (s.parkFault d m o) := by
  unfold State.parkFault
  exact h.addTxn.wr.bump.bump.setBit.raise

theorem Keeps.errorResponse {d m o} (h : Keeps r s) : Keeps r (s.errorResponse d m o) := by
  unfold State.errorResponse
  exact h.bump.setBit.raise.addTxn.deliver

theorem Keeps.serveTarget {d m t o} (h : Keeps r s) : Keeps r (s.serveTarget d m t o) := by
  have h1 : Keeps r (if t = 3 then
      (if o.write then ([], s.semWrite d m (o.addr - windowBase) o.data) else s.semRead d m (o.addr - windowBase) o.len)
    else if o.write then ([], s) else s.freeBytes o.len).2 := by
    split
    · split
      · exact h.semWrite
      · exact h.semRead
    · split
      · exact h
      · exact h.freeBytes
  unfold State.serveTarget
  extract_lets ofs
  generalize (if t = 3 then _ else _) = p at h1 ⊢
  obtain ⟨data, s1⟩ := p
  dsimp -zeta only
  have h2 : Keeps r (if o.write then (s1, false) else s1.receiveBeats d m (beatsOf o.addr o.len)).1 := by
    split
    · exact h1
    · exact h1.receiveBeats
  generalize (if o.write then _ else _) = q at h2 ⊢
  exact .deliver (.updBus (.addTxn (.ite h2.poisonUse h2)))

theorem Keeps.busIssue {d m o} (h : Keeps r s) : Keeps r (s.busIssue d m o) := by
  unfold State.busIssue
  extract_lets
  split
  · exact .ite h.errorResponse h.parkFault
  · exact h.addCount.addTxn
  · exact h.addCount.serveTarget

theorem KeepsOut.busTransactionIssue {d m o} (h : Keeps r s) : KeepsOut r (execBusTransactionIssue d m o s) :=
  .when h h.busIssue

theorem Keeps.masterReset {d m} (h : Keeps r s) : Keeps r (s.masterReset d m) := by
  unfold State.masterReset
  exact .ite h (.showMaster (.foldl (fun _ _ h => h.wr.raise) (.foldl (fun _ _ h => h.poisonUse) h.wr.updRam.updBus)))

theorem KeepsOut.masterReset {d m} (h : Keeps r s) : KeepsOut r (execMasterReset d m s) :=
  .when h h.masterReset

theorem KeepsOut.masterResetAck {d m} (h : Keeps r s) : KeepsOut r (execMasterResetAck d m s) := by
  unfold execMasterResetAck
  exact .when h h.updBus.bump.showMaster.raise

theorem KeepsOut.resetDrainOverrun {d m} (h : Keeps r s) : KeepsOut r (execResetDrainOverrun d m s) := by
  unfold execResetDrainOverrun
  exact .when h h.updBus.setBit.raise.recoveryFault

theorem KeepsOut.busMasterReset {d m} (h : Keeps r s) : KeepsOut r (execBusMasterReset d m s) :=
  .when h (.ite h.ans (.ite h.ans h.masterReset.ans))

/-! ### Selvedge -/

theorem Keeps.showPair (h : Keeps r s) : Keeps r s.showPair := by
  unfold State.showPair
  exact h.putBit.putBit.putBit.putBit

theorem Keeps.setSlv {d st} (h : Keeps r s) : Keeps r (s.setSlv d st) :=
  h.wr.showPair

theorem Keeps.setOwner {d} (h : Keeps r s) : Keeps r (s.setOwner d) :=
  h.wr.showPair

theorem Keeps.askResync {kind n src} (h : Keeps r s) : Keeps r (s.askResync kind n src) := by
  unfold State.askResync
  exact .ite h (.ite (.foldl (fun _ _ h => .ite h.keyRequest.updEnc h) h.setPair) h.setPair)

theorem Keeps.copyChannel {src c} (h : Keeps r s) : Keeps r (s.copyChannel src c) := by
  unfold State.copyChannel
  exact .foldl (fun _ _ h => h.updFlowOut) h.updEnc

theorem Keeps.copySource {src kind n} (h : Keeps r s) : Keeps r (s.copySource src kind n) := by
  unfold State.copySource
  exact .foldl (fun _ _ h => h.updAudFlow) (.foldl (fun _ _ h => h.updFsy.setFill) h)

theorem KeepsOut.resynchronization (h : Keeps r s) : KeepsOut r (execResynchronization s) := by
  unfold execResynchronization
  split
  · exact .next h
  · extract_lets _ _ s2 clear s3
    have h2 : Keeps r s2 := .ite h.setPair.copyChannel h.setPair.copySource
    have clears : ∀ {u} d, Keeps r u → Keeps r (clear u d) := fun _ h => h.updSlv
    exact .when h (clears _ (clears _ h2)).bump.raise

theorem Keeps.diverge {source} (h : Keeps r s) : Keeps r (s.diverge source) := by
  unfold State.diverge
  exact .ite h.setPair (.ite h.setPair.raise.resetMedia.showPair h.setPair.raise)

theorem Keeps.release {d h'} (h : Keeps r s) : Keeps r (s.release d h') := by
  unfold State.release
  exact .ite h.updSlv h.updSlv.pushPackets

theorem Keeps.pairMatch {d h'} (h : Keeps r s) : Keeps r (s.pairMatch d h') := by
  unfold State.pairMatch
  exact h.updSlv.release.bump

theorem Keeps.suppress {d h'} (h : Keeps r s) : Keeps r (s.suppress d h') := by
  unfold State.suppress
  extract_lets
  split
  exact .askResync (.ite h.updSlv.bump.setBit h.updSlv.bump.setBit.raise)

theorem Keeps.mismatch {d h'} (h : Keeps r s) : Keeps r (s.mismatch d h') := by
  unfold State.mismatch
  extract_lets _ _ _ s2 _ _ s4 s5
  have h2 : Keeps r s2 := h.release.bump.updSlv
  have h4 : Keeps r s4 := .ite h2.setBit.bump h2.setBit
  have h5 : Keeps r s5 := .ite h2 (.ite h4.raise h4)
  split
  exact .ite h5.askResync.diverge h5.askResync

theorem Keeps.outcome {d h' r'} (h : Keeps r s) : Keeps r (s.outcome d h' r') :=
  .ite h.pairMatch (.ite h.suppress (.ite h.release h.mismatch))

theorem KeepsOut.packetCompleteCompare {d} (h : Keeps r s) : KeepsOut r (execPacketCompleteCompare d s) := by
  unfold execPacketCompleteCompare
  extract_lets
  split
  · exact .next h
  · extract_lets _ s2
    have h2 : Keeps r s2 := h.updSlv.send
    refine .when h ?_
    split
    · exact h2.release.bump
    · split
      · exact h2
      · exact h2.updSlv.outcome

theorem KeepsOut.compareRecordReceived {d r'} (h : Keeps r s) : KeepsOut r (execCompareRecordReceived d r' s) := by
  refine .when h ?_
  split
  · exact h.outcome
  · exact h.updSlv

theorem KeepsOut.compareTimeout {d} (h : Keeps r s) : KeepsOut r (execCompareTimeout d s) := by
  unfold execCompareTimeout
  extract_lets
  split
  · exact .next h
  · extract_lets s1
    have h1 : Keeps r s1 := h.release.bump.setBit
    exact .when h (.ite h1 h1.raise)

theorem KeepsOut.orphanCompareRecordExpiry {d} (h : Keeps r s) : KeepsOut r (execOrphanCompareRecordExpiry d s) := by
  unfold execOrphanCompareRecordExpiry
  split
  · exact .next h
  · exact .when h h.updSlv

theorem KeepsOut.decisionRecordReceived {d r'} (h : Keeps r s) : KeepsOut r (execDecisionRecordReceived d r' s) :=
  .when h h.updSlv

theorem KeepsOut.heartbeatSend {d} (h : Keeps r s) : KeepsOut r (execHeartbeatSend d s) := by
  unfold execHeartbeatSend
  exact .when h h.send.updSlv

theorem Keeps.declare {d} (h : Keeps r s) : Keeps r (s.declare d) := by
  unfold State.declare
  exact h.updSlv.setSlv.pushPackets.setBit.raise.setOwner

theorem Keeps.hbPath {d path miss good other} (h : Keeps r s) : Keeps r (s.hbPath d path miss good other) := by
  unfold State.hbPath
  exact .ite h.clrBit.setBit.raise (.ite h.setBit h)

theorem KeepsOut.heartbeatDeadline {d bridge c} (h : Keeps r s) : KeepsOut r (execHeartbeatDeadline d bridge c s) := by
  unfold execHeartbeatDeadline
  extract_lets _ s1 _ _ _ _ _ s5
  have h1 : Keeps r s1 := .ite h h.bump
  have h5 : Keeps r s5 := .ite h1.updSlv.hbPath.hbPath.setPair h1.updSlv.hbPath.hbPath
  exact .when h (.ite (.ite h5 h5.setPair) (.ite h5.declare h5))

theorem KeepsOut.outHeartbeatReceived {d} (h : Keeps r s) : KeepsOut r (execOutHeartbeatReceived d s) :=
  .when h h.declare

theorem Keeps.declared {d gseq} (h : Keeps r s) : Keeps r (s.declared d gseq) := by
  unfold State.declared
  exact .ite h.setPair.resetMedia.showPair h.setPair

theorem KeepsOut.splitEntry (h : Keeps r s) : KeepsOut r (execSplitEntry s) := by
  unfold execSplitEntry
  extract_lets
  split
  · exact .when h h.setPair.setSlv.setSlv.setOwner.setBit.raise
  · exact .next h

theorem Keeps.putNum {a v} (h : Keeps r s) : Keeps r { s with objs := mapPut s.objs a v } :=
  h.mapsTo fun w => by
    obtain ⟨wo, wb, wm⟩ := State.dictWf_iff.mp w
    exact State.dictWf_iff.mpr ⟨mapWf_mapPut _ _ _ wo, wb, wm⟩

theorem Keeps.copyMirrored {src} (h : Keeps r s) : Keeps r (s.copyMirrored src) := by
  unfold State.copyMirrored
  exact .foldl (fun _ _ h => h.putBytes) (.foldl (fun _ _ h => h.putNum) h.dropObjects)

theorem Keeps.resyncAll {src} (h : Keeps r s) : Keeps r (s.resyncAll src) := by
  refine .foldl (fun _ _ h => ?_) h
  split
  exact h.askResync

theorem Keeps.rejoin {d} (h : Keeps r s) : Keeps r (s.rejoin d) := by
  unfold State.rejoin
  exact h.updSlv.setSlv.resyncAll

theorem KeepsOut.splitRejoin (h : Keeps r s) : KeepsOut r (execSplitRejoin s) := by
  unfold execSplitRejoin
  exact .when h h.setPair.setSlv.copyMirrored.rejoin

theorem KeepsOut.pairedEntry (h : Keeps r s) : KeepsOut r (execPairedEntry s) :=
  .when h h.setSlv.setSlv.raise

theorem KeepsOut.bistRotation {d bad} (h : Keeps r s) : KeepsOut r (execBistRotation d bad s) := by
  unfold execBistRotation
  exact .when h (.wr (.foldl (fun _ _ h => .ite h h.updMd.setBit.bump.raise) h))

/-! ### Cues -/

theorem Keeps.setCue {d k st} (h : Keeps r s) : Keeps r (s.setCue d k st) :=
  h.wr

theorem Keeps.updDieTime {d f} (h : Keeps r s) : Keeps r (s.updDieTime d f) :=
  h.updMd

theorem Keeps.cuePast {d k} (h : Keeps r s) : Keeps r (s.cuePast d k) := by
  unfold State.cuePast
  extract_lets _ s1
  have h1 : Keeps r s1 := h.bump.raise
  exact .ite h1.updDieTime.setCue (.ite h1.wrBytes.setCue h1.setCue)

theorem Keeps.armCueAt {d t k} (h : Keeps r s) : Keeps r (s.armCueAt d t k) :=
  .ite h.setCue h.cuePast

theorem Keeps.armCue {d k} (h : Keeps r s) : Keeps r (s.armCue d k) :=
  h.armCueAt

theorem Keeps.disarmCue {d k} (h : Keeps r s) : Keeps r (s.disarmCue d k) :=
  h.updDieTime.setCue

theorem Keeps.cueDone {d k} (h : Keeps r s) : Keeps r (s.cueDone d k) := by
  unfold State.cueDone
  extract_lets _ _ s1 _ _ s2
  have h1 : Keeps r s1 := h.updDieTime
  have h2 : Keeps r s2 := h1.wrBytes.setCue
  exact .ite h1.setCue (.ite h1.wrBytes.setCue (.ite (.ite h2.cuePast.updDieTime h2.cuePast) h2))

theorem Keeps.cueFail {d k reason} (h : Keeps r s) : Keeps r (s.cueFail d k reason) :=
  h.disarmCue.setCue.raise

theorem Keeps.cuesReturn {d} (h : Keeps r s) : Keeps r (s.cuesReturn d) :=
  .foldl (fun _ _ h => h.disarmCue) h

theorem Keeps.cuesStepped {d step} (h : Keeps r s) : Keeps r (s.cuesStepped d step) := by
  unfold State.cuesStepped
  exact .ite h (.inOrder (.foldl (fun _ _ h => h.cuePast) h))

theorem Keeps.ramStep {d step} (h : Keeps r s) : Keeps r (s.ramStep d step) := by
  unfold State.ramStep
  exact h.updMd

theorem Keeps.dieStep {d step} (h : Keeps r s) : Keeps r (s.dieStep d step) := by
  unfold State.dieStep
  exact .inOrder (.cuesStepped (.audTimeStep (.foldl (fun _ _ h => h.decRestart)
    (.foldl (fun _ _ h => h.encTimeStep) (.updNet (.ramStep (.foldl (fun _ _ h => h.cmpStep)
    (.foldl (fun _ _ h => h.outStep) h.updDieTime))))))))

/-! ### Twill -/

theorem KeepsOut.helloSend (h : Keeps r s) : KeepsOut r (execHelloSend s) :=
  .when h (.foldl (fun _ _ h => h.twlSend) h)

theorem Keeps.dropDevice {old} (h : Keeps r s) : Keeps r (s.dropDevice old) :=
  .foldl (fun _ _ h => h.freeRx) h

theorem Keeps.renameDevice {old new} (h : Keeps r s) : Keeps r (s.renameDevice old new) := by
  unfold State.renameDevice
  exact h.updTwill

theorem Keeps.takeId {serial id} (h : Keeps r s) : Keeps r (s.takeId serial id) := by
  unfold State.takeId
  extract_lets
  split
  · exact .ite h (.refreshTopology (.raise (.setBit (.wr (.ite h h.renameDevice)))))
  · split
    · exact h
    · exact .ite h (.refreshTopology (.updTwill (.ite h h.dropDevice.renameDevice)))

theorem Keeps.addPkg {p} (h : Keeps r s) : Keeps r (s.addPkg p) := by
  unfold State.addPkg
  exact .ite h.takeId.updTwill h.updTwill.raise

theorem Keeps.refuseLink {d q r'} (h : Keeps r s) : Keeps r (s.refuseLink d q r') := by
  unfold State.refuseLink
  extract_lets _ s1
  have h1 : Keeps r s1 := .ite h.linkOut h.wr
  exact .ite h1 h1.setBit.raise

theorem Keeps.linkUp {d q p} (h : Keeps r s) : Keeps r (s.linkUp d q p) := by
  unfold State.linkUp
  extract_lets
  split
  · exact h.refuseLink
  · exact h.wr.updTlink.raise.addPkg.newGeneration

theorem KeepsOut.helloReceived {d quad p peerDie peerQuad} (h : Keeps r s) :
    KeepsOut r (execHelloReceived d quad p peerDie peerQuad s) := by
  unfold execHelloReceived
  extract_lets _ _ _ _ _ _ s4
  have h4 : Keeps r s4 := .wr (.wr (.updTlink (.ite h.takeId h)))
  exact .when h (.ite h4 (.ite h4.linkUp h4.wr))

theorem KeepsOut.linkHelloTimeout {d quad} (h : Keeps r s) : KeepsOut r (execLinkHelloTimeout d quad s) := by
  unfold execLinkHelloTimeout
  exact .when h h.linkLost

theorem Keeps.forwardFlood {l m} (h : Keeps r s) : Keeps r (s.forwardFlood l m) := by
  unfold State.forwardFlood
  split
  exact .ite h (.ite h.updTwill h.updTwill.twlFlood)

theorem KeepsOut.linkStateReceived {d quad m} (h : Keeps r s) : KeepsOut r (execLinkStateReceived d quad m s) := by
  unfold execLinkStateReceived
  split
  · exact .when h h.addPkg.updTwill.dropUnreachable.refreshTopology.forwardFlood
  · exact .next h

theorem Keeps.judgeLinks (h : Keeps r s) : Keeps r s.judgeLinks := by
  refine .foldl (fun _ _ h => ?_) h
  split
  · split
    · exact h.refuseLink
    · exact h
  · exact h

theorem Keeps.electRoot {root} (h : Keeps r s) : Keeps r (s.electRoot root) := by
  unfold State.electRoot
  exact .ite h.wr.twlStatus.wr.wr h.wr.twlStatus.wr.wr.setBit.raise

theorem Keeps.giveIds {joined} (h : Keeps r s) : Keeps r (s.giveIds joined) := by
  unfold State.giveIds
  exact .wr (.foldl (fun _ _ h => h.takeId.twlFlood) h)

theorem KeepsOut.rootElection (h : Keeps r s) : KeepsOut r (execRootElection s) := by
  unfold execRootElection
  extract_lets s1 _ s2
  have h1 : Keeps r s1 := h.judgeLinks
  have h2 : Keeps r s2 := h1.wr.wr.twlStatus
  refine .when h ?_
  split
  · exact .ite h2 h2.setBit.raise
  · split
    · exact h1
    · exact .ite h1.wr.electRoot h1.wr.electRoot.giveIds

theorem KeepsOut.idAssignReceived {serial id} (h : Keeps r s) : KeepsOut r (execIdAssignReceived serial id s) :=
  .when h h.takeId

theorem KeepsOut.idHoldExpiry (h : Keeps r s) : KeepsOut r (execIdHoldExpiry s) :=
  .when h h.updTwill

theorem Keeps.nack {l m rxDie rx h' taps} (h : Keeps r s) : Keeps r (s.nack l m rxDie rx h' taps) :=
  h.twlSend

theorem Keeps.takeSlot {d q ch path n} (e : s.takeSlot d q ch path = some (t, n)) (h : Keeps r s) : Keeps r t := by
  unfold State.takeSlot at e
  simp only [Option.map_eq_some_iff, Prod.mk.injEq] at e
  obtain ⟨_, _, rfl, _⟩ := e
  exact h.updTlink.updTwill.refreshTopology

theorem Keeps.allocSource {d q m rxDie rx srcDie port path} (h : Keeps r s) :
    Keeps r (s.allocSource d q m rxDie rx srcDie port path) := by
  unfold State.allocSource
  extract_lets
  split
  · exact h.nack
  · split
    · exact .twlSend (.refreshTopology (.refreshLoom (.updTwill (.takeSlot (by assumption) h))))
    · exact h.nack

theorem KeepsOut.allocReceived {d quad m} (h : Keeps r s) : KeepsOut r (execAllocReceived d quad m s) := by
  unfold execAllocReceived
  extract_lets
  split
  · refine .when h ?_
    split
    · exact h.allocSource
    · split
      · exact .twlSend (.takeSlot (by assumption) h)
      · exact h.nack
  · exact .next h

theorem Keeps.channelStreams {d n} (h : Keeps r s) : Keeps r (s.channelStreams d n) := by
  unfold State.channelStreams
  extract_lets _ _ s2
  have h2 : Keeps r s2 := .ite h.wr.setBit.raise h.wr
  exact .ite h2.updTwill.ans h2.updTwill

theorem Keeps.tellSource {d n src} (h : Keeps r s) : Keeps r (s.tellSource d n src) := by
  unfold State.tellSource
  refine .foldl (fun _ _ h => ?_) h.updTwill
  split
  · exact h.rejectOpen
  · exact h

theorem KeepsOut.allocAckReceived {d quad m} (h : Keeps r s) : KeepsOut r (execAllocAckReceived d quad m s) := by
  unfold execAllocAckReceived
  extract_lets
  split
  · extract_lets _ s1
    have h1 : Keeps r s1 := h.updTlink
    refine .when h ?_
    split
    · exact .ite h1.tellSource.channelStreams.refreshTopology h1
    · split
      · exact h1
      · exact h1.updTwill.refreshTopology.twlSend
  · exact .next h

theorem Keeps.tryPath {d n c st} (e : s.tryPath d n c st = some t) (h : Keeps r s) : Keeps r t := by
  unfold State.tryPath at e
  extract_lets at e
  split at e
  · cases e
  · extract_lets at e
    split at e
    · cases e
    · rw [← Option.some.inj e]
      exact h.updTwill.wr.wr.wrBytes.sendAlloc

theorem Keeps.rxUnrestored {d n} (h : Keeps r s) : Keeps r (s.rxUnrestored d n) := by
  unfold State.rxUnrestored
  exact h.wr.setBit.raise

theorem KeepsOut.allocNackReceived {d quad m} (h : Keeps r s) : KeepsOut r (execAllocNackReceived d quad m s) := by
  unfold execAllocNackReceived
  extract_lets q
  split
  · rename_i rxDie rx hop taps _
    refine .when h ?_
    extract_lets e st ch
    split
    · split
      · exact h
      · extract_lets c s1
        have h1 : Keeps r s1 := h.updTwill
        clear_value s1
        generalize hx : (if taps = true then _ else _) = x
        split
        · split at hx
          · cases hx
          · exact .tryPath hx h1
        · split
          · with_reducible exact h1.rxUnrestored
          · split
            · with_reducible exact h1.freeRx
            · with_reducible exact h1.freeRx.rejectOpen
    · split
      · exact h
      · with_reducible exact .twlSend (.refreshTopology h.dropSlots)
  · exact .next h

theorem KeepsOut.freeReceived {d quad m} (h : Keeps r s) : KeepsOut r (execFreeReceived d quad m s) := by
  unfold execFreeReceived
  extract_lets
  split
  · extract_lets _ s1
    have h1 : Keeps r s1 := h.dropSlots
    refine .when h ?_
    split
    · exact h1.updTwill.refreshLoom.refreshTopology
    · split
      · exact h1.refreshTopology
      · exact h1.refreshTopology.twlSend
  · exact .next h

theorem Keeps.freeOld {d n c} (h : Keeps r s) : Keeps r (s.freeOld d n c) := by
  unfold State.freeOld
  split
  · exact .ite h.twlSend h
  · exact h

theorem KeepsOut.channelReroute {d ch} (h : Keeps r s) : KeepsOut r (execChannelReroute d ch s) := by
  unfold execChannelReroute
  extract_lets
  split
  · exact .next h
  · refine .when h ?_
    extract_lets
    split
    · exact .tryPath ‹_› h.freeOld
    · exact h.freeOld.updTwill.rxUnrestored

theorem KeepsOut.linkDelayMeasurement {d quad trip turnaround} (h : Keeps r s) :
    KeepsOut r (execLinkDelayMeasurement d quad trip turnaround s) := by
  unfold execLinkDelayMeasurement
  exact .when h (.refreshTopology (.ite (.foldl (fun _ _ h => h.raise) h.twlSend.updTlink.wr.updTlink)
    h.twlSend.updTlink.wr.updTlink))

theorem KeepsOut.delayRequestReceived {d quad t turnaround} (h : Keeps r s) :
    KeepsOut r (execDelayRequestReceived d quad t turnaround s) :=
  .when h h.twlSend

theorem KeepsOut.linkPark {d quad} (h : Keeps r s) : KeepsOut r (execLinkPark d quad s) := by
  unfold execLinkPark
  exact .when h (.refreshTopology (.wr (.foldl (fun _ _ h => h.requestLane) h)))

theorem KeepsOut.parkedLinkWake {d quad answered} (h : Keeps r s) :
    KeepsOut r (execParkedLinkWake d quad answered s) := by
  unfold execParkedLinkWake
  exact .when h (.ite h.linkLost (.refreshTopology (.foldl (fun _ _ h => h.sendAlloc) h.wakeLink.wr.updTlink)))

theorem KeepsOut.twillSyncSend (h : Keeps r s) : KeepsOut r (execTwillSyncSend s) :=
  .when h (.foldl (fun _ _ h => h.twlSend) h)

theorem KeepsOut.mediaFlitReceived {d quad f} (h : Keeps r s) : KeepsOut r (execMediaFlitReceived d quad f s) := by
  unfold execMediaFlitReceived
  refine .when h ?_
  split
  · exact h.send
  · split
    · exact h
    · extract_lets
      split
      · exact h
      · exact .updTwill (.ite h h.addCount.addCount)

theorem KeepsOut.controlFlitReceived {d quad kind3 crcOk m} (h : Keeps r s) :
    KeepsOut r (execControlFlitReceived d quad kind3 crcOk m s) := by
  unfold execControlFlitReceived
  refine .when h ?_
  split
  · exact h.bump
  · split
    · exact h
    · split
      · exact h.forwardFlood
      · split
        · exact h
        · exact h.twlSend

/-! ### Lanes and links -/

theorem Keeps.portComesUp {d first} (h : Keeps r s) : Keeps r (s.portComesUp d first) := by
  unfold State.portComesUp
  extract_lets _ _ s3
  have h3 : Keeps r s3 := .raise (.setBit (.setBit (.foldl (fun _ _ h => h.setBit) h)))
  exact .ite h3 (.ite h3.setBit.igmpReports h3.setBit.igmpReports.askHop)

theorem KeepsOut.portUp {d first} (h : Keeps r s) : KeepsOut r (execPortUp d first s) := by
  unfold execPortUp
  exact .when h h.portComesUp

theorem Keeps.portGoesDown {d first cause} (h : Keeps r s) : Keeps r (s.portGoesDown d first cause) := by
  unfold State.portGoesDown
  extract_lets _ s2
  have h2 : Keeps r s2 := .ite h.clrBit.clrBit h.clrBit.clrBit.setBit
  exact .ite h (.ite h2.setBit.bump.raise.linkLost h2.setBit.bump.raise.clrBit.updPort)

theorem Keeps.cdrLost {d lane} (h : Keeps r s) : Keeps r (s.cdrLost d lane) :=
  .ite h.cdrOff.setBit h

theorem KeepsOut.portDown {d lane cause} (h : Keeps r s) : KeepsOut r (execPortDown d lane cause s) := by
  unfold execPortDown
  split
  · exact .next h
  · exact .when h (.portGoesDown (.ite h.cdrLost h))

theorem KeepsOut.quadPllLockLoss {d quad} (h : Keeps r s) : KeepsOut r (execQuadPllLockLoss d quad s) := by
  unfold execQuadPllLockLoss
  exact .when h (.foldl (fun _ _ h => h.portGoesDown) (.foldl (fun _ _ h => h.cdrLost) h.clrBit.raise))

theorem Keeps.requestPort {d first} (h : Keeps r s) : Keeps r (s.requestPort d first) := by
  unfold State.requestPort
  exact .foldl (fun _ _ h => h.requestLane) (.ite h h.portGoesDown)

theorem KeepsOut.laneStateRequest {d lane req} (h : Keeps r s) : KeepsOut r (execLaneStateRequest d lane req s) := by
  unfold execLaneStateRequest
  extract_lets s1
  have h1 : Keeps r s1 := h.wr.ans
  refine .when h ?_
  split
  · exact h.ans
  · split
    · exact h1.requestPort.cagesFollow
    · exact h1.requestPort.cagesFollow
    · exact h1.requestPort.cagesFollow
    · exact h1

theorem Keeps.laneGoesOn {d l t x} (h : Keeps r s) : Keeps r (s.laneGoesOn d l t x) := by
  unfold State.laneGoesOn
  split
  · exact h
  · exact .ite h.startLane.requestLane h.requestLane

theorem KeepsOut.laneTransitionComplete {d lane} (h : Keeps r s) :
    KeepsOut r (execLaneTransitionComplete d lane s) := by
  unfold execLaneTransitionComplete
  extract_lets
  split
  · exact .next h
  · extract_lets _ _ s3 s4
    have h3 : Keeps r s3 := .ite h.wr.updLane.updLane h.wr.updLane
    have h4 : Keeps r s4 := .ite h3.setBit h3
    exact .when h (.pllFollows (.laneGoesOn (.ite h4.setBit h4)))

theorem Keeps.lanesFollow {d m} (h : Keeps r s) : Keeps r (s.lanesFollow d m) := by
  unfold State.lanesFollow
  exact .cagesFollow (.lanesForMode (.foldl (fun _ _ h => h.portGoesDown) h))

theorem Keeps.portsTaken {new d} (h : Keeps r s) : Keeps r (s.portsTaken new d) :=
  .foldl (fun _ _ h => h.portGoesDown) h

theorem Keeps.quadsFollow {d} (h : Keeps r s) : Keeps r (s.quadsFollow d) := by
  unfold State.quadsFollow
  exact .lanesFollow (.foldl (fun _ _ h => h.cageUnserved) h)

theorem Keeps.applyEqTable (h : Keeps r s) : Keeps r s.applyEqTable := by
  unfold State.applyEqTable
  refine .foldl (fun _ _ h => ?_) h.setEqTable.wr
  split
  · exact h
  · refine .foldl (fun _ _ h => ?_) h.selectRow
    extract_lets s4
    have h4 : Keeps r s4 := by
      dsimp only [s4]
      split
      · exact h.portGoesDown
      · exact h
    exact h4.cycleLane

theorem KeepsOut.moduleRemoved {d cage} (h : Keeps r s) : KeepsOut r (execModuleRemoved d cage s) := by
  unfold execModuleRemoved
  extract_lets _ _ _ _ s3
  have h3 : Keeps r s3 := .foldl (fun _ _ h => h.requestLane) (.setRow (.foldl (fun _ _ h => h.portGoesDown) h))
  exact .when h (.raise (.wrBytes (.wr (.wr (.setBit (.wr (.updCage (.ite h3 h3.persistBytes))))))))

theorem KeepsOut.sectionPowerGood {d sec} (h : Keeps r s) : KeepsOut r (execSectionPowerGood d sec s) := by
  unfold execSectionPowerGood
  exact .ite .fault (.when h (.ite h.setSection.lanesFollow h.setSection))

/-! ### Time -/

theorem Keeps.setServo {st} (h : Keeps r s) : Keeps r (s.setServo st) :=
  h.wr

theorem Keeps.updTime {f} (h : Keeps r s) : Keeps r (s.updTime f) :=
  h.setTime

theorem Keeps.stepTime {step} (h : Keeps r s) : Keeps r (s.stepTime step) := by
  unfold State.stepTime
  exact .setServo (.raise (.setBit (.foldl (fun _ _ h => .ite h.dieStep (.ite h h.updDieTime)) h.updTime)))

theorem Keeps.bigOffset {off} (h : Keeps r s) : Keeps r (s.bigOffset off) :=
  .ite h.stepTime (.ite h h.setServo.raise)

theorem Keeps.goodOffset {off} (h : Keeps r s) : Keeps r (s.goodOffset off) := by
  unfold State.goodOffset
  exact .ite h.updTime h.updTime.updTime.setServo.raise

theorem Keeps.slewBase {off} (h : Keeps r s) : Keeps r (s.slewBase off) := by
  unfold State.slewBase
  exact h.updTime

theorem Keeps.showOffset {off} (h : Keeps r s) : Keeps r (s.showOffset off) := by
  unfold State.showOffset
  extract_lets s1
  have h1 : Keeps r s1 := h.updTime
  split
  · exact h1.wr
  · split
    exact .wr (.snd ‹_› h1.free)

theorem Keeps.onOffset {off} (h : Keeps r s) : Keeps r (s.onOffset off) := by
  unfold State.onOffset
  extract_lets _ _ _ s2
  have h2 : Keeps r s2 := h.showOffset.updTime
  split
  · exact .ite h2.bigOffset h2.goodOffset.slewBase
  · exact .ite h2.bigOffset (.ite h2.updTime.setServo.slewBase h2.slewBase)
  · exact .ite h2.wr.raise.bigOffset h2.wr.raise.updTime.setServo.goodOffset.slewBase
  · exact .ite h2.bigOffset h2.goodOffset.slewBase
  · exact .ite h2.bigOffset (.ite h2.updTime.setServo.goodOffset.slewBase h2)
  · exact h2

theorem Keeps.gmLost {cause} (h : Keeps r s) : Keeps r (s.gmLost cause) := by
  unfold State.gmLost
  extract_lets _ s2
  have h2 : Keeps r s2 := h.updTime.clrBit
  exact .ite h2 (.ite h2.setServo h2.updTime.setServo.setBit.raise)

theorem Keeps.gmSelect {a} (h : Keeps r s) : Keeps r (s.gmSelect a) := by
  unfold State.gmSelect
  extract_lets
  split
  · exact .ite h.updTime.wr.setBit.setServo h.updTime.wr.setBit
  · exact .ite h.updTime h.updTime.updTime.wr.setBit.raise

theorem Keeps.showPtp (h : Keeps r s) : Keeps r s.showPtp :=
  .foldl (fun _ _ h => h.wr) h

theorem Keeps.bmca {cause} (h : Keeps r s) : Keeps r (s.bmca cause) := by
  unfold State.bmca
  split
  · exact .ite h.gmLost h
  · exact h.gmSelect

theorem Keeps.ptpDiscard (h : Keeps r s) : Keeps r s.ptpDiscard :=
  h.bump

theorem KeepsOut.ptpAnnounceReceived {port h' a tlv} (h : Keeps r s) :
    KeepsOut r (execPtpAnnounceReceived port h' a tlv s) := by
  unfold execPtpAnnounceReceived
  extract_lets _ _ _ s3 s4
  have h3 : Keeps r s3 := .ite h.ptpDiscard.updTime h.ptpDiscard.updTime.raise
  have h4 : Keeps r s4 := by
    dsimp only [s4]
    split
    · exact h.wrBytes
    · exact h
  exact .ite (.next h.ptpDiscard) (.when h (.ite h (.ite (.ite h3.gmLost.bmca h3) h4.updTime.bmca.showPtp)))

theorem Keeps.syncOffset {p origin rx} (h : Keeps r s) : Keeps r (s.syncOffset p origin rx) := by
  unfold State.syncOffset
  exact h.updTime.onOffset.showPtp

theorem KeepsOut.ptpSyncReceived {port h' rx origin} (h : Keeps r s) :
    KeepsOut r (execPtpSyncReceived port h' rx origin s) := by
  unfold execPtpSyncReceived
  extract_lets
  split
  · exact .next h.ptpDiscard
  · refine .when h ?_
    split
    · exact h.syncOffset
    · exact h.updTime

theorem KeepsOut.ptpFollowUpReceived {port h' origin} (h : Keeps r s) :
    KeepsOut r (execPtpFollowUpReceived port h' origin s) := by
  unfold execPtpFollowUpReceived
  extract_lets
  split
  · exact .next h.ptpDiscard
  · split
    · exact .next h
    · exact .when h h.updTime.syncOffset

theorem KeepsOut.ptpDelayReqTransmit {port} (h : Keeps r s) : KeepsOut r (execPtpDelayReqTransmit port s) := by
  unfold execPtpDelayReqTransmit
  exact .when h h.send.updTime

theorem KeepsOut.ptpDelayRespReceived {port h' rx} (h : Keeps r s) :
    KeepsOut r (execPtpDelayRespReceived port h' rx s) := by
  unfold execPtpDelayRespReceived
  extract_lets
  split
  · exact .next h.ptpDiscard
  · split
    · exact .when h h.updTime
    · exact .next h

theorem KeepsOut.ptpSyncTransmit {port} (h : Keeps r s) : KeepsOut r (execPtpSyncTransmit port s) := by
  unfold execPtpSyncTransmit
  exact .when h h.send.send.updTime

theorem KeepsOut.ptpAnnounceTransmit {port} (h : Keeps r s) : KeepsOut r (execPtpAnnounceTransmit port s) := by
  unfold execPtpAnnounceTransmit
  refine .when h ?_
  split
  exact h.send.updTime

theorem KeepsOut.ptpDelayReqReceived {port h' rx} (h : Keeps r s) :
    KeepsOut r (execPtpDelayReqReceived port h' rx s) := by
  unfold execPtpDelayReqReceived
  exact .ite (.next h.ptpDiscard) (.when h h.send)

theorem Keeps.dropGm (h : Keeps r s) : Keeps r s.dropGm := by
  unfold State.dropGm
  split
  · exact h
  · exact h.updTime

theorem KeepsOut.syncLossTimeout (h : Keeps r s) : KeepsOut r (execSyncLossTimeout s) :=
  .when h h.dropGm.gmLost.bmca.showPtp

theorem KeepsOut.announceReceiptTimeout (h : Keeps r s) : KeepsOut r (execAnnounceReceiptTimeout s) :=
  .when h h.dropGm.gmLost.bmca.showPtp

theorem KeepsOut.timeStepRequest (h : Keeps r s) : KeepsOut r (execTimeStepRequest s) :=
  .when h (.ite h.stepTime.ans h.ans)

theorem KeepsOut.mediaDieSteering {d err} (h : Keeps r s) : KeepsOut r (execMediaDieSteering d err s) := by
  unfold execMediaDieSteering
  exact .when h (.ite h.updDieTime.raise h.updDieTime)

theorem Keeps.showF10m {ok} (h : Keeps r s) : Keeps r (s.showF10m ok) := by
  unfold State.showF10m
  exact h.putBit.putBit.updTime

theorem Keeps.sourceChanged {old} (h : Keeps r s) : Keeps r (s.sourceChanged old) := by
  unfold State.sourceChanged
  extract_lets _ s1
  have h1 : Keeps r s1 := h.showF10m
  exact .ite h1.updTime.clrBit.setServo.showPtp (.ite (.showPtp (.ite h1.updTime.gmLost h1.updTime)) h1.showPtp)

theorem Keeps.f10mLost {cause} (h : Keeps r s) : Keeps r (s.f10mLost cause) :=
  h.showF10m.setBit.raise

theorem KeepsOut.f10mEdgeTimeout (h : Keeps r s) : KeepsOut r (execF10mEdgeTimeout s) :=
  .when h h.f10mLost

theorem KeepsOut.f10mMeasurement {within complete} (h : Keeps r s) :
    KeepsOut r (execF10mMeasurement within complete s) := by
  unfold execF10mMeasurement
  exact .when h (.ite h.f10mLost h.showF10m)

theorem Keeps.ppsPhase {t} (h : Keeps r s) : Keeps r (s.ppsPhase t) := by
  unfold State.ppsPhase
  extract_lets
  split
  · exact .showPtp (.onOffset (.ite h.updTime.gmSelect h.updTime))
  · exact .ite h (.showPtp (.onOffset (.ite h.gmSelect h)))

theorem KeepsOut.ppsEdge {t} (h : Keeps r s) : KeepsOut r (execPpsEdge t s) := by
  unfold execPpsEdge
  extract_lets _ _ _ s2
  have h2 : Keeps r s2 := .ite h.updTime.setBit h.updTime
  exact .when h (.ite (.ite h2.ppsPhase h2) (.ite h2.setBit.raise h2))

theorem KeepsOut.ppsLossTimeout (h : Keeps r s) : KeepsOut r (execPpsLossTimeout s) := by
  unfold execPpsLossTimeout
  exact .when h (.ite h.updTime.clrBit.setBit.raise.gmLost.showPtp h.updTime.clrBit.setBit.raise)

theorem KeepsOut.timePpsSecondsSet {v} (h : Keeps r s) : KeepsOut r (execTimePpsSecondsSet v s) :=
  .when h (.ite h.ans (.ite h.ans h.updTime.ans))

theorem KeepsOut.ppsOutputSecond (h : Keeps r s) : KeepsOut r (execPpsOutputSecond s) := by
  unfold execPpsOutputSecond
  exact .when h h.send.updTime

theorem Keeps.twillOffset {off} (h : Keeps r s) : Keeps r (s.twillOffset off) := by
  unfold State.twillOffset
  exact .ite h.updTwill.clrBit (.ite h.updTwill.setBit.setBit.raise h.updTwill.setBit)

theorem KeepsOut.twillSyncReceived {d quad m} (h : Keeps r s) : KeepsOut r (execTwillSyncReceived d quad m s) := by
  unfold execTwillSyncReceived
  split
  · extract_lets _ _ s1
    have h1 : Keeps r s1 := h.twillOffset
    exact .when h (.ite (.showPtp (.onOffset (.ite h1 h1.gmSelect))) h1)
  · exact .next h

/-! ### Cue tables -/

theorem Keeps.cueWrite {d k b} (h : Keeps r s) : Keeps r (s.cueWrite d k b) := by
  unfold State.cueWrite
  exact .ite h.ans (.ite h.wrBytes.setCue.ans (.ite h.ans h.wrBytes.setCue.ans))

theorem KeepsOut.timeCueEntryWrite {d k b} (h : Keeps r s) : KeepsOut r (execTimeCueEntryWrite d k b s) :=
  .when h (.ite h.ans (.mirror (fun _ _ _ h => h.cueWrite) h))

theorem KeepsOut.timeCueArm {d k} (h : Keeps r s) : KeepsOut r (execTimeCueArm d k s) :=
  .when h (.mirror (fun _ _ _ h => .ite h.armCue.ans h.ans) h)

theorem KeepsOut.timeCueDisarm {d k} (h : Keeps r s) : KeepsOut r (execTimeCueDisarm d k s) :=
  .when h (.mirror (fun _ _ _ h => .ite h.disarmCue.ans h.ans) h)

theorem KeepsOut.timeCueGroupArm {d g} (h : Keeps r s) : KeepsOut r (execTimeCueGroupArm d g s) :=
  .when h (.mirror (fun _ _ _ h => .ans (.foldl (fun _ _ h => h.armCue) h)) h)

theorem KeepsOut.timeCueGroupDisarm {d g} (h : Keeps r s) : KeepsOut r (execTimeCueGroupDisarm d g s) :=
  .when h (.mirror (fun _ _ _ h => .ans (.foldl (fun _ _ h => h.disarmCue) h)) h)

theorem Keeps.cueResult {x : State × Bool} (h : Keeps r x.1) : Keeps r (cueResult x).1 := h

theorem Keeps.cueCommit {d index n t} (h : Keeps r s) : Keeps r (s.cueCommit d index n t).1 := by
  unfold State.cueCommit
  extract_lets
  split
  · split
    · exact h
    · split
      · exact h.outCommit.cueResult
      · exact h
  · split
    · split
      · exact h
      · split
        · exact h.cmpCommit.cueResult
        · exact h
    · split
      · split
        · exact h
        · exact h.ans.commitGroup
      · split
        · split
          · exact h
          · split
            · exact h.commitGates
            · exact h
        · split
          · split
            · exact h
            · split
              · exact h.chainCommit.cueResult
              · exact h
          · split
            · split
              · exact h
              · split
                · exact h.encCommit.cueResult
                · exact h
            · split
              · split
                · exact h
                · split
                  · exact h.audPortCommit.cueResult
                  · exact h
              · split
                · split
                  · exact h
                  · exact h.routerCommit.cueResult
                · exact h

theorem Keeps.cueFlow {d index n start t} (h : Keeps r s) : Keeps r (s.cueFlow d index n start t).1 := by
  unfold State.cueFlow
  split
  · exact h
  · split
    · exact h
    · split
      · exact h.flowControl
      · exact h

theorem Keeps.cueChannel {d index n start t} (h : Keeps r s) : Keeps r (s.cueChannel d index n start t).1 := by
  unfold State.cueChannel
  split
  · exact h
  · split
    · exact h
    · split
      · exact h
      · split
        · exact h
        · exact h.encControl

theorem Keeps.cueAct {d b t} (h : Keeps r s) : Keeps r (s.cueAct d b t).1 := by
  unfold State.cueAct
  extract_lets _ _ r' s1
  have h1 : Keeps r s1 := by
    dsimp only [s1]
    dsimp only [r']
    split
    · exact h.cueCommit
    · split
      · exact h
      · split
        · exact h
        · split
          · exact h.keyRequest
          · exact h
    · split
      · exact h
      · split
        · exact h
        · exact h.audTrigger
    · exact h.cueFlow
    · exact h.cueFlow
    · exact h.cueChannel
    · exact h.cueChannel
    · split
      · exact h
      · split
        · exact h
        · split
          · exact h.formatApply.cueResult
          · exact h
    · exact h
  exact h1.setAnswer

theorem KeepsOut.cueDispatch {d} (h : Keeps r s) : KeepsOut r (execCueDispatch d s) := by
  unfold execCueDispatch
  extract_lets
  split
  · exact .next h
  · refine .when h ?_
    split
    · exact h.setCue
    · exact .cueFail (.fst (by assumption) h.cueAct)

theorem KeepsOut.cueRun {d k action} (h : Keeps r s) : KeepsOut r (s.cueRun d k action) := by
  unfold State.cueRun
  refine .when h ?_
  split
  · exact .cueDone (.fst (by assumption) h.cueAct)
  · exact .cueFail (.fst (by assumption) h.cueAct)

theorem KeepsOut.cueCommit {d k} (h : Keeps r s) : KeepsOut r (execCueCommit d k s) :=
  .cueRun h

theorem KeepsOut.cueKeyPicture {d k} (h : Keeps r s) : KeepsOut r (execCueKeyPicture d k s) :=
  .cueRun h

theorem KeepsOut.cueAudioStart {d k} (h : Keeps r s) : KeepsOut r (execCueAudioStart d k s) :=
  .cueRun h

theorem KeepsOut.cueFlowStart {d k} (h : Keeps r s) : KeepsOut r (execCueFlowStart d k s) :=
  .cueRun h

theorem KeepsOut.cueFlowStop {d k} (h : Keeps r s) : KeepsOut r (execCueFlowStop d k s) :=
  .cueRun h

theorem KeepsOut.cueChannelStart {d k} (h : Keeps r s) : KeepsOut r (execCueChannelStart d k s) :=
  .cueRun h

theorem KeepsOut.cueChannelStop {d k} (h : Keeps r s) : KeepsOut r (execCueChannelStop d k s) :=
  .cueRun h

theorem KeepsOut.cueFormatApply {d k} (h : Keeps r s) : KeepsOut r (execCueFormatApply d k s) :=
  .cueRun h

theorem KeepsOut.cueSelf {d k action} {f : State → State} (hf : ∀ t, Keeps r t → Keeps r (f t)) (h : Keeps r s) :
    KeepsOut r (s.cueSelf d k action f) :=
  .when h (hf s h).cueDone

theorem KeepsOut.cueMarker {d k} (h : Keeps r s) : KeepsOut r (execCueMarker d k s) :=
  .cueSelf (fun _ h => h.raise) h

theorem KeepsOut.cueArmGroup {d k} (h : Keeps r s) : KeepsOut r (execCueArmGroup d k s) :=
  .cueSelf (fun _ h => .foldl (fun _ _ h => h.armCueAt) h) h

theorem KeepsOut.cueDisarmGroup {d k} (h : Keeps r s) : KeepsOut r (execCueDisarmGroup d k s) :=
  .cueSelf (fun _ h => .foldl (fun _ _ h => h.disarmCue) h) h

/-! ### Leaving CONFIGURE -/

theorem Keeps.netReject {d x} (h : Keeps r s) : Keeps r (s.netReject d x) :=
  h.raise.ans

theorem Keeps.holdReject {d number} (h : Keeps r s) : Keeps r (s.holdReject d number) :=
  h.loomReject.ans

theorem Keeps.next {x : Exit} {f : State → Exit} (hf : ∀ t, Keeps r t → Keeps r (f t).1) (h : Keeps r x.1) :
    Keeps r (x.next f).1 := by
  unfold Exit.next
  split
  · exact hf _ h
  · exact h

theorem Keeps.ofBool {code} {x : State × Bool} (h : Keeps r x.1) : Keeps r (Exit.ofBool code x).1 := h

theorem Keeps.ofAnswer {x : State × Bool} (h : Keeps r x.1) : Keeps r (Exit.ofAnswer x).1 := h

theorem Keeps.bindProducer {d p kind n} (h : Keeps r s) : Keeps r (s.bindProducer d p kind n).1 := by
  unfold State.bindProducer
  extract_lets
  split
  · exact h
  · extract_lets
    split
    · exact h
    · split
      · exact h.holdReject
      · exact .foldl (fun _ _ h => h.wr.wr) h

theorem Keeps.bindProducers {d} (h : Keeps r s) : Keeps r (s.bindProducers d).1 := by
  unfold State.bindProducers
  dsimp only
  exact .foldl_fst (fun _ _ h => .next (fun _ h => h.bindProducer) h) (.foldl (fun _ _ h => h.wr.wr) h)

theorem Keeps.bindConsumers {d} (h : Keeps r s) : Keeps r (s.bindConsumers d).1 := by
  refine .foldl_fst (fun _ _ h => ?_) h
  refine .next (fun _ h => ?_) h
  split
  · exact h
  · split
    · exact h
    · split
      · exact h.holdReject
      · exact h.wr

theorem Keeps.startFsy {d n} (h : Keeps r s) : Keeps r (s.startFsy d n).1 := by
  unfold State.startFsy
  extract_lets
  split
  · exact h.loomReject.ans
  · split
    · exact h.loomReject.memRefuse.ans
    · exact .wr (.updFsy (.wr (.allocStores (by assumption) h)))

theorem Keeps.startSynchronizers {d} (h : Keeps r s) : Keeps r (s.startSynchronizers d).1 :=
  .foldl_fst (fun _ _ h => .next (fun _ h => h.startFsy) h) h

theorem Keeps.portsInForce {d} (h : Keeps r s) : Keeps r (s.portsInForce d) :=
  .foldl (fun _ _ h => .ite h h.updPort.clrBit) h

theorem Keeps.queuesInForce {d} (h : Keeps r s) : Keeps r (s.queuesInForce d) := by
  unfold State.queuesInForce
  exact .foldl (fun _ _ h => h.updQueue) h.updNet

theorem Keeps.shapersHeld {d} (h : Keeps r s) : Keeps r (s.shapersHeld d) :=
  .foldl (fun _ _ h => h.updQueue) h

theorem Keeps.restFlows {d} (h : Keeps r s) : Keeps r (s.restFlows d) := by
  unfold State.restFlows
  exact .wr (.foldl (fun _ _ h => h.wr) (.foldl (fun _ _ h => h.wr) h.updNet))

theorem Keeps.configureDie {d lost} (h : Keeps r s) : Keeps r (s.configureDie d lost).1 := by
  unfold State.configureDie
  extract_lets s1 live deferred x0 x1 x2 x3 x4 x5 x6 x7 x8
  have h1 : Keeps r s1 := h.portsInForce.queuesInForce
  have h0 : Keeps r x0.1 := by
    dsimp only [x0]
    split
    · exact h1.netReject
    · split
      · exact h1.netReject
      · exact h1.holdReject
    · exact h1.holdReject
    · split
      · exact h1
      · exact h1.restFlows
  have h3 : Keeps r x3.1 := .next (fun _ h => .encClear h.updStores)
    (.next (fun _ h => h.bindConsumers) (.next (fun _ h => h.bindProducers) h0))
  have h5 : Keeps r x5.1 := .next (fun _ h => h.startSynchronizers) (.next (fun _ h => h.encPlaceAll.ofAnswer) h3)
  have h7 : Keeps r x7.1 := .next (fun _ h => h.videoLeaveConfigure.ofAnswer)
    (.next (fun _ h => h.decLeaveConfigure.ofBool) h5)
  refine .next (fun u h => ?_) (.next (fun _ h => h.encPlaceAll.ofAnswer) h7)
  split
  rename_i s2 ok bad e2
  have h2 : Keeps r s2 := .fst e2 h.audLeaveConfigure
  split
  · exact h2
  · split
    · exact h2
    · exact .foldl (fun _ _ h => h.netReject.memRefuse) h2

theorem Keeps.takeReport {t e} (h : Keeps r s) : Keeps r (s.takeReport t e) := by
  unfold State.takeReport
  split
  · exact h
  · exact .ite h (.ite h.wr (.ite h.addCount h.wr))

theorem Keeps.withReports {old new} (h : Keeps r s) : Keeps r (s.withReports old new) := by
  unfold State.withReports
  exact .foldl (fun _ _ h => h.takeReport) (.foldl (fun _ _ h => h.raise)
    (.foldl (fun _ _ h => .foldl (fun _ _ h => h.raise) h) h.same))

theorem Keeps.takeRefFormat {d} (h : Keeps r s) : Keeps r (s.takeRefFormat d) := by
  unfold State.takeRefFormat
  exact .ite h h.updDieTime.cuesReturn

theorem Keeps.leaveConfigure {sel} (h : Keeps r s) : Keeps r (s.leaveConfigure sel).1 := by
  unfold State.leaveConfigure
  extract_lets s0 s1 x s2 s3
  have hx : Keeps r x.1 := .foldl_fst (fun _ _ h => .next (fun _ h => h.configureDie) h) (.ite h.copyMirrored h)
  clear_value x
  split
  · with_reducible exact h.withReports
  · with_reducible exact .loomLeaveConfigure (.foldl (fun _ _ h => h.takeRefFormat) hx.applyEqTable)

/-! ### Boot -/

theorem Keeps.restoreP {f} (h : Keeps r s) : Keeps r (s.restoreP f) := by
  unfold State.restoreP
  exact .foldl (fun _ _ h => h.putBytes) (.foldl (fun _ _ h => h.putNum) h.dropObjects)

theorem Keeps.slotDefault {a} (h : Keeps r s) : Keeps r (s.slotDefault a) := by
  unfold State.slotDefault
  extract_lets _ s1
  have h1 : Keeps r s1 := h.mapsTo fun w => by
    obtain ⟨wo, wb, wmo, wmb⟩ := State.dictWf_iff.mp w
    exact State.dictWf_iff.mpr
      ⟨mapWf_mapDel _ _ wo, mapWf_mapDel _ _ wb, mapWf_mapDel _ _ wmo, mapWf_mapDel _ _ wmb⟩
  exact .ite h h1.setBit.raise

theorem Keeps.finishReturn (h : Keeps r s) : Keeps r s.finishReturn := by
  unfold State.finishReturn
  extract_lets boots soft _ _ s1
  have h1 : Keeps r s1 := by
    refine (h.dropObjects (p := fun e => !soft e.1) (q := fun e => !soft e.1)).trans ⟨rfl, fun w => ?_, fun w => ?_, id⟩
    · obtain ⟨wo, wb, -⟩ := State.dictWf_iff.mp w
      exact State.dictWf_iff.mpr ⟨wo, wb, rfl, rfl⟩
    · obtain ⟨wr, -, wd⟩ := w
      exact ⟨wr, Nat.zero_le _, wd⟩
  exact h1.persistNum.persistNum.wr.raise.raise

theorem Keeps.flushCounts (h : Keeps r s) : Keeps r s.flushCounts :=
  .foldl (fun _ _ h => h.putMramNum) h

theorem KeepsOut.persistentCountFlush (h : Keeps r s) : KeepsOut r (execPersistentCountFlush s) :=
  .when h h.flushCounts

theorem Keeps.returned {d} (h : Keeps r s) : Keeps r (s.returned d) := by
  unfold State.returned
  extract_lets _ s1 _ s3
  have h1 : Keeps r s1 := .foldl (fun _ _ h => h.wr) h
  have h3 : Keeps r s3 := .ite h1.raise h1.raise.bumpNow
  split
  · exact h3.dipReported
  · exact h3

theorem Keeps.selfTest {d b m} (h : Keeps r s) : Keeps r (s.selfTest d b m) := by
  unfold State.selfTest
  extract_lets _ s1
  have h1 : Keeps r s1 := .foldl (fun _ _ h => h.setSection) h
  exact .ite h1.updMd.makeAbsent (.foldl (fun _ _ h => h.raise) h1.updMd)

theorem Keeps.trainChannel {d b c} (h : Keeps r s) : Keeps r (s.trainChannel d b c) := by
  unfold State.trainChannel
  split
  · exact h.clrBit.wr
  · split
    · exact h.setBit.wr.wr.wr
    · split
      extract_lets s1
      have h1 : Keeps r s1 := by
        dsimp only [s1]
        refine .setBit ?_
        refine .wr ?_
        refine .clrBit ?_
        refine .snd (by assumption) ?_
        split
        · exact h
        · exact h.free
      exact h1.raise

theorem Keeps.trainDie {d b} (h : Keeps r s) : Keeps r (s.trainDie d b) := by
  unfold State.trainDie
  extract_lets s1 _ s2 _ s3
  have h1 : Keeps r s1 := .foldl (fun _ _ h => h.trainChannel) h
  have h2 : Keeps r s2 := h1.updRamTo (fun _ => Memory.wf_empty _)
  have h3 : Keeps r s3 := .ite h2.remap h2.showCapacity.clrBit
  exact .ite h3.makeAbsent h3

theorem Keeps.modulesEnter {d b} (h : Keeps r s) : Keeps r (s.modulesEnter d b) := by
  unfold State.modulesEnter
  exact .foldl (fun _ _ h => h.setBit.updCage) h

theorem Keeps.bringUp {d b m} (h : Keeps r s) : Keeps r (s.bringUp d b m) := by
  unfold State.bringUp
  extract_lets _ _ _ s4
  have h4 : Keeps r s4 := h.wr.updPower.updMd.wr.setBit.selfTest
  exact .ite h.makeAbsent (.ite h4 (.ite h4.returned.trainDie (.modulesEnter (.lanesForMode (.shapersHeld
    (.queuesInForce (.portsInForce (.foldl (fun _ _ h => h.wr) h4.returned.trainDie))))))))

theorem KeepsOut.porstRelease {straps} (h : Keeps r s) : KeepsOut r (execPorstRelease straps s) := by
  unfold execPorstRelease
  exact .when h (.ite h.wr h.wr.setMode)

theorem Keeps.bootDieC {r' f} (h : Keeps r s) : Keeps r (s.bootDieC r' f) := by
  unfold State.bootDieC
  extract_lets _ _ _ s1 s2 s3 s4 _ s5 _ s6 _ s7 _ s8
  have h2 : Keeps r s2 := .restoreP (.foldl (fun _ _ h => h.setSection) h.updPower)
  have h4 : Keeps r s4 := .foldl (fun _ _ h => h.slotDefault) (.ite h2.finishReturn h2)
  have h5 : Keeps r s5 := h4.same
  have h7 : Keeps r s7 := h5.wr.wr.wr.wr.wr.persistNum
  have h8 : Keeps r s8 := .showPtp h7.setTime
  clear_value s8
  split
  exact .returned (.fabricEnabled (.wr (.wrBytes (.snd ‹_› h8.freeBytes))))

theorem Keeps.reportSequence (h : Keeps r s) : Keeps r s.reportSequence := by
  unfold State.reportSequence
  extract_lets
  split
  · exact h
  · exact .foldl (fun _ _ h => h.setBit) h.setMram.raise

theorem KeepsOut.bootStart {r'} (h : Keeps r s) : KeepsOut r (execBootStart r' s) := by
  unfold execBootStart
  exact .ite (.when h h.bootDieC.reportSequence.bringUp.bringUp.setBoot) (.when h (.setBoot
    (.foldl (fun _ _ h => h.updDieTime) h.bootDieC.setTime)))

theorem KeepsOut.bootFailure {step cause} (h : Keeps r s) : KeepsOut r (execBootFailure step cause s) :=
  .when h h.bootFail

theorem Keeps.pairsLost {d pairs ran gone} (h : Keeps r s) : Keeps r (s.pairsLost d pairs ran gone) := by
  unfold State.pairsLost
  extract_lets _ _ s2
  have h2 : Keeps r s2 := .foldl (fun _ _ h => h.encStopCapacity) (.foldl (fun _ _ h => h.setBit.raise) h)
  exact .ite h2.recoveryFault h2

theorem Keeps.resumeDie {d} (h : Keeps r s) : Keeps r (s.resumeDie d) := by
  unfold State.resumeDie
  extract_lets pairs gone x s1
  have hx : Keeps r x.1 := h.configureDie
  have h1 : Keeps r s1 := hx.loomTake
  split
  · with_reducible exact h.withReports
  · split
    extract_lets s2 s3
    have h2 : Keeps r s2 := .ite h1 h1.pairsLost
    have h3 : Keeps r s3 := .foldl (fun _ _ h => h.setEncState) h2
    exact .foldl (fun _ _ h => h.flowControl) h3

theorem KeepsOut.mediaDieReturn {d b} (h : Keeps r s) : KeepsOut r (execMediaDieReturn d b s) := by
  unfold execMediaDieReturn
  extract_lets _ _ s1 s2
  have h1 : Keeps r s1 := h.restoreP.bringUp
  have h2 : Keeps r s2 := .ite h1.resumeDie h1
  exact .when h (.ite h1 (.ite h2.recoveryFault h2))

theorem Keeps.uciUp {d} (h : Keeps r s) : Keeps r (s.uciUp d) := by
  unfold State.uciUp
  exact .updDieTime (.ite h.wr h.wr.dieStep)

theorem KeepsOut.ucieLinkDown {d} (h : Keeps r s) : KeepsOut r (execUcieLinkDown d s) := by
  unfold execUcieLinkDown
  exact .when h h.wr.bump.raise.masterReset

theorem KeepsOut.ucieRetrain {d} (h : Keeps r s) : KeepsOut r (execUcieRetrain d s) :=
  .when h h.uciUp.raise

/-- A change of MRAM's copies made one object at a time. -/
theorem Keeps.foldlMram {α : Type _} {f : Mram → α → Mram} {l : List α} {m : Mram}
    (hf : ∀ n x, Keeps r { s with mram := n } → Keeps r { s with mram := f n x }) (h : Keeps r { s with mram := m }) :
    Keeps r { s with mram := l.foldl f m } := by
  induction l generalizing m with
  | nil => exact h
  | cons x l ih => exact ih (hf m x h)

theorem KeepsOut.dieCReattach {d} (h : Keeps r s) : KeepsOut r (execDieCReattach d s) := by
  unfold execDieCReattach
  refine .when h ?_
  extract_lets _ s1 start bytes nums blobs m1 m2 n s2
  have h1 : Keeps r s1 := h.setBoot.uciUp
  have h2 : Keeps r s2 := .foldlMram (fun _ _ h => h.putMramBytes) (.foldlMram (fun _ _ h => h.putMramNum) h1)
  exact .ite h2 h2.setBit.raise

theorem KeepsOut.eventRecordArrival {d} (h : Keeps r s) : KeepsOut r (execEventRecordArrival d s) := by
  unfold execEventRecordArrival
  split
  · exact .next h
  · rename_i x rest e
    extract_lets g s1
    have h1 : Keeps r s1 := by
      refine .received (.logRecord (h.updMdTo (fun w => ?_) id))
      rw [e] at w
      exact Nat.le_of_succ_le w
    exact .when h (.ite h1.declared h1)

theorem KeepsOut.overflowMarkerEmit {d} (h : Keeps r s) : KeepsOut r (execOverflowMarkerEmit d s) :=
  .when h h.emitMarker

/-! ### Lifecycle, debug and erasure -/

theorem Keeps.showSessions (h : Keeps r s) : Keeps r s.showSessions :=
  h.wr

/-- A change of the sessions that keeps their number within its limit. -/
theorem Keeps.sessionsTo {l} (h : Keeps r s) (hl : s.vol.sessions.length ≤ 16 → l.length ≤ 16) :
    Keeps r { s with vol := { s.vol with sessions := l } } := by
  refine h.trans ⟨rfl, id, fun w => ?_, id⟩
  obtain ⟨wr, wl, wa, wb, ws⟩ := w
  exact ⟨wr, wl, wa, wb, hl ws⟩

theorem Keeps.endSession {num cause} (h : Keeps r s) : Keeps r (s.endSession num cause) := by
  unfold State.endSession
  extract_lets _ s1 s2
  have h1 : Keeps r s1 := .showSessions (h.sessionsTo (Nat.le_trans (List.length_filter_le _ _)))
  have h2 : Keeps r s2 := .ite h1.setBit h1
  exact .ite h h2.raise

theorem Keeps.endSessions {p cause} (h : Keeps r s) : Keeps r (s.endSessions p cause) :=
  .foldl (fun _ _ h => h.endSession) h

theorem Keeps.showLcs (h : Keeps r s) : Keeps r s.showLcs :=
  h.wr

theorem Keeps.refuseLcs {target} (h : Keeps r s) : Keeps r (s.refuseLcs target) :=
  h.setBit.raise.ans

theorem Keeps.enterLcs {target} (h : Keeps r s) : Keeps r (s.enterLcs target) := by
  unfold State.enterLcs
  exact h.setSec.persistNum.showLcs.raise

theorem Keeps.beginReturn (h : Keeps r s) : Keeps r s.beginReturn := by
  unfold State.beginReturn
  exact .showLcs (.foldl (fun _ _ h => .ite h.resetMedia h) h.ans.setSec.endSessions)

theorem Keeps.advance {target serial} (h : Keeps r s) : Keeps r (s.advance target serial) := by
  unfold State.advance
  split
  · exact h.ans
  · split
    · exact h.refuseLcs
    · split
      · exact .ite h.endSessions.enterLcs.ans h.refuseLcs
      · exact .ite h.enterLcs.ans h.refuseLcs
      · exact h.beginReturn
      · exact h.beginReturn
      · exact h.refuseLcs

theorem KeepsOut.lcsAdvanceProvisioned {serial} (h : Keeps r s) : KeepsOut r (execLcsAdvanceProvisioned serial s) :=
  .when h h.advance

theorem KeepsOut.lcsAdvanceDeployed {serial} (h : Keeps r s) : KeepsOut r (execLcsAdvanceDeployed serial s) :=
  .when h h.advance

theorem KeepsOut.lcsAdvanceReturn {serial} (h : Keeps r s) : KeepsOut r (execLcsAdvanceReturn serial s) :=
  .when h h.advance

theorem Keeps.tokenWrite {b} (h : Keeps r s) : Keeps r (s.tokenWrite b) := by
  unfold State.tokenWrite
  split
  · exact h.ans
  · split
    · exact h.ans
    · extract_lets reason
      clear_value reason
      split
      extract_lets s1 _ s2
      have h1 : Keeps r s1 := .wrBytes (.snd ‹_› h.freeBytes)
      have h2 : Keeps r s2 := .showLcs h1.setSec
      split
      · exact h1.setBit.raise.ans
      · exact h2.bump.raise.ans

theorem KeepsOut.lcsDebugToken {token} (h : Keeps r s) : KeepsOut r (execLcsDebugToken token s) :=
  .when h h.tokenWrite

theorem KeepsOut.debugTokenExpiry (h : Keeps r s) : KeepsOut r (execDebugTokenExpiry s) := by
  unfold execDebugTokenExpiry
  extract_lets
  split
  · exact .next h
  · exact .when h h.setSec.showLcs

theorem KeepsOut.jtagTapAccess {i} (h : Keeps r s) : KeepsOut r (execJtagTapAccess i s) := by
  unfold execJtagTapAccess
  split
  · exact .next h.send
  · exact .next h.send
  · exact .ite .refused (.next h)

theorem Keeps.fwDataWrite {b} (h : Keeps r s) : Keeps r (s.fwDataWrite b) := by
  unfold State.fwDataWrite
  extract_lets ofs
  refine .ite h.ans (.ite h.ans (.ans (.wr (h.trans ⟨rfl, id, id, fun w => ?_⟩))))
  simp only [State.memoriesWf, Bool.and_eq_true] at w ⊢
  exact ⟨w.1, Memory.wf_write _ _ _ w.2⟩

theorem KeepsOut.fwImageDataWrite {data} (h : Keeps r s) : KeepsOut r (execFwImageDataWrite data s) :=
  .when h h.fwDataWrite

theorem Keeps.fwCommit (h : Keeps r s) : Keeps r s.fwCommit := by
  unfold State.fwCommit
  split
  · exact h.raise.ans
  · extract_lets _ _ _ _ s1
    have h1 : Keeps r s1 := h.same
    exact h1.wr.raise.ans

theorem KeepsOut.fwImageCommit (h : Keeps r s) : KeepsOut r (execFwImageCommit s) :=
  .when h h.fwCommit

theorem Keeps.windowErrors {d addr len} (h : Keeps r s) : Keeps r (s.windowErrors d addr len).1 := by
  refine .foldl_fst (fun _ _ h => ?_) h
  extract_lets
  split
  exact h.eccCorrected.eccUncorrectable

theorem Keeps.windowRead {d addr len} (h : Keeps r s) : Keeps r (s.windowRead d addr len).2 := by
  unfold State.windowRead
  split
  split
  · exact .freeBytes (.fst (by assumption) h.windowErrors)
  · exact .fst (by assumption) h.windowErrors

theorem Keeps.windowWrite {d addr data} (h : Keeps r s) : Keeps r (s.windowWrite d addr data) :=
  .foldl (fun _ _ h => (h.updRamTo (Memory.wf_write _ _ _)).writeFlips) h

theorem Keeps.windowAccess {d write addr len data} (h : Keeps r s) :
    Keeps r (s.windowAccess d write addr len data).2 := by
  have h1 : Keeps r (s.free 5).2 := h.free
  unfold State.windowAccess
  generalize s.free 5 = p at h1 ⊢
  obtain ⟨sec, s1⟩ := p
  dsimp -zeta only
  extract_lets o
  split
  · with_reducible exact h1.errorResponse.bump.raise
  · rename_i t _
    have h2 : Keeps r (if t = 0 then (if write then ([], s1.windowWrite d addr data) else s1.windowRead d addr len)
        else if t = 3 then
          (if write then ([], s1.semWrite d 31 (addr - windowBase) data) else s1.semRead d 31 (addr - windowBase) len)
        else if write then ([], s1) else s1.freeBytes len).2 := by
      split
      · split
        · with_reducible exact h1.windowWrite
        · with_reducible exact h1.windowRead
      · split
        · split
          · with_reducible exact h1.semWrite
          · with_reducible exact h1.semRead
        · split
          · exact h1
          · with_reducible exact h1.freeBytes
    generalize (if t = 0 then _ else _) = q at h2 ⊢
    obtain ⟨got, s2⟩ := q
    dsimp only
    split
    · exact h2
    · with_reducible exact Keeps.receiveBeats h2

theorem Keeps.diagRead {d} (h : Keeps r s) : Keeps r (s.diagRead d) := by
  unfold State.diagRead
  extract_lets x
  split
  · refine .ans ?_
    dsimp only [x]
    exact h.windowAccess
  · refine .ans ?_
    refine .wrBytes ?_
    dsimp only [x]
    exact h.windowAccess

theorem Keeps.diagWrite {d b} (h : Keeps r s) : Keeps r (s.diagWrite d b) := by
  unfold State.diagWrite
  extract_lets x
  split
  · exact h.ans
  · split
    · refine .ans ?_
      dsimp only [x]
      exact h.windowAccess
    · refine .ans ?_
      refine .wrBytes ?_
      dsimp only [x]
      exact h.windowAccess

theorem KeepsOut.diagWinRead {d} (h : Keeps r s) : KeepsOut r (execDiagWinRead d s) :=
  .when h (.ite h.ans (.ite h.ans h.diagRead))

theorem KeepsOut.diagWinWrite {d data} (h : Keeps r s) : KeepsOut r (execDiagWinWrite d data s) :=
  .when h (.ite h.ans (.ite h.ans h.diagWrite))

/-! ### Rejoin -/

theorem Keeps.followOwner {d t} (h : Keeps r s) : Keeps r (s.followOwner d t) := by
  unfold State.followOwner
  exact .foldl (fun _ _ h => h.flowControl) (.foldl (fun _ _ h => h.encControl) h)

theorem Keeps.tryReturn {d} (h : Keeps r s) : Keeps r (s.tryReturn d) := by
  unfold State.tryReturn
  extract_lets o before x s1 _ _
  have hx : Keeps r x.1 := h.copyMirrored.configureDie
  clear_value x
  have h1 : Keeps r s1 := h.withReports
  split
  · split
    rename_i sub short s2 e2
    have h2 : Keeps r s2 := by
      split at e2
      · cases e2
        exact h1
      · cases e2
        exact (h1.free (w := 16)).free (w := 32)
    exact h2.raise
  · with_reducible exact hx.takeRefFormat.loomTake.followOwner.rejoin

theorem KeepsOut.returnFromOut {d} (h : Keeps r s) : KeepsOut r (execReturnFromOut d s) :=
  .ite (.next h.tryReturn) (.when h h.setSlv.setSlv.raise)

theorem KeepsOut.slvRejoin {d} (h : Keeps r s) : KeepsOut r (execSlvRejoin d s) :=
  .when h (.ite h.ans (.ite h.tryReturn.ans h.ans))

/-! ### Modes -/

theorem Keeps.diesFollow {m} (h : Keeps r s) : Keeps r (s.diesFollow m) := by
  unfold State.diesFollow
  exact .foldl (fun _ _ h => h.powerForMode.lanesFollow) (.foldl (fun _ _ h => h.showDraw) h)

theorem Keeps.ramSleep {d} (h : Keeps r s) : Keeps r (s.ramSleep d) := by
  unfold State.ramSleep
  exact .updMd (.foldl (fun _ _ h => h.updChan.wr.clrBit) h)

theorem Keeps.ramWake {d} (h : Keeps r s) : Keeps r (s.ramWake d) := by
  unfold State.ramWake
  exact .foldl (fun _ _ h => h.wr.setBit) (.ite h h.updPower)

theorem Keeps.toStandby (h : Keeps r s) : Keeps r s.toStandby := by
  unfold State.toStandby
  exact .leaveFabric (.diesFollow (.foldl (fun _ _ h => .foldl (fun _ _ h => h.decIdle)
    h.ramSleep.videoOff.loomOff.audOff) h.modulesStandby.enterMode))

theorem Keeps.restConfigured (h : Keeps r s) : Keeps r s.restConfigured := by
  unfold State.restConfigured
  exact .toStandby (.foldl (fun _ _ h => h.takeRefFormat) (.foldl (fun _ _ h => h.portsInForce.queuesInForce)
    h.applyEqTable))

theorem Keeps.leaveStandby (h : Keeps r s) : Keeps r s.leaveStandby := by
  unfold State.leaveStandby
  exact .foldl (fun _ _ h => h.ramWake) h.enterMode.diesFollow

theorem Keeps.checkersOff (h : Keeps r s) : Keeps r s.checkersOff :=
  .foldl (fun _ _ h => .foldl (fun _ _ h => h.clrBit) h) h

theorem Keeps.leaveTest (h : Keeps r s) : Keeps r s.leaveTest := by
  unfold State.leaveTest
  exact .foldl (fun _ _ h => h.updMd) (.checkersOff h.dropObjects)

theorem Keeps.endPair (h : Keeps r s) : Keeps r s.endPair := by
  unfold State.endPair
  exact .setPair (.setSlv (.setSlv (.foldl (fun _ _ h => .ite h.updSlv.pushPackets h.updSlv) h)))

theorem Keeps.beginPair {a b} (h : Keeps r s) : Keeps r (s.beginPair a b) := by
  unfold State.beginPair
  exact .setSlv (.setSlv (.setOwner (.setPair (.foldl (fun _ _ h => h.updSlv.wr) h))))

theorem Keeps.autostart {d t} (h : Keeps r s) : Keeps r (s.autostart d t) :=
  .foldl (fun _ _ h => h.encControl) h

theorem Keeps.goLive {m} (h : Keeps r s) : Keeps r (s.goLive m) := by
  unfold State.goLive
  exact .foldl (fun _ _ h => .ite (.foldl (fun _ _ h => h.flowControl) (.ite (.foldl (fun _ _ h => h.igmpReports) h)
    (.autostart (.foldl (fun _ _ h => h.igmpReports) h)))) (.ite (.foldl (fun _ _ h => h.igmpReports) h)
    (.autostart (.foldl (fun _ _ h => h.igmpReports) h)))) (.diesFollow (.enterMode (.ite h.beginPair h)))

theorem Keeps.leaveFor {m} (h : Keeps r s) : Keeps r (s.leaveFor m).1 := by
  have hx : Keeps r (s.leaveConfigure (m == .selvedge)).1 := h.leaveConfigure
  unfold State.leaveFor
  generalize s.leaveConfigure (m == .selvedge) = x at hx ⊢
  split
  · exact h
  · extract_lets
    split
    · with_reducible exact hx.goLive
    · split
      · exact hx
      · exact hx

theorem Keeps.move {m} (h : Keeps r s) : Keeps r (s.move m).1 := by
  unfold State.move
  split
  · with_reducible exact h.leaveStandby
  · split
    · exact h
    · with_reducible exact h.restConfigured
  · with_reducible exact h.leaveFor
  · with_reducible exact h.setRecov
  · with_reducible exact h.endPair.enterMode.diesFollow
  · with_reducible exact .stopStreams (.setBit (.wr h.setTrans))
  · with_reducible exact h.beginStop

theorem Keeps.refuseMode {m reason code} (h : Keeps r s) : Keeps r (s.refuseMode m reason code) :=
  h.wr.setBit.raise.ans

theorem Keeps.requestMode {m} (h : Keeps r s) : Keeps r (s.requestMode m) := by
  unfold State.requestMode
  extract_lets _ s1
  have h1 : Keeps r s1 := h.setBoot.clrBit
  split
  · exact h1.refuseMode
  · split
    · exact .ans (.fst (by assumption) h1.move)
    · exact .refuseMode (.fst (by assumption) h1.move)

theorem KeepsOut.modeRequestStandby (h : Keeps r s) : KeepsOut r (execModeRequestStandby s) :=
  .when h h.requestMode

theorem KeepsOut.modeRequestConfigure (h : Keeps r s) : KeepsOut r (execModeRequestConfigure s) :=
  .when h h.requestMode

theorem KeepsOut.modeRequestService (h : Keeps r s) : KeepsOut r (execModeRequestService s) :=
  .when h h.requestMode

theorem KeepsOut.modeRequestSelvedge (h : Keeps r s) : KeepsOut r (execModeRequestSelvedge s) :=
  .when h h.requestMode

theorem KeepsOut.modeRequestTest (h : Keeps r s) : KeepsOut r (execModeRequestTest s) :=
  .when h h.requestMode

theorem Keeps.intoConfigure (h : Keeps r s) : Keeps r s.intoConfigure := by
  unfold State.intoConfigure
  extract_lets _ s1
  have h1 : Keeps r s1 := .ite h.leaveTest h
  exact .diesFollow (.enterMode (.foldl (fun _ _ h => h.audStop.videoOff) (.ite h1 h1.endPair)))

theorem Keeps.intoSelvedge (h : Keeps r s) : Keeps r s.intoSelvedge := by
  unfold State.intoSelvedge
  extract_lets s1
  have h1 : Keeps r s1 := h.beginPair.enterMode.diesFollow
  exact .ite h1.tryReturn h1

theorem KeepsOut.stopRuleComplete (h : Keeps r s) : KeepsOut r (execStopRuleComplete s) := by
  unfold execStopRuleComplete
  extract_lets s1
  have h1 : Keeps r s1 := h.setTrans.wr.clrBit
  split
  · exact .next h
  · exact .when h (.ite h1.intoSelvedge h1.intoConfigure)

theorem Keeps.cutChannel {d c} (h : Keeps r s) : Keeps r (s.cutChannel d c) :=
  h.encCut.updEnc.encEnded

theorem KeepsOut.stopRuleCut (h : Keeps r s) : KeepsOut r (execStopRuleCut s) := by
  unfold execStopRuleCut
  extract_lets
  split
  · exact .next h
  · exact .when h (.setBit (.foldl (fun _ _ h => h.cutChannel) h))

theorem Keeps.tryTarget {m} (h : Keeps r s) : Keeps r (s.tryTarget m) := by
  unfold State.tryTarget
  extract_lets more
  split
  · dsimp only [more]
    exact h.setBoot.putBit
  · split
    · dsimp only [more]
      exact .putBit (.setBoot (.fst (by assumption) h.move))
    · dsimp only [more]
      exact .putBit (.setBoot (.fst (by assumption) h.move))

theorem Keeps.bootReports {ms} (h : Keeps r s) : Keeps r (s.bootReports ms) := by
  unfold State.bootReports
  extract_lets _ s2
  have h2 : Keeps r s2 := .ite h.wr.raise.setBit.raise h.wr.raise
  exact .setBoot (.ite h2.setBit.raise h2)

theorem KeepsOut.bootEnd {ms} (h : Keeps r s) : KeepsOut r (execBootEnd ms s) := by
  unfold execBootEnd
  extract_lets _ _ s3
  have h3 : Keeps r s3 := .foldl (fun _ _ h => h.ramSleep) h.bootReports.setBit.enterMode.diesFollow
  exact .when h (.ite (.ite h3 (.ite h3.leaveStandby h3.leaveStandby.tryTarget)) h.bootReports.setBit)

theorem KeepsOut.bootTargetRetry (h : Keeps r s) : KeepsOut r (execBootTargetRetry s) :=
  .when h h.tryTarget

/-! ### Test facilities -/

theorem Keeps.bistWrite {d sec} (h : Keeps r s) : Keeps r (s.bistWrite d sec) :=
  .ite h.ans (.ite h.ans (.ite h.ans (.ite h.ans h.updMd.ans)))

theorem KeepsOut.testBistSection {d sec} (h : Keeps r s) : KeepsOut r (execTestBistSection d sec s) :=
  .when h h.bistWrite

theorem KeepsOut.bistComplete {d bad} (h : Keeps r s) : KeepsOut r (execBistComplete d bad s) := by
  unfold execBistComplete
  extract_lets
  split
  · exact .next h
  · exact .when h (.ite h.updMd.wr h.updMd.wr.raise)

theorem Keeps.crcRunStart {d n} (h : Keeps r s) : Keeps r (s.crcRunStart d n) := by
  unfold State.crcRunStart
  exact h.updMd.wr.wr.wr.ans

theorem KeepsOut.testCrcFrames {d n} (h : Keeps r s) : KeepsOut r (execTestCrcFrames d n s) :=
  .when h (.ite h.ans (.ite h.ans h.crcRunStart))

theorem KeepsOut.crcRunEnd {d} (h : Keeps r s) : KeepsOut r (execCrcRunEnd d s) := by
  unfold execCrcRunEnd
  exact .when h h.wr.raise

theorem Keeps.injectFault {d kind target count} (h : Keeps r s) : Keeps r (s.injectFault d kind target count) := by
  unfold State.injectFault
  split
  · exact h.updChan
  · exact h.updChan
  · exact h.updChan
  · exact h.updMd
  · exact h.updMd
  · exact h.updMd
  · exact h.updMd
  · exact h

theorem Keeps.inject {d kind target count} (h : Keeps r s) : Keeps r (s.inject d kind target count) :=
  .ite h.ans (.ite h.ans (.ite h.ans h.injectFault.bump.raise.ans))

theorem KeepsOut.injectSingleBitEcc {d ch count} (h : Keeps r s) : KeepsOut r (execInjectSingleBitEcc d ch count s) :=
  .when h h.inject

theorem KeepsOut.injectDoubleBitEcc {d ch count} (h : Keeps r s) : KeepsOut r (execInjectDoubleBitEcc d ch count s) :=
  .when h h.inject

theorem KeepsOut.injectCaParity {d ch count} (h : Keeps r s) : KeepsOut r (execInjectCaParity d ch count s) :=
  .when h h.inject

theorem KeepsOut.injectBusParity {d m count} (h : Keeps r s) : KeepsOut r (execInjectBusParity d m count s) :=
  .when h h.inject

theorem KeepsOut.injectQueueParity {d queue count} (h : Keeps r s) :
    KeepsOut r (execInjectQueueParity d queue count s) :=
  .when h h.inject

theorem KeepsOut.injectSymbolErrors {d lane count} (h : Keeps r s) :
    KeepsOut r (execInjectSymbolErrors d lane count s) :=
  .when h h.inject

theorem KeepsOut.injectUncorrectable {d lane count} (h : Keeps r s) :
    KeepsOut r (execInjectUncorrectable d lane count s) :=
  .when h h.inject

/-! ### The dictionary server -/

theorem Keeps.put {o d i v} (h : Keeps r s) : Keeps r (s.put o d i v) := by
  unfold State.put
  split
  · exact .ite h.w1c (.ite h.persistNum h.wr)
  · exact .ite h.persistBytes h.wrBytes

theorem Keeps.rearm {d k i level} (h : Keeps r s) : Keeps r (s.rearm d k i level) :=
  h.setArmed.watermark

theorem Keeps.afterWrite {o d i} (h : Keeps r s) : Keeps r (s.afterWrite o d i) := by
  unfold State.afterWrite
  extract_lets
  split
  · exact h.wr
  · exact h.updFlowOut
  · exact h.rearm
  · exact h.rearm
  · exact h.updQueue
  · exact h.updQueue
  · exact h.rearm
  · exact h.rearm
  · exact h.rearm
  · exact h.rearm
  · exact h.rearm
  · exact h.rearm
  · exact h.rearm
  · exact h.rearm
  · exact h

theorem Keeps.afterWriteC {old o} (h : Keeps r s) : Keeps r (s.afterWriteC old o) := by
  unfold State.afterWriteC
  split
  · exact h.sourceChanged
  · exact h.showPtp
  · exact h.showPtp
  · exact h.fabricEnabled
  · exact h.twlStatus
  · exact h

theorem Keeps.storeOn {o d i v} (h : Keeps r s) : Keeps r (s.storeOn o d i v) := by
  unfold State.storeOn
  extract_lets
  split
  · exact .ite h.portsTaken.put.afterWrite.quadsFollow h.put.afterWrite
  · exact h.put.afterWriteC

theorem Keeps.store {o d i v} (h : Keeps r s) : Keeps r (s.store o d i v) :=
  .ite (.mirror (fun _ _ _ h => h.storeOn) h) h.storeOn.ans

theorem Keeps.imageDataWrite {b} (h : Keeps r s) : Keeps r (s.imageDataWrite b) := by
  unfold State.imageDataWrite
  extract_lets ofs
  refine .ite h.ans (.ite h.ans (.ans (.setBit (.wr (h.trans ⟨rfl, id, id, fun w => ?_⟩)))))
  simp only [State.memoriesWf, Bool.and_eq_true] at w ⊢
  exact ⟨⟨w.1.1, Memory.wf_write _ _ _ w.1.2⟩, w.2⟩

theorem KeepsOut.volImageDataWrite {data} (h : Keeps r s) : KeepsOut r (execVolImageDataWrite data s) :=
  .when h h.imageDataWrite

theorem Keeps.keyWrite {slot b} (h : Keeps r s) : Keeps r (s.keyWrite slot b) := by
  unfold State.keyWrite
  exact .ite h.ans (.ite h.ans h.persistBytes.persistNum.persistNum.ans)

theorem Keeps.debugKeyWrite {b} (h : Keeps r s) : Keeps r (s.debugKeyWrite b) :=
  h.persistBytes.persistNum.ans

theorem Keeps.answered {o : Out} (ho : KeepsOut r o) (h : Keeps r s) : Keeps r (Machine.answered s o) := by
  unfold Machine.answered
  split
  · exact ho _ rfl
  · exact h

theorem Keeps.onMedia {d} {f : MDie → Out} (hf : ∀ m, KeepsOut r (f m)) (h : Keeps r s) : Keeps r (s.onMedia d f) := by
  unfold State.onMedia
  split
  · exact .answered (hf _) h
  · exact h.ans

theorem Keeps.applyPlain {o d i v} (h : Keeps r s) : Keeps r (s.applyPlain o d i v) := by
  unfold State.applyPlain
  extract_lets s1
  have h1 : Keeps r s1 := h.ans
  split
  · exact h1.requestMode
  · exact h1.advance
  · exact h1.debugKeyWrite
  · exact h1.tokenWrite
  · exact h1.imageDataWrite
  · exact h1.keyWrite
  · exact h1.fwDataWrite
  · exact h1.fwCommit
  · exact .onMedia (fun _ => .testBistSection h1) h1
  · exact .ite h1.ans (.onMedia (fun _ => .next h1.inject) h1)
  · exact .onMedia (fun _ => .testCrcFrames h1) h1
  · split
    · exact .answered (.rstRequestWarmPackage h1) h1
    · exact .answered (.rstRequestRestart h1) h1
    · exact .answered (.rstRequestRestart h1) h1
    · exact .answered (.rstRequestDieReset h1) h1
    · exact .answered (.rstRequestDieReset h1) h1
    · exact h1.ans
  · exact .answered (.timeStepRequest h1) h1
  · exact .answered (.timePpsSecondsSet h1) h1
  · exact .onMedia (fun _ => .timeCueEntryWrite h1) h1
  · exact .onMedia (fun _ => .ite (.timeCueArm h1) (.timeCueDisarm h1)) h1
  · exact .onMedia (fun _ => .timeCueGroupArm h1) h1
  · exact .onMedia (fun _ => .timeCueGroupDisarm h1) h1
  · exact .onMedia (fun _ => .laneStateRequest h1) h1
  · exact .answered (.laneEqTableWrite h1) h1
  · exact .onMedia (fun _ => .ite (.flowOutStart h1) (.flowOutStop h1)) h1
  · exact .onMedia (fun _ => .gateCommit h1) h1
  · exact .onMedia (fun _ => .loomDstBackupWrite h1) h1
  · refine .answered ?_ h1
    split
    · exact .loomGroupCommit h1
    · exact .loomGroupCommitPackage h1
  · exact .onMedia (fun _ => .cnvChainCommit h1) h1
  · exact .onMedia (fun _ => .cnvCoefSetWrite h1) h1
  · exact .onMedia (fun _ => .compSurfDataWrite h1) h1
  · exact .onMedia (fun _ => .cmpCommit h1) h1
  · exact .onMedia (fun _ => .cmpFeltRebuild h1) h1
  · exact .onMedia (fun _ => .scnOutFormatApply h1) h1
  · exact .onMedia (fun _ => .scnOutCommit h1) h1
  · exact h1.encControlWrite
  · exact .answered (.encChCommit h1) h1
  · exact .onMedia (fun _ => .encDeferDataWrite h1) h1
  · exact .onMedia (fun _ => .encDeferPush h1) h1
  · exact .answered (.rcKeyRequest h1) h1
  · exact .onMedia (fun _ => .rcGzMapDataWrite h1) h1
  · exact .answered (.entChSeiUserSend h1) h1
  · exact .onMedia (fun _ => .decCtxRestart h1) h1
  · exact .onMedia (fun _ => .audPortCommit h1) h1
  · exact .onMedia (fun _ => .ite (.audPortArm h1) (.audPortDisarm h1)) h1
  · exact .answered (.audGroupCommit h1) h1
  · exact .answered (.audStartTrigger h1) h1
  · exact .onMedia (fun _ => .memChRetrain h1) h1
  · exact .onMedia (fun _ => .busMasterReset h1) h1
  · exact .onMedia (fun _ => .slvRejoin h1) h1
  · exact .onMedia (fun _ => .diagWinWrite h1) h1
  · exact h1.store

theorem Keeps.runItems {ap : Applier} {ov role u i ne items}
    (hap : ∀ t o d i v, Keeps r t → Keeps r (ap t o d i v)) (h : Keeps r s) (ht : Keeps r u) :
    Keeps r (s.runItems ap ov role u i ne items).1 := by
  induction items generalizing u i ne with
  | nil =>
    cases ne with
    | none => exact ht.ans
    | some => exact ht.ans
  | cons it items ih =>
    rw [State.runItems]
    split
    · with_reducible exact h.ans
    · rename_i o d v _
      extract_lets u1
      have h1 : Keeps r u1 := hap _ _ _ _ _ ht
      clear_value u1
      split
      · split
        · with_reducible exact h.ans
        · with_reducible exact ht.ans
      · split
        · with_reducible exact h.withReports
        · split
          · exact h1
          · exact ih h1

theorem Keeps.runWrite {ap : Applier} {role items} (hap : ∀ t o d i v, Keeps r t → Keeps r (ap t o d i v))
    (h : Keeps r s) : Keeps r (State.runWrite ap s role items).1 := by
  unfold State.runWrite
  split
  · exact h.ans
  · exact .runItems hap h h

theorem Keeps.applyInside {o d i v} (h : Keeps r s) : Keeps r (applyInside s o d i v) :=
  .ite h.ans h.applyPlain

theorem Keeps.imageApply {role} (h : Keeps r s) : Keeps r (s.imageApply role) := by
  unfold State.imageApply
  split
  · exact h.setBit.raise.ans
  · exact .ans (.raise (.ite (.clrBit (.runWrite (fun _ _ _ _ _ h => h.applyInside) h)) (.setBit
    (.runWrite (fun _ _ _ _ _ h => h.applyInside) h))))

theorem KeepsOut.volImageApply (h : Keeps r s) : KeepsOut r (execVolImageApply s) :=
  .when h (.ite h.imageApply h.ans)

theorem Keeps.applyAs {role o d i v} (h : Keeps r s) : Keeps r (applyAs role s o d i v) :=
  .ite h.imageApply h.applyPlain

theorem Keeps.writeItems {role items} (h : Keeps r s) : Keeps r (s.writeItems role items).1 :=
  .runWrite (fun _ _ _ _ _ h => h.applyAs) h.runDue

theorem KeepsOut.registerWrite {it} (h : Keeps r s) : KeepsOut r (execRegisterWrite it s) :=
  .when h h.writeItems

theorem Keeps.readValue {o d i} (h : Keeps r s) : Keeps r (s.readValue o d i).2 := by
  unfold State.readValue
  extract_lets s1 s2
  have h1 : Keeps r s1 := h.ans
  have h2 : Keeps r s2 := by
    dsimp only [s2]
    split
    · exact h1.diagRead
    · exact h1
  split
  · exact h1
  · exact h1
  · exact h1
  · exact h1
  · exact h1
  · exact h1
  · exact h1
  · exact h2
  · exact h1

theorem Keeps.clearCount {o d i} (h : Keeps r s) : Keeps r (s.clearCount o d i) :=
  .ite h.persistNum h.wr

theorem Keeps.clearItems {role items} (h : Keeps r s) : Keeps r (s.clearItems role items).1 := by
  unfold State.clearItems
  split
  · exact h.ans
  · exact h.ans
  · refine .ans ?_
    refine .foldl (fun _ _ h => ?_) h
    split
    · exact h
    · exact .foldl (fun _ _ h => .foldl (fun _ _ h => h.clearCount) h) h

/-! ### Sessions and answers -/

theorem Keeps.updSession {n f} (h : Keeps r s) : Keeps r (s.updSession n f) :=
  h.sessionsTo (by rw [List.length_map]; exact id)

theorem Keeps.deliverTo {port f} (h : Keeps r s) : Keeps r (s.deliverTo port f) := by
  unfold State.deliverTo
  exact .ite h.setVol h.send

theorem Keeps.responseTag {key r'} (h : Keeps r s) : Keeps r (s.responseTag key r').2 := by
  unfold State.responseTag
  extract_lets
  split
  · exact h
  · split
    · exact h.freeBytes
    · exact h

theorem Keeps.makeResponse {x h' op r'} (h : Keeps r s) : Keeps r (s.makeResponse x h' op r').2 := by
  unfold State.makeResponse
  dsimp only
  exact h.responseTag

theorem Keeps.respondTo {h' y} (h : Keeps r s) : Keeps r (s.respondTo h' y) :=
  .ite h.deliverTo h

theorem Keeps.discardVol {port slot} (h : Keeps r s) : Keeps r (s.discardVol port slot) := by
  unfold State.discardVol
  extract_lets s1
  have h1 : Keeps r s1 := h.bump.setBit
  split
  · exact h1
  · split
    refine .raise ?_
    refine .setVol ?_
    refine .snd (by assumption) ?_
    split
    · exact h1
    · exact h1.free

theorem Keeps.heard {x h'} (h : Keeps r s) : Keeps r (s.heard x h') := by
  unfold State.heard
  exact .ite h.updSession h.updSession.raise

theorem KeepsOut.volRequest {x op items payload} {run : State → Session → State × Reply}
    (hrun : ∀ t y, Keeps r t → Keeps r (run t y).1) (h : Keeps r s) : KeepsOut r (s.volRequest x op items payload
      run) := by
  unfold State.volRequest
  refine .when h ?_
  extract_lets _ s1
  have h1 : Keeps r s1 := .ite h.setVol h
  split
  · exact h1.bump
  · split
    · exact h1.discardVol
    · split
      · exact h1.discardVol
      · extract_lets s2 s3
        have h2 : Keeps r s2 := h1.heard
        clear_value s2
        split
        · with_reducible exact h2.makeResponse.respondTo
        · split
          · with_reducible exact .respondTo (.updSession (.makeResponse (hrun _ _ h2.updSession)))
          · split
            · with_reducible exact h2.respondTo
            · with_reducible exact h2.makeResponse.respondTo

theorem Keeps.refuseOpen {h' st} (h : Keeps r s) : Keeps r (s.refuseOpen h' st) :=
  h.respondTo

theorem Keeps.openSession {x slot role client} (room : s.vol.sessions.length < sessionMax) (h : Keeps r s) :
    Keeps r (s.openSession x slot role client) := by
  unfold State.openSession
  dsimp only
  refine .respondTo (.makeResponse (.showSessions (h.free.freeBytes.sessionsTo fun _ => ?_)))
  rw [List.length_append]
  exact room

theorem KeepsOut.volOpen {x slot nonce} (h : Keeps r s) : KeepsOut r (execVolOpen x slot nonce s) := by
  unfold execVolOpen
  extract_lets _ s1
  have h1 : Keeps r s1 := .ite h.same h
  refine .when h ?_
  split
  · exact h1.refuseOpen
  · rename_i room
    split
    · exact h1.refuseOpen
    · exact h1.openSession (Nat.lt_of_not_le room)

theorem KeepsOut.volClose {h'} (h : Keeps r s) : KeepsOut r (execVolClose h' s) :=
  .volRequest (fun _ _ h => h.endSession) h

theorem KeepsOut.volNop {h'} (h : Keeps r s) : KeepsOut r (execVolNop h' s) :=
  .volRequest (fun _ _ h => h) h

theorem KeepsOut.sessionEstablishTimeout {n} (h : Keeps r s) : KeepsOut r (execSessionEstablishTimeout n s) := by
  unfold execSessionEstablishTimeout
  split
  · exact .next h
  · exact .when h h.endSession

theorem KeepsOut.sessionTimeout {n} (h : Keeps r s) : KeepsOut r (execSessionTimeout n s) := by
  unfold execSessionTimeout
  split
  · exact .next h
  · exact .when h h.endSession

/-! ### Requests -/

theorem Keeps.readInstances {o d i n room} (h : Keeps r s) : Keeps r (s.readInstances o d i n room).2.2 := by
  induction n generalizing s i room with
  | zero => exact h
  | succ n ih =>
    unfold State.readInstances
    dsimp only
    split
    · exact h.readValue
    · exact ih h.readValue

theorem Keeps.gather {i g items} (h : Keeps r s) : Keeps r (s.gather i g items).1 := by
  induction items generalizing s i g with
  | nil => exact h
  | cons it items ih =>
    unfold State.gather
    split
    · exact h
    · dsimp only
      split
      · exact h
      · split
        · exact h.readInstances
        · split
          · exact h.readInstances
          · exact ih h.readInstances

theorem Keeps.readItems {items} (h : Keeps r s) : Keeps r (s.readItems items).1 := by
  unfold State.readItems
  split
  · exact h
  · exact h
  · split
    split
    · exact .fst (by assumption) h.ans.gather
    · exact .fst (by assumption) h.ans.gather

theorem KeepsOut.volRead {h' items} (h : Keeps r s) : KeepsOut r (execVolRead h' items s) :=
  .volRequest (fun _ _ h => h.readItems) h

theorem KeepsOut.volWrite {h' items} (h : Keeps r s) : KeepsOut r (execVolWrite h' items s) :=
  .volRequest (fun _ _ h => h.writeItems) h

theorem KeepsOut.volDescribe {x items} (h : Keeps r s) : KeepsOut r (execVolDescribe x items s) := by
  refine .volRequest (fun _ _ h => ?_) h
  split
  · exact h
  · exact h

theorem KeepsOut.volList {h' die index sub} (h : Keeps r s) : KeepsOut r (execVolList h' die index sub s) := by
  unfold execVolList
  exact .volRequest (fun _ _ h => h) h

theorem KeepsOut.volClearCount {h' items} (h : Keeps r s) : KeepsOut r (execVolClearCount h' items s) :=
  .volRequest (fun _ _ h => h.clearItems) h

theorem Keeps.bulkBegin {x it total} (h : Keeps r s) : Keeps r (s.bulkBegin x it total).1 := by
  unfold State.bulkBegin
  split
  · exact h
  · exact h
  · split
    · exact h
    · split
      · exact h
      · split
        · exact h
        · exact h.free.updSession

theorem KeepsOut.volBulkBegin {h' it total} (h : Keeps r s) : KeepsOut r (execVolBulkBegin h' it total s) :=
  .volRequest (fun _ _ h => h.bulkBegin) h

theorem Keeps.bulkData {x id offset data} (h : Keeps r s) : Keeps r (s.bulkData x id offset data).1 := by
  unfold State.bulkData
  split
  · exact h
  · split
    · exact h
    · exact h.updSession

theorem KeepsOut.volBulkData {h' id offset data} (h : Keeps r s) : KeepsOut r (execVolBulkData h' id offset data s) :=
  .volRequest (fun _ _ h => h.bulkData) h

theorem Keeps.bulkEnd {x id} (h : Keeps r s) : Keeps r (s.bulkEnd x id).1 := by
  unfold State.bulkEnd
  extract_lets
  split
  · exact h
  · split
    · exact h
    · exact h.updSession.writeItems

theorem KeepsOut.volBulkEnd {h' id} (h : Keeps r s) : KeepsOut r (execVolBulkEnd h' id s) :=
  .volRequest (fun _ _ h => h.bulkEnd) h

theorem Keeps.bulkRead {x it offset len} (h : Keeps r s) : Keeps r (s.bulkRead x it offset len).1 := by
  unfold State.bulkRead
  split
  · exact h
  · exact h
  · split
    · exact h
    · extract_lets
      split
      · exact h
      · split
        split
        · exact .snd (by assumption) h.readValue
        · exact .updSession (.snd (by assumption) h.readValue)

theorem KeepsOut.volBulkRead {h' it offset len} (h : Keeps r s) : KeepsOut r (execVolBulkRead h' it offset len s) :=
  .volRequest (fun _ _ h => h.bulkRead) h

theorem KeepsOut.bulkTransferTimeout {n} (h : Keeps r s) : KeepsOut r (execBulkTransferTimeout n s) := by
  unfold execBulkTransferTimeout
  split
  · exact .next h
  · exact .when h h.updSession

theorem KeepsOut.bulkSnapshotExpiry {n} (h : Keeps r s) : KeepsOut r (execBulkSnapshotExpiry n s) := by
  unfold execBulkSnapshotExpiry
  exact .when h h.updSession

theorem KeepsOut.volSubscribe {x start ranges} (h : Keeps r s) : KeepsOut r (execVolSubscribe x start ranges s) := by
  refine .volRequest (fun _ _ h => ?_) h
  split
  · exact h
  · exact h.updSession

theorem Keeps.loseRecords {n first} (h : Keeps r s) : Keeps r (s.loseRecords n first) := by
  unfold State.loseRecords
  extract_lets
  split
  · exact h
  · exact .ite h.updSession h.updSession.setBit.raise

theorem Keeps.sendNotice {x n} (h : Keeps r s) : Keeps r (s.sendNotice x n) :=
  h.deliverTo

theorem Keeps.notify {x l} (h : Keeps r s) : Keeps r (s.notify x l) := by
  unfold State.notify
  extract_lets _ _ _ lost _ _ _ s2
  have h2 : Keeps r s2 := .ite h.updSession h.updSession.updSession.sendNotice
  dsimp only [lost]
  split
  · exact h2
  · exact h2.loseRecords

theorem KeepsOut.volNotifySend {n} (h : Keeps r s) : KeepsOut r (execVolNotifySend n s) := by
  unfold execVolNotifySend
  split
  · exact .next h
  · exact .when h h.notify

theorem KeepsOut.volAck {h' gseq} (h : Keeps r s) : KeepsOut r (execVolAck h' gseq s) := by
  unfold execVolAck
  exact .volRequest (fun _ _ h => h.updSession) h

theorem KeepsOut.notifyRetransmit {n} (h : Keeps r s) : KeepsOut r (execNotifyRetransmit n s) := by
  unfold execNotifyRetransmit
  split
  · exact .next h
  · split
    · exact .next h
    · refine .when h ?_
      split
      · exact h.updSession.sendNotice
      · split
        · exact h.updSession
        · exact h.updSession.loseRecords

theorem KeepsOut.volLogRead {x log count boot start} (h : Keeps r s) :
    KeepsOut r (execVolLogRead x log count boot start s) := by
  refine .volRequest (fun _ _ h => ?_) h
  split
  · exact h
  · exact h
  · exact h

/-! ### Frames -/

theorem KeepsOut.fieldNetworkLinkChange {port up} (h : Keeps r s) : KeepsOut r (execFieldNetworkLinkChange port up s) :=
  .when h h.putBit

theorem KeepsOut.fieldNetFrame {port f} (h : Keeps r s) : KeepsOut r (execFieldNetFrame port f s) := by
  refine .when h ?_
  split
  · exact .ite h.send h
  · exact .ite h.send h
  · exact h
  · exact .ite h h.bump
  · exact h.bump
  · exact h

theorem KeepsOut.spiWriteFrame {wellFormed} (h : Keeps r s) : KeepsOut r (execSpiWriteFrame wellFormed s) := by
  unfold execSpiWriteFrame
  exact .when h (.ite h.setVol (.ite h.setVol h.setVol.bump))

theorem KeepsOut.spiReadFrame (h : Keeps r s) : KeepsOut r (execSpiReadFrame s) := by
  unfold execSpiReadFrame
  refine .when h ?_
  split
  · exact h.send
  · exact h.setVol.send

theorem KeepsOut.spiReadStatus (h : Keeps r s) : KeepsOut r (execSpiReadStatus s) :=
  .when h h.send

/-! ### Every command -/

/-- Every command keeps what a step keeps. -/
theorem KeepsOut.exec {i} (h : Keeps r s) : KeepsOut r (Machine.exec i s) := by
  cases i with
  | sequenceFault => exact .sequenceFault h
  | porstAssert => exact .porstAssert h
  | porstRelease => exact .porstRelease h
  | wrstAssert => exact .wrstAssert h
  | railWarningCrossing => exact .railWarningCrossing h
  | railRecovery => exact .railRecovery h
  | brownoutEventReceived => exact .brownoutEventReceived h
  | railResetCrossing => exact .railResetCrossing h
  | mediaDieReturn => exact .mediaDieReturn h
  | sectionWake => exact .sectionWake h
  | sectionPowerGood => exact .sectionPowerGood h
  | sectionWakeTimeout => exact .sectionWakeTimeout h
  | thermalSample => exact .thermalSample h
  | dieCThermalRestart => exact .dieCThermalRestart h
  | dieCWatchdogExpiry => exact .dieCWatchdogExpiry h
  | rstRequestRestart => exact .rstRequestRestart h
  | rstRequestDieReset => exact .rstRequestDieReset h
  | rstRequestWarmPackage => exact .rstRequestWarmPackage h
  | ptpSyncReceived => exact .ptpSyncReceived h
  | ptpAnnounceReceived => exact .ptpAnnounceReceived h
  | syncLossTimeout => exact .syncLossTimeout h
  | announceReceiptTimeout => exact .announceReceiptTimeout h
  | timeStepRequest => exact .timeStepRequest h
  | mediaDieSteering => exact .mediaDieSteering h
  | f10mEdgeTimeout => exact .f10mEdgeTimeout h
  | f10mMeasurement => exact .f10mMeasurement h
  | ppsEdge => exact .ppsEdge h
  | ppsLossTimeout => exact .ppsLossTimeout h
  | timePpsSecondsSet => exact .timePpsSecondsSet h
  | ppsOutputSecond => exact .ppsOutputSecond h
  | timeCueEntryWrite => exact .timeCueEntryWrite h
  | timeCueArm => exact .timeCueArm h
  | timeCueDisarm => exact .timeCueDisarm h
  | timeCueGroupArm => exact .timeCueGroupArm h
  | timeCueGroupDisarm => exact .timeCueGroupDisarm h
  | cueDispatch => exact .cueDispatch h
  | cueCommit => exact .cueCommit h
  | cueKeyPicture => exact .cueKeyPicture h
  | cueAudioStart => exact .cueAudioStart h
  | cueFlowStart => exact .cueFlowStart h
  | cueFlowStop => exact .cueFlowStop h
  | cueChannelStart => exact .cueChannelStart h
  | cueChannelStop => exact .cueChannelStop h
  | cueFormatApply => exact .cueFormatApply h
  | cueMarker => exact .cueMarker h
  | cueArmGroup => exact .cueArmGroup h
  | cueDisarmGroup => exact .cueDisarmGroup h
  | eventRecordArrival => exact .eventRecordArrival h
  | overflowMarkerEmit => exact .overflowMarkerEmit h
  | quadPllLockLoss => exact .quadPllLockLoss h
  | quadPllRelock => exact .quadPllRelock h
  | portUp => exact .portUp h
  | portDown => exact .portDown h
  | fecDegradeCheck => exact .fecDegradeCheck h
  | laneStateRequest => exact .laneStateRequest h
  | laneTransitionComplete => exact .laneTransitionComplete h
  | cdrFreeze => exact .cdrFreeze h
  | cdrReacquire => exact .cdrReacquire h
  | patternCheckerLock => exact .patternCheckerLock h
  | patternCheckerLoss => exact .patternCheckerLoss h
  | laneEqTableWrite => exact .laneEqTableWrite h
  | moduleInserted => exact .moduleInserted h
  | moduleStatePoll => exact .moduleStatePoll h
  | moduleReadyTimeout => exact .moduleReadyTimeout h
  | moduleReady => exact .moduleReady h
  | datapathActivated => exact .datapathActivated h
  | moduleRemoved => exact .moduleRemoved h
  | moduleInterrupt => exact .moduleInterrupt h
  | mgmtBusNoAck => exact .mgmtBusNoAck h
  | mgmtBusRetry => exact .mgmtBusRetry h
  | monitorPoll => exact .monitorPoll h
  | wearMinuteUpdate => exact .wearMinuteUpdate h
  | wearHourUpdate => exact .wearHourUpdate h
  | wearRecordFlush => exact .wearRecordFlush h
  | rxFrame => exact .rxFrame h
  | arpUnresolvedTimeout => exact .arpUnresolvedTimeout h
  | mediaPacketReceived => exact .mediaPacketReceived h
  | legTimeout => exact .legTimeout h
  | flowSwitchLine => exact .flowSwitchLine h
  | egressSchedule => exact .egressSchedule h
  | shaperRefill => exact .shaperRefill h
  | pacedPacketRelease => exact .pacedPacketRelease h
  | flowOutStart => exact .flowOutStart h
  | flowOutStop => exact .flowOutStop h
  | flowControlLanding => exact .flowControlLanding h
  | gateCommit => exact .gateCommit h
  | gateSetStart => exact .gateSetStart h
  | gateEntryBoundary => exact .gateEntryBoundary h
  | loomGroupCommit => exact .loomGroupCommit h
  | loomGroupCommitPackage => exact .loomGroupCommitPackage h
  | loomDstBackupWrite => exact .loomDstBackupWrite h
  | dstSwitchLine => exact .dstSwitchLine h
  | sourceLossDetect => exact .sourceLossDetect h
  | audioFollowSwitch => exact .audioFollowSwitch h
  | fsyWriterFrameStart => exact .fsyWriterFrameStart h
  | fsyFrameComplete => exact .fsyFrameComplete h
  | fsyReadDecision => exact .fsyReadDecision h
  | fsyRateMeasurement => exact .fsyRateMeasurement h
  | cnvChainCommit => exact .cnvChainCommit h
  | chainConfigApply => exact .chainConfigApply h
  | cnvCoefSetWrite => exact .cnvCoefSetWrite h
  | frcOutputPicture => exact .frcOutputPicture h
  | compSurfDataWrite => exact .compSurfDataWrite h
  | cmpCommit => exact .cmpCommit h
  | scnOutCommit => exact .scnOutCommit h
  | guardTest => exact .guardTest h
  | latch => exact .latch h
  | feltPressStart => exact .feltPressStart h
  | feltPressComplete => exact .feltPressComplete h
  | cmpFeltRebuild => exact .cmpFeltRebuild h
  | scnOutFormatApply => exact .scnOutFormatApply h
  | newRasterStart => exact .newRasterStart h
  | crcRectEnd => exact .crcRectEnd h
  | encChStart => exact .encChStart h
  | encChStop => exact .encChStop h
  | channelControlLanding => exact .channelControlLanding h
  | encChCommit => exact .encChCommit h
  | encConfigApply => exact .encConfigApply h
  | sourceRowEnd => exact .sourceRowEnd h
  | motionJobComplete => exact .motionJobComplete h
  | pixelJobStart => exact .pixelJobStart h
  | entropyJobComplete => exact .entropyJobComplete h
  | rowPacketRelease => exact .rowPacketRelease h
  | lateRowRelease => exact .lateRowRelease h
  | stageWindowMiss => exact .stageWindowMiss h
  | pictureHrdUpdate => exact .pictureHrdUpdate h
  | enginePairLoss => exact .enginePairLoss h
  | channelReplacement => exact .channelReplacement h
  | encDeferDataWrite => exact .encDeferDataWrite h
  | encDeferPush => exact .encDeferPush h
  | borrowedJobDeadline => exact .borrowedJobDeadline h
  | rcKeyRequest => exact .rcKeyRequest h
  | rcGzMapDataWrite => exact .rcGzMapDataWrite h
  | entChSeiUserSend => exact .entChSeiUserSend h
  | entropyEngineStall => exact .entropyEngineStall h
  | decoderAccessUnit => exact .decoderAccessUnit h
  | decodeAccessUnit => exact .decodeAccessUnit h
  | decoderPictureOutput => exact .decoderPictureOutput h
  | decCtxRestart => exact .decCtxRestart h
  | decoderNoOutputTimeout => exact .decoderNoOutputTimeout h
  | deferQueueResume => exact .deferQueueResume h
  | routerTick => exact .routerTick h
  | tdmFrameSync => exact .tdmFrameSync h
  | audPortCommit => exact .audPortCommit h
  | islandUpdate => exact .islandUpdate h
  | rateGate => exact .rateGate h
  | slaveClockStop => exact .slaveClockStop h
  | slaveClockReturn => exact .slaveClockReturn h
  | frameSyncGlitch => exact .frameSyncGlitch h
  | audioEgressPacket => exact .audioEgressPacket h
  | audGroupCommit => exact .audGroupCommit h
  | audPortArm => exact .audPortArm h
  | audPortDisarm => exact .audPortDisarm h
  | audStartTrigger => exact .audStartTrigger h
  | dramRequestEnqueue => exact .dramRequestEnqueue h
  | dramCommandIssue => exact .dramCommandIssue h
  | dramReadReturn => exact .dramReadReturn h
  | refreshDue => exact .refreshDue h
  | mprTemperatureRead => exact .mprTemperatureRead h
  | activateCounterEpoch => exact .activateCounterEpoch h
  | parityAlert => exact .parityAlert h
  | parityReplayComplete => exact .parityReplayComplete h
  | zqcsCalibration => exact .zqcsCalibration h
  | strobeDriftTrack => exact .strobeDriftTrack h
  | eyeCheck => exact .eyeCheck h
  | memChRetrain => exact .memChRetrain h
  | inServiceRetrainDone => exact .inServiceRetrainDone h
  | fullRetrainDone => exact .fullRetrainDone h
  | scrubGranule => exact .scrubGranule h
  | scrubPassComplete => exact .scrubPassComplete h
  | busTransactionIssue => exact .busTransactionIssue h
  | semaphoreRead => exact .semaphoreRead h
  | semaphoreWrite => exact .semaphoreWrite h
  | masterReset => exact .masterReset h
  | masterResetAck => exact .masterResetAck h
  | resetDrainOverrun => exact .resetDrainOverrun h
  | busMasterReset => exact .busMasterReset h
  | queuePush => exact .queuePush h
  | queuePop => exact .queuePop h
  | packetCompleteCompare => exact .packetCompleteCompare h
  | compareRecordReceived => exact .compareRecordReceived h
  | compareTimeout => exact .compareTimeout h
  | decisionRecordReceived => exact .decisionRecordReceived h
  | resynchronization => exact .resynchronization h
  | heartbeatSend => exact .heartbeatSend h
  | heartbeatDeadline => exact .heartbeatDeadline h
  | outHeartbeatReceived => exact .outHeartbeatReceived h
  | splitEntry => exact .splitEntry h
  | splitRejoin => exact .splitRejoin h
  | slvRejoin => exact .slvRejoin h
  | returnFromOut => exact .returnFromOut h
  | pairedEntry => exact .pairedEntry h
  | bistRotation => exact .bistRotation h
  | helloSend => exact .helloSend h
  | helloReceived => exact .helloReceived h
  | linkHelloTimeout => exact .linkHelloTimeout h
  | linkStateReceived => exact .linkStateReceived h
  | rootElection => exact .rootElection h
  | idAssignReceived => exact .idAssignReceived h
  | allocReceived => exact .allocReceived h
  | allocAckReceived => exact .allocAckReceived h
  | allocNackReceived => exact .allocNackReceived h
  | freeReceived => exact .freeReceived h
  | twillSyncSend => exact .twillSyncSend h
  | twillSyncReceived => exact .twillSyncReceived h
  | linkDelayMeasurement => exact .linkDelayMeasurement h
  | delayRequestReceived => exact .delayRequestReceived h
  | mediaFlitReceived => exact .mediaFlitReceived h
  | controlFlitReceived => exact .controlFlitReceived h
  | channelReroute => exact .channelReroute h
  | linkPark => exact .linkPark h
  | parkedLinkWake => exact .parkedLinkWake h
  | idHoldExpiry => exact .idHoldExpiry h
  | ucieLinkDown => exact .ucieLinkDown h
  | ucieRetrain => exact .ucieRetrain h
  | dieCReattach => exact .dieCReattach h
  | volOpen => exact .volOpen h
  | volClose => exact .volClose h
  | volNop => exact .volNop h
  | volRead => exact .volRead h
  | volWrite => exact .volWrite h
  | volDescribe => exact .volDescribe h
  | volList => exact .volList h
  | volClearCount => exact .volClearCount h
  | volBulkBegin => exact .volBulkBegin h
  | volBulkData => exact .volBulkData h
  | volBulkEnd => exact .volBulkEnd h
  | volBulkRead => exact .volBulkRead h
  | volSubscribe => exact .volSubscribe h
  | volNotifySend => exact .volNotifySend h
  | volAck => exact .volAck h
  | volLogRead => exact .volLogRead h
  | notifyRetransmit => exact .notifyRetransmit h
  | sessionEstablishTimeout => exact .sessionEstablishTimeout h
  | sessionTimeout => exact .sessionTimeout h
  | bulkTransferTimeout => exact .bulkTransferTimeout h
  | bulkSnapshotExpiry => exact .bulkSnapshotExpiry h
  | spiWriteFrame => exact .spiWriteFrame h
  | spiReadFrame => exact .spiReadFrame h
  | spiReadStatus => exact .spiReadStatus h
  | fieldNetFrame => exact .fieldNetFrame h
  | volImageDataWrite => exact .volImageDataWrite h
  | volImageApply => exact .volImageApply h
  | persistentCountFlush => exact .persistentCountFlush h
  | lcsAdvanceProvisioned => exact .lcsAdvanceProvisioned h
  | lcsAdvanceDeployed => exact .lcsAdvanceDeployed h
  | lcsAdvanceReturn => exact .lcsAdvanceReturn h
  | lcsDebugToken => exact .lcsDebugToken h
  | debugTokenExpiry => exact .debugTokenExpiry h
  | fwImageDataWrite => exact .fwImageDataWrite h
  | fwImageCommit => exact .fwImageCommit h
  | diagWinRead => exact .diagWinRead h
  | diagWinWrite => exact .diagWinWrite h
  | registerWrite => exact .registerWrite h
  | bootStart => exact .bootStart h
  | bootFailure => exact .bootFailure h
  | bootEnd => exact .bootEnd h
  | bootTargetRetry => exact .bootTargetRetry h
  | modeRequestStandby => exact .modeRequestStandby h
  | modeRequestConfigure => exact .modeRequestConfigure h
  | modeRequestService => exact .modeRequestService h
  | modeRequestSelvedge => exact .modeRequestSelvedge h
  | modeRequestTest => exact .modeRequestTest h
  | stopRuleComplete => exact .stopRuleComplete h
  | stopRuleCut => exact .stopRuleCut h
  | recoveryEntry => exact .recoveryEntry h
  | recoveryEnd => exact .recoveryEnd h
  | testBistSection => exact .testBistSection h
  | bistComplete => exact .bistComplete h
  | testCrcFrames => exact .testCrcFrames h
  | crcRunEnd => exact .crcRunEnd h
  | injectSingleBitEcc => exact .injectSingleBitEcc h
  | injectDoubleBitEcc => exact .injectDoubleBitEcc h
  | injectCaParity => exact .injectCaParity h
  | injectBusParity => exact .injectBusParity h
  | injectQueueParity => exact .injectQueueParity h
  | injectSymbolErrors => exact .injectSymbolErrors h
  | injectUncorrectable => exact .injectUncorrectable h
  | ptpSyncTransmit => exact .ptpSyncTransmit h
  | ptpAnnounceTransmit => exact .ptpAnnounceTransmit h
  | ptpDelayReqTransmit => exact .ptpDelayReqTransmit h
  | ptpDelayReqReceived => exact .ptpDelayReqReceived h
  | ptpDelayRespReceived => exact .ptpDelayRespReceived h
  | ptpFollowUpReceived => exact .ptpFollowUpReceived h
  | dieBridgeDown => exact .dieBridgeDown h
  | dieBridgeRestored => exact .dieBridgeRestored h
  | fieldNetworkLinkChange => exact .fieldNetworkLinkChange h
  | alertNRelease => exact .alertNRelease h
  | jtagTapAccess => exact .jtagTapAccess h
  | orphanCompareRecordExpiry => exact .orphanCompareRecordExpiry h
  | borrowedJobRelease => exact .borrowedJobRelease h

/-! ### An idle step -/

theorem Keeps.countBase (h : Keeps r s) : Keeps r s.countBase := by
  unfold State.countBase
  exact .ite h.setTime h.setTime

theorem Keeps.countTime (h : Keeps r s) : Keeps r s.countTime := by
  unfold State.countTime
  exact .foldl (fun _ _ h => .ite h.updMd h) (.setBoot (.ite h.countBase h))

theorem Keeps.idle (h : Keeps r s) : Keeps r s.idle := by
  unfold State.idle
  extract_lets _ s2
  have h2 : Keeps r s2 := .ite h.countTime.runDue.updPower h.countTime.runDue
  exact .ite h2.finishReturn h2

end

/-! ### What a step keeps -/

/-- A step keeps what a command keeps, but for the queue, which it may shorten. -/
theorem step_keeps {s t : State} (e : step s = .next t) : ∃ q, Keeps { s with pending := q } t := by
  unfold step at e
  split at e
  · cases e
    exact ⟨s.pending, (Keeps.refl s).idle⟩
  · exact ⟨_, KeepsOut.exec (.refl _) t e⟩

/-- Settles O58: every operation keeps the queue and the canonical form (`Keeps`), and so do the commands built of them. -/
theorem everyStepKeepsTheCanonicalForm : Obligations.EveryStepKeepsTheCanonicalForm := by
  refine ⟨fun c s t e => (KeepsOut.exec (.refl s) t e).pending, fun s t w e => ?_⟩
  obtain ⟨_, h⟩ := step_keeps e
  exact h.dictWf w


end Sys2Proof.Machine
end

section
namespace Sys2Proof.Machine

/-! ### What folds and tables leave -/

/-- A fold whose steps leave a part of the state leaves it. -/
theorem foldl_leaves {α β : Type _} (part : State → β) {f : State → α → State} (h : ∀ s x, part (f s x) = part s)
    (s : State) (l : List α) : part (l.foldl f s) = part s := by
  induction l generalizing s with
  | nil => rfl
  | cons x l ih => exact (ih _).trans (h s x)

theorem tabGet_tabSet {α : Type} (t : Tab α) (k j : Nat) (v d : α) :
    tabGet (tabSet t k v) j d = if k = j then v else tabGet t j d := by
  induction t with
  | nil => rfl
  | cons e t ih =>
    obtain ⟨i, w⟩ := e
    simp only [tabSet]
    split
    · simp [tabGet]
    · split
      · next h => subst h; simp only [tabGet]; split <;> rfl
      · next h =>
        simp only [tabGet, ih]
        split
        · next e => rw [if_neg (fun k => h (e.trans k.symm))]
        · rfl

/-! ### The answer -/

@[simp] theorem State.answer_ans (s : State) (a : Status) : (s.ans a).answer = a := rfl

@[simp] theorem State.rd_ans (s : State) (a : Status) (o : ObjDef) (d : Die) (i : Nat) : (s.ans a).rd o d i = s.rd o d i := rfl

@[simp] theorem State.rdN_ans (s : State) (a : Status) (o : ObjDef) (d : Die) (i : Nat) : (s.ans a).rdN o d i = s.rdN o d i := rfl

@[simp] theorem State.bit_ans (s : State) (a : Status) (o : ObjDef) (d : Die) (i n : Nat) :
    (s.ans a).bit o d i n = s.bit o d i n := rfl

theorem State.reported_ans (s t : State) (a : Status) (d : PDie) (code inst payload : Nat) :
    s.reported (t.ans a) d code inst payload ↔ s.reported t d code inst payload := by
  cases d <;> rfl

@[simp] theorem State.mram_ans (s : State) (a : Status) : (s.ans a).mram = s.mram := rfl

/-! ### Destinations -/

/-- A state with the dies' own parts as they were has the destinations as they were. -/
theorem State.dst_of_dies {s t : State} (ha : t.dieA = s.dieA) (hb : t.dieB = s.dieB) (e : MDie) (q : Nat) :
    t.dst e q = s.dst e q := by
  cases e <;> simp only [State.dst, State.md, ha, hb]

theorem State.dst_updDst (s : State) (d e : MDie) (p q : Nat) (f : DstSt → DstSt) :
    (s.updDst d p f).dst e q = if d = e ∧ p = q then f (s.dst d p) else s.dst e q := by
  cases d <;> cases e <;> simp [State.dst, State.updDst, State.updMd, State.md, tabGet_tabSet]

theorem State.rd_updDst (s : State) (d : MDie) (p : Nat) (f : DstSt → DstSt) (o : ObjDef) (e : Die) (i : Nat) :
    (s.updDst d p f).rd o e i = s.rd o e i := State.rd_updMd ..

theorem State.twill_updDst (s : State) (d : MDie) (p : Nat) (f : DstSt → DstSt) : (s.updDst d p f).twill = s.twill :=
  State.twill_updMd ..

/-- A row that the bridge and tap counts of LOOM do not write. -/
def ObjDef.offLoomUse (o : ObjDef) : Bool :=
  Obj.loomBridgeTxUsed.apart o && Obj.loomBridgeRxUsed.apart o && Obj.loomSrcTaps.apart o

theorem State.dst_syncBridge (s : State) (d e : MDie) (q : Nat) : (s.syncBridge d).dst e q = s.dst e q := by
  cases d <;> cases e <;> rfl

theorem State.refreshLoom_leaves {β : Type _} (part : State → β) (hsync : ∀ s e, part (State.syncBridge s e) = part s)
    (htaps : ∀ s d i v, part (State.wr s Obj.loomSrcTaps d i v) = part s) (s : State) : part s.refreshLoom = part s :=
  (foldl_leaves part (fun s _ => foldl_leaves part (fun s _ => htaps s ..) s _) _ _).trans (foldl_leaves part hsync s _)

theorem State.dst_refreshLoom (s : State) (e : MDie) (q : Nat) : s.refreshLoom.dst e q = s.dst e q :=
  State.refreshLoom_leaves (·.dst e q) (fun s d => s.dst_syncBridge d e q) (fun _ _ _ _ => rfl) s

theorem State.twill_refreshLoom (s : State) : s.refreshLoom.twill = s.twill :=
  State.refreshLoom_leaves State.twill (fun _ _ => by simp [State.syncBridge]) (fun _ _ _ _ => rfl) s

theorem State.mram_refreshLoom (s : State) : s.refreshLoom.mram = s.mram :=
  State.refreshLoom_leaves State.mram (fun _ _ => by simp [State.syncBridge]) (fun _ _ _ _ => rfl) s

theorem State.rd_refreshLoom {o : ObjDef} (h : o.offLoomUse = true) (s : State) (d : Die) (i : Nat) :
    s.refreshLoom.rd o d i = s.rd o d i := by
  simp only [ObjDef.offLoomUse, Bool.and_eq_true] at h
  obtain ⟨⟨htx, hrx⟩, htaps⟩ := h
  refine State.refreshLoom_leaves (·.rd o d i) (fun s e => ?_) (fun s e j v => s.rd_wr_apart htaps ..) s
  unfold State.syncBridge
  rw [State.rd_wr_apart hrx, State.rd_wr_apart htx, State.rd_updMd]

/-! ### Commits of black routes -/

/-- A destination's pending route is black, and LOOM.ROUTE.PENDING shows it. -/
def State.blackPending (s : State) (d : MDie) (p : Nat) : Prop :=
  (s.dst d p).pend.map (·.route) = some 0 ∧ s.rd Obj.loomRoutePending d.die p = 0

/-- Black is pending at the destinations of a list and wherever it was; shadow routes and Twill stay. -/
structure State.Blackens (s u : State) (l : List (MDie × Nat)) : Prop where
  twill : u.twill = s.twill
  source : ∀ d p, u.rdN Obj.loomRouteSource d p = s.rdN Obj.loomRouteSource d p
  kept : ∀ d p, s.blackPending d p → u.blackPending d p
  black : ∀ x ∈ l, u.blackPending x.1 x.2

theorem State.takeRoute_black (s : State) (d : MDie) (p : Nat) (pend : PendRoute) (sel : Bool) (hr : pend.route = 0) :
    ∃ u, s.takeRoute d p 0 pend sel = .ok (u, []) ∧ s.Blackens u [(d, p)] := by
  refine ⟨_, rfl, ?_⟩
  have hdst : ∀ e q, ((s.updDst d p (fun x => { x with pend := some pend })).wr Obj.loomRoutePending d.die p
      (0 : Nat)).refreshLoom.dst e q = if d = e ∧ p = q then { s.dst d p with pend := some pend } else s.dst e q :=
    fun e q => (State.dst_refreshLoom ..).trans (State.dst_updDst s ..)
  refine ⟨?_, fun e q => ?_, fun e q hb => ?_, fun x hx => ?_⟩
  · rw [State.twill_refreshLoom, State.twill_wr, State.twill_updDst]
  · rw [State.rdN, State.rd_refreshLoom rfl, State.rd_wr_apart rfl, State.rd_updDst, State.rdN]
  · obtain ⟨hp, hs⟩ := hb
    refine ⟨?_, ?_⟩
    · rw [hdst]
      split
      · simp [hr]
      · exact hp
    · rw [State.rd_refreshLoom rfl, State.rd_wr, State.rd_updDst]
      split
      · rfl
      · exact hs
  · obtain rfl := List.mem_singleton.mp hx
    refine ⟨?_, ?_⟩
    · rw [hdst]
      simp [hr]
    · rw [State.rd_refreshLoom rfl, State.rd_wr_same]
      rfl

theorem State.takeGroup_black (s : State) (g : Nat) (t : Instant) (sel : Bool) (l : List (MDie × Nat))
    (h : ∀ x ∈ l, s.rdN Obj.loomRouteSource x.1.die x.2 = 0) :
    ∃ u, s.takeGroup g t sel l = .ok (u, []) ∧ s.Blackens u l := by
  unfold State.takeGroup
  extract_lets twill
  clear_value twill
  induction l generalizing s with
  | nil => exact ⟨s, rfl, rfl, fun _ _ => rfl, fun _ _ => id, by simp⟩
  | cons x l ih =>
    rw [List.foldl_cons]
    dsimp only
    obtain ⟨f, ofs⟩ := s.dstRaster x.1 x.2
    obtain ⟨u, eu, hu⟩ := s.takeRoute_black x.1 x.2 ⟨0, g, (routeLanding f ofs t twill).1,
      s.rdN Obj.loomRouteAudio x.1.die x.2 == 1⟩ sel rfl
    rw [h x (by simp), eu]
    obtain ⟨v, ev, hv⟩ := ih u fun y hy => (hu.source _ _).trans (h y (by simp [hy]))
    refine ⟨v, ev, hv.twill.trans hu.twill, fun d p => (hv.source d p).trans (hu.source d p),
      fun d p hb => hv.kept d p (hu.kept d p hb), fun y hy => ?_⟩
    obtain rfl | hy := List.mem_cons.mp hy
    · exact hv.kept _ _ (hu.black _ (by simp))
    · exact hv.black y hy

theorem State.dst_raiseC (s : State) (c i p : Nat) (e : MDie) (q : Nat) : (s.raise .c c i p).dst e q = s.dst e q :=
  State.dst_of_dies (State.dieA_raiseC ..) (State.dieB_raiseC ..) e q

theorem State.markLate_leaves {β : Type _} (part : State → β)
    (hlate : ∀ s d i c n p, part ((State.setBit s Obj.loomDstSticky d i 0).raise .c c n p) = part s)
    (s : State) (g : Nat) (t : Instant) (l : List (MDie × Nat)) : part (s.markLate g t l) = part s := by
  refine foldl_leaves part (fun s x => ?_) s l
  dsimp only
  split
  · exact hlate ..
  · rfl

theorem State.twill_markLate (s : State) (g : Nat) (t : Instant) (l : List (MDie × Nat)) : (s.markLate g t l).twill = s.twill :=
  State.markLate_leaves State.twill (fun _ _ _ _ _ _ => by simp) s g t l

theorem State.blackPending_markLate (s : State) (g : Nat) (t : Instant) (l : List (MDie × Nat)) {d : MDie} {p : Nat}
    (h : s.blackPending d p) : (s.markLate g t l).blackPending d p := by
  obtain ⟨hp, hs⟩ := h
  refine ⟨?_, ?_⟩
  · rw [State.markLate_leaves (·.dst d p) (fun _ _ _ _ _ _ => State.dst_raiseC ..)]
    exact hp
  · rw [State.markLate_leaves (·.rd Obj.loomRoutePending d.die p) fun _ _ _ _ _ _ => by
      rw [State.rd_raise rfl, State.rd_setBit_apart rfl]]
    exact hs

/-- A group of black routes is committed as a whole (R150, R152). -/
theorem State.commitGroup_black (s : State) (ds : List MDie) (g : Nat) (t : Instant)
    (h : ∀ d ∈ ds, ∀ p ∈ s.groupDsts d g, s.rdN Obj.loomRouteSource d.die p = 0) :
    (s.commitGroup ds g t).answer = .ok ∧ (s.commitGroup ds g t).twill = s.twill
      ∧ ∀ d ∈ ds, ∀ p ∈ s.groupDsts d g, (s.commitGroup ds g t).blackPending d p := by
  have hl : ∀ x : MDie × Nat, x ∈ ds.flatMap (fun d => (s.groupDsts d g).map (fun p => (d, p))) ↔
      x.1 ∈ ds ∧ x.2 ∈ s.groupDsts x.1 g := by
    rintro ⟨d, p⟩
    simp
  obtain ⟨u, eu, hu⟩ := s.takeGroup_black g t s.inSelvedge (ds.flatMap fun d => (s.groupDsts d g).map fun p => (d, p))
    fun x hx => h _ ((hl x).mp hx).1 _ ((hl x).mp hx).2
  simp only [State.commitGroup, eu, if_true]
  refine ⟨rfl, ?_, fun d hd p hp => ?_⟩
  · exact (State.twill_markLate ..).trans hu.twill
  · exact State.blackPending_markLate u g t _ (hu.black (d, p) ((hl _).mpr ⟨hd, hp⟩))

theorem State.runDue_of_none_due {s : State} (h : ∀ c ∈ s.twill.due, c.2.2.le (.ofNs s.time.base) = false) :
    s.runDue = s := by
  have none : s.twill.due.filter (fun c => c.2.2.le (Instant.ofNs s.time.base)) = [] :=
    List.filter_eq_nil_iff.mpr fun c hc => by simp [h c hc]
  simp only [State.runDue, none, if_true]

theorem State.inSelvedge_eq_false {s : State} (h : s.mode ≠ .selvedge) : s.inSelvedge = false := by
  simpa [State.inSelvedge] using h

/-- Outside SELVEDGE a write at a media die lands there at its own time (R242). -/
theorem State.landOn_mdie {s : State} (h : s.mode ≠ .selvedge) (d : MDie) :
    s.landOn d.die = [(d, .ofNs (s.now d.pdie))] := by
  unfold State.landOn
  rw [if_neg (by simp [State.inSelvedge_eq_false h])]
  cases d <;> rfl

theorem State.landOn_package {s : State} (h : s.mode ≠ .selvedge) :
    s.landOn .p = [(.a, .ofNs (s.time.base + 100000)), (.b, .ofNs (s.time.base + 100000))] := by
  unfold State.landOn
  rw [if_neg (by simp [State.inSelvedge_eq_false h])]

/-- Outside SELVEDGE a commit at a reached media die is made at once (R152). -/
theorem State.commitWrite_mdie {s : State} {d : MDie} {g : Nat} (hm : s.mode ≠ .selvedge) (hr : s.reachable d = true)
    (hd : ∀ c ∈ s.twill.due, c.2.2.le (.ofNs s.time.base) = false) :
    s.commitWrite d.die g = s.commitGroup [d] g (.ofNs (s.now d.pdie)) := by
  have now : ∀ i : Instant, i.le i = true := fun i => by simp [Instant.le]
  simp [State.commitWrite, State.runDue_of_none_due hd, State.landOn_mdie hm, hr, now]

theorem State.commitWrite_package {s : State} {g : Nat} (hm : s.mode ≠ .selvedge) (ha : s.reachable .a = true)
    (hb : s.reachable .b = true) (hd : ∀ c ∈ s.twill.due, c.2.2.le (.ofNs s.time.base) = false)
    (hn : (Instant.ofNs (s.time.base + 100000)).le (.ofNs (s.now .a)) = false) :
    s.commitWrite .p g = s.updTwill (fun w =>
      { w with due := w.due ++ [([.a, .b], g, Instant.ofNs (s.time.base + 100000))] }) := by
  simp [State.commitWrite, State.runDue_of_none_due hd, State.landOn_package hm, ha, hb, MDie.pdie, hn]

/-- The due commits of one group with black routes (R152). -/
theorem State.runDue_black {s : State} {g : Nat} {i : Instant} (ha : s.loomOn .a = true) (hb : s.loomOn .b = true)
    (hd : s.twill.due = [([.a, .b], g, i)]) (hi : i.le (.ofNs s.time.base) = true)
    (h : ∀ d : MDie, ∀ p ∈ s.groupDsts d g, s.rdN Obj.loomRouteSource d.die p = 0) :
    s.runDue.answer = .ok ∧ s.runDue.twill.due = [] ∧ ∀ d : MDie, ∀ p ∈ s.groupDsts d g, s.runDue.blackPending d p := by
  have e : s.runDue = (s.updTwill (fun w => { w with due := [] })).commitGroup [.a, .b] g i := by
    have on : ∀ d, (s.updTwill (fun w => { w with due := [] })).loomOn d = true := fun d => by cases d <;> assumption
    have taken : s.updTwill (fun w => { w with due := w.due.filter (fun c => !c.2.2.le (Instant.ofNs s.time.base)) })
        = s.updTwill (fun w => { w with due := [] }) := by
      simp [State.updTwill, hd, hi]
    unfold State.runDue
    rw [taken]
    simp [hd, hi, on]
  obtain ⟨h1, h2, h3⟩ := (s.updTwill (fun w => { w with due := [] })).commitGroup_black [.a, .b] g i fun d _ => h d
  rw [e]
  exact ⟨h1, by rw [h2]; rfl, fun d => h3 d (by cases d <;> simp)⟩

/-! ### A refused group -/

theorem State.rdN_setBit_apart {o p : ObjDef} (h : o.apart p = true) (s : State) (d e : Die) (i j n : Nat) :
    (s.setBit o d i n).rdN p e j = s.rdN p e j := by
  simp only [State.rdN, State.rd_setBit_apart h]

theorem mem_keepNewest_concat {α : Type _} {n : Nat} (h : 0 < n) (l : List α) (x : α) : x ∈ keepNewest n (l ++ [x]) := by
  rw [keepNewest, List.drop_append_of_le_length (by simp; omega)]
  simp

/-- Die C's log takes the record of an event that Die C raises (R87, R464). -/
theorem State.reported_raiseC {s u : State} (h : s.rdN Obj.evtGseqNext .c 0 ≤ u.rdN Obj.evtGseqNext .c 0)
    (code inst payload : Nat) : s.reported (u.raise .c code inst payload) .c code inst payload := by
  have hg : (u.takeDseq .c).rdN Obj.evtGseqNext .c 0 = u.rdN Obj.evtGseqNext .c 0 := State.rdN_wr_apart rfl ..
  refine ⟨{ u.stamp .c code inst payload false with gseq := u.rdN Obj.evtGseqNext .c 0 }, ?_, h, rfl, rfl, rfl⟩
  have hlog : (u.raise .c code inst payload).ramLog = keepNewest ramLogMax ((u.takeDseq .c).ramLog ++
      [{ u.stamp .c code inst payload false with gseq := (u.takeDseq .c).rdN Obj.evtGseqNext .c 0 }]) := by
    simp only [State.raise, State.raiseC, State.logRecord, State.ramLog_wr]
    split <;> with_reducible rfl
  rw [hlog, hg]
  exact mem_keepNewest_concat (by decide) _ _

/-- A group with one destination whose shadow route is not coded is refused (R150). -/
theorem State.commitGroup_uncoded {s : State} {d : MDie} {g p : Nat} {t : Instant} (hp : s.groupDsts d g = [p])
    (hr : routeCoded (s.rdN Obj.loomRouteSource d.die p) = false) :
    s.commitGroup [d] g t = (s.loomReject d 1 g p).ans (.rejected 0x1601) := by
  have e : ∀ sel, s.takeGroup g t sel [(d, p)] = .error (1, d, p) := fun sel => by
    simp [State.takeGroup, State.takeRoute, hr]
  simp [State.commitGroup, hp, e]

/-- What a refused group leaves behind: the answer, the sticky bit, the count, the event and the destinations. -/
structure State.Refused (s t : State) (d : MDie) (reason g p : Nat) : Prop where
  bit : t.bit Obj.loomSticky d.die 0 0 = true
  count : t.rdN Obj.loomCount d.die 0 = min (s.rdN Obj.loomCount d.die 0 + 1) Obj.loomCount.ty.maxVal
  reported : s.reported t .c 0x1601 p (p16 [reason, g, p])
  dst : ∀ e q, t.dst e q = s.dst e q

theorem State.Refused.ans {s t : State} {d : MDie} {reason g p : Nat} (h : s.Refused t d reason g p) (a : Status) :
    s.Refused (t.ans a) d reason g p :=
  ⟨h.bit, h.count, (State.reported_ans ..).mpr h.reported, fun e q => (State.dst_of_dies rfl rfl e q).trans (h.dst e q)⟩

theorem State.refused_loomReject (s : State) (d : MDie) (reason g p : Nat) :
    s.Refused (s.loomReject d reason g p) d reason g p := by
  refine ⟨?_, ?_, State.reported_raiseC ?_ .., fun e q => State.dst_raiseC ..⟩
  · rw [State.loomReject, State.bit, State.rdN_raise rfl, State.rdN, State.rd_bump_apart rfl]
    exact State.bit_setBit_same ..
  · rw [State.loomReject, State.rdN_raise rfl, State.rdN_bump_same, State.rdN_setBit_apart rfl]
  · rw [State.bump, State.addCount, State.rdN_wr_apart rfl, State.rdN_setBit_apart rfl]

/-! ### Backup routes -/

/-- MRAM and the backup route of a destination. -/
def State.backupOf (s : State) (d : Die) (p : Nat) : Mram × Int := (s.mram, s.rd Obj.loomDstBackup d p)

theorem State.backupOf_wr {o : ObjDef} (h : o.apart Obj.loomDstBackup = true) (s : State) (d e : Die) (p i : Nat) (v : Int) :
    (s.wr o e i v).backupOf d p = s.backupOf d p := by
  simp only [State.backupOf, State.mram_wr, State.rd_wr_apart h]

theorem State.backupOf_refreshTopology (s : State) (d : Die) (p : Nat) : s.refreshTopology.backupOf d p = s.backupOf d p := by
  have links : ∀ u : State, u.backupOf d p = s.backupOf d p → u.refreshTopology.backupOf d p = s.backupOf d p := by
    intro u h
    refine (foldl_leaves (·.backupOf d p) (fun t x => ?_) _ _).trans
      ((foldl_leaves (·.backupOf d p) (fun t x => ?_) _ _).trans h)
    · exact (State.backupOf_wr rfl ..).trans (State.backupOf_wr rfl ..)
    · exact (State.backupOf_wr rfl ..).trans (State.backupOf_wr rfl ..)
  exact links s rfl

theorem State.backupOf_freeRx (s : State) (m : MDie) (n : Nat) (d : Die) (p : Nat) :
    (s.freeRx m n).backupOf d p = s.backupOf d p := by
  unfold State.freeRx
  split
  · rfl
  · extract_lets s1 s2 s3 s4 s5
    have h1 : s1.backupOf d p = s.backupOf d p := by
      dsimp only [s1]
      split <;> rfl
    have h4 : s4.backupOf d p = s2.backupOf d p := (State.backupOf_wr rfl ..).trans (State.backupOf_wr rfl ..)
    rw [State.backupOf_refreshTopology, State.backupOf_wr rfl]
    exact (h4.trans rfl).trans h1

theorem State.backupOf_freeIdleRx (s : State) (m : MDie) (d : Die) (p : Nat) :
    (s.freeIdleRx m).backupOf d p = s.backupOf d p :=
  foldl_leaves (·.backupOf d p) (fun s n => s.backupOf_freeRx m n d p) s _

/-- Outside SELVEDGE a mirrored write at a reached media die is made there alone (R401). -/
theorem State.mirror_mdie {s : State} {d : MDie} (hm : s.mode ≠ .selvedge) (hr : s.reachable d = true)
    (f : MDie → Instant → State → State) : s.mirror d.die f = f d (.ofNs (s.now d.pdie)) (s.ans .ok) := by
  have hs : (s.ans .ok).inSelvedge = false := State.inSelvedge_eq_false hm
  unfold State.mirror
  rw [State.landOn_mdie hm]
  simp only [List.find?_cons, List.find?_nil, hr, Bool.not_true, hs, Bool.false_eq_true, false_and, if_false,
    List.filter_cons, List.filter_nil]
  split <;> rfl

theorem State.takeBackup_black (s : State) (d : MDie) (p : Nat) (sel : Bool) :
    s.takeBackup d p 0 sel = .ok ((s.persistNum Obj.loomDstBackup d.die p (0 : Nat)).refreshLoom, []) := rfl

theorem State.backupOf_takeBackup_black (s : State) (d : MDie) (p : Nat) :
    ((s.persistNum Obj.loomDstBackup d.die p (0 : Nat)).refreshLoom).backupOf d.die p
      = ((s.persistNum Obj.loomDstBackup d.die p (0 : Nat)).mram, 0) := by
  rw [State.backupOf, State.mram_refreshLoom, State.rd_refreshLoom rfl]
  exact congrArg _ (State.rd_wr_same ..)

theorem State.backupWrite_black {s : State} {d : MDie} (hup : s.serverUp = true) (hm : s.mode ≠ .selvedge)
    (hr : s.reachable d = true) (p : Fin 256) : exec (.loomDstBackupWrite d p 0) s = .next
      ((((s.ans .ok).persistNum Obj.loomDstBackup d.die p (0 : Nat)).refreshLoom.freeIdleRx d).ans .ok) := by
  simp only [exec, execLoomDstBackupWrite, when, hup, if_true, State.mirror_mdie hm hr]
  rw [if_neg (by decide), State.takeBackup_black]
  rfl

theorem State.backupWrite_refused {s : State} {d : MDie} (hup : s.serverUp = true) (hm : s.mode ≠ .selvedge)
    (hr : s.reachable d = true) (p : Fin 256) {r : Nat} (h : 2 ^ 32 ≤ r ∨ routeCoded r = false) :
    exec (.loomDstBackupWrite d p r) s = .next { s with answer := .range } := by
  simp only [exec, execLoomDstBackupWrite, when, hup, if_true, State.mirror_mdie hm hr]
  split
  · rfl
  · next small =>
    have hc : routeCoded r = false := h.resolve_left small
    simp only [State.takeBackup, hc, Bool.false_eq_true, not_false_eq_true, if_true]
    rfl

/-! ### The obligation -/

/-- Settles O12, by induction on the destinations of the group: black needs no resource, so none of them is refused. -/
theorem loomGroupsCommitWholeOrNotAtAll : Obligations.LoomGroupsCommitWholeOrNotAtAll := by
  refine ⟨fun s d g hup hm hr hon hd hb => ?_, fun s g hup hm ha hb hd hn => ?_, fun s g i ha hb hd hi h => ?_,
    fun s d g p hup hm hr hon hd hp hc => ?_, fun s d p hup hm hr => ⟨?_, fun r hbad => ?_⟩⟩
  · obtain ⟨hans, -, hall⟩ := s.commitGroup_black [d] g (.ofNs (s.now d.pdie)) (by simpa using hb)
    refine ⟨s.commitWrite d.die g, by simp [exec, execLoomGroupCommit, when, hup, hon], ?_⟩
    rw [State.commitWrite_mdie hm hr hd]
    exact ⟨hans, hall d (by simp)⟩
  · simp only [exec, execLoomGroupCommitPackage, when, hup, if_true, State.commitWrite_package hm ha hb hd hn]
  · exact State.runDue_black ha hb hd hi h
  · refine ⟨s.commitWrite d.die g, by simp [exec, execLoomGroupCommit, when, hup, hon], ?_⟩
    rw [State.commitWrite_mdie hm hr hd, State.commitGroup_uncoded hp hc]
    obtain ⟨hbit, hcount, hrep, hdst⟩ := (s.refused_loomReject d 1 g p).ans (.rejected 0x1601)
    exact ⟨State.answer_ans .., hbit, hcount, hrep, hdst⟩
  · refine ⟨_, State.backupWrite_black hup hm hr p, ?_⟩
    have h := (State.backupOf_freeIdleRx _ d d.die p).trans ((s.ans .ok).backupOf_takeBackup_black d p)
    obtain ⟨hmram, hrd⟩ := Prod.mk.inj h
    refine ⟨rfl, by rw [State.rd_ans]; exact hrd, ?_⟩
    rw [State.mram_ans, hmram]
    simp [State.persistNum, mapGet_mapPut]
  · exact State.backupWrite_refused hup hm hr p hbad

end Sys2Proof.Machine
end

section
namespace Sys2Proof.Machine

/-! ### A media die's DRAM and arbiter through the shared operations -/

/-- The bytes of a media die's DRAM. -/
def State.dram (s : State) (d : MDie) : Memory := (s.md d).ram.mem

/-- A media die's event arbiter. -/
def State.arbiter (s : State) (d : MDie) : ArbiterSt := (s.md d).arb

/-- A change of a media die leaves a part of every die that it leaves of this one. -/
theorem State.md_updMd_leaves {β : Type _} (part : MediaDie → β) {f : MediaDie → MediaDie} (s : State) (e d : MDie)
    (h : ∀ m, part (f m) = part m := by intro; rfl) : part ((s.updMd e f).md d) = part (s.md d) := by
  cases e <;> cases d <;> simp [State.updMd, State.md, h]

/-- A fold over a pair whose steps leave a part of the state leaves it. -/
theorem foldl_fst_leaves {α β γ : Type _} (part : State → β) {f : State × γ → α → State × γ}
    (h : ∀ p x, part (f p x).1 = part p.1) (p : State × γ) (l : List α) : part (l.foldl f p).1 = part p.1 := by
  induction l generalizing p with
  | nil => rfl
  | cons x l ih => exact (ih _).trans (h p x)

theorem State.md_raiseC (s : State) (c i p : Nat) (e : MDie) : (s.raise .c c i p).md e = s.md e := by
  cases e <;> simp [State.md, State.raise]

theorem State.md_noteError_leaves {β : Type _} (part : MediaDie → β) (h : ∀ m v, part { m with slv := v } = part m)
    (s : State) (d e : MDie) (code payload : Nat) : part ((s.noteError d code payload).md e) = part (s.md e) := by
  unfold State.noteError
  split
  · exact State.md_updMd_leaves part (h := fun _ => h ..) ..
  · rfl

theorem State.dram_raiseMedia (s : State) (d e : MDie) (c i p : Nat) : (s.raiseMedia d c i p).dram e = s.dram e := by
  have marked : (s.emitMarker d).dram e = s.dram e := by
    unfold State.emitMarker
    dsimp only
    split
    · exact State.md_updMd_leaves (·.ram.mem) ..
    · rfl
  have noted : ∀ u : State, (u.noteError d c p).dram e = u.dram e := fun u =>
    State.md_noteError_leaves (·.ram.mem) (fun _ _ => rfl) ..
  unfold State.raiseMedia
  dsimp only
  split
  · exact (State.md_updMd_leaves (·.ram.mem) ..).trans ((noted _).trans marked)
  · exact (State.md_updMd_leaves (·.ram.mem) ..).trans ((noted _).trans marked)

theorem State.dram_raise (s : State) (d : PDie) (e : MDie) (c i p : Nat) : (s.raise d c i p).dram e = s.dram e := by
  cases d with
  | a => exact State.dram_raiseMedia ..
  | b => exact State.dram_raiseMedia ..
  | c => rw [State.dram, State.md_raiseC, State.dram]

/-- An arbiter with room takes the record of an event that its die raises (R89). -/
theorem State.arbiter_raise {s : State} {d : MDie} (hl : (s.arbiter d).lost = 0) (hr : (s.arbiter d).buf.length < arbiterMax)
    (c i p : Nat) : (s.raise d.pdie c i p).arbiter d =
      { s.arbiter d with buf := (s.arbiter d).buf ++ [s.stamp d.pdie c i p false] } := by
  have marked : s.emitMarker d = s := by
    unfold State.emitMarker
    exact if_neg fun h => absurd h.1 (by rw [← State.arbiter, hl]; decide)
  have media : (s.raiseMedia d c i p).arbiter d =
      { s.arbiter d with buf := (s.arbiter d).buf ++ [s.stamp d.pdie c i p false] } := by
    unfold State.raiseMedia
    rw [marked]
    dsimp only
    rw [if_pos (by exact hr), State.arbiter, State.md_updMd]
    rfl
  cases d <;> exact media

/-- What a die's arbiter took after the records it held has been reported. -/
theorem State.reported_of_arbiter {s t : State} {d : MDie} {r : EventRec} {code inst payload : Nat}
    (h : r ∈ (t.arbiter d).buf.drop (s.arbiter d).buf.length) (hr : r.code = code ∧ r.inst = inst ∧ r.payload = payload) :
    s.reported t d.pdie code inst payload := by
  cases d <;> exact ⟨r, h, hr⟩

/-! ### The bus -/

/-- A row of an object that no transaction of a bus master writes. -/
def ObjDef.offBus (o : ObjDef) : Bool := o.index != 0x3100 && o.index != 0x3101 && o.quiet

theorem ObjDef.offBus_apart {o p : ObjDef} (h : o.offBus = true) (k : (p.index == 0x3100 || p.index == 0x3101) = true) :
    p.apart o = true := by
  simp only [ObjDef.offBus, ObjDef.apart, Bool.and_eq_true, Bool.or_eq_true, bne_iff_ne, beq_iff_eq] at *
  obtain ⟨⟨h0, h1⟩, -⟩ := h
  rcases k with k | k
  · exact .inl (by rw [k]; exact fun e => h0 e.symm)
  · exact .inl (by rw [k]; exact fun e => h1 e.symm)

theorem State.rd_showMaster {o : ObjDef} (h : o.offBus = true) (s : State) (d : MDie) (m : Nat) (e : Die) (i : Nat) :
    (s.showMaster d m).rd o e i = s.rd o e i := by
  unfold State.showMaster
  rw [State.rd_putBit_apart (ObjDef.offBus_apart h rfl), State.rd_putBit_apart (ObjDef.offBus_apart h rfl),
    State.rd_wr_apart (ObjDef.offBus_apart h rfl), State.rd_wr_apart (ObjDef.offBus_apart h rfl)]

theorem State.md_showMaster (s : State) (d e : MDie) (m : Nat) : (s.showMaster d m).md e = s.md e := rfl

theorem State.rd_addTxn {o : ObjDef} (h : o.offBus = true) (s : State) (d : MDie) (m : Nat) (op : BusOp) (n : Nat)
    (b : List Byte) (x y : Bool) (e : Die) (i : Nat) : (s.addTxn d m op n b x y).rd o e i = s.rd o e i := by
  unfold State.addTxn
  exact (State.rd_showMaster h ..).trans (State.rd_updMd ..)

theorem State.md_addTxn_leaves {β : Type _} (part : MediaDie → β) (h : ∀ m v, part { m with bus := v } = part m) (s : State)
    (d e : MDie) (m : Nat) (op : BusOp) (n : Nat) (b : List Byte) (x y : Bool) :
    part ((s.addTxn d m op n b x y).md e) = part (s.md e) := by
  unfold State.addTxn
  rw [State.md_showMaster]
  exact State.md_updMd_leaves part (h := fun _ => h ..) ..

theorem State.deliver_leaves {β : Type _} (part : State → β) (hbus : ∀ s d f, part (State.updBus s d f) = part s)
    (hsend : ∀ s x, part (State.send s x) = part s) (hshow : ∀ s d m, part (State.showMaster s d m) = part s)
    (s : State) (d : MDie) : part (s.deliver d) = part s := by
  unfold State.deliver
  split
  refine (foldl_leaves part (fun s t => (hshow ..).trans ?_) _ _).trans (hbus ..)
  unfold State.respond
  split
  · rfl
  · exact hsend ..

theorem State.md_deliver_leaves {β : Type _} (part : MediaDie → β) (h : ∀ m v, part { m with bus := v } = part m) (s : State)
    (d e : MDie) : part ((s.deliver d).md e) = part (s.md e) :=
  State.deliver_leaves (fun s => part (s.md e)) (fun _ _ _ => State.md_updMd_leaves part (h := fun _ => h ..) ..)
    (fun _ _ => rfl) (fun _ _ _ => rfl) s d

theorem State.rd_deliver {o : ObjDef} (h : o.offBus = true) (s : State) (d : MDie) (e : Die) (i : Nat) :
    (s.deliver d).rd o e i = s.rd o e i :=
  State.deliver_leaves (·.rd o e i) (fun _ _ _ => State.rd_updMd ..) (fun _ _ => rfl)
    (fun _ _ _ => State.rd_showMaster h ..) s d

/-- The state in which a decode fault of a privileged master raises its event (R390). -/
def State.faulted (s : State) (d : MDie) : State := (s.bump Obj.busCount d.die 0).setBit Obj.busSticky d.die 0 1

theorem State.rdN_errorResponse {o : ObjDef} (h : o.offBus = true) (s : State) (d : MDie) (m : Nat) (op : BusOp) (e : Die)
    (i : Nat) : (s.errorResponse d m op).rdN o e i = s.rdN o e i := by
  have hq : o.quiet = true := by
    simp only [ObjDef.offBus, Bool.and_eq_true] at h
    exact h.2
  unfold State.errorResponse
  rw [State.rdN, State.rd_deliver h, State.rd_addTxn h, State.rd_raise hq, State.rd_setBit_apart (ObjDef.offBus_apart h rfl),
    State.rd_bump_apart (ObjDef.offBus_apart h rfl), State.rdN]

theorem State.dram_errorResponse (s : State) (d e : MDie) (m : Nat) (op : BusOp) :
    (s.errorResponse d m op).dram e = s.dram e := by
  unfold State.errorResponse
  exact (State.md_deliver_leaves (·.ram.mem) (fun _ _ => rfl) ..).trans
    ((State.md_addTxn_leaves (·.ram.mem) (fun _ _ => rfl) ..).trans (State.dram_raise ..))

theorem State.arbiter_errorResponse {s : State} {d : MDie} (hl : (s.arbiter d).lost = 0)
    (hr : (s.arbiter d).buf.length < arbiterMax) (m : Nat) (op : BusOp) :
    ((s.errorResponse d m op).arbiter d).lost = 0
      ∧ ((s.errorResponse d m op).arbiter d).buf.length = (s.arbiter d).buf.length + 1 := by
  have e : (s.errorResponse d m op).arbiter d = ((s.faulted d).raise d.pdie 0x3102 m
      (payloadOf [(16, m), (16, op.id), (40, op.addr)])).arbiter d := by
    unfold State.errorResponse
    exact (State.md_deliver_leaves (·.arb) (fun _ _ => rfl) ..).trans (State.md_addTxn_leaves (·.arb) (fun _ _ => rfl) ..)
  rw [e, State.arbiter_raise (s := s.faulted d) hl hr]
  exact ⟨hl, List.length_append ..⟩

/-! ### The window's accesses of DRAM -/

theorem State.dram_receiveBeats (s : State) (d e : MDie) (m n : Nat) : (s.receiveBeats d m n).1.dram e = s.dram e := by
  unfold State.receiveBeats
  extract_lets k u
  split
  · rfl
  · refine (foldl_leaves (·.dram e) (fun v _ => ?_) u _).trans ?_
    · exact State.dram_raise ..
    · exact State.md_updMd_leaves (·.ram.mem) ..

theorem State.dram_eccCorrected (s : State) (d e : MDie) (c : Nat) (l : List Nat) :
    (s.eccCorrected d c l).dram e = s.dram e := by
  refine foldl_leaves (·.dram e) (fun s b => ?_) s l
  dsimp only
  split
  · rfl
  · exact State.dram_raise ..

theorem State.dram_eccUncorrectable (s : State) (d e : MDie) (c : Nat) (l : List Nat) :
    (s.eccUncorrectable d c l).dram e = s.dram e := by
  refine foldl_fst_leaves (·.dram e) (fun p b => ?_) (s, []) l
  dsimp only
  split
  · rfl
  · exact State.dram_raise ..

theorem State.dram_windowErrors (s : State) (d e : MDie) (addr len : Nat) :
    (s.windowErrors d addr len).1.dram e = s.dram e := by
  refine foldl_fst_leaves (·.dram e) (fun p burst => ?_) (s, false) _
  dsimp only
  exact (State.dram_eccUncorrectable ..).trans (State.dram_eccCorrected ..)

theorem State.dram_windowRead (s : State) (d e : MDie) (addr len : Nat) : (s.windowRead d addr len).2.dram e = s.dram e := by
  unfold State.windowRead
  dsimp only
  split
  · exact s.dram_windowErrors d e addr len
  · exact s.dram_windowErrors d e addr len

theorem State.dram_updRam (s : State) (d e : MDie) {f : MemSt → MemSt} (h : ∀ m, (f m).mem = m.mem := by intro; rfl) :
    (s.updRam d f).dram e = s.dram e := State.md_updMd_leaves (·.ram.mem) (h := fun m => h m.ram) ..

theorem State.dram_updChan (s : State) (d e : MDie) (c : Nat) (f : ChanSt → ChanSt) : (s.updChan d c f).dram e = s.dram e :=
  State.md_updMd_leaves (·.ram.mem) ..

theorem State.dram_writeFlips (s : State) (d e : MDie) (c : Nat) (r : MemReq) : (s.writeFlips d c r).dram e = s.dram e := by
  unfold State.writeFlips
  extract_lets beats bursts bad u v
  have hv : v.dram e = u.dram e := by
    refine foldl_leaves (·.dram e) (fun u b => ?_) u beats
    dsimp only
    split
    · rw [State.dram_updRam, State.dram_updChan]
    · split
      · rw [State.dram_updRam, State.dram_updChan]
      · rfl
  refine (foldl_leaves (·.dram e) (fun u b => ?_) v bad).trans (hv.trans ?_)
  · exact State.dram_updRam ..
  · exact State.dram_updRam ..

/-- The first pieces of a request, written, are the request's data up to where they end, by induction on their number. -/
theorem Memory.get_foldl_pieces (m : Memory) (a : Nat) (l : List Byte) (n x : Nat) {lo hi : Nat → Nat}
    (hlo : ∀ k, lo k = max a ((a / 256 + k) * 256)) (hhi : ∀ k, hi k = min (a + l.length) ((a / 256 + k + 1) * 256)) :
    ((List.range n).foldl (fun m k => m.write (lo k) (bytesAt l (lo k - a) (hi k - lo k))) m).get x =
      if a ≤ x ∧ x < a + l.length ∧ x < (a / 256 + n) * 256 then l.getD (x - a) 0 else m.get x := by
  induction n with
  | zero => exact (if_neg (by omega)).symm
  | succ n ih =>
    rw [List.range_succ, List.foldl_append, List.foldl_cons, List.foldl_nil, Memory.get_write, ih]
    simp only [bytesAt, List.length_take, List.length_drop, List.getD_eq_getElem?_getD, List.getElem?_take, List.getElem?_drop]
    have start := hlo n
    have stop := hhi n
    have len : min (hi n - lo n) (l.length - (lo n - a)) = hi n - lo n := by omega
    rw [len]
    split
    · next inside =>
      have e : lo n - a + (x - lo n) = x - a := by omega
      rw [if_pos (show x - lo n < hi n - lo n by omega), e, if_pos (by omega)]
    · next outside =>
      split
      · next before => rw [if_pos ⟨before.1, before.2.1, by omega⟩]
      · next after =>
        refine (if_neg fun ⟨above, below, piece⟩ => ?_).symm
        have beyond : (a / 256 + n) * 256 ≤ x := Nat.le_of_not_lt fun k => after ⟨above, below, k⟩
        exact outside (by omega)

/-- A request of bytes, written piece by piece, is written as a whole (R339). -/
theorem Memory.get_foldl_splitRequest (m : Memory) (r : MemReq) (h : r.data.length = r.len) (x : Nat) :
    ((splitRequest r).foldl (fun m q => m.write q.addr q.data) m).get x = (m.write r.addr r.data).get x := by
  rw [Memory.get_write]
  unfold splitRequest
  split
  · next empty => exact (if_neg (by omega)).symm
  · rw [List.foldl_map, ← h, Memory.get_foldl_pieces m r.addr r.data _ x
      (lo := fun k => max r.addr ((r.addr / 256 + k) * 256)) (hi := fun k => min (r.addr + r.data.length) ((r.addr / 256 + k + 1) * 256)) (fun _ => rfl) fun _ => rfl]
    congr 1
    exact propext (by omega)

theorem State.dram_windowWrite (s : State) (d : MDie) (addr : Nat) (data : List Byte) (x : Nat) :
    ((s.windowWrite d addr data).dram d).get x = ((s.dram d).write addr data).get x := by
  have fold : ∀ (l : List MemReq) (s : State), (l.foldl (fun (s : State) r =>
      (s.updRam d (fun m => { m with mem := m.mem.write r.addr r.data })).writeFlips d (s.memLoc d r.addr).ch r) s).dram d
      = l.foldl (fun m r => m.write r.addr r.data) (s.dram d) := by
    intro l
    induction l with
    | nil => exact fun _ => rfl
    | cons r l ih =>
      intro s
      rw [List.foldl_cons, ih, State.dram_writeFlips, List.foldl_cons, State.dram, State.updRam, State.md_updMd]
      rfl
  rw [State.windowWrite, fold, Memory.get_foldl_splitRequest _ _ rfl]

/-! ### Accesses of the diagnostic window -/

theorem exec_diagWinRead_refused {s : State} (hup : s.serverUp = true) (d : MDie) :
    (s.reachable d = false → exec (.diagWinRead d) s = .next (s.ans (.unreachable d.num)))
      ∧ (s.reachable d = true → s.diagAllowed = false → exec (.diagWinRead d) s = .next (s.ans .access)) := by
  refine ⟨fun hr => ?_, fun hr ha => ?_⟩
  · simp [exec, execDiagWinRead, when, hup, hr]
  · simp [exec, execDiagWinRead, when, hup, hr, ha]

theorem exec_diagWinWrite_refused {s : State} (hup : s.serverUp = true) (d : MDie) (data : List Byte) :
    (s.reachable d = false → exec (.diagWinWrite d data) s = .next (s.ans (.unreachable d.num)))
      ∧ (s.reachable d = true → s.diagAllowed = false → exec (.diagWinWrite d data) s = .next (s.ans .access)) := by
  refine ⟨fun hr => ?_, fun hr ha => ?_⟩
  · simp [exec, execDiagWinWrite, when, hup, hr]
  · simp [exec, execDiagWinWrite, when, hup, hr, ha]

section
variable {s : State} {d : MDie} (hup : s.serverUp = true) (hr : s.reachable d = true) (ha : s.diagAllowed = true)
include hup hr ha

theorem exec_diagWinRead : exec (.diagWinRead d) s = .next (s.diagRead d) := by
  simp [exec, execDiagWinRead, when, hup, hr, ha]

theorem exec_diagWinWrite (data : List Byte) : exec (.diagWinWrite d data) s = .next (s.diagWrite d data) := by
  simp [exec, execDiagWinWrite, when, hup, hr, ha]

end

/-- The transaction of master 31 that an access of the window is (R382, R385). -/
def State.windowOp (s : State) (write : Bool) (addr len : Nat) (data : List Byte) : BusOp :=
  ⟨0, write, addr, len, data, [], .other, (s.free 5).1, 0⟩

theorem State.windowAccess_write {s : State} {d : MDie} {addr len : Nat} {data : List Byte}
    (h : (s.free 5).2.decodes d 31 (s.windowOp true addr len data) = some 0) :
    s.windowAccess d true addr len data = (some [], (s.free 5).2.windowWrite d addr data) := by
  unfold State.windowOp at h
  simp only [State.windowAccess, h, if_true]

theorem State.windowAccess_read {s : State} {d : MDie} {addr len : Nat} {data : List Byte}
    (h : (s.free 5).2.decodes d 31 (s.windowOp false addr len data) = some 0) :
    s.windowAccess d false addr len data = (some ((s.free 5).2.windowRead d addr len).1,
      (((s.free 5).2.windowRead d addr len).2.receiveBeats d 31 (beatsOf addr len)).1) := by
  unfold State.windowOp at h
  simp only [State.windowAccess, h, if_true, Bool.false_eq_true, if_false]

theorem State.windowAccess_fault {s : State} {d : MDie} {write : Bool} {addr len : Nat} {data : List Byte}
    (h : (s.free 5).2.decodes d 31 (s.windowOp write addr len data) = none) :
    s.windowAccess d write addr len data = (none, (((s.free 5).2.errorResponse d 31 (s.windowOp write addr len data)).bump
      Obj.diagCount d.die 0).raise d.pdie 0x3F03 0 (payloadOf [(40, addr)])) := by
  unfold State.windowOp at h
  simp only [State.windowAccess, h, State.windowOp]

/-- A decode fault of the window is counted and reported, and leaves the DRAM (R4, R390). -/
theorem State.diagFault_effect {s : State} {d : MDie} (hroom : (s.arbiter d).buf.length + 2 ≤ arbiterMax)
    (hl : (s.arbiter d).lost = 0) (op : BusOp) (payload : Nat) {t : State} (ht : t = ((((s.free 5).2.errorResponse d 31 op).bump
      Obj.diagCount d.die 0).raise d.pdie 0x3F03 0 payload).ans (.rejected 0x3F03)) :
    t.answer = .rejected 0x3F03 ∧ s.reported t d.pdie 0x3F03 0 payload
      ∧ t.rdN Obj.diagCount d.die 0 = min (s.rdN Obj.diagCount d.die 0 + 1) Obj.diagCount.ty.maxVal
      ∧ t.dram d = s.dram d := by
  subst ht
  obtain ⟨lost, len⟩ := State.arbiter_errorResponse (s := (s.free 5).2) (d := d) hl (Nat.lt_of_succ_lt hroom) 31 op
  have hcount := State.rdN_errorResponse (o := Obj.diagCount) rfl (s.free 5).2 d 31 op d.die 0
  have hdram := (s.free 5).2.dram_errorResponse d d 31 op
  generalize (s.free 5).2.errorResponse d 31 op = u at lost len hcount hdram ⊢
  refine ⟨rfl, (State.reported_ans ..).mpr (State.reported_of_arbiter
    (r := (u.bump Obj.diagCount d.die 0).stamp d.pdie 0x3F03 0 payload false) ?_ ⟨rfl, rfl, rfl⟩), ?_, ?_⟩
  · rw [State.arbiter_raise (s := u.bump Obj.diagCount d.die 0) lost (by exact len ▸ hroom)]
    have older : (s.arbiter d).buf.length ≤ (u.arbiter d).buf.length := by rw [len]; exact Nat.le_succ _
    exact (List.drop_append_of_le_length older).symm ▸ List.mem_append_right _ (List.mem_singleton.mpr rfl)
  · rw [State.rdN_ans, State.rdN_raise rfl, State.rdN_bump_same, hcount]
    rfl
  · exact (State.dram_raise ..).trans hdram

/-- Settles O46: the window's write is a write of its pieces, and its decode fault raises two events in an arbiter with room. -/
theorem diagnosticWindowsReachTheBus : Obligations.DiagnosticWindowsReachTheBus := by
  refine ⟨fun s d data hup => ?_, fun s d data hup hr ha => ⟨fun hlen => ?_, fun hlen hdec hne => ?_, fun hdec => ?_,
    fun hroom hl hdec => ?_⟩⟩
  · exact ⟨exec_diagWinRead_refused hup d, exec_diagWinWrite_refused hup d data⟩
  · rw [exec_diagWinWrite hup hr ha, State.diagWrite, if_pos hlen]
  · refine ⟨_, exec_diagWinWrite hup hr ha data, ?_⟩
    rw [State.diagWrite, if_neg (not_not_intro hlen)]
    dsimp only
    rw [State.windowAccess_write hdec]
    have stored := (s.free 5).2.dram_windowWrite d (s.rdN Obj.diagWinAddr d.die 0) data
    refine ⟨rfl, fun k hk => ?_, fun a hout => ?_⟩
    · exact (stored _).trans (by rw [Memory.get_write, if_pos (by omega), Nat.add_sub_cancel_left])
    · exact (stored a).trans ((Memory.get_write ..).trans (if_neg (by omega)))
  · refine ⟨_, exec_diagWinRead hup hr ha, ?_⟩
    rw [State.diagRead, State.windowAccess_read hdec]
    exact ⟨rfl, (State.dram_receiveBeats ..).trans (State.dram_windowRead ..)⟩
  · refine ⟨_, exec_diagWinRead hup hr ha, ?_⟩
    exact State.diagFault_effect hroom hl _ _ (by rw [State.diagRead, State.windowAccess_fault hdec])

end Sys2Proof.Machine
end

section
namespace Sys2Proof.Machine

/-! ### Big-endian numbers -/

theorem length_natBe (n v : Nat) : (natBe n v).length = n := by
  induction n with
  | zero => rfl
  | succ n ih => rw [natBe, List.length_cons, ih]

theorem foldl_natBe (n v a : Nat) :
    (natBe n v).foldl (fun a b => a * 256 + b.toNat) a = a * 256 ^ n + v % 256 ^ n := by
  induction n generalizing a with
  | zero => simp [natBe, Nat.mod_one]
  | succ n ih =>
    rw [natBe, List.foldl_cons, ih, Nat.mod_pow_succ, BitVec.toNat_ofNat, Nat.pow_succ]
    ring

theorem beNat_natBe {n v : Nat} (h : v < 256 ^ n) : beNat (natBe n v) = v := by
  rw [beNat, foldl_natBe, Nat.mod_eq_of_lt h, Nat.zero_mul, Nat.zero_add]

/-! ### One item, checked (R445) -/

theorem dieOfByte_num (d : Die) : dieOfByte d.num = some d := by cases d <;> rfl

theorem findItem_of_row {it : VolItem} {o : ObjDef} {d : Die} (hd : dieOfByte it.die = some d)
    (ho : objAt it.index it.sub = some o) (n : Nat) : findItem it n =
      if ¬ o.dies.has d then .error .noObject else if o.instances d < it.inst + n then .error .range else .ok (o, d) := by
  simp only [findItem, hd, ho]

theorem findItem_of_no_row {it : VolItem} (h : dieOfByte it.die = none ∨ objAt it.index it.sub = none) (n : Nat) :
    findItem it n = .error .noObject := by
  unfold findItem
  split
  · next hd ho => simp [hd, ho] at h
  · rfl

theorem State.checkItem_of_error {s ov : State} {role : Nat} {it : VolItem} {st : Status} (h : findItem it 1 = .error st) :
    s.checkItem ov role it = .error st := by
  simp only [State.checkItem, h]

theorem State.checkItem_of_found {s ov : State} {role : Nat} {it : VolItem} {o : ObjDef} {d : Die}
    (h : findItem it 1 = .ok (o, d)) : s.checkItem ov role it =
      if ¬ s.mayWrite role o d it.inst then .error .access
      else if ¬ o.ty.takes it.value.length then .error .length
      else if o.valueOk it.inst (o.ty.decode it.value) ∧ ov.jointOk o d it.inst then .ok (o, d, o.ty.decode it.value)
      else .error .range := by
  simp only [State.checkItem, h]

/-! ### A request of one item -/

theorem State.runWrite_beyond {s : State} {it : VolItem} {m : MDie} (hb : s.beyond it true = some m) (ap : Applier) (role : Nat) :
    s.runWrite ap role [it] = (s.ans (.unreachable m.num), 0) := by
  simp only [State.runWrite, List.findSome?_cons, hb]

theorem State.runWrite_error {s : State} {it : VolItem} {role : Nat} {st : Status} (hb : s.beyond it true = none)
    (hc : ∀ ov, s.checkItem ov role it = .error st) (ap : Applier) : s.runWrite ap role [it] = (s.ans st, 0) := by
  simp only [State.runWrite, List.findSome?_cons, List.findSome?_nil, hb, State.runItems, hc]

/-- A good item whose object only takes its value, with neither a rule nor a consequence of its own. -/
theorem State.runWrite_put {s : State} {it : VolItem} {role : Nat} {o : ObjDef} {d : Die} {v : ObjVal}
    (hb : s.beyond it true = none) (hc : ∀ ov, s.checkItem ov role it = .ok (o, d, v))
    (hput : applyAs role s o d it.inst v = ((s.ans .ok).put o d it.inst v).ans .ok)
    (hserver : ((s.ans .ok).put o d it.inst v).serverUp = true) :
    s.runWrite (applyAs role) role [it] = (((s.ans .ok).put o d it.inst v).ans .ok, 0) := by
  have passes : (((s.ans .ok).put o d it.inst v).ans .ok).answer.passes = true := rfl
  have server : (((s.ans .ok).put o d it.inst v).ans .ok).serverUp = true := hserver
  simp only [State.runWrite, List.findSome?_cons, List.findSome?_nil, hb, State.runItems, hc, hput, passes, server, not_true,
    if_false, ne_eq, false_and]
  rfl

theorem exec_registerWrite {s : State} {it : VolItem} (hup : s.serverUp = true)
    (hdue : s.twill.due.filter (fun c => c.2.2.le (.ofNs s.time.base)) = []) :
    exec (.registerWrite it) s = .next (s.runWrite (applyAs roleAdmin) roleAdmin [it]).1 := by
  have none : s.runDue = s := by simp only [State.runDue, hdue, if_true]
  simp only [exec, execRegisterWrite, when, hup, if_true, State.writeItems, none]

theorem registerWrite_error {s : State} {it : VolItem} {st : Status} (hup : s.serverUp = true)
    (hdue : s.twill.due.filter (fun c => c.2.2.le (.ofNs s.time.base)) = []) (hb : s.beyond it true = none)
    (hc : ∀ ov, s.checkItem ov roleAdmin it = .error st) : exec (.registerWrite it) s = .next (s.ans st) := by
  rw [exec_registerWrite hup hdue, State.runWrite_error hb hc]

/-- A good item passes steps 1 to 4 of R445 where no other object bounds its range. -/
theorem State.checkItem_good {s ov : State} {role : Nat} {o : ObjDef} {d : Die} {i : Nat} {b : List Byte}
    (ho : objAt o.index o.sub = some o) (hd : o.dies.has d = true) (hi : i < o.instances d)
    (hw : s.mayWrite role o d i = true) (hl : o.ty.takes b.length = true) (hv : o.valueOk i (o.ty.decode b) = true)
    (hj : ov.jointOk o d i = true) {n : Nat} :
    s.checkItem ov role ⟨d.num, o.index, o.sub, i, n, b⟩ = .ok (o, d, o.ty.decode b) := by
  have found : findItem ⟨d.num, o.index, o.sub, i, n, b⟩ 1 = .ok (o, d) := by
    rw [findItem_of_row (dieOfByte_num d) ho, if_neg (by simp [hd]), if_neg (by simpa using hi)]
  rw [State.checkItem_of_found found, if_neg (by simp [hw]), if_neg (by simp [hl]), if_pos ⟨hv, hj⟩]

/-- A write to a row apart from the mode leaves the server as it was. -/
theorem State.serverUp_wr_apart {o : ObjDef} (h : o.apart Obj.modeState = true) (s : State) (d : Die) (i : Nat) (v : Int) :
    (s.wr o d i v).serverUp = s.serverUp := by
  have mode : (s.wr o d i v).mode = s.mode := by rw [State.mode, State.rdN_wr_apart h, State.mode]
  simp only [State.serverUp, mode]
  rfl

theorem State.agree_wr (s : State) (o : ObjDef) (d : Die) (i : Nat) (v : Int) : s.agree (s.wr o d i v) [o.addr d i] := by
  intro a ha
  rw [State.wr, mapGet_mapPut, if_neg fun h => ha (by simp [h])]

/-- A value whose bits all lie in a mask. -/
theorem mask_ok {k v : Nat} (h : v < 2 ^ k) : Nat.bitwise (fun a b => a && !b) v (2 ^ k - 1) = 0 := by
  refine Nat.eq_of_testBit_eq fun i => ?_
  rw [Nat.testBit_bitwise rfl, Nat.testBit_two_pow_sub_one, Nat.zero_testBit]
  by_cases hi : i < k
  · simp [hi]
  · rw [Nat.testBit_lt_two_pow (h.trans_le (Nat.pow_le_pow_right (by decide) (Nat.le_of_not_lt hi))), Bool.false_and]

theorem State.bit_w1c (s : State) (o : ObjDef) (d : Die) (i v n : Nat) :
    (s.w1c o d i v).bit o d i n = (s.bit o d i n && !v.testBit n) := by
  rw [State.bit, State.w1c, State.rdN_wr_same, Int.toNat_natCast, Nat.testBit_bitwise rfl, State.bit]

theorem ObjDef.valueOk_number {o : ObjDef} {i : Nat} {v : Int} (hr : o.rng.ok v = true) (hx : numExtraOk o i v = true) :
    o.valueOk i (.num v) = true := by
  rw [ObjDef.valueOk, hr, hx, Bool.true_and]

theorem Rng.ok_between {lo hi : Int} {v : Nat} (h : lo ≤ v ∧ (v : Int) ≤ hi) : (Rng.between lo hi).ok v = true := by
  simp [Rng.ok, h]

theorem Rng.ok_mask {k v : Nat} (h : v < 2 ^ k) : (Rng.mask (2 ^ k - 1)).ok v = true := by
  rw [Rng.ok, Int.toNat_natCast, mask_ok h, beq_self_eq_true]

/-- A write that has neither a rule nor a consequence of its own, and is not mirrored. -/
theorem State.store_put {s : State} {o : ObjDef} {d : Die} {i : Nat} {v : ObjVal}
    (hmir : s.mode ≠ .selvedge ∨ mirroredIndex o.index = false) (hput : s.storeOn o d i v = s.put o d i v) :
    s.store o d i v = (s.put o d i v).ans .ok := by
  rw [State.store, hput, if_neg fun h => hmir.elim (· (by simpa [State.inSelvedge] using h.1)) (by simp [h.2])]

/-- An object of Die C or of the package that takes a number and does nothing else with a write (R25). -/
structure ObjDef.PlainNumber (o : ObjDef) (d : Die) : Prop where
  row : objAt o.index o.sub = some o
  outside : d.mdie? = none
  has : o.dies.has d = true
  extra : ∀ i v, numExtraOk o i v = true
  decode : ∀ b, o.ty.decode b = .num (beNat b : Nat)
  writable : ∀ (s : State) role i, roleMayWrite role o.index = true → s.mayWrite role o d i = true
  joint : ∀ (s : State) i, s.jointOk o d i = true
  offMode : o.apart Obj.modeState = true
  unmirrored : mirroredIndex o.index = false
  applied : ∀ role s i v, applyAs role s o d i (.num v) = (s.ans .ok).store o d i (.num v)
  stored : ∀ (s : State) i v, s.storeOn o d i (.num v) = s.put o d i (.num v)

theorem plainNumber_volImageOffset : Obj.volImageOffset.PlainNumber .p :=
  ⟨by decide +kernel, rfl, rfl, fun _ _ => rfl, fun _ => rfl, fun _ _ _ h => by rw [State.mayWrite, h]; rfl, fun _ _ => rfl,
    rfl, rfl, fun _ _ _ _ => rfl, fun _ _ _ => rfl⟩

theorem plainNumber_volSessionTimeout : Obj.volSessionTimeout.PlainNumber .p :=
  ⟨by decide +kernel, rfl, rfl, fun _ _ => rfl, fun _ => rfl, fun _ _ _ h => by rw [State.mayWrite, h]; rfl, fun _ _ => rfl,
    rfl, rfl, fun _ _ _ _ => rfl, fun _ _ _ => rfl⟩

theorem plainNumber_evtCodeFlags : Obj.evtCodeFlags.PlainNumber .c :=
  ⟨by decide +kernel, rfl, rfl, fun _ _ => rfl, fun _ => rfl, fun _ _ _ h => by rw [State.mayWrite, h]; rfl, fun _ _ => rfl,
    rfl, rfl, fun _ _ _ _ => rfl, fun _ _ _ => rfl⟩

theorem plainNumber_volSticky : Obj.volSticky.PlainNumber .p :=
  ⟨by decide +kernel, rfl, rfl, fun _ _ => rfl, fun _ => rfl, fun _ _ _ h => by rw [State.mayWrite, h]; rfl, fun _ _ => rfl,
    rfl, rfl, fun _ _ _ _ => rfl, fun _ _ _ => rfl⟩

/-- A value within its range, written to such an object, is stored. -/
theorem ObjDef.PlainNumber.runWrite {o : ObjDef} {d : Die} (ho : o.PlainNumber d) {s : State} (hup : s.serverUp = true)
    {role i n v : Nat} (hw : roleMayWrite role o.index = true) (hi : i < o.instances d) (hl : o.ty.takes n = true)
    (hv : v < 256 ^ n) (hr : o.rng.ok v = true) (len : Nat) :
    s.runWrite (applyAs role) role [⟨d.num, o.index, o.sub, i, len, natBe n v⟩]
      = (((s.ans .ok).put o d i (.num (v : Nat))).ans .ok, 0) := by
  have value : o.ty.decode (natBe n v) = .num (v : Nat) := by rw [ho.decode, beNat_natBe hv]
  have hb : s.beyond ⟨d.num, o.index, o.sub, i, len, natBe n v⟩ true = none := by
    simp only [State.beyond, dieOfByte_num, Option.bind_some, ho.outside]
  have hserver : ((s.ans .ok).put o d i (.num (v : Nat))).serverUp = true := by
    unfold State.put
    dsimp only
    split
    · exact (State.serverUp_wr_apart ho.offMode ..).trans hup
    · split
      · exact (State.serverUp_wr_apart ho.offMode ..).trans hup
      · exact (State.serverUp_wr_apart ho.offMode ..).trans hup
  refine State.runWrite_put hb (fun ov => ?_) ((ho.applied ..).trans (State.store_put (.inr ho.unmirrored) (ho.stored ..))) hserver
  rw [State.checkItem_good ho.row ho.has hi (ho.writable _ _ _ hw) (by rw [length_natBe]; exact hl)
    (by rw [value]; exact ObjDef.valueOk_number hr (ho.extra ..)) (ho.joint ..), value]

theorem ObjDef.PlainNumber.registerWrite {o : ObjDef} {d : Die} (ho : o.PlainNumber d) {s : State} (hup : s.serverUp = true)
    (hdue : s.twill.due.filter (fun c => c.2.2.le (.ofNs s.time.base)) = []) {i n v : Nat} (hi : i < o.instances d)
    (hl : o.ty.takes n = true) (hv : v < 256 ^ n) (hr : o.rng.ok v = true) :
    exec (.registerWrite ⟨d.num, o.index, o.sub, i, 0, natBe n v⟩) s
      = .next (((s.ans .ok).put o d i (.num (v : Nat))).ans .ok) := by
  rw [exec_registerWrite hup hdue, ho.runWrite hup rfl hi hl hv hr]

/-! ### The obligation -/

/-- Settles O47: the checks of one item in their order, then what the model stores for it. -/
theorem registerWritesAreCheckedInOrderAndStored : Obligations.RegisterWritesAreCheckedInOrderAndStored := by
  refine ⟨fun s it m hup hdue hb => ?_, fun s it hup hdue hb => ⟨fun hrow => ?_, fun d o hd ho =>
    ⟨fun hdie => ?_, fun hdie hi => ?_, fun hdie hi => ?_⟩⟩, fun s hup hdue =>
    ⟨fun v hv => ?_, fun v hlo hhi => ?_, fun code v hcode hv => ?_, fun v hv => ?_, fun d c b hr hm hc hlo hhi => ?_⟩⟩
  · rw [exec_registerWrite hup hdue, State.runWrite_beyond hb]
  · exact registerWrite_error hup hdue hb fun ov => State.checkItem_of_error (findItem_of_no_row hrow 1)
  · refine registerWrite_error hup hdue hb fun ov => State.checkItem_of_error ?_
    rw [findItem_of_row hd ho, if_pos (by simp [hdie])]
  · refine registerWrite_error hup hdue hb fun ov => State.checkItem_of_error ?_
    rw [findItem_of_row hd ho, if_neg (by simp [hdie]), if_pos (by omega)]
  · have found : findItem it 1 = .ok (o, d) := by
      rw [findItem_of_row hd ho, if_neg (by simp [hdie]), if_neg (by omega)]
    refine ⟨fun hw => ?_, fun hw => ⟨fun hl => ?_, fun hl hv => ?_⟩⟩
    · refine registerWrite_error hup hdue hb fun ov => ?_
      rw [State.checkItem_of_found found, if_pos (by simp [hw])]
    · refine registerWrite_error hup hdue hb fun ov => ?_
      rw [State.checkItem_of_found found, if_neg (by simp [hw]), if_pos (by simp [hl])]
    · refine registerWrite_error hup hdue hb fun ov => ?_
      rw [State.checkItem_of_found found, if_neg (by simp [hw]), if_neg (by simp [hl]), if_neg (by simp [hv])]
  · refine ⟨_, plainNumber_volImageOffset.registerWrite hup hdue (by decide) rfl (by omega) (Rng.ok_between (by omega)), rfl,
      State.rd_wr_same .., s.agree_wr Obj.volImageOffset .p 0 _, rfl⟩
  · refine ⟨_, plainNumber_volSessionTimeout.registerWrite hup hdue (by decide) rfl (by omega) (Rng.ok_between (by omega)), rfl,
      State.rd_wr_same .., s.agree_wr Obj.volSessionTimeout .p 0 _, (mapGet_mapPut ..).trans (if_pos rfl), rfl, rfl⟩
  · refine ⟨_, plainNumber_evtCodeFlags.registerWrite hup hdue hcode rfl (by omega) (Rng.ok_mask (k := 2) hv), rfl,
      State.rd_wr_same .., s.agree_wr Obj.evtCodeFlags .c code _, (mapGet_mapPut ..).trans (if_pos rfl)⟩
  · exact ⟨_, plainNumber_volSticky.registerWrite hup hdue (by decide) rfl (by omega) (Rng.ok_mask (k := 5) hv), rfl,
      fun n => (s.ans .ok).bit_w1c .., s.agree_wr Obj.volSticky .p 0 _⟩
  · have hb : s.beyond ⟨d.die.num, Obj.entChSeiUser.index, Obj.entChSeiUser.sub, c, 0, b⟩ true = none := by
      have media : d.die.mdie? = some d := by cases d <;> rfl
      simp only [State.beyond, dieOfByte_num, Option.bind_some, media, hr, if_true]
    have plain : applyAs roleAdmin s Obj.entChSeiUser d.die c (.bytes b)
        = (s.ans .ok).store Obj.entChSeiUser d.die c (.bytes b) := rfl
    have put : (s.ans .ok).storeOn Obj.entChSeiUser d.die c (.bytes b)
        = (s.ans .ok).put Obj.entChSeiUser d.die c (.bytes b) := by
      cases d <;> rfl
    have good : ∀ ov, s.checkItem ov roleAdmin ⟨d.die.num, Obj.entChSeiUser.index, Obj.entChSeiUser.sub, c, 0, b⟩
        = .ok (Obj.entChSeiUser, d.die, .bytes b) := fun ov =>
      State.checkItem_good (o := Obj.entChSeiUser) (b := b) (by decide +kernel) (by cases d <;> rfl) (by cases d <;> exact hc)
        (by cases d <;> rfl) (decide_eq_true hhi) (decide_eq_true hlo) rfl
    refine ⟨((s.ans .ok).put Obj.entChSeiUser d.die c (.bytes b)).ans .ok, ?_, rfl,
      State.rdBytes_wrBytes_same .., fun a ha => ?_, rfl⟩
    · rw [exec_registerWrite hup hdue, State.runWrite_put hb good (plain.trans (State.store_put (.inl hm) put)) hup]
    · exact (mapGet_mapPut ..).trans (if_neg fun h => ha (by simp [h]))

end Sys2Proof.Machine
end

section
namespace Sys2Proof.Machine

/-! ### The answer -/

@[simp] theorem State.sec_ans (s : State) (a : Status) : (s.ans a).sec = s.sec := rfl

@[simp] theorem State.blobs_ans (s : State) (a : Status) : (s.ans a).blobs = s.blobs := rfl

/-! ### Which objects an operation writes -/

theorem State.agree.trans {s t u : State} {k l : List ObjAddr} (h : s.agree t k) (g : t.agree u l) : s.agree u (k ++ l) :=
  fun a ha => (g a fun m => ha (List.mem_append_right _ m)).trans (h a fun m => ha (List.mem_append_left _ m))

theorem State.agree_ans {s t : State} {l : List ObjAddr} (h : s.agree t l) (a : Status) : s.agree (t.ans a) l := h

theorem State.agree_takeDseq (s : State) (d : PDie) : s.agree (s.takeDseq d) [Obj.evtDseqNext.addr d.die 0] :=
  s.agree_wr _ _ _ _

theorem State.agree_logRecord (s : State) (r : EventRec) : s.agree (s.logRecord r) [Obj.evtGseqNext.addr .c 0,
    Obj.evtCount.addr .c 0, Obj.evtStatus.addr .c 0, Obj.evtLogOldest.addr .c 0] := by
  unfold State.logRecord
  extract_lets g r' ram wrap ram' keep per pwrap logged old stored
  have hs : stored.objs = s.objs := by
    dsimp only [stored]
    split <;> rfl
  refine State.agree.trans (t := stored) (k := []) (fun a _ => by rw [hs]) (.trans (State.agree_wr _ _ _ _ _) (.trans
    (State.agree_wr _ _ _ _ _) (.trans (State.agree_wr _ _ _ _ _) (State.agree_wr _ _ _ _ _))))

theorem State.mramObjs_logRecord (s : State) (r : EventRec) : (s.logRecord r).mram.objs = s.mram.objs := by
  have kept : ∀ (l : List EventRec) (j : List (Nat × EventRec)),
      ({ s with ramLog := l, mram := { s.mram with log := j } } : State).mram.objs = s.mram.objs := fun _ _ => rfl
  unfold State.logRecord
  extract_lets g r' ram wrap ram' keep per pwrap logged old stored
  have hs : stored.mram.objs = s.mram.objs := by
    dsimp only [stored]
    split
    · exact kept _ _
    · exact kept _ s.mram.log
  rw [State.mram_wr, State.mram_wr, State.mram_wr, State.mram_wr, hs]

/-- An event of Die C writes the objects of its arbiter and its log (R87, R464). -/
theorem State.agree_raiseC (s : State) (c i p : Nat) : s.agree (s.raise .c c i p) (eventAddrs .c) :=
  (s.agree_takeDseq .c).trans (State.agree_logRecord _ _)

/-- Die C's log numbers its records upward (R464). -/
theorem State.gseq_raiseC (s : State) (c i p : Nat) :
    (s.raise .c c i p).rdN Obj.evtGseqNext .c 0 = s.rdN Obj.evtGseqNext .c 0 + 1 := by
  have e : (s.takeDseq .c).rdN Obj.evtGseqNext .c 0 = s.rdN Obj.evtGseqNext .c 0 := State.rdN_wr_apart rfl ..
  simp only [State.raise, State.raiseC, State.logRecord]
  rw [State.rdN_wr_apart rfl, State.rdN_wr_apart rfl, State.rdN_wr_apart rfl, State.rdN_wr_same, Int.toNat_natCast, e]

theorem State.mramObjs_raiseC (s : State) (c i p : Nat) : (s.raise .c c i p).mram.objs = s.mram.objs :=
  (s.takeDseq .c).mramObjs_logRecord _

/-! ### Sessions that end -/

/-- What the end of a session leaves: the lifecycle's part, the powers of the dies, MRAM's objects. -/
def State.unsessioned (s : State) := (s.sec, s.answer, s.powerA, s.powerB, s.mram.objs)

theorem State.unsessioned_raiseC (s : State) (c i p : Nat) : (s.raise .c c i p).unsessioned = s.unsessioned := by
  simp only [State.unsessioned, State.sec_raise, State.answer_raise, State.powerA_raise, State.powerB_raise,
    State.mramObjs_raiseC]

/-- Ending a session is silent about one that does not exist, and otherwise an event after writes of its counts. -/
theorem State.endSession_cases (s : State) (n cause : Nat) :
    (s.endSession n cause = s ∧ s.vol.sessions.filter (fun x => x.num != n) = s.vol.sessions)
      ∨ ∃ u p, s.endSession n cause = State.raise u .c 0x1011 0 p
          ∧ u.vol.sessions = s.vol.sessions.filter (fun x => x.num != n) ∧ u.unsessioned = s.unsessioned
          ∧ u.rdN Obj.evtGseqNext .c 0 = s.rdN Obj.evtGseqNext .c 0 := by
  unfold State.endSession
  split
  · next h =>
    refine .inl ⟨rfl, List.filter_eq_self.mpr fun x hx => ?_⟩
    simp only [List.any_eq_true, not_exists, not_and] at h
    simpa using h x hx
  · refine .inr ⟨_, _, rfl, ?_⟩
    dsimp only
    split
    · refine ⟨rfl, rfl, ?_⟩
      rw [State.rdN_setBit_apart rfl, State.showSessions, State.rdN_wr_apart rfl]
      rfl
    · refine ⟨rfl, rfl, ?_⟩
      rw [State.showSessions, State.rdN_wr_apart rfl]
      rfl

/-- What holds between a state and one in which sessions of it have ended. -/
structure State.Ended (s t : State) : Prop where
  unsessioned : t.unsessioned = s.unsessioned
  gseq : s.rdN Obj.evtGseqNext .c 0 ≤ t.rdN Obj.evtGseqNext .c 0

theorem State.ended_endSession (s : State) (n cause : Nat) : s.Ended (s.endSession n cause) := by
  obtain ⟨e, -⟩ | ⟨u, p, e, -, hu, hg⟩ := s.endSession_cases n cause
  · rw [e]
    exact ⟨rfl, le_rfl⟩
  · rw [e]
    exact ⟨(State.unsessioned_raiseC ..).trans hu, by rw [State.gseq_raiseC, hg]; exact Nat.le_succ _⟩

theorem State.sessions_endSession (s : State) (n cause : Nat) :
    (s.endSession n cause).vol.sessions = s.vol.sessions.filter (fun x => x.num != n) := by
  obtain ⟨e, same⟩ | ⟨u, p, e, hu, -⟩ := s.endSession_cases n cause
  · rw [e, same]
  · rw [e, State.vol_raise, hu]

theorem State.ended_endSessions (s : State) (p : Session → Bool) (cause : Nat) : s.Ended (s.endSessions p cause) := by
  unfold State.endSessions
  generalize (s.vol.sessions.filter p).map (·.num) = l
  induction l generalizing s with
  | nil => exact ⟨rfl, le_rfl⟩
  | cons n l ih =>
    obtain ⟨hu, hg⟩ := s.ended_endSession n cause
    obtain ⟨hu', hg'⟩ := ih (s.endSession n cause)
    exact ⟨hu'.trans hu, hg.trans hg'⟩

/-- After `State.endSessions` no session of the class is left. -/
theorem State.sessions_endSessions (s : State) (p : Session → Bool) (cause : Nat) :
    ∀ x ∈ (s.endSessions p cause).vol.sessions, p x = false ∧ x ∈ s.vol.sessions := by
  have fold : ∀ (l : List Nat) (s : State), (l.foldl (fun (s : State) n => s.endSession n cause) s).vol.sessions
      = s.vol.sessions.filter (fun x => decide (x.num ∉ l)) := by
    intro l
    induction l with
    | nil => exact fun s => (List.filter_eq_self.mpr (by simp)).symm
    | cons n l ih =>
      intro s
      rw [List.foldl_cons, ih, State.sessions_endSession, List.filter_filter]
      refine List.filter_congr fun x _ => ?_
      simp only [List.mem_cons, not_or, Bool.decide_and, bne, Bool.and_comm]
      by_cases h : x.num = n <;> simp [h]
  intro x hx
  rw [State.endSessions, fold, List.mem_filter, decide_eq_true_eq] at hx
  obtain ⟨mem, out⟩ := hx
  refine ⟨Bool.eq_false_iff.mpr fun hp => out ?_, mem⟩
  exact List.mem_map_of_mem (List.mem_filter.mpr ⟨mem, hp⟩)

/-! ### A media die held in reset -/

/-- What the loss of a die's links leaves. -/
def State.control (s : State) := (s.answer, s.vol, s.sec, s.powerA, s.powerB)

theorem State.control_raise (s : State) (d : PDie) (c i p : Nat) : (s.raise d c i p).control = s.control := by
  simp only [State.control, State.answer_raise, State.vol_raise, State.sec_raise, State.powerA_raise, State.powerB_raise]

theorem State.control_foldl {α : Type _} {f : State → α → State} (s : State) (l : List α)
    (h : ∀ s x, (f s x).control = s.control := by intros; rfl) : (l.foldl f s).control = s.control :=
  foldl_leaves State.control h s l

theorem State.control_refreshTopology (s : State) : s.refreshTopology.control = s.control :=
  (State.control_foldl _ _).trans (State.control_foldl s _)

theorem State.control_loseBroken (s : State) : s.loseBroken.control = s.control := State.control_foldl s _

theorem State.control_dropUnreachable (s : State) : s.dropUnreachable.control = s.control := by
  unfold State.dropUnreachable
  rw [State.control_loseBroken]
  exact State.control_foldl s _ fun _ _ => State.control_raise ..

theorem State.control_newGeneration (s : State) : s.newGeneration.control = s.control :=
  (State.control_foldl _ _).trans (State.control_refreshTopology _)

theorem State.control_wr (s : State) (o : ObjDef) (d : Die) (i : Nat) (v : Int) : (s.wr o d i v).control = s.control := rfl

theorem State.control_updTwill (s : State) (f : TwillSt → TwillSt) : (s.updTwill f).control = s.control := rfl

theorem State.control_linkLost (s : State) (d : MDie) (q : Nat) : (s.linkLost d q).control = s.control := by
  unfold State.linkLost
  dsimp only
  split
  · rfl
  · rw [State.updTlink, State.control_updTwill]
    split
    · rw [State.linkOut, State.control_newGeneration, State.control_dropUnreachable, State.control_updTwill, State.control_wr,
        State.control_raise]
      rfl
    · rfl

theorem State.control_freeRx (s : State) (d : MDie) (n : Nat) : (s.freeRx d n).control = s.control := by
  unfold State.freeRx
  split
  · rfl
  · extract_lets u v
    have hu : u.control = s.control := by
      dsimp only [u]
      split
      · rfl
      · rfl
    rw [State.control_refreshTopology]
    exact hu

theorem State.control_fabricReset (s : State) (d : MDie) : (s.fabricReset d).control = s.control :=
  (State.control_foldl _ _ fun s n => s.control_freeRx d n).trans
    (State.control_foldl s _ fun s q => s.control_linkLost d q)

/-- The power state of a die held in reset. -/
def PowerSt.held (run : RunState) (p : PowerSt) : PowerSt := { PowerSt.start with run := run, aoDip := p.aoDip }

/-- A media die's reset leaves the rest of the package's control, and takes its power state. -/
theorem State.control_resetMedia (s : State) (d : MDie) (cause : Nat) (run : RunState) :
    (s.resetMedia d cause run).control = (s.updPower d.pdie (PowerSt.held run)).control := by
  have power : ∀ u : State, u.control = s.control →
      (u.updPower d.pdie (PowerSt.held run)).control = (s.updPower d.pdie (PowerSt.held run)).control := by
    intro u h
    simp only [State.control, Prod.mk.injEq] at h
    obtain ⟨hans, hvol, hsec, ha, hb⟩ := h
    cases d <;> simp [State.control, State.updPower, MDie.pdie, hans, hvol, hsec, ha, hb]
  have media : ∀ (u : State) (f : MediaDie → MediaDie), (u.updMd d f).control = u.control := fun u f => by cases d <;> rfl
  unfold State.resetMedia
  extract_lets keep ran src cleared paired seq errs s2 s3 start s4 s5 s6
  have h2 : s2.control = s.control := by
    dsimp only [s2]
    split
    · rfl
    · rfl
  have h3 : s3.control = s.control := (media _ _).trans ((State.control_fabricReset _ _).trans h2)
  have h6 : s6.control = (s.updPower d.pdie (PowerSt.held run)).control := power s3 h3
  split
  · rw [State.control_raise, State.control_wr, h6]
  · split
    · rw [State.control_wr, h6]
    · exact h6

/-! ### The lifecycle -/

/-- A refused transition (R467). -/
theorem State.refuseLcs_effect (s : State) (target : Nat) :
    (s.refuseLcs target).answer = .access ∧ (s.refuseLcs target).bit Obj.lcsSticky .p 0 1 = true
      ∧ s.reported (s.refuseLcs target) .c 0x1024 0 (p16 [target]) ∧ (s.refuseLcs target).lifecycle = s.lifecycle
      ∧ (s.refuseLcs target).mode = s.mode ∧ s.agree (s.refuseLcs target) (Obj.lcsSticky.addr .p 0 :: eventAddrs .c) := by
  have other : ∀ {o : ObjDef}, o.quiet = true → Obj.lcsSticky.apart o = true → ∀ d i,
      (s.refuseLcs target).rdN o d i = s.rdN o d i := fun hq ha d i => by
    rw [State.refuseLcs, State.rdN_ans, State.rdN_raise hq, State.rdN_setBit_apart ha]
  refine ⟨State.answer_ans .., ?_, ?_, other rfl rfl .., congrArg Mode.ofNum (other rfl rfl ..), ?_⟩
  · rw [State.refuseLcs, State.bit_ans, State.bit, State.rdN_raise rfl]
    exact State.bit_setBit_same ..
  · exact (State.reported_ans ..).mpr (State.reported_raiseC (by rw [State.rdN_setBit_apart rfl]) ..)
  · exact State.agree_ans (State.agree.trans (State.agree_wr _ _ _ _ _) (State.agree_raiseC _ _ _ _)) _

theorem State.rdN_persistNum_apart {o p : ObjDef} (h : o.apart p = true) (s : State) (d e : Die) (i j : Nat) (v : Int) :
    (s.persistNum o d i v).rdN p e j = s.rdN p e j := (State.rdN_wr_apart h ..).trans rfl

theorem State.rdN_persistNum_same (s : State) (o : ObjDef) (d : Die) (i : Nat) (v : Int) :
    (s.persistNum o d i v).rdN o d i = v.toNat := State.rdN_wr_same ..

theorem State.lifecycle_enterLcs (s : State) (target : Nat) : (s.enterLcs target).lifecycle = target := by
  rw [State.enterLcs, State.lifecycle, State.rdN_raise rfl, State.showLcs, State.rdN_wr_apart rfl, State.rdN_persistNum_same]
  rfl

/-- A state `t` entered a lifecycle state from `u`, at or after `s` (R467): journaled, reported, and without a token. -/
structure State.EntersLcs (s u t : State) (target : Nat) : Prop where
  lifecycle : t.lifecycle = target
  journal : mapGet t.mram.objs (Obj.lcsState.addr .p 0) = some (target : Int)
  token : t.sec.token = none
  vol : t.vol = u.vol
  reported : s.reported t .c 0x1020 0 (p16 [target])

theorem State.EntersLcs.ans {s u t : State} {target : Nat} (h : s.EntersLcs u t target) (a : Status) :
    s.EntersLcs u (t.ans a) target :=
  ⟨h.lifecycle, h.journal, h.token, h.vol, (State.reported_ans ..).mpr h.reported⟩

theorem State.entersLcs_enterLcs {s u : State} (target : Nat)
    (hg : s.rdN Obj.evtGseqNext .c 0 ≤ u.rdN Obj.evtGseqNext .c 0) : s.EntersLcs u (u.enterLcs target) target := by
  refine ⟨State.lifecycle_enterLcs .., ?_, ?_, State.vol_raise .., State.reported_raiseC ?_ ..⟩
  · rw [State.enterLcs, State.mramObjs_raiseC]
    exact (mapGet_mapPut ..).trans (if_pos rfl)
  · rw [State.enterLcs, State.sec_raise]
    rfl
  · rw [State.showLcs, State.rdN_wr_apart rfl, State.rdN_persistNum_apart rfl]
    exact hg

/-- In PROVISIONED without a token, and in DEPLOYED, debug is closed (R467). -/
theorem State.debugOpen_eq_false {s : State}
    (h : (s.lifecycle = 1 ∧ s.sec.token = none) ∨ s.lifecycle = 2 ∨ s.sec.erasing = true) (k : Nat) : s.debugOpen k = false := by
  unfold State.debugOpen
  obtain ⟨hl, ht⟩ | hl | he := h
  · rw [State.lifecycle] at hl
    simp [hl, ht]
  · rw [State.lifecycle] at hl
    simp [hl]
  · simp [he]

/-! ### LCS.ADVANCE -/

/-- A transition that is listed, with its precondition (R467, R469). -/
def State.lcsListed (s : State) (target : Nat) : Prop :=
  (s.lifecycle = 0 ∧ target = 1 ∧ s.atRest = true ∧ s.hasAdmin = true)
    ∨ (s.lifecycle = 1 ∧ target = 2 ∧ s.atRest = true) ∨ ((s.lifecycle = 1 ∨ s.lifecycle = 2) ∧ target = 3)

/-- A transition that is taken: none is while the erasure of RETURN runs (R469). -/
def State.mayAdvance (s : State) (target : Nat) : Prop := s.sec.erasing = false ∧ s.lcsListed target

theorem State.advance_refused {s : State} {target : Nat} (h : ¬ s.mayAdvance target) :
    s.advance target (s.rdN Obj.idSerial .p 0) = s.refuseLcs target := by
  unfold State.advance
  rw [if_neg (not_not_intro rfl)]
  split
  · rfl
  · next he =>
    have out : ¬ s.lcsListed target := fun k => h ⟨Bool.eq_false_iff.mpr he, k⟩
    split
    · next hl =>
      refine if_neg fun k => out (.inl ?_)
      simpa [hl] using k
    · next hl => exact if_neg fun k => out (.inr (.inl ⟨hl, rfl, k⟩))
    · next hl => exact absurd (.inr (.inr ⟨.inl hl, rfl⟩)) out
    · next hl => exact absurd (.inr (.inr ⟨.inr hl, rfl⟩)) out
    · rfl

theorem State.advance_provisioned {s : State} (h : s.mayAdvance 1) : s.advance 1 (s.rdN Obj.idSerial .p 0)
    = ((s.endSessions (fun x => x.slot == 0xFF) 4).enterLcs 1).ans .ok := by
  obtain ⟨he, ⟨hl, -, hr, ha⟩ | ⟨-, ht, -⟩ | ⟨-, ht⟩⟩ := h
  · simp [State.advance, he, hl, hr, ha]
  · exact absurd ht (by decide)
  · exact absurd ht (by decide)

theorem State.advance_deployed {s : State} (h : s.mayAdvance 2) : s.advance 2 (s.rdN Obj.idSerial .p 0)
    = (s.enterLcs 2).ans .ok := by
  obtain ⟨he, ⟨-, ht, -⟩ | ⟨hl, -, hr⟩ | ⟨-, ht⟩⟩ := h
  · exact absurd ht (by decide)
  · simp [State.advance, he, hl, hr]
  · exact absurd ht (by decide)

theorem State.advance_return {s : State} (h : s.mayAdvance 3) : s.advance 3 (s.rdN Obj.idSerial .p 0) = s.beginReturn := by
  obtain ⟨he, ⟨-, ht, -⟩ | ⟨-, ht, -⟩ | ⟨hl | hl, -⟩⟩ := h
  · exact absurd ht (by decide)
  · exact absurd ht (by decide)
  · simp [State.advance, he, hl]
  · simp [State.advance, he, hl]

/-- A media die that runs is reset and held (R469). -/
def State.holdDie (s : State) (d : MDie) : State := if s.up d.pdie then s.resetMedia d 7 .resetAlone else s

theorem State.up_of_control {s t : State} (h : t.control = s.control) (d : MDie) : t.up d.pdie = s.up d.pdie := by
  simp only [State.control, Prod.mk.injEq] at h
  obtain ⟨-, -, -, ha, hb⟩ := h
  cases d <;> simp [State.up, State.power, MDie.pdie, ha, hb]

theorem State.up_updPower_held (s : State) (d e : MDie) :
    (s.updPower d.pdie (PowerSt.held .resetAlone)).up e.pdie = (decide (d ≠ e) && s.up e.pdie) := by
  cases d <;> cases e <;> rfl

theorem State.holdDie_effect (s : State) (d : MDie) : ((s.holdDie d).answer, (s.holdDie d).vol, (s.holdDie d).sec)
    = (s.answer, s.vol, s.sec) ∧ ∀ e : MDie, (s.holdDie d).up e.pdie = (decide (d ≠ e) && s.up e.pdie) := by
  unfold State.holdDie
  split
  · have hc := s.control_resetMedia d 7 .resetAlone
    have hup := State.up_of_control hc
    generalize s.resetMedia d 7 .resetAlone = t at hc hup ⊢
    simp only [State.control, Prod.mk.injEq] at hc
    obtain ⟨hans, hvol, hsec, -, -⟩ := hc
    exact ⟨by rw [hans, hvol, hsec]; cases d <;> rfl, fun e => (hup e).trans (s.up_updPower_held d e)⟩
  · next h =>
    refine ⟨rfl, fun e => ?_⟩
    by_cases k : d = e
    · subst k
      simpa using h
    · simp [k]

theorem State.beginReturn_effect (s : State) : s.beginReturn.answer = .ok ∧ s.beginReturn.vol.sessions = []
    ∧ s.beginReturn.sec.erasing = true ∧ s.beginReturn.sec.token = none ∧ ∀ d : MDie, s.beginReturn.up d.pdie = false := by
  have e : s.beginReturn = (((({ s.ans .ok with sec := { s.sec with erasing := true, token := none } }).endSessions
      (fun _ => true) 4).holdDie .a).holdDie .b).showLcs := rfl
  have ended := ({ s.ans .ok with sec := { s.sec with erasing := true, token := none } }).ended_endSessions (fun _ => true) 4
  have gone := ({ s.ans .ok with sec := { s.sec with erasing := true, token := none } }).sessions_endSessions (fun _ => true) 4
  rw [e]
  generalize ({ s.ans .ok with sec := { s.sec with erasing := true, token := none } }).endSessions (fun _ => true) 4 = u
    at ended gone ⊢
  obtain ⟨hu, -⟩ := ended
  simp only [State.unsessioned, Prod.mk.injEq] at hu
  obtain ⟨hsec, hans, -⟩ := hu
  obtain ⟨ha, upa⟩ := u.holdDie_effect .a
  generalize u.holdDie .a = v at ha upa ⊢
  obtain ⟨hb, upb⟩ := v.holdDie_effect .b
  generalize v.holdDie .b = w at hb upb ⊢
  have h := hb.trans ha
  simp only [Prod.mk.injEq] at h
  obtain ⟨hans', hvol', hsec'⟩ := h
  refine ⟨hans'.trans hans, ?_, ?_, ?_, fun d => ?_⟩
  · have none : u.vol.sessions = [] := List.eq_nil_iff_forall_not_mem.mpr fun x hx => by simpa using gone x hx
    exact (congrArg VolSt.sessions hvol').trans none
  · exact (congrArg SecSt.erasing (hsec'.trans hsec)).trans rfl
  · exact (congrArg SecSt.token (hsec'.trans hsec)).trans rfl
  · exact (upb d).trans (by rw [upa]; cases d <;> rfl)

/-! ### Debug tokens -/

theorem State.length_freeBytes (s : State) (n : Nat) : (s.freeBytes n).1.length = n := by
  simp [State.freeBytes]

@[simp] theorem State.blobs_raise (s : State) (c i p : Nat) : (s.raise .c c i p).blobs = s.blobs := State.blobs_raiseC ..

/-- A state in which the debug challenge was drawn afresh (R468). -/
def State.challenged (s : State) : State := (s.freeBytes 16).2.wrBytes Obj.lcsDebugChallenge .p 0 (s.freeBytes 16).1

/-- A state that differs from one with a fresh challenge in no byte object. -/
theorem State.challenge_effect {s t : State} (h : t.blobs = s.challenged.blobs) :
    (t.rdBytes Obj.lcsDebugChallenge .p 0).length = 16 ∧ s.agreeBytes t [Obj.lcsDebugChallenge.addr .p 0] := by
  refine ⟨?_, fun a ha => ?_⟩
  · have e : t.rdBytes Obj.lcsDebugChallenge .p 0 = (s.freeBytes 16).1 := by
      rw [State.rdBytes, h]
      exact State.rdBytes_wrBytes_same (s.freeBytes 16).2 ..
    rw [e, State.length_freeBytes]
  · rw [h]
    exact (mapGet_mapPut ..).trans (if_neg fun k => ha (by simp [k]))

/-- A refused token (R468). -/
theorem State.tokenRefused_effect (s : State) (n : Nat) {t : State} (ht : t =
      ((s.challenged.setBit Obj.lcsSticky .p 0 0).raise .c 0x1022 0 (p16 [n])).ans (.rejected 0x1022)) :
    t.answer = .rejected 0x1022 ∧ t.bit Obj.lcsSticky .p 0 0 = true ∧ s.reported t .c 0x1022 0 (p16 [n]) ∧ t.sec = s.sec
      ∧ t.lifecycle = s.lifecycle ∧ t.blobs = s.challenged.blobs := by
  subst ht
  refine ⟨State.answer_ans .., ?_, ?_, ?_, ?_, ?_⟩
  · rw [State.bit_ans, State.bit, State.rdN_raise rfl]
    exact State.bit_setBit_same ..
  · exact (State.reported_ans ..).mpr (State.reported_raiseC (by rw [State.rdN_setBit_apart rfl]; rfl) ..)
  · rw [State.sec_ans, State.sec_raise]
    rfl
  · rw [State.lifecycle, State.rdN_ans, State.rdN_raise rfl, State.rdN_setBit_apart rfl]
    rfl
  · rw [State.blobs_ans, State.blobs_raise]
    rfl

/-- A state that has accepted a token of scope bits and expiry. -/
def State.tokened (s : State) (scope expiry : Nat) : State :=
  { s with sec := { s.sec with token := some (scope, expiry) } }.showLcs

/-- An accepted token (R468). -/
theorem State.tokenAccepted_effect {s : State} (hl : s.lifecycle = 1) (he : s.sec.erasing = false) (scope expiry : Nat)
    {t : State} (ht : t = (((s.challenged.tokened scope expiry).bump Obj.lcsCount .p 0).raise .c 0x1021 0 (p16 [scope])).ans .ok) :
    t.answer = .ok ∧ s.reported t .c 0x1021 0 (p16 [scope]) ∧ t.sec.token = some (scope, expiry)
      ∧ (∀ k, t.debugOpen k = scope.testBit k)
      ∧ t.rdN Obj.lcsCount .p 0 = min (s.rdN Obj.lcsCount .p 0 + 1) Obj.lcsCount.ty.maxVal
      ∧ t.blobs = s.challenged.blobs := by
  have sec : t.sec = { s.sec with token := some (scope, expiry) } := by
    rw [ht, State.sec_ans, State.sec_raise]
    rfl
  have life : t.rdN Obj.lcsState .p 0 = 1 := by
    rw [ht, State.rdN_ans, State.rdN_raise rfl, State.bump, State.addCount, State.rdN_wr_apart rfl, State.tokened, State.showLcs,
      State.rdN_wr_apart rfl]
    exact hl
  have opened : ∀ k, t.debugOpen k = scope.testBit k := fun k => by simp [State.debugOpen, sec, life, he]
  have token : t.sec.token = some (scope, expiry) := by rw [sec]
  subst ht
  refine ⟨State.answer_ans .., ?_, token, opened, ?_, ?_⟩
  · refine (State.reported_ans ..).mpr (State.reported_raiseC ?_ ..)
    rw [State.bump, State.addCount, State.rdN_wr_apart rfl, State.tokened, State.showLcs, State.rdN_wr_apart rfl]
    rfl
  · rw [State.rdN_ans, State.rdN_raise rfl, State.rdN_bump_same, State.tokened, State.showLcs, State.rdN_wr_apart rfl]
    rfl
  · rw [State.blobs_ans, State.blobs_raise]
    rfl

theorem State.tokenReason_none {s : State} {b : List Byte} (h : s.tokenReason b = none) :
    s.lifecycle = 1 ∧ s.sec.erasing = false := by
  unfold State.tokenReason at h
  split_ifs at h with h1 h2 h3 h4 h5
  simpa using h5

section
variable {s : State} {b : List Byte} (hlen : b.length = 100) (hs : tokenShaped b = true)
include hlen hs

theorem State.tokenWrite_refused {n : Nat} (h : s.tokenReason b = some n) :
    s.tokenWrite b = ((s.challenged.setBit Obj.lcsSticky .p 0 0).raise .c 0x1022 0 (p16 [n])).ans (.rejected 0x1022) := by
  rw [State.tokenWrite, if_neg (not_not_intro hlen), if_neg (by simp [hs])]
  dsimp only
  rw [h]
  rfl

theorem State.tokenWrite_accepted (h : s.tokenReason b = none) :
    s.tokenWrite b = (((s.challenged.tokened (fieldAt b 34 1) (fieldAt b 28 6)).bump Obj.lcsCount .p 0).raise .c 0x1021 0
      (p16 [fieldAt b 34 1])).ans .ok := by
  rw [State.tokenWrite, if_neg (not_not_intro hlen), if_neg (by simp [hs])]
  dsimp only
  rw [h]
  rfl

end

/-! ### The obligation -/

/-- The three writes of LCS.ADVANCE, with their targets (R467). -/
theorem exec_lcsAdvance {s : State} {serial : Nat} (hup : s.serverUp = true) : ∀ x ∈ ([(1, .lcsAdvanceProvisioned),
    (2, .lcsAdvanceDeployed), (3, .lcsAdvanceReturn)] : List (Nat × (Nat → Instr))),
    exec (x.2 serial) s = .next (s.advance x.1 serial) := by
  intro x hx
  simp only [List.mem_cons, List.not_mem_nil, or_false] at hx
  obtain rfl | rfl | rfl := hx
  · simp only [exec, execLcsAdvanceProvisioned, when, hup, if_true]
  · simp only [exec, execLcsAdvanceDeployed, when, hup, if_true]
  · simp only [exec, execLcsAdvanceReturn, when, hup, if_true]

/-- Settles O44: each transition and each token is refused or taken as its precondition says. -/
theorem lifecycleMovesForwardAndDebugFollowsIt : Obligations.LifecycleMovesForwardAndDebugFollowsIt := by
  refine ⟨⟨fun s serial hup hne x hx => ?_, fun s serial hup hser => ⟨fun x hx hno => ?_, fun h => ?_, fun h => ?_, fun h => ?_⟩⟩,
    fun s b hup hlen => ?_, fun s b hup hlen hs => ⟨fun n hn => ?_, fun hn => ?_⟩, fun s scope expiry htok hupc htime =>
    ⟨fun hpast => ?_, fun hyet => ?_⟩, fun s => ⟨rfl, rfl, fun h => ?_⟩⟩
  · rw [exec_lcsAdvance hup x hx]
    unfold State.advance
    exact congrArg _ (if_pos hne)
  · subst hser
    exact ⟨_, exec_lcsAdvance hup x hx, by rw [State.advance_refused hno]; exact s.refuseLcs_effect x.1⟩
  · subst hser
    refine ⟨_, exec_lcsAdvance hup (1, _) (by simp), ?_⟩
    rw [State.advance_provisioned h]
    obtain ⟨life, hmram, htok, hvol, hrep⟩ :=
      (State.entersLcs_enterLcs 1 (s.ended_endSessions (fun x => x.slot == 0xFF) 4).gseq).ans .ok
    refine ⟨State.answer_ans .., life, hmram, htok, hrep, fun x hx => ?_,
      State.debugOpen_eq_false (.inl ⟨life, htok⟩) 0⟩
    rw [hvol] at hx
    obtain ⟨out, -⟩ := s.sessions_endSessions (fun x => x.slot == 0xFF) 4 x hx
    simpa using out
  · subst hser
    refine ⟨_, exec_lcsAdvance hup (2, _) (by simp), ?_⟩
    rw [State.advance_deployed h]
    obtain ⟨life, hmram, htok, hvol, hrep⟩ := (State.entersLcs_enterLcs (u := s) 2 le_rfl).ans .ok
    exact ⟨State.answer_ans .., life, hmram, htok, hrep, by rw [hvol], State.debugOpen_eq_false (.inr (.inl life)) 0,
      State.debugOpen_eq_false (.inr (.inl life)) 1⟩
  · subst hser
    refine ⟨_, exec_lcsAdvance hup (3, _) (by simp), ?_⟩
    rw [State.advance_return h]
    obtain ⟨hans, hses, her, htok, hdown⟩ := s.beginReturn_effect
    exact ⟨hans, hses, her, htok, State.debugOpen_eq_false (.inr (.inr her)) 0, fun d _ => hdown d⟩
  · simp only [exec, execLcsDebugToken, when, hup, if_true, State.tokenWrite, if_pos hlen]
  · refine ⟨_, by simp only [exec, execLcsDebugToken, when, hup, if_true]; rfl, ?_⟩
    obtain ⟨m, hm, hnm⟩ := Option.bind_eq_some_iff.mp hn
    obtain rfl := Option.some.inj hnm
    obtain ⟨hans, hbit, hrep, hsec, hlife, hblobs⟩ := s.tokenRefused_effect m (State.tokenWrite_refused hlen hs hm)
    obtain ⟨h16, hagree⟩ := State.challenge_effect hblobs
    exact ⟨hans, hbit, hrep, hsec, hlife, h16, hagree⟩
  · refine ⟨_, by simp only [exec, execLcsDebugToken, when, hup, if_true]; rfl, ?_⟩
    obtain ⟨hl, he⟩ := State.tokenReason_none hn
    obtain ⟨hans, hrep, htok, hopen, hcount, hblobs⟩ :=
      State.tokenAccepted_effect hl he (fieldAt b 34 1) (fieldAt b 28 6) (State.tokenWrite_accepted hlen hs hn)
    obtain ⟨h16, hagree⟩ := State.challenge_effect hblobs
    exact ⟨hans, hrep, htok, hopen 0, hopen 1, hcount, h16, hagree⟩
  · have closes : s.expired expiry = true := by simp [State.expired, htime, hpast]
    have shuts : exec .debugTokenExpiry s = .next ({ s with sec := { s.sec with token := none } }).showLcs := by
      simp only [exec, execDebugTokenExpiry, htok, when, hupc, closes, Bool.and_self, if_true]
    have life : ({ s with sec := { s.sec with token := none } }).showLcs.lifecycle = s.lifecycle := by
      rw [State.lifecycle, State.showLcs, State.rdN_wr_apart rfl]
      rfl
    refine ⟨_, shuts, rfl, life, fun hl => ?_, State.agree_wr _ _ _ _ _, rfl, rfl⟩
    have shut := State.debugOpen_eq_false (.inl ⟨life.trans hl, rfl⟩)
    exact ⟨shut 0, shut 1⟩
  · have holds : s.expired expiry = false := by simp [State.expired, hyet]
    simp only [exec, execDebugTokenExpiry, htok, when, holds, Bool.and_false, Bool.false_eq_true, if_false]
  · simp only [exec, execJtagTapAccess, h, Bool.false_eq_true, if_false]

end Sys2Proof.Machine
end

section
namespace Sys2Proof.Machine

/-! ### A READ of a number below 0

The model's READ sends the low bits of an object's value, the statement the value with what is below 0 taken as 0: they
differ in a state that holds a number below the range of an unsigned object. -/

/-- An established session of slot 0xFF, which sends its frames without a tag (R462). -/
def openSlotSession : Session :=
  { num := 21, slot := 0xFF, role := roleAdmin, established := true, last := 0, port := 0, high := 0, history := [], keyIn := [],
    keyOut := [], peer := (0, 0), subscribed := false, ranges := [], nextGseq := 0, notices := [], notifies := 0, losing := false,
    transfer := none, snaps := [] }

/-- The server is up in STANDBY and VOL.SESSION.TIMEOUT holds -1. -/
def timeoutBelowZero : State :=
  { State.reset with
    objs := [(Obj.modeState.addr .p 0, 2), (Obj.volSessionTimeout.addr .p 0, -1)],
    powerC := { PowerSt.start with run := .running }, vol := { State.reset.vol with sessions := [openSlotSession] } }

/-- The header of the session's next frame. -/
def openSlotHeader : VolHdr :=
  { port := 0, ip := 0, udp := 0, session := 21, seq := 1, boot := 0, auth := false, tag := [] }

/-- The item that names VOL.SESSION.TIMEOUT. -/
def timeoutItem : VolItem := ⟨3, 0x1004, 5, 0, 1, []⟩

/-- The payload of the newest frame sent, where it is a response. -/
def State.lastPayload (s : State) : Option (List Byte) :=
  match s.sent.getLast? with
  | some (.response _ _ _ y) => some y.payload
  | _ => none

theorem State.lastPayload_of_responds {t : State} {h : VolHdr} {b : List Byte} (hport : h.port.val ≠ 2)
    {p : Response → Prop} (hp : ∀ y, p y → y.payload = b) (hr : t.responds h p) : t.lastPayload = some b := by
  obtain ⟨y, hy, -, hlast⟩ := hr
  rw [if_neg hport] at hlast
  rw [State.lastPayload, hlast]
  exact congrArg some (hp y hy)

theorem asksNew_timeoutBelowZero :
    timeoutBelowZero.asksNew openSlotSession openSlotHeader (.volRead openSlotHeader [timeoutItem]) = true := by
  decide +kernel

theorem read_timeoutBelowZero :
    (answered timeoutBelowZero (exec (.volRead openSlotHeader [timeoutItem]) timeoutBelowZero)).lastPayload
      = some [3, 0x10, 4, 5, 0, 0, 0, 1, 0, 0, 0, 2, 255, 255, 0, 0] := by
  decide +kernel

/-- Refutes O52: READ of VOL.SESSION.TIMEOUT returns 0xFFFF where the object holds -1, and the statement asks for 0. -/
theorem not_readsDescribeListClearAndLogRequestsAnswer : ¬ Obligations.ReadsDescribeListClearAndLogRequestsAnswer := by
  rintro ⟨-, hread, -⟩
  obtain ⟨t, ht, -, hr⟩ := hread _ _ _ asksNew_timeoutBelowZero
  have asked := State.lastPayload_of_responds (by decide) (fun _ ⟨_, _, _, hpayload⟩ => hpayload) hr
  have given := read_timeoutBelowZero
  rw [show exec (.volRead openSlotHeader [timeoutItem]) timeoutBelowZero = .next t from ht, answered, asked] at given
  revert given
  decide +kernel

end Sys2Proof.Machine
end

section
namespace Sys2Proof.Machine

/-! ### An idle step without a command -/

/-- With no die running only the timer of a boot failure counts (R54). -/
theorem State.countTime_of_all_down {s : State} (hc : s.up .c = false) (ha : s.up .a = false) (hb : s.up .b = false) :
    s.countTime = { s with boot := { s.boot with faultLeft := s.boot.faultLeft - 1 } } := by
  have down : ∀ (b : BootSt) (d : MDie), State.up { s with boot := b } d.pdie = false := by
    rintro b (_ | _)
    · exact ha
    · exact hb
  simp [State.countTime, hc, mdies, down]

/-- The counters of the media dies leave a part of the state that the dies' own counters are no part of. -/
theorem State.countTime_leaves {β : Type _} (part : State → β) (hmd : ∀ (s : State) d f, part (State.updMd s d f) = part s)
    (hboot : ∀ (s : State) b, part { s with boot := b } = part s) {s : State} (hc : s.up .c = true) :
    part s.countTime = part s.countBase := by
  unfold State.countTime
  rw [if_pos hc]
  refine (foldl_leaves part (fun s d => ?_) _ mdies).trans (hboot ..)
  split
  · exact hmd ..
  · rfl

/-- The time base counts one nanosecond, by the held frequency ratio in HOLDOVER and STEP-PENDING (R61, R62). -/
theorem State.base_countBase (s : State) : s.countBase.time.base =
    s.time.base + (if s.servo = 3 ∨ s.servo = 5 then (1 + (s.time.fraction + s.time.ratio) / (nsPerSec : Nat)).toNat else 1) := by
  unfold State.countBase
  split <;> rfl

/-- What an idle step leaves of the part beside its clocks. -/
def State.unclocked (s : State) := (s.objs, s.blobs, s.mram, s.pending, s.twill, s.sec)

theorem State.unclocked_countBase (s : State) : s.countBase.unclocked = s.unclocked := by
  unfold State.countBase
  split <;> rfl

theorem State.unclocked_countTime {s : State} (hc : s.up .c = true) : s.countTime.unclocked = s.unclocked :=
  (State.countTime_leaves State.unclocked (fun _ d _ => by cases d <;> rfl) (fun _ _ => rfl) hc).trans s.unclocked_countBase

theorem step_of_no_command {s : State} (h : s.pending = []) : step s = .next s.idle := by
  rw [step, h]

/-- Settles O56: a step is the front command's `exec`, and an idle step counts the clocks when no commit and no erasure is due. -/
theorem stepExecutesTheFrontCommandAndIdlesWithoutOne : Obligations.StepExecutesTheFrontCommandAndIdlesWithoutOne := by
  refine ⟨fun c rest s h => by rw [step, h], fun s hq hc ha hb hdue => ?_, fun s b hq hc herase hb hdue => ?_⟩
  · have down : ∀ v : BootSt, State.up { s with boot := v } .c = false := fun _ => hc
    have due : ∀ v : BootSt, State.runDue { s with boot := v } = { s with boot := v } := fun _ => State.runDue_of_none_due hdue
    simp only [step_of_no_command hq, State.idle, State.countTime_of_all_down hc ha hb, due, down, Bool.and_false,
      Bool.false_eq_true, if_false]
  · have hbase : s.countTime.time.base = b := by
      rw [hb, ← State.base_countBase]
      exact State.countTime_leaves (·.time.base) (fun _ d _ => by cases d <;> rfl) (fun _ _ => rfl) hc
    have hkept := State.unclocked_countTime hc
    simp only [State.unclocked, Prod.mk.injEq] at hkept
    obtain ⟨hobjs, hblobs, hmram, hpend, htwill, hsec⟩ := hkept
    have hidle : s.idle = if s.countTime.up .c then s.countTime.updPower .c (fun p => { p with scrubDue := false }) else s.countTime := by
      rw [State.idle, State.runDue_of_none_due (by rw [htwill, hbase]; exact hdue)]
      split <;> simp [hsec, herase]
    refine ⟨s.idle, step_of_no_command hq, ?_⟩
    rw [hidle]
    split <;> simp [hbase, hobjs, hblobs, hmram, hpend, hq]

end Sys2Proof.Machine
end

section
namespace Sys2Proof.Machine

theorem when_pos {p : Bool} (h : p = true) (s t : State) : when p s t = .next t := by
  rw [when, if_pos h]

/-! ### Bits, records and reports through the shared operations -/

/-- A bit reads the same where its object does. -/
theorem State.bit_of_rd {s t : State} {o : ObjDef} {d : Die} {i : Nat} (h : t.rd o d i = s.rd o d i) (n : Nat) :
    t.bit o d i n = s.bit o d i n := by
  simp only [State.bit, State.rdN, h]

theorem State.bit_raise {o : ObjDef} (h : o.quiet = true) (s : State) (e : PDie) (c p k : Nat) (d : Die) (i n : Nat) :
    (s.raise e c p k).bit o d i n = s.bit o d i n := State.bit_of_rd (State.rd_raise h ..) n

theorem State.bit_putBit_apart {o p : ObjDef} (h : o.apart p = true) (s : State) (d e : Die) (i j n m : Nat) (b : Bool) :
    (s.putBit o d i n b).bit p e j m = s.bit p e j m := State.bit_of_rd (State.rd_putBit_apart h ..) m

theorem State.rd_persistNum_apart {o p : ObjDef} (h : o.apart p = true) (s : State) (d e : Die) (i j : Nat) (v : Int) :
    (s.persistNum o d i v).rd p e j = s.rd p e j := State.rd_wr_apart h ..

@[simp] theorem State.rd_persistNum_same (s : State) (o : ObjDef) (d : Die) (i : Nat) (v : Int) :
    (s.persistNum o d i v).rd o d i = v := State.rd_wr_same ..

/-- MRAM's copies after a write of a numeric object flagged P (R26, R451). -/
theorem State.mramGet_persistNum (s : State) (o : ObjDef) (d : Die) (i : Nat) (v : Int) (a : ObjAddr) :
    mapGet (s.persistNum o d i v).mram.objs a = if o.addr d i = a then some v else mapGet s.mram.objs a := mapGet_mapPut ..

theorem State.rd_bumpNow_apart {o p : ObjDef} (h : o.apart p = true) (s : State) (d e : Die) (i j : Nat) :
    (s.bumpNow o d i).rd p e j = s.rd p e j := (State.rd_persistNum_apart h ..).trans (State.rd_bump_apart h ..)

@[simp] theorem State.rdN_bumpNow_same (s : State) (o : ObjDef) (d : Die) (i : Nat) :
    (s.bumpNow o d i).rdN o d i = min (s.rdN o d i + 1) o.ty.maxVal := by
  rw [State.bumpNow, State.rdN, State.rd_persistNum_same]
  exact State.rdN_bump_same ..

/-- A count that reaches MRAM at once stands there as it reads (R451). -/
theorem State.mramGet_bumpNow_same (s : State) (o : ObjDef) (d : Die) (i : Nat) :
    mapGet (s.bumpNow o d i).mram.objs (o.addr d i) = some ((s.bumpNow o d i).rd o d i) := by
  rw [State.bumpNow, State.mramGet_persistNum, if_pos rfl, State.rd_persistNum_same]

/-- MRAM's objects are no matter of an event. -/
theorem State.mramObjs_raise (s : State) (d : PDie) (c i p : Nat) : (s.raise d c i p).mram.objs = s.mram.objs := by
  cases d with
  | a => rw [State.raise, State.mram_raiseMedia]
  | b => rw [State.raise, State.mram_raiseMedia]
  | c => exact State.mramObjs_raiseC ..

/-- Where the events of the dies stand: the arbiters' buffers and Die C's log. -/
def State.records (s : State) : List EventRec × List EventRec × List EventRec := (s.dieA.arb.buf, s.dieB.arb.buf, s.ramLog)

/-- What was reported is so in every state with the same records. -/
theorem State.reported_of_records {s u t : State} {d : PDie} {code inst payload : Nat} (h : t.records = u.records)
    (k : s.reported u d code inst payload) : s.reported t d code inst payload := by
  simp only [State.records, Prod.mk.injEq] at h
  obtain ⟨ha, hb, hl⟩ := h
  cases d <;> simpa only [State.reported, ha, hb, hl] using k

/-- Where events of a state go: the arbiters of the media dies and the number of Die C's next record. -/
def State.inlets (s : State) : ArbiterSt × ArbiterSt × Nat := (s.dieA.arb, s.dieB.arb, s.rdN Obj.evtGseqNext .c 0)

/-- An event that is not lost is reported (R87, R89). -/
theorem State.reported_raise {s u : State} {d : PDie} (h : s.canReport d = true) (hu : u.inlets = s.inlets)
    (code inst payload : Nat) : s.reported (u.raise d code inst payload) d code inst payload := by
  simp only [State.inlets, Prod.mk.injEq] at hu
  obtain ⟨ha, hb, hg⟩ := hu
  have media : ∀ m : MDie, u.arbiter m = s.arbiter m → s.arbiterOpen m = true →
      s.reported (u.raise m.pdie code inst payload) m.pdie code inst payload := by
    intro m hm ho
    simp only [State.arbiterOpen, Bool.and_eq_true, decide_eq_true_eq, beq_iff_eq] at ho
    obtain ⟨room, lost⟩ := ho
    rw [← State.arbiter, ← hm] at room lost
    refine State.reported_of_arbiter (r := u.stamp m.pdie code inst payload false) ?_ ⟨rfl, rfl, rfl⟩
    rw [State.arbiter_raise lost room, hm]
    simp
  cases d with
  | a => exact media .a ha h
  | b => exact media .b hb h
  | c => exact State.reported_raiseC (le_of_eq hg.symm) ..


/-! ### What a dip's pass and a boot failure leave -/

/-- A change of a die's power state leaves what it leaves of the state itself. -/
theorem State.power_updPower_leaves {β : Type _} (part : PowerSt → β) {f : PowerSt → PowerSt}
    (h : ∀ p, part (f p) = part p) (s : State) (d e : PDie) : part ((s.updPower d f).power e) = part (s.power e) := by
  cases d <;> cases e <;> simp [State.updPower, State.power, h]

/-- A row of the supplies, the sections, the sensors or the reset. -/
def ObjDef.supply (o : ObjDef) : Bool := o.index / 256 == 0x11

theorem ObjDef.supply_apart {o p : ObjDef} (h : o.supply = false) (k : p.supply = true) : o.apart p = true := by
  simp only [ObjDef.supply, ObjDef.apart, beq_iff_eq, beq_eq_false_iff_ne, ne_eq, bne_iff_ne, Bool.or_eq_true] at *
  exact .inl fun e => h (by rw [e]; exact k)

theorem ObjDef.quiet_of_supply {o : ObjDef} (h : o.supply = true) : o.quiet = true := by
  simp only [ObjDef.supply, beq_iff_eq] at h
  simp only [ObjDef.quiet, Bool.and_eq_true, bne_iff_ne]
  omega

/-- Between two states the records, the dips and the objects of the supplies, with their copies in MRAM, are the same. -/
structure State.SameSupply (s t : State) : Prop where
  records : t.records = s.records
  brownouts : t.brownouts = s.brownouts
  dips : ∀ d, (t.power d).dips = (s.power d).dips
  scrubDue : ∀ d, (t.power d).scrubDue = (s.power d).scrubDue
  rd : ∀ o : ObjDef, o.supply = true → ∀ d i, t.rd o d i = s.rd o d i
  mram : ∀ o : ObjDef, o.supply = true → ∀ d i, mapGet t.mram.objs (o.addr d i) = mapGet s.mram.objs (o.addr d i)

section
variable {s t : State}

theorem State.SameSupply.refl (s : State) : s.SameSupply s :=
  ⟨rfl, rfl, fun _ => rfl, fun _ => rfl, fun _ _ _ _ => rfl, fun _ _ _ _ => rfl⟩

theorem State.SameSupply.wr {o d i v} (h : s.SameSupply t) (ho : o.supply = false) : s.SameSupply (t.wr o d i v) :=
  { h with rd := fun _ hp _ _ => (State.rd_wr_apart (ObjDef.supply_apart ho hp) ..).trans (h.rd _ hp _ _) }

theorem State.SameSupply.persistNum {o d i v} (h : s.SameSupply t) (ho : o.supply = false) :
    s.SameSupply (t.persistNum o d i v) :=
  { h with
    rd := (h.wr ho).rd
    mram := fun _ hp e j => by
      rw [State.mramGet_persistNum, if_neg (ObjDef.addr_ne (ObjDef.supply_apart ho hp) d e i j)]
      exact h.mram _ hp e j }

theorem State.SameSupply.bumpNow {o d i} (h : s.SameSupply t) (ho : o.supply = false) : s.SameSupply (t.bumpNow o d i) := by
  unfold State.bumpNow
  exact .persistNum (.wr h ho) ho

theorem State.SameSupply.setBoot {b} (h : s.SameSupply t) : s.SameSupply { t with boot := b } := { h with }

theorem State.SameSupply.updPower {d f} (h : s.SameSupply t) (hd : ∀ p, (f p).dips = p.dips)
    (hs : ∀ p, (f p).scrubDue = p.scrubDue) : s.SameSupply (t.updPower d f) := by
  refine ⟨?_, ?_, fun e => (State.power_updPower_leaves PowerSt.dips hd ..).trans (h.dips e),
    fun e => (State.power_updPower_leaves PowerSt.scrubDue hs ..).trans (h.scrubDue e), fun o ho e i => ?_, fun o ho e i => ?_⟩
  · simpa only [State.records, State.dieA_updPower, State.dieB_updPower, State.ramLog_updPower] using h.records
  · rw [State.brownouts_updPower, h.brownouts]
  · rw [State.rd_updPower, h.rd o ho]
  · rw [State.mram_updPower, h.mram o ho]

/-- A boot failure (R476, R477) writes its own objects and lets no dip end. -/
theorem State.SameSupply.bootFail {step cause} (h : s.SameSupply t) : s.SameSupply (t.bootFail step cause) := by
  unfold State.bootFail
  extract_lets u v n under again w
  have hv : s.SameSupply v := .bumpNow (.persistNum (.persistNum h rfl) rfl) rfl
  have ends : ∀ r q p, (if p.run = .running then { p with run := r, wakeQueue := q } else p : PowerSt).dips = p.dips
      ∧ (if p.run = .running then { p with run := r, wakeQueue := q } else p : PowerSt).scrubDue = p.scrubDue := by
    intro r q p
    split <;> exact ⟨rfl, rfl⟩
  have all : ∀ d {x}, s.SameSupply x → s.SameSupply (x.updPower d again) := fun d x k =>
    k.updPower (fun p => (ends .held [] p).1) (fun p => (ends .held [] p).2)
  have hw : s.SameSupply w := by
    dsimp only [w]
    split
    · exact all .c (all .b (all .a hv))
    · exact hv.updPower (fun p => (ends .resetAlone p.wakeQueue p).1) (fun p => (ends .resetAlone p.wakeQueue p).2)
  exact hw.setBoot

theorem State.SameSupply.bootDip (h : s.SameSupply t) : s.SameSupply t.bootDip := by
  unfold State.bootDip
  split
  · split
    · exact h.setBoot
    · exact h.bootFail
  · exact h

theorem State.SameSupply.foldl {α : Type _} {f : State → α → State} (hf : ∀ t x, s.SameSupply t → s.SameSupply (f t x))
    {l : List α} (h : s.SameSupply t) : s.SameSupply (l.foldl f t) := by
  induction l generalizing t with
  | nil => exact h
  | cons x l ih => exact ih (hf t x h)

/-- A dip schedules its scrub pass, and eye checks show in the DRAM channels' own bits (R42, R44). -/
theorem State.SameSupply.scheduleDipPass (s : State) (d : PDie) :
    (s.updPower d (fun p => { p with scrubDue := true })).SameSupply (s.scheduleDipPass d) := by
  unfold State.scheduleDipPass
  extract_lets eyes u
  have hu : (s.updPower d (fun p => { p with scrubDue := true })).SameSupply u := by
    have e : u = (s.updPower d (fun p => { p with scrubDue := true })).updPower d
        (fun p => { p with eyeDue := match d with | .c => p.eyeDue | _ => true }) := by
      cases d <;> rfl
    rw [e]
    exact (State.SameSupply.refl _).updPower (fun _ => rfl) (fun _ => rfl)
  split
  · exact hu
  · split
    · exact .foldl (fun _ _ h => h.wr rfl) hu
    · exact hu

end


/-! ### Rails (R41, R42, R44) -/

/-- A warning crossing of a rail without a dip opens one. -/
theorem execRailWarningCrossing_opens {s : State} {d : PDie} {rail mv : Nat} (hr : rail < railCount d) (hup : s.up d = true)
    (hlow : railSample mv < railWarn d rail) (hnew : rail ∉ (s.power d).dips.map (·.1)) (first : Nat) :
    execRailWarningCrossing d rail first mv s = .next
      (((s.updPower d (fun p => { p with dips := tabSet p.dips rail ⟨first, railSample mv⟩ })).clrBit
        Obj.pwrStatus d.die 0 rail).wr Obj.pwrRailVoltage d.die rail (railSample mv : Nat)) := by
  unfold execRailWarningCrossing
  rw [if_neg (Nat.not_le.mpr hr)]
  exact when_pos (by simp only [hup, hlow, hnew, not_false_eq_true, decide_true, Bool.and_self]) ..

/-- A dip ends: the rail is in range again, its lowest voltage is kept, and the event is raised (R42). -/
def State.dipEnds (s : State) (d : PDie) (rail volt low : Nat) (micros : Nat) : State :=
  (((((s.updPower d (fun p => { p with dips := tabDel p.dips rail })).setBit Obj.pwrStatus d.die 0 rail).wr Obj.pwrRailVoltage d.die
    rail (railSample volt : Nat)).setBit Obj.pwrSticky d.die 0 rail).persistNum Obj.pwrRailDipMin d.die rail (low : Nat)).raise d 0x1101
      rail (p16 [rail, low, micros])

/-- Die C notes its own event to be counted at once (R42). -/
def State.noteOwn (s : State) (d : PDie) (rail : Nat) : State :=
  match d with
  | .c => { s with brownouts := s.brownouts ++ [(PDie.c, rail)] }
  | _ => s

theorem State.noteOwn_eq (s : State) (d : PDie) (rail : Nat) :
    s.noteOwn d rail = { s with brownouts := s.brownouts ++ (if d = .c then [(PDie.c, rail)] else []) } := by
  cases d <;> simp [State.noteOwn]

theorem execRailRecovery_ends {s : State} {d : PDie} {rail mv volt : Nat} {dip : Dip} (hr : rail < railCount d)
    (hup : s.up d = true) (hdip : (s.power d).dips.find? (fun e => e.1 == rail) = some (rail, dip))
    (hlow : railReset d rail ≤ min dip.lowest (railSample mv)) (hback : railWarn d rail + 15 ≤ railSample volt) (last : Nat) :
    execRailRecovery d rail last mv volt s = .next ((((s.dipEnds d rail volt (min dip.lowest (railSample mv))
      (dipMicros dip.firstNs last)).noteOwn d rail).scheduleDipPass d).bootDip) := by
  have occasion : (s.up d && decide (railReset d rail ≤ min dip.lowest (railSample mv))
      && decide (railWarn d rail + 15 ≤ railSample volt)) = true := by
    simp only [hup, hlow, hback, decide_true, Bool.and_self]
  unfold execRailRecovery
  rw [if_neg (Nat.not_le.mpr hr), hdip]
  exact (when_pos occasion ..).trans (by cases d <;> rfl)


section
variable (s : State) (d : PDie) (rail volt low micros : Nat)

theorem State.bit_dipEnds :
    (s.dipEnds d rail volt low micros).bit Obj.pwrStatus d.die 0 rail = true
      ∧ (s.dipEnds d rail volt low micros).bit Obj.pwrSticky d.die 0 rail = true := by
  constructor
  · rw [State.dipEnds, State.bit_raise rfl, State.bit_of_rd (State.rd_persistNum_apart rfl ..), State.setBit,
      State.bit_putBit_apart rfl, State.bit_wr_apart rfl]
    exact State.bit_setBit_same ..
  · rw [State.dipEnds, State.bit_raise rfl, State.bit_of_rd (State.rd_persistNum_apart rfl ..)]
    exact State.bit_setBit_same ..

theorem State.dipMin_dipEnds : (s.dipEnds d rail volt low micros).rd Obj.pwrRailDipMin d.die rail = (low : Nat) := by
  rw [State.dipEnds, State.rd_raise rfl, State.rd_persistNum_same]

theorem State.mramDipMin_dipEnds :
    mapGet (s.dipEnds d rail volt low micros).mram.objs (Obj.pwrRailDipMin.addr d.die rail) = some (low : Int) := by
  rw [State.dipEnds, State.mramObjs_raise, State.mramGet_persistNum, if_pos rfl]

theorem State.dips_dipEnds : ((s.dipEnds d rail volt low micros).power d).dips = tabDel (s.power d).dips rail := by
  cases d <;> simp [State.dipEnds, State.power, State.updPower]

theorem State.brownouts_dipEnds : (s.dipEnds d rail volt low micros).brownouts = s.brownouts := by
  simp [State.dipEnds]

theorem State.reported_dipEnds (h : s.canReport d = true) :
    s.reported (s.dipEnds d rail volt low micros) d 0x1101 rail (p16 [rail, low, micros]) := by
  refine State.reported_raise h ?_ ..
  have number : ∀ u : State, u.objs = s.objs → ((((u.setBit Obj.pwrStatus d.die 0 rail).wr Obj.pwrRailVoltage d.die rail
      (railSample volt : Nat)).setBit Obj.pwrSticky d.die 0 rail).persistNum Obj.pwrRailDipMin d.die rail (low : Nat)).rdN
        Obj.evtGseqNext .c 0 = s.rdN Obj.evtGseqNext .c 0 := fun u hu => by
    rw [State.rdN_persistNum_apart rfl, State.rdN_setBit_apart rfl, State.rdN_wr_apart rfl, State.rdN_setBit_apart rfl,
      State.rdN, State.rd_of_objs hu, State.rdN]
  rw [State.inlets, number _ (State.objs_updPower ..)]
  simp [State.inlets]

end

/-- RAIL_RECOVERY of an open dip (R42, R44): what follows the end of the dip leaves what it left of the supplies. -/
theorem execRailRecovery_effect {s : State} {d : PDie} {rail mv volt : Nat} {dip : Dip} (hr : rail < railCount d)
    (hup : s.up d = true) (hdip : (s.power d).dips.find? (fun e => e.1 == rail) = some (rail, dip))
    (hlow : railReset d rail ≤ min dip.lowest (railSample mv)) (hback : railWarn d rail + 15 ≤ railSample volt)
    (hrep : s.canReport d = true) (last : Nat) :
    ∃ t, execRailRecovery d rail last mv volt s = .next t ∧ t.bit Obj.pwrStatus d.die 0 rail = true
      ∧ t.bit Obj.pwrSticky d.die 0 rail = true ∧ t.rd Obj.pwrRailDipMin d.die rail = (min dip.lowest (railSample mv) : Nat)
      ∧ (t.power d).dips = tabDel (s.power d).dips rail ∧ (t.power d).scrubDue = true
      ∧ s.reported t d 0x1101 rail (p16 [rail, (min dip.lowest (railSample mv) : Nat), dipMicros dip.firstNs last])
      ∧ mapGet t.mram.objs (Obj.pwrRailDipMin.addr d.die rail) = some (t.rd Obj.pwrRailDipMin d.die rail)
      ∧ t.brownouts = s.brownouts ++ (if d = .c then [(PDie.c, rail)] else []) := by
  refine ⟨_, execRailRecovery_ends hr hup hdip hlow hback last, ?_⟩
  generalize min dip.lowest (railSample mv) = low, dipMicros dip.firstNs last = micros
  obtain ⟨hstatus, hsticky⟩ := s.bit_dipEnds d rail volt low micros
  have hmin := s.dipMin_dipEnds d rail volt low micros
  have hmram := s.mramDipMin_dipEnds d rail volt low micros
  have hdips := s.dips_dipEnds d rail volt low micros
  have hrep := s.reported_dipEnds d rail volt low micros hrep
  have hbrown := s.brownouts_dipEnds d rail volt low micros
  generalize s.dipEnds d rail volt low micros = u at *
  rw [State.noteOwn_eq]
  have after := (State.SameSupply.scheduleDipPass { u with brownouts := u.brownouts ++ (if d = .c then [(PDie.c, rail)] else []) }
    d).bootDip
  have kept : ∀ {o : ObjDef}, o.supply = true → ∀ e i, _ = u.rd o e i := fun ho e i =>
    (after.rd _ ho e i).trans ((State.rd_updPower ..).trans rfl)
  refine ⟨?_, ?_, ?_, ?_, ?_, ?_, ?_, ?_⟩
  · rw [State.bit_of_rd (kept rfl ..), hstatus]
  · rw [State.bit_of_rd (kept rfl ..), hsticky]
  · rw [kept rfl, hmin]
  · rw [after.dips, State.power_updPower]
    exact hdips
  · rw [after.scrubDue, State.power_updPower]
  · exact State.reported_of_records (after.records.trans (by cases d <;> rfl)) hrep
  · rw [after.mram _ rfl, kept rfl, State.mram_updPower, hmin]
    exact hmram
  · rw [after.brownouts, State.brownouts_updPower, hbrown]

/-- BROWNOUT_EVENT_RECEIVED counts the oldest noted event of a die that Die C hears (R42, R44). -/
theorem execBrownoutEventReceived_counts {s : State} {d : PDie} {rail : Nat}
    (hfind : s.brownouts.find? (fun e => e.1 == d) = some (d, rail)) (hear : s.heardFrom d = true) :
    execBrownoutEventReceived d s = .next ((State.bumpNow { s with brownouts := s.brownouts.erase (d, rail) }
      Obj.pwrRailBrownoutCount d.die rail).bumpNow Obj.pwrBrownoutCount d.die 0) := by
  unfold execBrownoutEventReceived
  rw [hfind]
  exact when_pos (by cases d <;> exact hear) ..

/-- Settles O2: each command's meaning on its occasion, and what the operations in it write and leave. -/
theorem warningDipsAreRecordedAndReported : Obligations.WarningDipsAreRecordedAndReported := by
  refine ⟨fun s d rail first mv hr hup hlow hnew => ⟨_, execRailWarningCrossing_opens hr hup hlow hnew first, ?_⟩,
    fun s d rail last mv volt dip hr hup hdip hlow hback hrep => execRailRecovery_effect hr hup hdip hlow hback hrep last,
    fun s d rail hfind hear => ⟨_, execBrownoutEventReceived_counts hfind hear, ?_⟩⟩
  · have bits : ∀ r, State.bit (((s.updPower d (fun p => { p with dips := tabSet p.dips rail ⟨first, railSample mv⟩ })).clrBit
        Obj.pwrStatus d.die 0 rail).wr Obj.pwrRailVoltage d.die rail (railSample mv : Nat)) Obj.pwrStatus d.die 0 r
          = if rail = r then false else s.bit Obj.pwrStatus d.die 0 r := fun r => by
      rw [State.bit_wr_apart rfl, State.clrBit, State.bit_putBit, State.bit_of_rd (State.rd_updPower ..)]
    refine ⟨(bits rail).trans (if_pos rfl), State.rd_wr_same .., ?_, ?_, fun r h => (bits r).trans (if_neg h.symm), ?_⟩
    · cases d <;> rfl
    · refine State.agree.trans (k := [Obj.pwrStatus.addr d.die 0]) (fun a ha => ?_) (State.agree_wr _ _ _ _ _)
      exact (State.agree_wr _ _ _ _ _ a ha).trans (by rw [State.objs_updPower])
    · simp
  · refine ⟨by simp [State.bumpNow], ?_, ?_, State.mramGet_bumpNow_same ..⟩
    · rw [State.rdN, State.rd_bumpNow_apart rfl, ← State.rdN, State.rdN_bumpNow_same]
      rfl
    · rw [State.rdN_bumpNow_same, State.rdN, State.rd_bumpNow_apart rfl]
      rfl

end Sys2Proof.Machine
end

section
namespace Sys2Proof.Machine

/-! ### What the work of a media die leaves of Die C -/

/-- A row that Die C keeps, of the package or of its event log: no block of a media die writes it. -/
def ObjDef.central (o : ObjDef) : Bool := decide (o.index < 0x1200) || o.index == 0x3F00

theorem ObjDef.central_apart {o p : ObjDef} (h : o.central = false) (k : p.central = true) : o.apart p = true := by
  simp only [ObjDef.central, ObjDef.apart, Bool.or_eq_false_iff, Bool.or_eq_true, decide_eq_false_iff_not, decide_eq_true_eq,
    beq_eq_false_iff_ne, beq_iff_eq, bne_iff_ne] at *
  omega

/-- Between two states Die C's log, its boot and the central objects are the same, and so are the masters held in reset. -/
structure State.SameHub (s t : State) : Prop where
  ramLog : t.ramLog = s.ramLog
  boot : t.boot = s.boot
  resets : ∀ e, (t.md e).bus.resets = (s.md e).bus.resets
  rd : ∀ o : ObjDef, o.central = true → ∀ d i, t.rd o d i = s.rd o d i

section
variable {s t : State}

theorem State.SameHub.refl (s : State) : s.SameHub s := ⟨rfl, rfl, fun _ => rfl, fun _ _ _ _ => rfl⟩

theorem State.SameHub.wr {o d i v} (h : s.SameHub t) (ho : o.central = false := by rfl) : s.SameHub (t.wr o d i v) :=
  { h with rd := fun _ hp _ _ => (State.rd_wr_apart (ObjDef.central_apart ho hp) ..).trans (h.rd _ hp _ _) }

theorem State.SameHub.putBytes {b} (h : s.SameHub t) : s.SameHub { t with blobs := b } := { h with }

theorem State.SameHub.updMd {d f} (h : s.SameHub t) (hf : ∀ m : MediaDie, (f m).bus.resets = m.bus.resets := by intro; rfl) :
    s.SameHub (t.updMd d f) where
  ramLog := by rw [State.ramLog_updMd, h.ramLog]
  boot := by rw [State.boot_updMd, h.boot]
  resets e := (State.md_updMd_leaves (·.bus.resets) t d e hf).trans (h.resets e)
  rd o ho e i := by rw [State.rd_updMd, h.rd o ho]

theorem State.SameHub.ite {c : Prop} {i : Decidable c} {u : State} (h : s.SameHub t) (k : s.SameHub u) :
    s.SameHub (if c then t else u) := by
  split <;> assumption

theorem State.SameHub.foldl {α : Type _} {f : State → α → State} {l : List α} (hf : ∀ t x, s.SameHub t → s.SameHub (f t x))
    (h : s.SameHub t) : s.SameHub (l.foldl f t) := by
  induction l generalizing t with
  | nil => exact h
  | cons x l ih => exact ih (hf t x h)

theorem State.SameHub.noteError {d code payload} (h : s.SameHub t) : s.SameHub (t.noteError d code payload) :=
  .ite h.putBytes.updMd h

theorem State.SameHub.emitMarker {d} (h : s.SameHub t) : s.SameHub (t.emitMarker d) := by
  unfold State.emitMarker
  exact .ite h.wr.updMd h

/-- An event of a media die waits in its arbiter (R87, R89). -/
theorem State.SameHub.raise {d : MDie} {code inst payload} (h : s.SameHub t) : s.SameHub (t.raise d.pdie code inst payload) := by
  have media : s.SameHub (t.raiseMedia d code inst payload) := by
    unfold State.raiseMedia
    exact .ite (State.SameHub.noteError h.emitMarker.wr).updMd (State.SameHub.noteError h.emitMarker.wr).wr.updMd
  cases d <;> exact media

/-! ### Poison and bus masters -/

theorem State.SameHub.fsyPoison {d n row col k} (h : s.SameHub t) : s.SameHub (t.fsyPoison d n row col k) := by
  unfold State.fsyPoison
  extract_lets
  split
  extract_lets _ _ u
  have hu : s.SameHub u := by
    dsimp only [u]
    split
    · exact h.updMd.wr
    · exact h.updMd
  exact hu.wr

theorem State.SameHub.surfaceLost {d n layer row col k since late} (h : s.SameHub t) :
    s.SameHub (t.surfaceLost d n layer row col k since late) := by
  unfold State.surfaceLost
  exact .ite h.updMd.wr.wr h.updMd.wr.wr.raise

theorem State.SameHub.encPoison {d c kind} (h : s.SameHub t) : s.SameHub (t.encPoison d c kind) := by
  unfold State.encPoison
  exact .raise (.wr (.wr (.ite h.updMd h)))

theorem State.SameHub.decPoison {d n} (h : s.SameHub t) : s.SameHub (t.decPoison d n) := by
  have replace : ∀ k r, s.SameHub (t.decReplace d n k r) := fun k r => by
    unfold State.decReplace
    exact .ite h (.ite h.wr.wr.updMd h.wr.wr.updMd.raise)
  have taint : ∀ {u : State}, s.SameHub u → s.SameHub (u.decTaint d n) := fun {u} hu => by
    unfold State.decTaint
    split
    · exact hu
    · exact .ite hu hu.wr.updMd
  exact .ite (taint (replace ..)) h

/-- A poisoned word reaches its consumer within the media die (R394). -/
theorem State.SameHub.poisonUse {d u} (h : s.SameHub t) : s.SameHub (t.poisonUse d u) := by
  unfold State.poisonUse
  split
  · exact h
  · exact h.fsyPoison
  · exact h.surfaceLost
  · exact h.encPoison
  · exact h.encPoison
  · exact .raise h.wr
  · exact h.decPoison

theorem State.SameHub.showMaster {d m} (h : s.SameHub t) : s.SameHub (t.showMaster d m) := by
  unfold State.showMaster
  exact h.wr.wr.wr.wr

/-! ### A step of a media die's counter -/

theorem State.SameHub.updVideo {d f} (h : s.SameHub t) : s.SameHub (t.updVideo d f) := h.updMd

theorem State.SameHub.updCmp {d n f} (h : s.SameHub t) : s.SameHub (t.updCmp d n f) := h.updVideo

theorem State.SameHub.outGoOver {d m r} (h : s.SameHub t) : s.SameHub (t.outGoOver d m r) := by
  unfold State.outGoOver State.updOutp
  exact h.updVideo

theorem State.SameHub.updEnc {d c f} (h : s.SameHub t) : s.SameHub (t.updEnc d c f) := h.updMd

theorem State.SameHub.updPic {d c num f} (h : s.SameHub t) : s.SameHub (t.updPic d c num f) := h.updEnc

theorem State.SameHub.outStep {d m k step} (h : s.SameHub t) : s.SameHub (t.outStep d m k step) := by
  unfold State.outStep
  split
  · exact h.outGoOver
  · exact .ite h h.outGoOver

theorem State.SameHub.cmpStep {d n k step} (h : s.SameHub t) : s.SameHub (t.cmpStep d n k step) := by
  unfold State.cmpStep
  exact .ite h h.updCmp

theorem State.SameHub.encStore {d c num r img} (h : s.SameHub t) : s.SameHub (t.encStore d c num r img) := by
  unfold State.encStore
  extract_lets
  split
  extract_lets u
  have hu : s.SameHub u := h.updPic
  split
  · split
    · exact hu.updEnc
    · exact hu
  · exact hu

theorem State.SameHub.encTimeStep {d c step} (h : s.SameHub t) : s.SameHub (t.encTimeStep d c step) := by
  unfold State.encTimeStep
  exact .ite h (.raise (.wr (.wr (.updEnc (.foldl (fun _ _ h => .updPic (.foldl (fun _ _ h => .ite h h.encStore) h)) h)))))

theorem State.SameHub.decRestart {d n} (h : s.SameHub t) : s.SameHub (t.decRestart d n) :=
  .ite h h.updMd.updMd.wr.wr.wr

theorem State.SameHub.ramStep {d step} (h : s.SameHub t) : s.SameHub (t.ramStep d step) := by
  unfold State.ramStep
  exact h.updMd

theorem State.SameHub.updNet {d f} (h : s.SameHub t) : s.SameHub (t.updNet d f) := h.updMd

theorem State.SameHub.audTimeStep {d} (h : s.SameHub t) : s.SameHub (t.audTimeStep d) := by
  unfold State.audTimeStep State.updAud
  exact h.updMd

theorem State.SameHub.cuePast {d k} (h : s.SameHub t) : s.SameHub (t.cuePast d k) := by
  unfold State.cuePast
  extract_lets _ u
  have hu : s.SameHub u := h.wr.raise
  exact .ite hu.updMd.wr (.ite hu.putBytes.wr hu.wr)

theorem State.SameHub.inOrder {old d} (h : s.SameHub t) : s.SameHub (t.inOrder old d) := by
  unfold State.inOrder
  exact h.updMd

theorem State.SameHub.cuesStepped {d step} (h : s.SameHub t) : s.SameHub (t.cuesStepped d step) := by
  unfold State.cuesStepped
  exact .ite h (.inOrder (.foldl (fun _ _ h => h.cuePast) h))

/-- A step of a media die's counter is the die's own matter (R62). -/
theorem State.SameHub.dieStep {d step} (h : s.SameHub t) : s.SameHub (t.dieStep d step) := by
  unfold State.dieStep
  exact .inOrder (.cuesStepped (.audTimeStep (.foldl (fun _ _ h => h.decRestart) (.foldl (fun _ _ h => h.encTimeStep)
    (.updNet (.ramStep (.foldl (fun _ _ h => h.cmpStep) (.foldl (fun _ _ h => h.outStep) h.updMd))))))))

theorem State.sameHub_uciUp (s : State) (d : MDie) : (s.wr Obj.uciState .c d.num 2).SameHub (s.uciUp d) := by
  unfold State.uciUp
  exact .updMd (.ite (.refl _) (State.SameHub.refl _).dieStep)

end

end Sys2Proof.Machine
end

section
namespace Sys2Proof.Machine

/-! ### Links (R391, R442, R443) -/

/-- What Die C's log holds was reported there. -/
theorem State.reportedC_of_ramLog {s u t : State} {code inst payload : Nat} (h : t.ramLog = u.ramLog)
    (k : s.reported u .c code inst payload) : s.reported t .c code inst payload := by
  simpa only [State.reported, h] using k

theorem any_tabSet_same {α : Type} (t : Tab α) (k : Nat) (v : α) : (tabSet t k v).any (fun r => r.1 == k) = true := by
  induction t with
  | nil => simp [tabSet]
  | cons e t ih =>
    unfold tabSet
    split
    · simp
    · split
      · simp
      · rw [List.any_cons, ih, Bool.or_true]

/-- A master's reset is under way afterwards (R391, R392); Die C's log and its objects are as they were. -/
theorem State.masterReset_effect (s : State) (d : MDie) (m : Nat) :
    ((s.masterReset d m).md d).bus.resets.any (fun r => r.1 == m) = true ∧ (s.masterReset d m).ramLog = s.ramLog
      ∧ ∀ o : ObjDef, o.central = true → ∀ e i, (s.masterReset d m).rd o e i = s.rd o e i := by
  unfold State.masterReset
  split
  · next h => exact ⟨h, rfl, fun _ _ _ _ => rfl⟩
  · extract_lets mine gen ram bus poisoned freed
    have held : (bus.md d).bus.resets.any (fun r => r.1 == m) = true := by
      dsimp only [bus]
      rw [State.updBus, State.md_updMd]
      exact any_tabSet_same ..
    have log : bus.ramLog = s.ramLog := by
      simp only [bus, ram, gen, State.updBus, State.updRam, State.ramLog_updMd, State.ramLog_wr]
    have objs : ∀ o : ObjDef, o.central = true → ∀ e i, bus.rd o e i = s.rd o e i := fun o ho e i => by
      simp only [bus, ram, gen, State.updBus, State.updRam, State.rd_updMd]
      exact State.rd_wr_apart (ObjDef.central_apart rfl ho) ..
    have rest : bus.SameHub (freed.showMaster d m) :=
      .showMaster (.foldl (fun _ _ h => h.wr.raise) (.foldl (fun _ _ h => h.poisonUse) (.refl _)))
    exact ⟨by rw [rest.resets, held], rest.ramLog.trans log, fun o ho e i => (rest.rd o ho e i).trans (objs o ho e i)⟩

/-- UCIE_LINK_DOWN of a reachable die (R391, R442): the state in which the event is raised, before the reset of master 31. -/
def State.linkShownDown (s : State) (d : MDie) : State := (s.wr Obj.uciState .c d.num 0).bump Obj.uciDownCount .c d.num

theorem execUcieLinkDown_eq {s : State} {d : MDie} (h : s.reachable d = true) : execUcieLinkDown d s =
    .next (((s.linkShownDown d).raise .c 0x1030 d.num (p16 [d.num])).masterReset d 31) := when_pos h ..

theorem execUcieLinkDown_effect {s : State} {d : MDie} (h : s.reachable d = true) :
    ∃ t, execUcieLinkDown d s = .next t ∧ t.rd Obj.uciState .c d.num = 0 ∧ t.reachable d = false
      ∧ t.rdN Obj.uciDownCount .c d.num = min (s.rdN Obj.uciDownCount .c d.num + 1) Obj.uciDownCount.ty.maxVal
      ∧ (t.md d).bus.resets.any (fun r => r.1 == 31) = true ∧ s.reported t .c 0x1030 d.num (p16 [d.num]) := by
  refine ⟨_, execUcieLinkDown_eq h, ?_⟩
  obtain ⟨held, log, objs⟩ := ((s.linkShownDown d).raise .c 0x1030 d.num (p16 [d.num])).masterReset_effect d 31
  have rep : s.reported ((s.linkShownDown d).raise .c 0x1030 d.num (p16 [d.num])) .c 0x1030 d.num (p16 [d.num]) := by
    refine State.reported_raiseC ?_ ..
    rw [State.linkShownDown, State.bump, State.addCount, State.rdN_wr_apart rfl, State.rdN_wr_apart rfl]
  generalize ((s.linkShownDown d).raise .c 0x1030 d.num (p16 [d.num])).masterReset d 31 = t at *
  have state : t.rd Obj.uciState .c d.num = 0 := by
    rw [objs _ rfl, State.rd_raise rfl, State.linkShownDown, State.rd_bump_apart rfl, State.rd_wr_same]
  refine ⟨state, ?_, ?_, held, State.reportedC_of_ramLog log rep⟩
  · simp [State.reachable, State.rdN, state]
  · rw [State.rdN, objs _ rfl, ← State.rdN, State.rdN_raise rfl, State.linkShownDown, State.rdN_bump_same, State.rdN_wr_apart rfl]

theorem State.uciState_uciUp (s : State) (d : MDie) : (s.uciUp d).rd Obj.uciState .c d.num = 2 := by
  rw [(s.sameHub_uciUp d).rd _ rfl, State.rd_wr_same]

theorem State.gseq_uciUp (s : State) (d : MDie) : (s.uciUp d).rdN Obj.evtGseqNext .c 0 = s.rdN Obj.evtGseqNext .c 0 := by
  rw [State.rdN, (s.sameHub_uciUp d).rd _ rfl, ← State.rdN, State.rdN_wr_apart rfl]

/-- UCIE_RETRAIN (R442). -/
theorem execUcieRetrain_effect {s : State} {d : MDie} (hc : s.up .c = true) (hd : s.up d.pdie = true)
    (hs : s.rdN Obj.uciState .c d.num ≠ 2) (hr : d ∉ s.boot.reattach) :
    ∃ t, execUcieRetrain d s = .next t ∧ t.rd Obj.uciState .c d.num = 2 ∧ s.reported t .c 0x1031 d.num (p16 [d.num]) := by
  refine ⟨_, when_pos ?_ .., ?_, State.reported_raiseC (State.gseq_uciUp ..).ge ..⟩
  · simp [hc, hd, hs, hr]
  · rw [State.rd_raise rfl, State.uciState_uciUp]

/-- A die that waits for it is taken off the list, and its link comes up (R443). -/
def State.reattached (s : State) (d : MDie) : State :=
  ({ s with boot := { s.boot with reattach := s.boot.reattach.filter (· != d) } } : State).uciUp d

/-- DIE_C_REATTACH (R443): MRAM takes the running values, and differences are reported. -/
theorem execDieCReattach_eq {s : State} {d : MDie} (hc : s.up .c = true) (hd : s.up d.pdie = true) (hr : d ∈ s.boot.reattach) :
    ∃ (m : Mram) (n : Nat), execDieCReattach d s = .next (if n = 0 then { s.reattached d with mram := m } else
      (State.setBit { s.reattached d with mram := m } Obj.volSticky .p 0 3).raise .c 0x1014 d.num (p16 [d.num, n])) :=
  ⟨_, _, when_pos (by simp [hc, hd, hr]) ..⟩

theorem execDieCReattach_effect {s : State} {d : MDie} (hc : s.up .c = true) (hd : s.up d.pdie = true) (hr : d ∈ s.boot.reattach) :
    ∃ t, execDieCReattach d s = .next t ∧ t.rd Obj.uciState .c d.num = 2 ∧ d ∉ t.boot.reattach := by
  obtain ⟨m, n, e⟩ := execDieCReattach_eq hc hd hr
  refine ⟨_, e, ?_⟩
  have state : (s.reattached d).rd Obj.uciState .c d.num = 2 := State.uciState_uciUp ..
  have boot : (s.reattached d).boot.reattach = s.boot.reattach.filter (· != d) :=
    congrArg BootSt.reattach (State.sameHub_uciUp ..).boot
  split
  · exact ⟨state, by simp [boot]⟩
  · refine ⟨?_, by simp [boot]⟩
    rw [State.rd_raise rfl, State.rd_setBit_apart rfl]
    exact state


/-! ### Records that reach Die C (R87, R89, R464) -/

theorem getLast?_keepNewest_concat {α : Type _} {n : Nat} (h : 0 < n) (l : List α) (x : α) :
    (keepNewest n (l ++ [x])).getLast? = some x := by
  rw [keepNewest, List.drop_append_of_le_length (by simp; omega), List.getLast?_concat]

theorem mem_keepNewest_of_getLast? {α : Type _} {n : Nat} (h : 1 < n) {l : List α} {x : α} (hx : l.getLast? = some x) (y : α) :
    x ∈ keepNewest n (l ++ [y]) := by
  obtain ⟨l, rfl⟩ := List.getLast?_eq_some_iff.mp hx
  rw [keepNewest, List.append_assoc, List.drop_append_of_le_length (by simp; omega)]
  simp

theorem State.ramLog_logRecord (s : State) (r : EventRec) :
    (s.logRecord r).ramLog = keepNewest ramLogMax (s.ramLog ++ [{ r with gseq := s.rdN Obj.evtGseqNext .c 0 }]) := by
  simp only [State.logRecord, State.ramLog_wr]
  split <;> with_reducible rfl

theorem State.gseq_logRecord (s : State) (r : EventRec) :
    (s.logRecord r).rdN Obj.evtGseqNext .c 0 = s.rdN Obj.evtGseqNext .c 0 + 1 := by
  simp only [State.logRecord]
  rw [State.rdN_wr_apart rfl, State.rdN_wr_apart rfl, State.rdN_wr_apart rfl, State.rdN_wr_same, Int.toNat_natCast]

/-- A record whose code has EVT.CODE.FLAGS bit 0 goes to MRAM as well (R464). -/
theorem State.mramLog_logRecord {s : State} {r : EventRec} (h : s.bit Obj.evtCodeFlags .c r.code 0 = true) :
    (s.logRecord r).mram.log = keepNewest persistLogMax (s.mram.log ++
      [(s.rdN Obj.volBootCount .p 0, { r with gseq := s.rdN Obj.evtGseqNext .c 0 })]) := by
  simp only [State.logRecord, State.mram_wr, h, if_true]

theorem State.mram_logRecord_of_flag_clear {s : State} {r : EventRec} (h : s.bit Obj.evtCodeFlags .c r.code 0 = false) :
    (s.logRecord r).mram = s.mram := by
  simp only [State.logRecord, State.mram_wr, h, Bool.false_eq_true, if_false]

theorem State.md_logRecord (s : State) (r : EventRec) (d : MDie) : (s.logRecord r).md d = s.md d := by
  cases d <;> simp [State.md]

theorem State.power_logRecord (s : State) (r : EventRec) (d : PDie) : (s.logRecord r).power d = s.power d := by
  cases d <;> simp [State.power]

/-- The oldest record of a media die's arbiter is taken into Die C's log (R87). -/
def State.takeRecord (s : State) (d : MDie) (r : EventRec) (rest : List EventRec) : State :=
  (s.updMd d (fun m => { m with arb := { m.arb with buf := rest } })).logRecord r

section
variable {s : State} {d : MDie} {r : EventRec} {rest : List EventRec}

theorem State.buf_takeRecord : ((s.takeRecord d r rest).md d).arb.buf = rest := by
  rw [State.takeRecord, State.md_logRecord, State.md_updMd]

theorem State.lastLogged_takeRecord :
    (s.takeRecord d r rest).ramLog.getLast? = some { r with gseq := s.rdN Obj.evtGseqNext .c 0 } := by
  rw [State.takeRecord, State.ramLog_logRecord, getLast?_keepNewest_concat (by decide), State.rdN, State.rd_updMd, State.rdN]

theorem State.gseq_takeRecord : (s.takeRecord d r rest).rdN Obj.evtGseqNext .c 0 = s.rdN Obj.evtGseqNext .c 0 + 1 := by
  rw [State.takeRecord, State.gseq_logRecord, State.rdN, State.rd_updMd, State.rdN]

theorem State.mramLast_takeRecord (h : s.bit Obj.evtCodeFlags .c r.code 0 = true) : (s.takeRecord d r rest).mram.log.getLast? =
    some (s.rdN Obj.volBootCount .p 0, { r with gseq := s.rdN Obj.evtGseqNext .c 0 }) := by
  rw [State.takeRecord, State.mramLog_logRecord ((State.bit_of_rd (State.rd_updMd ..) 0).trans h),
    getLast?_keepNewest_concat (by decide)]
  simp only [State.rdN, State.rd_updMd]

theorem State.mram_takeRecord (h : s.bit Obj.evtCodeFlags .c r.code 0 = false) : (s.takeRecord d r rest).mram = s.mram := by
  rw [State.takeRecord, State.mram_logRecord_of_flag_clear ((State.bit_of_rd (State.rd_updMd ..) 0).trans h), State.mram_updMd]

theorem execEventRecordArrival_eq (hbuf : (s.md d).arb.buf = r :: rest) (hreach : s.reachable d = true) (hcode : r.code ≠ 0x3203) :
    execEventRecordArrival d s = .next ((s.takeRecord d r rest).received d r) := by
  unfold execEventRecordArrival
  rw [hbuf]
  exact (when_pos hreach ..).trans (congrArg _ (if_neg hcode))

/-- A record that no dip of the die follows at most notes a brown-out (R42). -/
theorem State.received_notes (s : State) (h : r.code ≠ 0x1120 ∨ (s.power d.pdie).aoDip = none) :
    (s.received d r).md d = s.md d ∧ (s.received d r).ramLog = s.ramLog ∧ (s.received d r).mram = s.mram
      ∧ (s.received d r).objs = s.objs := by
  unfold State.received
  split
  · exact ⟨by cases d <;> rfl, rfl, rfl, rfl⟩
  · split
    · next hr =>
      have none : (s.power d.pdie).aoDip = none := h.resolve_left fun k => k hr.1
      rw [State.dipReported, none]
      exact ⟨rfl, rfl, rfl, rfl⟩
    · exact ⟨rfl, rfl, rfl, rfl⟩

/-- Event 0x1120 of a rail-level reset is followed by event 0x1102 (R53). -/
theorem State.received_dip {s : State} {rail mv : Nat} (hcode : r.code = 0x1120) (hp : r.payload = p16 [2])
    (hdip : (s.power d.pdie).aoDip = some (rail, mv)) :
    s.received d r = s.raise .c 0x1102 rail (p16 [rail, mv]) := by
  unfold State.received
  rw [if_neg (by rw [hcode]; decide), if_pos ⟨hcode, hp⟩, State.dipReported, hdip]
  exact if_pos rfl

/-- A logged record is still there after the next one. -/
theorem State.mem_ramLog_raiseC {s : State} {x : EventRec} (h : s.ramLog.getLast? = some x) (c i p : Nat) :
    x ∈ (s.raise .c c i p).ramLog := by
  rw [State.raise, State.raiseC, State.ramLog_logRecord]
  exact mem_keepNewest_of_getLast? (by decide) h _

theorem execEventRecordArrival_dip {rail mv : Nat} (hbuf : (s.md d).arb.buf = r :: rest) (hreach : s.reachable d = true)
    (hcode : r.code = 0x1120) (hp : r.payload = p16 [2]) (hdip : (s.power d.pdie).aoDip = some (rail, mv)) :
    ∃ t, execEventRecordArrival d s = .next t ∧ (t.md d).arb.buf = rest ∧ s.reported t .c 0x1120 r.inst r.payload
      ∧ s.reported t .c 0x1102 rail (p16 [rail, mv]) := by
  have kept : ((s.takeRecord d r rest).power d.pdie).aoDip = some (rail, mv) := by
    rw [State.takeRecord, State.power_logRecord]
    cases d <;> exact hdip
  refine ⟨_, execEventRecordArrival_eq hbuf hreach (by rw [hcode]; decide), ?_⟩
  rw [State.received_dip hcode hp kept]
  refine ⟨by rw [State.md_raiseC, State.buf_takeRecord], ?_, State.reported_raiseC ?_ ..⟩
  · exact ⟨_, State.mem_ramLog_raiseC State.lastLogged_takeRecord .., le_rfl, hcode, rfl, rfl⟩
  · rw [State.gseq_takeRecord]
    exact Nat.le_succ _

end

/-- The overflow marker of an arbiter: the number of records lost and the first lost DSEQ (R89). -/
def State.marker (s : State) (d : MDie) : EventRec :=
  s.stamp d.pdie 0x3F01 0 (payloadOf [(32, (s.md d).arb.lost), (32, (s.md d).arb.firstLost)]) true

/-- Space has returned in an arbiter that lost records (R89). -/
theorem State.emitMarker_eq {s : State} {d : MDie} (hl : 0 < (s.md d).arb.lost) (hr : (s.md d).arb.buf.length < arbiterMax) :
    s.emitMarker d = (s.takeDseq d.pdie).updMd d (fun m =>
      { m with arb := { buf := (s.md d).arb.buf ++ [s.marker d], lost := 0, firstLost := 0 } }) := by
  unfold State.emitMarker
  exact if_pos ⟨hl, hr⟩

/-! ### PERSISTENT_COUNT_FLUSH (R451) -/

theorem mapGet_foldl_of_not_mem {l : List (ObjAddr × Int)} {a : ObjAddr} (h : ∀ e ∈ l, e.1 ≠ a) (m : List (ObjAddr × Int)) :
    mapGet (l.foldl (fun m e => mapPut m e.1 e.2) m) a = mapGet m a := by
  induction l generalizing m with
  | nil => rfl
  | cons e l ih =>
    rw [List.foldl_cons, ih fun x hx => h x (List.mem_cons_of_mem _ hx), mapGet_mapPut, if_neg (h e List.mem_cons_self)]

/-- Entries of a map in canonical form that are put into another one read there as they stand. -/
theorem mapGet_foldl_of_mem {l : List (ObjAddr × Int)} (hw : mapWf l = true) {a : ObjAddr} {v : Int} (h : (a, v) ∈ l)
    (m : List (ObjAddr × Int)) : mapGet (l.foldl (fun m e => mapPut m e.1 e.2) m) a = some v := by
  rw [mapWf_iff] at hw
  induction l generalizing m with
  | nil => simp at h
  | cons e l ih =>
    obtain ⟨below, hl⟩ := List.pairwise_cons.mp hw
    rcases List.mem_cons.mp h with rfl | h
    · have other : ∀ x ∈ l, x.1 ≠ a := fun x hx k => by
        have := below x hx
        rw [k, addrLt_irrefl] at this
        exact absurd this (by decide)
      rw [List.foldl_cons, mapGet_foldl_of_not_mem other, mapGet_mapPut, if_pos rfl]
    · exact ih hl h _

/-- The COUNT objects flagged P that the dictionary lists. -/
def State.flushed (s : State) : List (ObjAddr × Int) :=
  s.objs.filter (fun e => match objAt e.1.index e.1.sub with | some o => o.persist && o.acc == .ro | none => false)

theorem State.flushCounts_eq (s : State) : s.flushCounts =
    { s with mram := { s.mram with objs := s.flushed.foldl (fun m e => mapPut m e.1 e.2) s.mram.objs } } := by
  have fold : ∀ (l : List (ObjAddr × Int)) (s : State),
      l.foldl (fun (s : State) e => { s with mram := { s.mram with objs := mapPut s.mram.objs e.1 e.2 } }) s
        = { s with mram := { s.mram with objs := l.foldl (fun m e => mapPut m e.1 e.2) s.mram.objs } } := by
    intro l
    induction l with
    | nil => intro s; rfl
    | cons e l ih => intro s; rw [List.foldl_cons, ih, List.foldl_cons]
  exact fold _ s

/-- Settles O39: records leave the arbiter in order into the log, links act within their die, and MRAM takes the counts. -/
theorem recordsReachTheLogAndLinksAreServed : Obligations.RecordsReachTheLogAndLinksAreServed := by
  refine ⟨fun s d h => ?_, fun s d r rest hbuf hreach hcode hdip => ?_,
    fun s d r rest rail mv hbuf hreach hcode hp hdip => execEventRecordArrival_dip hbuf hreach hcode hp hdip,
    fun s d hup hlost hroom => ?_, fun s d h => execUcieLinkDown_effect h,
    fun s d hc hd => ⟨execUcieRetrain_effect hc hd, execDieCReattach_effect hc hd⟩, fun s hc hw => ?_⟩
  · show execEventRecordArrival d s = .next s
    rw [execEventRecordArrival, h]
  · have kept : r.code ≠ 0x1120 ∨ ((s.takeRecord d r rest).power d.pdie).aoDip = none := by
      rw [State.takeRecord, State.power_logRecord]
      cases d <;> exact hdip
    obtain ⟨hmd, hlog, hmram, hobjs⟩ := State.received_notes (s.takeRecord d r rest) kept
    refine ⟨_, execEventRecordArrival_eq hbuf hreach hcode, ?_, ?_, ?_, fun h => ?_, fun h => ?_⟩
    · rw [hmd, State.buf_takeRecord]
    · rw [hlog, State.lastLogged_takeRecord]
    · rw [State.rdN, State.rd_of_objs hobjs, ← State.rdN, State.gseq_takeRecord]
    · rw [hmram, State.mramLast_takeRecord h]
    · rw [hmram, State.mram_takeRecord h]
  · refine ⟨_, s.marker d, (when_pos hup ..).trans (congrArg _ (State.emitMarker_eq hlost hroom)), ?_, ?_, rfl, rfl, ?_, ?_⟩
    · rw [State.md_updMd]
    · rw [State.md_updMd]
    · cases d <;> rfl
    · simp only [State.marker, State.stamp]
  · refine ⟨_, (when_pos hc ..).trans (congrArg _ s.flushCounts_eq), rfl, fun a v o ho hat hp hacc => ?_⟩
    obtain ⟨hobjs, -⟩ := State.dictWf_iff.mp hw
    refine mapGet_foldl_of_mem (mapWf_filter _ _ hobjs) (List.mem_filter.mpr ⟨ho, ?_⟩) _
    simp [hat, hp, hacc]

end Sys2Proof.Machine
end

section
namespace Sys2Proof.Machine

/-! ### What lanes, ports and Twill links leave of the supplies -/

/-- Between two states the objects of the supplies, the sections and the sensors read the same. -/
structure State.SuppliesRead (s t : State) : Prop where
  rd : ∀ o : ObjDef, o.supply = true → ∀ d i, t.rd o d i = s.rd o d i

section
variable {s t : State}

theorem State.SuppliesRead.refl (s : State) : s.SuppliesRead s := ⟨fun _ _ _ _ => rfl⟩

/-- A change of what is no object. -/
theorem State.SuppliesRead.to {u : State} (h : s.SuppliesRead t) (e : u.objs = t.objs := by rfl) : s.SuppliesRead u :=
  ⟨fun o ho d i => (State.rd_of_objs e o d i).trans (h.rd o ho d i)⟩

theorem State.SuppliesRead.wr {o d i v} (h : s.SuppliesRead t) (ho : o.supply = false := by rfl) : s.SuppliesRead (t.wr o d i v) :=
  ⟨fun _ hp _ _ => (State.rd_wr_apart (ObjDef.supply_apart ho hp) ..).trans (h.rd _ hp _ _)⟩

theorem State.SuppliesRead.raise {d code inst payload} (h : s.SuppliesRead t) : s.SuppliesRead (t.raise d code inst payload) :=
  ⟨fun _ hp _ _ => (State.rd_raise (ObjDef.quiet_of_supply hp) ..).trans (h.rd _ hp _ _)⟩

theorem State.SuppliesRead.updMd {d f} (h : s.SuppliesRead t) : s.SuppliesRead (t.updMd d f) := h.to (State.objs_updMd ..)

theorem State.SuppliesRead.ite {c : Prop} {i : Decidable c} {u : State} (h : s.SuppliesRead t) (k : s.SuppliesRead u) :
    s.SuppliesRead (if c then t else u) := by
  split <;> assumption

theorem State.SuppliesRead.foldl {α : Type _} {f : State → α → State} {l : List α}
    (hf : ∀ t x, s.SuppliesRead t → s.SuppliesRead (f t x)) (h : s.SuppliesRead t) : s.SuppliesRead (l.foldl f t) := by
  induction l generalizing t with
  | nil => exact h
  | cons x l ih => exact ih (hf t x h)

theorem State.SuppliesRead.wrBytes {o d i v} (h : s.SuppliesRead t) : s.SuppliesRead (t.wrBytes o d i v) := h.to

theorem State.SuppliesRead.send {x} (h : s.SuppliesRead t) : s.SuppliesRead (t.send x) := h.to

theorem State.SuppliesRead.updTwill {f} (h : s.SuppliesRead t) : s.SuppliesRead (t.updTwill f) := h.to

theorem State.SuppliesRead.updTlink {d q f} (h : s.SuppliesRead t) : s.SuppliesRead (t.updTlink d q f) := h.updTwill

theorem State.SuppliesRead.dropSlots {gone} (h : s.SuppliesRead t) : s.SuppliesRead (t.dropSlots gone) := by
  unfold State.dropSlots
  exact h.updTwill.updTwill

theorem State.SuppliesRead.twlFlood {except m} (h : s.SuppliesRead t) : s.SuppliesRead (t.twlFlood except m) :=
  .foldl (fun _ _ h => h.send) h

theorem State.SuppliesRead.updNet {d f} (h : s.SuppliesRead t) : s.SuppliesRead (t.updNet d f) := h.updMd

theorem State.SuppliesRead.updPort {d p f} (h : s.SuppliesRead t) : s.SuppliesRead (t.updPort d p f) := h.updNet

theorem State.SuppliesRead.updLane {d l f} (h : s.SuppliesRead t) : s.SuppliesRead (t.updLane d l f) := h.updMd

theorem State.SuppliesRead.updCage {d n f} (h : s.SuppliesRead t) : s.SuppliesRead (t.updCage d n f) := h.updMd

theorem State.SuppliesRead.cmis {d n w} (h : s.SuppliesRead t) : s.SuppliesRead (t.cmis d n w) :=
  .foldl (fun _ _ h => h.send) h

theorem State.SuppliesRead.refreshTopology (h : s.SuppliesRead t) : s.SuppliesRead t.refreshTopology := by
  unfold State.refreshTopology
  exact .wrBytes (.foldl (fun _ _ h => h.wr.wr) (.foldl (fun _ _ h => h.wr.wr) h))

theorem State.SuppliesRead.newGeneration (h : s.SuppliesRead t) : s.SuppliesRead t.newGeneration := by
  unfold State.newGeneration
  exact .twlFlood (State.SuppliesRead.refreshTopology (.updTwill (.wr h.wr)))

theorem State.SuppliesRead.loseBroken (h : s.SuppliesRead t) : s.SuppliesRead t.loseBroken := by
  unfold State.loseBroken
  exact .dropSlots (.updTwill (.foldl (fun _ _ h => h.wr) h))

theorem State.SuppliesRead.dropUnreachable (h : s.SuppliesRead t) : s.SuppliesRead t.dropUnreachable := by
  unfold State.dropUnreachable
  exact .loseBroken (.wr (.updTwill (.foldl (fun _ _ h => .raise h.wr) h)))

theorem State.SuppliesRead.linkLost {d q} (h : s.SuppliesRead t) : s.SuppliesRead (t.linkLost d q) := by
  have out : ∀ {u : State}, s.SuppliesRead u → s.SuppliesRead (u.linkOut d q 1) := fun {u} hu => by
    unfold State.linkOut
    exact (State.SuppliesRead.updTwill hu.wr).dropUnreachable.newGeneration
  unfold State.linkLost
  exact .ite h (.updTlink (.ite (out (.raise h.wr)) h.wr))

theorem State.SuppliesRead.portGoesDown {d first cause} (h : s.SuppliesRead t) : s.SuppliesRead (t.portGoesDown d first cause) := by
  unfold State.portGoesDown
  extract_lets _ u
  have hu : s.SuppliesRead u := .ite h.wr.wr h.wr.wr.wr
  exact .ite h (.ite (State.SuppliesRead.raise (.wr hu.wr)).linkLost (.updPort (.wr (.raise (.wr hu.wr)))))

theorem State.SuppliesRead.requestLane {d lane target} (h : s.SuppliesRead t) : s.SuppliesRead (t.requestLane d lane target) := by
  unfold State.requestLane
  split
  · exact h
  · exact h.updLane
  · unfold State.startLane
    exact .ite h (.wr (.updLane (.ite h.wr.wr h)))

theorem State.SuppliesRead.lanesForMode {d m} (h : s.SuppliesRead t) : s.SuppliesRead (t.lanesForMode d m) := by
  unfold State.lanesForMode
  exact .foldl (fun _ _ h => .ite h h.wr) (.foldl (fun _ _ h => .ite (.ite h h.wr.wr.wr.updLane) (.requestLane (.ite h.wr h))) h)

theorem State.SuppliesRead.cagesFollow {d m} (h : s.SuppliesRead t) : s.SuppliesRead (t.cagesFollow d m) :=
  .foldl (fun _ _ h => .ite h.cmis.updCage h) h

/-- The lanes of a quad that follow the mode (R105) are no matter of the supplies. -/
theorem State.SuppliesRead.lanesFollow {d m} (h : s.SuppliesRead t) : s.SuppliesRead (t.lanesFollow d m) := by
  unfold State.lanesFollow
  exact .cagesFollow (.lanesForMode (.foldl (fun _ _ h => h.portGoesDown) h))

end


/-! ### Sections (R45, R47, R105) -/

/-- What a section's state brings with it is shown elsewhere, but for PWR.SECTION.POWER. -/
theorem State.rd_showDraw_apart {o : ObjDef} (h : Obj.pwrSectionPower.apart o = true) (s : State) (d : PDie) (n : Nat) (m : Mode)
    (e : Die) (i : Nat) : (s.showDraw d n m).rd o e i = s.rd o e i := by
  unfold State.showDraw
  dsimp only
  split
  · split
    · exact State.rd_wr_apart h ..
    · exact State.rd_wr_apart h ..
  · exact State.rd_wr_apart h ..

theorem State.sectionPower_showDraw {s : State} {d : PDie} {n : Nat} (h : ¬ (s.section d n = 2 ∨ s.section d n = 3)) (m : Mode) :
    (s.showDraw d n m).rd Obj.pwrSectionPower d.die n = 0 := by
  unfold State.showDraw
  rw [if_neg h, State.rd_wr_same]

theorem State.power_showDraw (s : State) (d : PDie) (n : Nat) (m : Mode) (e : PDie) : (s.showDraw d n m).power e = s.power e := by
  unfold State.showDraw
  dsimp only
  split
  · split <;> rfl
  · rfl

/-- A section's state with the STATUS bits and the PLL that follow it (R45, R104); its power is estimated then. -/
def State.sectionShown (s : State) (d : PDie) (n st : Nat) : State :=
  let s := s.wr Obj.pwrSectionState d.die n (st : Nat)
  let s := match d with
    | .c => s
    | _ => (sectionBits n).foldl (fun (s : State) (b : ObjDef × Nat × Nat) => s.putBit b.1 d.die b.2.1 b.2.2 (st == 2)) s
  if d ≠ .c ∧ 6 ≤ n ∧ n ≤ 13 ∧ st ≠ 2 then s.clrBit Obj.quadStatus d.die (n - 6) 0 else s

theorem State.setSection_eq (s : State) (d : PDie) (n st : Nat) :
    s.setSection d n st = (s.sectionShown d n st).showDraw d n (s.sectionShown d n st).mode := by
  cases d <;> rfl

theorem central_of_mem_sectionBits {n : Nat} {b : ObjDef × Nat × Nat} (h : b ∈ sectionBits n) : b.1.central = false := by
  unfold sectionBits at h
  split at h
  · rw [List.mem_singleton.mp h]
    rfl
  · split at h <;> simp only [List.mem_cons, List.not_mem_nil, or_false] at h <;> rcases h with rfl | rfl <;> rfl

/-- The bits that follow a section's state stand with its blocks. -/
theorem State.sameHub_sectionShown (s : State) (d : PDie) (n st : Nat) :
    (s.wr Obj.pwrSectionState d.die n (st : Nat)).SameHub (s.sectionShown d n st) := by
  have bits : ∀ (l : List (ObjDef × Nat × Nat)), (∀ b ∈ l, b.1.central = false) → ∀ {r t : State}, r.SameHub t →
      r.SameHub (l.foldl (fun (s : State) (b : ObjDef × Nat × Nat) => s.putBit b.1 d.die b.2.1 b.2.2 (st == 2)) t) := by
    intro l
    induction l with
    | nil => exact fun _ _ _ h => h
    | cons b l ih =>
      exact fun hl _ _ h => ih (fun x hx => hl x (List.mem_cons_of_mem _ hx)) (h.wr (hl b List.mem_cons_self))
  unfold State.sectionShown
  extract_lets u v
  have hv : u.SameHub v := by
    cases d with
    | a => exact bits _ (fun _ => central_of_mem_sectionBits) (.refl u)
    | b => exact bits _ (fun _ => central_of_mem_sectionBits) (.refl u)
    | c => exact .refl u
  exact .ite hv.wr hv

theorem State.power_sectionShown (s : State) (d : PDie) (n st : Nat) (e : PDie) : (s.sectionShown d n st).power e = s.power e := by
  have bits : ∀ (l : List (ObjDef × Nat × Nat)) (t : State),
      (l.foldl (fun (s : State) (b : ObjDef × Nat × Nat) => s.putBit b.1 d.die b.2.1 b.2.2 (st == 2)) t).power e = t.power e := by
    refine fun l t => foldl_leaves (·.power e) (fun _ _ => ?_) t l
    rfl
  unfold State.sectionShown
  extract_lets u v
  have hv : v.power e = s.power e := by
    cases d with
    | a => exact bits ..
    | b => exact bits ..
    | c => rfl
  split
  · exact hv
  · exact hv

/-- Sections after one of them took a state (R45). -/
theorem State.section_setSection (s : State) (d : PDie) (n st k : Nat) :
    (s.setSection d n st).section d k = if n = k then st else s.section d k := by
  rw [State.setSection_eq, State.section, State.rdN, State.rd_showDraw_apart rfl, (s.sameHub_sectionShown d n st).rd _ rfl]
  by_cases h : n = k
  · rw [if_pos h, h, State.rd_wr_same, Int.toNat_natCast]
  · rw [if_neg h, State.rd_wr_inst h, State.section, State.rdN]

theorem State.power_setSection (s : State) (d : PDie) (n st : Nat) (e : PDie) : (s.setSection d n st).power e = s.power e := by
  rw [State.setSection_eq, State.power_showDraw, State.power_sectionShown]

/-- A section that is neither on nor in retention draws nothing (R57). -/
theorem State.sectionPower_setSection {s : State} {d : PDie} {n st : Nat} (h : ¬ (st = 2 ∨ st = 3)) :
    (s.setSection d n st).rd Obj.pwrSectionPower d.die n = 0 := by
  rw [State.setSection_eq]
  refine State.sectionPower_showDraw ?_ _
  rw [State.section, State.rdN, (s.sameHub_sectionShown d n st).rd _ rfl, State.rd_wr_same, Int.toNat_natCast]
  exact h

theorem State.gseq_setSection (s : State) (d : PDie) (n st : Nat) :
    (s.setSection d n st).rdN Obj.evtGseqNext .c 0 = s.rdN Obj.evtGseqNext .c 0 := by
  rw [State.setSection_eq, State.rdN, State.rd_showDraw_apart rfl, (s.sameHub_sectionShown d n st).rd _ rfl, ← State.rdN,
    State.rdN_wr_apart rfl]

/-- SECTION_WAKE of the first queued section (R47). -/
theorem execSectionWake_effect {s : State} {d : MDie} {n : Nat} {r : List Nat} (hq : (s.power d.pdie).wakeQueue = n :: r)
    (hreach : s.reachable d = true) (hidle : ∀ k < 30, s.section d.pdie k ≠ 1) :
    ∃ t, execSectionWake d s = .next t ∧ t.section d.pdie n = 1 ∧ (t.power d.pdie).wakeQueue = r
      ∧ t.rd Obj.pwrSectionPower d.pdie.die n = 0 ∧ ∀ k, k ≠ n → t.section d.pdie k = s.section d.pdie k := by
  have occasion : (s.reachable d && (List.range 30).all (fun k => s.section d.pdie k != 1)) = true := by
    simpa [hreach] using hidle
  refine ⟨(s.updPower d.pdie (fun p => { p with wakeQueue := r })).setSection d.pdie n 1, ?_, ?_, ?_, ?_, fun k hk => ?_⟩
  · rw [execSectionWake, hq]
    exact when_pos occasion ..
  · rw [State.section_setSection, if_pos rfl]
  · rw [State.power_setSection, State.power_updPower]
  · exact State.sectionPower_setSection (by decide)
  · rw [State.section_setSection, if_neg hk.symm, State.section, State.rdN, State.rd_updPower, State.section, State.rdN]

/-- SECTION_POWER_GOOD of a waking section (R47, R105). -/
theorem execSectionPowerGood_effect {s : State} {d : MDie} {n : Nat} (hn : n < 30) (hs : s.section d.pdie n = 1) :
    ∃ t, execSectionPowerGood d n s = .next t ∧ t.section d.pdie n = 2 := by
  have on : (s.setSection d.pdie n 2).section d.pdie n = 2 := by
    rw [State.section_setSection, if_pos rfl]
  unfold execSectionPowerGood
  rw [if_neg (Nat.not_le.mpr hn)]
  refine ⟨_, when_pos (by rw [hs]; rfl) .., ?_⟩
  dsimp only
  split
  · rw [State.section, State.rdN, (State.SuppliesRead.refl (s.setSection d.pdie n 2)).lanesFollow.rd _ rfl]
    exact on
  · exact on

/-- SECTION_WAKE_TIMEOUT of a waking section (R47). -/
theorem execSectionWakeTimeout_effect {s : State} {d : MDie} {n : Nat} (hn : n < 30) (hs : s.section d.pdie n = 1) :
    ∃ t, execSectionWakeTimeout d n s = .next t ∧ t.section d.pdie n = 4 ∧ s.reported t .c 0x1104 n (p16 [n]) := by
  unfold execSectionWakeTimeout
  rw [if_neg (Nat.not_le.mpr hn)]
  refine ⟨_, when_pos (by rw [hs]; rfl) .., ?_, State.reported_raiseC (State.gseq_setSection ..).ge ..⟩
  rw [State.section, State.rdN_raise rfl]
  exact (State.section_setSection ..).trans (if_pos rfl)

end Sys2Proof.Machine
end

section
namespace Sys2Proof.Machine

/-! ### A sample of the junction sensors (R48–R51) -/

/-- A sample of sensors that all work and read well, with its highest reading. -/
structure State.WellRead (s : State) (d : PDie) (readings : List (Int × Bool)) (tj : Int) : Prop where
  length : readings.length = sensorCount d
  working : ∀ i < sensorCount d, s.rd Obj.thermSensorTemp d.die i ≠ tempFailed
  good : ∀ r ∈ readings, sensorBad r = false
  below : ∀ r ∈ readings, r.1 ≤ tj
  top : ∃ r ∈ readings, r.1 = tj

/-- A reading that passes its self-check is none that a failed sensor shows. -/
theorem ne_tempFailed_of_good {r : Int × Bool} (h : sensorBad r = false) : r.1 ≠ tempFailed := by
  intro e
  simp [sensorBad, e, tempFailed, degC] at h

theorem foldl_max_eq {l : List Int} {v m : Int} (hle : ∀ x ∈ v :: l, x ≤ m) (hm : m ∈ v :: l) : l.foldl max v = m := by
  induction l generalizing v with
  | nil => exact (List.mem_singleton.mp hm).symm
  | cons x l ih =>
    refine ih (fun y hy => ?_) ?_
    · rcases List.mem_cons.mp hy with rfl | hy
      · exact max_le (hle _ (by simp)) (hle _ (by simp))
      · exact hle _ (by simp [hy])
    · rcases List.mem_cons.mp hm with rfl | hm
      · rw [max_eq_left (hle _ (by simp))]
        exact List.mem_cons_self
      · rcases List.mem_cons.mp hm with rfl | hm
        · rw [max_eq_right (hle _ (by simp))]
          exact List.mem_cons_self
        · exact List.mem_cons_of_mem _ hm

/-- The temperatures of a sample. -/
def temps (readings : List (Int × Bool)) : List Int := readings.map (·.1)

theorem getD_temps (readings : List (Int × Bool)) (i : Nat) : (temps readings).getD i 0 = (readings.getD i (0, false)).1 := by
  simp only [temps, List.getD_eq_getElem?_getD, List.getElem?_map]
  cases readings[i]? <;> rfl

section
variable {s : State} {d : PDie} {readings : List (Int × Bool)} {tj : Int}

theorem State.WellRead.shown (h : s.WellRead d readings tj) :
    (List.range (sensorCount d)).map (s.sensorShown d readings) = temps readings := by
  refine List.ext_getElem (by simp [temps, h.length]) fun i hi hj => ?_
  have hi : i < readings.length := by simpa [temps] using hj
  have hg := h.good _ (List.getElem_mem hi)
  simp [State.sensorShown, temps, List.getD_eq_getElem?_getD, List.getElem?_eq_getElem hi, hg, h.working i (h.length ▸ hi)]

theorem State.WellRead.ne_failed (h : s.WellRead d readings tj) : ∀ v ∈ temps readings, v ≠ tempFailed := by
  intro v hv
  obtain ⟨r, hr, rfl⟩ := List.mem_map.mp hv
  exact ne_tempFailed_of_good (h.good r hr)

theorem State.WellRead.all_working (h : s.WellRead d readings tj) :
    (temps readings).filter (fun v => decide (v ≠ tempFailed)) = temps readings :=
  List.filter_eq_self.mpr fun v hv => decide_eq_true (h.ne_failed v hv)

theorem State.WellRead.none_failed (h : s.WellRead d readings tj) : upto (sensorCount d) (fun i =>
    decide (s.rd Obj.thermSensorTemp d.die i ≠ tempFailed) && decide ((temps readings).getD i 0 = tempFailed)) = [] := by
  refine List.filter_eq_nil_iff.mpr fun i hi => ?_
  have hi : i < (temps readings).length := by simpa [temps, h.length] using hi
  have hne : (temps readings).getD i 0 ≠ tempFailed := by
    rw [List.getD_eq_getElem _ _ hi]
    exact h.ne_failed _ (List.getElem_mem hi)
  simp only [hne, decide_false, Bool.and_false, Bool.false_eq_true, not_false_eq_true]

theorem State.WellRead.temps_eq_cons (h : s.WellRead d readings tj) : ∃ v vs, temps readings = v :: vs ∧ vs.foldl max v = tj := by
  obtain ⟨r, hr, htop⟩ := h.top
  have hmem : tj ∈ temps readings := List.mem_map.mpr ⟨r, hr, htop⟩
  have hle : ∀ x ∈ temps readings, x ≤ tj := fun x hx => by
    obtain ⟨r, hr, rfl⟩ := List.mem_map.mp hx
    exact h.below r hr
  cases e : temps readings with
  | nil => simp [e] at hmem
  | cons v vs => exact ⟨v, vs, rfl, foldl_max_eq (e ▸ hle) (e ▸ hmem)⟩

end

/-- Each temperature is shown, the highest, and the highest ever (R48, R49). -/
def State.showTemps (s : State) (d : PDie) (l : List Int) (tj : Int) : State :=
  let s := (List.range (sensorCount d)).foldl (fun s i => s.wr Obj.thermSensorTemp d.die i (l.getD i 0)) s
  let s := s.wr Obj.thermTj d.die 0 tj
  s.wr Obj.thermTjPeak d.die 0 (max tj (s.rd Obj.thermTjPeak d.die 0))

/-- The lowest number of a sensor with the highest temperature. -/
def hottest (d : PDie) (l : List Int) (tj : Int) : Nat :=
  ((List.range (sensorCount d)).find? (fun i => decide (l.getD i 0 = tj))).getD 0

/-- The warning at 100 °C and its end below 95 °C (R49). -/
def State.warnHot (s : State) (d : PDie) (tj : Int) (hot : Nat) : State :=
  if degC 100 ≤ tj ∧ ¬ s.bit Obj.thermStatus d.die 0 0 then
    (((s.setBit Obj.thermStatus d.die 0 0).setBit Obj.thermSticky d.die 0 0).bump Obj.thermCount d.die 0).raise d 0x1110 hot
      (p16 [hot, tj])
  else if tj < degC 95 then s.clrBit Obj.thermStatus d.die 0 0
  else s

/-- The samples in a row at 115 °C or more, with this one (R50). -/
def State.critNext (s : State) (d : PDie) (tj : Int) : Nat := if degC 115 ≤ tj then (s.power d).critRun + 1 else 0

/-- The samples in a row are counted, the second is reported (R50). -/
def State.countCrit (s : State) (d : PDie) (tj : Int) (hot : Nat) : State :=
  let u := s.updPower d (fun p => { p with critRun := s.critNext d tj })
  if s.critNext d tj = 2 then u.raise d 0x1111 hot (p16 [hot, tj]) else u

/-- The warning below the lower limit and its end (R51). -/
def State.warnCold (s : State) (d : PDie) (tj : Int) : State :=
  if tj < s.lowerLimit then
    if s.bit Obj.thermStatus d.die 0 1 then s
    else ((s.setBit Obj.thermStatus d.die 0 1).setBit Obj.thermSticky d.die 0 1).raise d 0x1113 0 (p16 [tj])
  else s.clrBit Obj.thermStatus d.die 0 1

/-- A die is shut down (R50). -/
def State.shutHot (s : State) (d : PDie) : State :=
  match d with
  | .a => (s.drainArbiter .a).resetMedia .a 3 .shutdown
  | .b => (s.drainArbiter .b).resetMedia .b 3 .shutdown
  | .c => s.dieCFails 3 5 .shutdown

theorem sensorMin_le (d : PDie) : sensorMin d ≤ sensorCount d := by cases d <;> decide

/-- What a sample brings whose sensors all work and read well. -/
theorem State.WellRead.thermalSample {s : State} {d : PDie} {readings : List (Int × Bool)} {tj : Int} (h : s.WellRead d readings tj)
    {w u : State} (hw : w = (s.showTemps d (temps readings) tj).warnHot d tj (hottest d (temps readings) tj))
    (hu : u = (w.countCrit d tj (hottest d (temps readings) tj)).warnCold d tj) :
    s.thermalSample d readings = if w.critNext d tj = 2 then u.shutHot d else u := by
  obtain ⟨v, vs, hcons, hmax⟩ := h.temps_eq_cons
  have enough : ¬ (v :: vs).length < sensorMin d := by
    have : (v :: vs).length = sensorCount d := by rw [← hcons, temps, List.length_map, h.length]
    have := sensorMin_le d
    omega
  unfold State.thermalSample
  extract_lets n shown failed working s1
  have hshown : shown = temps readings := h.shown
  have hworking : working = v :: vs := by
    dsimp only [working]
    rw [hshown, h.all_working, hcons]
  have hfailed : failed = [] := by
    dsimp only [failed]
    rw [hshown]
    exact h.none_failed
  clear_value working failed shown
  subst hfailed hshown hmax hw hu
  split
  · cases hworking
  · cases hworking
    extract_lets tj hot s2 s3 warned s4 crit s5 s6 s7 s8 s9
    have h9 : s9 = s8 := if_neg enough
    clear_value s9
    subst h9
    cases d <;> rfl

/-- An object written at each of the first instances. -/
theorem State.rd_foldl_wr (s : State) (o : ObjDef) (d : Die) (f : Nat → Int) (n i : Nat) :
    ((List.range n).foldl (fun s i => s.wr o d i (f i)) s).rd o d i = if i < n then f i else s.rd o d i := by
  induction n with
  | zero => rfl
  | succ n ih =>
    rw [List.range_succ, List.foldl_append, List.foldl_cons, List.foldl_nil]
    by_cases h : n = i
    · rw [← h, State.rd_wr_same, if_pos (Nat.lt_succ_self n)]
    · rw [State.rd_wr_inst h, ih]
      exact if_congr (by omega) rfl rfl

section
variable (s : State) (d : PDie) (l : List Int) (tj : Int)

/-- Only the temperatures' own objects are written. -/
theorem State.rd_showTemps {o : ObjDef} (hs : Obj.thermSensorTemp.apart o = true) (ht : Obj.thermTj.apart o = true)
    (hp : Obj.thermTjPeak.apart o = true) (e : Die) (i : Nat) : (s.showTemps d l tj).rd o e i = s.rd o e i := by
  unfold State.showTemps
  dsimp only
  rw [State.rd_wr_apart hp, State.rd_wr_apart ht]
  exact foldl_leaves (·.rd o e i) (fun _ _ => State.rd_wr_apart hs ..) ..

theorem State.tj_showTemps : (s.showTemps d l tj).rd Obj.thermTj d.die 0 = tj := by
  unfold State.showTemps
  dsimp only
  rw [State.rd_wr_apart rfl, State.rd_wr_same]

theorem State.peak_showTemps : (s.showTemps d l tj).rd Obj.thermTjPeak d.die 0 = max tj (s.rd Obj.thermTjPeak d.die 0) := by
  unfold State.showTemps
  dsimp only
  rw [State.rd_wr_same, State.rd_wr_apart rfl,
    foldl_leaves (·.rd Obj.thermTjPeak d.die 0) (fun _ _ => State.rd_wr_apart rfl ..)]

theorem State.sensor_showTemps {i : Nat} (h : i < sensorCount d) :
    (s.showTemps d l tj).rd Obj.thermSensorTemp d.die i = l.getD i 0 := by
  unfold State.showTemps
  dsimp only
  rw [State.rd_wr_apart rfl, State.rd_wr_apart rfl, State.rd_foldl_wr, if_pos h]

/-- What a write of objects leaves. -/
def State.beyondObjs (s : State) := (s.ramLog, s.dieA, s.dieB, s.powerA, s.powerB, s.powerC)

theorem State.beyondObjs_showTemps : (s.showTemps d l tj).beyondObjs = s.beyondObjs := by
  unfold State.showTemps
  exact foldl_leaves State.beyondObjs (f := fun s i => s.wr Obj.thermSensorTemp d.die i (l.getD i 0)) (fun _ _ => rfl) s _

end

theorem degC_lt {a b : Int} (h : a < b) : degC a < degC b := by
  simp only [degC]
  omega

theorem State.lowerLimit_le (s : State) : s.lowerLimit ≤ degC 0 := by
  unfold State.lowerLimit
  split
  · exact (degC_lt (by decide)).le
  · exact le_rfl

theorem State.lowerLimit_of_rd {s t : State} (h : t.rd Obj.idGrade .p 0 = s.rd Obj.idGrade .p 0) : t.lowerLimit = s.lowerLimit := by
  rw [State.lowerLimit, State.lowerLimit, h]

/-- A sample between the limits ends the row of critical ones and the warning of cold (R50, R51). -/
def State.settle (s : State) (d : PDie) : State :=
  (s.updPower d (fun p => { p with critRun := 0 })).clrBit Obj.thermStatus d.die 0 1

theorem State.rd_settle {o : ObjDef} (h : Obj.thermStatus.apart o = true) (s : State) (d : PDie) (e : Die) (i : Nat) :
    (s.settle d).rd o e i = s.rd o e i := (State.rd_clrBit_apart h ..).trans (State.rd_updPower ..)

theorem State.bit_settle (s : State) (d : PDie) (n : Nat) :
    (s.settle d).bit Obj.thermStatus d.die 0 n = if 1 = n then false else s.bit Obj.thermStatus d.die 0 n := by
  rw [State.settle, State.clrBit, State.bit_putBit, State.bit_of_rd (State.rd_updPower ..)]

theorem State.records_settle (s : State) (d : PDie) : (s.settle d).records = s.records := by cases d <;> rfl

section
variable {s : State} {d : PDie} {readings : List (Int × Bool)} {tj : Int}

/-- Below 115 °C and not below the lower limit a sample shows the temperatures and warns of heat (R49). -/
theorem State.WellRead.thermalSample_eq (h : s.WellRead d readings tj) (hhigh : tj < degC 115) {w : State}
    (hw : w = (s.showTemps d (temps readings) tj).warnHot d tj (hottest d (temps readings) tj)) (hcold : w.lowerLimit ≤ tj) :
    s.thermalSample d readings = w.settle d := by
  have none : w.critNext d tj = 0 := if_neg (not_le.mpr hhigh)
  have limit : (w.updPower d (fun p => { p with critRun := 0 })).lowerLimit ≤ tj := by
    rwa [State.lowerLimit_of_rd (State.rd_updPower ..)]
  rw [h.thermalSample hw rfl, none, if_neg (by decide), State.countCrit, none, if_neg (by decide), State.warnCold,
    if_neg (not_lt.mpr limit), State.settle]

/-- The number of the hottest sensor, the lowest where several tie. -/
theorem hottest_eq {hot : Nat} (hn : hot < sensorCount d) (hhot : (readings.getD hot (0, false)).1 = tj)
    (hfirst : ∀ j < hot, (readings.getD j (0, false)).1 ≠ tj) : hottest d (temps readings) tj = hot := by
  have first : (List.range (sensorCount d)).find? (fun i => decide ((temps readings).getD i 0 = tj)) = some hot := by
    refine List.find?_range_eq_some.mpr ⟨?_, List.mem_range.mpr hn, fun j hj => ?_⟩
    · simp only [getD_temps, hhot, decide_true]
    · simp only [getD_temps, hfirst j hj, decide_false, Bool.not_false]
  rw [hottest, first, Option.getD_some]

/-- A sample that is neither warm nor cold (R48, R49, R51). -/
theorem State.WellRead.cool_effect (h : s.WellRead d readings tj) (hhot : tj < degC 95) (hcold : s.lowerLimit ≤ tj) {t : State}
    (ht : t = s.thermalSample d readings) :
    t.rd Obj.thermTj d.die 0 = tj ∧ t.rd Obj.thermTjPeak d.die 0 = max tj (s.rd Obj.thermTjPeak d.die 0)
      ∧ (∀ i < sensorCount d, t.rd Obj.thermSensorTemp d.die i = (readings.getD i (0, false)).1)
      ∧ t.bit Obj.thermStatus d.die 0 0 = false ∧ t.bit Obj.thermStatus d.die 0 1 = false
      ∧ t.ramLog = s.ramLog ∧ t.dieA = s.dieA ∧ t.dieB = s.dieB := by
  have warm : (s.showTemps d (temps readings) tj).warnHot d tj (hottest d (temps readings) tj)
      = (s.showTemps d (temps readings) tj).clrBit Obj.thermStatus d.die 0 0 := by
    unfold State.warnHot
    rw [if_neg fun k => absurd (hhot.trans (degC_lt (by decide))) (not_lt.mpr k.1), if_pos hhot]
  have limit : ((s.showTemps d (temps readings) tj).clrBit Obj.thermStatus d.die 0 0).lowerLimit = s.lowerLimit :=
    State.lowerLimit_of_rd ((State.rd_clrBit_apart rfl ..).trans (State.rd_showTemps _ _ _ _ rfl rfl rfl ..))
  have kept := State.beyondObjs_showTemps s d (temps readings) tj
  simp only [State.beyondObjs, Prod.mk.injEq] at kept
  obtain ⟨hlog, ha, hb, -⟩ := kept
  rw [h.thermalSample_eq (hhot.trans (degC_lt (by decide))) warm.symm (limit.trans_le hcold)] at ht
  subst ht
  refine ⟨?_, ?_, fun i hi => ?_, ?_, ?_, ?_, ?_, ?_⟩
  · rw [State.rd_settle rfl, State.rd_clrBit_apart rfl, State.tj_showTemps]
  · rw [State.rd_settle rfl, State.rd_clrBit_apart rfl, State.peak_showTemps]
  · rw [State.rd_settle rfl, State.rd_clrBit_apart rfl, State.sensor_showTemps _ _ _ _ hi, getD_temps]
  · rw [State.bit_settle, if_neg (by decide), State.bit_clrBit_same]
  · rw [State.bit_settle, if_pos rfl]
  · rw [State.settle, State.ramLog_clrBit, State.ramLog_updPower, State.ramLog_clrBit, hlog]
  · rw [State.settle, State.dieA_clrBit, State.dieA_updPower, State.dieA_clrBit, ha]
  · rw [State.settle, State.dieB_clrBit, State.dieB_updPower, State.dieB_clrBit, hb]

/-- The warning of a die: STATUS and STICKY bit 0, and THERM.COUNT (R49). -/
def State.warned (s : State) (d : PDie) : State :=
  ((s.setBit Obj.thermStatus d.die 0 0).setBit Obj.thermSticky d.die 0 0).bump Obj.thermCount d.die 0

theorem State.rd_warned {o : ObjDef} (hs : Obj.thermStatus.apart o = true) (hy : Obj.thermSticky.apart o = true)
    (hc : Obj.thermCount.apart o = true) (s : State) (d : PDie) (e : Die) (i : Nat) : (s.warned d).rd o e i = s.rd o e i := by
  rw [State.warned, State.rd_bump_apart hc, State.rd_setBit_apart hy, State.rd_setBit_apart hs]

/-- A sample from 100 to below 115 °C of a die that was not warned (R49). -/
theorem State.WellRead.warm_effect (h : s.WellRead d readings tj) (hlow : degC 100 ≤ tj) (hhigh : tj < degC 115)
    (hnew : s.bit Obj.thermStatus d.die 0 0 = false) (hrep : s.canReport d = true) {hot : Nat}
    (hhot : hottest d (temps readings) tj = hot) {t : State} (ht : t = s.thermalSample d readings) :
    t.rd Obj.thermTj d.die 0 = tj ∧ t.bit Obj.thermStatus d.die 0 0 = true ∧ t.bit Obj.thermSticky d.die 0 0 = true
      ∧ t.rdN Obj.thermCount d.die 0 = min (s.rdN Obj.thermCount d.die 0 + 1) Obj.thermCount.ty.maxVal
      ∧ s.reported t d 0x1110 hot (p16 [hot, tj]) := by
  set u := s.showTemps d (temps readings) tj with hu
  have other : ∀ {o : ObjDef}, Obj.thermSensorTemp.apart o = true → Obj.thermTj.apart o = true → Obj.thermTjPeak.apart o = true →
      ∀ e i, u.rd o e i = s.rd o e i := fun h1 h2 h3 => State.rd_showTemps _ _ _ _ h1 h2 h3
  have old : u.bit Obj.thermStatus d.die 0 0 = false := (State.bit_of_rd (other rfl rfl rfl ..) 0).trans hnew
  have warm : u.warnHot d tj hot = (u.warned d).raise d 0x1110 hot (p16 [hot, tj]) := by
    unfold State.warnHot
    rw [if_pos ⟨hlow, by rw [old]; decide⟩, State.warned]
  have limit : ((u.warned d).raise d 0x1110 hot (p16 [hot, tj])).lowerLimit ≤ tj :=
    (State.lowerLimit_le _).trans ((degC_lt (by decide)).le.trans hlow)
  have kept := State.beyondObjs_showTemps s d (temps readings) tj
  simp only [← hu, State.beyondObjs, Prod.mk.injEq] at kept
  obtain ⟨-, ha, hb, -⟩ := kept
  have inlets : (u.warned d).inlets = s.inlets := by
    simp only [State.inlets, State.rdN, State.rd_warned (o := Obj.evtGseqNext) rfl rfl rfl, other (o := Obj.evtGseqNext) rfl rfl rfl]
    simp only [State.warned, State.dieA_bump, State.dieA_setBit, State.dieB_bump, State.dieB_setBit, ha, hb]
  rw [h.thermalSample_eq hhigh (by rw [← hu, hhot, warm]) limit] at ht
  subst ht
  refine ⟨?_, ?_, ?_, ?_, State.reported_of_records (State.records_settle ..) (State.reported_raise hrep inlets ..)⟩
  · rw [State.rd_settle rfl, State.rd_raise rfl, State.rd_warned rfl rfl rfl, hu, State.tj_showTemps]
  · rw [State.bit_settle, if_neg (by decide), State.bit_raise rfl, State.warned, State.bit_of_rd (State.rd_bump_apart rfl ..),
      State.bit_of_rd (State.rd_setBit_apart rfl ..), State.bit_setBit_same]
  · rw [State.bit_of_rd (State.rd_settle rfl ..), State.bit_raise rfl, State.warned, State.bit_of_rd (State.rd_bump_apart rfl ..),
      State.bit_setBit_same]
  · rw [State.rdN, State.rd_settle rfl, ← State.rdN, State.rdN_raise rfl, State.warned, State.rdN_bump_same,
      State.rdN_setBit_apart rfl, State.rdN_setBit_apart rfl, State.rdN, other rfl rfl rfl, State.rdN]

end

/-! ### Shutdown (R50) -/

/-- A media die that is reset shows the cause (R53). -/
theorem State.rstCause_resetMedia (s : State) (d : MDie) (cause : Nat) (run : RunState) :
    (s.resetMedia d cause run).rd Obj.rstCause d.die 0 = (cause : Nat) := by
  unfold State.resetMedia
  extract_lets keep ran src cleared paired seq errs s2 s3 start s4 s5 s6
  have h6 : s6.rd Obj.rstCause d.die 0 = (cause : Nat) := State.rd_wr_same ..
  split
  · rw [State.rd_raise rfl, State.rd_wr_apart rfl, h6]
  · split
    · rw [State.rd_wr_apart rfl, h6]
    · exact h6

theorem State.run_resetMedia (s : State) (d : MDie) (cause : Nat) (run : RunState) :
    ((s.resetMedia d cause run).power d.pdie).run = run := by
  have h := s.control_resetMedia d cause run
  simp only [State.control, Prod.mk.injEq] at h
  obtain ⟨-, -, -, ha, hb⟩ := h
  cases d with
  | a => exact congrArg PowerSt.run ha
  | b => exact congrArg PowerSt.run hb

/-- A boot failure (R476) leaves the run state of a Die C that does not run. -/
theorem State.run_bootFail {s : State} (step cause : Nat) {run : RunState} (h : run ≠ .running) (hrun : s.powerC.run = run) :
    (s.bootFail step cause).powerC.run = run := by
  unfold State.bootFail
  extract_lets u v n under again w
  have hv : v.powerC.run = run := hrun
  have kept : ∀ r q, (if v.powerC.run = .running then { v.powerC with run := r, wakeQueue := q } else v.powerC : PowerSt).run = run :=
    fun r q => by
      rw [if_neg (fun e => h (hv.symm.trans e))]
      exact hv
  show w.powerC.run = run
  dsimp only [w]
  split
  · exact kept .held []
  · exact kept .resetAlone v.powerC.wakeQueue

/-- A reset of Die C, within BOOT or not, shows its cause (R53, R476). -/
theorem State.dieCFails_effect (s : State) (cause fail : Nat) {run : RunState} (h : run ≠ .running) :
    ((s.dieCFails cause fail run).power .c).run = run ∧ (s.dieCFails cause fail run).rd Obj.rstCause .c 0 = (cause : Nat) := by
  have hrun : ((s.resetDieC cause run).power .c).run = run := rfl
  have hcause : (s.resetDieC cause run).rd Obj.rstCause .c 0 = (cause : Nat) := State.rd_wr_same ..
  unfold State.dieCFails
  dsimp only
  split
  · exact ⟨State.run_bootFail 8 fail h hrun, (((State.SameSupply.refl _).bootFail).rd Obj.rstCause rfl ..).trans hcause⟩
  · exact ⟨hrun, hcause⟩

/-- A die that its temperature shuts down (R50). -/
theorem State.shutHot_effect (s : State) (d : PDie) :
    ((s.shutHot d).power d).run = .shutdown ∧ (s.shutHot d).rd Obj.rstCause d.die 0 = 3 := by
  cases d with
  | a => exact ⟨State.run_resetMedia .., State.rstCause_resetMedia ..⟩
  | b => exact ⟨State.run_resetMedia .., State.rstCause_resetMedia ..⟩
  | c => exact State.dieCFails_effect _ _ _ (by decide)

theorem State.power_raise (s : State) (e : PDie) (c i p : Nat) (d : PDie) : (s.raise e c i p).power d = s.power d := by
  cases d <;> simp [State.power]

/-- The second sample in a row at 115 °C or more shuts the die down (R50). -/
theorem State.WellRead.critical_effect {s : State} {d : PDie} {readings : List (Int × Bool)} {tj : Int}
    (h : s.WellRead d readings tj) (hhigh : degC 115 ≤ tj) (hrow : (s.power d).critRun = 1) :
    ((s.thermalSample d readings).power d).run = .shutdown ∧ (s.thermalSample d readings).rd Obj.rstCause d.die 0 = 3 := by
  have power : ∀ hot, (((s.showTemps d (temps readings) tj).warnHot d tj hot).power d) = s.power d := fun hot => by
    have kept := State.beyondObjs_showTemps s d (temps readings) tj
    simp only [State.beyondObjs, Prod.mk.injEq] at kept
    obtain ⟨-, -, -, ha, hb, hc⟩ := kept
    have shown : (s.showTemps d (temps readings) tj).power d = s.power d := by
      cases d
      · exact ha
      · exact hb
      · exact hc
    unfold State.warnHot
    split
    · exact (State.power_raise ..).trans shown
    · split
      · exact shown
      · exact shown
  have second : ((s.showTemps d (temps readings) tj).warnHot d tj (hottest d (temps readings) tj)).critNext d tj = 2 := by
    rw [State.critNext, if_pos hhigh, power, hrow]
  rw [h.thermalSample rfl rfl, if_pos second]
  exact State.shutHot_effect ..

/-- A sample of failed sensors alone (R51). -/
theorem State.thermalSample_failed {s : State} {d : PDie} {readings : List (Int × Bool)} (hlen : readings.length = sensorCount d)
    (hbad : ∀ r ∈ readings, sensorBad r = true) : (s.thermalSample d readings).rd Obj.thermTj d.die 0 = tempFailed
      ∧ (s.thermalSample d readings).bit Obj.thermStatus d.die 0 2 = true := by
  have all : ∀ v ∈ (List.range (sensorCount d)).map (s.sensorShown d readings), v = tempFailed := by
    intro v hv
    obtain ⟨i, hi, rfl⟩ := List.mem_map.mp hv
    have hi : i < readings.length := hlen ▸ List.mem_range.mp hi
    have : sensorBad (readings.getD i (0, false)) = true := by
      rw [List.getD_eq_getElem _ _ hi]
      exact hbad _ (List.getElem_mem hi)
    exact if_pos (.inr this)
  unfold State.thermalSample
  extract_lets n shown failed working s1 s2 s3 s4
  have none : working = [] := List.filter_eq_nil_iff.mpr fun v hv => by simp [all v hv]
  have told : ∀ {o : ObjDef}, o.quiet = true → Obj.thermSticky.apart o = true → ∀ e i, s4.rd o e i = s3.rd o e i :=
    fun hq ha e i => foldl_leaves (·.rd _ e i) (fun t j => (State.rd_setBit_apart ha ..).trans (State.rd_raise hq ..)) s3 failed
  have tj : s4.rd Obj.thermTj d.die 0 = tempFailed := by
    rw [told rfl rfl, State.rd_updPower, State.rd_wr_same]
  clear_value working s4
  subst none
  dsimp only
  split
  · next set => exact ⟨tj, set⟩
  · refine ⟨?_, ?_⟩
    · rw [State.rd_raise rfl, State.rd_setBit_apart rfl, tj]
    · rw [State.bit_raise rfl, State.bit_setBit_same]

/-- Settles O3: sections by what a change of state writes, sensors by the stages of a sample. -/
theorem sectionsWakeInTurnAndSensorsAreFollowed : Obligations.SectionsWakeInTurnAndSensorsAreFollowed := by
  unfold Obligations.SectionsWakeInTurnAndSensorsAreFollowed
  extract_lets good
  have well : ∀ {s d readings tj}, good s d readings tj → s.up d = true ∧ s.WellRead d readings tj := by
    rintro s d readings tj ⟨hup, hlen, hwork, hread, htop⟩
    exact ⟨hup, hlen, hwork, fun r hr => (hread r hr).1, fun r hr => (hread r hr).2, htop⟩
  have runs : ∀ {s d readings}, s.up d = true → readings.length = sensorCount d →
      exec (.thermalSample d readings) s = .next (s.thermalSample d readings) := fun {s d readings} hup hlen =>
    (if_neg (not_not.mpr hlen)).trans (if_pos hup)
  refine ⟨fun s d n r hq hreach hidle => ?_,
    fun s d n hn hs => ⟨execSectionPowerGood_effect hn hs, execSectionWakeTimeout_effect hn hs⟩,
    fun s d n hn => ⟨if_pos hn, if_pos hn⟩, fun s d readings tj hg hhot hcold => ?_,
    fun s d readings tj hot hg hlow hhigh hnew hn htop hfirst hrep => ?_, fun s d readings tj hg hhigh hrow => ?_,
    fun s d readings hup hlen hbad => ⟨_, runs hup hlen, State.thermalSample_failed hlen hbad⟩, fun s d readings hlen => if_pos hlen⟩
  · have h := execSectionWake_effect hq hreach hidle
    cases d <;> exact h
  · obtain ⟨hup, h⟩ := well hg
    exact ⟨_, runs hup h.length, h.cool_effect hhot hcold rfl⟩
  · obtain ⟨hup, h⟩ := well hg
    exact ⟨_, runs hup h.length, h.warm_effect hlow hhigh hnew hrep (hottest_eq hn htop hfirst) rfl⟩
  · obtain ⟨hup, h⟩ := well hg
    exact ⟨_, runs hup h.length, h.critical_effect hhigh hrow⟩

end Sys2Proof.Machine
end

section
namespace Sys2Proof.Machine

/-- Settles O59: an idle step and every command keep the capacities (`Keeps`), and at reset the buffers are empty. -/
theorem everyStepKeepsLogsAndSessionsWithinTheirCapacity : Obligations.EveryStepKeepsLogsAndSessionsWithinTheirCapacity := by
  refine ⟨by decide, fun s t fits e => ?_⟩
  obtain ⟨_, h⟩ := step_keeps e
  exact h.logsFit fits

end Sys2Proof.Machine
end

section
namespace Sys2Proof.Machine

set_option Elab.async false

/-! ### What the blocks' work leaves -/

/-- Rows that no block of the part writes while it works: MODE, TIME and PTP but for their sticky bits, the owner of the pair and
each die's place in it. -/
def firmRow (index sub : Nat) : Bool :=
  (index == 0x1001 && sub != 7) || (index == 0x1200 && sub != 3) || index == 0x1201 || index == 0x1202
    || (index == 0x3200 && sub == 4) || (index == 0x3201 && sub == 1)

def ObjDef.firm (o : ObjDef) : Bool := firmRow o.index o.sub

/-- What no invariant of a mode, of the time base or (with `cues`) of a cue sees of the work of the part's blocks: the package's
time and transition, the firm rows, and the entries of the cue tables. -/
structure Works (cues : Bool) (r t : State) : Prop where
  time : t.time = r.time
  trans : t.trans = r.trans
  rd : ∀ o : ObjDef, o.firm = true → ∀ d i, t.rd o d i = r.rd o d i
  entry : cues = true → ∀ d i, t.rdBytes Obj.timeCueEntry d i = r.rdBytes Obj.timeCueEntry d i

section
variable {cues : Bool} {r s t : State}

theorem Works.refl (s : State) : Works cues s s := ⟨rfl, rfl, fun _ _ _ _ => rfl, fun _ _ _ => rfl⟩

/-- A change of what `Works` does not speak of. -/
theorem Works.same (h : Works cues r s) (e : (t.objs, t.blobs, t.time, t.trans) = (s.objs, s.blobs, s.time, s.trans) := by rfl) :
    Works cues r t := by
  simp only [Prod.mk.injEq] at e
  obtain ⟨ho, hb, ht, hr⟩ := e
  exact ⟨ht.trans h.time, hr.trans h.trans, fun o ho' d i => by rw [← h.rd o ho' d i, State.rd, State.rd, ho],
    fun hc d i => by rw [← h.entry hc d i, State.rdBytes, State.rdBytes, hb]⟩

theorem Works.ite {p : Prop} {i : Decidable p} (h : Works cues r s) (k : Works cues r t) : Works cues r (if p then s else t) := by
  split <;> assumption

theorem Works.foldl_mem {α : Type _} {f : State → α → State} {l : List α} (hf : ∀ t, ∀ x ∈ l, Works cues r t → Works cues r (f t x))
    (h : Works cues r s) : Works cues r (l.foldl f s) := by
  induction l generalizing s with
  | nil => exact h
  | cons x l ih => exact ih (fun t y hy => hf t y (List.mem_cons_of_mem _ hy)) (hf s x List.mem_cons_self h)

theorem Works.foldl {α : Type _} {f : State → α → State} {l : List α} (hf : ∀ t x, Works cues r t → Works cues r (f t x))
    (h : Works cues r s) : Works cues r (l.foldl f s) := .foldl_mem (fun t x _ => hf t x) h

theorem Works.foldl_fst {α β : Type _} {f : State × β → α → State × β} {l : List α} {p : State × β}
    (hf : ∀ q x, Works cues r q.1 → Works cues r (f q x).1) (h : Works cues r p.1) : Works cues r (l.foldl f p).1 := by
  induction l generalizing p with
  | nil => exact h
  | cons x l ih => exact ih (hf p x h)

theorem Works.fst {β : Type _} {p : State × β} {y : β} (e : p = (t, y)) (h : Works cues r p.1) : Works cues r t := by
  subst e; exact h

theorem Works.snd {β : Type _} {p : β × State} {y : β} (e : p = (y, t)) (h : Works cues r p.2) : Works cues r t := by
  subst e; exact h

theorem Works.putNum {a v} (h : Works cues r s) (ha : firmRow a.index a.sub = false) :
    Works cues r { s with objs := mapPut s.objs a v } where
  time := h.time
  trans := h.trans
  rd o ho d i := by
    have other : ¬ a = o.addr d i := fun e => by
      subst e
      exact Bool.noConfusion (ho.symm.trans ha)
    rw [← h.rd o ho d i, State.rd, State.rd, mapGet_mapPut, if_neg other]
  entry := h.entry

theorem Works.wr {o d i v} (h : Works cues r s) (ho : o.firm = false := by rfl) : Works cues r (s.wr o d i v) :=
  h.putNum ho

theorem Works.putBytes {a v} (h : Works cues r s) (ha : (a.index == 0x1210 && cues) = false := by rfl) :
    Works cues r { s with blobs := mapPut s.blobs a v } where
  time := h.time
  trans := h.trans
  rd := h.rd
  entry hc d i := by
    have other : ¬ a = Obj.timeCueEntry.addr d i := fun e => by
      subst e hc
      exact Bool.noConfusion ha
    rw [← h.entry hc d i, State.rdBytes, State.rdBytes, mapGet_mapPut, if_neg other]

theorem Works.wrBytes {o d i v} (h : Works cues r s) (ho : (o.index == 0x1210 && cues) = false := by rfl) :
    Works cues r (s.wrBytes o d i v) :=
  h.putBytes ho

/-- Objects leave the dictionary, and no firm row is among them. -/
theorem Works.dropObjects {p : ObjAddr → Bool} (h : Works false r s) (hp : ∀ a, firmRow a.index a.sub = true → p a = true) :
    Works false r { s with objs := s.objs.filter (fun e => p e.1), blobs := s.blobs.filter (fun e => p e.1) } where
  time := h.time
  trans := h.trans
  rd o ho d i := by rw [← h.rd o ho d i, State.rd, State.rd, mapGet_filter _ p, if_pos (hp (o.addr d i) ho)]
  entry hc := absurd hc (by decide)

theorem Works.updMd {d f} (h : Works cues r s) : Works cues r (s.updMd d f) :=
  h.same (by simp)

theorem Works.updPower {d f} (h : Works cues r s) : Works cues r (s.updPower d f) :=
  h.same (by simp)

/-! ### Events and bits -/

theorem Works.noteError {d code payload} (h : Works cues r s) : Works cues r (s.noteError d code payload) :=
  .ite h.putBytes.updMd h

theorem Works.takeDseq {d} (h : Works cues r s) : Works cues r (s.takeDseq d) :=
  h.wr

theorem Works.emitMarker {d} (h : Works cues r s) : Works cues r (s.emitMarker d) := by
  unfold State.emitMarker
  exact .ite h.takeDseq.updMd h

theorem Works.raiseMedia {d code inst payload} (h : Works cues r s) : Works cues r (s.raiseMedia d code inst payload) := by
  unfold State.raiseMedia
  exact .ite h.emitMarker.takeDseq.noteError.updMd h.emitMarker.takeDseq.noteError.wr.updMd

theorem Works.logRecord {x} (h : Works cues r s) : Works cues r (s.logRecord x) := by
  unfold State.logRecord
  exact .wr (.wr (.wr (.wr (.ite h.same h.same))))

theorem Works.inOrder {old d} (h : Works cues r s) : Works cues r (s.inOrder old d) := by
  unfold State.inOrder
  exact h.updMd

theorem Works.setAnswer {v} (h : Works cues r s) : Works cues r { s with answer := v } := h.same

theorem Works.setSent {v} (h : Works cues r s) : Works cues r { s with sent := v } := h.same

theorem Works.setFreeCtr {v} (h : Works cues r s) : Works cues r { s with freeCtr := v } := h.same

theorem Works.setTwill {v} (h : Works cues r s) : Works cues r { s with twill := v } := h.same

theorem Works.setPair {v} (h : Works cues r s) : Works cues r { s with pair := v } := h.same

theorem Works.setEqTable {v} (h : Works cues r s) : Works cues r { s with eqTable := v } := h.same

theorem Works.putMramNum {a v} (h : Works cues r s) :
    Works cues r { s with mram := { s.mram with objs := mapPut s.mram.objs a v } } := h.same

theorem Works.raiseC {code inst payload} (h : Works cues r s) : Works cues r (s.raiseC code inst payload) :=
  h.takeDseq.logRecord

theorem Works.raise {d code inst payload} (h : Works cues r s) : Works cues r (s.raise d code inst payload) := by
  unfold State.raise
  split
  · exact h.raiseMedia
  · exact h.raiseMedia
  · exact h.raiseC

theorem Works.free {w} (h : Works cues r s) : Works cues r (s.free w).2 :=
  h.setFreeCtr

theorem Works.send {o} (h : Works cues r s) : Works cues r (s.send o) :=
  h.setSent

theorem Works.putBit {o d i n b} (h : Works cues r s) (ho : o.firm = false := by rfl) :
    Works cues r (s.putBit o d i n b) :=
  (h.wr ho)

theorem Works.setBit {o d i n} (h : Works cues r s) (ho : o.firm = false := by rfl) :
    Works cues r (s.setBit o d i n) :=
  (h.putBit ho)

theorem Works.clrBit {o d i n} (h : Works cues r s) (ho : o.firm = false := by rfl) :
    Works cues r (s.clrBit o d i n) :=
  (h.putBit ho)

theorem Works.addCount {o d i n} (h : Works cues r s) (ho : o.firm = false := by rfl) :
    Works cues r (s.addCount o d i n) :=
  (h.wr ho)

theorem Works.bump {o d i} (h : Works cues r s) (ho : o.firm = false := by rfl) :
    Works cues r (s.bump o d i) :=
  (h.addCount ho)

theorem Works.persistNum {o d i v} (h : Works cues r s) (ho : o.firm = false := by rfl) :
    Works cues r (s.persistNum o d i v) :=
  (h.wr ho).putMramNum

theorem WmKind.status_firm (k : WmKind) {o : ObjDef} {n : Nat} (e : k.status = some (o, n)) : o.firm = false := by
  cases k <;> cases e <;> rfl

theorem WmKind.notice_firm (k : WmKind) : k.notice.1.firm = false := by cases k <;> rfl

theorem WmKind.counter_firm (k : WmKind) : k.counter.firm = false := by cases k <;> rfl

theorem Works.setArmed {d k i b} (h : Works cues r s) : Works cues r (s.setArmed d k i b) := by
  unfold State.setArmed
  extract_lets
  split
  · next e => exact h.updMd.putBit (k.status_firm e)
  · exact h.updMd

theorem Works.watermark {d k i level} (h : Works cues r s) : Works cues r (s.watermark d k i level) := by
  unfold State.watermark
  exact .ite ((h.setBit k.notice_firm).bump k.counter_firm).setArmed (.ite h.setArmed h)

/-! ### Twill -/

theorem Works.updTwill {f} (h : Works cues r s) : Works cues r (s.updTwill f) :=
  h.setTwill

theorem Works.updTlink {d q f} (h : Works cues r s) : Works cues r (s.updTlink d q f) :=
  h.updTwill

theorem Works.refreshTopology (h : Works cues r s) : Works cues r s.refreshTopology := by
  unfold State.refreshTopology
  exact .wrBytes (.foldl (fun _ _ h => h.wr.wr) (.foldl (fun _ _ h => h.wr.wr) h))

theorem Works.twlSend {l m} (h : Works cues r s) : Works cues r (s.twlSend l m) :=
  h.send

theorem Works.twlFlood {except m} (h : Works cues r s) : Works cues r (s.twlFlood except m) :=
  .foldl (fun _ _ h => h.twlSend) h

theorem Works.floodLinkState (h : Works cues r s) : Works cues r s.floodLinkState :=
  h.twlFlood

theorem Works.dropSlots {gone} (h : Works cues r s) : Works cues r (s.dropSlots gone) := by
  unfold State.dropSlots
  exact h.updTwill.updTwill

theorem Works.loseBroken (h : Works cues r s) : Works cues r s.loseBroken := by
  unfold State.loseBroken
  exact .dropSlots (.updTwill (.foldl (fun _ _ h => h.wr) h))

theorem Works.dropUnreachable (h : Works cues r s) : Works cues r s.dropUnreachable := by
  unfold State.dropUnreachable
  exact .loseBroken (.wr (.updTwill (.foldl (fun _ _ h => h.setBit.raise) h)))

theorem Works.newGeneration (h : Works cues r s) : Works cues r s.newGeneration := by
  unfold State.newGeneration
  exact h.wr.bump.updTwill.refreshTopology.floodLinkState

theorem Works.freeRx {d n} (h : Works cues r s) : Works cues r (s.freeRx d n) := by
  unfold State.freeRx
  split
  · exact h
  · extract_lets s1
    have h1 : Works cues r s1 := by
      dsimp only [s1]
      split
      · exact h
      · exact h.dropSlots.twlSend
    exact h1.updTwill.wr.wr.wrBytes.wr.refreshTopology

theorem Works.linkOut {d q st} (h : Works cues r s) : Works cues r (s.linkOut d q st) := by
  unfold State.linkOut
  exact h.wr.updTwill.dropUnreachable.newGeneration

theorem Works.linkLost {d q} (h : Works cues r s) : Works cues r (s.linkLost d q) := by
  unfold State.linkLost
  exact .ite h (.updTlink (.ite h.setBit.raise.linkOut h.wr))

theorem Works.twlStatus (h : Works cues r s) : Works cues r s.twlStatus := by
  unfold State.twlStatus
  exact h.putBit.putBit.putBit.putBit

theorem Works.leaveFabric (h : Works cues r s) : Works cues r s.leaveFabric := by
  unfold State.leaveFabric
  exact .twlStatus (.updTwill (.wr (.wr (.foldl (fun _ _ h => h.linkLost) h))))

/-! ### Power, lanes and cages -/

theorem Works.showDraw {d n m} (h : Works cues r s) : Works cues r (s.showDraw d n m) := by
  unfold State.showDraw
  extract_lets
  split
  · split
    · exact h.wr
    · split
      exact .wr (.snd ‹_› h.free)
  · exact h.wr

theorem firm_of_mem_sectionBits {n : Nat} {b : ObjDef × Nat × Nat} (h : b ∈ sectionBits n) : b.1.firm = false := by
  unfold sectionBits at h
  split at h
  · rw [List.mem_singleton.mp h]
    rfl
  · split at h <;> simp only [List.mem_cons, List.not_mem_nil, or_false] at h <;> rcases h with rfl | rfl <;> rfl

theorem Works.setSection {d n st} (h : Works cues r s) : Works cues r (s.setSection d n st) := by
  unfold State.setSection
  extract_lets _ s2
  have h2 : Works cues r s2 := by
    dsimp only [s2]
    split
    · exact h.wr
    · exact .foldl_mem (fun _ _ hb h => h.putBit (firm_of_mem_sectionBits hb)) h.wr
  exact .showDraw (.ite h2.clrBit h2)

theorem Works.powerForMode {d m} (h : Works cues r s) : Works cues r (s.powerForMode d m) := by
  unfold State.powerForMode
  exact .updPower (.foldl (fun _ _ h => h.showDraw) (.foldl (fun _ _ h => .ite h (.ite h (.ite h.setSection
    (.ite h h.setSection)))) h))

theorem Works.ans {a} (h : Works cues r s) : Works cues r (s.ans a) :=
  h.setAnswer

theorem Works.updLane {d l f} (h : Works cues r s) : Works cues r (s.updLane d l f) :=
  h.updMd

theorem Works.updCage {d n f} (h : Works cues r s) : Works cues r (s.updCage d n f) :=
  h.updMd

theorem Works.cdrOff {d lane} (h : Works cues r s) : Works cues r (s.cdrOff d lane) :=
  h.clrBit.clrBit

theorem Works.startLane {d lane target} (h : Works cues r s) : Works cues r (s.startLane d lane target) := by
  unfold State.startLane
  exact .wr (.updLane (.ite h.cdrOff h))

theorem Works.requestLane {d lane target} (h : Works cues r s) : Works cues r (s.requestLane d lane target) := by
  unfold State.requestLane
  split
  · exact h
  · exact h.updLane
  · exact .ite h h.startLane

theorem Works.pllFollows {d q} (h : Works cues r s) : Works cues r (s.pllFollows d q) := by
  unfold State.pllFollows
  exact .ite h h.clrBit

theorem Works.laneOff {d lane} (h : Works cues r s) : Works cues r (s.laneOff d lane) := by
  unfold State.laneOff
  exact h.wr.cdrOff.updLane

theorem Works.lanesForMode {d m} (h : Works cues r s) : Works cues r (s.lanesForMode d m) := by
  unfold State.lanesForMode
  exact .foldl (fun _ _ h => h.pllFollows) (.foldl (fun _ _ h => .ite (.ite h h.laneOff) (.requestLane
    (.ite h.wr h))) h)

theorem Works.cycleLane {d lane} (h : Works cues r s) : Works cues r (s.cycleLane d lane) := by
  unfold State.cycleLane
  split
  · exact h.startLane.requestLane
  · exact h.startLane.requestLane
  · exact h.updLane
  · exact h

theorem Works.cmis {d n w} (h : Works cues r s) : Works cues r (s.cmis d n w) :=
  .foldl (fun _ _ h => h.send) h

theorem Works.setRow {d cage row} (h : Works cues r s) : Works cues r (s.setRow d cage row) :=
  .foldl (fun _ _ h => h.updLane) h

theorem Works.selectRow {d cage m} (h : Works cues r s) : Works cues r (s.selectRow d cage m) := by
  unfold State.selectRow
  extract_lets _ _ row
  dsimp only [row]
  split
  · exact h.wr.setRow.setBit
  · exact h.wr.setRow.clrBit.raise

theorem Works.powerUpCage {d n m} (h : Works cues r s) : Works cues r (s.powerUpCage d n m) :=
  .ite h.cmis.updCage h

theorem Works.cagesFollow {d m} (h : Works cues r s) : Works cues r (s.cagesFollow d m) :=
  .foldl (fun _ _ h => h.powerUpCage) h

theorem Works.powerDownCage {d n} (h : Works cues r s) : Works cues r (s.powerDownCage d n) := by
  unfold State.powerDownCage
  exact .ite (.updCage (.clrBit (.clrBit (.cmis (.ite h h.cmis))))) h

theorem Works.modulesStandby (h : Works cues r s) : Works cues r s.modulesStandby :=
  .foldl (fun _ _ h => .ite h.powerDownCage h) h

/-! ### Ports, queues and flows -/

theorem Works.updNet {d f} (h : Works cues r s) : Works cues r (s.updNet d f) :=
  h.updMd

theorem Works.updQueue {d q f} (h : Works cues r s) : Works cues r (s.updQueue d q f) :=
  h.updNet

theorem Works.updFlowOut {d k f} (h : Works cues r s) : Works cues r (s.updFlowOut d k f) :=
  h.updNet

theorem Works.updPort {d p f} (h : Works cues r s) : Works cues r (s.updPort d p f) :=
  h.updNet

theorem Works.setDepth {d q n} (h : Works cues r s) : Works cues r (s.setDepth d q n) := by
  unfold State.setDepth
  exact h.wr.wr.putBit.watermark

theorem Works.refusePkt {d q flow egress} (h : Works cues r s) : Works cues r (s.refusePkt d q flow egress) := by
  unfold State.refusePkt
  extract_lets _ _ s2
  have h2 : Works cues r s2 := .ite h.bump.setBit.setBit h.bump.setBit
  exact .ite h2 h2.raise

theorem Works.enqueue {d q p egress} (h : Works cues r s) : Works cues r (s.enqueue d q p egress) := by
  unfold State.enqueue
  exact .ite h.updQueue.setDepth h.refusePkt

theorem Works.flowControl {d f start from_} (h : Works cues r s) : Works cues r (s.flowControl d f start from_) := by
  unfold State.flowControl
  exact .ite h h.updFlowOut.wr

theorem Works.ownPacket {d p kind len} (h : Works cues r s) : Works cues r (s.ownPacket d p kind len) :=
  h.enqueue

theorem Works.igmpReports {d p} (h : Works cues r s) : Works cues r (s.igmpReports d p) :=
  .ite h (.foldl (fun _ _ h => .foldl (fun _ _ h => .ite h.ownPacket h) h) h)

theorem Works.commitGates {d p t} (h : Works cues r s) : Works cues r (s.commitGates d p t) := by
  unfold State.commitGates
  exact h.updPort.wrBytes.wr

theorem Works.wakeLink {d q} (h : Works cues r s) : Works cues r (s.wakeLink d q) :=
  .foldl (fun _ _ h => h.requestLane) h

theorem Works.sendAlloc {d rx c} (h : Works cues r s) : Works cues r (s.sendAlloc d rx c) := by
  unfold State.sendAlloc
  split
  · exact h
  · exact .ite h.wakeLink h.twlSend

theorem Works.allocRx {d dev srcDie base member f} (h : Works cues r s) :
    Works cues r (s.allocRx d dev srcDie base member f).1 := by
  unfold State.allocRx
  extract_lets
  split
  · exact h
  · split
    · exact h.updTwill.wr.wr.wrBytes.wr.refreshTopology.sendAlloc
    · exact h

/-! ### Loom -/

theorem Works.updDst {d p f} (h : Works cues r s) : Works cues r (s.updDst d p f) :=
  h.updMd

theorem Works.syncBridge {e} (h : Works cues r s) : Works cues r (s.syncBridge e) := by
  unfold State.syncBridge
  exact h.updMd.wr.wr

theorem Works.refreshLoom (h : Works cues r s) : Works cues r s.refreshLoom := by
  unfold State.refreshLoom
  exact .foldl (fun _ _ h => .foldl (fun _ _ h => h.wr) h) (.foldl (fun _ _ h => h.syncBridge) h)

theorem Works.foldlOk {α ε β : Type _} {f : Except ε (State × β) → α → Except ε (State × β)} {l : List α}
    {a : Except ε (State × β)} {w : β}
    (hf : ∀ b x, (∀ t w, b = .ok (t, w) → Works cues r t) → ∀ t w, f b x = .ok (t, w) → Works cues r t)
    (h : ∀ t w, a = .ok (t, w) → Works cues r t) (e : l.foldl f a = .ok (t, w)) : Works cues r t := by
  induction l generalizing a with
  | nil => exact h _ _ e
  | cons x l ih => exact ih (hf a x h) e

theorem Works.takeTwill {d p x sel w} (e : s.takeTwill d p x sel = .ok (t, w)) (h : Works cues r s) : Works cues r t := by
  unfold State.takeTwill at e
  split at e
  · cases e
  · refine .foldlOk (fun b m hb t w e => ?_) (fun t w e => ?_) e
    · split at e
      · cases e
      · rename_i s1 _
        have h1 := hb s1 _ rfl
        split at e
        · cases e
        · split at e
          · cases e
          · cases e
            exact .fst (by assumption) h1.allocRx
    · cases e
      exact h

theorem Works.takeRoute {d p x pend sel w} (e : s.takeRoute d p x pend sel = .ok (t, w)) (h : Works cues r s) :
    Works cues r t := by
  unfold State.takeRoute at e
  extract_lets put at e
  have hput : ∀ {u}, Works cues r u → Works cues r (put u) := fun h => h.updDst.wr.refreshLoom
  split at e
  · cases e
  · split at e
    · cases e
      exact hput h
    · split at e
      · cases e
      · cases e
        exact hput (.takeTwill (by assumption) h)
    · split at e
      · cases e
      · cases e
        exact hput h

theorem Works.loomReject {d reason group dst} (h : Works cues r s) : Works cues r (s.loomReject d reason group dst) :=
  h.setBit.bump.raise

theorem Works.takeGroup {g i sel l w} (e : s.takeGroup g i sel l = .ok (t, w)) (h : Works cues r s) : Works cues r t := by
  unfold State.takeGroup at e
  refine .foldlOk (fun b x hb t w e => ?_) (fun t w e => ?_) e
  · split at e
    · cases e
    · rename_i s1 _
      have h1 := hb s1 _ rfl
      dsimp only at e
      split at e
      · cases e
      · cases e
        exact .takeRoute (by assumption) h1
  · cases e
    exact h

theorem Works.markLate {g t l} (h : Works cues r s) : Works cues r (s.markLate g t l) := by
  unfold State.markLate
  refine .foldl (fun _ _ h => ?_) h
  split
  exact .ite h.setBit.raise h

theorem Works.commitGroup {ds g t} (h : Works cues r s) : Works cues r (s.commitGroup ds g t) := by
  unfold State.commitGroup
  extract_lets
  split
  · exact h.loomReject.ans
  · extract_lets s1
    have h1 : Works cues r s1 := .markLate (.takeGroup (by assumption) h)
    exact .ite h1.ans h1.updTwill

theorem Works.freeIdleRx {d} (h : Works cues r s) : Works cues r (s.freeIdleRx d) := by
  unfold State.freeIdleRx
  exact .foldl (fun _ _ h => h.freeRx) h

theorem Works.takeBackup {d p x sel w} (e : s.takeBackup d p x sel = .ok (t, w)) (h : Works cues r s) : Works cues r t := by
  unfold State.takeBackup at e
  extract_lets put at e
  have hput : ∀ {u}, Works cues r u → Works cues r (put u) := fun h => h.persistNum.refreshLoom
  split at e
  · cases e
  · split at e
    · cases e
      exact hput h
    · split at e
      · cases e
      · cases e
        exact hput (.takeTwill (by assumption) h)
    · split at e
      · cases e
      · cases e
        exact hput h

theorem Works.loomTake {d route sel} (h : Works cues r s) : Works cues r (s.loomTake d route sel) := by
  unfold State.loomTake
  refine .foldl (fun _ _ h => ?_) h
  extract_lets s1
  have h1 : Works cues r s1 := h.wr
  split
  extract_lets _ _ _ s2
  have h2 : Works cues r s2 := by
    dsimp only [s2]
    split
    · exact .ite (.takeRoute (by assumption) h1) (.updTwill (.takeRoute (by assumption) h1))
    · exact h1.updDst.wr.setBit.raise
  split
  · exact h2.persistNum
  · exact .ite (.takeBackup (by assumption) h2) (.updTwill (.takeBackup (by assumption) h2))

theorem Works.loomOff {d} (h : Works cues r s) : Works cues r (s.loomOff d) := by
  unfold State.loomOff
  exact .refreshLoom (.freeIdleRx (.foldl (fun _ _ h => h.wr.wr.wr.wr.updDst) h))

theorem Works.updFsy {d n f} (h : Works cues r s) : Works cues r (s.updFsy d n f) :=
  h.updMd

/-! ### Stores and shared engines -/

theorem Works.refreshMem {d} (h : Works cues r s) : Works cues r (s.refreshMem d) := by
  unfold State.refreshMem
  exact h.wr.wr

theorem Works.updStores {d f} (h : Works cues r s) : Works cues r (s.updStores d f) :=
  h.updMd.refreshMem

theorem Works.freeStores {d subject inst} (h : Works cues r s) : Works cues r (s.freeStores d subject inst) :=
  h.updStores

theorem Works.item32 {n} (h : Works cues r s) : Works cues r (s.item32 n).2 := by
  unfold State.item32
  split
  · exact h
  · exact h.free

theorem Works.memRefuse {d kind subject short} (h : Works cues r s) : Works cues r (s.memRefuse d kind subject short) :=
  h.item32.setBit.bump.raise

theorem Works.allocStores {d subject inst parts traffic} (e : s.allocStores d subject inst parts traffic = .ok t)
    (h : Works cues r s) : Works cues r t := by
  unfold State.allocStores at e
  dsimp only at e
  split at e
  · cases e
  · split at e
    · cases e
    · cases e
      exact h.updStores

theorem Works.refreshEngines {d} (h : Works cues r s) : Works cues r (s.refreshEngines d) := by
  unfold State.refreshEngines
  exact .wr (.foldl (fun _ _ h => h.wr) (.foldl (fun _ _ h => h.wr.wr.wr.wr) h))

theorem Works.shareRefuse {d kind n short} (h : Works cues r s) : Works cues r (s.shareRefuse d kind n short) :=
  h.setBit.bump.wr.raise

theorem Works.placeChannel {d c} (h : Works cues r s) : Works cues r (s.placeChannel d c).1 := by
  unfold State.placeChannel
  extract_lets
  split
  · exact h
  · split
    · exact h
    · split
      · exact h.shareRefuse
      · exact h.wr.refreshEngines

theorem Works.placeBorrower {d m chain} (h : Works cues r s) : Works cues r (s.placeBorrower d m chain).1 := by
  unfold State.placeBorrower
  extract_lets
  split
  · exact h
  · split
    · exact h
    · split
      · exact h.shareRefuse
      · exact h.wr.refreshEngines

/-! ### Video -/

theorem Works.updVideo {d f} (h : Works cues r s) : Works cues r (s.updVideo d f) :=
  h.updMd

theorem Works.updChain {d n f} (h : Works cues r s) : Works cues r (s.updChain d n f) :=
  h.updVideo

theorem Works.updCmp {d n f} (h : Works cues r s) : Works cues r (s.updCmp d n f) :=
  h.updVideo

theorem Works.updOutp {d n f} (h : Works cues r s) : Works cues r (s.updOutp d n f) :=
  h.updVideo

theorem Works.refreshCoefs {d} (h : Works cues r s) : Works cues r (s.refreshCoefs d) := by
  unfold State.refreshCoefs
  exact .foldl (fun _ _ h => .ite h h.wr) h

theorem Works.cnvReject {d n reason} (h : Works cues r s) : Works cues r (s.cnvReject d n reason) := by
  unfold State.cnvReject
  exact h.setBit.bump.setBit.wr.raise.ans

theorem Works.lineShort {d scaler short} (h : Works cues r s) : Works cues r (s.lineShort d scaler short) :=
  h.setBit.wr.raise

theorem Works.replaceBorrowers {d} (h : Works cues r s) : Works cues r (s.replaceBorrowers d) := by
  unfold State.replaceBorrowers
  refine .foldl (fun _ _ h => ?_) h.updMd
  split
  · exact h
  · split
    · exact h
    · split
      · exact .fst (by assumption) h.placeBorrower
      · exact .ite h.setBit.raise h

theorem Works.chainCommit {d n t} (h : Works cues r s) : Works cues r (s.chainCommit d n t).1 := by
  obtain ⟨R, hR⟩ : ∃ R, R = @routeLanding := ⟨_, rfl⟩
  obtain ⟨Rc, hRc⟩ : ∃ R, R = @State.chainStores := ⟨_, rfl⟩
  unfold State.chainCommit
  rw [← hR, ← hRc]
  extract_lets
  split
  · exact h.setBit.cnvReject
  · exact h.cnvReject
  · split
    · exact h.setBit.bump.setBit.lineShort.ans
    · split
      rename_i s1 placed e1
      have h1 : Works cues r s1 := by
        refine .fst e1 ?_
        split
        · exact h
        · exact h.placeBorrower
      split
      · exact h1.cnvReject
      · split
        split
        · exact h.cnvReject.memRefuse
        · rename_i s2 e2
          have h2 : Works cues r s2 := .allocStores e2 h1
          split
          extract_lets s3 s4 s5
          have h5 : Works cues r s5 := h2.updChain.wr.wr.setBit.refreshCoefs
          exact .ans (.replaceBorrowers (.ite h5.setBit.raise h5))

theorem Works.showFelt {d n} (h : Works cues r s) : Works cues r (s.showFelt d n) := by
  unfold State.showFelt
  exact h.putBit.putBit.wr

theorem Works.queuePress {d n need} (h : Works cues r s) : Works cues r (s.queuePress d n need) := by
  unfold State.queuePress
  exact h.updVideo.updCmp.showFelt

theorem Works.cmpReject {d n reason layer} (h : Works cues r s) : Works cues r (s.cmpReject d n reason layer) := by
  unfold State.cmpReject
  split
  extract_lets s1
  have h1 : Works cues r s1 := by
    dsimp only [s1]
    refine .bump ?_
    refine .setBit ?_
    refine .snd (by assumption) ?_
    split
    · exact h
    · exact h.free
  exact .ans (.raise (.ite h1.setBit.wr h1))

theorem Works.scalerReject {d scaler x} (h : Works cues r s) : Works cues r (s.scalerReject d scaler x) := by
  unfold State.scalerReject
  split
  · exact h.lineShort
  · exact h.raise
  · exact h.raise
  · exact h.raise
  · exact h.setBit.raise

theorem Works.refreshScalers {d} (h : Works cues r s) : Works cues r (s.refreshScalers d) :=
  .foldl (fun _ _ h => .ite h (.ite h h.wr.wr)) h

theorem Works.cmpCommit {d n t forced judged} (h : Works cues r s) : Works cues r (s.cmpCommit d n t forced judged).1 := by
  unfold State.cmpCommit
  extract_lets
  split
  · with_reducible exact h.cmpReject
  split
  · with_reducible exact h.cmpReject
  split
  · with_reducible exact h.cmpReject
  split
  · with_reducible exact h.cmpReject.scalerReject
  split
  · with_reducible exact h.cmpReject
  split
  · with_reducible exact h.cmpReject.memRefuse
  · rename_i s1 e1
    have h1 : Works cues r s1 := .allocStores e1 h
    extract_lets _ _ _ _ s2 s3 s4 s5
    have h5 : Works cues r s5 := h1.updCmp.queuePress.setBit.wr.refreshScalers.refreshCoefs
    with_reducible exact .ans (.ite (.raise (.bump (.setBit h5 (by decide)) (by decide))) h5)

theorem Works.outReject {d m reason} (h : Works cues r s) : Works cues r (s.outReject d m reason) := by
  unfold State.outReject
  exact h.setBit.bump.setBit.wr.raise.ans

theorem Works.outCommit {d m t judged} (h : Works cues r s) : Works cues r (s.outCommit d m t judged).1 := by
  unfold State.outCommit
  extract_lets
  split
  · exact h.outReject
  · split
    exact .ans (.ite h.updOutp.setBit.setBit.bump.raise h.updOutp.setBit)

theorem Works.outGoOver {d m r'} (h : Works cues r s) : Works cues r (s.outGoOver d m r') := by
  unfold State.outGoOver
  exact h.updOutp

theorem Works.outStep {d m t step} (h : Works cues r s) : Works cues r (s.outStep d m t step) := by
  unfold State.outStep
  split
  · exact h.outGoOver
  · exact .ite h h.outGoOver

theorem Works.cmpStep {d n t step} (h : Works cues r s) : Works cues r (s.cmpStep d n t step) := by
  unfold State.cmpStep
  exact .ite h h.updCmp

theorem Works.formatApply {d m t} (h : Works cues r s) : Works cues r (s.formatApply d m t).1 := by
  unfold State.formatApply
  extract_lets
  split
  · exact h.outReject
  · split
    · exact h.outReject
    · split
      · exact h.ans
      · exact h.outGoOver.ans

theorem Works.videoOff {d} (h : Works cues r s) : Works cues r (s.videoOff d) := by
  unfold State.videoOff
  have shown : ∀ o ∈ videoShown, o.1.firm = false := by decide
  exact .refreshEngines (.refreshCoefs (.foldl (fun _ _ h => h.wrBytes)
    (.foldl_mem (fun _ o ho h => .foldl (fun _ _ h => h.wr (shown o ho)) h) h.updVideo)))

theorem Works.videoLeaveConfigure {d} (h : Works cues r s) : Works cues r (s.videoLeaveConfigure d).1 := by
  obtain ⟨A, hA⟩ : ∃ A, A = @State.allocStores := ⟨_, rfl⟩
  have e : @State.videoLeaveConfigure = @State.videoLeaveConfigure := rfl
  conv at e => rhs; delta State.videoLeaveConfigure
  rw [e, ← hA]
  beta_reduce
  extract_lets _ s1 each
  have h1 : Works cues r s1 := h.videoOff
  have folds : ∀ {n used go} {acc : State × Bool}, (∀ u k, Works cues r u → Works cues r (go u k).1) → Works cues r acc.1 →
      Works cues r (each n used go acc).1 := by
    intro n used go acc hgo ha
    refine .foldl_fst (fun _ _ h => ?_) ha
    split
    · exact hgo _ _ h
    · exact h
  clear_value each
  split
  rename_i s2 ok e2
  have h2 : Works cues r s2 := by
    refine .fst e2 ?_
    split
    · rw [hA] at *
      exact .allocStores ‹_› h1
    · exact h1.cmpReject.memRefuse
  extract_lets acc1 acc2
  have ha1 : Works cues r acc1.1 := folds (fun _ _ h => h.chainCommit) h2
  have ha2 : Works cues r acc2.1 := folds (fun _ _ h => h.cmpCommit) ha1
  exact folds (fun _ _ h => h.outCommit) ha2

/-! ### Audio -/

theorem Works.pushPackets {d l} (h : Works cues r s) : Works cues r (s.pushPackets d l) :=
  .foldl (fun _ _ h => h.enqueue) h

theorem Works.updSlv {d f} (h : Works cues r s) : Works cues r (s.updSlv d f) :=
  h.updMd

theorem Works.updAud {d f} (h : Works cues r s) : Works cues r (s.updAud d f) :=
  h.updMd

theorem Works.updAudOut {d o f} (h : Works cues r s) : Works cues r (s.updAudOut d o f) :=
  h.updAud

theorem Works.updAudPort {d p f} (h : Works cues r s) : Works cues r (s.updAudPort d p f) :=
  h.updAud

theorem Works.updAudIsl {d i f} (h : Works cues r s) : Works cues r (s.updAudIsl d i f) :=
  h.updAud

theorem Works.audPortReject {d p reason} (h : Works cues r s) : Works cues r (s.audPortReject d p reason) := by
  unfold State.audPortReject
  exact h.setBit.bump.wr.raise.ans

theorem Works.refreshProducers {d} (h : Works cues r s) : Works cues r (s.refreshProducers d) := by
  unfold State.refreshProducers
  exact .foldl (fun _ _ h => h.wr) (.foldl (fun _ _ h => h.wr) h)

theorem Works.routerReject {d group reason ch} (h : Works cues r s) : Works cues r (s.routerReject d group reason ch) := by
  unfold State.routerReject
  exact h.setBit.bump.raise.ans

theorem Works.routerCommit {d g t} (h : Works cues r s) : Works cues r (s.routerCommit d g t).1 := by
  unfold State.routerCommit
  extract_lets
  split
  · exact h.routerReject
  · split
    · exact h.routerReject
    · exact .ans (.foldl (fun _ _ h => h.updAudOut) h)

theorem Works.audFill {d p} (h : Works cues r s) : Works cues r (s.audFill d p) := by
  unfold State.audFill
  exact h.wr.watermark

theorem Works.showAudOut {d o n} (h : Works cues r s) : Works cues r (s.showAudOut d o n) := by
  unfold State.showAudOut
  exact h.wr.wr

theorem Works.setAudState {d p st} (h : Works cues r s) : Works cues r (s.setAudState d p st) :=
  h.wr.putBit.putBit

theorem Works.audPortCommit {d p t} (h : Works cues r s) : Works cues r (s.audPortCommit d p t).1 := by
  unfold State.audPortCommit
  extract_lets
  split
  · exact h.audPortReject
  · exact h.updAudPort.ans

theorem Works.startIsland {d i} (h : Works cues r s) : Works cues r (s.startIsland d i) := by
  unfold State.startIsland
  split
  · exact h.updAudIsl.wr.wr
  · split
    · exact h
    · split
      exact .wr (.wr (.updAudIsl (.snd ‹_› h.free)))

theorem Works.audTrigger {d g t} (h : Works cues r s) : Works cues r (s.audTrigger d g t) := by
  unfold State.audTrigger
  exact .ite h (.raise (.wr (.foldl (fun _ _ h => .ite h.updAudPort.setAudState h.updAudPort) h)))

theorem Works.audRest {d} (h : Works cues r s) : Works cues r (s.audRest d) := by
  unfold State.audRest
  extract_lets _ _ _ _ s1 zero s2
  have h2 : Works cues r s2 := .foldl (fun _ _ h => h.setAudState.audFill) h.updAud
  have zeroed : ∀ {u o v}, o.firm = false → Works cues r u → Works cues r (zero u o v) := fun ho h =>
    .foldl (fun _ _ h => h.wr ho) h
  exact zeroed rfl (zeroed rfl (zeroed rfl h2))

theorem Works.audStop {d} (h : Works cues r s) : Works cues r (s.audStop d) :=
  h.updAud.audRest

theorem Works.audOff {d} (h : Works cues r s) : Works cues r (s.audOff d) := by
  unfold State.audOff
  exact .foldl (fun _ _ h => h.wr) h.audStop.updAud

theorem Works.audLeaveConfigure {d} (h : Works cues r s) : Works cues r (s.audLeaveConfigure d).1 := by
  obtain ⟨A, hA⟩ : ∃ A, A = @State.allocStores := ⟨_, rfl⟩
  unfold State.audLeaveConfigure
  rw [← hA]
  extract_lets s1 acc1 s2 outs acc2 s3
  have ha1 : Works cues r acc1.1 := by
    refine .foldl_fst (fun _ _ h => ?_) h.audRest
    extract_lets
    split
    · exact h.audPortReject
    · with_reducible exact h.updAudPort
  clear_value acc1
  have h2 : Works cues r s2 := ha1.refreshProducers
  have ha2 : Works cues r acc2.1 := by
    dsimp only [acc2]
    split
    · with_reducible exact h2.loomReject.ans
    · exact h2
  clear_value acc2
  split
  rename_i s4 ok e4
  have h4 : Works cues r s4 := by
    refine .fst e4 ?_
    split
    · with_reducible exact ha2.routerReject
    · with_reducible exact .foldl (fun _ _ h => h.updAudOut.showAudOut) ha2
  extract_lets s5 fl
  have h5 : Works cues r s5 := .foldl (fun _ _ h => h.startIsland) h4
  clear_value s5
  split
  rename_i s6 bad e6
  refine .fst e6 (.foldl_fst (fun _ _ h => ?_) h5)
  split
  · rw [hA] at *
    exact .allocStores ‹_› h
  · exact h

theorem Works.audTimeStep {d} (h : Works cues r s) : Works cues r (s.audTimeStep d) :=
  h.updAud

/-! ### Channels -/

theorem Works.updEnc {d c f} (h : Works cues r s) : Works cues r (s.updEnc d c f) :=
  h.updMd

theorem Works.setEncState {d c st} (h : Works cues r s) : Works cues r (s.setEncState d c st) :=
  h.wr.putBit

theorem Works.refreshEntropy {d} (h : Works cues r s) : Works cues r (s.refreshEntropy d) :=
  .foldl (fun _ _ h => h.wr.wr.putBit) h

theorem Works.setEntropy {d c l} (h : Works cues r s) : Works cues r (s.setEntropy d c l) :=
  h.wr.refreshEntropy

theorem Works.encReject {d c reason} (h : Works cues r s) : Works cues r (s.encReject d c reason) := by
  unfold State.encReject
  exact h.setBit.bump.setBit.wr.raise.ans

theorem Works.rcReject {d c reason tier} (h : Works cues r s) : Works cues r (s.rcReject d c reason tier) := by
  unfold State.rcReject
  exact .ans (.raise (.wr (.setBit (.bump (.setBit (.setBit (.bump (.setBit (.ite h.wr h)))))))))

theorem Works.showEnc {d c g} (h : Works cues r s) : Works cues r (s.showEnc d c g) := by
  unfold State.showEnc
  exact h.wr.wr.wr.wr.wr.wr

theorem Works.encTake {d c g} (h : Works cues r s) : Works cues r (resultState (s.encTake d c g)) := by
  have h1 : Works cues r (s.placeChannel d c).1 := h.placeChannel
  unfold State.encTake
  extract_lets q
  generalize s.placeChannel d c = p at h1 ⊢
  obtain ⟨s1, ok⟩ := p
  split
  · exact h
  dsimp -zeta only
  split
  · exact h1
  extract_lets ent
  have hent : ∀ s2, ent = some s2 → Works cues r s2 := by
    intro s2 e2
    dsimp only [ent] at e2
    split at e2
    · obtain ⟨_, _, rfl⟩ := Option.map_eq_some_iff.mp e2
      exact h1.setEntropy
    · cases e2
      exact h1
  clear_value ent
  split
  · exact h
  · split
    · exact h
    · exact .allocStores ‹_› (hent _ rfl)

theorem Works.encCheck {d c} (h : Works cues r s) : Works cues r (s.encCheck d c).1 := by
  unfold State.encCheck
  extract_lets g
  have ht : Works cues r (resultState (s.encTake d c g)) := h.encTake
  split
  · exact h.encReject
  · split
    · exact h.rcReject
    · generalize s.encTake d c g = x at ht ⊢
      split
      · with_reducible exact .memRefuse (.encReject ht)
      · with_reducible exact .encReject ht
      · with_reducible exact .showEnc ht

theorem Works.encLate {d c late} (h : Works cues r s) : Works cues r (s.encLate d c late) :=
  .ite h.setBit.raise h

theorem Works.encCommit {d c t} (h : Works cues r s) : Works cues r (s.encCommit d c t).1 := by
  obtain ⟨R, hR⟩ : ∃ R, R = @routeLanding := ⟨_, rfl⟩
  unfold State.encCommit
  rw [← hR]
  split
  · exact .fst ‹_› h.encCheck
  · rename_i s1 _ e1
    have h1 : Works cues r s1 := .fst e1 h.encCheck
    extract_lets
    split
    exact .ans (.replaceBorrowers (.encLate (.setBit h1.updEnc)))

theorem Works.encControl {d c start t} (h : Works cues r s) : Works cues r (s.encControl d c start t) := by
  have e : @State.encControl = @State.encControl := rfl
  conv at e => rhs; delta State.encControl
  rw [e]
  beta_reduce
  extract_lets
  split
  exact .encLate (.setEncState h.updEnc)

theorem Works.encPlaceAll {d l} (h : Works cues r s) : Works cues r (s.encPlaceAll d l).1 := by
  refine .foldl_fst (fun u c h => ?_) h
  have h1 : Works cues r (u.1.encCheck d c).1 := h.encCheck
  generalize u.1.encCheck d c = p at h1 ⊢
  obtain ⟨s1, _ | g⟩ := p
  · exact h1
  · with_reducible exact h1.updEnc

theorem Works.encClear {d} (h : Works cues r s) : Works cues r (s.encClear d) := by
  unfold State.encClear
  exact .refreshEntropy (.refreshEngines (.updMd (.foldl (fun _ _ h => .ite h.wr.wr.freeStores h) h)))

theorem Works.updPic {d c num f} (h : Works cues r s) : Works cues r (s.updPic d c num f) :=
  h.updEnc

theorem Works.encStore {d c num r' img} (h : Works cues r s) : Works cues r (s.encStore d c num r' img) := by
  unfold State.encStore
  extract_lets
  split
  extract_lets s1
  have h1 : Works cues r s1 := h.updPic
  split
  · split
    · exact h1.updEnc
    · exact h1
  · exact h1

theorem Works.encTimeStep {d c step} (h : Works cues r s) : Works cues r (s.encTimeStep d c step) := by
  unfold State.encTimeStep
  exact .ite h (.raise (.bump (.setBit (.updEnc (.foldl (fun _ _ h => .updPic
    (.foldl (fun _ _ h => .ite h h.encStore) h)) h)))))

theorem Works.keyRequest {d c t} (h : Works cues r s) : Works cues r (s.keyRequest d c t) :=
  .ite h.bump h.updEnc.setBit

/-! ### Decoders and stopped streams -/

theorem Works.updDec {d n f} (h : Works cues r s) : Works cues r (s.updDec d n f) :=
  h.updMd

theorem Works.setDecState {d n st} (h : Works cues r s) : Works cues r (s.setDecState d n st) :=
  h.wr.putBit

theorem Works.refreshCpb {d n} (h : Works cues r s) : Works cues r (s.refreshCpb d n) :=
  h.wr

theorem Works.decWait {d n} (h : Works cues r s) : Works cues r (s.decWait d n) := by
  unfold State.decWait
  exact h.updDec.setDecState

theorem Works.decRestart {d n} (h : Works cues r s) : Works cues r (s.decRestart d n) :=
  .ite h h.updDec.decWait.refreshCpb

theorem Works.decIdle {d n} (h : Works cues r s) : Works cues r (s.decIdle d n) := by
  unfold State.decIdle
  exact h.updDec.setDecState.wr.refreshCpb

theorem Works.decReject {d n reason} (h : Works cues r s) : Works cues r (s.decReject d n reason) := by
  unfold State.decReject
  exact h.setBit.bump.setBit.wr.raise

theorem Works.decLeaveConfigure {d} (h : Works cues r s) : Works cues r (s.decLeaveConfigure d).1 := by
  obtain ⟨R, hR⟩ : ∃ R, R = @State.decStores := ⟨_, rfl⟩
  unfold State.decLeaveConfigure
  rw [← hR]
  extract_lets s1
  have h1 : Works cues r s1 := .wr (.foldl (fun _ _ h => h.decIdle) h)
  refine .foldl_fst (fun _ _ h => ?_) h1
  extract_lets s2
  split
  · exact h.decReject
  · split
    split
    · exact h.decReject.memRefuse
    · exact .decRestart (.wr (.allocStores ‹_› h))

theorem Works.updChan {d c f} (h : Works cues r s) : Works cues r (s.updChan d c f) :=
  h.updMd

theorem Works.stopStreams {d t} (h : Works cues r s) : Works cues r (s.stopStreams d t) := by
  unfold State.stopStreams
  exact .foldl (fun _ _ h => h.decRestart) (.foldl (fun _ _ h => h.flowControl) (.foldl (fun _ _ h => h.encControl) h))

/-! ### The pair and its dies -/

theorem Works.showPair (h : Works cues r s) : Works cues r s.showPair := by
  unfold State.showPair
  exact h.putBit.putBit.putBit.putBit

theorem Works.askResync {kind n src} (h : Works cues r s) : Works cues r (s.askResync kind n src) := by
  unfold State.askResync
  exact .ite h (.ite (.foldl (fun _ _ h => .ite h.keyRequest.updEnc h) h.setPair) h.setPair)

theorem firm_of_mirrored {a : ObjAddr} (h : mirroredAddr a = true) : firmRow a.index a.sub = false := by
  simp only [mirroredAddr, mirroredIndex, Bool.and_eq_true, Bool.or_eq_true, decide_eq_true_eq] at h
  simp only [firmRow, Bool.or_eq_false_iff, Bool.and_eq_false_iff, beq_eq_false_iff_ne]
  omega

theorem Works.copyMirrored {src} (h : Works false r s) : Works false r (s.copyMirrored src) := by
  unfold State.copyMirrored
  extract_lets d keep s' mine
  have dropped : Works false r s' := h.dropObjects (p := keep) fun a ha => ?_
  refine .foldl (fun _ _ h => h.putBytes (Bool.and_false _)) (.foldl_mem (fun _ e he h => h.putNum ?_) dropped)
  · have mine := (List.mem_filter.mp he).2
    rw [Bool.and_eq_true] at mine
    exact firm_of_mirrored mine.2
  · dsimp only [keep]
    cases hm : mirroredAddr a
    · simp
    · rw [firm_of_mirrored hm] at ha
      exact absurd ha (by decide)

theorem Works.resyncAll {src} (h : Works cues r s) : Works cues r (s.resyncAll src) := by
  refine .foldl (fun _ _ h => ?_) h
  split
  exact h.askResync

/-- Of the firm rows a die that goes to REJOINING changes its place in the pair alone. -/
theorem Works.rejoin (s : State) (d : MDie) : Works cues (s.setSlv d 6) (s.rejoin d) := by
  have swap : ∀ f, (s.updSlv d f).setSlv d 6 = (s.setSlv d 6).updSlv d f := fun f => by cases d <;> rfl
  unfold State.rejoin
  dsimp only
  rw [swap]
  exact (Works.refl _).updSlv.resyncAll

/-! ### Cues and steps of the time base -/

theorem Works.setCue {d k st} (h : Works cues r s) : Works cues r (s.setCue d k st) :=
  h.wr

theorem Works.updDieTime {d f} (h : Works cues r s) : Works cues r (s.updDieTime d f) :=
  h.updMd

theorem Works.cuePast {d k} (h : Works false r s) : Works false r (s.cuePast d k) := by
  unfold State.cuePast
  extract_lets _ s1
  have h1 : Works false r s1 := h.bump.raise
  exact .ite h1.updDieTime.setCue (.ite (h1.wrBytes rfl).setCue h1.setCue)

theorem Works.disarmCue {d k} (h : Works cues r s) : Works cues r (s.disarmCue d k) :=
  h.updDieTime.setCue

theorem Works.cuesReturn {d} (h : Works cues r s) : Works cues r (s.cuesReturn d) :=
  .foldl (fun _ _ h => h.disarmCue) h

theorem Works.cuesStepped {d step} (h : Works false r s) : Works false r (s.cuesStepped d step) := by
  unfold State.cuesStepped
  exact .ite h (.inOrder (.foldl (fun _ _ h => h.cuePast) h))

theorem Works.ramStep {d step} (h : Works cues r s) : Works cues r (s.ramStep d step) := by
  unfold State.ramStep
  exact h.updMd

theorem Works.dieStep {d step} (h : Works false r s) : Works false r (s.dieStep d step) := by
  unfold State.dieStep
  exact .inOrder (.cuesStepped (.audTimeStep (.foldl (fun _ _ h => h.decRestart)
    (.foldl (fun _ _ h => h.encTimeStep) (.updNet (.ramStep (.foldl (fun _ _ h => h.cmpStep)
    (.foldl (fun _ _ h => h.outStep) h.updDieTime))))))))

/-! ### Lanes that follow a mode -/

theorem Works.portGoesDown {d first cause} (h : Works cues r s) : Works cues r (s.portGoesDown d first cause) := by
  unfold State.portGoesDown
  extract_lets _ s2
  have h2 : Works cues r s2 := .ite h.clrBit.clrBit h.clrBit.clrBit.setBit
  exact .ite h (.ite h2.setBit.bump.raise.linkLost h2.setBit.bump.raise.clrBit.updPort)

theorem Works.lanesFollow {d m} (h : Works cues r s) : Works cues r (s.lanesFollow d m) := by
  unfold State.lanesFollow
  exact .cagesFollow (.lanesForMode (.foldl (fun _ _ h => h.portGoesDown) h))

theorem Works.applyEqTable (h : Works cues r s) : Works cues r s.applyEqTable := by
  unfold State.applyEqTable
  refine .foldl (fun _ _ h => ?_) h.setEqTable.wr
  split
  · exact h
  · refine .foldl (fun _ _ h => ?_) h.selectRow
    extract_lets s4
    have h4 : Works cues r s4 := by
      dsimp only [s4]
      split
      · exact h.portGoesDown
      · exact h
    exact h4.cycleLane

/-! ### What a cue's action does -/

theorem Works.cueResult {x : State × Bool} (h : Works cues r x.1) : Works cues r (cueResult x).1 := h

theorem Works.cueCommit {d index n t} (h : Works cues r s) : Works cues r (s.cueCommit d index n t).1 := by
  unfold State.cueCommit
  extract_lets
  split
  · split
    · exact h
    · split
      · exact h.outCommit.cueResult
      · exact h
  · split
    · split
      · exact h
      · split
        · exact h.cmpCommit.cueResult
        · exact h
    · split
      · split
        · exact h
        · exact h.ans.commitGroup
      · split
        · split
          · exact h
          · split
            · exact h.commitGates
            · exact h
        · split
          · split
            · exact h
            · split
              · exact h.chainCommit.cueResult
              · exact h
          · split
            · split
              · exact h
              · split
                · exact h.encCommit.cueResult
                · exact h
            · split
              · split
                · exact h
                · split
                  · exact h.audPortCommit.cueResult
                  · exact h
              · split
                · split
                  · exact h
                  · exact h.routerCommit.cueResult
                · exact h

theorem Works.cueFlow {d index n start t} (h : Works cues r s) : Works cues r (s.cueFlow d index n start t).1 := by
  unfold State.cueFlow
  split
  · exact h
  · split
    · exact h
    · split
      · exact h.flowControl
      · exact h

theorem Works.cueChannel {d index n start t} (h : Works cues r s) : Works cues r (s.cueChannel d index n start t).1 := by
  unfold State.cueChannel
  split
  · exact h
  · split
    · exact h
    · split
      · exact h
      · split
        · exact h
        · exact h.encControl

theorem Works.cueAct {d b t} (h : Works cues r s) : Works cues r (s.cueAct d b t).1 := by
  unfold State.cueAct
  extract_lets _ _ r' s1
  have h1 : Works cues r s1 := by
    dsimp only [s1]
    dsimp only [r']
    split
    · exact h.cueCommit
    · split
      · exact h
      · split
        · exact h
        · split
          · exact h.keyRequest
          · exact h
    · split
      · exact h
      · split
        · exact h
        · exact h.audTrigger
    · exact h.cueFlow
    · exact h.cueFlow
    · exact h.cueChannel
    · exact h.cueChannel
    · split
      · exact h
      · split
        · exact h
        · split
          · exact h.formatApply.cueResult
          · exact h
    · exact h
  exact h1.setAnswer

/-! ### Leaving CONFIGURE -/

theorem Works.netReject {d x} (h : Works cues r s) : Works cues r (s.netReject d x) :=
  h.raise.ans

theorem Works.holdReject {d number} (h : Works cues r s) : Works cues r (s.holdReject d number) :=
  h.loomReject.ans

theorem Works.next {x : Exit} {f : State → Exit} (hf : ∀ t, Works cues r t → Works cues r (f t).1) (h : Works cues r x.1) :
    Works cues r (x.next f).1 := by
  unfold Exit.next
  split
  · exact hf _ h
  · exact h

theorem Works.ofBool {code} {x : State × Bool} (h : Works cues r x.1) : Works cues r (Exit.ofBool code x).1 := h

theorem Works.ofAnswer {x : State × Bool} (h : Works cues r x.1) : Works cues r (Exit.ofAnswer x).1 := h

theorem Works.bindProducer {d p kind n} (h : Works cues r s) : Works cues r (s.bindProducer d p kind n).1 := by
  unfold State.bindProducer
  extract_lets
  split
  · exact h
  · extract_lets
    split
    · exact h
    · split
      · exact h.holdReject
      · exact .foldl (fun _ _ h => h.wr.wr) h

theorem Works.bindProducers {d} (h : Works cues r s) : Works cues r (s.bindProducers d).1 := by
  unfold State.bindProducers
  dsimp only
  exact .foldl_fst (fun _ _ h => .next (fun _ h => h.bindProducer) h) (.foldl (fun _ _ h => h.wr.wr) h)

theorem Works.bindConsumers {d} (h : Works cues r s) : Works cues r (s.bindConsumers d).1 := by
  refine .foldl_fst (fun _ _ h => ?_) h
  refine .next (fun _ h => ?_) h
  split
  · exact h
  · split
    · exact h
    · split
      · exact h.holdReject
      · exact h.wr

theorem Works.startFsy {d n} (h : Works cues r s) : Works cues r (s.startFsy d n).1 := by
  unfold State.startFsy
  extract_lets
  split
  · exact h.loomReject.ans
  · split
    · exact h.loomReject.memRefuse.ans
    · exact .wr (.updFsy (.wr (.allocStores (by assumption) h)))

theorem Works.startSynchronizers {d} (h : Works cues r s) : Works cues r (s.startSynchronizers d).1 :=
  .foldl_fst (fun _ _ h => .next (fun _ h => h.startFsy) h) h

theorem Works.portsInForce {d} (h : Works cues r s) : Works cues r (s.portsInForce d) :=
  .foldl (fun _ _ h => .ite h h.updPort.clrBit) h

theorem Works.queuesInForce {d} (h : Works cues r s) : Works cues r (s.queuesInForce d) := by
  unfold State.queuesInForce
  exact .foldl (fun _ _ h => h.updQueue) h.updNet

theorem Works.restFlows {d} (h : Works cues r s) : Works cues r (s.restFlows d) := by
  unfold State.restFlows
  exact .wr (.foldl (fun _ _ h => h.wr) (.foldl (fun _ _ h => h.wr) h.updNet))

theorem Works.configureDie {d lost} (h : Works cues r s) : Works cues r (s.configureDie d lost).1 := by
  unfold State.configureDie
  extract_lets s1 live deferred x0 x1 x2 x3 x4 x5 x6 x7 x8
  have h1 : Works cues r s1 := h.portsInForce.queuesInForce
  have h0 : Works cues r x0.1 := by
    dsimp only [x0]
    split
    · exact h1.netReject
    · split
      · exact h1.netReject
      · exact h1.holdReject
    · exact h1.holdReject
    · split
      · exact h1
      · exact h1.restFlows
  have h3 : Works cues r x3.1 := .next (fun _ h => .encClear h.updStores)
    (.next (fun _ h => h.bindConsumers) (.next (fun _ h => h.bindProducers) h0))
  have h5 : Works cues r x5.1 := .next (fun _ h => h.startSynchronizers) (.next (fun _ h => h.encPlaceAll.ofAnswer) h3)
  have h7 : Works cues r x7.1 := .next (fun _ h => h.videoLeaveConfigure.ofAnswer)
    (.next (fun _ h => h.decLeaveConfigure.ofBool) h5)
  refine .next (fun u h => ?_) (.next (fun _ h => h.encPlaceAll.ofAnswer) h7)
  split
  rename_i s2 ok bad e2
  have h2 : Works cues r s2 := .fst e2 h.audLeaveConfigure
  split
  · exact h2
  · split
    · exact h2
    · exact .foldl (fun _ _ h => h.netReject.memRefuse) h2

theorem firm_of_reportOf : ∀ o ∈ objTable, reportOf o = true → o.firm = false := by decide +kernel

/-! ### Reports, dies and modes -/

theorem Works.takeReport {t e} (h : Works cues r s) : Works cues r (s.takeReport t e) := by
  unfold State.takeReport
  split
  · exact h
  · next o ho =>
    dsimp only
    split
    · exact h
    · next report =>
      have row := firm_of_reportOf o (List.mem_of_find?_eq_some ho) (by simpa using (not_or.mp report).1)
      exact .ite (h.wr row) (.ite (h.addCount row) (h.wr row))

theorem Works.withReports {old new} (h : Works cues r s) : Works cues r (s.withReports old new) := by
  unfold State.withReports
  exact .foldl (fun _ _ h => h.takeReport) (.foldl (fun _ _ h => h.raise)
    (.foldl (fun _ _ h => .foldl (fun _ _ h => h.raise) h) h.same))

theorem Works.takeRefFormat {d} (h : Works cues r s) : Works cues r (s.takeRefFormat d) := by
  unfold State.takeRefFormat
  exact .ite h h.updDieTime.cuesReturn

theorem Works.followOwner {d t} (h : Works cues r s) : Works cues r (s.followOwner d t) := by
  unfold State.followOwner
  exact .foldl (fun _ _ h => h.flowControl) (.foldl (fun _ _ h => h.encControl) h)

/-- A die that is let back goes to REJOINING; one that is not stays, with the reports of what failed (R416). -/
theorem Works.tryReturn (s : State) (d : MDie) :
    Works false s (s.tryReturn d) ∨ ∃ u, Works false s u ∧ s.tryReturn d = u.rejoin d := by
  unfold State.tryReturn
  extract_lets o before x s1 _ _
  have hx : Works false s x.1 := (Works.refl s).copyMirrored.configureDie
  clear_value x
  have h1 : Works false s s1 := (Works.refl s).withReports
  split
  · left
    split
    rename_i sub short s2 e2
    have h2 : Works false s s2 := by
      split at e2
      · cases e2
        exact h1
      · cases e2
        exact (h1.free (w := 16)).free (w := 32)
    exact h2.raise
  · refine .inr ⟨_, ?_, rfl⟩
    with_reducible exact hx.takeRefFormat.loomTake.followOwner

theorem Works.diesFollow {m} (h : Works cues r s) : Works cues r (s.diesFollow m) := by
  unfold State.diesFollow
  exact .foldl (fun _ _ h => h.powerForMode.lanesFollow) (.foldl (fun _ _ h => h.showDraw) h)

theorem Works.ramSleep {d} (h : Works cues r s) : Works cues r (s.ramSleep d) := by
  unfold State.ramSleep
  exact .updMd (.foldl (fun _ _ h => h.updChan.wr.clrBit) h)

theorem Works.ramWake {d} (h : Works cues r s) : Works cues r (s.ramWake d) := by
  unfold State.ramWake
  exact .foldl (fun _ _ h => h.wr.setBit) (.ite h h.updPower)

theorem Works.checkersOff (h : Works cues r s) : Works cues r s.checkersOff :=
  .foldl (fun _ _ h => .foldl (fun _ _ h => h.clrBit) h) h

theorem Works.leaveTest (h : Works false r s) : Works false r s.leaveTest := by
  unfold State.leaveTest
  extract_lets back s1
  have dropped : Works false r s1 := h.dropObjects (p := fun a => !back a) fun a ha => by
    simp only [firmRow, Bool.or_eq_true, Bool.and_eq_true, beq_iff_eq] at ha
    simp [back]
    omega
  exact .foldl (fun _ _ h => h.updMd) dropped.checkersOff

theorem Works.autostart {d t} (h : Works cues r s) : Works cues r (s.autostart d t) :=
  .foldl (fun _ _ h => h.encControl) h

end
end Sys2Proof.Machine
end

section
namespace Sys2Proof.Machine

/-! ### What the servo leaves -/

/-- What of the time base's own data the servo does not change: the grandmaster, the 1PPS edges, the Syncs that wait. -/
def TimeSt.inputs (t : TimeSt) := (t.gm, t.ppsRun, t.ppsLast, t.syncWait)

/-- A firm row that shows neither the servo's state nor a port's. -/
def ObjDef.input (o : ObjDef) : Bool :=
  o.firm && Obj.timeState.apart o && Obj.timeHoldoverElapsed.apart o && Obj.ptpPortState.apart o

/-- Between two states the servo acted on an offset (R61, R62). -/
structure State.Serves (s t : State) : Prop where
  inputs : t.time.inputs = s.time.inputs
  rd : ∀ o : ObjDef, o.input = true → ∀ d i, t.rd o d i = s.rd o d i

section
variable {s t : State}

theorem State.Serves.refl (s : State) : s.Serves s := ⟨rfl, fun _ _ _ _ => rfl⟩

theorem State.Serves.ite {p : Prop} {i : Decidable p} {u : State} (h : s.Serves t) (k : s.Serves u) :
    s.Serves (if p then t else u) := by
  split <;> assumption

theorem ObjDef.firm_of_input {o : ObjDef} (h : o.input = true) : o.firm = true := by
  simp only [ObjDef.input, Bool.and_eq_true] at h
  exact h.1.1.1

theorem State.Serves.works {c : Bool} {u : State} (h : s.Serves t) (w : Works c t u) : s.Serves u :=
  ⟨(congrArg TimeSt.inputs w.time).trans h.inputs, fun o ho d i => (w.rd o (ObjDef.firm_of_input ho) d i).trans (h.rd o ho d i)⟩

theorem State.Serves.wr {o d i v} (h : s.Serves t)
    (ho : o = Obj.timeState ∨ o = Obj.timeHoldoverElapsed ∨ o = Obj.ptpPortState) : s.Serves (t.wr o d i v) where
  inputs := h.inputs
  rd p hp e j := by
    simp only [ObjDef.input, Bool.and_eq_true] at hp
    obtain ⟨⟨⟨hf, hs⟩, he⟩, hr⟩ := hp
    have apart : o.apart p = true := by rcases ho with rfl | rfl | rfl <;> assumption
    rw [State.rd_wr_apart apart, h.rd p (by simp [ObjDef.input, *])]

theorem State.Serves.setServo {n} (h : s.Serves t) : s.Serves (t.setServo n) := h.wr (.inl rfl)

theorem State.Serves.raise {d code inst payload} (h : s.Serves t) : s.Serves (t.raise d code inst payload) :=
  h.works (c := true) (.raise (.refl t))

theorem State.Serves.updTime {f} (h : s.Serves t) (e : ∀ x, (f x).inputs = x.inputs := by intro; rfl) : s.Serves (t.updTime f) :=
  ⟨(e _).trans h.inputs, h.rd⟩

theorem State.Serves.showPtp (h : s.Serves t) : s.Serves t.showPtp := by
  have ports : ∀ (l : List Nat) (f : State → Nat → Int) (t : State), s.Serves t →
      s.Serves (l.foldl (fun s p => s.wr Obj.ptpPortState .c p (f s p)) t) := by
    intro l f
    induction l with
    | nil => exact fun _ h => h
    | cons p l ih => exact fun _ h => ih _ (h.wr (.inr (.inr rfl)))
  exact ports _ _ _ h

/-! ### Steps of the time base -/

/-- The time base after a step (R62, R63). -/
def TimeSt.stepped (t : TimeSt) (step : Int) : TimeSt :=
  { t with base := max timeFloor ((t.base : Int) + step).toNat, goodRun := 0, newGm := false }

/-- A step of the time base is the media dies' work on it, the sticky bit and the event, and ends in ACQUIRING. -/
theorem State.stepTime_eq (s : State) (step : Int) : ∃ u, s.stepTime step = u.setServo 1
    ∧ Works false (s.updTime (·.stepped step)) u ∧ u.bit Obj.timeSticky .c 0 1 = true := by
  unfold State.stepTime
  extract_lets new step' s1 s2
  have h2 : Works false (s.updTime (·.stepped step)) s2 :=
    .foldl (fun _ _ h => .ite h.dieStep (.ite h h.updDieTime)) (.refl _)
  refine ⟨_, rfl, (h2.setBit).raise, ?_⟩
  rw [State.bit_raise rfl, State.bit_setBit_same]

theorem State.servo_setServo (s : State) (n : Nat) : (s.setServo n).servo = n := by
  rw [State.servo, State.setServo, State.rdN_wr_same, Int.toNat_natCast]

/-- A step ends in ACQUIRING, with the time base stepped and STICKY bit 1 (R62). -/
theorem State.stepTime_effect (s : State) (step : Int) : (s.stepTime step).servo = 1
    ∧ (s.stepTime step).time = s.time.stepped step ∧ (s.stepTime step).bit Obj.timeSticky .c 0 1 = true := by
  obtain ⟨u, e, w, sticky⟩ := s.stepTime_eq step
  rw [e]
  exact ⟨State.servo_setServo .., w.time, by rw [State.setServo, State.bit_wr_apart rfl, sticky]⟩

theorem State.Serves.stepTime {step} (h : s.Serves t) : s.Serves (t.stepTime step) := by
  obtain ⟨u, e, w, -⟩ := t.stepTime_eq step
  rw [e]
  exact ((h.updTime).works w).setServo

theorem State.Serves.bigOffset {off} (h : s.Serves t) : s.Serves (t.bigOffset off) :=
  .ite h.stepTime (.ite h h.setServo.raise)

theorem State.Serves.goodOffset {off} (h : s.Serves t) : s.Serves (t.goodOffset off) := by
  unfold State.goodOffset
  exact .ite h.updTime h.updTime.updTime.setServo.raise

theorem State.Serves.slewBase {off} (h : s.Serves t) : s.Serves (t.slewBase off) := by
  unfold State.slewBase
  exact h.updTime

/-- The servo's answer to an offset that TIME.OFFSET shows. -/
theorem State.serves_onOffset (s : State) (off : Int) : (s.showOffset off).Serves (s.onOffset off) := by
  unfold State.onOffset
  extract_lets u big fresh v w x
  have h : u.Serves v := (State.Serves.refl u).updTime
  have hx : u.Serves x := (h.wr (.inr (.inl rfl))).raise
  split
  · exact .ite h.bigOffset h.goodOffset.slewBase
  · exact .ite h.bigOffset (.ite h.updTime.setServo.slewBase h.slewBase)
  · exact .ite hx.bigOffset hx.updTime.setServo.goodOffset.slewBase
  · exact .ite h.bigOffset h.goodOffset.slewBase
  · exact .ite h.bigOffset (.ite h.updTime.setServo.goodOffset.slewBase h)
  · exact h

end

/-- TIME.OFFSET shows an offset that lies in its format (R61). -/
theorem State.timeOffset_showOffset {s : State} {off : Int} (h : -(2 ^ 47) ≤ off ∧ off < 2 ^ 47) :
    (s.showOffset off).rd Obj.timeOffset .c 0 = off * 65536 := by
  unfold State.showOffset
  dsimp only
  rw [if_pos h, State.rd_wr_same]

theorem State.rd_showOffset {o : ObjDef} (h : Obj.timeOffset.apart o = true) (s : State) (off : Int) (d : Die) (i : Nat) :
    (s.showOffset off).rd o d i = s.rd o d i := by
  unfold State.showOffset
  dsimp only
  split
  · exact State.rd_wr_apart h ..
  · exact State.rd_wr_apart h ..

theorem State.time_showOffset (s : State) (off : Int) : (s.showOffset off).time = { s.time with offset := off } := by
  unfold State.showOffset
  dsimp only
  split <;> rfl

end Sys2Proof.Machine
end

section
namespace Sys2Proof.Machine

/-- A command whose condition fails leaves the state. -/
theorem when_neg {p : Bool} (h : p = false) (s t : State) : when p s t = .next s := by
  rw [when, if_neg (Bool.eq_false_iff.mp h)]

/-! ### A record under a later one -/

/-- An event of Die C stays in the log when the next one follows it. -/
theorem State.reported_raiseC_raiseC {s u v : State} {c i p : Nat} (h : s.rdN Obj.evtGseqNext .c 0 ≤ u.rdN Obj.evtGseqNext .c 0)
    (hv : v.ramLog = (u.raise .c c i p).ramLog) (c' i' p' : Nat) : s.reported (v.raise .c c' i' p') .c c i p := by
  have hg : (u.takeDseq .c).rdN Obj.evtGseqNext .c 0 = u.rdN Obj.evtGseqNext .c 0 := State.rdN_wr_apart rfl ..
  have last : v.ramLog.getLast? = some { u.stamp .c c i p false with gseq := u.rdN Obj.evtGseqNext .c 0 } := by
    rw [hv, State.raise, State.raiseC, State.ramLog_logRecord, getLast?_keepNewest_concat (by decide), hg]
  exact ⟨_, State.mem_ramLog_raiseC last .., h, rfl, rfl, rfl⟩

/-! ### The reference inputs (R67, R68) -/

/-- What the 1PPS input's edges show: how many in a row, the last, and its qualification. -/
def State.ppsEdges (s : State) : Nat × Option Nat × Bool := (s.time.ppsRun, s.time.ppsLast, s.bit Obj.timeStatus .c 0 2)

section
variable (s : State)

theorem State.ppsEdges_of_rd {s t : State} (ht : t.time.inputs = s.time.inputs)
    (h : t.rd Obj.timeStatus .c 0 = s.rd Obj.timeStatus .c 0) : t.ppsEdges = s.ppsEdges := by
  simp only [TimeSt.inputs, Prod.mk.injEq] at ht
  obtain ⟨-, hr, hl, -⟩ := ht
  simp only [State.ppsEdges, hr, hl, State.bit_of_rd h]

theorem State.Serves.ppsEdges {s t : State} (h : s.Serves t) : t.ppsEdges = s.ppsEdges :=
  State.ppsEdges_of_rd h.inputs (h.rd Obj.timeStatus rfl ..)

theorem State.ppsEdges_wr {o : ObjDef} (h : o.apart Obj.timeStatus = true) (d : Die) (i : Nat) (v : Int) :
    (s.wr o d i v).ppsEdges = s.ppsEdges := State.ppsEdges_of_rd rfl (State.rd_wr_apart h ..)

theorem State.ppsEdges_raise (c i p : Nat) : (s.raise .c c i p).ppsEdges = s.ppsEdges :=
  State.ppsEdges_of_rd (by rw [State.time_raise]) (State.rd_raise rfl ..)

theorem State.ppsEdges_follow (off : Int) : ((s.onOffset off).showPtp).ppsEdges = s.ppsEdges :=
  (s.serves_onOffset off).showPtp.ppsEdges.trans
    (State.ppsEdges_of_rd (by rw [State.time_showOffset]; rfl) (State.rd_showOffset rfl ..))

theorem State.ppsEdges_gmSelect (a : Announce) : (s.gmSelect a).ppsEdges = s.ppsEdges := by
  have shown : ∀ u : State, (u.setBit Obj.timeStatus .c 0 0).ppsEdges = u.ppsEdges := fun u => by
    simp [State.ppsEdges, State.setBit, State.bit_putBit]
  unfold State.gmSelect
  split
  · dsimp only
    split
    · exact (State.ppsEdges_wr _ rfl ..).trans ((shown _).trans (State.ppsEdges_wr _ rfl ..))
    · exact (shown _).trans (State.ppsEdges_wr _ rfl ..)
  · dsimp only
    split
    · rfl
    · exact (State.ppsEdges_raise ..).trans ((State.ppsEdges_wr _ rfl ..).trans (State.ppsEdges_wr _ rfl ..))

theorem State.ppsEdges_ppsPhase (t : Nat) : (s.ppsPhase t).ppsEdges = s.ppsEdges := by
  have selected : ∀ u : State, (if u.time.gm.isNone then u.gmSelect u.ppsGm else u).ppsEdges = u.ppsEdges := fun u => by
    split
    · exact u.ppsEdges_gmSelect _
    · rfl
  unfold State.ppsPhase
  split
  · exact (State.ppsEdges_follow ..).trans (selected _)
  · split
    · rfl
    · exact (State.ppsEdges_follow ..).trans (selected _)

end

/-- The qualification of the 10 MHz input shows in bits 1 and 3 (R67). -/
theorem State.bit_showF10m (s : State) (ok : Bool) : (s.showF10m ok).bit Obj.timeStatus .c 0 1 = ok
    ∧ (s.showF10m ok).bit Obj.timeStatus .c 0 3 = (ok && s.rdN Obj.timeSource .c 0 != 0) := by
  have e : ∀ n, (s.showF10m ok).bit Obj.timeStatus .c 0 n = ((s.putBit Obj.timeStatus .c 0 1 ok).putBit Obj.timeStatus .c 0 3
    (ok && s.rdN Obj.timeSource .c 0 != 0)).bit Obj.timeStatus .c 0 n := fun _ => rfl
  simp [e, State.bit_putBit]

theorem State.f10mLost_effect (s : State) (cause : Nat) : (s.f10mLost cause).bit Obj.timeStatus .c 0 1 = false
    ∧ (s.f10mLost cause).bit Obj.timeStatus .c 0 3 = false ∧ (s.f10mLost cause).bit Obj.timeSticky .c 0 2 = true
    ∧ s.reported (s.f10mLost cause) .c 0x1207 0 (p16 [cause]) := by
  obtain ⟨h1, h3⟩ := s.bit_showF10m false
  unfold State.f10mLost
  refine ⟨?_, ?_, by rw [State.bit_raise rfl, State.bit_setBit_same], State.reported_raiseC (Nat.le_of_eq ?_) ..⟩
  · rw [State.bit_raise rfl, State.bit_of_rd (State.rd_setBit_apart rfl ..), h1]
  · rw [State.bit_raise rfl, State.bit_of_rd (State.rd_setBit_apart rfl ..), h3, Bool.false_and]
  · rw [State.rdN_setBit_apart rfl]
    exact ((State.rdN_wr_apart rfl ..).trans (State.rdN_wr_apart rfl ..)).symm

/-- An edge one second after the last (R68). -/
theorem execPpsEdge_effect {s : State} {t l : Nat} (hup : s.up .c = true) (hl : s.time.ppsLast = some l)
    (hlo : l + nsPerSec ≤ t + 1000) (hhi : t ≤ l + nsPerSec + 1000) :
    ∃ u, execPpsEdge t s = .next u ∧ u.time.ppsRun = s.time.ppsRun + 1 ∧ u.time.ppsLast = some t
      ∧ (2 ≤ s.time.ppsRun → u.bit Obj.timeStatus .c 0 2 = true)
      ∧ (s.rdN Obj.timeSource .c 0 ≠ 2 → 1000 < ((t : Int) - nearestSecond t).natAbs →
          u.bit Obj.timeSticky .c 0 4 = true ∧ s.reported u .c 0x1209 0 (payloadOf [(32, (t : Int) - nearestSecond t)])) := by
  refine ⟨_, when_pos hup _ _, ?_⟩
  extract_lets near n s1 s2 diff
  have hn : n = s.time.ppsRun + 1 := by simp [n, near, hl, hlo, hhi]
  have edges : ∀ u : State, u.ppsEdges = s2.ppsEdges → u.time.ppsRun = s.time.ppsRun + 1 ∧ u.time.ppsLast = some t
      ∧ (2 ≤ s.time.ppsRun → u.bit Obj.timeStatus .c 0 2 = true) := by
    intro u h
    simp only [State.ppsEdges, Prod.mk.injEq] at h
    obtain ⟨hr, hl, hb⟩ := h
    have time : s2.time = s1.time := by unfold s2; split <;> rfl
    refine ⟨by rw [hr, time]; exact hn, by rw [hl, time]; rfl, fun h2 => ?_⟩
    rw [hb, show s2 = s1.setBit Obj.timeStatus .c 0 2 from if_pos (by omega), State.bit_setBit_same]
  have other : ∀ o : ObjDef, Obj.timeStatus.apart o = true → ∀ d i, s2.rdN o d i = s.rdN o d i := by
    intro o ho d i
    unfold s2
    split
    · exact State.rdN_wr_apart ho ..
    · rfl
  have src : s2.rdN Obj.timeSource .c 0 = s.rdN Obj.timeSource .c 0 := other _ rfl ..
  split
  · next h2 =>
    have e : (if s2.bit Obj.timeStatus .c 0 2 then s2.ppsPhase t else s2).ppsEdges = s2.ppsEdges := by
      split
      · exact s2.ppsEdges_ppsPhase t
      · rfl
    obtain ⟨hr, hl, hb⟩ := edges _ e
    exact ⟨hr, hl, hb, fun h => absurd (src.symm.trans h2) h⟩
  · split
    · obtain ⟨hr, hl, hb⟩ := edges ((s2.setBit Obj.timeSticky .c 0 4).raise .c 0x1209 0 (payloadOf [(32, diff)]))
        ((State.ppsEdges_raise ..).trans (State.ppsEdges_wr _ rfl ..))
      refine ⟨hr, hl, hb, fun _ _ => ⟨by rw [State.bit_raise rfl, State.bit_setBit_same],
        State.reported_raiseC (Nat.le_of_eq ?_) ..⟩⟩
      rw [State.rdN_setBit_apart rfl, other _ rfl]
    · next small =>
      obtain ⟨hr, hl, hb⟩ := edges s2 rfl
      exact ⟨hr, hl, hb, fun _ h => absurd h small⟩

/-- The loss of a grandmaster leaves STICKY's other bits, the 1PPS edges and the events before it. -/
theorem State.gmLost_leaves (s : State) (cause : Nat) : (s.gmLost cause).ppsEdges = s.ppsEdges
    ∧ (∀ n, s.bit Obj.timeSticky .c 0 n = true → (s.gmLost cause).bit Obj.timeSticky .c 0 n = true)
    ∧ ((s.gmLost cause).ramLog = s.ramLog
      ∨ ∃ u : State, u.ramLog = s.ramLog ∧ s.gmLost cause = u.raise .c 0x1202 0 (p16 [cause])) := by
  have cleared : ∀ u : State, (u.clrBit Obj.timeStatus .c 0 0).ppsEdges = u.ppsEdges := fun u => by
    simp [State.ppsEdges, State.clrBit, State.bit_putBit]
  unfold State.gmLost
  extract_lets s1 s2
  have e2 : s2.ppsEdges = s.ppsEdges := cleared s1
  have b2 : ∀ n, s2.bit Obj.timeSticky .c 0 n = s.bit Obj.timeSticky .c 0 n := fun _ => State.bit_wr_apart rfl ..
  split
  · exact ⟨e2, fun n h => (b2 n).trans h, .inl rfl⟩
  · split
    · exact ⟨(State.ppsEdges_wr _ rfl ..).trans e2, fun n h => (State.bit_wr_apart rfl ..).trans ((b2 n).trans h), .inl rfl⟩
    · refine ⟨(State.ppsEdges_raise ..).trans ((State.ppsEdges_wr _ rfl ..).trans ((State.ppsEdges_wr _ rfl ..).trans e2)),
        fun n h => ?_, .inr ⟨((s2.updTime (fun t => { t with holdSince := t.base })).setServo 3).setBit Obj.timeSticky .c 0 0,
          rfl, rfl⟩⟩
      rw [State.bit_raise rfl, State.setBit, State.bit_putBit]
      split
      · rfl
      · exact (State.bit_wr_apart rfl ..).trans ((b2 n).trans h)

/-- The ports' states are shown in PTP.PORT.STATE alone. -/
theorem State.showPtp_leaves {β : Type _} (part : State → β) (s : State)
    (h : ∀ u i v, part (u.wr Obj.ptpPortState .c i v) = part u := by intros; rfl) : part s.showPtp = part s :=
  foldl_leaves part (fun _ _ => h ..) ..

theorem State.rd_showPtp {o : ObjDef} (h : Obj.ptpPortState.apart o = true) (s : State) (d : Die) (i : Nat) :
    s.showPtp.rd o d i = s.rd o d i :=
  State.showPtp_leaves (·.rd o d i) s fun _ _ _ => State.rd_wr_apart h ..

theorem State.servo_showPtp (s : State) : s.showPtp.servo = s.servo := by
  rw [State.servo, State.rdN, State.rd_showPtp rfl]
  rfl

theorem State.bit_showPtp {o : ObjDef} (h : Obj.ptpPortState.apart o = true) (s : State) (d : Die) (i n : Nat) :
    s.showPtp.bit o d i n = s.bit o d i n := State.bit_of_rd (State.rd_showPtp h ..) n

theorem State.time_showPtp (s : State) : s.showPtp.time = s.time := State.showPtp_leaves (·.time) s

/-- The loss of the 1PPS input (R68). -/
theorem execPpsLossTimeout_effect {s : State} (hup : s.up .c = true) (hb : s.bit Obj.timeStatus .c 0 2 = true) :
    ∃ t, execPpsLossTimeout s = .next t ∧ t.bit Obj.timeStatus .c 0 2 = false ∧ t.bit Obj.timeSticky .c 0 3 = true
      ∧ t.time.ppsRun = 0 ∧ s.reported t .c 0x1208 0 0 := by
  refine ⟨_, when_pos (by simp [hup, hb]) _ _, ?_⟩
  extract_lets s1 s2
  have le : s.rdN Obj.evtGseqNext .c 0 ≤ (s1.setBit Obj.timeSticky .c 0 3).rdN Obj.evtGseqNext .c 0 := by
    rw [State.rdN_setBit_apart rfl]
    exact Nat.le_of_eq (State.rdN_wr_apart rfl ..).symm
  have e2 : s2.ppsEdges = (0, none, false) := by
    refine (State.ppsEdges_raise ..).trans ((State.ppsEdges_wr _ rfl ..).trans ?_)
    simp [State.ppsEdges, s1, State.clrBit, State.bit_putBit, State.updTime]
  have b2 : s2.bit Obj.timeSticky .c 0 3 = true := by rw [State.bit_raise rfl, State.bit_setBit_same]
  have r2 : s.reported s2 .c 0x1208 0 0 := State.reported_raiseC le ..
  have done : ∀ u : State, u.ppsEdges = s2.ppsEdges → u.bit Obj.timeSticky .c 0 3 = true → s.reported u .c 0x1208 0 0 →
      u.bit Obj.timeStatus .c 0 2 = false ∧ u.bit Obj.timeSticky .c 0 3 = true ∧ u.time.ppsRun = 0 ∧ s.reported u .c 0x1208 0 0 := by
    intro u h hs hr
    rw [e2] at h
    simp only [State.ppsEdges, Prod.mk.injEq] at h
    obtain ⟨run, -, bit⟩ := h
    exact ⟨bit, hs, run, hr⟩
  split
  · obtain ⟨edges, sticky, raised⟩ := s2.gmLost_leaves 4
    refine done _ ?_ ?_ (State.reportedC_of_ramLog (State.showPtp_leaves (·.ramLog) _) ?_)
    · exact (State.showPtp_leaves (·.ppsEdges) _ fun u i v => u.ppsEdges_wr rfl ..).trans edges
    · exact (State.bit_showPtp rfl ..).trans (sticky 3 b2)
    · obtain same | ⟨u, hu, e⟩ := raised
      · exact State.reportedC_of_ramLog same r2
      · rw [e]
        exact State.reported_raiseC_raiseC le hu ..
  · exact done s2 rfl b2 r2

/-! ### Steering, the pulse and the fabric (R59, R69, R436) -/

theorem execMediaDieSteering_effect {s : State} {d : MDie} {err rest : Int} (hr : s.reachable d = true)
    (he : rest = slewTake (s.rdN Obj.timeSlewMax .c 0) (s.md d).time.slew) :
    ∃ t, execMediaDieSteering d err s = .next t ∧ (t.md d).time.slew = rest
      ∧ t.now d.pdie = ((s.time.base : Int) + rest / 80 + err).toNat
      ∧ (2 < err.natAbs → rest = 0 → s.reported t .c 0x120A d.num (p16 [d.num, err]))
      ∧ ((err.natAbs ≤ 2 ∨ rest ≠ 0) → t.ramLog = s.ramLog) := by
  subst he
  refine ⟨_, when_pos hr _ _, ?_⟩
  extract_lets rest s1
  have now : ∀ t : State, t.now d.pdie = (t.md d).time.ctr := by intro; cases d <;> rfl
  have time : (s1.md d).time = { (s.md d).time with slew := rest, ctr := ((s.time.base : Int) + rest / 80 + err).toNat } := by
    simp only [s1, State.updDieTime, State.md_updMd]
  have gseq : s1.rdN Obj.evtGseqNext .c 0 = s.rdN Obj.evtGseqNext .c 0 := by
    simp only [s1, State.updDieTime, State.rdN, State.rd_updMd]
  rw [now]
  split
  · next h =>
    rw [State.md_raiseC, time]
    exact ⟨rfl, rfl, fun _ _ => State.reported_raiseC (Nat.le_of_eq gseq.symm) .., fun k => by omega⟩
  · next h =>
    rw [time]
    exact ⟨rfl, rfl, fun h1 h2 => absurd ⟨h1, h2⟩ h, fun _ => by cases d <;> rfl⟩

/-- The pulse of a whole second (R69). -/
theorem execPpsOutputSecond_effect {s : State} (hup : s.up .c = true) (hs : 2 ≤ s.servo) (hlate : s.time.base % nsPerSec ≤ 100000)
    (hnew : s.time.ppsoDriven = false ∨ s.time.base / nsPerSec ≠ s.time.ppsoSecond) :
    ∃ t, execPpsOutputSecond s = .next t ∧ t.sent = s.sent ++ [.pps (s.time.base / nsPerSec)] ∧ t.objs = s.objs
      ∧ t.time.ppsoSecond = s.time.base / nsPerSec ∧ t.ppsoHigh = true := by
  refine ⟨_, when_pos ?_ _ _, rfl, rfl, rfl, ?_⟩
  · rcases hnew with h | h <;> simp [hup, hs, hlate, h]
  · have second : s.time.base / nsPerSec * nsPerSec ≤ s.time.base ∧ s.time.base < s.time.base / nsPerSec * nsPerSec + 100000000 := by
      unfold nsPerSec at hlate ⊢
      omega
    have up : ∀ u : State, u.powerC = s.powerC → u.up .c = true := fun u h => by rw [State.up, State.power, h]; exact hup
    simp only [State.ppsoHigh, Bool.and_eq_true, decide_eq_true_eq]
    exact ⟨⟨⟨⟨up _ rfl, hs⟩, rfl⟩, second.1⟩, second.2⟩

theorem State.ppsOutput_low {s : State} (h : s.servo < 2) : s.ppsoHigh = false ∧ execPpsOutputSecond s = .next s := by
  have low : ¬ 2 ≤ s.servo := Nat.not_le.mpr h
  exact ⟨by simp [State.ppsoHigh, low], when_neg (by simp [low]) _ _⟩

/-- The offset of a SYNC from the link toward the root (R436). -/
theorem State.twillOffset_effect (s : State) (off : Int) : (s.twillOffset off).bit Obj.twlStatus .p 0 4 = decide (1000 < off.natAbs)
    ∧ (s.twillOffset off).twill.offRun = (if off.natAbs ≤ 1000 then 0 else s.twill.offRun + 1)
    ∧ (1000 < off.natAbs → s.twill.offRun = 7 → (s.twillOffset off).bit Obj.twlSticky .p 0 6 = true
      ∧ s.reported (s.twillOffset off) .c 0x330B 0 (payloadOf [(16, (s.twlId : Int)), (32, off)])) := by
  unfold State.twillOffset
  split
  · next h =>
    exact ⟨by rw [State.bit_clrBit_same, decide_eq_false (Nat.not_lt.mpr h)], rfl, fun k => absurd h (Nat.not_le.mpr k)⟩
  · next h =>
    have far : decide (1000 < off.natAbs) = true := decide_eq_true (Nat.not_le.mp h)
    rw [far]
    dsimp only
    have id : ((s.updTwill (fun t => { t with offRun := s.twill.offRun + 1 })).setBit Obj.twlStatus .p 0 4).twlId = s.twlId :=
      State.rdN_setBit_apart rfl ..
    split
    · refine ⟨?_, ?_, fun _ _ => ⟨by rw [State.bit_raise rfl, State.bit_setBit_same], ?_⟩⟩
      · rw [State.bit_raise rfl, State.bit_of_rd (State.rd_setBit_apart rfl ..), State.bit_setBit_same]
      · simp [State.updTwill]
      · rw [id]
        refine State.reported_raiseC (Nat.le_of_eq ?_) ..
        rw [State.rdN_setBit_apart rfl, State.rdN_setBit_apart rfl]
        rfl
    · next k => exact ⟨State.bit_setBit_same .., rfl, fun _ e => absurd (congrArg (· + 1) e) k⟩

/-- A SYNC counts on the link toward the root alone (R436). -/
theorem execTwillSyncReceived_effect {s : State} {d : MDie} {q : Fin 8} {m : TwlMsg} {secs ns st h : Nat} {off : Int}
    (hm : m.body = .sync secs ns st h) (hlive : s.twlLive d q = true) (hown : s.timeFromTwill = false)
    (ho : off = (s.time.base : Int) - (secs * nsPerSec + ns + s.rdN Obj.twlLinkDelay d.die q : Nat)) :
    execTwillSyncReceived d q m s = .next (if s.rootLink = some (d, q.val) then s.twillOffset off else s) := by
  have mode : (s.twillOffset off).timeFromTwill = false := by
    have e : (s.twillOffset off).timeFromTwill = s.timeFromTwill := by
      unfold State.twillOffset
      split
      · simp only [State.timeFromTwill, State.clrBit, State.putBit]
        rw [State.rdN_wr_apart rfl, State.rdN_wr_apart rfl]
        rfl
      · dsimp only
        split
        · simp only [State.timeFromTwill, State.rdN_raise (show Obj.twlEnable.quiet = true from rfl),
            State.rdN_raise (show Obj.twlTimeMode.quiet = true from rfl)]
          rw [State.rdN_setBit_apart rfl, State.rdN_setBit_apart rfl, State.rdN_setBit_apart rfl, State.rdN_setBit_apart rfl]
          rfl
        · simp only [State.timeFromTwill]
          rw [State.rdN_setBit_apart rfl, State.rdN_setBit_apart rfl]
          rfl
    rw [e, hown]
  unfold execTwillSyncReceived
  rw [hm]
  dsimp only
  rw [← ho, if_neg (by simp [mode])]
  by_cases hroot : s.rootLink = some (d, q.val)
  · rw [if_pos hroot, when_pos (by simp [hlive, hroot])]
  · rw [if_neg hroot, when_neg (by simp [hroot])]

theorem TimeSt.base_stepped (t : TimeSt) (off : Int) : (t.stepped (-off)).base = max timeFloor ((t.base : Int) - off).toNat := by
  rw [TimeSt.stepped, Int.sub_eq_add_neg]

/-- What a step that is answered OK shows. -/
theorem State.stepped_ans {s u : State} {off : Int}
    (h : u.servo = 1 ∧ u.time = s.time.stepped (-off) ∧ u.bit Obj.timeSticky .c 0 1 = true) :
    (u.ans .ok).answer = .ok ∧ (u.ans .ok).servo = 1 ∧ (u.ans .ok).bit Obj.timeSticky .c 0 1 = true
      ∧ (u.ans .ok).time.base = max timeFloor ((s.time.base : Int) - off).toNat := by
  obtain ⟨servo, time, sticky⟩ := h
  refine ⟨rfl, servo, sticky, ?_⟩
  rw [← TimeSt.base_stepped, ← time]
  rfl

/-- TIME_STEP_REQUEST in STEP-PENDING (R62). -/
theorem execTimeStepRequest_pending {s : State} (hup : s.serverUp = true) (h : s.servo = 5) :
    execTimeStepRequest s = .next ((s.stepTime (-s.time.offset)).ans .ok) := by
  rw [execTimeStepRequest, when_pos hup, if_pos h]

/-- TIME_PPS_SECONDS_SET under TIME.SOURCE 2 (R63, R68). -/
theorem execTimePpsSecondsSet_eq {s : State} (hup : s.serverUp = true) (v : Nat) : execTimePpsSecondsSet v s =
    .next (if s.rdN Obj.timeSource .c 0 ≠ 2 then s.ans .access else if v < 1000000 ∨ 2 ^ 48 ≤ v then s.ans .range
      else (s.updTime (fun t => { t with ppsSet := some v })).ans .ok) := by
  rw [execTimePpsSecondsSet, when_pos hup]

/-- Settles O41: a step by `stepTime_effect`, the inputs by what an edge or a loss leaves of the 1PPS edges and the log. -/
theorem timeStepsSteeringAndReferenceInputs : Obligations.TimeStepsSteeringAndReferenceInputs := by
  unfold Obligations.TimeStepsSteeringAndReferenceInputs
  refine ⟨fun s hup => ⟨fun h => ?_, fun h => ?_⟩, fun s d err rest hr he => execMediaDieSteering_effect hr he,
    fun s hup => ⟨fun hb => ⟨_, when_pos (by simp [hup, hb]) _ _, s.f10mLost_effect 1⟩, fun hb => when_neg (by simp [hb]) _ _,
      fun hb => ⟨s.showF10m true, ?_, ?_⟩, fun hb complete => ⟨s.f10mLost 2, ?_, ?_⟩⟩,
    fun s t l hup hl hlo hhi => execPpsEdge_effect hup hl hlo hhi, fun s hup hb => execPpsLossTimeout_effect hup hb,
    fun s v hup => ⟨fun h => (execTimePpsSecondsSet_eq hup v).trans (by rw [if_pos h]), fun h hv => ?_, fun h hlo hhi => ?_⟩,
    fun s hup hs hlate hnew => execPpsOutputSecond_effect hup hs hlate hnew, fun s h => State.ppsOutput_low h,
    fun s d q src dst hops gen secs ns st h off hlive hown ho => ⟨fun hr => ?_, fun hr => ?_⟩⟩
  · exact (when_pos hup _ _).trans (congrArg _ (if_neg h))
  · exact ⟨_, execTimeStepRequest_pending hup h, State.stepped_ans (s.stepTime_effect _)⟩
  · simp [execF10mMeasurement, hb, hup, when, exec]
  · obtain ⟨h1, h3⟩ := s.bit_showF10m true
    refine ⟨h1, h3.trans ?_⟩
    by_cases h0 : s.rdN Obj.timeSource .c 0 = 0 <;> simp [h0]
  · simp [exec, execF10mMeasurement, hb, hup, when]
  · obtain ⟨h1, -, -, h4⟩ := s.f10mLost_effect 2
    exact ⟨h1, h4⟩
  · exact (execTimePpsSecondsSet_eq hup v).trans (by rw [if_neg (not_not.mpr h), if_pos hv])
  · refine ⟨(s.updTime (fun t => { t with ppsSet := some v })).ans .ok, (execTimePpsSecondsSet_eq hup v).trans ?_, rfl, rfl, rfl⟩
    rw [if_neg (not_not.mpr h), if_neg (by omega)]
  · refine (execTwillSyncReceived_effect (m := ⟨src, dst, hops, gen, .sync secs ns st h⟩) rfl hlive hown ho).trans ?_
    rw [if_neg hr]
  · refine ⟨s.twillOffset off, ?_, s.twillOffset_effect off⟩
    refine (execTwillSyncReceived_effect (m := ⟨src, dst, hops, gen, .sync secs ns st h⟩) rfl hlive hown ho).trans ?_
    rw [if_pos hr]

end Sys2Proof.Machine
end

section
namespace Sys2Proof.Machine

/-! ### An offset beyond the threshold (R62) -/

theorem State.mode_of_rd {s t : State} (h : t.rd Obj.modeState .p 0 = s.rd Obj.modeState .p 0) : t.mode = s.mode := by
  simp only [State.mode, State.rdN, h]

theorem State.servo_of_rd {s t : State} (h : t.rd Obj.timeState .c 0 = s.rd Obj.timeState .c 0) : t.servo = s.servo := by
  simp only [State.servo, State.rdN, h]

/-- An offset beyond TIME.STEP.THRESHOLD, once a grandmaster was selected, is met as `bigOffset` says (R62). -/
theorem State.onOffset_big {s : State} {off : Int} (h1 : 1 ≤ s.servo) (h5 : s.servo ≤ 5)
    (hbig : s.rdN Obj.timeStepThreshold .c 0 < off.natAbs) :
    ∃ w : State, s.onOffset off = w.bigOffset off ∧ w.servo = s.servo ∧ w.mode = s.mode ∧ w.time.base = s.time.base := by
  unfold State.onOffset
  extract_lets u big fresh v w x
  have hv : big = true := by
    refine decide_eq_true ?_
    simpa only [u, State.rdN, State.rd_showOffset (o := Obj.timeStepThreshold) rfl] using hbig
  have servo : v.servo = s.servo := State.servo_of_rd (State.rd_showOffset rfl ..)
  have mode : v.mode = s.mode := State.mode_of_rd (State.rd_showOffset rfl ..)
  have base : v.time.base = s.time.base := by
    change (s.showOffset off).time.base = _
    rw [State.time_showOffset]
  clear_value big v
  simp only [hv, if_true]
  split
  case h_3 =>
    refine ⟨x, rfl, (State.servo_of_rd ?_).trans servo, (State.mode_of_rd ?_).trans mode, ?_⟩
    · exact (State.rd_raise rfl ..).trans (State.rd_wr_apart rfl ..)
    · exact (State.rd_raise rfl ..).trans (State.rd_wr_apart rfl ..)
    · rw [State.time_raise]
      exact base
  case h_6 _ n1 n2 n3 n4 n5 =>
    rw [servo] at n1 n2 n3 n4 n5
    obtain h | h | h | h | h : s.servo = 1 ∨ s.servo = 2 ∨ s.servo = 3 ∨ s.servo = 4 ∨ s.servo = 5 := by omega
    exacts [(n1 h).elim, (n2 h).elim, (n3 h).elim, (n4 h).elim, (n5 h).elim]
  all_goals exact ⟨v, rfl, servo, mode, base⟩

/-- Where a mode steps at once the time base is stepped; else the offset waits in STEP-PENDING. -/
theorem State.bigOffset_effect (s : State) (off : Int) :
    (s.mode.stepsAtOnce = true → (s.bigOffset off).servo = 1 ∧ (s.bigOffset off).time = s.time.stepped (-off)
      ∧ (s.bigOffset off).bit Obj.timeSticky .c 0 1 = true)
    ∧ (s.mode.stepsAtOnce = false → (s.bigOffset off).servo = 5 ∧ (s.bigOffset off).time = s.time) := by
  unfold State.bigOffset
  refine ⟨fun h => ?_, fun h => ?_⟩
  · rw [if_pos h]
    exact s.stepTime_effect (-off)
  · rw [if_neg (Bool.eq_false_iff.mp h)]
    split
    · next pending => exact ⟨pending, rfl⟩
    · exact ⟨(State.servo_of_rd (State.rd_raise rfl ..)).trans (State.servo_setServo ..), State.time_raise ..⟩

/-! ### Sync (R60, R61) -/

section
variable (s : State) (p origin rx : Nat)

/-- The state in which a Sync's offset is taken. -/
def State.withDiff : State := s.updTime (fun t => { t with syncDiff := tabSet t.syncDiff p ((rx : Int) - origin) })

theorem State.syncOffset_eq : s.syncOffset p origin rx
    = ((s.withDiff p origin rx).onOffset ((rx : Int) - origin - s.time.pathDelay)).showPtp := rfl

/-- What a Sync's offset leaves, and TIME.OFFSET (R61). -/
theorem State.syncOffset_shows : (s.syncOffset p origin rx).time.inputs = s.time.inputs
    ∧ (-(2 ^ 47) ≤ (rx : Int) - origin - s.time.pathDelay ∧ (rx : Int) - origin - s.time.pathDelay < 2 ^ 47 →
      (s.syncOffset p origin rx).rd Obj.timeOffset .c 0 = ((rx : Int) - origin - s.time.pathDelay) * 65536) := by
  rw [State.syncOffset_eq]
  obtain ⟨inputs, shown⟩ := ((s.withDiff p origin rx).serves_onOffset ((rx : Int) - origin - s.time.pathDelay)).showPtp
  refine ⟨inputs.trans ?_, fun h => (shown Obj.timeOffset rfl ..).trans (State.timeOffset_showOffset h)⟩
  rw [State.time_showOffset]
  rfl

/-- A Sync whose offset lies beyond the threshold (R62). -/
theorem State.syncOffset_big {off : Int} (ho : off = (rx : Int) - origin - s.time.pathDelay) (h1 : 1 ≤ s.servo) (h5 : s.servo ≤ 5)
    (hbig : s.rdN Obj.timeStepThreshold .c 0 < off.natAbs) :
    (s.mode.stepsAtOnce = true → (s.syncOffset p origin rx).servo = 1
      ∧ (s.syncOffset p origin rx).time.base = max timeFloor ((s.time.base : Int) - off).toNat
      ∧ (s.syncOffset p origin rx).bit Obj.timeSticky .c 0 1 = true)
    ∧ (s.mode.stepsAtOnce = false →
      (s.syncOffset p origin rx).servo = 5 ∧ (s.syncOffset p origin rx).time.base = s.time.base) := by
  obtain ⟨w, e, -, mode, base⟩ : ∃ w : State, (s.withDiff p origin rx).onOffset off = w.bigOffset off ∧ w.servo = s.servo
      ∧ w.mode = s.mode ∧ w.time.base = s.time.base := State.onOffset_big (s := s.withDiff p origin rx) h1 h5 hbig
  rw [State.syncOffset_eq, ← ho, e, State.servo_showPtp, State.time_showPtp, State.bit_showPtp (o := Obj.timeSticky) rfl, ← mode]
  obtain ⟨steps, pends⟩ := w.bigOffset_effect off
  refine ⟨fun h => ?_, fun h => ?_⟩
  · obtain ⟨servo, time, sticky⟩ := steps h
    exact ⟨servo, by rw [time, TimeSt.base_stepped, base], sticky⟩
  · obtain ⟨servo, time⟩ := pends h
    exact ⟨servo, by rw [time, base]⟩

end

/-- An offset of a one-step Sync (R60). -/
theorem execPtpSyncReceived_one {s : State} {p : Fin 8} {h : PtpHeader} (hc : s.ptpCounted p h = false) (hf : s.ptpFrom p h = true)
    (rx origin : Nat) : execPtpSyncReceived p h rx (some origin) s = .next (s.syncOffset p origin rx) := by
  unfold execPtpSyncReceived
  dsimp only
  rw [hc, if_neg Bool.false_ne_true, when_pos hf]

theorem execPtpSyncReceived_two {s : State} {p : Fin 8} {h : PtpHeader} (hc : s.ptpCounted p h = false) (hf : s.ptpFrom p h = true)
    (rx : Nat) : execPtpSyncReceived p h rx none s
      = .next (s.updTime (fun t => { t with syncWait := tabSet t.syncWait p (h.seq, rx) })) := by
  unfold execPtpSyncReceived
  dsimp only
  rw [hc, if_neg Bool.false_ne_true, when_pos hf]

theorem execPtpFollowUpReceived_eq {s : State} {p : Fin 8} {h : PtpHeader} {rx : Nat} (hc : s.ptpCounted p h = false)
    (hf : s.ptpFrom p h = true) (hw : s.time.syncWait.find? (fun e => e.1 == p.val) = some (p.val, h.seq, rx)) (origin : Nat) :
    execPtpFollowUpReceived p h origin s
      = .next ((s.updTime (fun t => { t with syncWait := tabDel t.syncWait p })).syncOffset p origin rx) := by
  unfold execPtpFollowUpReceived
  dsimp only
  rw [hc, if_neg Bool.false_ne_true, hw]
  exact when_pos (by simp [hf]) _ _

theorem execPtpDelayRespReceived_eq {s : State} {p : Fin 8} {h : PtpHeader} {tx : Nat} {diff : Int} (hc : s.ptpCounted p h = false)
    (hf : s.ptpFrom p h = true) (hw : s.time.reqWait.find? (fun e => e.1 == p.val) = some (p.val, h.seq, tx))
    (hd : s.time.syncDiff.find? (fun e => e.1 == p.val) = some (p.val, diff)) (rx : Nat) :
    execPtpDelayRespReceived p h rx s
      = .next (s.updTime (fun t => { t with reqWait := tabDel t.reqWait p, pathDelay := (diff + ((rx : Int) - tx)) / 2 })) := by
  unfold execPtpDelayRespReceived
  dsimp only
  rw [hc, if_neg Bool.false_ne_true, hw, hd]
  exact when_pos (by simp [hf]) _ _

/-! ### Announce (R61, R63) -/

theorem State.ptpUsed_of_slave {s : State} {p : Nat} (h : s.ptpSlave p = true) : s.ptpUsed p = true := by
  rw [State.ptpSlave, Bool.and_eq_true] at h
  exact h.1

/-- What an Announce does on a port that follows grandmasters. -/
theorem execPtpAnnounceReceived_unsupported {s : State} {p : Fin 8} {h : PtpHeader} (hc : s.ptpClient = true) (hp : s.ptpSlave p = true)
    (hs : h.supported = false) (a : Announce) (tlv : Option (List Byte)) :
    execPtpAnnounceReceived p h a tlv s = .next s.ptpDiscard :=
  if_pos (by simp [hc, State.ptpUsed_of_slave hp, hs])

/-- The first grandmaster known is selected (R61). -/
theorem execPtpAnnounceReceived_first {s : State} {p : Fin 8} {h : PtpHeader} {a : Announce} (hc : s.ptpClient = true)
    (hp : s.ptpSlave p = true) (hs : h.supported = true) (hd : (h.domain : Int) = s.rd Obj.ptpDomain .c 0) (ha : 1000000 ≤ a.secs)
    (hg : s.time.gm = none) (hn : s.time.candidates = []) (h0 : s.servo = 0) (tlv : Option (List Byte)) :
    ∃ t, execPtpAnnounceReceived p h a tlv s = .next t ∧ t.time.gm = some a ∧ t.servo = 1
      ∧ t.rd Obj.ptpGmIdentity .c 0 = (a.identity : Nat) ∧ t.bit Obj.timeStatus .c 0 0 = true := by
  refine ⟨_, (if_neg (by simp [hs])).trans (when_pos (by simp [hc, hp]) _ _), ?_⟩
  rw [if_neg (not_not.mpr hd), if_neg (Nat.not_lt.mpr ha)]
  extract_lets s1 s2
  have same : s1.time = s.time ∧ s1.servo = s.servo := by
    unfold s1
    split
    · exact ⟨rfl, rfl⟩
    · exact ⟨rfl, rfl⟩
  obtain ⟨time, servo⟩ := same
  have known : s2.time.candidates = [a] := by
    change s1.time.candidates.filter _ ++ [a] = [a]
    rw [time, hn]
    rfl
  have first : s2.time.gm = none := (congrArg TimeSt.gm time).trans hg
  have free : s2.servo = 0 := servo.trans h0
  clear_value s2
  have chosen : s2.bmca 3 = s2.gmSelect a := by
    rw [State.bmca, known]
    rfl
  have select : s2.gmSelect a = (((s2.updTime (fun t => { t with gm := some a, goodRun := 0, newGm := true })).wr
      Obj.ptpGmIdentity .c 0 (a.identity : Nat)).setBit Obj.timeStatus .c 0 0).setServo 1 := by
    unfold State.gmSelect
    rw [first]
    refine if_pos ?_
    simp only [State.servo, State.rdN_setBit_apart (o := Obj.timeStatus) (p := Obj.timeState) rfl,
      State.rdN_wr_apart (o := Obj.ptpGmIdentity) (p := Obj.timeState) rfl]
    exact free
  rw [chosen, select, State.servo_showPtp, State.time_showPtp, State.bit_showPtp (o := Obj.timeStatus) rfl,
    State.rd_showPtp (o := Obj.ptpGmIdentity) rfl]
  refine ⟨rfl, State.servo_setServo .., ?_, ?_⟩
  · rw [State.setServo, State.rd_wr_apart rfl, State.rd_setBit_apart rfl, State.rd_wr_same]
  · rw [State.setServo, State.bit_wr_apart rfl, State.bit_setBit_same]

/-- One below 1,000,000 s is counted, reported and not selected (R63). -/
theorem execPtpAnnounceReceived_low {s : State} {p : Fin 8} {h : PtpHeader} {a : Announce} (hc : s.ptpClient = true)
    (hp : s.ptpSlave p = true) (hs : h.supported = true) (hd : (h.domain : Int) = s.rd Obj.ptpDomain .c 0) (ha : a.secs < 1000000)
    (hg : s.time.gm = none) (hn : a.identity ∉ s.time.lowReported) (tlv : Option (List Byte)) :
    ∃ t, execPtpAnnounceReceived p h a tlv s = .next t ∧ t.time.gm = none
      ∧ t.rdN Obj.timeCount .c 0 = min (s.rdN Obj.timeCount .c 0 + 1) Obj.timeCount.ty.maxVal ∧ t.servo = s.servo
      ∧ s.reported t .c 0x120B 0 (payloadOf [(64, (a.identity : Int))]) ∧ a.identity ∈ t.time.lowReported := by
  refine ⟨_, (if_neg (by simp [hs])).trans (when_pos (by simp [hc, hp]) _ _), ?_⟩
  rw [if_neg (not_not.mpr hd), if_pos ha]
  extract_lets s1 told s2 s3
  have new : told = false := decide_eq_false hn
  have e3 : s3 = s2.raise .c 0x120B 0 (payloadOf [(64, a.identity)]) := if_neg (by simp [new])
  have time : s3.time = s2.time := by rw [e3, State.time_raise]
  have none : s3.time.gm = none := by
    rw [time]
    exact hg
  have listed : s3.time.lowReported = s.time.lowReported ++ [a.identity] := by
    rw [time]
    exact if_neg (by simp [new])
  have gseq : s2.rdN Obj.evtGseqNext .c 0 = s.rdN Obj.evtGseqNext .c 0 := State.rdN_wr_apart rfl ..
  have count : s2.rdN Obj.timeCount .c 0 = min (s.rdN Obj.timeCount .c 0 + 1) Obj.timeCount.ty.maxVal := State.rdN_bump_same ..
  have servo : s2.servo = s.servo := State.rdN_wr_apart rfl ..
  clear_value s2 s3
  rw [none, Option.any_none, if_neg Bool.false_ne_true]
  refine ⟨none, ?_, ?_, ?_, by rw [listed]; simp⟩
  · rw [e3, State.rdN_raise rfl, count]
  · rw [e3, ← servo]
    exact State.servo_of_rd (State.rd_raise rfl ..)
  · rw [e3]
    exact State.reported_raiseC (Nat.le_of_eq gseq.symm) ..

/-! ### The loss of a grandmaster (R61) -/

/-- The only grandmaster is lost in LOCKED: HOLDOVER. -/
theorem State.onlyGm_lost {s : State} {g : Announce} (hg : s.time.gm = some g)
    (hn : ∀ c ∈ s.time.candidates, c.identity = g.identity) (h2 : s.servo = 2) {cause : Nat} :
    let t := ((s.dropGm.gmLost cause).bmca cause).showPtp
    t.time.gm = none ∧ t.servo = 3 ∧ t.bit Obj.timeStatus .c 0 0 = false ∧ t.bit Obj.timeSticky .c 0 0 = true
      ∧ s.reported t .c 0x1202 0 (p16 [cause]) := by
  have drop : s.dropGm.servo = 2 ∧ s.dropGm.time.candidates = [] ∧ s.dropGm.objs = s.objs := by
    rw [State.dropGm, hg]
    refine ⟨h2, ?_, rfl⟩
    exact List.filter_eq_nil_iff.mpr fun c hc => by simp [hn c hc]
  obtain ⟨servo, alone, objs⟩ := drop
  generalize s.dropGm = u at servo alone objs ⊢
  have lost : u.gmLost cause = ((((u.updTime (fun t => { t with gm := none, goodRun := 0, newGm := false })).clrBit
      Obj.timeStatus .c 0 0).updTime (fun t => { t with holdSince := t.base })).setServo 3 |>.setBit Obj.timeSticky .c 0 0).raise
        .c 0x1202 0 (p16 [cause]) := by
    have still : ((u.updTime (fun t => { t with gm := none, goodRun := 0, newGm := false })).clrBit Obj.timeStatus .c 0 0).servo = 2 :=
      (State.servo_of_rd (State.rd_clrBit_apart rfl ..)).trans servo
    unfold State.gmLost
    dsimp only
    rw [still, if_neg (by decide), if_neg (by simp)]
  have none : (u.gmLost cause).time.gm = none ∧ (u.gmLost cause).time.candidates = [] := by
    rw [lost, State.time_raise]
    exact ⟨rfl, alone⟩
  have held : (u.gmLost cause).bmca cause = u.gmLost cause := by
    rw [State.bmca, none.2, none.1]
    rfl
  dsimp only
  rw [held, State.servo_showPtp, State.time_showPtp, State.bit_showPtp (o := Obj.timeStatus) rfl,
    State.bit_showPtp (o := Obj.timeSticky) rfl]
  refine ⟨none.1, ?_, ?_, ?_, State.reportedC_of_ramLog (State.showPtp_leaves (·.ramLog) _) ?_⟩
  · rw [lost]
    refine (State.servo_of_rd ((State.rd_raise rfl ..).trans (State.rd_setBit_apart rfl ..))).trans (State.servo_setServo ..)
  · rw [lost, State.bit_raise rfl, State.bit_of_rd (State.rd_setBit_apart rfl ..), State.setServo, State.bit_wr_apart rfl]
    exact State.bit_clrBit_same ..
  · rw [lost, State.bit_raise rfl, State.bit_setBit_same]
  · rw [lost]
    refine State.reported_raiseC (Nat.le_of_eq ?_) ..
    rw [State.rdN_setBit_apart rfl, State.setServo, State.rdN_wr_apart rfl]
    refine Eq.trans ?_ (State.rdN_wr_apart rfl ..).symm
    simp only [State.rdN, State.rd, State.updTime, objs]

/-- Settles O40: a Sync's offset is `onOffset` between `showOffset` and `showPtp`; an Announce or a loss ends in `gmSelect` or
`gmLost`. -/
theorem ptpMessagesDriveTheServo : Obligations.PtpMessagesDriveTheServo := by
  unfold Obligations.PtpMessagesDriveTheServo
  refine ⟨fun s p h a tlv hc hp => ⟨fun hs => ?_, fun hs hd ha hg hn h0 => ?_, fun hs hd ha hg hn => ?_⟩,
    fun s p h hc => ⟨fun rx origin => if_pos hc, fun origin => if_pos hc, fun rx => if_pos hc⟩,
    fun s p h hc hf => ⟨fun rx origin off ho => ?_, fun rx => ?_, fun rx origin off ho hw => ?_, fun rx tx diff hw hd => ?_⟩,
    fun s p hc hp hg => ⟨_, when_pos (by simp [hc, hp, hg]) _ _, rfl, rfl, ?_, ?_⟩,
    fun s p hm => ⟨⟨_, when_pos hm _ _, rfl, ?_, ?_⟩, ⟨_, when_pos hm _ _, rfl, rfl⟩, fun h rx hs hd => ?_⟩,
    fun s g hg hn h2 hc => ?_⟩
  · exact ⟨_, execPtpAnnounceReceived_unsupported hc hp hs a tlv, State.rdN_bump_same .., rfl⟩
  · exact execPtpAnnounceReceived_first hc hp hs hd ha hg hn h0 tlv
  · exact execPtpAnnounceReceived_low hc hp hs hd ha hg hn tlv
  · refine ⟨_, execPtpSyncReceived_one hc hf rx origin, ?_, fun h1 h5 hbig => s.syncOffset_big p origin rx ho h1 h5 hbig⟩
    subst ho
    exact (s.syncOffset_shows p origin rx).2
  · refine ⟨_, execPtpSyncReceived_two hc hf rx, rfl, ?_⟩
    exact (tabGet_tabSet ..).trans (if_pos rfl)
  · subst ho
    obtain ⟨inputs, shown⟩ := (s.updTime (fun t => { t with syncWait := tabDel t.syncWait p })).syncOffset_shows p origin rx
    refine ⟨_, execPtpFollowUpReceived_eq hc hf hw origin, ?_, shown⟩
    simp only [TimeSt.inputs, Prod.mk.injEq] at inputs
    exact inputs.2.2.2
  · exact ⟨_, execPtpDelayRespReceived_eq hc hf hw hd rx, rfl, rfl⟩
  · exact (tabGet_tabSet ..).trans (if_pos rfl)
  · exact (tabGet_tabSet ..).trans (if_pos rfl)
  · exact List.append_assoc ..
  · exact (tabGet_tabSet ..).trans (if_pos rfl)
  · refine (if_neg (by simp [hs])).trans (when_pos ?_ _ _)
    simp [hm, hd]
  · have up : s.up .c = true ∧ (s.rdN Obj.timeSource .c 0 != 2) = true := by
      simp only [State.ptpClient, Bool.and_eq_true] at hc
      exact hc.1
    exact ⟨⟨_, when_pos (by simp only [up.1, up.2, hg]; rfl) _ _, State.onlyGm_lost hg hn h2⟩,
      ⟨_, when_pos (by simp only [hc, hg]; rfl) _ _, State.onlyGm_lost hg hn h2⟩⟩

end Sys2Proof.Machine
end

section
namespace Sys2Proof.Machine

/-! ### What an event leaves of a media die -/

theorem State.md_raiseMedia_leaves {β : Type _} (part : MediaDie → β) (ha : ∀ m v, part { m with arb := v } = part m)
    (hs : ∀ m v, part { m with slv := v } = part m) (s : State) (d e : MDie) (c i p : Nat) :
    part ((s.raiseMedia d c i p).md e) = part (s.md e) := by
  have marked : part ((s.emitMarker d).md e) = part (s.md e) := by
    unfold State.emitMarker
    dsimp only
    split
    · exact State.md_updMd_leaves part (h := fun _ => ha ..) ..
    · rfl
  have noted : ∀ u : State, part ((u.noteError d c p).md e) = part (u.md e) := fun u =>
    State.md_noteError_leaves part hs ..
  unfold State.raiseMedia
  dsimp only
  split
  · exact (State.md_updMd_leaves part (h := fun _ => ha ..) ..).trans ((noted _).trans marked)
  · exact (State.md_updMd_leaves part (h := fun _ => ha ..) ..).trans ((noted _).trans marked)

/-- An event leaves of a media die all but its arbiter and what SELVEDGE notes of its errors. -/
theorem State.md_raise_leaves {β : Type _} (part : MediaDie → β) (ha : ∀ m v, part { m with arb := v } = part m)
    (hs : ∀ m v, part { m with slv := v } = part m) (s : State) (d : PDie) (e : MDie) (c i p : Nat) :
    part ((s.raise d c i p).md e) = part (s.md e) := by
  cases d with
  | a => exact State.md_raiseMedia_leaves part ha hs ..
  | b => exact State.md_raiseMedia_leaves part ha hs ..
  | c => rw [State.md_raiseC]

/-! ### Executed and failed cues (R78, R84) -/

section
variable {s : State} {d : MDie} {k : Nat}

theorem State.cueEntry_of_works {t : State} (h : Works true s t) (d : MDie) (k : Nat) : t.cueEntry d k = s.cueEntry d k :=
  h.entry rfl ..

/-- The forgotten substitute instant of an entry that has executed. -/
def State.cueLeft (s : State) (d : MDie) (k : Nat) : State :=
  s.updDieTime d (fun t => { t with cueNow := tabDel t.cueNow k, cueMore := t.cueMore.filter (· != k) })

/-- An entry that does not repeat is DONE (R84). -/
theorem State.cueDone_once (h : cuePeriod (s.cueEntry d k) = 0 ∨ cueRepeat (s.cueEntry d k) = 0) :
    s.cueDone d k = (s.cueLeft d k).setCue d k 4 :=
  if_pos h

theorem State.cueState_setCue (s : State) (d : MDie) (k st : Nat) : (s.setCue d k st).cueState d k = st := by
  rw [State.cueState, State.setCue, State.rdN_wr_same, Int.toNat_natCast]

theorem State.cueState_cueDone (h : cuePeriod (s.cueEntry d k) = 0 ∨ cueRepeat (s.cueEntry d k) = 0) :
    (s.cueDone d k).cueState d k = 4 := by
  rw [State.cueDone_once h, State.cueState_setCue]

theorem State.cueState_cueFail (s : State) (d : MDie) (k reason : Nat) : (s.cueFail d k reason).cueState d k = 6 := by
  rw [State.cueState, State.cueFail, State.rdN_raise rfl]
  exact State.cueState_setCue ..

/-- A row that the cue engine does not write. -/
def ObjDef.offCues (o : ObjDef) : Bool := o.quiet && Obj.timeCueState.apart o && Obj.timeCueLateCount.apart o

theorem State.rd_cuePast {o : ObjDef} (ho : o.offCues = true) (s : State) (d : MDie) (k : Nat) (e : Die) (i : Nat) :
    (s.cuePast d k).rd o e i = s.rd o e i := by
  simp only [ObjDef.offCues, Bool.and_eq_true] at ho
  obtain ⟨⟨hq, hc⟩, hl⟩ := ho
  unfold State.cuePast
  extract_lets b u
  have hu : u.rd o e i = s.rd o e i := (State.rd_raise hq ..).trans (State.rd_bump_apart hl ..)
  split
  · exact (State.rd_wr_apart hc ..).trans ((State.rd_updMd ..).trans hu)
  · split
    · exact (State.rd_wr_apart hc ..).trans hu
    · exact (State.rd_wr_apart hc ..).trans hu

theorem State.md_cuePast_leaves {β : Type _} (part : MediaDie → β) (ht : ∀ m v, part { m with time := v } = part m)
    (ha : ∀ m v, part { m with arb := v } = part m) (hs : ∀ m v, part { m with slv := v } = part m) (s : State) (d e : MDie) (k : Nat) :
    part ((s.cuePast d k).md e) = part (s.md e) := by
  unfold State.cuePast
  extract_lets b u
  have hu : part (u.md e) = part (s.md e) := State.md_raise_leaves part ha hs ..
  split
  · exact (State.md_updMd_leaves part (h := fun _ => ht ..) ..).trans hu
  · split <;> exact hu

/-- What executing an entry leaves: rows off the cue engine, and of a media die all but its time, arbiter and noted errors. -/
theorem State.rd_cueDone {o : ObjDef} (ho : o.offCues = true) (s : State) (d : MDie) (k : Nat) (e : Die) (i : Nat) :
    (s.cueDone d k).rd o e i = s.rd o e i := by
  have hc : Obj.timeCueState.apart o = true := by
    simp only [ObjDef.offCues, Bool.and_eq_true] at ho
    exact ho.1.2
  have left : (s.cueLeft d k).rd o e i = s.rd o e i := State.rd_updMd ..
  have armed : ∀ (u : State) b, ((u.wrBytes Obj.timeCueEntry d.die k b).setCue d k 2).rd o e i = u.rd o e i := fun u b =>
    State.rd_wr_apart hc ..
  unfold State.cueDone
  extract_lets b more u b1 b2 u2 u3
  split
  · exact (State.rd_wr_apart hc ..).trans left
  · split
    · exact (armed _ _).trans left
    · have h2 : u2.rd o e i = s.rd o e i := (armed _ _).trans left
      have h3 : u3.rd o e i = s.rd o e i := (State.rd_cuePast ho ..).trans h2
      split
      · split
        · exact (State.rd_updMd ..).trans h3
        · exact h3
      · exact h2

theorem State.md_cueDone_leaves {β : Type _} (part : MediaDie → β) (ht : ∀ m v, part { m with time := v } = part m)
    (ha : ∀ m v, part { m with arb := v } = part m) (hs : ∀ m v, part { m with slv := v } = part m) (s : State) (d e : MDie) (k : Nat) :
    part ((s.cueDone d k).md e) = part (s.md e) := by
  have left : part ((s.cueLeft d k).md e) = part (s.md e) := State.md_updMd_leaves part (h := fun _ => ht ..) ..
  unfold State.cueDone
  extract_lets b more u b1 b2 u2 u3
  split
  · exact left
  · split
    · exact left
    · have h3 : part (u3.md e) = part (s.md e) := (State.md_cuePast_leaves part ht ha hs ..).trans left
      split
      · split
        · exact (State.md_updMd_leaves part (h := fun _ => ht ..) ..).trans h3
        · exact h3
      · exact left

/-- A dispatched entry of the command's action, whose turn has come (R78, R82). -/
theorem State.cueRun_eq {a : Nat} (h3 : s.cueState d k = 3) (ha : cueAction (s.cueEntry d k) = a) (ht : s.cueTurn d k = true) :
    s.cueRun d k a = .next (if (s.cueAct d (s.cueEntry d k) (s.cueInstant d k)).2 = 0
      then (s.cueAct d (s.cueEntry d k) (s.cueInstant d k)).1.cueDone d k
      else (s.cueAct d (s.cueEntry d k) (s.cueInstant d k)).1.cueFail d k (s.cueAct d (s.cueEntry d k) (s.cueInstant d k)).2) := by
  unfold State.cueRun
  dsimp only
  rw [when_pos (by simp [h3, ha, ht])]
  rcases s.cueAct d (s.cueEntry d k) (s.cueInstant d k) with ⟨u, r⟩
  cases r <;> rfl

theorem State.cueRun_idle {a : Nat} (h : s.cueState d k ≠ 3 ∨ cueAction (s.cueEntry d k) ≠ a) : s.cueRun d k a = .next s := by
  refine when_neg ?_ _ _
  rcases h with h | h <;> simp [h]

theorem State.cueEntry_cueAct (s : State) (d : MDie) (b : List Byte) (t : Instant) (e : MDie) (j : Nat) :
    (s.cueAct d b t).1.cueEntry e j = s.cueEntry e j :=
  State.cueEntry_of_works (Works.refl s).cueAct ..

/-- Executed, an entry that does not repeat is DONE; refused, it is FAILED. -/
theorem State.cueRun_ends {a : Nat} (h3 : s.cueState d k = 3) (ha : cueAction (s.cueEntry d k) = a) (ht : s.cueTurn d k = true)
    (once : cuePeriod (s.cueEntry d k) = 0 ∨ cueRepeat (s.cueEntry d k) = 0) :
    ∃ t, s.cueRun d k a = .next t
      ∧ t.cueState d k = (if (s.cueAct d (s.cueEntry d k) (s.cueInstant d k)).2 = 0 then 4 else 6) := by
  refine ⟨_, State.cueRun_eq h3 ha ht, ?_⟩
  split
  · exact State.cueState_cueDone (by rwa [State.cueEntry_cueAct])
  · exact State.cueState_cueFail ..

end

/-! ### What a taken action leaves its target in -/

/-- A dispatched entry of an action whose turn has come, that does not repeat and whose target takes it. -/
def State.cueTakes (s : State) (d : MDie) (k a : Nat) : Prop :=
  s.cueState d k = 3 ∧ cueAction (s.cueEntry d k) = a ∧ s.cueTurn d k = true
    ∧ (cuePeriod (s.cueEntry d k) = 0 ∨ cueRepeat (s.cueEntry d k) = 0)
    ∧ (s.cueAct d (s.cueEntry d k) (s.cueInstant d k)).2 = 0

/-- The state after a cue that its target takes. -/
def State.cueTaken (s : State) (d : MDie) (k : Nat) : State :=
  (s.cueAct d (s.cueEntry d k) (s.cueInstant d k)).1.cueDone d k

section
variable {s : State} {d : MDie} {k n : Nat}

theorem State.cueTakes.run {a : Nat} (h : s.cueTakes d k a) : s.cueRun d k a = .next (s.cueTaken d k)
    ∧ (s.cueTaken d k).cueState d k = 4 := by
  obtain ⟨h3, ha, ht, once, takes⟩ := h
  refine ⟨(State.cueRun_eq h3 ha ht).trans (by rw [if_pos takes]; rfl), ?_⟩
  exact State.cueState_cueDone (by rwa [State.cueEntry_cueAct])

/-- The target's answer to a cue; the request status in force is not the cue's. -/
def State.cueActs (s : State) (d : MDie) (k : Nat) (r : State × Nat) : Prop :=
  s.cueAct d (s.cueEntry d k) (s.cueInstant d k) = ({ r.1 with answer := s.answer }, r.2)

theorem State.cueActs.taken {r : State × Nat} (h : s.cueActs d k r) {a : Nat} (ht : s.cueTakes d k a) : r.2 = 0 := by
  obtain ⟨-, -, -, -, takes⟩ := ht
  exact (congrArg Prod.snd h).symm.trans takes

/-- What executing leaves of the target: the rows off the cue engine and the blocks' own state. -/
theorem State.cueActs.leaves {r : State × Nat} (h : s.cueActs d k r) :
    (∀ o : ObjDef, o.offCues = true → ∀ e i, (s.cueTaken d k).rd o e i = r.1.rd o e i)
    ∧ ((s.cueTaken d k).md d).net = (r.1.md d).net ∧ ((s.cueTaken d k).md d).video = (r.1.md d).video
    ∧ ((s.cueTaken d k).md d).audio = (r.1.md d).audio ∧ ((s.cueTaken d k).md d).enc = (r.1.md d).enc := by
  rw [State.cueTaken, h]
  have part : ∀ {β : Type} (part : MediaDie → β), (∀ m v, part { m with time := v } = part m) →
      (∀ m v, part { m with arb := v } = part m) → (∀ m v, part { m with slv := v } = part m) →
      part ((({ r.1 with answer := s.answer } : State).cueDone d k).md d) = part (r.1.md d) :=
    fun part ht ha hs => (State.md_cueDone_leaves part ht ha hs ..).trans (by cases d <;> rfl)
  exact ⟨fun o ho e i => State.rd_cueDone ho .., part (·.net) (fun _ _ => rfl) (fun _ _ => rfl) (fun _ _ => rfl),
    part (·.video) (fun _ _ => rfl) (fun _ _ => rfl) (fun _ _ => rfl), part (·.audio) (fun _ _ => rfl) (fun _ _ => rfl) (fun _ _ => rfl),
    part (·.enc) (fun _ _ => rfl) (fun _ _ => rfl) (fun _ _ => rfl)⟩

theorem State.port_commitGates (s : State) (d : MDie) (p t : Nat) :
    ((s.commitGates d p t).port d p).pending = some (s.gateShadow d p, gateStart (s.refRaster d) (s.gateShadow d p) t) := by
  have net : ((s.commitGates d p t).md d).net.ports = tabSet (s.md d).net.ports p
      { s.port d p with pending := some (s.gateShadow d p, gateStart (s.refRaster d) (s.gateShadow d p) t) } := by
    cases d <;> rfl
  rw [State.port, net, tabGet_tabSet, if_pos rfl]

/-- A commit of gate lists that is taken (R142). -/
theorem State.cueCommit_gates {t : Instant} (h : (s.cueCommit d 0x1510 n t).2 = 0) :
    s.cueCommit d 0x1510 n t = (s.commitGates d n t.ceilNs, 0) := by
  have gates : s.cueCommit d 0x1510 n t = if n < 32 then if ¬ s.secOn d 14 then (s, 1)
      else if (s.gateShadow d n).cycleOk then (s.commitGates d n t.ceilNs, 0) else (s, 2) else (s, 2) := by
    simp [State.cueCommit]
  rw [gates] at h ⊢
  split at h
  · next hn =>
    split at h
    · cases h
    · next hs =>
      split at h
      · next hc => rw [if_pos hn, if_neg hs, if_pos hc]
      · cases h
  · cases h

theorem State.cueTakes.commit (h : s.cueTakes d k 1) (hi : cueIndex (s.cueEntry d k) = 0x1510) :
    ((s.cueTaken d k).port d (cueInst (s.cueEntry d k))).pending = some (s.gateShadow d (cueInst (s.cueEntry d k)),
      gateStart (s.refRaster d) (s.gateShadow d (cueInst (s.cueEntry d k))) (s.cueInstant d k).ceilNs) := by
  have act : s.cueActs d k (s.cueCommit d 0x1510 (cueInst (s.cueEntry d k)) (s.cueInstant d k)) := by
    unfold State.cueActs State.cueAct
    rw [h.2.1, hi]
    rfl
  have made := State.cueCommit_gates (act.taken h)
  rw [made] at act
  obtain ⟨-, net, -⟩ := act.leaves
  rw [State.port, net]
  exact State.port_commitGates ..

/-! ### Flows and channels -/

theorem State.flowControl_effect {f : Nat} {start : Bool} {t : Instant}
    (h : ¬((start = true ∧ s.outState d f = 2) ∨ (start = false ∧ s.outState d f = 0))) :
    (s.flowControl d f start t).outState d f = (if start then 1 else 3)
    ∧ tabGet ((s.flowControl d f start t).md d).net.flowsOut f
      = fun _ => { s.flowOut d f with pend := some (start, s.controlInstant d f t) } := by
  have e : s.flowControl d f start t = (s.updFlowOut d f (fun x => { x with pend := some (start, s.controlInstant d f t) })).wr
      Obj.flowOutState d.die f (if start then 1 else 3) := if_neg h
  rw [e]
  refine ⟨?_, ?_⟩
  · rw [State.outState, State.rdN_wr_same]
    cases start <;> rfl
  · have net : (((s.updFlowOut d f (fun x => { x with pend := some (start, s.controlInstant d f t) })).wr
        Obj.flowOutState d.die f (if start then 1 else 3)).md d).net.flowsOut
        = tabSet (s.md d).net.flowsOut f { s.flowOut d f with pend := some (start, s.controlInstant d f t) } := by
      cases d <;> rfl
    funext x
    rw [net, tabGet_tabSet, if_pos rfl]

/-- A flow that is not yet where the cue sends it starts or stops (R139). -/
theorem State.cueTakes.flow {a : Nat} {start : Bool} (h : s.cueTakes d k a)
    (hs : ¬((start = true ∧ s.outState d n = 2) ∨ (start = false ∧ s.outState d n = 0)))
    (act : s.cueActs d k (s.cueFlow d (cueIndex (s.cueEntry d k)) n start (s.cueInstant d k))) :
    (s.cueTaken d k).outState d n = (if start then 1 else 3)
      ∧ ((s.cueTaken d k).flowOut d n).pend = some (start, s.controlInstant d n (s.cueInstant d k)) := by
  have takes := act.taken h
  have made : s.cueFlow d (cueIndex (s.cueEntry d k)) n start (s.cueInstant d k)
      = (s.flowControl d n start (s.cueInstant d k), 0) := by
    unfold State.cueFlow at takes ⊢
    split at takes
    · cases takes
    · next h1 =>
      split at takes
      · cases takes
      · next h2 =>
        split at takes
        · next h3 => rw [if_neg h1, if_neg h2, if_pos h3]
        · cases takes
  rw [made] at act
  obtain ⟨rd, net, -⟩ := act.leaves
  obtain ⟨state, flows⟩ := State.flowControl_effect (t := s.cueInstant d k) hs
  refine ⟨?_, ?_⟩
  · rw [State.outState, State.rdN, rd Obj.flowOutState rfl]
    exact state
  · rw [State.flowOut, net, flows]

theorem State.encState_encLate (s : State) (d : MDie) (c : Nat) (late : Bool) : (s.encLate d c late).encState d c = s.encState d c := by
  unfold State.encLate
  split
  · simp only [State.encState, State.rdN_raise (show Obj.encChState.quiet = true from rfl),
      State.rdN_setBit_apart (show Obj.encChSticky.apart Obj.encChState = true from rfl)]
  · rfl

theorem State.enc_encLate (s : State) (d : MDie) (c : Nat) (late : Bool) : (s.encLate d c late).enc d c = s.enc d c := by
  unfold State.encLate
  split
  · exact congrArg (tabGet · c EncSt.start) (State.md_raise_leaves (·.enc) (fun _ _ => rfl) (fun _ _ => rfl) ..)
  · rfl

theorem State.encState_setEncState (s : State) (d : MDie) (c st : Nat) : (s.setEncState d c st).encState d c = st := by
  rw [State.encState, State.setEncState, State.rdN, State.rd_putBit_apart rfl, State.rd_wr_same, Int.toNat_natCast]

theorem State.enc_updEnc (s : State) (d : MDie) (c : Nat) (f : EncSt → EncSt) : (s.updEnc d c f).enc d c = f (s.enc d c) := by
  have tab : ((s.updEnc d c f).md d).enc = tabSet (s.md d).enc c (f (s.enc d c)) := by rw [State.updEnc, State.md_updMd]
  rw [State.enc, tab, tabGet_tabSet, if_pos rfl]

theorem State.encControl_effect {c : Nat} {start : Bool} {t : Instant} (h : start = true → s.encState d c ≠ 2) :
    (s.encControl d c start t).encState d c = (if start then 1 else 3)
    ∧ ((s.encControl d c start t).enc d c).control.map Prod.fst = some start := by
  -- The kernel follows the definition unfolded in place, where its equation lemma evaluates the landing.
  have e : @State.encControl = @State.encControl := rfl
  conv at e => rhs; delta State.encControl
  rw [e]
  beta_reduce
  extract_lets
  split
  extract_lets
  rw [State.encState_encLate, State.enc_encLate, State.encState_setEncState]
  have state : ∀ f, (s.updEnc d c f).encState d c = s.encState d c := fun f => by
    simp only [State.encState, State.updEnc, State.rdN, State.rd_updMd]
  have enc : ∀ (u : State) x, (u.setEncState d c x).enc d c = u.enc d c := fun u x => rfl
  rw [enc, State.enc_updEnc, state]
  refine ⟨?_, rfl⟩
  cases start with
  | true => rw [if_neg (h rfl)]
  | false => rw [if_neg Bool.false_ne_true, if_neg Bool.false_ne_true]

/-- A channel that is not yet where the cue sends it starts or stops (R243). -/
theorem State.cueTakes.channel {a : Nat} {start : Bool} (h : s.cueTakes d k a) (hs : s.encState d n ≠ (if start then 2 else 0))
    (act : s.cueActs d k (s.cueChannel d (cueIndex (s.cueEntry d k)) n start (s.cueInstant d k))) :
    (s.cueTaken d k).encState d n = (if start then 1 else 3)
      ∧ ((s.cueTaken d k).enc d n).control.map Prod.fst = some start := by
  have takes := act.taken h
  have made : s.cueChannel d (cueIndex (s.cueEntry d k)) n start (s.cueInstant d k)
      = (s.encControl d n start (s.cueInstant d k), 0) := by
    unfold State.cueChannel at takes ⊢
    split at takes
    · cases takes
    · next h1 =>
      split at takes
      · cases takes
      · next h2 =>
        split at takes
        · cases takes
        · next h3 =>
          have busy : ¬ s.encIdle d n start = true := by
            have used : s.encUsed d n = true := by
              by_contra hu
              exact h3 (.inr hu)
            cases start <;> simpa [State.encIdle, used] using hs
          rw [if_neg h1, if_neg h2, if_neg h3, if_neg busy]
  rw [made] at act
  obtain ⟨rd, -, -, -, enc⟩ := act.leaves
  obtain ⟨state, control⟩ := State.encControl_effect (s := s) (d := d) (c := n) (start := start) (t := s.cueInstant d k)
    (fun e => by subst e; exact hs)
  refine ⟨?_, ?_⟩
  · rw [State.encState, State.rdN, rd Obj.encChState rfl]
    exact state
  · rw [State.enc, enc]
    exact control

/-! ### Raster changes, audio starts and key pictures -/

theorem State.outp_updOutp (s : State) (d : MDie) (m : Nat) (f : OutSt → OutSt) : (s.updOutp d m f).outp d m = f (s.outp d m) := by
  have tab : ((s.updOutp d m f).md d).video.outs = tabSet (s.md d).video.outs m (f (s.outp d m)) := by
    rw [State.updOutp, State.updVideo, State.md_updMd]
  rw [State.outp, tab, tabGet_tabSet, if_pos rfl]

/-- The raster to come of an output that goes over (R214). -/
theorem State.next_outGoOver (s : State) (d : MDie) (m : Nat) (r : NextRaster) :
    ((s.outGoOver d m r).outp d m).next.map (fun x => (x.format, x.ofs)) = some (r.format, r.ofs) := by
  rw [State.outGoOver, State.outp_updOutp]
  rfl

/-- The raster that a format apply goes over to (R214). -/
def State.pendingAttr (s : State) (d : MDie) (m : Nat) : Attr :=
  Attr.ofWord
    (if s.rdN Obj.scnOutFormatPending d.die m = 0 then s.rdN Obj.scnOutFormat d.die m else s.rdN Obj.scnOutFormatPending d.die m)
    (s.rdN Obj.scnOutOfsPending d.die m)
    (if s.rdN Obj.scnOutAttrPending d.die m = 0xFFFF then s.rdN Obj.scnOutAttr d.die m else s.rdN Obj.scnOutAttrPending d.die m)

theorem State.formatApply_effect {m : Nat} {t : Instant} (h : (s.formatApply d m t).2 = true)
    (hne : s.outAttr d m ≠ s.pendingAttr d m ∨ (s.outp d m).next.isSome = true) :
    ((s.formatApply d m t).1.outp d m).next.map (fun x => (x.format, x.ofs))
      = some ((s.pendingAttr d m).format, (s.pendingAttr d m).ofs) := by
  unfold State.formatApply at h ⊢
  dsimp only at h ⊢
  rw [← State.pendingAttr] at h ⊢
  generalize s.pendingAttr d m = a at h hne ⊢
  split at h
  · cases h
  · split at h
    · cases h
    · next h1 h2 =>
      have changes : ¬(s.outAttr d m = a ∧ (s.outp d m).next.isNone = true) := by
        rintro ⟨same, none⟩
        rcases hne with hne | hne
        · exact hne same
        · rw [Option.isNone_iff_eq_none.mp none] at hne
          cases hne
      rw [if_neg h1, if_neg h2, if_neg changes]
      exact State.next_outGoOver s d m _

theorem State.cueTakes.format (h : s.cueTakes d k 8)
    (hne : s.outAttr d (cueInst (s.cueEntry d k)) ≠ s.pendingAttr d (cueInst (s.cueEntry d k))
      ∨ (s.outp d (cueInst (s.cueEntry d k))).next.isSome = true) :
    ((s.cueTaken d k).outp d (cueInst (s.cueEntry d k))).next.map (fun x => (x.format, x.ofs))
      = some ((s.pendingAttr d (cueInst (s.cueEntry d k))).format, (s.pendingAttr d (cueInst (s.cueEntry d k))).ofs) := by
  have act : s.cueActs d k (if cueIndex (s.cueEntry d k) ≠ 0x1810 ∨ 64 ≤ cueInst (s.cueEntry d k) then (s, 2)
      else if ¬ s.secOn d secScn then (s, 1)
      else if s.outUsed d (cueInst (s.cueEntry d k)) then cueResult (s.formatApply d (cueInst (s.cueEntry d k)) (s.cueInstant d k))
      else (s, 2)) := by
    unfold State.cueActs State.cueAct
    rw [h.2.1]
    rfl
  have takes := act.taken h
  split at takes
  · cases takes
  · next h1 =>
    split at takes
    · cases takes
    · next h2 =>
      split at takes
      · next h3 =>
        rw [if_neg h1, if_neg h2, if_pos h3] at act
        have made : (s.formatApply d (cueInst (s.cueEntry d k)) (s.cueInstant d k)).2 = true := by
          by_contra hf
          rw [cueResult, if_neg hf] at takes
          cases takes
        obtain ⟨-, -, video, -⟩ := act.leaves
        rw [State.outp, video]
        exact State.formatApply_effect made hne
      · cases takes

/-- A fold whose steps over the list's elements leave a part of the state leaves it. -/
theorem foldl_keeps {α β : Type _} (part : State → β) {f : State → α → State} {l : List α}
    (h : ∀ t, ∀ i ∈ l, part (f t i) = part t) {s : State} : part (l.foldl f s) = part s := by
  induction l generalizing s with
  | nil => rfl
  | cons i l ih => exact (ih fun t j hj => h t j (List.mem_cons_of_mem _ hj)).trans (h s i List.mem_cons_self)

/-- A fold reaches at an element what its other steps keep. -/
theorem foldl_reaches {α : Type _} {f : State → α → State} {P Q : State → Prop} {l : List α} {j : α} (hj : j ∈ l)
    (keep : ∀ t, ∀ i ∈ l, Q t → Q (f t i)) (hit : ∀ t, Q t → P (f t j)) (stay : ∀ t, ∀ i ∈ l, Q t → P t → P (f t i))
    {s : State} (hs : Q s) : P (l.foldl f s) := by
  have after : ∀ (l' : List α) (t : State), (∀ i ∈ l', i ∈ l) → Q t → (P t ∨ j ∈ l') → P (l'.foldl f t) := by
    intro l'
    induction l' with
    | nil => exact fun t _ _ h => h.resolve_right List.not_mem_nil
    | cons i l' ih =>
      intro t sub hq h
      have hi := sub i List.mem_cons_self
      refine ih (f t i) (fun x hx => sub x (List.mem_cons_of_mem _ hx)) (keep t i hi hq) ?_
      rcases h with h | h
      · exact .inl (stay t i hi hq h)
      · rcases List.mem_cons.mp h with rfl | h
        · exact .inl (hit t hq)
        · exact .inr h
  exact after l s (fun _ h => h) hs (.inr hj)

/-- A waiting port starts at an index of its bank's rate (R350). -/
def State.audStarted (s : State) (d : MDie) (t p : Nat) : State :=
  let s := s.updAudPort d p (fun x => { x with n0 := some (audIndexFrom (s.portHz d p) t), armed := none })
  if s.rdN Obj.audPortState d.die p = 1 then s.setAudState d p 2 else s

theorem State.audStarted_audio (s : State) (d : MDie) (t p : Nat) : ((s.audStarted d t p).md d).audio.ports
    = tabSet (s.md d).audio.ports p { s.audPort d p with n0 := some (audIndexFrom (s.portHz d p) t), armed := none } := by
  unfold State.audStarted
  dsimp only
  split <;> cases d <;> rfl

theorem State.audStarted_portHz (s : State) (d : MDie) (t p q : Nat) : (s.audStarted d t p).portHz d q = s.portHz d q := by
  have rd : ∀ o : ObjDef, Obj.audPortState.apart o = true → Obj.audPortStatus.apart o = true → ∀ i,
      (s.audStarted d t p).rdN o d.die i = s.rdN o d.die i := by
    intro o h1 h2 i
    unfold State.audStarted
    dsimp only
    split
    · simp only [State.rdN, State.setAudState, State.rd_putBit_apart h2, State.rd_wr_apart h1, State.updAudPort, State.updAud,
        State.rd_updMd]
    · simp only [State.rdN, State.updAudPort, State.updAud, State.rd_updMd]
  have hz : (s.audStarted d t p).bankHz d = s.bankHz d := funext fun b => by rw [State.bankHz, rd Obj.audBankRate rfl rfl, State.bankHz]
  simp only [State.portHz, State.audBank, State.audInFirst, State.audOutFirst, rd Obj.audPortInFirst rfl rfl,
    rd Obj.audPortOutFirst rfl rfl, hz]

theorem State.audTrigger_eq {g t : Nat} : s.audTrigger d g t = if s.audWaiting d g = [] then s else
    (((s.audWaiting d g).foldl (fun u p => u.audStarted d t p) s).wr Obj.audStartLast d.die g (audIndexFrom (s.bankHz d 0) t : Nat)).raise
      d.pdie 0x2830 g (payloadOf [(16, g), (64, audIndexFrom (s.bankHz d 0) t)]) := rfl

/-- Every waiting port of the group starts (R350). -/
theorem State.audTrigger_effect {g t p : Nat} (hp : p ∈ s.audWaiting d g) : ((s.audTrigger d g t).audPort d p).armed = none
    ∧ ((s.audTrigger d g t).audPort d p).n0 = some (audIndexFrom (s.portHz d p) t) := by
  have last : (s.audTrigger d g t).audPort d p = ((s.audWaiting d g).foldl (fun u p => u.audStarted d t p) s).audPort d p := by
    rw [State.audTrigger_eq, if_neg (List.ne_nil_of_mem hp)]
    exact congrArg (fun a : AudioSt => tabGet a.ports p AudPortSt.start)
      (State.md_raise_leaves (·.audio) (fun _ _ => rfl) (fun _ _ => rfl) ..)
  rw [last]
  refine foldl_reaches (P := fun u => (u.audPort d p).armed = none ∧ (u.audPort d p).n0 = some (audIndexFrom (s.portHz d p) t))
    (Q := fun u => u.portHz d p = s.portHz d p) hp (fun u i _ hq => (u.audStarted_portHz ..).trans hq) (fun u hq => ?_)
    (fun u i _ hq h => ?_) rfl
  · rw [State.audPort, State.audStarted_audio, tabGet_tabSet, if_pos rfl, hq]
    exact ⟨rfl, rfl⟩
  · rw [State.audPort, State.audStarted_audio, tabGet_tabSet]
    split
    · next e =>
      subst e
      exact ⟨rfl, congrArg (fun z => some (audIndexFrom z t)) hq⟩
    · exact h

theorem State.cueTakes.audio (h : s.cueTakes d k 3) {p : Nat} (hp : p ∈ s.audWaiting d (cueArg (s.cueEntry d k) % 256)) :
    ((s.cueTaken d k).audPort d p).armed = none
      ∧ ((s.cueTaken d k).audPort d p).n0 = some (audIndexFrom (s.portHz d p) (s.cueInstant d k).ceilNs) := by
  have act : s.cueActs d k (if cueIndex (s.cueEntry d k) ≠ 0x2806 then (s, 2) else if ¬ s.secOn d secAud then (s, 1)
      else (s.audTrigger d (cueArg (s.cueEntry d k) % 256) (s.cueInstant d k).ceilNs, 0)) := by
    unfold State.cueActs State.cueAct
    rw [h.2.1]
    rfl
  have takes := act.taken h
  split at takes
  · cases takes
  · next h1 =>
    split at takes
    · cases takes
    · next h2 =>
      rw [if_neg h1, if_neg h2] at act
      obtain ⟨-, -, -, audio, -⟩ := act.leaves
      rw [State.audPort, audio]
      exact State.audTrigger_effect hp

/-- The request of a key picture (R283). -/
theorem State.keyRequest_effect {c t : Nat} (h : (s.enc d c).cause.request = none) :
    ((s.keyRequest d c t).enc d c).cause.request = some t ∧ (s.keyRequest d c t).bit Obj.rcChStatus d.die c 2 = true := by
  unfold State.keyRequest
  rw [h, if_neg (by simp)]
  refine ⟨?_, State.bit_setBit_same ..⟩
  exact congrArg (fun x : EncSt => x.cause.request) (State.enc_updEnc ..)

/-- A key picture cue on a running channel (R78, R283). -/
theorem State.cueRun_key (h3 : s.cueState d k = 3) (ha : cueAction (s.cueEntry d k) = 2) (ht : s.cueTurn d k = true)
    (hi : cueIndex (s.cueEntry d k) = 0x2202) (hc : cueInst (s.cueEntry d k) = n) (hn : n < 48) (hs : s.secOn d secEnt = true)
    (hr : s.encState d n = 2) (hq : (s.enc d n).cause.request = none) :
    ∃ t, s.cueRun d k 2 = .next t ∧ (t.enc d n).cause.request = some (s.cueInstant d k).ceilNs
      ∧ t.bit Obj.rcChStatus d.die n 2 = true := by
  have act : s.cueActs d k (s.keyRequest d n (s.cueInstant d k).ceilNs, 0) := by
    unfold State.cueActs State.cueAct
    rw [ha, hi, hc]
    dsimp only
    rw [if_neg (by omega), if_neg (not_not.mpr hs), if_pos hr]
    rfl
  have run : s.cueRun d k 2 = .next (s.cueTaken d k) := by
    rw [State.cueRun_eq h3 ha ht, act, if_pos rfl, State.cueTaken, act]
  obtain ⟨rd, -, -, -, enc⟩ := act.leaves
  obtain ⟨request, bit⟩ := State.keyRequest_effect (t := (s.cueInstant d k).ceilNs) hq
  refine ⟨_, run, ?_, ?_⟩
  · rw [State.enc, enc]
    exact request
  · rw [State.bit_of_rd (rd Obj.rcChStatus rfl ..)]
    exact bit

/-! ### Cues that the engine executes itself (R81, R82) -/

theorem State.cueSelf_eq {a : Nat} {f : State → State} (h2 : s.cueState d k = 2) (ha : cueAction (s.cueEntry d k) = a)
    (ht : s.cueTurn d k = true) : s.cueSelf d k a f = .next ((f s).cueDone d k) :=
  when_pos (by simp [h2, ha, ht]) _ _

theorem State.records_cueDone (h : cuePeriod (s.cueEntry d k) = 0 ∨ cueRepeat (s.cueEntry d k) = 0) :
    (s.cueDone d k).records = s.records := by
  rw [State.cueDone_once h]
  cases d <;> rfl

/-- A marker reports (R81). -/
theorem execCueMarker_effect {k : Fin 1024} (h2 : s.cueState d k = 2) (ha : cueAction (s.cueEntry d k) = 9) (ht : s.cueTurn d k = true)
    (once : cuePeriod (s.cueEntry d k) = 0 ∨ cueRepeat (s.cueEntry d k) = 0) (hr : s.canReport d.pdie = true) :
    ∃ t, execCueMarker d k s = .next t ∧ t.cueState d k = 4
      ∧ s.reported t d.pdie 0x1212 k (payloadOf [(16, (k.val : Int)), (64, (cueArg (s.cueEntry d k) : Int))]) := by
  have once' : ∀ p, cuePeriod ((s.raise d.pdie 0x1212 k p).cueEntry d k) = 0
      ∨ cueRepeat ((s.raise d.pdie 0x1212 k p).cueEntry d k) = 0 := fun p => by
    rwa [State.cueEntry_of_works (Works.refl s).raise]
  exact ⟨_, State.cueSelf_eq h2 ha ht, State.cueState_cueDone (once' _),
    State.reported_of_records (State.records_cueDone (once' _)) (State.reported_raise hr rfl ..)⟩

/-- What the cue engine knows of an entry: its bytes, its state, the raster its coordinate stands in and its substitute instant. -/
def State.cueView (s : State) (d : MDie) (m : Nat) : List Byte × Nat × Nat × Option (Nat × Nat) :=
  (s.cueEntry d m, s.cueState d m, (s.md d).time.refFormat, (s.md d).time.cueNow.find? (fun e => e.1 == m))

theorem State.cueInstant_of_view {u : State} {m : Nat} (h : u.cueView d m = s.cueView d m) :
    u.cueInstant d m = s.cueInstant d m ∧ u.cueEntry d m = s.cueEntry d m ∧ u.cueState d m = s.cueState d m
      ∧ u.cueCoordInstant d (u.cueEntry d m) = s.cueCoordInstant d (s.cueEntry d m) := by
  simp only [State.cueView, Prod.mk.injEq] at h
  obtain ⟨entry, state, format, now⟩ := h
  have coord : u.cueCoordInstant d (u.cueEntry d m) = s.cueCoordInstant d (s.cueEntry d m) := by
    simp only [State.cueCoordInstant, State.refRaster, format, entry]
  refine ⟨?_, entry, state, coord⟩
  unfold State.cueInstant
  rw [now, coord]

theorem find?_tabSet_other {α : Type} {j m : Nat} (h : j ≠ m) (t : Tab α) (v : α) :
    (tabSet t j v).find? (fun e => e.1 == m) = t.find? (fun e => e.1 == m) := by
  have skip : ∀ (w : α) (r : Tab α), List.find? (fun e => e.1 == m) ((j, w) :: r) = List.find? (fun e => e.1 == m) r := fun w r =>
    List.find?_cons_of_neg (by simpa using h)
  induction t with
  | nil => exact skip v []
  | cons e t ih =>
    obtain ⟨i, w⟩ := e
    simp only [tabSet]
    split
    · exact skip ..
    · split
      · next hi => subst hi; rw [skip, skip]
      · by_cases hm : i = m
        · rw [List.find?_cons_of_pos (by simpa using hm), List.find?_cons_of_pos (by simpa using hm)]
        · rw [List.find?_cons_of_neg (by simpa using hm), List.find?_cons_of_neg (by simpa using hm), ih]

theorem find?_tabDel_other {α : Type} {j m : Nat} (h : j ≠ m) (t : Tab α) :
    (tabDel t j).find? (fun e => e.1 == m) = t.find? (fun e => e.1 == m) := by
  rw [tabDel, List.find?_filter]
  congr 1
  funext e
  by_cases hm : e.1 = m
  · simp [hm, h.symm]
  · simp [hm]

theorem State.cueState_setCue_other {j m : Nat} (h : j ≠ m) (u : State) (st : Nat) : (u.setCue d j st).cueState d m = u.cueState d m := by
  rw [State.cueState, State.setCue, State.rdN, State.rd_wr_inst h]
  rfl

theorem State.cueView_setCue {j m : Nat} (h : j ≠ m) (u : State) (st : Nat) : (u.setCue d j st).cueView d m = u.cueView d m := by
  have state : (u.setCue d j st).cueState d m = u.cueState d m := State.cueState_setCue_other h ..
  rw [State.cueView, state]
  cases d <;> rfl

theorem State.cueView_raise (u : State) (e : PDie) (c i p m : Nat) : (u.raise e c i p).cueView d m = u.cueView d m := by
  have entry : (u.raise e c i p).cueEntry d m = u.cueEntry d m := State.cueEntry_of_works (Works.refl u).raise ..
  have state : (u.raise e c i p).cueState d m = u.cueState d m := State.rdN_raise rfl ..
  have time : ((u.raise e c i p).md d).time = (u.md d).time :=
    State.md_raise_leaves (·.time) (fun _ _ => rfl) (fun _ _ => rfl) ..
  rw [State.cueView, entry, state, time, State.cueView]

theorem State.cueView_cuePast {j m : Nat} (h : j ≠ m) (u : State) : (u.cuePast d j).cueView d m = u.cueView d m := by
  have late : (u.bump Obj.timeCueLateCount d.die 0).cueView d m = u.cueView d m := by
    have state : (u.bump Obj.timeCueLateCount d.die 0).cueState d m = u.cueState d m := State.rdN_wr_apart rfl ..
    rw [State.cueView, state]
    cases d <;> rfl
  unfold State.cuePast
  extract_lets b v
  have hv : v.cueView d m = u.cueView d m := (State.cueView_raise ..).trans late
  split
  · refine (State.cueView_setCue h ..).trans (Eq.trans ?_ hv)
    have time : ((v.updDieTime d (fun t => { t with cueNow := tabSet t.cueNow j t.ctr })).md d).time
        = { (v.md d).time with cueNow := tabSet (v.md d).time.cueNow j (v.md d).time.ctr } := by rw [State.updDieTime, State.md_updMd]
    rw [State.cueView, time]
    simp only [find?_tabSet_other h]
    cases d <;> rfl
  · split
    · refine (State.cueView_setCue h ..).trans (Eq.trans ?_ hv)
      have entry : (v.wrBytes Obj.timeCueEntry d.die j (v.cueFuture d b)).cueEntry d m = v.cueEntry d m := by
        have other : Obj.timeCueEntry.addr d.die j ≠ Obj.timeCueEntry.addr d.die m := by simp [ObjDef.addr, h]
        simp only [State.cueEntry, State.rdBytes, State.wrBytes, mapGet_mapPut, if_neg other]
      rw [State.cueView, entry]
      cases d <;> rfl
    · exact (State.cueView_setCue h ..).trans hv

/-- Arming and disarming an entry leave the others. -/
theorem State.cueView_armCueAt {j m : Nat} (h : j ≠ m) (u : State) (t : Instant) : (u.armCueAt d t j).cueView d m = u.cueView d m := by
  unfold State.armCueAt
  split
  · exact State.cueView_setCue h ..
  · exact State.cueView_cuePast h u

theorem State.cueView_disarmCue {j m : Nat} (h : j ≠ m) (u : State) : (u.disarmCue d j).cueView d m = u.cueView d m := by
  refine (State.cueView_setCue h ..).trans ?_
  have time : ((u.updDieTime d (fun t => { t with cueNow := tabDel t.cueNow j, cueMore := t.cueMore.filter (· != j) })).md d).time
      = { (u.md d).time with cueNow := tabDel (u.md d).time.cueNow j, cueMore := (u.md d).time.cueMore.filter (· != j) } := by
    rw [State.updDieTime, State.md_updMd]
  rw [State.cueView, time]
  simp only [find?_tabDel_other h]
  cases d <;> rfl

theorem State.ne_of_mem_cueFollowers {st j : Nat} (h : j ∈ s.cueFollowers d k st) : j ≠ k := by
  have := (List.mem_filter.mp h).2
  simp only [Bool.and_eq_true, bne_iff_ne] at this
  exact this.1

/-- A group cue that does not repeat is DONE, and its work on the others stays. -/
theorem State.group_done {u : State} (once : cuePeriod (s.cueEntry d k) = 0 ∨ cueRepeat (s.cueEntry d k) = 0)
    (hu : u.cueView d k = s.cueView d k) : (u.cueDone d k).cueState d k = 4
      ∧ ∀ j ≠ k, (u.cueDone d k).cueState d j = u.cueState d j := by
  obtain ⟨-, entry, -⟩ := State.cueInstant_of_view hu
  rw [← entry] at once
  refine ⟨State.cueState_cueDone once, fun j hj => ?_⟩
  rw [State.cueDone_once once, State.cueState_setCue_other (Ne.symm hj)]
  simp only [State.cueState, State.cueLeft, State.updDieTime, State.rdN, State.rd_updMd]

theorem execCueArmGroup_effect {k : Fin 1024} (h2 : s.cueState d k = 2) (ha : cueAction (s.cueEntry d k) = 0x0A)
    (ht : s.cueTurn d k = true) (once : cuePeriod (s.cueEntry d k) = 0 ∨ cueRepeat (s.cueEntry d k) = 0) :
    ∃ t, execCueArmGroup d k s = .next t ∧ t.cueState d k = 4
      ∧ ∀ j ∈ s.cueFollowers d k 1, (s.cueInstant d k).le (s.cueCoordInstant d (s.cueEntry d j)) = true → t.cueState d j = 2 := by
  refine ⟨_, State.cueSelf_eq h2 ha ht, ?_⟩
  have own : ((s.cueFollowers d k 1).foldl (fun (s : State) j => s.armCueAt d (s.cueInstant d k) j) s).cueView d k = s.cueView d k :=
    foldl_keeps (·.cueView d k) (fun t i hi => State.cueView_armCueAt (State.ne_of_mem_cueFollowers hi) ..)
  obtain ⟨done, others⟩ := State.group_done once own
  refine ⟨done, fun j hj hle => (others j (State.ne_of_mem_cueFollowers hj)).trans ?_⟩
  refine foldl_reaches (P := fun t => t.cueState d j = 2)
    (Q := fun t => t.cueView d k = s.cueView d k
      ∧ t.cueCoordInstant d (t.cueEntry d j) = s.cueCoordInstant d (s.cueEntry d j)) hj
    (fun t i hi hq => ?_) (fun t hq => ?_) (fun t i hi hq hp => ?_) ⟨rfl, rfl⟩
  all_goals obtain ⟨hk, hc⟩ := hq
  · refine ⟨(State.cueView_armCueAt (State.ne_of_mem_cueFollowers hi) ..).trans hk, ?_⟩
    by_cases hij : i = j
    · subst hij
      rw [State.armCueAt, (State.cueInstant_of_view hk).1, hc, if_pos hle]
      refine Eq.trans ?_ hc
      cases d <;> rfl
    · exact (State.cueInstant_of_view (State.cueView_armCueAt hij ..)).2.2.2.trans hc
  · rw [State.armCueAt, (State.cueInstant_of_view hk).1, hc, if_pos hle]
    exact State.cueState_setCue ..
  · by_cases hij : i = j
    · subst hij
      rw [State.armCueAt, (State.cueInstant_of_view hk).1, hc, if_pos hle]
      exact State.cueState_setCue ..
    · exact (State.cueInstant_of_view (State.cueView_armCueAt hij ..)).2.2.1.trans hp

theorem execCueDisarmGroup_effect {k : Fin 1024} (h2 : s.cueState d k = 2) (ha : cueAction (s.cueEntry d k) = 0x0B)
    (ht : s.cueTurn d k = true) (once : cuePeriod (s.cueEntry d k) = 0 ∨ cueRepeat (s.cueEntry d k) = 0) :
    ∃ t, execCueDisarmGroup d k s = .next t ∧ t.cueState d k = 4 ∧ ∀ j ∈ s.cueFollowers d k 2, t.cueState d j = 1 := by
  refine ⟨_, State.cueSelf_eq h2 ha ht, ?_⟩
  have own : ((s.cueFollowers d k 2).foldl (fun (s : State) j => s.disarmCue d j) s).cueView d k = s.cueView d k :=
    foldl_keeps (·.cueView d k) (fun t i hi => State.cueView_disarmCue (State.ne_of_mem_cueFollowers hi) ..)
  obtain ⟨done, others⟩ := State.group_done once own
  refine ⟨done, fun j hj => (others j (State.ne_of_mem_cueFollowers hj)).trans ?_⟩
  refine foldl_reaches (P := fun t => t.cueState d j = 1) (Q := fun _ => True) hj (fun _ _ _ _ => trivial)
    (fun t _ => State.cueState_setCue ..) (fun t i hi _ hp => ?_) trivial
  by_cases hij : i = j
  · subst hij
    exact State.cueState_setCue ..
  · exact (State.cueInstant_of_view (State.cueView_disarmCue hij ..)).2.2.1.trans hp

end

/-- Settles O43: a taken action is its target's operation followed by `cueDone`; a group cue's fold leaves the entries it does not
name. -/
theorem cuesExecuteInTurn : Obligations.CuesExecuteInTurn := by
  unfold Obligations.CuesExecuteInTurn
  extract_lets acts acts_
  refine ⟨fun s d k x hx => ?_, fun s d k n hn => ?_,
    fun s d k c h3 ha ht hi hc hn hs hr hq => State.cueRun_key h3 ha ht hi hc hn hs hr hq,
    fun s d k h2 ht once => ⟨fun ha hr => execCueMarker_effect h2 ha ht once hr, fun ha => execCueArmGroup_effect h2 ha ht once,
      fun ha => execCueDisarmGroup_effect h2 ha ht once⟩⟩
  · have run : exec (x.2 d k) s = s.cueRun d k x.1 := by
      simp only [acts, List.mem_cons, List.not_mem_nil, or_false] at hx
      obtain rfl | rfl | rfl | rfl | rfl | rfl | rfl | rfl := hx <;> rfl
    rw [run]
    exact ⟨State.cueRun_idle, State.cueRun_ends⟩
  · subst hn
    have done : ∀ {a : Nat}, acts_ s d k a → s.cueTakes d k a := fun h => h
    have flow : ∀ start, (acts_ s d k (if start then 4 else 5)) → s.cueActs d k
        (s.cueFlow d (cueIndex (s.cueEntry d k)) (cueInst (s.cueEntry d k)) start (s.cueInstant d k)) := by
      rintro start ⟨-, ha, -⟩
      unfold State.cueActs State.cueAct
      rw [ha]
      cases start <;> rfl
    have channel : ∀ start, (acts_ s d k (if start then 6 else 7)) → s.cueActs d k
        (s.cueChannel d (cueIndex (s.cueEntry d k)) (cueInst (s.cueEntry d k)) start (s.cueInstant d k)) := by
      rintro start ⟨-, ha, -⟩
      unfold State.cueActs State.cueAct
      rw [ha]
      cases start <;> rfl
    refine ⟨fun h => ⟨_, (done h).run.1, (done h).run.2, fun hi => (done h).commit hi⟩,
      fun h => ⟨_, (done h).run.1, (done h).run.2, fun p hp => (done h).audio hp⟩,
      fun h => ⟨_, (done h).run.1, (done h).run.2, fun hs => (done h).flow (start := true) (by simpa using hs) (flow true h)⟩,
      fun h => ⟨_, (done h).run.1, (done h).run.2, fun hs => (done h).flow (start := false) (by simpa using hs) (flow false h)⟩,
      fun h => ⟨_, (done h).run.1, (done h).run.2, fun hs => (done h).channel (start := true) hs (channel true h)⟩,
      fun h => ⟨_, (done h).run.1, (done h).run.2, fun hs => (done h).channel (start := false) hs (channel false h)⟩,
      fun a h ha => ⟨_, (done h).run.1, (done h).run.2, fun hne => ?_⟩⟩
    subst ha
    exact (done h).format hne

end Sys2Proof.Machine
end

section
namespace Sys2Proof.Machine

/-! ### Lists of objects -/

theorem filter_mapPut {α : Type} {p : ObjAddr × α → Bool} {a : ObjAddr} (h : ∀ w, p (a, w) = false)
    (m : List (ObjAddr × α)) (v : α) : (mapPut m a v).filter p = m.filter p := by
  induction m with
  | nil => simp [mapPut, h]
  | cons e m ih =>
    obtain ⟨b, w⟩ := e
    simp only [mapPut]
    split
    · next hb => subst hb; simp [h]
    · split
      · simp [h]
      · rw [List.filter_cons, List.filter_cons, ih]

/-- A write leaves the lists of other rows. -/
theorem State.listed_wr_apart {o p : ObjDef} (h : o.apart p = true) (s : State) (d e : Die) (i : Nat) (v : Int) (f : Nat → Int → Bool) :
    (s.wr o d i v).listed p e f = s.listed p e f := by
  have other : ∀ w : Int, ((o.addr d i).index == p.index && (o.addr d i).sub == p.sub && (o.addr d i).die == e
      && f (o.addr d i).inst w) = false := by
    intro w
    simp only [ObjDef.apart, Bool.or_eq_true, bne_iff_ne] at h
    rcases h with h | h <;> simp [ObjDef.addr, h]
  exact congrArg (List.map (·.1.inst)) (filter_mapPut (p := fun e' : ObjAddr × Int =>
    e'.1.index == p.index && e'.1.sub == p.sub && e'.1.die == e && f e'.1.inst e'.2) other s.objs v)

/-! ### A request as its checks see it (R479, R480) -/

section
variable (s : State)

theorem State.rd_modeAsked {o : ObjDef} (h : Obj.modeStatus.apart o = true) (d : Die) (i : Nat) : s.modeAsked.rd o d i = s.rd o d i :=
  State.rd_clrBit_apart h ..

theorem State.rdN_modeAsked {o : ObjDef} (h : Obj.modeStatus.apart o = true) (d : Die) (i : Nat) : s.modeAsked.rdN o d i = s.rdN o d i := by
  rw [State.rdN, State.rd_modeAsked s h, State.rdN]

theorem State.listed_modeAsked {o : ObjDef} (h : Obj.modeStatus.apart o = true) (d : Die) (f : Nat → Int → Bool) :
    s.modeAsked.listed o d f = s.listed o d f :=
  State.listed_wr_apart h ..

theorem State.mode_modeAsked : s.modeAsked.mode = s.mode := State.mode_of_rd (s.rd_modeAsked rfl ..)

theorem State.reachable_modeAsked (d : MDie) : s.modeAsked.reachable d = s.reachable d := by
  have up : ∀ e, s.modeAsked.up e = s.up e := fun e => by cases e <;> rfl
  rw [State.reachable, up, up, s.rdN_modeAsked rfl, State.reachable]

theorem State.livingDies_modeAsked : s.modeAsked.livingDies = s.livingDies := by
  simp only [State.livingDies, State.reachable_modeAsked]

theorem State.refDiffer_modeAsked (sel : Bool) : s.modeAsked.refDiffer sel = s.refDiffer sel := by
  simp (disch := decide) only [State.refDiffer, State.twillConfigured, State.livingDies_modeAsked, State.twlQuads, State.quad,
    State.rdN_modeAsked]

theorem State.timeHolds_modeAsked (m : Mode) : s.modeAsked.timeHolds m = s.timeHolds m := by
  simp (disch := decide) only [State.timeHolds, State.rdN_modeAsked]

theorem State.diesMissing_modeAsked (m : Mode) : s.modeAsked.diesMissing m = s.diesMissing m := by
  simp only [State.diesMissing, State.livingDies_modeAsked]

theorem State.fsyFor_modeAsked (d : MDie) (p : Nat) : s.modeAsked.fsyFor d p = s.fsyFor d p := by
  unfold State.fsyFor State.srcBind State.fsyOf
  rw [s.rdN_modeAsked (o := Obj.loomSrcBind) rfl, s.listed_modeAsked (o := Obj.fsySource) rfl]
  rfl

theorem State.srcAttr_modeAsked (d : MDie) (p : Nat) : s.modeAsked.srcAttr d p = s.srcAttr d p := by
  have bytes : ∀ f, s.modeAsked.inDesc d f = s.inDesc d f := fun f => rfl
  simp (disch := decide) only [State.srcAttr, State.srcBind, State.flowAttr, State.fsyFor_modeAsked, bytes, State.rdN_modeAsked]

theorem State.dstAttr_modeAsked (d : MDie) (p : Nat) : s.modeAsked.dstAttr d p = s.dstAttr d p := by
  simp (disch := decide) only [State.dstAttr, State.dstBind, State.rdN_modeAsked]

theorem State.pairHolds_modeAsked (m : Mode) : s.modeAsked.pairHolds m = s.pairHolds m := by
  have legs : s.modeAsked.legMissing .a = s.legMissing .a := rfl
  have short : s.modeAsked.routeShort .a (fun p => s.modeAsked.rdN Obj.loomRouteSource .a p)
      = s.routeShort .a (fun p => s.rdN Obj.loomRouteSource .a p) := by
    simp (disch := decide) only [State.routeShort, State.boundDsts, State.minLag, State.dstBind, State.srcAttr_modeAsked,
      State.dstAttr_modeAsked, State.rdN_modeAsked, State.listed_modeAsked]
  simp only [State.pairHolds, legs, short, State.refDiffer_modeAsked]

/-- The checks of R480 do not see that the retries of R479 end. -/
theorem State.moveReason_modeAsked (m : Mode) : s.modeAsked.moveReason m = s.moveReason m := by
  have trans : s.modeAsked.trans = s.trans := rfl
  simp only [State.moveReason, State.mode_modeAsked, State.timeHolds_modeAsked, State.pairHolds_modeAsked,
    State.diesMissing_modeAsked, trans]

end

/-! ### Refusals (R480) -/

/-- What a refused request shows. -/
def State.Declines (s t : State) (m : Mode) (reason : Nat) : Prop :=
  t.answer = .rejected 0x1002 ∧ t.rd Obj.modeRefuse .p 0 = (reason : Nat) ∧ t.bit Obj.modeSticky .p 0 0 = true ∧ t.mode = s.mode
    ∧ s.reported t .c 0x1002 0 (p16 [m.num, reason])

theorem State.declines_refuseMode (s : State) (m : Mode) (reason : Nat) : s.Declines (s.modeAsked.refuseMode m reason 0x1002) m reason := by
  unfold State.refuseMode State.Declines
  refine ⟨rfl, ?_, ?_, ?_, (State.reported_ans ..).mpr (State.reported_raiseC (Nat.le_of_eq ?_) ..)⟩
  · rw [State.rd_ans, State.rd_raise rfl, State.rd_setBit_apart rfl, State.rd_wr_same]
  · rw [State.bit_ans, State.bit_raise rfl, State.bit_setBit_same]
  · refine State.mode_of_rd ?_
    rw [State.rd_ans, State.rd_raise rfl, State.rd_setBit_apart rfl, State.rd_wr_apart rfl, State.rd_modeAsked s rfl]
  · rw [State.rdN_setBit_apart rfl, State.rdN_wr_apart rfl, State.rdN_modeAsked s rfl]

theorem State.requestMode_refused {s : State} {m : Mode} {r : Nat} (h : s.moveReason m = some r) :
    s.requestMode m = s.modeAsked.refuseMode m r 0x1002 := by
  unfold State.requestMode
  dsimp only
  rw [← State.modeAsked, State.moveReason_modeAsked, h]

theorem State.requestMode_moves {s u : State} {m : Mode} (h : s.moveReason m = none) (hm : s.modeAsked.move m = (u, none)) :
    s.requestMode m = u.ans .ok := by
  unfold State.requestMode
  dsimp only
  rw [← State.modeAsked, State.moveReason_modeAsked, h, hm]

theorem State.requestMode_fails {s u : State} {m : Mode} {r code : Nat} (h : s.moveReason m = none)
    (hm : s.modeAsked.move m = (u, some (r, code))) : s.requestMode m = u.refuseMode m r code := by
  unfold State.requestMode
  dsimp only
  rw [← State.modeAsked, State.moveReason_modeAsked, h, hm]

/-- Nothing holds a move back. -/
theorem State.moveReason_none {s : State} {m : Mode} (hl : listedMove s.mode m = true) (ht : s.timeHolds m = false)
    (hp : s.pairHolds m = false) (hd : s.diesMissing m = false) (hn : s.trans = none) : s.moveReason m = none := by
  simp [State.moveReason, hl, ht, hp, hd, hn]

theorem State.moveReason_free {s : State} {m : Mode} (hm : m = .standby ∨ m = .configure) (hl : listedMove s.mode m = true)
    (hn : s.trans = none) : s.moveReason m = none := by
  rcases hm with rfl | rfl <;> exact State.moveReason_none hl rfl rfl rfl hn

/-! ### Modes entered (R480) -/

section
variable {c : Bool} {s t : State}

theorem Works.mode (h : Works c s t) : t.mode = s.mode := State.mode_of_rd (h.rd _ rfl ..)

theorem Works.slvState (h : Works c s t) (d : MDie) : t.slvState d = s.slvState d := by
  rw [State.slvState, State.rdN, h.rd _ rfl, State.slvState, State.rdN]

theorem Works.bit (h : Works c s t) {o : ObjDef} (ho : o.firm = true) (d : Die) (i n : Nat) : t.bit o d i n = s.bit o d i n :=
  State.bit_of_rd (h.rd _ ho ..) n

theorem Mode.ofNum_num (m : Mode) : Mode.ofNum m.num = m := by cases m <;> rfl

theorem State.mode_enterMode (s : State) (m : Mode) : (s.enterMode m).mode = m := by
  rw [State.mode, State.enterMode, State.rdN_raise rfl, State.rdN_wr_apart rfl, State.setMode, State.rdN_wr_same, Int.toNat_natCast,
    Mode.ofNum_num]

theorem State.previous_enterMode (s : State) (m : Mode) : (s.enterMode m).rd Obj.modePrevious .p 0 = (s.mode.num : Nat) := by
  rw [State.enterMode, State.rd_raise rfl, State.rd_wr_same]

/-- Entering a mode leaves the rows but MODE.STATE, MODE.PREVIOUS and those of the logs. -/
theorem State.rd_enterMode {o : ObjDef} (hq : o.quiet = true) (hs : Obj.modeState.apart o = true) (hp : Obj.modePrevious.apart o = true)
    (s : State) (m : Mode) (d : Die) (i : Nat) : (s.enterMode m).rd o d i = s.rd o d i := by
  rw [State.enterMode, State.rd_raise hq, State.rd_wr_apart hp, State.setMode, State.rd_wr_apart hs]

theorem State.trans_enterMode (s : State) (m : Mode) : (s.enterMode m).trans = s.trans := by
  rw [State.enterMode, State.trans_raise, State.trans_wr, State.trans_setMode]

/-- From a state the part's blocks work, a mode is entered, and the blocks follow it. -/
def State.Enters (s t : State) (m : Mode) : Prop := ∃ w, Works false s w ∧ Works false (w.enterMode m) t

theorem State.Enters.mode {m : Mode} (h : s.Enters t m) : t.mode = m := by
  obtain ⟨w, -, after⟩ := h
  rw [after.mode, State.mode_enterMode]

theorem State.Enters.previous {m : Mode} (h : s.Enters t m) : t.rd Obj.modePrevious .p 0 = (s.mode.num : Nat) := by
  obtain ⟨w, before, after⟩ := h
  rw [after.rd _ rfl, State.previous_enterMode, before.mode]

/-- Entering a mode leaves the firm rows but those of the mode. -/
theorem State.Enters.rd {m : Mode} (h : s.Enters t m) {o : ObjDef} (ho : o.firm = true) (hq : o.quiet = true)
    (hs : Obj.modeState.apart o = true) (hp : Obj.modePrevious.apart o = true) (d : Die) (i : Nat) : t.rd o d i = s.rd o d i := by
  obtain ⟨w, before, after⟩ := h
  rw [after.rd _ ho, State.rd_enterMode hq hs hp, before.rd _ ho]

theorem State.Enters.trans {m : Mode} (h : s.Enters t m) : t.trans = s.trans := by
  obtain ⟨w, before, after⟩ := h
  rw [after.trans, State.trans_enterMode, before.trans]

theorem State.Enters.slvState {m : Mode} (h : s.Enters t m) (d : MDie) : t.slvState d = s.slvState d := by
  rw [State.slvState, State.rdN, h.rd rfl rfl rfl rfl, State.slvState, State.rdN]

theorem State.Enters.works {m : Mode} {u : State} (h : s.Enters t m) (k : Works c t u) : s.Enters u m := by
  obtain ⟨w, before, after⟩ := h
  exact ⟨w, before, ⟨k.time.trans after.time, k.trans.trans after.trans, fun o ho d i => (k.rd o ho d i).trans (after.rd o ho d i),
    fun f => absurd f (by decide)⟩⟩

theorem State.Enters.before {m : Mode} {r : State} (h : s.Enters t m) (k : Works false r s) : r.Enters t m := by
  obtain ⟨w, before, after⟩ := h
  exact ⟨w, ⟨before.time.trans k.time, before.trans.trans k.trans, fun o ho d i => (before.rd o ho d i).trans (k.rd o ho d i),
    fun f => absurd f (by decide)⟩, after⟩

theorem State.toStandby_enters (s : State) : s.Enters s.toStandby .standby := by
  refine ⟨_, (Works.refl s).modulesStandby, .leaveFabric (.diesFollow (.foldl (fun _ _ h => ?_) (.refl _)))⟩
  exact .foldl (fun _ _ h => .decIdle h) (.audOff (.loomOff (.videoOff (.ramSleep h))))

theorem State.restConfigured_enters (s : State) : s.Enters s.restConfigured .standby := by
  refine (State.toStandby_enters _).before (.foldl (fun _ _ h => .takeRefFormat h) (.foldl (fun _ _ h => ?_) (Works.refl s).applyEqTable))
  exact h.portsInForce.queuesInForce

theorem State.leaveStandby_enters (s : State) : s.Enters s.leaveStandby .configure :=
  ⟨s, .refl s, .foldl (fun _ _ h => .ramWake h) (.diesFollow (.refl _))⟩

/-! ### The pair's rows (R413) -/

theorem MDie.die_ne : ∀ {d e : MDie}, d ≠ e → d.die ≠ e.die := by
  intro d e
  cases d <;> cases e <;> decide

theorem State.rd_setSlv {o : ObjDef} (hf : o.firm = true) (ha : Obj.slvState.apart o = true) (s : State) (d : MDie) (n : Nat) (e : Die)
    (i : Nat) : (s.setSlv d n).rd o e i = s.rd o e i := by
  rw [State.setSlv, ((Works.refl (cues := false) _).showPair).rd _ hf, State.rd_wr_apart ha]

theorem State.slvState_setSlv (s : State) (d e : MDie) (n : Nat) : (s.setSlv d n).slvState e = if d = e then n else s.slvState e := by
  rw [State.setSlv, ((Works.refl (cues := false) _).showPair).slvState, State.slvState]
  split
  · next h => rw [h, State.rdN_wr_same, Int.toNat_natCast]
  · next h => rw [State.rdN, State.rd_wr_die (MDie.die_ne h)]; rfl

theorem State.trans_setSlv (s : State) (d : MDie) (n : Nat) : (s.setSlv d n).trans = s.trans := by
  rw [State.setSlv, ((Works.refl (cues := false) _).showPair).trans, State.trans_wr]

/-- Giving the pair up leaves the firm rows but SLV.STATE, which is OFF. -/
theorem State.endPair_effect (s : State) : s.endPair.slvState .a = 0 ∧ s.endPair.slvState .b = 0 ∧ s.endPair.trans = s.trans
    ∧ ∀ o : ObjDef, o.firm = true → Obj.slvState.apart o = true → ∀ d i, s.endPair.rd o d i = s.rd o d i := by
  obtain ⟨u, hu, hp⟩ : ∃ u, Works false s u ∧ Works false ((u.setSlv .a 0).setSlv .b 0) s.endPair :=
    ⟨_, .foldl (fun _ _ h => .ite (.pushPackets (.updSlv h)) (.updSlv h)) (.refl s), .setPair (.refl _)⟩
  refine ⟨?_, ?_, ?_, fun o hf ha d i => ?_⟩
  · rw [hp.slvState, State.slvState_setSlv, State.slvState_setSlv]
    rfl
  · rw [hp.slvState, State.slvState_setSlv]
    rfl
  · rw [hp.trans, State.trans_setSlv, State.trans_setSlv, hu.trans]
  · rw [hp.rd _ hf, State.rd_setSlv hf ha, State.rd_setSlv hf ha, hu.rd _ hf]

/-- The pair begins with Die A as its owner. -/
theorem State.beginPair_effect (s : State) (a b : Nat) : (s.beginPair a b).slvState .a = a ∧ (s.beginPair a b).ownsPair .a = true
    ∧ (s.beginPair a b).trans = s.trans
    ∧ ∀ o : ObjDef, o.firm = true → Obj.slvState.apart o = true → Obj.slvOwner.apart o = true →
      ∀ d i, (s.beginPair a b).rd o d i = s.rd o d i := by
  obtain ⟨v, hv, e⟩ : ∃ v, Works false s v ∧ s.beginPair a b = ((v.setOwner .a).setSlv .a a).setSlv .b b := by
    refine ⟨_, .setPair (.foldl (fun _ _ h => ?_) (.refl s)), rfl⟩
    exact h.updSlv.wr
  have owner : Works false (v.wr Obj.slvOwner .p 0 (MDie.a.num : Nat)) (v.setOwner .a) := .showPair (.refl _)
  rw [e]
  refine ⟨?_, ?_, ?_, fun o hf ha hw d i => ?_⟩
  · rw [State.slvState_setSlv, if_neg (by decide), State.slvState_setSlv, if_pos rfl]
  · rw [State.ownsPair, State.rdN, State.rd_setSlv rfl rfl, State.rd_setSlv rfl rfl, owner.rd _ rfl, State.rd_wr_same]
    rfl
  · rw [State.trans_setSlv, State.trans_setSlv, owner.trans, State.trans_wr, hv.trans]
  · rw [State.rd_setSlv hf ha, State.rd_setSlv hf ha, owner.rd _ hf, State.rd_wr_apart hw, hv.rd _ hf]

/-- A mode with live streams is entered (R481). -/
theorem State.mode_goLive (s : State) (m : Mode) : (s.goLive m).mode = m := by
  unfold State.goLive
  extract_lets start u v
  have hv : u.Enters v m := ⟨u, .refl u, .diesFollow (.refl _)⟩
  refine (hv.works (c := false) (.foldl (fun w d h => ?_) (.refl v))).mode
  have started : ∀ x : State, Works false v x → Works false v (if m = .test then x else x.autostart d start) := fun x hx =>
    .ite hx (.autostart hx)
  have reports : Works false v ((List.range 32).foldl (fun (s : State) p => s.igmpReports d p) w) :=
    .foldl (fun _ _ h => .igmpReports h) h
  exact .ite (.foldl (fun _ _ h => .flowControl h) (started _ reports)) (started _ reports)

/-! ### The stop rule (R482) -/

/-- The stop rule begins: the mode stays and the transition is shown. -/
theorem State.beginStop_effect (s : State) (m : Mode) (t : Nat) : (s.beginStop m t).mode = s.mode
    ∧ (s.beginStop m t).rd Obj.modePending .p 0 = (m.num : Nat) ∧ (s.beginStop m t).bit Obj.modeStatus .p 0 0 = true
    ∧ (s.beginStop m t).trans = some { target := m, instant := t, source := s.mode } := by
  unfold State.beginStop
  extract_lets src u v
  have hv : Works false v (([MDie.a, MDie.b]).foldl (fun (s : State) d => if s.up d.pdie then s.stopStreams d (.ofNs t) else s) v) :=
    .foldl (fun _ _ h => .ite (.stopStreams h) h) (.refl v)
  refine ⟨hv.mode.trans (State.mode_of_rd ?_), (hv.rd _ rfl ..).trans ?_, (hv.bit rfl ..).trans ?_, hv.trans⟩
  · exact (State.rd_setBit_apart rfl ..).trans (State.rd_wr_apart rfl ..)
  · exact (State.rd_setBit_apart rfl ..).trans (State.rd_wr_same ..)
  · exact State.bit_setBit_same ..

/-- CONFIGURE is entered after the stop rule, with the pair given up where it ran. -/
theorem State.intoConfigure_enters (s : State) : ∃ u, (Works false s u ∨ ∃ w, Works false s w ∧ u = w.endPair)
    ∧ u.Enters s.intoConfigure .configure := by
  unfold State.intoConfigure
  extract_lets src v w x
  have hv : Works false s v := .ite (Works.refl s).leaveTest (.refl s)
  refine ⟨w, ?_, x, .foldl (fun _ _ h => .videoOff (.audStop h)) (.refl w), .diesFollow (.refl _)⟩
  unfold w
  split
  · exact .inl hv
  · exact .inr ⟨v, hv, rfl⟩

/-- CONFIGURE after the stop rule: the rows of the mode's transition stay. -/
theorem State.intoConfigure_effect (s : State) : s.intoConfigure.mode = .configure ∧ s.intoConfigure.trans = s.trans
    ∧ s.intoConfigure.rd Obj.modePending .p 0 = s.rd Obj.modePending .p 0
    ∧ s.intoConfigure.rd Obj.modeStatus .p 0 = s.rd Obj.modeStatus .p 0 := by
  obtain ⟨u, pair, enters⟩ := s.intoConfigure_enters
  have same : u.trans = s.trans ∧ ∀ o : ObjDef, o.firm = true → Obj.slvState.apart o = true → ∀ d i, u.rd o d i = s.rd o d i := by
    rcases pair with h | ⟨w, h, rfl⟩
    · exact ⟨h.trans, fun o ho _ => h.rd o ho⟩
    · obtain ⟨-, -, trans, rd⟩ := w.endPair_effect
      exact ⟨trans.trans h.trans, fun o ho ha d i => (rd o ho ha d i).trans (h.rd o ho d i)⟩
  obtain ⟨trans, rd⟩ := same
  exact ⟨enters.mode, enters.trans.trans trans, (enters.rd rfl rfl rfl rfl ..).trans (rd _ rfl rfl ..),
    (enters.rd rfl rfl rfl rfl ..).trans (rd _ rfl rfl ..)⟩

/-- Die B's return leaves the firm rows but its place in the pair (R416). -/
theorem State.tryReturn_leaves (s : State) : (s.tryReturn .b).trans = s.trans ∧ (s.tryReturn .b).slvState .a = s.slvState .a
    ∧ ∀ o : ObjDef, o.firm = true → Obj.slvState.apart o = true → ∀ d i, (s.tryReturn .b).rd o d i = s.rd o d i := by
  rcases Works.tryReturn s .b with h | ⟨u, h, e⟩
  · exact ⟨h.trans, h.slvState .a, fun o ho _ => h.rd o ho⟩
  · have back : Works false (u.setSlv .b 6) (s.tryReturn .b) := e ▸ Works.rejoin u .b
    refine ⟨by rw [back.trans, State.trans_setSlv, h.trans], ?_, fun o ho ha d i => ?_⟩
    · rw [back.slvState, State.slvState_setSlv, if_neg (by decide), h.slvState]
    · rw [back.rd _ ho, State.rd_setSlv ho ha, h.rd _ ho]

/-- Die A goes on alone as the owner (R483). -/
theorem State.intoSelvedge_effect (s : State) : s.intoSelvedge.mode = .selvedge ∧ s.intoSelvedge.slvState .a = 3
    ∧ s.intoSelvedge.ownsPair .a = true ∧ s.intoSelvedge.trans = s.trans
    ∧ s.intoSelvedge.rd Obj.modePending .p 0 = s.rd Obj.modePending .p 0
    ∧ s.intoSelvedge.rd Obj.modeStatus .p 0 = s.rd Obj.modeStatus .p 0 := by
  obtain ⟨solo, owner, trans, rd⟩ := s.beginPair_effect 3 5
  have enters : (s.beginPair 3 5).Enters (((s.beginPair 3 5).enterMode .selvedge).diesFollow .selvedge) .selvedge :=
    ⟨_, .refl _, .diesFollow (.refl _)⟩
  unfold State.intoSelvedge
  dsimp only
  generalize ((s.beginPair 3 5).enterMode .selvedge).diesFollow .selvedge = u at enters ⊢
  have alone : u.slvState .a = 3 := (enters.slvState .a).trans solo
  have owned : ∀ v : State, v.rd Obj.slvOwner .p 0 = u.rd Obj.slvOwner .p 0 → v.ownsPair .a = true := fun v h => by
    rw [State.ownsPair, State.rdN, h, enters.rd rfl rfl rfl rfl]
    exact owner
  have pending := (enters.rd (o := Obj.modePending) rfl rfl rfl rfl .p 0).trans (rd _ rfl rfl rfl ..)
  have status := (enters.rd (o := Obj.modeStatus) rfl rfl rfl rfl .p 0).trans (rd _ rfl rfl rfl ..)
  split
  · obtain ⟨back, die, rows⟩ := u.tryReturn_leaves
    exact ⟨(State.mode_of_rd (rows _ rfl rfl ..)).trans enters.mode, die.trans alone, owned _ (rows _ rfl rfl ..),
      back.trans (enters.trans.trans trans), (rows _ rfl rfl ..).trans pending, (rows _ rfl rfl ..).trans status⟩
  · exact ⟨enters.mode, alone, owned u rfl, enters.trans.trans trans, pending, status⟩

/-- STOP_RULE_COMPLETE with every stream stopped (R482, R483). -/
theorem execStopRuleComplete_effect {u : Trans} (ht : s.trans = some u) (hup : s.serverUp = true) (ha : s.stopped .a = true)
    (hb : s.stopped .b = true) :
    ∃ t, execStopRuleComplete s = .next t ∧ t.trans = none ∧ t.rd Obj.modePending .p 0 = 0xFF ∧ t.bit Obj.modeStatus .p 0 0 = false
      ∧ (u.target = .selvedge → t.mode = .selvedge ∧ t.slvState .a = 3 ∧ t.ownsPair .a = true)
      ∧ (u.target ≠ .selvedge → t.mode = .configure) := by
  have run : execStopRuleComplete s = .next
      (let v := ({ s with trans := none }.wr Obj.modePending .p 0 0xFF).clrBit Obj.modeStatus .p 0 0
       if u.target = .selvedge then v.intoSelvedge else v.intoConfigure) := by
    unfold execStopRuleComplete
    rw [ht]
    exact when_pos (by simp [hup, ha, hb]) _ _
  rw [run]
  extract_lets v
  have none : v.trans = none := rfl
  have pending : v.rd Obj.modePending .p 0 = 0xFF := (State.rd_clrBit_apart rfl ..).trans (State.rd_wr_same ..)
  have status : v.bit Obj.modeStatus .p 0 0 = false := State.bit_clrBit_same ..
  clear_value v
  refine ⟨_, rfl, ?_⟩
  split
  · next h =>
    obtain ⟨mode, solo, owner, trans, hp, hs⟩ := v.intoSelvedge_effect
    exact ⟨trans.trans none, hp.trans pending, (State.bit_of_rd hs _).trans status, fun _ => ⟨mode, solo, owner⟩,
      fun k => absurd h k⟩
  · next h =>
    obtain ⟨mode, trans, hp, hs⟩ := v.intoConfigure_effect
    exact ⟨trans.trans none, hp.trans pending, (State.bit_of_rd hs _).trans status, fun k => absurd k h, fun _ => mode⟩

end

/-! ### Cut channels (R482) -/

section
variable (s : State) (d e : MDie) (c k : Nat)

theorem State.encState_updEnc (f : EncSt → EncSt) : (s.updEnc e k f).encState d c = s.encState d c := by
  simp only [State.encState, State.updEnc, State.rdN, State.rd_updMd]

theorem State.encState_raise (p : PDie) (x i y : Nat) : (s.raise p x i y).encState d c = s.encState d c :=
  State.rdN_raise rfl ..

theorem State.encState_encCut : (s.encCut e k).encState d c = s.encState d c := by
  unfold State.encCut
  refine (State.encState_updEnc ..).trans (foldl_leaves (·.encState d c) (fun u p => ?_) ..)
  split
  · rw [State.encState_raise, State.encState, State.rdN_setBit_apart rfl, State.encState]
  · rfl

theorem State.encState_setEncState_other (h : e ≠ d ∨ k ≠ c) (st : Nat) : (s.setEncState e k st).encState d c = s.encState d c := by
  have other : (s.wr Obj.encChState e.die k (st : Nat)).rd Obj.encChState d.die c = s.rd Obj.encChState d.die c := by
    rcases h with h | h
    · exact State.rd_wr_die (MDie.die_ne h) ..
    · exact State.rd_wr_inst h ..
  rw [State.encState, State.setEncState, State.rdN, State.rd_putBit_apart rfl, other, State.encState, State.rdN]

/-- A cut channel is IDLE. -/
theorem State.encState_cutChannel : (s.cutChannel d c).encState d c = 0 := by
  unfold State.cutChannel State.encEnded
  dsimp only
  rw [State.enc_updEnc, State.enc_updEnc, if_pos rfl, State.encState_raise, State.encState_updEnc, State.encState_setEncState]

/-- Cutting a channel leaves the others' state. -/
theorem State.encState_cutChannel_other (h : e ≠ d ∨ k ≠ c) : (s.cutChannel e k).encState d c = s.encState d c := by
  unfold State.cutChannel State.encEnded
  dsimp only
  rw [State.enc_updEnc, State.enc_updEnc, if_pos rfl, State.encState_raise, State.encState_updEnc,
    State.encState_setEncState_other _ _ _ _ _ h, State.encState_updEnc, State.encState_updEnc, State.encState_encCut]

end

/-- STOP_RULE_CUT 2 s after the instant (R482). -/
theorem execStopRuleCut_effect {s : State} {u : Trans} {d : MDie} {c : Nat} (ht : s.trans = some u) (hup : s.serverUp = true)
    (hlate : u.instant + 2 * nsPerSec ≤ s.time.base) (hfrom : (s.stopFrom d).isSome = true) (hd : s.up d.pdie = true)
    (hc : c ∈ s.encChannels d) (hs : s.encState d c ≠ 0) :
    ∃ t, execStopRuleCut s = .next t ∧ t.encState d c = 0 ∧ t.bit Obj.modeSticky .p 0 4 = true := by
  unfold execStopRuleCut
  rw [ht]
  extract_lets l
  have named : (d, c) ∈ l := by
    refine List.mem_flatMap.mpr ⟨d, by cases d <;> decide, ?_⟩
    rw [if_neg (by simp [hd, Option.isSome_iff_ne_none.mp hfrom])]
    exact List.mem_map.mpr ⟨c, List.mem_filter.mpr ⟨hc, by simpa using hs⟩, rfl⟩
  clear_value l
  have some_ : l.isEmpty = false := by
    cases l with
    | nil => cases named
    | cons => rfl
  refine ⟨_, when_pos (by simp [hup, hlate, some_]) _ _, ?_, State.bit_setBit_same ..⟩
  rw [State.encState, State.rdN_setBit_apart rfl]
  refine foldl_reaches (P := fun t => t.encState d c = 0) (Q := fun _ => True) named (fun _ _ _ _ => trivial)
    (fun t _ => t.encState_cutChannel d c) (fun t x _ _ h => ?_) trivial
  by_cases same : x = (d, c)
  · rw [same]
    exact t.encState_cutChannel d c
  · refine (t.encState_cutChannel_other d x.1 c x.2 ?_).trans h
    by_contra none
    simp only [not_or, not_not] at none
    exact same (Prod.ext none.1 none.2)

/-! ### Moves (R481) -/

section
variable {s : State}

theorem State.move_fromStandby (h : s.mode = .standby) (m : Mode) : ∃ u, s.move m = (u, none) ∧ s.Enters u .configure := by
  refine ⟨s.leaveStandby, ?_, s.leaveStandby_enters⟩
  unfold State.move
  rw [h]

theorem State.move_toStandby (h : s.mode = .configure) (hr : s.refDiffer false = false) :
    ∃ u, s.move .standby = (u, none) ∧ s.Enters u .standby := by
  refine ⟨s.restConfigured, ?_, s.restConfigured_enters⟩
  unfold State.move
  rw [h]
  exact if_neg (Bool.eq_false_iff.mp hr)

/-- The modes with live streams. -/
def Mode.live (m : Mode) : Prop := m = .service ∨ m = .selvedge ∨ m = .test

theorem State.move_leaves {m : Mode} (h : s.mode = .configure) (hm : m.live) : s.move m = s.leaveFor m := by
  unfold State.move
  rw [h]
  rcases hm with rfl | rfl | rfl <;> rfl

theorem State.move_differ {m : Mode} (h : s.mode = .configure) (hm : m.live) (hr : s.refDiffer false = true) :
    s.move m = (s, some (6, 0x1002)) :=
  (State.move_leaves h hm).trans (if_pos hr)

theorem State.move_goesLive {m : Mode} (h : s.mode = .configure) (hm : m.live) (hr : s.refDiffer false = false)
    (hn : (s.leaveConfigure (m == .selvedge)).2 = none) : ∃ u, s.move m = (u, none) ∧ u.mode = m := by
  refine ⟨(s.leaveConfigure (m == .selvedge)).1.goLive m, (State.move_leaves h hm).trans ?_, State.mode_goLive ..⟩
  unfold State.leaveFor
  dsimp only
  rw [if_neg (Bool.eq_false_iff.mp hr), hn]

theorem State.move_fromRecovery (h : s.mode = .recovery) (m : Mode) :
    ∃ u, s.move m = (u, none) ∧ u.mode = .recovery ∧ u.recov.held = true ∧ u.objs = s.objs := by
  refine ⟨{ s with recov := { s.recov with held := true } }, ?_, h, rfl, rfl⟩
  unfold State.move
  rw [h]

theorem State.move_endsPair (h : s.mode = .selvedge) :
    ∃ u, s.move .service = (u, none) ∧ u.mode = .service ∧ u.slvState .a = 0 ∧ u.slvState .b = 0 := by
  have enters : s.endPair.Enters ((s.endPair.enterMode .service).diesFollow .service) .service := ⟨_, .refl _, .diesFollow (.refl _)⟩
  obtain ⟨offA, offB, -⟩ := s.endPair_effect
  unfold State.move
  rw [h]
  generalize (s.endPair.enterMode .service).diesFollow .service = u at enters ⊢
  exact ⟨u, rfl, enters.mode, (enters.slvState .a).trans offA, (enters.slvState .b).trans offB⟩

theorem State.move_stops (h : s.mode = .service ∨ s.mode = .selvedge ∨ s.mode = .test) :
    ∃ u, s.move .configure = (u, none) ∧ u.mode = s.mode ∧ u.rd Obj.modePending .p 0 = 3 ∧ u.bit Obj.modeStatus .p 0 0 = true
      ∧ u.trans = some { target := .configure, instant := s.time.base + 100000, source := s.mode } := by
  refine ⟨_, ?_, s.beginStop_effect .configure (s.time.base + 100000)⟩
  unfold State.move
  rcases h with h | h | h <;> rw [h]

/-- The stop rule runs on Die B alone toward SELVEDGE (R483). -/
theorem State.move_toSelvedge (h : s.mode = .service) : ∃ t, s.move .selvedge = (t, none) ∧ t.mode = .service
    ∧ t.rd Obj.modePending .p 0 = 5
    ∧ t.trans = some { target := .selvedge, instant := s.time.base + 100000, source := .service } := by
  have stop : ∀ v t, Works false v (v.stopStreams .b t) := fun v t => .stopStreams (.refl v)
  unfold State.move
  rw [h]
  refine ⟨_, rfl, ((stop _ _).mode).trans ?_, ((stop _ _).rd _ rfl ..).trans ?_, (stop _ _).trans⟩
  · rw [← h]
    exact State.mode_of_rd ((State.rd_setBit_apart rfl ..).trans (State.rd_wr_apart rfl ..))
  · exact (State.rd_setBit_apart rfl ..).trans (State.rd_wr_same ..)

end

/-- Settles O36: the checks do not see that the retries end, and each move enters its mode between the work of the part's blocks. -/
theorem modeRequestsFollowTheTransitionTable : Obligations.ModeRequestsFollowTheTransitionTable := by
  unfold Obligations.ModeRequestsFollowTheTransitionTable
  extract_lets asks refused
  have run : ∀ {s : State}, s.serverUp = true → ∀ x ∈ asks, exec x.2 s = .next (s.requestMode x.1) := by
    intro s hup x hx
    simp only [asks, List.mem_cons, List.not_mem_nil, or_false] at hx
    obtain rfl | rfl | rfl | rfl | rfl := hx <;> exact when_pos hup _ _
  have declined : ∀ {s : State}, s.serverUp = true → ∀ x ∈ asks, ∀ r, s.requestMode x.1 = s.modeAsked.refuseMode x.1 r 0x1002 →
      refused s x.1 x.2 r := by
    intro s hup x hx r h
    obtain ⟨answer, refuse, sticky, mode, reported⟩ := s.declines_refuseMode x.1 r
    exact ⟨_, (run hup x hx).trans (congrArg _ h), answer, refuse, sticky, mode, reported⟩
  have made : ∀ {s u : State}, s.serverUp = true → ∀ x ∈ asks, s.moveReason x.1 = none → s.modeAsked.move x.1 = (u, none) →
      exec x.2 s = .next (u.ans .ok) := fun hup x hx hr hm => (run hup x hx).trans (congrArg _ (State.requestMode_moves hr hm))
  have listed : ∀ {s : State} {m : Mode}, s.mode = .configure → m.live → listedMove s.mode m = true := by
    rintro s m hc (rfl | rfl | rfl) <;> rw [hc] <;> rfl
  have live : ∀ x ∈ asks.drop 2, x.1.live := by
    intro x hx
    simp only [asks, List.drop, List.mem_cons, List.not_mem_nil, or_false] at hx
    obtain rfl | rfl | rfl := hx <;> simp [Mode.live]
  refine ⟨fun s hup x hx => ⟨fun h => ?_, fun h ht => ?_⟩,
    fun s hup hn => ⟨fun hc hr => ?_, fun hb => ?_, fun hm => ?_, fun hm => ?_, fun hm ht hl => ?_, fun hm ht hp hl => ?_⟩,
    fun s hup hc hn x hx ht hd hp => ⟨fun hr => ?_, fun hr hl => ?_⟩,
    fun s hup hc hn hd hr hl => ?_, fun s u ht hup ha hb => execStopRuleComplete_effect ht hup ha hb,
    fun s u d c ht hup hlate hfrom hd hc hs => execStopRuleCut_effect ht hup hlate hfrom hd hc hs⟩
  · exact declined hup x hx 1 (State.requestMode_refused (if_pos (by simp [h])))
  · refine declined hup x hx 2 (State.requestMode_refused ?_)
    rw [State.moveReason, if_neg (by simp [h]), if_pos ht]
  · obtain ⟨u, move, enters⟩ := State.move_toStandby (s.mode_modeAsked.trans hc) ((s.refDiffer_modeAsked _).trans hr)
    have reason : s.moveReason .standby = none := State.moveReason_free (.inl rfl) (by rw [hc]; rfl) hn
    refine ⟨_, made hup (.standby, .modeRequestStandby) (by simp [asks]) reason move, enters.mode, rfl, enters.previous.trans ?_⟩
    rw [State.mode_modeAsked, hc]
    rfl
  · obtain ⟨u, move, enters⟩ := State.move_fromStandby (s.mode_modeAsked.trans hb) .configure
    have reason : s.moveReason .configure = none := State.moveReason_free (.inr rfl) (by rw [hb]; rfl) hn
    refine ⟨_, made hup (.configure, .modeRequestConfigure) (by simp [asks]) reason move, enters.mode, rfl, enters.previous.trans ?_⟩
    rw [State.mode_modeAsked, hb]
    rfl
  · obtain ⟨u, move, mode, pending, status, trans⟩ := State.move_stops (s := s.modeAsked) (by rw [State.mode_modeAsked]; exact hm)
    have reason : s.moveReason .configure = none :=
      State.moveReason_free (.inr rfl) (by rcases hm with h | h | h <;> rw [h] <;> rfl) hn
    rw [State.mode_modeAsked] at mode trans
    exact ⟨_, made hup (.configure, .modeRequestConfigure) (by simp [asks]) reason move, mode, rfl, pending, status, trans⟩
  · obtain ⟨u, move, mode, held, objs⟩ := State.move_fromRecovery (s.mode_modeAsked.trans hm) .configure
    have reason : s.moveReason .configure = none := State.moveReason_free (.inr rfl) (by rw [hm]; rfl) hn
    refine ⟨_, made hup (.configure, .modeRequestConfigure) (by simp [asks]) reason move, mode, rfl, held, fun a ha => ?_⟩
    exact (congrArg (mapGet · a) objs).trans (State.agree_wr s _ _ _ _ a ha)
  · obtain ⟨u, move, mode, offA, offB⟩ := State.move_endsPair (s.mode_modeAsked.trans hm)
    have reason : s.moveReason .service = none :=
      State.moveReason_none (by rw [hm]; rfl) ht rfl (by simpa [State.diesMissing] using hl) hn
    exact ⟨_, made hup (.service, .modeRequestService) (by simp [asks]) reason move, mode, rfl, offA, offB⟩
  · obtain ⟨u, move, mode, pending, trans⟩ := State.move_toSelvedge (s.mode_modeAsked.trans hm)
    have reason : s.moveReason .selvedge = none :=
      State.moveReason_none (by rw [hm]; rfl) ht hp (decide_eq_false (Nat.not_lt.mpr hl)) hn
    exact ⟨_, made hup (.selvedge, .modeRequestSelvedge) (by simp [asks]) reason move, mode, rfl, pending, trans⟩
  · refine declined hup x (List.mem_of_mem_drop hx) 6
      (State.requestMode_fails (State.moveReason_none (listed hc (live x hx)) ht hp hd hn) ?_)
    exact State.move_differ (s.mode_modeAsked.trans hc) (live x hx) ((s.refDiffer_modeAsked _).trans hr)
  · obtain ⟨u, move, mode⟩ := State.move_goesLive (s.mode_modeAsked.trans hc) (live x hx) hr hl
    exact ⟨_, made hup x (List.mem_of_mem_drop hx) (State.moveReason_none (listed hc (live x hx)) ht hp hd hn) move, mode, rfl⟩
  · obtain ⟨u, move, mode⟩ := State.move_goesLive (s.mode_modeAsked.trans hc) (.inr (.inr rfl)) hr hl
    exact ⟨_, made hup (.test, .modeRequestTest) (by simp [asks])
      (State.moveReason_none (listed hc (.inr (.inr rfl))) rfl rfl hd hn) move, mode, rfl⟩

end Sys2Proof.Machine
end

section
namespace Sys2Proof.Machine

/-! ### Objects that agree, step by step -/

theorem State.agree.refl (s : State) (l : List ObjAddr) : s.agree s l := fun _ _ => rfl

section
variable {s t : State} {l : List ObjAddr}

/-- A change of what is no object. -/
theorem State.agree.to {u : State} (h : s.agree t l) (e : u.objs = t.objs := by rfl) : s.agree u l := fun a ha => by
  rw [e, h a ha]

theorem State.agree.updMd {d f} (h : s.agree t l) : s.agree (t.updMd d f) l := h.to (State.objs_updMd ..)

/-- A write of an object that is listed. -/
theorem State.agree.wr {o d i v} (h : s.agree t l) (ho : o.addr d i ∈ l := by simp) : s.agree (t.wr o d i v) l := fun a ha =>
  (State.agree_wr t o d i v a fun m => ha (List.mem_singleton.mp m ▸ ho)).trans (h a ha)

theorem State.agree.setBit {o d i n} (h : s.agree t l) (ho : o.addr d i ∈ l := by simp) : s.agree (t.setBit o d i n) l := h.wr ho

theorem State.agree.clrBit {o d i n} (h : s.agree t l) (ho : o.addr d i ∈ l := by simp) : s.agree (t.clrBit o d i n) l := h.wr ho

theorem State.agree.raiseC {c i p} (h : s.agree t l) (hl : eventAddrs .c ⊆ l := by simp) : s.agree (t.raise .c c i p) l :=
  fun a ha => (State.agree_raiseC t c i p a fun m => ha (hl m)).trans (h a ha)

theorem State.agree.foldl_mem {α : Type _} {f : State → α → State} {xs : List α}
    (hf : ∀ t, ∀ x ∈ xs, s.agree t l → s.agree (f t x) l) (h : s.agree t l) : s.agree (xs.foldl f t) l := by
  induction xs generalizing t with
  | nil => exact h
  | cons x xs ih => exact ih (fun t y hy => hf t y (List.mem_cons_of_mem _ hy)) (hf t x List.mem_cons_self h)

end

theorem State.rdBytes_of_blobs {s t : State} (h : t.blobs = s.blobs) (o : ObjDef) (d : Die) (i : Nat) :
    t.rdBytes o d i = s.rdBytes o d i := by
  rw [State.rdBytes, h, State.rdBytes]

/-! ### The pattern checker (R107) -/

/-- The checker takes `n` symbols, of which the `k`-th is `sent k` where `want k` is the pattern's. -/
def Checker.takes (c : Checker) (n : Nat) (sent want : Nat → Nat) : Checker :=
  (List.range n).foldl (fun c k => c.take (sent k) (want k)) c

theorem Checker.takes_succ (c : Checker) (n : Nat) (sent want : Nat → Nat) :
    c.takes (n + 1) sent want = (c.takes n sent want).take (sent n) (want n) := by
  simp only [Checker.takes, List.range_succ, List.foldl_append, List.foldl_cons, List.foldl_nil]

theorem Checker.foldl_zipIdx (c : Checker) (gray : List Nat) (want : Nat → Nat) :
    (gray.zipIdx).foldl (fun c e => c.take e.1 (want e.2)) c = c.takes gray.length (fun k => gray.getD k 0) want := by
  have e : gray.zipIdx = (List.range gray.length).map (fun k => (gray.getD k 0, k)) := by
    refine List.ext_getElem (by simp) fun i hi _ => ?_
    simp at hi
    simp [hi]
  rw [e, List.foldl_map, Checker.takes]

theorem sumOver_range_succ (n : Nat) (f : Nat → Nat) : sumOver (List.range (n + 1)) f = sumOver (List.range n) f + f n := by
  simp only [sumOver, List.range_succ, List.foldl_append, List.foldl_cons, List.foldl_nil]

theorem grayErrors_self (g : Nat) : grayErrors g g = 0 := by simp [grayErrors]

section
variable {c : Checker} {sent want : Nat → Nat}

/-- Correct symbols lengthen the run of a checker that seeks the pattern. -/
theorem Checker.takes_seeking (hc : c.locked = false) (hr : c.run = 0) {n : Nat} (hn : n < 64) (h : ∀ k < n, sent k = want k) :
    c.takes n sent want = { c with run := n } := by
  induction n with
  | zero => exact congrArg (fun r => { c with run := r }) hr
  | succ n ih =>
    rw [Checker.takes_succ, ih (by omega) fun k hk => h k (by omega), Checker.take]
    simp [hc, h n (by omega), hn.ne]

/-- The 64th correct symbol in a row locks it. -/
theorem Checker.takes_locks (hc : c.locked = false) (hr : c.run = 0) (h : ∀ k < 64, sent k = want k) :
    c.takes 64 sent want = { c with locked := true, run := 0 } := by
  rw [Checker.takes_succ, Checker.takes_seeking hc hr (by decide) fun k hk => h k (by omega), Checker.take]
  simp [hc, h 63 (by decide)]

/-- A locked checker counts the bits of correct symbols. -/
theorem Checker.takes_correct (hc : c.locked = true) (hr : c.run = 0) {n : Nat} (h : ∀ k < n, sent k = want k) :
    c.takes n sent want = { c with bits := c.bits + 2 * n } := by
  induction n with
  | zero => rfl
  | succ n ih =>
    rw [Checker.takes_succ, ih fun k hk => h k (by omega), Checker.take]
    simp [hc, hr, h n (by omega), grayErrors_self]
    omega

/-- A locked checker counts the bits and the errors of wrong symbols, and the length of their run. -/
theorem Checker.takes_wrong (hc : c.locked = true) (hr : c.run = 0) {n : Nat} (hn : n < 64) (h : ∀ k < n, sent k ≠ want k) :
    c.takes n sent want = { c with
      bits := c.bits + 2 * n, errors := c.errors + sumOver (List.range n) (fun k => grayErrors (sent k) (want k)), run := n } := by
  induction n with
  | zero => exact congrArg (fun r => { c with run := r }) hr
  | succ n ih =>
    rw [Checker.takes_succ, ih (by omega) fun k hk => h k (by omega), Checker.take]
    simp [hc, h n (by omega), hn.ne, sumOver_range_succ]
    omega

/-- The 64th wrong symbol in a row takes its lock. -/
theorem Checker.takes_loses (hc : c.locked = true) (hr : c.run = 0) (h : ∀ k < 64, sent k ≠ want k) :
    c.takes 64 sent want = { c with
      locked := false, bits := c.bits + 128,
      errors := c.errors + sumOver (List.range 64) (fun k => grayErrors (sent k) (want k)), run := 0, lost := true } := by
  rw [Checker.takes_succ, Checker.takes_wrong hc hr (by decide) fun k hk => h k (by omega), Checker.take,
    sumOver_range_succ 63]
  simp [hc, h 63 (by decide), Nat.add_assoc]

end

/-- A lane's checker before symbols reach it. -/
def State.checker (s : State) (d : MDie) (l : Nat) : Checker :=
  { locked := s.bit Obj.laneStatus d.die l 5, run := (s.lane d l).run, bits := 0, errors := 0, lost := false }

/-- What symbols at a lane's receiver leave of its objects, by what its checker has become (R107). -/
structure State.Checked (s t : State) (d : MDie) (l : Nat) (c : Checker) : Prop where
  locked : t.bit Obj.laneStatus d.die l 5 = c.locked
  bits : t.rdN Obj.lanePatternBits d.die l = min (s.rdN Obj.lanePatternBits d.die l + c.bits) (2 ^ 64 - 1)
  errors : t.rdN Obj.lanePatternErrors d.die l = min (s.rdN Obj.lanePatternErrors d.die l + c.errors) (2 ^ 64 - 1)
  lost : c.lost = true → t.bit Obj.laneSticky d.die l 5 = true
  agree : ∀ k : List ObjAddr, Obj.laneStatus.addr d.die l ∈ k → Obj.lanePatternBits.addr d.die l ∈ k →
    Obj.lanePatternErrors.addr d.die l ∈ k → (c.lost = true → Obj.laneSticky.addr d.die l ∈ k) → s.agree t k

/-- A lane shows what its checker has become. -/
def State.showChecker (s : State) (d : MDie) (l : Nat) (c : Checker) : State :=
  let u := s.putBit Obj.laneStatus d.die l 5 c.locked
  let u := if c.lost then u.setBit Obj.laneSticky d.die l 5 else u
  (u.addCount Obj.lanePatternBits d.die l c.bits).addCount Obj.lanePatternErrors d.die l c.errors

theorem State.Checked.to {s t u : State} {d : MDie} {l : Nat} {c : Checker} (h : s.Checked t d l c) (e : u.objs = t.objs) :
    s.Checked u d l c := by
  obtain ⟨locked, bits, errors, lost, agree⟩ := h
  have rd : ∀ o i, u.rd o d.die i = t.rd o d.die i := fun o i => State.rd_of_objs e ..
  refine ⟨(State.bit_of_rd (rd ..) _).trans locked, ?_, ?_, fun hl => (State.bit_of_rd (rd ..) _).trans (lost hl),
    fun k h1 h2 h3 h4 => (agree k h1 h2 h3 h4).to e⟩
  · rw [State.rdN, rd]
    exact bits
  · rw [State.rdN, rd]
    exact errors

theorem State.checked_showChecker {s u : State} (h : u.objs = s.objs) (d : MDie) (l : Nat) (c : Checker) :
    s.Checked (u.showChecker d l c) d l c := by
  have rd : ∀ o i, u.rdN o d.die i = s.rdN o d.die i := fun o i => by rw [State.rdN, State.rd_of_objs h, State.rdN]
  unfold State.showChecker
  extract_lets v w
  have hv : v.bit Obj.laneStatus d.die l 5 = c.locked := (State.bit_putBit ..).trans (if_pos rfl)
  have hw : w = if c.lost then v.setBit Obj.laneSticky d.die l 5 else v := rfl
  have apart : ∀ o : ObjDef, Obj.laneSticky.apart o = true → w.rdN o d.die l = v.rdN o d.die l := fun o ho => by
    rw [hw]
    split
    · exact State.rdN_setBit_apart ho ..
    · rfl
  refine ⟨?_, ?_, ?_, fun hl => ?_, fun k hs hb he hk => .wr (.wr ?_ hb) he⟩
  · rw [State.bit, State.addCount, State.rdN_wr_apart rfl, State.addCount, State.rdN_wr_apart rfl, apart _ rfl]
    exact hv
  · rw [State.addCount, State.rdN_wr_apart rfl, State.rdN_addCount_same, apart _ rfl, ← rd]
    exact congrArg (min · _) (congrArg (· + _) (State.rdN_wr_apart rfl ..))
  · rw [State.rdN_addCount_same, State.addCount, State.rdN_wr_apart rfl, apart _ rfl, ← rd]
    exact congrArg (min · _) (congrArg (· + _) (State.rdN_wr_apart rfl ..))
  · rw [State.bit, State.addCount, State.rdN_wr_apart rfl, State.addCount, State.rdN_wr_apart rfl, hw, if_pos hl]
    exact State.bit_setBit_same ..
  · have agree : s.agree v k := .wr (.to (.refl s k) h) hs
    rw [hw]
    split
    · next hl => exact agree.setBit (hk hl)
    · exact agree

/-- Without near-end loopback the checker sees what the receiver recovers. -/
theorem State.checked_runChecker {s : State} {d : MDie} {l phase : Nat} {rx : List PamLevel} {gray : List Nat} {e : Nat}
    (hloop : s.rdN Obj.laneLoopback d.die l ≠ 1)
    (hrx : recvGray (s.rxPre d l) (s.eqBit d l 12) (s.lane d l).rxPrev rx = (gray, e)) :
    s.Checked (s.runChecker d l phase rx) d l
      ((s.checker d l).takes gray.length (fun k => gray.getD k 0)
        (fun k => patternSymbol (s.rdN Obj.lanePatternRx d.die l) (s.rdN Obj.lanePatternUser d.die l) (phase + k))) := by
  rw [← Checker.foldl_zipIdx]
  unfold State.runChecker
  extract_lets x user tx loop
  split
  extract_lets seen
  have hseen : seen = rx := if_neg fun h => hloop h.1
  rw [hseen]
  split
  next hrecv =>
  obtain ⟨rfl, rfl⟩ := Prod.mk.inj (hrecv.symm.trans hrx)
  extract_lets c u1 u2 u3 u4 u5
  have h2 : u2.objs = s.objs := by
    have h1 : u1.objs = s.objs := State.objs_updMd ..
    dsimp only [u2]
    split
    · exact h1
    · exact (State.objs_updMd ..).trans h1
  have h5 : s.Checked u5 d l c := State.checked_showChecker h2 d l c
  split
  · exact h5.to rfl
  · split
    · exact h5.to rfl
    · exact h5

/-! ### Degraded lanes (R98, R99) -/

/-- The lanes of a port are those of the modes of its quads (R92, R93). -/
theorem State.portLanes_of_quad {s t : State} {d : MDie} (h : ∀ q, t.quad d q = s.quad d q) (l : Nat) :
    t.portLanes d l = s.portLanes d l := by
  simp only [State.portLanes, h]

/-- A lane whose injected errors are used up (R491). -/
def State.injectionsSpent (s : State) (d : MDie) (l : Nat) : State :=
  s.updMd d (fun m => { m with test := { m.test with symbols := tabDel m.test.symbols l, codewords := tabDel m.test.codewords l } })

theorem State.inlets_injectionsSpent (s : State) (d : MDie) (l : Nat) : (s.injectionsSpent d l).inlets = s.inlets := by
  cases d <;> rfl

theorem State.rdN_injectionsSpent (s : State) (d : MDie) (l : Nat) (o : ObjDef) (e : Die) (i : Nat) :
    (s.injectionsSpent d l).rdN o e i = s.rdN o e i := by
  rw [State.rdN, State.injectionsSpent, State.rd_updMd, State.rdN]

/-- A second beyond the threshold on a lane that has no codewords to count (R99). -/
theorem execFecDegradeCheck_degrades {s : State} {d : MDie} {l : Fin 32} {n : Nat} (hup : s.up d.pdie = true)
    (hbyp : s.rdN Obj.laneFecBypass d.die l = 0) (hinj : tabGet (s.md d).test.symbols l 0 = 0) (hfirst : s.firstLane d l = false)
    (hthr : s.rdN Obj.laneFecDegrade d.die l < n) (hbit : s.bit Obj.laneStatus d.die l 4 = false) (c u : Nat) :
    execFecDegradeCheck d l n c u s = .next (((((s.injectionsSpent d l).addCount Obj.laneFecSymbols d.die l n).setBit
      Obj.laneStatus d.die l 4).setBit Obj.laneSticky d.die l 3).raise d.pdie 0x1303 l (payloadOf [(16, l.val), (32, n)])) := by
  unfold execFecDegradeCheck
  rw [when_pos hup]
  extract_lets lane byp symbols uncorrected v m w _ _ x thr
  have hm : m = n := by simp [m, byp, symbols, lane, hbyp, hinj]
  have rd : ∀ o, Obj.laneFecSymbols.apart o = true → ∀ i, w.rdN o d.die i = s.rdN o d.die i := fun o ho i =>
    (State.rdN_wr_apart ho ..).trans (State.rdN_injectionsSpent ..)
  have hx : x = w := if_neg (by
    rw [State.firstLane, State.portLanes_of_quad (fun q => rd Obj.quadMode rfl q), ← State.firstLane, hfirst]
    decide)
  have occasion : thr < m ∧ ¬ x.bit Obj.laneStatus d.die lane 4 := by
    rw [hm, State.bit, hx, rd _ rfl]
    refine ⟨?_, by rw [← State.bit, hbit]; decide⟩
    dsimp only [thr]
    rw [hx, rd _ rfl]
    exact hthr
  rw [if_pos occasion, hx, hm]
  dsimp only [w]
  rw [hm]
  rfl

theorem execFecDegradeCheck_effect {s : State} {d : MDie} {l : Fin 32} {n : Nat} (hup : s.up d.pdie = true)
    (hbyp : s.rdN Obj.laneFecBypass d.die l = 0) (hinj : tabGet (s.md d).test.symbols l 0 = 0) (hfirst : s.firstLane d l = false)
    (hthr : s.rdN Obj.laneFecDegrade d.die l < n) (hbit : s.bit Obj.laneStatus d.die l 4 = false)
    (hrep : s.canReport d.pdie = true) (c u : Nat) :
    ∃ t, execFecDegradeCheck d l n c u s = .next t ∧ t.bit Obj.laneStatus d.die l 4 = true ∧ t.bit Obj.laneSticky d.die l 3 = true
      ∧ t.rdN Obj.laneFecSymbols d.die l = min (s.rdN Obj.laneFecSymbols d.die l + n) (2 ^ 64 - 1)
      ∧ s.reported t d.pdie 0x1303 l (payloadOf [(16, l.val), (32, n)]) := by
  refine ⟨_, execFecDegradeCheck_degrades hup hbyp hinj hfirst hthr hbit c u, ?_, ?_, ?_, State.reported_raise hrep ?_ ..⟩
  · rw [State.bit_raise rfl, State.setBit, State.bit_putBit_apart rfl]
    exact State.bit_setBit_same ..
  · rw [State.bit_raise rfl]
    exact State.bit_setBit_same ..
  · rw [State.rdN_raise rfl, State.rdN_setBit_apart rfl, State.rdN_setBit_apart rfl, State.rdN_addCount_same,
      State.rdN_injectionsSpent]
    rfl
  · rw [← State.inlets_injectionsSpent s d l]
    simp only [State.inlets, State.dieA_setBit, State.dieB_setBit, State.dieA_addCount, State.dieB_addCount]
    rw [State.rdN_setBit_apart rfl, State.rdN_setBit_apart rfl, State.addCount, State.rdN_wr_apart rfl]

/-! ### The equalization table (R102) -/

section
variable {s : State} {b : List Byte}

theorem execLaneEqTableWrite_access (hup : s.serverUp = true) (hm : s.mode ≠ .configure) :
    execLaneEqTableWrite b s = .next { s with answer := .access } := by
  unfold execLaneEqTableWrite
  rw [when_pos hup, if_pos hm]
  rfl

theorem execLaneEqTableWrite_length (hup : s.serverUp = true) (hm : s.mode = .configure) (hl : 37412 < b.length) :
    execLaneEqTableWrite b s = .next { s with answer := .length } := by
  unfold execLaneEqTableWrite
  rw [when_pos hup, if_neg (not_not_intro hm), if_pos hl]
  rfl

theorem execLaneEqTableWrite_rejected (hup : s.serverUp = true) (hm : s.mode = .configure) (hl : b.length ≤ 37412) {r n : Nat}
    (hc : eqCheck b = some (r, n)) :
    execLaneEqTableWrite b s = .next ((s.raise .c 0x1330 0 (p16 [r, n])).ans (.rejected 0x1330)) := by
  unfold execLaneEqTableWrite
  rw [when_pos hup, if_neg (not_not_intro hm), if_neg (Nat.not_lt.mpr hl), hc]

theorem execLaneEqTableWrite_ok (hup : s.serverUp = true) (hm : s.mode = .configure) (hl : b.length ≤ 37412) (hc : eqCheck b = none) :
    execLaneEqTableWrite b s = .next ((s.persistBytes Obj.laneEqTable .p 0 b).ans .ok) := by
  unfold execLaneEqTableWrite
  rw [when_pos hup, if_neg (not_not_intro hm), if_neg (Nat.not_lt.mpr hl), hc]

end

/-! ### The obligation -/

/-- Settles O4: status commands by what their writes leave, the checker by its run of 64 symbols, the table by the checks' order. -/
theorem laneStatusAndTheEqualizationTable : Obligations.LaneStatusAndTheEqualizationTable := by
  refine ⟨⟨fun s d l hup hcdr => ?_, fun s d l n hup hfrozen => ?_,
    fun s d l phase rx gray e hup hm hrx h5 hrun hloop hrecv hgray => ?_,
    fun s d l phase rx gray e n hup h5 hrun hloop hrecv hgray => ?_,
    fun s d l phase rx gray e hup h5 hrun hloop hrecv hlen hwrong => ?_, fun s d q hup hon => ?_,
    fun s d l n c u hup hbyp hinj hfirst hthr hbit hrep =>
      execFecDegradeCheck_effect hup hbyp hinj hfirst hthr hbit hrep c u⟩,
    fun s b hup => ⟨execLaneEqTableWrite_access hup, execLaneEqTableWrite_length hup, fun hm hl r n hc => ?_, fun hm hl hc => ?_⟩⟩
  · exact ⟨_, when_pos (by rw [hup, hcdr]; rfl) .., State.bit_setBit_same .., State.agree_wr _ _ _ _ _, rfl⟩
  · refine ⟨_, when_pos (by rw [hup, hfrozen]; rfl) .., ?_, ?_, ((State.agree.refl s _).clrBit).wr, rfl⟩
    · rw [State.addCount, State.bit_wr_apart rfl]
      exact State.bit_clrBit_same ..
    · rw [State.rdN_addCount_same, State.clrBit, State.putBit, State.rdN_wr_apart rfl]
      rfl
  · have occasion : (s.up d.pdie && s.mode == .test && s.rdN Obj.lanePatternRx d.die l != 0
        && !s.bit Obj.laneStatus d.die l 5) = true := by
      simp [hup, hm, hrx, h5]
    have checked := State.checked_runChecker (phase := phase) hloop hrecv
    rw [hgray, List.length_map, List.length_range, Checker.takes_locks h5 hrun fun k hk => by simp [hk]] at checked
    exact ⟨_, when_pos occasion .., checked.locked, checked.agree _ (by simp) (by simp) (by simp) nofun⟩
  · have checked := State.checked_runChecker (phase := phase) hloop hrecv
    rw [hgray, List.length_map, List.length_range, Checker.takes_correct h5 hrun fun k hk => by simp [hk]] at checked
    refine ⟨_, when_pos (by rw [hup, h5]; rfl) .., checked.locked.trans h5, checked.bits.trans (by simp [State.checker]), checked.errors,
      checked.agree _ (by simp) (by simp) (by simp) nofun⟩
  · have checked := State.checked_runChecker (phase := phase) hloop hrecv
    rw [hlen, Checker.takes_loses h5 hrun hwrong] at checked
    exact ⟨_, when_pos (by rw [hup, h5]; rfl) .., checked.locked, checked.lost rfl, checked.bits.trans (by simp [State.checker]),
      checked.errors.trans (by simp [State.checker]), checked.agree _ (by simp) (by simp) (by simp) (by simp)⟩
  · exact ⟨_, when_pos (by rw [hup, hon]; rfl) .., State.bit_setBit_same .., State.agree_wr _ _ _ _ _, rfl⟩
  · exact ⟨_, execLaneEqTableWrite_rejected hup hm hl hc, State.answer_ans ..,
      (State.reported_ans ..).mpr (State.reported_raiseC le_rfl ..),
      State.rdBytes_of_blobs ((State.blobs_ans ..).trans (State.blobs_raise ..)) .., State.agree_ans (State.agree_raiseC _ _ _ _) _⟩
  · exact ⟨_, execLaneEqTableWrite_ok hup hm hl hc, rfl, State.rdBytes_wrBytes_same ..,
      (mapGet_mapPut ..).trans (if_pos rfl), rfl, rfl⟩

end Sys2Proof.Machine
end

section
namespace Sys2Proof.Machine

/-! ### A cage and what shows of it -/

theorem State.rd_updCage (s : State) (d : MDie) (n : Nat) (f : CageSt → CageSt) (o : ObjDef) (e : Die) (i : Nat) :
    (s.updCage d n f).rd o e i = s.rd o e i := State.rd_updMd ..

theorem State.bit_updCage (s : State) (d : MDie) (n : Nat) (f : CageSt → CageSt) (o : ObjDef) (e : Die) (i k : Nat) :
    (s.updCage d n f).bit o e i k = s.bit o e i k := State.bit_of_rd (State.rd_updCage ..) k

theorem State.cage_updCage_same (s : State) (d : MDie) (n : Nat) (f : CageSt → CageSt) :
    (s.updCage d n f).cage d n = f (s.cage d n) := by
  rw [State.cage, State.updCage, State.md_updMd]
  exact (tabGet_tabSet ..).trans (if_pos rfl)

/-- A media die with the same cages has a cage as it was. -/
theorem State.cage_of_cages {s t : State} {d : MDie} (h : (t.md d).cages = (s.md d).cages) (n : Nat) : t.cage d n = s.cage d n := by
  rw [State.cage, h, State.cage]

theorem State.cage_raiseC (s : State) (c i p : Nat) (d : MDie) (n : Nat) : (s.raise .c c i p).cage d n = s.cage d n :=
  State.cage_of_cages (by rw [State.md_raiseC]) n

/-- A cage as its status, its module's identification and its own state show it. -/
def State.cageView (s : State) (d : MDie) (n : Nat) : Int × List Byte × CageSt :=
  (s.rd Obj.cageStatus d.die n, s.rdBytes Obj.cageModuleId d.die n, s.cage d n)

section
variable (s : State) (d e : MDie) (n : Nat)

theorem State.cageView_wr {o : ObjDef} (h : o.apart Obj.cageStatus = true) (x : Die) (i : Nat) (v : Int) :
    (s.wr o x i v).cageView d n = s.cageView d n := by
  rw [State.cageView, State.rd_wr_apart h]
  rfl

theorem State.cageView_wrBytes {o : ObjDef} (h : o.apart Obj.cageModuleId = true) (x : Die) (i : Nat) (v : List Byte) :
    (s.wrBytes o x i v).cageView d n = s.cageView d n := by
  rw [State.cageView, State.rdBytes_wrBytes_apart h]
  rfl

theorem State.cageView_raiseC (c i p : Nat) : (s.raise .c c i p).cageView d n = s.cageView d n := by
  rw [State.cageView, State.rd_raise rfl, State.rdBytes_of_blobs (State.blobs_raise ..), State.cage_raiseC, State.cageView]

theorem State.cageView_updLane (l : Nat) (f : LaneSt → LaneSt) : (s.updLane e l f).cageView d n = s.cageView d n := by
  rw [State.cageView, State.updLane, State.rd_updMd, State.rdBytes_of_blobs (State.blobs_updMd ..),
    State.cage_of_cages (State.md_updMd_leaves (·.cages) ..), State.cageView]

theorem State.cageView_send (x : Sent) : (s.send x).cageView d n = s.cageView d n := rfl

theorem State.cageView_cmis (w : List CmisWrite) : (s.cmis e n w).cageView d n = s.cageView d n :=
  foldl_leaves (State.cageView · d n) (fun _ _ => State.cageView_send ..) ..

theorem State.cageView_cdrOff (l : Nat) : (s.cdrOff e l).cageView d n = s.cageView d n :=
  (State.cageView_wr (o := Obj.laneStatus) _ d n rfl ..).trans (State.cageView_wr (o := Obj.laneStatus) _ d n rfl ..)

theorem State.cageView_laneOff (l : Nat) : (s.laneOff e l).cageView d n = s.cageView d n := by
  rw [State.laneOff, State.cageView_updLane, State.cageView_cdrOff, State.cageView_wr _ d n rfl]

theorem State.cageView_requestLane (l target : Nat) : (s.requestLane e l target).cageView d n = s.cageView d n := by
  unfold State.requestLane
  split
  · rfl
  · exact State.cageView_updLane ..
  · split
    · rfl
    · unfold State.startLane
      rw [State.cageView_wr _ d n rfl, State.cageView_updLane]
      split
      · exact State.cageView_cdrOff ..
      · rfl

theorem State.cageView_setRow (row : Option (List Byte)) : (s.setRow e n row).cageView d n = s.cageView d n :=
  foldl_leaves (State.cageView · d n) (fun _ _ => State.cageView_updLane ..) ..

end

/-! ### Identification (R111–R113, R117) -/

/-- A cage whose module has been identified: R112 has left the polling step. -/
structure State.Identified (t : State) (d : MDie) (n : Nat) (m : ModuleInfo) : Prop where
  bit : t.bit Obj.cageStatus d.die n 1 = true
  id : t.rdBytes Obj.cageModuleId d.die n = m.vendor ++ m.oui ++ m.part ++ m.rev ++ m.serial ++ m.date
  info : (t.cage d n).info = some m
  step : (t.cage d n).step = .identified ∨ (t.cage d n).step = .powering

section
variable {t u : State} {d : MDie} {n : Nat} {m : ModuleInfo}

theorem State.Identified.to (h : t.Identified d n m) (e : u.cageView d n = t.cageView d n) : u.Identified d n m := by
  simp only [State.cageView, Prod.mk.injEq] at e
  obtain ⟨status, id, cage⟩ := e
  exact ⟨(State.bit_of_rd status 1).trans h.bit, id.trans h.id, by rw [cage, h.info], by rw [cage]; exact h.step⟩

theorem State.Identified.ite {c : Prop} {i : Decidable c} (h : t.Identified d n m) (k : u.Identified d n m) :
    (if c then t else u).Identified d n m := by
  split <;> assumption

theorem State.Identified.wr {o e i v} (h : t.Identified d n m) (ho : o.apart Obj.cageStatus = true := by rfl) :
    (t.wr o e i v).Identified d n m := h.to (State.cageView_wr t d n ho ..)

theorem State.Identified.raiseC {c i p} (h : t.Identified d n m) : (t.raise .c c i p).Identified d n m :=
  h.to (State.cageView_raiseC ..)

/-- Another bit of CAGE.STATUS changes. -/
theorem State.Identified.putBit {k b} (h : t.Identified d n m) (hk : k ≠ 1 := by decide) :
    (t.putBit Obj.cageStatus d.die n k b).Identified d n m :=
  ⟨by rw [State.bit_putBit, if_neg hk]; exact h.bit, h.id, h.info, h.step⟩

/-- The module is asked for high power (R112, step 5). -/
theorem State.Identified.powerUpCage {mode} (h : t.Identified d n m) : (t.powerUpCage d n mode).Identified d n m := by
  unfold State.powerUpCage
  refine .ite ?_ h
  have sent : (t.cmis d n [.lowPower false false]).Identified d n m := h.to (State.cageView_cmis ..)
  refine ⟨(State.bit_updCage ..).trans sent.bit, (State.rdBytes_of_blobs (State.blobs_updMd ..) ..).trans sent.id, ?_, ?_⟩
  · rw [State.cage_updCage_same]
    exact sent.info
  · rw [State.cage_updCage_same]
    exact .inr rfl

theorem State.Identified.selectRow {k} (h : t.Identified d n m) : (t.selectRow d n k).Identified d n m := by
  unfold State.selectRow
  extract_lets cls u row v
  have hv : v.Identified d n m := h.wr.to (State.cageView_setRow ..)
  clear_value row
  split
  · exact hv.putBit
  · exact hv.putBit.raiseC

end

/-- MODULE_STATE_POLL with ModuleLowPwr: what follows in identification leaves the module identified. -/
theorem State.identified_identify (s : State) (d : MDie) (n : Nat) (m : ModuleInfo) : (s.identify d n m).Identified d n m := by
  unfold State.identify
  extract_lets u v twin s1 s2 _ s3 s4
  have h1 : s1.Identified d n m := by
    refine ⟨(State.bit_updCage ..).trans (State.bit_setBit_same ..),
      (State.rdBytes_of_blobs (State.blobs_updMd ..) ..).trans (State.rdBytes_wrBytes_same ..), ?_, ?_⟩
    · rw [State.cage_updCage_same]
    · rw [State.cage_updCage_same]
      exact .inl rfl
  have h2 : s2.Identified d n m := .ite h1.putBit.raiseC (.ite h1.putBit.raiseC h1)
  have h3 : s3.Identified d n m := .ite h2.selectRow.putBit.raiseC h2.selectRow
  have h4 : s4.Identified d n m := by
    dsimp only [s4]
    clear_value twin s3
    split
    · exact h3.wr.raiseC
    · have slot : (if (s3.wearSlot m).2 then s3.raise .c 0x1321 (s3.wearSlot m).1 (p16 [(s3.wearSlot m).1]) else s3).Identified d n m :=
        .ite h3.raiseC h3
      exact .wr (slot.to (State.cageView_wrBytes _ d n rfl ..))
  exact .powerUpCage (.ite (h4.raiseC.to (foldl_leaves (State.cageView · d n) (fun _ _ => State.cageView_laneOff ..) ..)) h4.raiseC)

/-! ### Numbers of Die C's records through the loss of a port -/

/-- Die C has numbered no fewer records (R464). -/
def State.Later (s t : State) : Prop := s.rdN Obj.evtGseqNext .c 0 ≤ t.rdN Obj.evtGseqNext .c 0

section
variable {s t : State}

theorem State.Later.refl (s : State) : s.Later s := Nat.le_refl _

theorem State.Later.to {u : State} (h : s.Later t) (e : u.objs = t.objs := by rfl) : s.Later u := by
  rw [State.Later, State.rdN, State.rdN, State.rd_of_objs e]
  exact h

theorem State.Later.wr {o d i v} (h : s.Later t) (ho : o.apart Obj.evtGseqNext = true := by rfl) : s.Later (t.wr o d i v) := by
  rw [State.Later, State.rdN_wr_apart ho]
  exact h

theorem State.Later.updMd {d f} (h : s.Later t) : s.Later (t.updMd d f) := h.to (State.objs_updMd ..)

theorem State.Later.updCage {d n f} (h : s.Later t) : s.Later (t.updCage d n f) := h.updMd

theorem State.Later.ite {c : Prop} {i : Decidable c} {u : State} (h : s.Later t) (k : s.Later u) : s.Later (if c then t else u) := by
  split <;> assumption

theorem State.Later.foldl {α : Type _} {f : State → α → State} {l : List α} (hf : ∀ t x, s.Later t → s.Later (f t x))
    (h : s.Later t) : s.Later (l.foldl f t) := by
  induction l generalizing t with
  | nil => exact h
  | cons x l ih => exact ih (hf t x h)

theorem State.Later.raiseMedia {d code inst payload} (h : s.Later t) : s.Later (t.raiseMedia d code inst payload) := by
  have marked : s.Later (t.emitMarker d) := by
    unfold State.emitMarker
    exact .ite (.updMd h.wr) h
  have noted : s.Later (((t.emitMarker d).takeDseq d.pdie).noteError d code payload) :=
    State.Later.to (t := (t.emitMarker d).takeDseq d.pdie) marked.wr (State.objs_noteError ..)
  unfold State.raiseMedia
  exact .ite noted.updMd noted.wr.updMd

theorem State.Later.raiseC {code inst payload} (h : s.Later t) : s.Later (t.raise .c code inst payload) := by
  rw [State.Later, State.gseq_raiseC]
  exact Nat.le_succ_of_le h

theorem State.Later.raise {d code inst payload} (h : s.Later t) : s.Later (t.raise d code inst payload) := by
  cases d with
  | a => exact h.raiseMedia
  | b => exact h.raiseMedia
  | c => exact h.raiseC

theorem State.Later.updTwill {f} (h : s.Later t) : s.Later (t.updTwill f) := h.to

theorem State.Later.wrBytes {o d i v} (h : s.Later t) : s.Later (t.wrBytes o d i v) := h.to

theorem State.Later.refreshTopology (h : s.Later t) : s.Later t.refreshTopology := by
  unfold State.refreshTopology
  exact .wrBytes (.foldl (fun _ _ h => h.wr.wr) (.foldl (fun _ _ h => h.wr.wr) h))

theorem State.Later.newGeneration (h : s.Later t) : s.Later t.newGeneration := by
  unfold State.newGeneration
  exact .foldl (fun _ _ h => h.to) (State.Later.refreshTopology (.updTwill (.wr h.wr)))

theorem State.Later.loseBroken (h : s.Later t) : s.Later t.loseBroken := by
  unfold State.loseBroken State.dropSlots
  exact .updTwill (.updTwill (.updTwill (.foldl (fun _ _ h => h.wr) h)))

theorem State.Later.dropUnreachable (h : s.Later t) : s.Later t.dropUnreachable := by
  unfold State.dropUnreachable
  exact .loseBroken (.wr (.updTwill (.foldl (fun _ _ h => .raise h.wr) h)))

theorem State.Later.linkLost {d q} (h : s.Later t) : s.Later (t.linkLost d q) := by
  have out : ∀ {u : State}, s.Later u → s.Later (u.linkOut d q 1) := fun {u} hu => by
    unfold State.linkOut
    exact (State.Later.updTwill hu.wr).dropUnreachable.newGeneration
  unfold State.linkLost
  exact .ite h (.updTwill (.ite (out (.raise h.wr)) h.wr))

theorem State.Later.portGoesDown {d first cause} (h : s.Later t) : s.Later (t.portGoesDown d first cause) := by
  unfold State.portGoesDown
  extract_lets _ u
  have hu : s.Later u := .ite h.wr.wr h.wr.wr.wr
  exact .ite h (.ite (State.Later.raise (.wr hu.wr)).linkLost (.updMd (.wr (.raise (.wr hu.wr)))))

theorem State.Later.requestLane {d lane target} (h : s.Later t) : s.Later (t.requestLane d lane target) := by
  unfold State.requestLane
  split
  · exact h
  · exact h.updMd
  · unfold State.startLane
    exact .ite h (.wr (.updMd (.ite h.wr.wr h)))

theorem State.Later.setRow {d n row} (h : s.Later t) : s.Later (t.setRow d n row) := .foldl (fun _ _ h => h.updMd) h

end

/-! ### Insertion, activation and removal (R112) -/

section
variable {s : State} {d : MDie} {n : Fin 8}

theorem execModuleInserted_effect (hup : s.serverUp = true) (hdie : s.up d.pdie = true) (hserved : s.cageServed d n = true)
    (hempty : (s.cage d n).step = .empty) :
    ∃ t, execModuleInserted d n s = .next t ∧ t.bit Obj.cageStatus d.die n 0 = true
      ∧ t.bit Obj.cageSticky d.die n 0 = true
      ∧ t.rdN Obj.cageCount d.die n = min (s.rdN Obj.cageCount d.die n + 1) (2 ^ 32 - 1)
      ∧ (t.cage d n).step = .polling ∧ s.reported t .c 0x1310 n (p16 [n.val])
      ∧ s.agree t ([Obj.cageStatus.addr d.die n, Obj.cageSticky.addr d.die n, Obj.cageCount.addr d.die n] ++ eventAddrs .c) := by
  have occasion : (s.serverUp && s.up d.pdie && s.cageServed d n.val && (s.cage d n.val).step == .empty) = true := by
    rw [hup, hdie, hserved, hempty]
    rfl
  refine ⟨_, when_pos occasion .., ?_, ?_, ?_, ?_, State.reported_raiseC ?_ .., ?_⟩
  · rw [State.bit_raise rfl, State.bit_updCage, State.bump, State.addCount, State.bit_wr_apart rfl, State.setBit,
      State.bit_putBit_apart rfl]
    exact State.bit_setBit_same ..
  · rw [State.bit_raise rfl, State.bit_updCage, State.bump, State.addCount, State.bit_wr_apart rfl]
    exact State.bit_setBit_same ..
  · rw [State.rdN_raise rfl, State.rdN, State.rd_updCage, ← State.rdN, State.rdN_bump_same, State.rdN_setBit_apart rfl,
      State.rdN_setBit_apart rfl]
    rfl
  · rw [State.cage_raiseC, State.cage_updCage_same]
  · exact State.Later.updCage (.wr (.wr (.wr (.refl s))))
  · exact .raiseC (.updMd (.wr (.wr (.wr (.refl s _))))) (List.subset_append_right ..)

theorem execModuleReadyTimeout_effect (hup : s.serverUp = true) (hserved : s.cageServed d n = true)
    (hpoll : (s.cage d n).step = .polling) (st : Nat) :
    ∃ t, execModuleReadyTimeout d n st s = .next t ∧ (t.cage d n).step = .stuck
      ∧ s.reported t .c 0x1315 n (p16 [n.val, st]) ∧ s.agree t (eventAddrs .c) := by
  have occasion : (s.serverUp && s.cageServed d n.val && (s.cage d n.val).step == .polling) = true := by
    rw [hup, hserved, hpoll]
    rfl
  refine ⟨_, when_pos occasion .., ?_, State.reported_raiseC ?_ .., ?_⟩
  · rw [State.cage_raiseC, State.cage_updCage_same]
  · exact State.Later.updCage (.refl s)
  · exact .raiseC (.updMd (.refl s _))

/-- A lane asked for a state writes LANE.STATE and LANE.STATUS of its own (R104, R105). -/
theorem State.agree.requestLane {t : State} {k : List ObjAddr} {l target : Nat} (h : s.agree t k)
    (hst : Obj.laneState.addr d.die l ∈ k) (hbits : Obj.laneStatus.addr d.die l ∈ k) : s.agree (t.requestLane d l target) k := by
  unfold State.requestLane
  split
  · exact h
  · exact h.updMd
  · split
    · exact h
    · unfold State.startLane
      refine .wr (.updMd ?_) hst
      split
      · exact (h.clrBit hbits).clrBit hbits
      · exact h

theorem execModuleReady_effect (hopen : s.busOpen d n = true) (hpower : (s.cage d n).step = .powering) :
    ∃ t, execModuleReady d n s = .next t ∧ t.bit Obj.cageStatus d.die n 2 = true ∧ (t.cage d n).step = .dataPath
      ∧ s.agree t (Obj.cageStatus.addr d.die n
          :: (s.cageLanes d n).flatMap (fun l => [Obj.laneState.addr d.die l, Obj.laneStatus.addr d.die l])) := by
  unfold execModuleReady
  rw [when_pos (by rw [hopen, hpower]; rfl)]
  extract_lets u v
  have objs : v.objs = u.objs := foldl_leaves State.objs (fun _ _ => State.objs_send ..) ..
  have sent : v.cageView d n = u.cageView d n := State.cageView_cmis ..
  have lanes : v.cageLanes d n = s.cageLanes d n := by
    have width : v.rdN Obj.cageWidth d.die n = s.rdN Obj.cageWidth d.die n := by
      rw [State.rdN, State.rd_of_objs objs]
      exact congrArg Int.toNat ((State.rd_updCage ..).trans (State.rd_setBit_apart rfl ..))
    rw [State.cageLanes, width, State.cageLanes]
  have view : ((v.cageLanes d n).foldl (fun s l => s.requestLane d l (s.laneWanted d l s.mode)) v).cageView d n = u.cageView d n :=
    (foldl_leaves (State.cageView · d n) (fun _ _ => State.cageView_requestLane ..) ..).trans sent
  simp only [State.cageView, Prod.mk.injEq] at view
  obtain ⟨status, _, cage⟩ := view
  refine ⟨_, rfl, ?_, ?_, ?_⟩
  · rw [State.bit_of_rd status, State.bit_updCage]
    exact State.bit_setBit_same ..
  · rw [cage, State.cage_updCage_same]
  · rw [lanes]
    have agree : s.agree v (Obj.cageStatus.addr d.die n
        :: (s.cageLanes d n).flatMap (fun l => [Obj.laneState.addr d.die l, Obj.laneStatus.addr d.die l])) :=
      .to (.updMd (.setBit (.refl s _))) objs
    refine agree.foldl_mem fun t l hl h => h.requestLane ?_ ?_
    · exact List.mem_cons_of_mem _ (List.mem_flatMap.mpr ⟨l, hl, by simp⟩)
    · exact List.mem_cons_of_mem _ (List.mem_flatMap.mpr ⟨l, hl, by simp⟩)

theorem execDatapathActivated_effect (hopen : s.busOpen d n = true) (hpath : (s.cage d n).step = .dataPath) :
    ∃ t, execDatapathActivated d n s = .next t ∧ t.bit Obj.cageStatus d.die n 4 = true ∧ (t.cage d n).step = .done
      ∧ s.agree t [Obj.cageStatus.addr d.die n] := by
  refine ⟨_, when_pos (by rw [hopen, hpath]; rfl) .., ?_, ?_, .updMd (.setBit (.refl s _))⟩
  · rw [State.bit_updCage]
    exact State.bit_setBit_same ..
  · rw [State.cage_updCage_same]

/-- A cage from which the module was taken (R112, R114). -/
def State.cageEmptied (s : State) (d : MDie) (n : Nat) : State :=
  ((((((s.updCage d n (fun _ => CageSt.start)).wr Obj.cageStatus d.die n 0).setBit Obj.cageSticky d.die n 1).wr
    Obj.cageModuleClass d.die n 0xFF).wr Obj.cageWearRecord d.die n 0xFFFF).wrBytes Obj.cageModuleId d.die n
      (List.replicate 61 0)).raise .c 0x1311 n (p16 [n])

/-- Ports, lanes and the wear record follow the removal of a module before its cage is empty. -/
theorem execModuleRemoved_empties (hup : s.serverUp = true) (hdie : s.up d.pdie = true) (hserved : s.cageServed d n = true)
    (hthere : (s.cage d n).step ≠ .empty) : ∃ u, s.Later u ∧ execModuleRemoved d n s = .next (u.cageEmptied d n) := by
  have occasion : (s.serverUp && s.up d.pdie && s.cageServed d n.val && (s.cage d n.val).step != .empty) = true := by
    simp [hup, hdie, hserved, hthere]
  unfold execModuleRemoved
  extract_lets m lanes s1 s2 s3 w s4
  have h3 : s.Later s3 := .foldl (fun _ _ h => h.requestLane) (.setRow (.foldl (fun _ _ h => h.portGoesDown) (.refl s)))
  exact ⟨s4, .ite h3 h3.to, when_pos occasion ..⟩

theorem execModuleRemoved_effect (hup : s.serverUp = true) (hdie : s.up d.pdie = true) (hserved : s.cageServed d n = true)
    (hthere : (s.cage d n).step ≠ .empty) :
    ∃ t, execModuleRemoved d n s = .next t ∧ t.cage d n = CageSt.start ∧ t.rd Obj.cageStatus d.die n = 0
      ∧ t.bit Obj.cageSticky d.die n 1 = true ∧ t.rd Obj.cageModuleClass d.die n = 0xFF
      ∧ t.rd Obj.cageWearRecord d.die n = 0xFFFF ∧ t.rdBytes Obj.cageModuleId d.die n = List.replicate 61 0
      ∧ s.reported t .c 0x1311 n (p16 [n.val]) := by
  obtain ⟨u, later, e⟩ := execModuleRemoved_empties hup hdie hserved hthere
  refine ⟨_, e, ?_, ?_, ?_, ?_, ?_, ?_, State.reported_raiseC ?_ ..⟩
  · rw [State.cageEmptied, State.cage_raiseC]
    exact State.cage_updCage_same ..
  · rw [State.cageEmptied, State.rd_raise rfl, State.rd_wrBytes, State.rd_wr_apart rfl, State.rd_wr_apart rfl,
      State.rd_setBit_apart rfl, State.rd_wr_same]
  · rw [State.cageEmptied, State.bit_raise rfl, State.bit_of_rd (State.rd_wrBytes ..), State.bit_wr_apart rfl, State.bit_wr_apart rfl]
    exact State.bit_setBit_same ..
  · rw [State.cageEmptied, State.rd_raise rfl, State.rd_wrBytes, State.rd_wr_apart rfl, State.rd_wr_same]
  · rw [State.cageEmptied, State.rd_raise rfl, State.rd_wrBytes, State.rd_wr_same]
  · rw [State.cageEmptied, State.rdBytes_of_blobs (State.blobs_raise ..), State.rdBytes_wrBytes_same]
  · exact State.Later.wrBytes (.wr (.wr (.wr (.wr later.updCage))))

end

/-- Settles O6: identification by what follows it leaving the module identified, the other steps by their own writes. -/
theorem moduleInsertionSequence : Obligations.ModuleInsertionSequence := by
  refine ⟨fun s d n hup hdie hserved hempty => execModuleInserted_effect hup hdie hserved hempty, fun s d n m hopen hpoll => ?_,
    fun s d n st hup hserved hpoll => execModuleReadyTimeout_effect hup hserved hpoll st,
    fun s d n hopen hpower => execModuleReady_effect hopen hpower,
    fun s d n hopen hpath => execDatapathActivated_effect hopen hpath,
    fun s d n hup hdie hserved hthere => execModuleRemoved_effect hup hdie hserved hthere⟩
  obtain ⟨bit, id, info, step⟩ := s.identified_identify d n m
  exact ⟨_, when_pos (by rw [hopen, hpoll]; rfl) .., bit, id, info, step⟩

end Sys2Proof.Machine
end

section
namespace Sys2Proof.Machine

/-! ### Fields of a byte string that is written over -/

/-- What stands before the bytes written, those bytes, and what stands behind them. -/
theorem overlay_eq (l : List Byte) (ofs : Nat) (v : List Byte) :
    ∃ p : List Byte, p.length = ofs ∧ overlay l ofs v = p ++ (v ++ l.drop (ofs + v.length))
      ∧ ∀ k ≤ ofs, k ≤ l.length → p.take k = l.take k := by
  refine ⟨_, ?_, List.append_assoc .., fun k hk hl => ?_⟩
  · simp
    omega
  · rw [List.take_take, Nat.min_eq_left hk, List.take_append_of_le_length hl]

theorem le_length_overlay (l : List Byte) (ofs : Nat) (v : List Byte) : max l.length (ofs + v.length) ≤ (overlay l ofs v).length := by
  obtain ⟨p, hp, e, -⟩ := overlay_eq l ofs v
  rw [e]
  simp only [List.length_append, List.length_drop, hp]
  omega

theorem fieldAt_overlay_same (l : List Byte) (ofs : Nat) (v : List Byte) : fieldAt (overlay l ofs v) ofs v.length = beNat v := by
  obtain ⟨p, rfl, e, -⟩ := overlay_eq l ofs v
  rw [fieldAt, bytesAt, e, List.drop_left, List.take_left]

/-- A byte string is long enough for a field, which reads as a value. -/
structure FieldHolds (r : List Byte) (a n v : Nat) : Prop where
  length : a + n ≤ r.length
  value : fieldAt r a n = v

theorem FieldHolds.overlay {a n ofs v : Nat} {r x : List Byte} (h : FieldHolds r a n v) (apart : a + n ≤ ofs ∨ ofs + x.length ≤ a) :
    FieldHolds (overlay r ofs x) a n v := by
  have hl := h.length
  refine ⟨?_, Eq.trans ?_ h.value⟩
  · have := le_length_overlay r ofs x
    omega
  · obtain ⟨p, hp, e, hpre⟩ := overlay_eq r ofs x
    rw [fieldAt, fieldAt, bytesAt, bytesAt, e]
    congr 1
    rcases apart with before | after
    · have pre : (p ++ (x ++ r.drop (ofs + x.length))).take (a + n) = r.take (a + n) := by
        rw [List.take_append_of_le_length (by omega), hpre _ before hl]
      rw [List.take_drop, List.take_drop, pre]
    · congr 1
      rw [← List.append_assoc, List.drop_append, List.drop_drop, List.drop_eq_nil_of_le (by simp; omega), List.nil_append]
      congr 1
      simp
      omega

/-- Another field of a record is made a value. -/
theorem FieldHolds.set {a n v ofs len x : Nat} {r : List Byte} (h : FieldHolds r a n v)
    (apart : a + n ≤ ofs ∨ ofs + len ≤ a := by decide) : FieldHolds (wearSet r ofs len x) a n v :=
  h.overlay (by rwa [length_natBe])

theorem FieldHolds.ite {a n v : Nat} {r r' : List Byte} {c : Prop} {i : Decidable c} (h : FieldHolds r a n v)
    (k : FieldHolds r' a n v) : FieldHolds (if c then r else r') a n v := by
  split <;> assumption

/-- A field that was just written. -/
theorem fieldHolds_wearSet (r : List Byte) (ofs len v : Nat) : FieldHolds (wearSet r ofs len v) ofs len (v % 256 ^ len) := by
  have e := fieldAt_overlay_same r ofs (natBe len v)
  have hl := le_length_overlay r ofs (natBe len v)
  rw [length_natBe] at e hl
  refine ⟨(le_max_right ..).trans hl, ?_⟩
  rw [wearSet, e, beNat, foldl_natBe, Nat.zero_mul, Nat.zero_add]

/-! ### Wear records (R115, R116) -/

section
variable {s : State} {a n v w : Nat}

/-- A warning changes no more of a record than its flags (R116). -/
theorem FieldHolds.wearWarn {d cage reason met value} (h : FieldHolds (s.rdBytes Obj.wearRecord .p w) a n v) (ha : 4 ≤ a := by decide) :
    FieldHolds ((s.wearWarn d cage w reason met value).rdBytes Obj.wearRecord .p w) a n v := by
  unfold State.wearWarn
  extract_lets x bit u
  split
  · rw [State.rdBytes_of_blobs (State.blobs_raise ..)]
    have stored : u.rdBytes Obj.wearRecord .p w = wearSet x 3 1 (withBit (fieldAt x 3 1) bit true) := State.rdBytes_wrBytes_same ..
    exact stored ▸ h.set (.inr ha)
  · exact h

theorem FieldHolds.wearMinuteWarn {d cage} (h : FieldHolds (s.rdBytes Obj.wearRecord .p w) a n v) (ha : 4 ≤ a := by decide) :
    FieldHolds ((s.wearMinuteWarn d cage w).rdBytes Obj.wearRecord .p w) a n v := by
  unfold State.wearMinuteWarn
  exact (h.wearWarn ha).wearWarn ha

theorem FieldHolds.stored {r : List Byte} (h : FieldHolds r a n v) :
    FieldHolds ((s.wrBytes Obj.wearRecord .p w r).rdBytes Obj.wearRecord .p w) a n v := by
  rwa [State.rdBytes_wrBytes_same]

end

/-- A minute of a module in high power (R115). -/
theorem execWearMinuteUpdate_effect {s : State} {d : MDie} {n w : Nat} (hup : s.serverUp = true) (hcages : s.wearCages = [(d, n)])
    (hw : s.rdN Obj.cageWearRecord d.die n = w) :
    ∃ t, execWearMinuteUpdate s = .next t
      ∧ fieldAt (t.rdBytes Obj.wearRecord .p w) 48 4 = (fieldAt (s.rdBytes Obj.wearRecord .p w) 48 4 + 1) % 2 ^ 32 := by
  refine ⟨_, when_pos hup .., ?_⟩
  rw [hcages, List.foldl_cons, List.foldl_nil]
  dsimp only
  rw [hw]
  generalize fieldAt (s.rdBytes Obj.wearRecord .p w) 48 4 + 1 = minutes
  have added := fieldHolds_wearSet (s.rdBytes Obj.wearRecord .p w) 48 4 minutes
  have timed : ∀ r, FieldHolds r 48 4 (minutes % 256 ^ 4) → FieldHolds (((s.wrBytes Obj.wearRecord .p w (wearSet r 42 6
      s.seconds)).wearMinuteWarn d n w).rdBytes Obj.wearRecord .p w) 48 4 (minutes % 256 ^ 4) := fun _ h =>
    h.set.stored.wearMinuteWarn
  exact (timed _ (.ite added (.set (.ite added.set added)))).value

theorem tabGet_map {α β : Type} (t : Tab α) (f : α → β) (k : Nat) (v : α) :
    tabGet (t.map (fun e => (e.1, f e.2))) k (f v) = f (tabGet t k v) := by
  induction t with
  | nil => rfl
  | cons e t ih =>
    simp only [List.map_cons, tabGet, ih]
    split <;> rfl

theorem State.blobs_wearHourOver (s : State) : s.wearHourOver.blobs = s.blobs :=
  foldl_leaves State.blobs (fun _ _ => State.blobs_updMd ..) ..

/-- Every cage's sums start over (R115). -/
theorem State.cage_wearHourOver (s : State) (d : MDie) (n : Nat) :
    s.wearHourOver.cage d n = { s.cage d n with biasSum := List.replicate 8 0, polls := 0 } := by
  have cages : (s.wearHourOver.md d).cages
      = (s.md d).cages.map (fun e => (e.1, { e.2 with biasSum := List.replicate 8 0, polls := 0 })) := by
    cases d <;> rfl
  rw [State.cage, cages]
  exact tabGet_map _ (fun x => { x with biasSum := List.replicate 8 0, polls := 0 }) n CageSt.start

/-- An hour of a module in high power (R115). -/
theorem execWearHourUpdate_effect {s : State} {d : MDie} {n w : Nat} (hup : s.serverUp = true) (hcages : s.wearCages = [(d, n)])
    (hw : s.rdN Obj.cageWearRecord d.die n = w) :
    ∃ t, execWearHourUpdate s = .next t ∧ fieldAt (t.rdBytes Obj.wearRecord .p w) 42 6 = s.seconds % 2 ^ 48
      ∧ (t.cage d n).polls = 0 ∧ (t.cage d n).biasSum = List.replicate 8 0 := by
  refine ⟨_, when_pos hup .., ?_, by rw [State.cage_wearHourOver], by rw [State.cage_wearHourOver]⟩
  rw [State.rdBytes_of_blobs (State.blobs_wearHourOver _), hcages, List.foldl_cons, List.foldl_nil]
  dsimp only
  rw [hw]
  split
  · exact (fieldHolds_wearSet ..).stored.wearMinuteWarn.value
  · split
    · exact (fieldHolds_wearSet ..).stored.wearWarn.wearMinuteWarn.value
    · exact (fieldHolds_wearSet ..).stored.wearWarn.wearMinuteWarn.value

theorem mapGet_of_not_mem {α : Type} {m : List (ObjAddr × α)} {a : ObjAddr} (h : ∀ e ∈ m, e.1 ≠ a) : mapGet m a = none := by
  induction m with
  | nil => rfl
  | cons e m ih => rw [mapGet, if_neg (h e List.mem_cons_self), ih fun x hx => h x (List.mem_cons_of_mem _ hx)]

/-- Entries of a map in canonical form that are put into another one stand before what it holds. -/
theorem mapGet_foldl_mapPut {α : Type} {l : List (ObjAddr × α)} (hw : mapWf l = true) (m : List (ObjAddr × α)) (a : ObjAddr) :
    mapGet (l.foldl (fun m e => mapPut m e.1 e.2) m) a = (mapGet l a).or (mapGet m a) := by
  rw [mapWf_iff] at hw
  induction l generalizing m with
  | nil => rfl
  | cons e l ih =>
    obtain ⟨below, hl⟩ := List.pairwise_cons.mp hw
    have above : mapGet l e.1 = none := mapGet_of_not_mem fun x hx k => by
      have := below x hx
      rw [k, addrLt_irrefl] at this
      exact absurd this (by decide)
    rw [List.foldl_cons, ih hl, mapGet_mapPut, mapGet]
    split
    · next h =>
      subst h
      rw [above]
      rfl
    · rfl

/-- WEAR_RECORD_FLUSH puts every running record that is listed into MRAM (R115). -/
theorem State.mramGet_flushWear {s : State} (hw : mapWf s.blobs = true) (n : Nat) {b : List Byte}
    (h : mapGet s.blobs (Obj.wearRecord.addr .p n) = some b) : mapGet s.flushWear.mram.blobs (Obj.wearRecord.addr .p n) = some b := by
  have records := mapGet_filter s.blobs (fun a => a.index == 0x1320) (Obj.wearRecord.addr .p n)
  rw [State.flushWear]
  refine (mapGet_foldl_mapPut (mapWf_filter _ _ hw) ..).trans ?_
  rw [records, h]
  rfl

/-! ### The bus of a cage and its monitors (R110, R113) -/

section
variable {s : State} {d : MDie} {n : Fin 8}

theorem execModuleInterrupt_effect (hopen : s.busOpen d n = true) (hid : s.bit Obj.cageStatus d.die n 1 = true) {page v : Nat}
    (hv : v ≠ 0) :
    ∃ t, execModuleInterrupt d n [(page, v)] s = .next t ∧ t.bit Obj.cageSticky d.die n 2 = true
      ∧ s.reported t .c 0x1316 n (p16 [n.val, page, v]) ∧ s.agree t (Obj.cageSticky.addr d.die n :: eventAddrs .c) := by
  have flags : [(page, v)].filter (fun f => f.2 != 0) = [(page, v)] := by simp [hv]
  unfold execModuleInterrupt
  rw [flags, List.foldl_cons, List.foldl_nil]
  refine ⟨_, when_pos (by rw [hopen, hid]; rfl) .., ?_, State.reported_raiseC ?_ .., ?_⟩
  · rw [State.bit_raise rfl]
    exact State.bit_setBit_same ..
  · exact State.Later.wr (State.Later.updCage (.refl s))
  · exact .raiseC (.setBit (.updMd (.refl s _))) (List.subset_cons_self ..)

theorem execMgmtBusNoAck_effect (hopen : s.busOpen d n = true) (hin : s.bit Obj.cageStatus d.die n 0 = true) :
    ∃ t, execMgmtBusNoAck d n s = .next t ∧ (t.cage d n).noAck = (s.cage d n).noAck + 1
      ∧ ((s.cage d n).noAck < 3 → t.objs = s.objs)
      ∧ (3 ≤ (s.cage d n).noAck → t.bit Obj.cageStatus d.die n 5 = true ∧ t.bit Obj.cageSticky d.die n 3 = true
          ∧ (t.cage d n).stale = true ∧ s.reported t .c 0x1317 n (p16 [n.val])) := by
  unfold execMgmtBusNoAck
  rw [when_pos (by rw [hopen, hin]; rfl)]
  extract_lets k u
  have counted : u.cage d n = { s.cage d n with noAck := k } := State.cage_updCage_same ..
  refine ⟨_, rfl, ?_⟩
  by_cases hk : (s.cage d n).noAck < 3
  · rw [if_pos (by omega)]
    exact ⟨by rw [counted], fun _ => State.objs_updMd .., fun h => absurd h (by omega)⟩
  · rw [if_neg (by omega)]
    have faulted : ∀ v : State, v.md d = u.md d →
        ((v.updCage d n (fun c => { c with stale := true })).raise .c 0x1317 n (p16 [n.val])).cage d n
          = { s.cage d n with noAck := k, stale := true } := fun v hv => by
      rw [State.cage_raiseC, State.cage_updCage_same, State.cage_of_cages (congrArg MediaDie.cages hv), counted]
    have cage := faulted ((u.setBit Obj.cageStatus d.die n 5).setBit Obj.cageSticky d.die n 3) (by cases d <;> rfl)
    refine ⟨by rw [cage], fun h => absurd h hk, fun _ => ⟨?_, ?_, by rw [cage], State.reported_raiseC ?_ ..⟩⟩
    · rw [State.bit_raise rfl, State.bit_updCage, State.setBit, State.bit_putBit_apart rfl]
      exact State.bit_setBit_same ..
    · rw [State.bit_raise rfl, State.bit_updCage]
      exact State.bit_setBit_same ..
    · exact State.Later.updCage (.wr (.wr (State.Later.updCage (.refl s))))

theorem execMgmtBusRetry_effect (hup : s.serverUp = true) (hdie : s.up d.pdie = true) (hserved : s.cageServed d n = true)
    (hfault : s.bit Obj.cageStatus d.die n 5 = true) :
    ∃ t, execMgmtBusRetry d n true s = .next t ∧ t.bit Obj.cageStatus d.die n 5 = false ∧ (t.cage d n).noAck = 0
      ∧ s.agree t [Obj.cageStatus.addr d.die n] := by
  refine ⟨_, when_pos (by rw [hup, hdie, hserved, hfault]; rfl) .., ?_, ?_, .updMd (.clrBit (.refl s _))⟩
  · rw [State.bit_updCage]
    exact State.bit_clrBit_same ..
  · rw [State.cage_updCage_same]

theorem execMonitorPoll_delayed (hopen : s.busOpen d n = true) (hid : s.bit Obj.cageStatus d.die n 1 = true) (temp : Int)
    (bias : List Nat) : execMonitorPoll d n true temp bias s = .next (s.bump Obj.cagePollSkipCount d.die n) :=
  when_pos (by rw [hopen, hid]; rfl) ..

/-- A poll in time: the temperature shows, and the cage's monitors are fresh (R110, R115). -/
theorem execMonitorPoll_effect (hopen : s.busOpen d n = true) (hid : s.bit Obj.cageStatus d.die n 1 = true) (temp : Int)
    (bias : List Nat) :
    ∃ t, execMonitorPoll d n false temp bias s = .next t ∧ t.rd Obj.cageModuleTemp d.die n = temp
      ∧ t.cage d n = { s.cage d n with
          noAck := 0, stale := false, polls := (s.cage d n).polls + 1,
          biasSum := (List.range 8).map (fun k => (s.cage d n).biasSum.getD k 0 + bias.getD k 0) } := by
  refine ⟨_, when_pos (by rw [hopen, hid]; rfl) .., ?_, ?_⟩
  · exact (State.rd_updMd ..).trans (State.rd_wr_same ..)
  · exact (State.cage_updCage_same ..).trans (by cases d <;> rfl)

end

/-- Settles O7: the bus by what its commands write, the monitors by the cage's own state, the records by the fields that stay. -/
theorem moduleBusAndMonitorsAreWatched : Obligations.ModuleBusAndMonitorsAreWatched := by
  refine ⟨fun s d n page v hopen hid hv => execModuleInterrupt_effect hopen hid hv,
    fun s d n hopen hin => execMgmtBusNoAck_effect hopen hin,
    fun s d n hup hdie hserved hfault => execMgmtBusRetry_effect hup hdie hserved hfault, fun s d n delayed temp bias hopen hid => ?_,
    fun s d n w hup hcages hw _ => ⟨execWearMinuteUpdate_effect hup hcages hw, execWearHourUpdate_effect hup hcages hw⟩,
    fun s hup hwf => ⟨_, when_pos hup .., rfl, rfl, fun n b => State.mramGet_flushWear hwf n⟩⟩
  cases delayed with
  | true =>
    exact ⟨_, execMonitorPoll_delayed hopen hid temp bias, fun _ => ⟨State.rdN_bump_same .., by cases d <;> rfl⟩, nofun⟩
  | false =>
    obtain ⟨t, e, htemp, hcage⟩ := execMonitorPoll_effect hopen hid temp bias
    refine ⟨t, e, nofun, fun _ => ⟨htemp, ?_, ?_, ?_, fun k hk => ?_⟩⟩
    · rw [hcage]
    · rw [hcage]
    · rw [hcage]
    · rw [hcage]
      simp [hk]

end Sys2Proof.Machine
end

section
namespace Sys2Proof.Machine

/-! ### What packets leave as they enter and leave the queues (R134–R136, R142) -/

/-- Rows that neither an event nor a packet on its way through a queue writes: all but those of the logs and arbiters, of the queues
and their cell pool, and a flow's sticky bits. -/
def ObjDef.offQueues (o : ObjDef) : Bool :=
  o.quiet && o.index != 0x1430 && o.index != 0x1431 && !(o.index == 0x1420 && o.sub == 6)

theorem ObjDef.offQueues_apart {o p : ObjDef} (h : o.offQueues = true) (k : p.offQueues = false) : p.apart o = true := by
  by_contra same
  have row : p.index = o.index ∧ p.sub = o.sub := by simpa [ObjDef.apart] using same
  simp only [ObjDef.offQueues, ObjDef.quiet, row] at h k
  exact Bool.noConfusion (h.symm.trans k)

/-- The parts of a media die that a packet on its way through a queue leaves as they are. -/
def MediaDie.steady (m : MediaDie) : Tab FlowOutSt × DieTime × BusSt × LoomSt := (m.net.flowsOut, m.time, m.bus, m.loom)

/-- A port's gate lists and the frame on its wire. -/
def PortSt.wire (p : PortSt) : Option GateSet × Option (GateSet × Instant) × Option (Nat × Nat × Nat × Bool) :=
  (p.gates, p.pending, p.tx)

/-- What packets on their way through the queues leave: egress flows, the dies' time, parity injections and the Loom, what gates and
transmits at the ports, the rows of other objects, and the records that wait in the arbiters. -/
structure State.Passage (s t : State) : Prop where
  steady : ∀ e, (t.md e).steady = (s.md e).steady
  wire : ∀ e p, (t.port e p).wire = (s.port e p).wire
  rd : ∀ o : ObjDef, o.offQueues = true → ∀ d i, t.rd o d i = s.rd o d i
  rdBytes : ∀ o : ObjDef, Obj.slvErrLast.apart o = true → ∀ d i, t.rdBytes o d i = s.rdBytes o d i
  buf : ∀ e, (s.md e).arb.buf <+: (t.md e).arb.buf

section
variable {r s t : State}

theorem State.Passage.refl (s : State) : s.Passage s :=
  ⟨fun _ => rfl, fun _ _ => rfl, fun _ _ _ _ => rfl, fun _ _ _ _ => rfl, fun _ => List.prefix_rfl⟩

theorem State.Passage.trans (h : r.Passage s) (k : s.Passage t) : r.Passage t where
  steady e := (k.steady e).trans (h.steady e)
  wire e p := (k.wire e p).trans (h.wire e p)
  rd o ho d i := (k.rd o ho d i).trans (h.rd o ho d i)
  rdBytes o ho d i := (k.rdBytes o ho d i).trans (h.rdBytes o ho d i)
  buf e := (h.buf e).trans (k.buf e)

theorem State.Passage.wr {o d i v} (h : s.Passage t) (ho : o.offQueues = false := by rfl) : s.Passage (t.wr o d i v) :=
  { h with rd := fun p hp e j => (State.rd_wr_apart (ObjDef.offQueues_apart hp ho) ..).trans (h.rd p hp e j) }

theorem State.Passage.send {x} (h : s.Passage t) : s.Passage (t.send x) := { h with }

theorem State.Passage.ite {p : Prop} {i : Decidable p} (h : r.Passage s) (k : r.Passage t) : r.Passage (if p then s else t) := by
  split <;> assumption

theorem State.Passage.foldl {α : Type _} {f : State → α → State} {l : List α} (hf : ∀ t x, s.Passage t → s.Passage (f t x))
    (h : s.Passage t) : s.Passage (l.foldl f t) := by
  induction l generalizing t with
  | nil => exact h
  | cons x l ih => exact ih (hf t x h)

/-- A change of a media die beside what `Passage` keeps of it; its arbiter may take records. -/
theorem State.Passage.updMd {d f} (h : s.Passage t) (hs : ∀ m, (f m).steady = m.steady := by intro; rfl)
    (hp : ∀ m p, (tabGet (f m).net.ports p PortSt.start).wire = (tabGet m.net.ports p PortSt.start).wire := by intros; rfl)
    (ha : (t.md d).arb.buf <+: (f (t.md d)).arb.buf := by exact List.prefix_rfl) : s.Passage (t.updMd d f) where
  steady e := (State.md_updMd_leaves _ _ _ _ hs).trans (h.steady e)
  wire e p := (State.md_updMd_leaves (fun m => (tabGet m.net.ports p PortSt.start).wire) t d e (hp · p)).trans (h.wire e p)
  rd o ho e i := (State.rd_updMd ..).trans (h.rd o ho e i)
  rdBytes o ho e i := (State.rdBytes_of_blobs (State.blobs_updMd ..) ..).trans (h.rdBytes o ho e i)
  buf e := by
    refine (h.buf e).trans ?_
    cases d <;> cases e
    · exact ha
    · exact List.prefix_rfl
    · exact List.prefix_rfl
    · exact ha

theorem State.Passage.updQueue {d q f} (h : s.Passage t) : s.Passage (t.updQueue d q f) := by
  unfold State.updQueue State.updNet
  exact h.updMd

theorem State.Passage.updSlv {d f} (h : s.Passage t) : s.Passage (t.updSlv d f) := h.updMd

/-- A change of a port beside its gates and its transmitter. -/
theorem State.Passage.updPort {d p f} (h : s.Passage t) (hf : ∀ x, (f x).wire = x.wire := by intro; rfl) :
    s.Passage (t.updPort d p f) := by
  refine h.trans ⟨fun e => State.md_updMd_leaves _ _ _ _ (fun _ => rfl), fun e k => ?_,
    fun _ _ _ _ => State.rd_updMd .., fun _ _ _ _ => State.rdBytes_of_blobs (State.blobs_updMd ..) ..,
    fun e => ?_⟩
  · have same : (tabGet (tabSet (t.md d).net.ports p (f (t.port d p))) k PortSt.start).wire = (t.port d k).wire := by
      rw [tabGet_tabSet]
      split
      · next e => subst e; exact hf _
      · rfl
    cases d <;> cases e
    · exact same
    · rfl
    · rfl
    · exact same
  · have same : ((t.updPort d p f).md e).arb.buf = (t.md e).arb.buf := State.md_updMd_leaves (·.arb.buf) ..
    rw [same]

theorem State.Passage.noteError {d code payload} (h : s.Passage t) : s.Passage (t.noteError d code payload) := by
  unfold State.noteError
  refine .ite (State.Passage.updMd { h with rdBytes := fun o ho e i => ?_ }) h
  exact (State.rdBytes_wrBytes_apart ho ..).trans (h.rdBytes o ho e i)

theorem State.Passage.emitMarker {d} (h : s.Passage t) : s.Passage (t.emitMarker d) := by
  unfold State.emitMarker
  exact .ite (.updMd h.wr (ha := List.prefix_append ..)) h

/-- An event leaves the records that wait for Die C where they are (R87, R89). -/
theorem State.Passage.raiseMedia {d code inst payload} (h : s.Passage t) : s.Passage (t.raiseMedia d code inst payload) := by
  have noted : s.Passage (((t.emitMarker d).takeDseq d.pdie).noteError d code payload) :=
    .noteError (State.Passage.wr h.emitMarker)
  have held : ((((t.emitMarker d).takeDseq d.pdie).noteError d code payload).md d).arb = ((t.emitMarker d).md d).arb :=
    State.md_noteError_leaves (·.arb) (fun _ _ => rfl) ..
  have buf : ((((t.emitMarker d).takeDseq d.pdie).noteError d code payload).md d).arb.buf <+: ((t.emitMarker d).md d).arb.buf := by
    rw [held]
  unfold State.raiseMedia
  exact .ite (noted.updMd (ha := buf.trans (List.prefix_append ..))) (noted.wr.updMd (ha := buf))

theorem State.Passage.raise {d : MDie} {code inst payload} (h : s.Passage t) : s.Passage (t.raise d.pdie code inst payload) := by
  cases d <;> exact h.raiseMedia

theorem State.Passage.watermark {d q level} (h : s.Passage t) : s.Passage (t.watermark d .queue q level) := by
  have armed : ∀ {u : State} {b}, s.Passage u → s.Passage (u.setArmed d .queue q b) := fun k => k.updMd.wr
  unfold State.watermark
  exact .ite (armed h.wr.wr) (.ite (armed h) h)

theorem State.Passage.setDepth {d q n} (h : s.Passage t) : s.Passage (t.setDepth d q n) := by
  unfold State.setDepth
  exact h.wr.wr.wr.watermark

theorem State.Passage.refusePkt {d q flow egress} (h : s.Passage t) : s.Passage (t.refusePkt d q flow egress) := by
  unfold State.refusePkt
  have told : s.Passage (if egress = true ∧ flow < 4096 then ((t.bump Obj.queDropCount d.die q).setBit Obj.queSticky d.die q 1).setBit
      Obj.flowOutSticky d.die flow 0 else (t.bump Obj.queDropCount d.die q).setBit Obj.queSticky d.die q 1) :=
    .ite h.wr.wr.wr h.wr.wr
  exact .ite told told.raise

theorem State.Passage.enqueue {d q p egress} (h : s.Passage t) : s.Passage (t.enqueue d q p egress) := by
  unfold State.enqueue
  exact .ite h.updQueue.setDepth h.refusePkt

theorem State.Passage.dequeue {d q} (h : s.Passage t) : s.Passage (t.dequeue d q) := by
  unfold State.dequeue
  split
  · exact h
  · exact h.updQueue.setDepth

theorem State.Passage.pushPackets {d l} (h : s.Passage t) : s.Passage (t.pushPackets d l) := .foldl (fun _ _ h => h.enqueue) h

theorem State.Passage.discardUnfit {d p} (h : s.Passage t) : s.Passage (t.discardUnfit d p) := by
  unfold State.discardUnfit
  split
  · exact h
  · refine .foldl (fun u q h => ?_) h
    split
    · exact h
    · extract_lets
      split
      · exact h
      · exact .ite (State.Passage.wr h.dequeue).raise h

theorem State.Passage.askHop {d p hop} (h : s.Passage t) : s.Passage (t.askHop d p hop) := by
  unfold State.askHop
  split
  · exact h
  · exact .ite h h.updPort.enqueue

/-! ### Flows, ports and reports that packets leave -/

variable (h : s.Passage t)
include h

theorem State.Passage.now (d : MDie) : t.now d.pdie = s.now d.pdie := by
  have time : (t.md d).time = (s.md d).time := congrArg (·.2.1) (h.steady d)
  cases d <;> exact congrArg DieTime.ctr time

theorem State.Passage.words (d : MDie) : (t.md d).bus = (s.md d).bus := congrArg (·.2.2.1) (h.steady d)

theorem State.Passage.outDesc (d : MDie) (f : Nat) : t.outDesc d f = s.outDesc d f := h.rdBytes Obj.flowOutDesc rfl ..

theorem State.Passage.outState (d : MDie) (f : Nat) : t.outState d f = s.outState d f :=
  congrArg Int.toNat (h.rd Obj.flowOutState rfl ..)

theorem State.Passage.flowOut (d : MDie) (f : Nat) : t.flowOut d f = s.flowOut d f := by
  have flows : (t.md d).net.flowsOut = (s.md d).net.flowsOut := congrArg (·.1) (h.steady d)
  rw [State.flowOut, flows, h.outDesc, State.flowOut]

theorem State.Passage.sends (d : MDie) (f : Nat) : t.sends d f = s.sends d f := by
  have mode : t.mode = s.mode := State.mode_of_rd (h.rd Obj.modeState rfl ..)
  simp only [State.sends, State.inForce, mode, h.flowOut, h.outState, h.now]

theorem State.Passage.reported {u : State} {d : MDie} {code inst payload : Nat} (k : u.reported s d.pdie code inst payload) :
    u.reported t d.pdie code inst payload := by
  have buf := h.buf d
  cases d <;> exact k.imp fun _ hr => ⟨(buf.drop _).subset hr.1, hr.2⟩

end

end Sys2Proof.Machine
end

section
namespace Sys2Proof.Machine

/-! ### Packets of egress flows (R128, R396) -/

section
variable {s : State} {d : MDie} {f : Nat}

theorem State.flowOut_updFlowOut (g : FlowOutSt → FlowOutSt) : (s.updFlowOut d f g).flowOut d f = g (s.flowOut d f) := by
  have tab : ((s.updFlowOut d f g).md d).net.flowsOut = tabSet (s.md d).net.flowsOut f (g (s.flowOut d f)) := by
    rw [State.updFlowOut, State.updNet, State.md_updMd]
  rw [State.flowOut, tab, tabGet_tabSet, if_pos rfl]

/-- The flow's RTP sequence number taken by one packet. -/
def State.seqTaken (s : State) (d : MDie) (f : Nat) : State :=
  s.updFlowOut d f (fun x => { x with seq := ((s.flowOut d f).seq + 1) % 2 ^ 32 })

/-- A payload of a flow that sends takes a sequence number; its packets then pass on to the queues, to a compare or to nowhere. -/
theorem State.emit_passage (h : s.sends d f = true) (pt : Nat) (p : Payload) (pace : Option (Nat × Nat)) :
    (s.seqTaken d f).Passage (s.emit d f pt p pace) := by
  have taken : (s.seqTaken d f).Passage (s.buildPackets d f pt p pace).1 := .refl _
  unfold State.emit
  rw [if_neg (not_not.mpr h)]
  split
  next u l e =>
  have made : (s.seqTaken d f).Passage u := by rwa [e] at taken
  refine .ite made.pushPackets ?_
  extract_lets own
  split
  · exact made
  · exact .pushPackets (.ite (.foldl (fun _ _ h => h.send) made) made)
  · exact made.pushPackets
  · exact .foldl (fun _ _ h => h.updSlv) made

theorem State.seq_emit (h : s.sends d f = true) (pt : Nat) (p : Payload) (pace : Option (Nat × Nat)) :
    ((s.emit d f pt p pace).flowOut d f).seq = ((s.flowOut d f).seq + 1) % 2 ^ 32 := by
  rw [(State.emit_passage h pt p pace).flowOut, State.seqTaken, State.flowOut_updFlowOut]

theorem State.sends_emit (h : s.sends d f = true) (pt : Nat) (p : Payload) (pace : Option (Nat × Nat)) :
    (s.emit d f pt p pace).sends d f = true := by
  rw [(State.emit_passage h pt p pace).sends, ← h]
  unfold State.seqTaken State.sends
  rw [State.flowOut_updFlowOut]
  cases d <;> rfl

/-- Payloads one after another take as many sequence numbers. -/
theorem State.seq_foldl_emit {α : Type} (pt : Nat) (p : α → Payload) (l : List α) (x : α) (h : s.sends d f = true) :
    (((x :: l).foldl (fun (u : State) x => u.emit d f pt (p x) none) s).flowOut d f).seq
      = ((s.flowOut d f).seq + (l.length + 1)) % 2 ^ 32 := by
  induction l generalizing s x with
  | nil => exact State.seq_emit h ..
  | cons y l ih =>
    rw [List.foldl_cons, ih y (State.sends_emit h ..), State.seq_emit h, List.length_cons]
    omega

theorem State.seq_pushAnc (h : s.sends d f = true) :
    ((s.pushAnc d f).flowOut d f).seq = ((s.flowOut d f).seq
      + max 1 (s.outAnc d (descTarget (s.outDesc d f)) (s.outFrame d (descTarget (s.outDesc d f)))).length) % 2 ^ 32 := by
  unfold State.pushAnc
  dsimp only
  cases s.outAnc d (descTarget (s.outDesc d f)) (s.outFrame d (descTarget (s.outDesc d f))) with
  | nil => exact State.seq_emit h ..
  | cons a l =>
    refine (State.seq_foldl_emit _ _ _ _ h).trans ?_
    simp

end

/-! ### Watermarks (R398) -/

/-- The rows that a watermark writes. -/
def WmKind.rows (k : WmKind) : List ObjDef := k.notice.1 :: k.counter :: (k.status.map (·.1)).toList

/-- A watermark changes its armed flag and its own rows, and nothing else. -/
theorem State.watermark_leaves {β : Type _} (part : State → β) (d : MDie) (k : WmKind) (i : Nat)
    (hm : ∀ (u : State) b, part (u.updMd d (fun m => { m with wmArmed := tabSet m.wmArmed (k.key i) b })) = part u)
    (hw : ∀ (u : State), ∀ o ∈ k.rows, ∀ v, part (u.wr o d.die i v) = part u) (s : State) (n : Nat) :
    part (s.watermark d k i n) = part s := by
  have armed : ∀ (u : State) b, part (u.setArmed d k i b) = part u := by
    intro u b
    unfold State.setArmed
    dsimp only
    split
    · next o _ e => exact (hw _ o (by simp [WmKind.rows, e]) _).trans (hm ..)
    · exact hm ..
  have marked : ∀ u : State, part ((u.setBit k.notice.1 d.die i k.notice.2).bump k.counter d.die i) = part u := fun u =>
    (hw _ k.counter (by simp [WmKind.rows]) _).trans (hw _ k.notice.1 (by simp [WmKind.rows]) _)
  unfold State.watermark
  extract_lets
  split
  · exact (armed ..).trans (marked _)
  · split
    · exact armed ..
    · rfl

theorem State.net_watermark (s : State) (d : MDie) (k : WmKind) (i n : Nat) : ((s.watermark d k i n).md d).net = (s.md d).net :=
  State.watermark_leaves (fun u => (u.md d).net) d k i (fun _ _ => State.md_updMd_leaves (·.net) ..) (fun _ _ _ _ => rfl) s n

theorem State.sent_watermark (s : State) (d : MDie) (k : WmKind) (i n : Nat) : (s.watermark d k i n).sent = s.sent :=
  State.watermark_leaves (·.sent) d k i (fun _ _ => State.sent_updMd ..) (fun _ _ _ _ => rfl) s n

theorem State.rd_watermark {o : ObjDef} {k : WmKind} (h : ∀ p ∈ k.rows, p.apart o = true) (s : State) (d : MDie) (i n : Nat) (e : Die)
    (j : Nat) : (s.watermark d k i n).rd o e j = s.rd o e j :=
  State.watermark_leaves (·.rd o e j) d k i (fun _ _ => State.rd_updMd ..) (fun _ p hp _ => State.rd_wr_apart (h p hp) ..) s n

/-- The fill of a Bolt buffer is the one given (R237). -/
theorem State.fill_setBolt (s : State) (d : MDie) (c n : Nat) : (s.setBolt d c n).rdN Obj.encBoltFill d.die c = n := by
  rw [State.rdN, State.setBolt, State.rd_watermark (by decide), State.rd_wr_same, Int.toNat_natCast]

/-! ### Cells of a queue (R134, R397) -/

section
variable {s : State} {d : MDie} {q n : Nat}

theorem State.queue_of_net {t : State} (h : (t.md d).net = (s.md d).net) (q : Nat) : t.queue d q = s.queue d q := by
  rw [State.queue, h, State.queue]

theorem State.queue_setDepth (k : Nat) : (s.setDepth d q n).queue d k = s.queue d k :=
  State.queue_of_net (State.net_watermark ..) k

theorem State.sent_setDepth : (s.setDepth d q n).sent = s.sent := State.sent_watermark ..

theorem State.queue_updQueue (f : QueueSt → QueueSt) (k : Nat) :
    (s.updQueue d q f).queue d k = if q = k then f (s.queue d q) else s.queue d k := by
  have tab : ((s.updQueue d q f).md d).net.queues = tabSet (s.md d).net.queues q (f (s.queue d q)) := by
    rw [State.updQueue, State.updNet, State.md_updMd]
  rw [State.queue, tab, tabGet_tabSet]
  rfl

theorem State.depth_updQueue (f : QueueSt → QueueSt) (k : Nat) : (s.updQueue d q f).depth d k = s.depth d k :=
  congrArg Int.toNat (State.rd_updMd ..)

theorem State.depth_setDepth : (s.setDepth d q n).depth d q = n := by
  unfold State.setDepth
  extract_lets
  rw [State.depth, State.rdN, State.rd_watermark (by decide), State.rd_putBit_apart rfl, State.rd_wr_same, Int.toNat_natCast]

/-- Words of a queue that no injection spoils pop clean (R394). -/
theorem State.popWords_clean (h : tabGet (s.md d).bus.words q 0 = 0) (words : Nat) : s.popWords d q words 0 = (s, false) := by
  unfold State.popWords
  simp [h]

/-- A cell has left a queue, which then holds `l` with `k` cells of its head taken (R397). -/
def State.cellPopped (s : State) (d : MDie) (q : Nat) (l : List Pkt) (k : Nat) : State :=
  (s.updQueue d q (fun x => { x with pkts := l, taken := k })).setDepth d q (s.depth d q - 1)

theorem State.cellPopped_effect (l : List Pkt) (k : Nat) : (s.cellPopped d q l k).depth d q = s.depth d q - 1
    ∧ ((s.cellPopped d q l k).queue d q).pkts = l ∧ ((s.cellPopped d q l k).queue d q).taken = k := by
  have queue : (s.cellPopped d q l k).queue d q = { s.queue d q with pkts := l, taken := k } := by
    rw [State.cellPopped, State.queue_setDepth, State.queue_updQueue, if_pos rfl]
  rw [queue]
  exact ⟨State.depth_setDepth, rfl, rfl⟩

/-- A good cell leaves its queue; with the last one its packet departs (R397). -/
theorem State.popCell_good {p : Pkt} {rest : List Pkt} (hp : (s.queue d q).pkts = p :: rest)
    (hw : tabGet (s.md d).bus.words q 0 = 0) :
    s.popCell d q 0 = if cellsOf p.len ≤ (s.queue d q).taken + 1 then (s.cellPopped d q rest 0).depart d p
      else s.cellPopped d q (p :: rest) ((s.queue d q).taken + 1) := by
  unfold State.popCell
  rw [hp]
  simp only [State.popWords_clean hw, Bool.or_false, decide_eq_true_eq]
  split <;> (rw [State.depth_updQueue]; rfl)

theorem State.net_updFsy (n : Nat) (f : FsySt → FsySt) : ((s.updFsy d n f).md d).net = (s.md d).net :=
  State.md_updMd_leaves (·.net) ..

theorem State.anc_updFsy (n : Nat) (f : FsySt → FsySt) : ((s.updFsy d n f).md d).loom.anc = (s.md d).loom.anc :=
  State.md_updMd_leaves (·.loom.anc) ..

/-- An ancillary packet joins those of its RTP timestamp at its port, and leaves queues and objects (R145). -/
theorem State.takeAnc_effect (port ts : Nat) (data : List Byte) : ((s.takeAnc d port ts data).md d).net = (s.md d).net
    ∧ (s.takeAnc d port ts data).objs = s.objs
    ∧ (tabGet ((s.takeAnc d port ts data).md d).loom.anc port (0, [])).1 = ts
    ∧ (tabGet ((s.takeAnc d port ts data).md d).loom.anc port (0, [])).2.getLast? = some data := by
  unfold State.takeAnc
  extract_lets u
  have net : (u.md d).net = (s.md d).net := State.md_updMd_leaves (·.net) ..
  have objs : u.objs = s.objs := State.objs_updMd ..
  have anc : tabGet (u.md d).loom.anc port (0, []) = (ts,
      (if (tabGet (s.md d).loom.anc port (ts, [])).1 = ts then (tabGet (s.md d).loom.anc port (ts, [])).2 else []) ++ [data]) := by
    simp only [u, State.md_updMd, tabGet_tabSet, if_true]
  split
  · rw [anc]
    exact ⟨net, objs, rfl, List.getLast?_concat⟩
  · rw [State.net_updFsy, State.anc_updFsy, anc]
    exact ⟨net, (State.objs_updMd ..).trans objs, rfl, List.getLast?_concat⟩

theorem State.depart_anc {p : Pkt} (h4 : descKind (s.inDesc d p.flow) = 4) (hp : p.poison = false) :
    s.depart d p = s.takeAnc d (descTarget (s.inDesc d p.flow)) p.rtp.ts p.rtp.data := by
  unfold State.depart
  simp [h4, hp]

end

/-- Settles O9: a Bolt buffer by the fill it is given, pushed packets by the sequence numbers that `emit` takes, a popped cell by its
queue's depth and, after the last one, by where its packet departs to. -/
theorem queuesAreFilledAndDrained : Obligations.QueuesAreFilledAndDrained := by
  refine ⟨fun s d ch n hup hused hfit => ⟨_, when_pos (by simp [hup, hused, hfit]) .., State.fill_setBolt ..⟩,
    fun s d ch n hup hused hsome hn => ⟨_, when_pos (by simp [hup, hused, hsome, hn]) .., State.fill_setBolt ..⟩,
    fun s d f k np rows hup hkind hk hrows hout hsends =>
      ⟨_, when_pos (by simp [hup, hkind, hk, hrows, hout]) .., State.seq_emit hsends ..⟩,
    fun s d f hup hkind hout hsends => ⟨_, when_pos (by simp [hup, hkind, hout]) .., State.seq_pushAnc hsends⟩,
    fun s d q p rest hup hq hp hw => ?_⟩
  have popped : exec (.queuePop d (.cell q 0)) s = .next (s.popCell d q 0) := when_pos (by simp [hup, hq]) ..
  rw [popped, State.popCell_good hp hw]
  refine ⟨fun more => ?_, fun last hkind hpoison => ?_⟩
  · rw [if_neg (by omega)]
    exact ⟨_, rfl, State.cellPopped_effect ..⟩
  · have desc : (s.cellPopped d q rest 0).inDesc d p.flow = s.inDesc d p.flow :=
      (State.Passage.refl s).updQueue.setDepth.rdBytes Obj.flowInDesc rfl ..
    obtain ⟨depth, pkts, taken⟩ := State.cellPopped_effect (s := s) (d := d) (q := q) rest 0
    obtain ⟨net, objs, joined⟩ := State.takeAnc_effect (s := s.cellPopped d q rest 0) (d := d) (descTarget (s.inDesc d p.flow))
      p.rtp.ts p.rtp.data
    rw [if_pos last, State.depart_anc (by rwa [desc]) hpoison, desc]
    refine ⟨_, rfl, ?_, ?_, ?_, joined⟩
    · exact (congrArg Int.toNat (State.rd_of_objs objs ..)).trans depth
    · rw [State.queue_of_net net, pkts]
    · rw [State.queue_of_net net, taken]

end Sys2Proof.Machine
end

section
namespace Sys2Proof.Machine

/-! ### Gate lists of a port (R140–R142) -/

section
variable {s : State} {d : MDie} {p : Nat}

theorem State.port_updPort (f : PortSt → PortSt) (k : Nat) :
    (s.updPort d p f).port d k = if p = k then f (s.port d p) else s.port d k := by
  have tab : ((s.updPort d p f).md d).net.ports = tabSet (s.md d).net.ports p (f (s.port d p)) := by
    rw [State.updPort, State.updNet, State.md_updMd]
  rw [State.port, tab, tabGet_tabSet]
  rfl

/-- A change of a port and of an object that is no event's leaves where events go. -/
theorem State.inlets_wr_updPort {o : ObjDef} (h : o.apart Obj.evtGseqNext = true) (f : PortSt → PortSt) (x : Die) (i : Nat) (v : Int) :
    ((s.updPort d p f).wr o x i v).inlets = s.inlets := by
  refine Prod.ext ?_ (Prod.ext ?_ ?_)
  · exact State.md_updMd_leaves (·.arb) s d .a
  · exact State.md_updMd_leaves (·.arb) s d .b
  · exact (State.rdN_wr_apart h ..).trans (congrArg Int.toNat (State.rd_updMd ..))

/-- GATE.STATE of a commit: pending, beside an operative set or without one (R141). -/
theorem State.gateState_commitGates (t : Nat) :
    (s.commitGates d p t).rd Obj.gateState d.die p = if (s.port d p).gates.isSome then 3 else 2 := by
  unfold State.commitGates
  extract_lets g f st u v
  have port : v.port d p = { s.port d p with pending := some (g, st) } := (State.port_updPort ..).trans (if_pos rfl)
  rw [port]
  exact State.rd_wr_same ..

theorem execGateCommit_eq {p : Fin 32} (hup : s.serverUp = true) (hm : s.mode ≠ .selvedge) (hr : s.reachable d = true) :
    execGateCommit d p s = .next (if (s.gateShadow d p).cycleOk then
      ((s.ans .ok).commitGates d p (Instant.ofNs (s.now d.pdie)).ceilNs).ans .ok else { s with answer := .range }) := by
  unfold execGateCommit
  rw [when_pos hup, State.mirror_mdie hm hr]
  rfl

/-! ### Overruns (R142) -/

/-- The frame on a port's wire is counted as an overrun. -/
def State.overrun (s : State) (d : MDie) (p tc st e : Nat) : State :=
  ((s.updPort d p (fun x => { x with tx := some (tc, st, e, true) })).bump Obj.gateCount d.die p).raise d.pdie 0x1505 p
    (p16 [p, tc])

theorem State.overrun_effect (tc st e : Nat) :
    ((s.overrun d p tc st e).port d p).wire = ((s.port d p).gates, (s.port d p).pending, some (tc, st, e, true))
    ∧ (s.overrun d p tc st e).rdN Obj.gateCount d.die p = min (s.rdN Obj.gateCount d.die p + 1) Obj.gateCount.ty.maxVal
    ∧ (∀ o, o.quiet = true → Obj.gateCount.apart o = true → ∀ x i, (s.overrun d p tc st e).rd o x i = s.rd o x i)
    ∧ (∀ {u : State} {code inst payload}, u.reported s d.pdie code inst payload →
        u.reported (s.overrun d p tc st e) d.pdie code inst payload) := by
  unfold State.overrun
  generalize hv : (s.updPort d p (fun x => { x with tx := some (tc, st, e, true) })).bump Obj.gateCount d.die p = v
  have raised : v.Passage (v.raise d.pdie 0x1505 p (p16 [p, tc])) := (State.Passage.refl v).raise
  have port : v.port d p = { s.port d p with tx := some (tc, st, e, true) } := by
    subst hv
    exact (State.port_updPort ..).trans (if_pos rfl)
  have count : v.rdN Obj.gateCount d.die p = min (s.rdN Obj.gateCount d.die p + 1) Obj.gateCount.ty.maxVal := by
    subst hv
    rw [State.rdN_bump_same, State.rdN, State.updPort, State.updNet, State.rd_updMd]
    rfl
  refine ⟨(raised.wire d p).trans (by rw [port]; rfl), (State.rdN_raise rfl ..).trans count, fun o hq ha x i => ?_,
    fun {u _ _ _} k => raised.reported (State.reported_of_records (u := s) ?_ k)⟩
  · rw [State.rd_raise hq, ← hv, State.rd_bump_apart ha]
    exact State.rd_updMd ..
  · subst hv
    cases d <;> rfl

/-- A frame is counted where its gate is closed, and not again (R142). -/
theorem State.gateOverrun_cases (s : State) (d : MDie) (p : Nat) :
    s.gateOverrun d p = s ∨ ∃ tc st e, s.gateOverrun d p = s.overrun d p tc st e := by
  unfold State.gateOverrun
  extract_lets
  split
  · next tc st e _ =>
    split
    · exact .inr ⟨tc, st, e, rfl⟩
    · exact .inl rfl
  · exact .inl rfl

theorem State.gateOverrun_counts {tc st e : Nat} (ht : (s.port d p).tx = some (tc, st, e, false)) (he : s.now d.pdie * 1000 < e)
    (hc : s.gateOpenPs d p tc (s.now d.pdie * 1000) = some 0) : s.gateOverrun d p = s.overrun d p tc st e := by
  unfold State.gateOverrun
  rw [ht]
  exact if_pos ⟨he, hc⟩

/-- Counting an overrun leaves the gate lists, their state and what was reported. -/
theorem State.gateOverrun_leaves (s : State) (d : MDie) (p : Nat) : ((s.gateOverrun d p).port d p).gates = (s.port d p).gates
    ∧ ((s.gateOverrun d p).port d p).pending = (s.port d p).pending
    ∧ (s.gateOverrun d p).rd Obj.gateState d.die p = s.rd Obj.gateState d.die p
    ∧ ∀ {u : State} {code inst payload}, u.reported s d.pdie code inst payload →
        u.reported (s.gateOverrun d p) d.pdie code inst payload := by
  obtain h | ⟨tc, st, e, h⟩ := s.gateOverrun_cases d p
  · rw [h]
    exact ⟨rfl, rfl, rfl, id⟩
  · obtain ⟨wire, -, rd, reported⟩ := State.overrun_effect (s := s) (d := d) (p := p) tc st e
    rw [h]
    exact ⟨congrArg (·.1) wire, congrArg (·.2.1) wire, rd _ rfl rfl .., reported⟩

end

section
variable {s : State} {d : MDie} {p : Fin 32}

/-- The pending set of a port starts (R141). -/
theorem execGateSetStart_effect {g : GateSet} {st : Instant} (hup : s.up d.pdie = true)
    (hp : (s.port d p).pending = some (g, st)) (hst : st.le (.ofNs (s.now d.pdie)) = true) (hr : s.canReport d.pdie = true) :
    ∃ t, execGateSetStart d p s = .next t ∧ (t.port d p).pending = none
      ∧ (t.port d p).gates = (if g.enable then some g else none)
      ∧ t.rd Obj.gateState d.die p = (if g.enable then 1 else 0)
      ∧ s.reported t d.pdie 0x1501 p (p16 [p, if g.enable then 1 else 0]) := by
  unfold execGateSetStart
  dsimp only
  rw [hp]
  dsimp only
  rw [when_pos (by rw [hup, hst]; rfl)]
  refine ⟨_, rfl, ?_⟩
  generalize hu : (s.updPort d p (fun x => { x with pending := none, gates := if g.enable then some g else none })).wr
    Obj.gateState d.die p (if g.enable then 1 else 0) = u
  have port : u.port d p = { s.port d p with pending := none, gates := if g.enable then some g else none } := by
    subst hu
    exact (State.port_updPort ..).trans (if_pos rfl)
  have inlets : u.inlets = s.inlets := by
    subst hu
    exact State.inlets_wr_updPort rfl ..
  have raised := (State.Passage.refl u).raise (d := d) (code := 0x1501) (inst := p) (payload := p16 [p, if g.enable then 1 else 0])
  obtain ⟨gates, pending, state, reported⟩ :=
    State.gateOverrun_leaves (u.raise d.pdie 0x1501 p (p16 [p, if g.enable then 1 else 0])) d p
  have wire := (raised.wire d p).trans (congrArg PortSt.wire port)
  refine ⟨pending.trans (congrArg (·.2.1) wire), gates.trans (congrArg (·.1) wire), ?_, reported (State.reported_raise hr inlets ..)⟩
  rw [state, State.rd_raise rfl, ← hu, State.rd_wr_same]

/-- A frame whose gate is closed at a boundary is counted (R142). -/
theorem execGateEntryBoundary_effect {tc st e : Nat} (hup : s.up d.pdie = true) (hg : (s.port d p).gates.isSome = true)
    (ht : (s.port d p).tx = some (tc, st, e, false)) (he : s.now d.pdie * 1000 < e)
    (hc : s.gateOpenPs d p tc (s.now d.pdie * 1000) = some 0) (hr : s.canReport d.pdie = true) :
    ∃ t, execGateEntryBoundary d p s = .next t
      ∧ t.rdN Obj.gateCount d.die p = min (s.rdN Obj.gateCount d.die p + 1) Obj.gateCount.ty.maxVal
      ∧ (t.port d p).tx = some (tc, st, e, true) ∧ s.reported t d.pdie 0x1505 p (p16 [p, tc]) := by
  refine ⟨_, when_pos (by rw [hup, hg]; rfl) .., ?_⟩
  rw [State.gateOverrun_counts ht he hc]
  have discarded : (s.overrun d p tc st e).Passage ((s.overrun d p tc st e).discardUnfit d p) := (State.Passage.refl _).discardUnfit
  obtain ⟨wire, count, -⟩ := State.overrun_effect (s := s) (d := d) (p := p) tc st e
  refine ⟨(congrArg Int.toNat (discarded.rd Obj.gateCount rfl ..)).trans count,
    congrArg (·.2.2) ((discarded.wire d p).trans wire), discarded.reported (State.reported_raise hr (State.inlets_wr_updPort rfl ..) ..)⟩

end

/-- Settles O11: a commit by the state `commitGates` makes, a start and a boundary by what counting an overrun and discarding unfit
frames leave of the port and its reports. -/
theorem gateListsStartAndAreWatched : Obligations.GateListsStartAndAreWatched := by
  refine ⟨fun s d p hup hm hr hc => ?_, fun s d p hup hm hr hc => ?_,
    fun s d p g st hup hp hst hr => execGateSetStart_effect hup hp hst hr,
    fun s d p tc st e hup hg ht he hc hr => execGateEntryBoundary_effect hup hg ht he hc hr⟩
  · refine ⟨_, execGateCommit_eq hup hm hr, ?_⟩
    rw [if_pos hc]
    exact ⟨rfl, State.port_commitGates .., State.gateState_commitGates ..⟩
  · refine (execGateCommit_eq hup hm hr).trans ?_
    rw [if_neg (by rw [hc]; decide)]

end Sys2Proof.Machine
end

section
namespace Sys2Proof.Machine

/-! ### The pick of a port's own queue (R121, R136) -/

theorem State.Passage.frameLen {s t : State} (k : s.Passage t) (d : MDie) (h : Pkt) : t.frameLen d h = s.frameLen d h := by
  simp only [State.frameLen, k.outDesc]

theorem State.Passage.framePs {s t : State} (k : s.Passage t) (d : MDie) (p len : Nat) : t.framePs d p len = s.framePs d p len := by
  have quad : ∀ q, t.quad d q = s.quad d q := fun q => congrArg Int.toNat (k.rd Obj.quadMode rfl ..)
  simp only [State.framePs, State.portLanes, quad]

section
variable {s : State} {d : MDie} {p q : Nat} {h : Pkt} {rest : List Pkt}

/-- Without a declared flow a port serves its own queue alone, in class 7. -/
theorem State.classRing_own (hf : s.outFlows d = []) : s.classRing d p 7 = [ctlQueue p] := by
  unfold State.classRing State.portQueues State.classOf ctlQueue
  simp [hf, sortBy, insertBy]

/-- Without gate lists every gate stays open (R142). -/
theorem State.gateOpenPs_none (hg : (s.port d p).gates = none) (hp : (s.port d p).pending = none) (c ps : Nat) :
    s.gateOpenPs d p c ps = none := by
  unfold State.gateOpenPs
  simp [hg, hp]

theorem State.paced_own (hf : 4096 ≤ h.flow) : s.paced d h = false := by
  simp [State.paced, Nat.not_lt.mpr hf]

/-- The die's own packet is eligible at its port (R121, R136). -/
theorem State.eligible_own (hq : (s.queue d q).pkts = h :: rest) (hrate : (s.queue d q).rate = 0) (hf : 4096 ≤ h.flow)
    (hport : h.port = p) (hg : (s.port d p).gates = none) (hp : (s.port d p).pending = none) (tc ps : Nat) :
    s.eligible d p tc ps q = true := by
  unfold State.eligible
  rw [hq]
  simp [hrate, hf, hport, State.paced_own hf, State.gateOpenPs_none hg hp]

theorem State.headLen_eq (hq : (s.queue d q).pkts = h :: rest) : s.headLen d q = s.frameLen d h := by
  rw [State.headLen, hq]

theorem State.queue_updPort (f : PortSt → PortSt) (k : Nat) : (s.updPort d p f).queue d k = s.queue d k := by
  have tab : ((s.updPort d p f).md d).net.queues = (s.md d).net.queues := by
    rw [State.updPort, State.updNet, State.md_updMd]
  rw [State.queue, tab, State.queue]

/-- The only queue of a ring is picked where its deficit covers its eligible head; it may have taken its quantum (R136). -/
theorem State.pickLoop_only {tc ps : Nat} (hq : (s.queue d q).pkts = h :: rest) (hel : s.eligible d p tc ps q = true)
    (hdef : (s.frameLen d h : Int) ≤ (s.queue d q).deficit) :
    ∃ u, s.pickLoop d p tc ps [q] 1 = (u, some q) ∧ s.Passage u ∧ u.sent = s.sent ∧ (u.queue d q).pkts = h :: rest := by
  unfold State.pickLoop
  generalize tabGet (s.port d p).ring tc (0, true) = turn
  obtain ⟨cur, fresh⟩ := turn
  have first : (if [q].length ≤ cur then 0 else cur) = 0 := by
    split
    · rfl
    · next hlt => simpa using hlt
  dsimp only
  rw [first, List.getD_cons_zero, if_pos hel]
  cases fresh with
  | false =>
    rw [if_neg Bool.false_ne_true, State.headLen_eq hq, if_pos hdef]
    exact ⟨s, rfl, .refl s, rfl, hq⟩
  | true =>
    rw [if_pos rfl]
    generalize hu : (s.updQueue d q (fun x => { x with deficit := x.deficit + x.quantum })).updPort d p
      (fun x => { x with ring := tabSet x.ring tc (0, false) }) = u
    have passed : s.Passage u := by
      subst hu
      exact (State.Passage.refl s).updQueue.updPort
    have queue : u.queue d q = { s.queue d q with deficit := (s.queue d q).deficit + (s.queue d q).quantum } := by
      subst hu
      rw [State.queue_updPort, State.queue_updQueue, if_pos rfl]
    have pkts : (u.queue d q).pkts = h :: rest := by rw [queue, ← hq]
    have covers : (u.headLen d q : Int) ≤ (u.queue d q).deficit := by
      rw [State.headLen_eq pkts, passed.frameLen, queue]
      dsimp only
      omega
    rw [if_pos covers]
    refine ⟨u, rfl, passed, ?_, pkts⟩
    subst hu
    exact (State.sent_updMd ..).trans (State.sent_updMd ..)

/-- The class of the die's own traffic comes first (R136). -/
theorem State.pickPort_own {ps : Nat} {u : State} (hf : s.outFlows d = [])
    (hu : s.pickLoop d p 7 ps [ctlQueue p] 1 = (u, some (ctlQueue p))) : s.pickPort d p ps 8 = (u, some (7, ctlQueue p)) := by
  have picked : s.pick d p 7 ps = (u, some (ctlQueue p)) := by
    rw [State.pick, State.classRing_own hf]
    exact hu
  rw [State.pickPort, picked]

/-! ### A frame of the die's own is sent (R136, R137) -/

/-- The head of a queue has left it, and the queue's deficit and tokens have paid for it (R136, R137). -/
def State.headPaid (s : State) (d : MDie) (q : Nat) (h : Pkt) (rest : List Pkt) : State :=
  let u := (s.dequeue d q).updQueue d q (fun x => { x with deficit := if rest = [] then 0 else x.deficit - s.frameLen d h })
  u.wr Obj.shpTokens d.die q (u.rd Obj.shpTokens d.die q - (s.frameLen d h + (u.queue d q).overhead) * 256)

/-- The head of a queue is on a port's wire (R93, R136). -/
def State.headOnWire (s : State) (d : MDie) (p tc q : Nat) (h : Pkt) (rest : List Pkt) : State :=
  (s.headPaid d q h rest).updPort d p (fun x => { x with
    tx := some (tc, s.now d.pdie * 1000, s.now d.pdie * 1000 + (s.headPaid d q h rest).framePs d p (s.frameLen d h), false) })

theorem State.queue_dequeue (hq : (s.queue d q).pkts = h :: rest) :
    (s.dequeue d q).queue d q = { s.queue d q with pkts := rest, taken := 0 } := by
  unfold State.dequeue
  rw [hq]
  dsimp only
  rw [State.queue_setDepth, State.queue_updQueue, if_pos rfl]

theorem State.sent_dequeue : (s.dequeue d q).sent = s.sent := by
  unfold State.dequeue
  split
  · rfl
  · exact State.sent_setDepth.trans (State.sent_updMd ..)

theorem State.headOnWire_effect (hq : (s.queue d q).pkts = h :: rest) (tc : Nat) :
    (s.headOnWire d p tc q h rest).sent = s.sent ∧ ((s.headOnWire d p tc q h rest).queue d q).pkts = rest
    ∧ ((s.headOnWire d p tc q h rest).port d p).tx
        = some (tc, s.now d.pdie * 1000, s.now d.pdie * 1000 + s.framePs d p (s.frameLen d h), false) := by
  have gone : s.Passage ((s.dequeue d q).updQueue d q
      (fun x => { x with deficit := if rest = [] then 0 else x.deficit - s.frameLen d h })) := (State.Passage.refl s).dequeue.updQueue
  have quad : ∀ k, (s.headPaid d q h rest).quad d k = s.quad d k := fun k =>
    congrArg Int.toNat ((State.rd_wr_apart rfl ..).trans (gone.rd Obj.quadMode rfl ..))
  have duration : (s.headPaid d q h rest).framePs d p (s.frameLen d h) = s.framePs d p (s.frameLen d h) := by
    simp only [State.framePs, State.portLanes, quad]
  refine ⟨?_, ?_, ?_⟩
  · exact (State.sent_updMd ..).trans ((State.sent_updMd ..).trans State.sent_dequeue)
  · have paid : (s.headPaid d q h rest).queue d q = _ := (State.queue_updQueue ..).trans (if_pos rfl)
    rw [State.headOnWire, State.queue_updPort, paid, State.queue_dequeue hq]
  · rw [State.headOnWire, State.port_updPort, if_pos rfl, duration]

/-- A packet that no flow owns, with words that no injection spoils, is driven out of its port as it is. -/
theorem State.sendHead_own {tc : Nat} (hq : (s.queue d q).pkts = h :: rest) (hf : 4096 ≤ h.flow)
    (hw : tabGet (s.md d).bus.words q 0 = 0) :
    s.sendHead d p tc q = (s.headOnWire d p tc q h rest).send (.frame d p none h) := by
  have own : ¬ h.flow < 4096 := Nat.not_lt.mpr hf
  have bus : ((s.headOnWire d p tc q h rest).md d).bus = (s.md d).bus :=
    (State.md_updMd_leaves (·.bus) ..).trans ((State.Passage.refl s).dequeue.updQueue.words d)
  have clean := State.popWords_clean (s := s.headOnWire d p tc q h rest) (d := d) (q := q) (by rw [bus, hw]) (ceilDiv (h.len + 16) 4)
  have hdr : ∀ u : State, u.mediaHdr d p h = none := fun u => if_pos hf
  unfold State.headOnWire State.headPaid at clean ⊢
  unfold State.sendHead
  rw [hq]
  dsimp only at clean ⊢
  simp only [State.paced_own hf, own, Bool.false_eq_true, if_false, false_and, and_false, clean, Bool.or_false, hdr]

/-- A port without flows and gate lists sends the head of its own queue where the deficit covers it (R121, R136). -/
theorem execEgressSchedule_own {p : Fin 32} (hup : s.up d.pdie = true) (heth : s.ethPort d p = true) (hport : s.portUp d p = true)
    (hfree : s.txFree d p (s.now d.pdie * 1000) = true) (hflows : s.outFlows d = []) (hg : (s.port d p).gates = none)
    (hpend : (s.port d p).pending = none) (hq : (s.queue d (ctlQueue p)).pkts = h :: rest)
    (hrate : (s.queue d (ctlQueue p)).rate = 0) (hf : 4096 ≤ h.flow) (hp : h.port = p.val)
    (hw : tabGet (s.md d).bus.words (ctlQueue p) 0 = 0) (hdef : (s.frameLen d h : Int) ≤ (s.queue d (ctlQueue p)).deficit) :
    ∃ t, execEgressSchedule d p s = .next t ∧ t.sent = s.sent ++ [.frame d p none h]
      ∧ (t.queue d (ctlQueue p)).pkts = rest
      ∧ (t.port d p).tx = some (7, s.now d.pdie * 1000, s.now d.pdie * 1000 + s.framePs d p (s.frameLen d h), false) := by
  obtain ⟨u, pick, passed, sentU, pktsU⟩ :=
    State.pickLoop_only hq (State.eligible_own hq hrate hf hp hg hpend 7 (s.now d.pdie * 1000)) hdef
  have unfit : s.discardUnfit d p = s := by rw [State.discardUnfit, hg]
  obtain ⟨sent, pkts, tx⟩ := State.headOnWire_effect (p := p.val) pktsU 7
  refine ⟨(u.headOnWire d p 7 (ctlQueue p) h rest).send (.frame d p none h), ?_, ?_, pkts, ?_⟩
  · refine (when_pos (by rw [hup, heth, hport, hfree]; rfl) ..).trans ?_
    rw [unfit, State.pickPort_own hflows pick]
    dsimp only
    rw [State.sendHead_own pktsU hf (by rw [passed.words, hw])]
  · exact congrArg (· ++ [Sent.frame d p none h]) (sent.trans sentU)
  · rw [passed.now, passed.framePs, passed.frameLen] at tx
    exact tx

end

/-! ### Token buckets (R137) -/

section
variable {s : State} {d : MDie} {q : Nat}

/-- A token bucket: its queue, the tokens in it and the period of its refills. -/
def State.bucket (s : State) (d : MDie) (q : Nat) : QueueSt × Int × Nat :=
  (s.queue d q, s.rd Obj.shpTokens d.die q, (s.md d).net.period)

theorem State.bucket_refill_other {k : Nat} (h : k ≠ q) (period : Nat) : (s.refill d k period).bucket d q = s.bucket d q := by
  have changed : ∀ f v, ((s.updQueue d k f).wr Obj.shpTokens d.die k v).bucket d q = s.bucket d q := fun f v =>
    Prod.ext ((State.queue_updQueue ..).trans (if_neg h))
      (Prod.ext ((State.rd_wr_inst h ..).trans (State.rd_updMd ..)) (State.md_updMd_leaves (·.net.period) ..))
  unfold State.refill
  extract_lets
  split
  · exact changed ..
  · exact changed ..

/-- A refill of a bucket with a rate in force and no write held (R137). -/
theorem State.tokens_refill (held : (s.queue d q).held = false) (rate : (s.queue d q).rate ≠ 0) (period : Nat) :
    (s.refill d q period).rd Obj.shpTokens d.die q = min ((s.queue d q).burst * 256 : Int) (s.rd Obj.shpTokens d.die q
      + (((s.queue d q).rate * period * 32 + (s.queue d q).rem) / nsPerSec : Nat)) := by
  unfold State.refill
  simp only [held, rate, Bool.false_eq_true, false_and, if_false, State.rd_wr_same]
  split <;> omega

theorem mem_of_tabGet_ne {α : Type} {t : Tab α} {k : Nat} {v : α} (h : tabGet t k v ≠ v) : (k, tabGet t k v) ∈ t := by
  induction t with
  | nil => exact absurd rfl h
  | cons e t ih =>
    obtain ⟨i, w⟩ := e
    simp only [tabGet] at h ⊢
    split
    · next hi => exact hi ▸ List.mem_cons_self
    · next hi => exact List.mem_cons_of_mem _ (ih (by rwa [if_neg hi] at h))

/-- A listed queue with a rate in force is refilled once where no queue is listed twice. -/
theorem State.tokens_refillAll (hn : ((s.md d).net.queues.map (·.1)).Nodup) (held : (s.queue d q).held = false)
    (rate : (s.queue d q).rate ≠ 0) :
    ((s.shapedQueues d).foldl (fun s q => s.refill d q (refillNs (s.md d).net.period)) s).rd Obj.shpTokens d.die q
      = min ((s.queue d q).burst * 256 : Int) (s.rd Obj.shpTokens d.die q
          + (((s.queue d q).rate * refillNs (s.md d).net.period * 32 + (s.queue d q).rem) / nsPerSec : Nat)) := by
  have listed : q ∈ s.shapedQueues d := by
    have mem : (q, s.queue d q) ∈ (s.md d).net.queues := mem_of_tabGet_ne fun e => rate (congrArg QueueSt.rate e)
    exact List.mem_map.mpr ⟨_, List.mem_filter.mpr ⟨mem, by simp [rate]⟩, rfl⟩
  have once : (s.shapedQueues d).Nodup := hn.sublist (List.Sublist.map _ List.filter_sublist)
  obtain ⟨before, after, split⟩ := List.append_of_mem listed
  rw [split] at once ⊢
  have apart : ∀ k, (k ∈ before ∨ k ∈ after) → k ≠ q := by
    rintro k hk rfl
    have := List.nodup_middle.mp once
    simp only [List.nodup_cons, List.mem_append] at this
    exact this.1 hk
  rw [List.foldl_append, List.foldl_cons]
  have others : ∀ (l : List Nat) (u : State), (∀ k ∈ l, k ≠ q) →
      (l.foldl (fun s q => s.refill d q (refillNs (s.md d).net.period)) u).bucket d q = u.bucket d q := fun _ _ hl =>
    foldl_keeps (·.bucket d q) (fun _ k hk => State.bucket_refill_other (hl k hk) _)
  refine (congrArg (·.2.1) (others after _ fun k hk => apart k (.inr hk))).trans ?_
  have first := others before s fun k hk => apart k (.inl hk)
  simp only [State.bucket, Prod.mk.injEq] at first
  obtain ⟨queue, tokens, period⟩ := first
  refine (State.tokens_refill (by rw [queue, held]) (by rw [queue]; exact rate) _).trans ?_
  rw [queue, tokens, period]

end

/-! ### Landed and requested controls (R121, R139) -/

section
variable {s : State} {d : MDie} {f : Fin 4096}

/-- A pending control of a flow lands (R139). -/
theorem execFlowControlLanding_effect {start : Bool} {at_ : Nat} (hup : s.up d.pdie = true)
    (hp : (s.flowOut d f).pend = some (start, at_)) (hat : at_ ≤ s.now d.pdie) :
    ∃ t, execFlowControlLanding d f s = .next t ∧ t.outState d f = (if start then 2 else 0)
      ∧ (t.flowOut d f).pend = none ∧ (t.flowOut d f).run = start := by
  unfold execFlowControlLanding
  dsimp only
  rw [hp]
  dsimp only
  rw [when_pos (by simp [hup, hat])]
  refine ⟨_, rfl, ?_⟩
  generalize hu : (s.updFlowOut d f (fun x => { x with pend := none, since := at_, run := start })).wr Obj.flowOutState d.die f
    (if start then 2 else 0) = u
  have state : u.outState d f = if start then 2 else 0 := by
    rw [← hu, State.outState, State.rdN_wr_same]
    cases start <;> rfl
  have flow : u.flowOut d f = { s.flowOut d f with pend := none, since := at_, run := start } := by
    rw [← hu]
    exact State.flowOut_updFlowOut _
  have asked : u.Passage (if start then (descLegs (u.outDesc d f)).foldl
      (fun s leg => s.askHop d (descPort (s.outDesc d f) leg) (s.legHop d f leg)) u else u) :=
    .ite (.foldl (fun _ _ h => h.askHop) (.refl u)) (.refl u)
  rw [asked.outState, asked.flowOut, state, flow]
  exact ⟨rfl, rfl, rfl⟩

theorem State.controlInstant_wr_flowOutControl (v : Int) (t : Instant) :
    (s.wr Obj.flowOutControl d.die f v).controlInstant d f t = s.controlInstant d f t := by
  have format : (s.wr Obj.flowOutControl d.die f v).rdN Obj.flowOutFormat d.die f = s.rdN Obj.flowOutFormat d.die f :=
    State.rdN_wr_apart rfl ..
  have offset : (s.wr Obj.flowOutControl d.die f v).rdN Obj.flowOutOfs d.die f = s.rdN Obj.flowOutOfs d.die f :=
    State.rdN_wr_apart rfl ..
  simp only [State.controlInstant, State.outRaster, format, offset]

/-- A control of a flow at rest in the other state is pending for the flow raster's next landing instant (R139). -/
theorem State.flowControl_pends {start : Bool} (h : s.outState d f = if start then 0 else 2) (v : Int) (t : Instant) :
    ((s.wr Obj.flowOutControl d.die f v).flowControl d f start t).outState d f = (if start then 1 else 3)
    ∧ (((s.wr Obj.flowOutControl d.die f v).flowControl d f start t).flowOut d f).pend
        = some (start, s.controlInstant d f t) := by
  have before : (s.wr Obj.flowOutControl d.die f v).outState d f = s.outState d f := State.rdN_wr_apart rfl ..
  obtain ⟨state, flows⟩ := State.flowControl_effect (s := s.wr Obj.flowOutControl d.die f v) (d := d) (f := f) (start := start)
    (t := t) (by rw [before, h]; cases start <;> simp)
  refine ⟨state, ?_⟩
  rw [State.flowOut, flows, State.controlInstant_wr_flowOutControl]

section
variable (hup : s.serverUp = true) (hm : s.mode ≠ .selvedge) (hr : s.reachable d = true) (hlive : s.outLive d f = true)
include hup hm hr hlive

theorem execFlowOutStart_effect (h : s.outState d f = 0) : ∃ t, execFlowOutStart d f s = .next t ∧ t.answer = .ok
    ∧ t.outState d f = 1 ∧ (t.flowOut d f).pend = some (true, s.controlInstant d f (.ofNs (s.now d.pdie))) := by
  refine ⟨_, when_pos hup .., ?_⟩
  rw [State.mirror_mdie hm hr, if_pos (by exact hlive)]
  exact ⟨rfl, State.flowControl_pends (s := s.ans .ok) (start := true) h ..⟩

theorem execFlowOutStop_effect (h : s.outState d f = 2) : ∃ t, execFlowOutStop d f s = .next t ∧ t.answer = .ok
    ∧ t.outState d f = 3 ∧ (t.flowOut d f).pend = some (false, s.controlInstant d f (.ofNs (s.now d.pdie))) := by
  refine ⟨_, when_pos hup .., ?_⟩
  rw [State.mirror_mdie hm hr, if_pos (by exact hlive)]
  exact ⟨rfl, State.flowControl_pends (s := s.ans .ok) (start := false) h ..⟩

end

/-- The head packet of a paced leg is released at its instant (R138). -/
theorem execPacedPacketRelease_effect {leg : Fin 2} {h : Pkt} {rest : List Pkt} {r : Nat} (hup : s.up d.pdie = true)
    (hq : (s.queue d (descQueue (s.outDesc d f) (leg.val + 1))).pkts = h :: rest) (hp : s.paced d h = true) (hf : h.flow = f.val)
    (hrel : h.release = some r) (hr : r ≤ s.now d.pdie) :
    ∃ t, execPacedPacketRelease d f leg s = .next t ∧ t.objs = s.objs
      ∧ (t.queue d (descQueue (s.outDesc d f) (leg.val + 1))).pkts = { h with ready := true } :: rest := by
  unfold execPacedPacketRelease
  dsimp only
  rw [hq]
  dsimp only
  rw [when_pos (by simp [hup, hp, hf, hrel, hr])]
  refine ⟨_, rfl, State.objs_updMd .., ?_⟩
  rw [State.queue_updQueue, if_pos rfl]

end

/-- Settles O10: the port's own queue by its pick and what sending its head changes, token buckets by the refills of the other queues
leaving one as it is, a landed control by the packets that ask for next hops leaving its flow. -/
theorem egressIsScheduledShapedAndPaced : Obligations.EgressIsScheduledShapedAndPaced := by
  refine ⟨fun s d p h rest hup heth hport hfree hflows hg hpend hq hrate hf hp hw hdef =>
      execEgressSchedule_own hup heth hport hfree hflows hg hpend hq hrate hf hp hw hdef,
    fun s d q hup hn held rate => ⟨_, when_pos hup .., ?_⟩,
    fun s d f leg h rest r hup hq hpaced hflow hrel hr => execPacedPacketRelease_effect hup hq hpaced hflow hrel hr,
    fun s d f start at_ hup hp hat => execFlowControlLanding_effect hup hp hat,
    fun s d f hup hm hr hlive => ⟨execFlowOutStart_effect hup hm hr hlive, execFlowOutStop_effect hup hm hr hlive⟩⟩
  exact State.tokens_refillAll hn held rate

end Sys2Proof.Machine
end

section
namespace Sys2Proof.Machine

/-! ### The routes of a destination and what the Loom's other work leaves of them (R153, R154) -/

/-- The primary route of a destination, its pending one and its loss, and what its rows show: the route in force, the pending one and
the switches counted. -/
def State.routes (s : State) (d : MDie) (p : Nat) : (Nat × Option PendRoute × Option Nat) × Int × Int × Nat :=
  (((s.dst d p).primary, (s.dst d p).pend, (s.dst d p).lost), s.rd Obj.loomRouteActive d.die p, s.rd Obj.loomRoutePending d.die p,
    s.rdN Obj.loomDstCount d.die p)

/-- A row that shows neither the routes of a destination nor their switches. -/
def ObjDef.offRoutes (o : ObjDef) : Bool :=
  o.apart Obj.loomRouteActive && o.apart Obj.loomRoutePending && o.apart Obj.loomDstCount

section
variable {s : State} {d : MDie} {p : Nat}

theorem State.routes_wr {o : ObjDef} (h : o.offRoutes = true) (e : Die) (i : Nat) (v : Int) :
    (s.wr o e i v).routes d p = s.routes d p := by
  simp only [ObjDef.offRoutes, Bool.and_eq_true] at h
  obtain ⟨⟨hactive, hpending⟩, hcount⟩ := h
  have hdst : (s.wr o e i v).dst d p = s.dst d p := State.dst_of_dies rfl rfl ..
  simp only [State.routes, hdst, State.rd_wr_apart hactive, State.rd_wr_apart hpending, State.rdN_wr_apart hcount]

/-- A change of a media die beside its destinations. -/
theorem State.routes_updMd (e : MDie) {f : MediaDie → MediaDie} (hf : ∀ m, (f m).loom.dst = m.loom.dst := by intro; rfl) :
    (s.updMd e f).routes d p = s.routes d p := by
  have hdst : (s.updMd e f).dst d p = s.dst d p := congrArg (tabGet · p DstSt.start) (State.md_updMd_leaves (·.loom.dst) s e d hf)
  simp only [State.routes, hdst, State.rd_updMd, State.rdN]

/-- A change of a destination beside its routes and its loss. -/
theorem State.routes_updDst {f : DstSt → DstSt}
    (hf : ∀ x, ((f x).primary, (f x).pend, (f x).lost) = (x.primary, x.pend, x.lost) := by intro; rfl) :
    (s.updDst d p f).routes d p = s.routes d p := by
  have hdst : (s.updDst d p f).dst d p = f (s.dst d p) := by rw [State.dst_updDst, if_pos ⟨rfl, rfl⟩]
  simp only [State.routes, hdst, hf, State.rd_updDst, State.rdN]

theorem State.routes_refreshLoom : s.refreshLoom.routes d p = s.routes d p := by
  simp only [State.routes, State.dst_refreshLoom, State.rdN, State.rd_refreshLoom (o := Obj.loomRouteActive) rfl,
    State.rd_refreshLoom (o := Obj.loomRoutePending) rfl, State.rd_refreshLoom (o := Obj.loomDstCount) rfl]

theorem State.routes_refreshTopology : s.refreshTopology.routes d p = s.routes d p := by
  unfold State.refreshTopology
  extract_lets u v
  have links : u.routes d p = s.routes d p :=
    foldl_leaves (·.routes d p) (fun _ _ => (State.routes_wr rfl ..).trans (State.routes_wr rfl ..)) s _
  have counts : v.routes d p = u.routes d p :=
    foldl_leaves (·.routes d p) (fun _ _ => (State.routes_wr rfl ..).trans (State.routes_wr rfl ..)) u _
  exact counts.trans links

theorem State.routes_freeRx (e : MDie) (n : Nat) : (s.freeRx e n).routes d p = s.routes d p := by
  unfold State.freeRx
  split
  · rfl
  · extract_lets s1 s2 s3 s4 s5
    have released : s1.routes d p = s.routes d p := by
      dsimp only [s1]
      split <;> rfl
    have freed : s4.routes d p = s1.routes d p := (State.routes_wr rfl ..).trans (State.routes_wr rfl ..)
    rw [State.routes_refreshTopology, State.routes_wr rfl]
    exact freed.trans released

theorem State.routes_freeIdleRx (e : MDie) : (s.freeIdleRx e).routes d p = s.routes d p :=
  foldl_leaves (·.routes d p) (fun _ n => State.routes_freeRx e n) s _

/-- A chain takes its input picture from a destination and leaves the routes (R174). -/
theorem State.routes_chainInput (e : MDie) (n : Nat) : (s.chainInput e n).routes d p = s.routes d p := by
  unfold State.chainInput
  split
  · rfl
  · extract_lets
    split
    extract_lets _ _ stored running
    have hstored : stored.routes d p = s.routes d p := State.routes_updMd e
    have hrunning : running.routes d p = s.routes d p := by
      dsimp only [running]
      split
      · exact (State.routes_wr rfl ..).trans hstored
      · exact hstored
    split
    · exact hrunning
    · exact (State.routes_wr rfl ..).trans ((State.routes_wr rfl ..).trans ((State.routes_wr rfl ..).trans hrunning))

/-! ### A pending route lands (R153) -/

theorem State.routes_showBlack (black : Bool) : (s.showBlack d p black).routes d p = s.routes d p :=
  (State.routes_wr rfl ..).trans (State.routes_wr rfl ..)

theorem State.routes_followDue : (s.followDue d p).routes d p = s.routes d p := State.routes_updDst

/-- A switch shows the route in force and counts (R154). -/
theorem State.routes_switchTo (r : Nat) : (s.switchTo d p r).routes d p = ((s.routes d p).1, (r : Int), s.rd Obj.loomRoutePending d.die p,
    min (s.rdN Obj.loomDstCount d.die p + 1) Obj.loomDstCount.ty.maxVal) := by
  unfold State.switchTo
  extract_lets s1 s2 s3
  rw [State.routes_refreshLoom, State.routes_showBlack, State.routes_followDue]
  have hdst : s3.dst d p = s.dst d p := State.dst_of_dies rfl rfl ..
  have hactive : s3.rd Obj.loomRouteActive d.die p = r := by
    rw [State.rd_bump_apart rfl, State.rd_wr_apart rfl, State.rd_wr_same]
  have hpending : s3.rd Obj.loomRoutePending d.die p = s.rd Obj.loomRoutePending d.die p := by
    rw [State.rd_bump_apart rfl, State.rd_wr_apart rfl, State.rd_wr_apart rfl]
  have hcount : s3.rdN Obj.loomDstCount d.die p = min (s.rdN Obj.loomDstCount d.die p + 1) Obj.loomDstCount.ty.maxVal := by
    rw [State.rdN_bump_same, State.rdN_wr_apart rfl, State.rdN_wr_apart rfl]
  simp only [State.routes, hdst, hactive, hpending, hcount]

theorem State.routes_landRoute (pr : PendRoute) : (s.landRoute d p pr).routes d p = ((pr.route, none, none), (pr.route : Int), 0xFFFFFFFF,
    min (s.rdN Obj.loomDstCount d.die p + 1) Obj.loomDstCount.ty.maxVal) := by
  unfold State.landRoute
  extract_lets s1 s2 s3
  have hdst : s3.dst d p = { s.dst d p with
      pend := none, primary := pr.route, breakaway := pr.breakaway, lost := none, heldFrames := 0, freeSince := none } :=
    (State.dst_of_dies rfl rfl ..).trans ((State.dst_updDst ..).trans (if_pos ⟨rfl, rfl⟩))
  have hpending : s3.rd Obj.loomRoutePending d.die p = 0xFFFFFFFF := by
    rw [State.rd_clrBit_apart rfl, State.rd_clrBit_apart rfl, State.rd_wr_same]
  have hcount : s3.rdN Obj.loomDstCount d.die p = s.rdN Obj.loomDstCount d.die p := by
    rw [State.rdN, State.rd_clrBit_apart rfl, State.rd_clrBit_apart rfl, State.rd_wr_apart rfl, State.rd_updDst, State.rdN]
  rw [State.routes_freeIdleRx, State.routes_switchTo, hpending, hcount, State.routes, hdst]

/-- At its switch line a destination takes the pending route whose landing instant has come. -/
theorem State.dstSwitch_lands {pr : PendRoute} (hpend : (s.dst d p).pend = some pr) (hland : pr.land ≤ s.now d.pdie)
    (hopen : s.twill.open_ = []) : s.dstSwitch d p = s.landRoute d p pr := by
  simp [State.dstSwitch, hpend, hland, hopen]

theorem execDstSwitchLine_lands {p : Fin 256} {pr : PendRoute} (hon : s.loomOn d = true) (hpend : (s.dst d p).pend = some pr)
    (hland : pr.land ≤ s.now d.pdie) (hopen : s.twill.open_ = []) (hdue : ∀ c ∈ s.twill.due, c.2.2.le (.ofNs s.time.base) = false) :
    ∃ t, execDstSwitchLine d p s = .next t ∧ t.routes d p = ((pr.route, none, none), (pr.route : Int), 0xFFFFFFFF,
      min (s.rdN Obj.loomDstCount d.die p + 1) Obj.loomDstCount.ty.maxVal) := by
  refine ⟨_, when_pos hon .., ?_⟩
  have switched : (s.dstSwitchLine d p).routes d p = (s.landRoute d p pr).routes d p := by
    unfold State.dstSwitchLine
    rw [State.runDue_of_none_due hdue, State.dstSwitch_lands hpend hland hopen]
    exact State.routes_updDst
  rw [← State.routes_landRoute, ← switched]
  dsimp only
  split
  · exact State.routes_chainInput ..
  · rfl

/-! ### The loss of a source (R164) -/

/-- What a package reports of its source is noted with the Twill channels alone (R150). -/
theorem State.noteRemote_leaves {β : Type _} (part : State → β) (htwill : ∀ u f, part (State.updTwill u f) = part u) (r : Nat)
    (cause : Option Nat) : part (s.noteRemote d p r cause) = part s := by
  unfold State.noteRemote
  split
  · rfl
  · refine foldl_leaves part (fun u m => ?_) s _
    split
    · exact htwill ..
    · rfl

theorem State.judgeLoss_lost {c : Nat} (h : s.routeLoss d p (s.dst d p).primary = some c) :
    ((s.judgeLoss d p).dst d p).lost = some ((s.dst d p).lost.getD c) ∧ ((s.judgeLoss d p).dst d p).freeSince = none
      ∧ (c = 4 → (s.judgeLoss d p).bit Obj.loomDstSticky d.die p 2 = true)
      ∧ s.agree (s.judgeLoss d p) [Obj.loomDstSticky.addr d.die p] := by
  unfold State.judgeLoss
  dsimp only
  rw [h]
  dsimp only
  have hdst : (s.updDst d p (fun x => { x with lost := some (x.lost.getD c), freeSince := none })).dst d p
      = { s.dst d p with lost := some ((s.dst d p).lost.getD c), freeSince := none } := by rw [State.dst_updDst, if_pos ⟨rfl, rfl⟩]
  split
  · next h4 =>
    have hset : ∀ u : State, (u.setBit Obj.loomDstSticky d.die p 2).dst d p = u.dst d p := fun u => State.dst_of_dies rfl rfl ..
    rw [hset, hdst]
    exact ⟨rfl, rfl, fun _ => State.bit_setBit_same .., (State.agree.refl s _).updMd.setBit⟩
  · next h4 =>
    rw [hdst]
    exact ⟨rfl, rfl, fun k => absurd k h4, (State.agree.refl s _).updMd⟩

theorem State.judgeLoss_free (h : s.routeLoss d p (s.dst d p).primary = none) : ((s.judgeLoss d p).dst d p).lost = (s.dst d p).lost
    ∧ ((s.judgeLoss d p).dst d p).freeSince = some ((s.dst d p).freeSince.getD (s.now d.pdie)) ∧ (s.judgeLoss d p).objs = s.objs := by
  unfold State.judgeLoss
  dsimp only
  rw [h]
  dsimp only
  rw [State.dst_updDst, if_pos ⟨rfl, rfl⟩]
  exact ⟨rfl, rfl, State.objs_updMd ..⟩

/-! ### The die bridge (R164) -/

/-- The bridge goes down at a die. -/
def State.bridgeLost (s : State) (e : MDie) : State :=
  if s.up e.pdie then
    let s := s.clrBit Obj.loomStatus e.die 0 1
    if s.rdN Obj.loomBridgeTxUsed e.die 0 + s.rdN Obj.loomBridgeRxUsed e.die 0 = 0 then s else s.setBit Obj.loomSticky e.die 0 1
  else s

theorem execDieBridgeDown_eq : execDieBridgeDown s = .next ((s.bridgeLost .a).bridgeLost .b) := rfl

theorem State.onlyObjs_bridgeLost (e : MDie) : s.onlyObjs (s.bridgeLost e) := by
  unfold State.bridgeLost
  split
  · dsimp only
    split <;> rfl
  · rfl

theorem State.onlyObjs.trans {s t u : State} (h : s.onlyObjs t) (k : t.onlyObjs u) : s.onlyObjs u := by
  rw [State.onlyObjs] at *
  rw [k, h]

/-- At one die the bridge's loss writes no row of the other. -/
theorem State.rd_bridgeLost_other {e : MDie} (h : e ≠ d) (o : ObjDef) (i : Nat) : (s.bridgeLost e).rd o d.die i = s.rd o d.die i := by
  have other : ∀ (u : State) (x : ObjDef) (n : Nat) b, (u.putBit x e.die 0 n b).rd o d.die i = u.rd o d.die i :=
    fun u x n b => (State.rd_wr ..).trans (if_neg fun same => MDie.die_ne h (congrArg ObjAddr.die same))
  unfold State.bridgeLost
  split
  · dsimp only
    split
    · exact other ..
    · exact (other ..).trans (other ..)
  · rfl

theorem State.bridgeLost_effect (hup : s.up d.pdie = true) : (s.bridgeLost d).bit Obj.loomStatus d.die 0 1 = false
    ∧ (s.rdN Obj.loomBridgeTxUsed d.die 0 ≠ 0 → (s.bridgeLost d).bit Obj.loomSticky d.die 0 1 = true) := by
  unfold State.bridgeLost
  rw [if_pos hup]
  extract_lets u
  have used : u.rdN Obj.loomBridgeTxUsed d.die 0 = s.rdN Obj.loomBridgeTxUsed d.die 0 := State.rdN_wr_apart rfl ..
  have down : u.bit Obj.loomStatus d.die 0 1 = false := State.bit_clrBit_same ..
  rw [used]
  split
  · next none => exact ⟨down, fun h => absurd none (by omega)⟩
  · exact ⟨(State.bit_putBit_apart rfl ..).trans down, fun _ => State.bit_setBit_same ..⟩

theorem State.bridgeLost_both (hup : s.up d.pdie = true) : ((s.bridgeLost .a).bridgeLost .b).bit Obj.loomStatus d.die 0 1 = false
    ∧ (s.rdN Obj.loomBridgeTxUsed d.die 0 ≠ 0 → ((s.bridgeLost .a).bridgeLost .b).bit Obj.loomSticky d.die 0 1 = true) := by
  cases d with
  | a =>
    have left : ∀ o : ObjDef, ((s.bridgeLost .a).bridgeLost .b).bit o MDie.a.die 0 1 = (s.bridgeLost .a).bit o MDie.a.die 0 1 :=
      fun o => State.bit_of_rd (State.rd_bridgeLost_other (by decide) ..) 1
    rw [left, left]
    exact State.bridgeLost_effect hup
  | b =>
    have used : (s.bridgeLost .a).rdN Obj.loomBridgeTxUsed MDie.b.die 0 = s.rdN Obj.loomBridgeTxUsed MDie.b.die 0 :=
      congrArg Int.toNat (State.rd_bridgeLost_other (by decide) ..)
    have running : (s.bridgeLost .a).up MDie.b.pdie = s.up MDie.b.pdie := by
      rw [State.onlyObjs_bridgeLost (s := s) .a]
      rfl
    rw [← used]
    exact State.bridgeLost_effect (running.trans hup)

theorem execDieBridgeRestored_effect (ha : s.up .a = true) (hb : s.up .b = true) : ∃ t, execDieBridgeRestored s = .next t ∧ s.onlyObjs t
    ∧ (∀ d : MDie, t.bit Obj.loomStatus d.die 0 1 = true) ∧ s.agree t [Obj.loomStatus.addr .a 0, Obj.loomStatus.addr .b 0] := by
  refine ⟨_, when_pos (by simp [ha, hb]) .., rfl, fun d => ?_, ((State.agree.refl s _).setBit (d := .a)).setBit (d := .b)⟩
  cases d with
  | a => exact (State.bit_of_rd (State.rd_wr_die (by decide) ..) 1).trans (State.bit_setBit_same ..)
  | b => exact State.bit_setBit_same ..

end

/-- Settles O13: a landing route by what every later step of its switch line leaves of the destination's routes, a loss by the judgement
of the primary route, the bridge die by die. -/
theorem destinationsSwitchAndLoseTheirSource : Obligations.DestinationsSwitchAndLoseTheirSource := by
  refine ⟨fun s d p pr hon hpend hland hopen hdue => ?_, fun s d p m u hon hu => ⟨fun c hc => ?_, fun hc => ?_⟩,
    fun s => ⟨_, execDieBridgeDown_eq, (State.onlyObjs_bridgeLost .a).trans (State.onlyObjs_bridgeLost .b),
      fun d hup => State.bridgeLost_both hup⟩,
    fun s ha hb => execDieBridgeRestored_effect ha hb⟩
  · obtain ⟨t, ht, hroutes⟩ := execDstSwitchLine_lands hon hpend hland hopen hdue
    simp only [State.routes, Prod.mk.injEq] at hroutes
    obtain ⟨⟨hprimary, hnone, hlost⟩, hactive, hpending, hcount⟩ := hroutes
    exact ⟨t, ht, hprimary, hnone, hlost, hactive, hpending, hcount⟩
  all_goals
    have hdst : u.dst d p = s.dst d p := hu ▸ State.noteRemote_leaves (·.dst d p) (fun _ _ => State.dst_of_dies rfl rfl ..) ..
    have hobjs : u.objs = s.objs := hu ▸ State.noteRemote_leaves (·.objs) (fun _ _ => rfl) ..
    have hnow : u.now d.pdie = s.now d.pdie := hu ▸ State.noteRemote_leaves (·.now d.pdie) (fun _ _ => by cases d <;> rfl) ..
    have run : exec (.sourceLossDetect d ⟨p, m⟩) s = .next (u.judgeLoss d p) := hu ▸ when_pos hon ..
    rw [← hdst] at hc ⊢
  · obtain ⟨hlost, hfree, hsticky, hagree⟩ := State.judgeLoss_lost hc
    exact ⟨_, run, hlost, hfree, hsticky, fun a ha => (hagree a ha).trans (by rw [hobjs])⟩
  · obtain ⟨hlost, hfree, hsame⟩ := State.judgeLoss_free hc
    exact ⟨_, run, hlost, hnow ▸ hfree, hsame.trans hobjs⟩

end Sys2Proof.Machine
end

section
namespace Sys2Proof.Machine

/-! ### The ring of a synchronizer and its fill (R159, R162, R398) -/

section
variable {s : State} {d : MDie} {n : Nat}

theorem State.fsy_updFsy_same (f : FsySt → FsySt) : (s.updFsy d n f).fsy d n = f (s.fsy d n) := by
  rw [State.fsy, State.updFsy, State.md_updMd, tabGet_tabSet, if_pos rfl]

/-- A state with the synchronizers of a die as they were has its rings. -/
theorem State.fsy_of_loom {t : State} (h : (t.md d).loom.fsy = (s.md d).loom.fsy) (k : Nat) : t.fsy d k = s.fsy d k := by
  rw [State.fsy, h, State.fsy]

theorem State.fsy_setFill (k : Nat) : (s.setFill d n).fsy d k = s.fsy d k :=
  State.watermark_leaves (·.fsy d k) d .fsy n (fun _ _ => State.fsy_of_loom (State.md_updMd_leaves (·.loom.fsy) ..) k)
    (fun _ _ _ _ => rfl) ..

theorem State.fill_setFill : (s.setFill d n).rd Obj.fsyFill d.die n = ((s.fsy d n).unread.length : Nat) := by
  rw [State.setFill, State.rd_watermark (by decide), State.rd_wr_same]

/-- The watermark of a synchronizer shows in bit 2 of its status alone (R398). -/
theorem State.fsyStatus_setFill {k : Nat} (hk : k ≠ 2) : (s.setFill d n).bit Obj.fsyStatus d.die n k = s.bit Obj.fsyStatus d.die n k := by
  have armed : ∀ (u : State) b, (u.setArmed d .fsy n b).bit Obj.fsyStatus d.die n k = u.bit Obj.fsyStatus d.die n k := fun u b =>
    ((State.bit_putBit ..).trans (if_neg hk.symm)).trans (State.bit_of_rd (State.rd_updMd ..) k)
  have filled : (s.wr Obj.fsyFill d.die n ((s.fsy d n).unread.length : Nat)).bit Obj.fsyStatus d.die n k = s.bit Obj.fsyStatus d.die n k :=
    State.bit_wr_apart rfl ..
  unfold State.setFill State.watermark
  extract_lets
  split
  · exact (armed ..).trans (((State.bit_wr_apart rfl ..).trans (State.bit_wr_apart rfl ..)).trans filled)
  · split
    · exact (armed ..).trans filled
    · exact filled

/-! ### The writer (R159, R160) -/

theorem State.fsyComplete_none (h : (s.fsy d n).writing = none) : s.fsyComplete d n = s := by
  rw [State.fsyComplete, h]

/-- A completed frame is the newest unread one (R159). -/
theorem State.fsyComplete_effect {pic : Picture} (h : (s.fsy d n).writing = some pic) : ((s.fsyComplete d n).fsy d n).writing = none
    ∧ (s.fsyComplete d n).bit Obj.fsyStatus d.die n 1 = true
    ∧ ((s.fsyComplete d n).fsy d n).unread.map (·.ts) = (s.fsy d n).unread.map (·.ts) ++ [pic.ts] := by
  unfold State.fsyComplete
  extract_lets
  split
  · next hnone => exact absurd (hnone.symm.trans h) (by simp)
  · next frame hframe =>
    obtain rfl : frame = pic := Option.some.inj (hframe.symm.trans h)
    split
    split
    extract_lets _ full u v
    have ring : u.fsy d n = s.fsy d n := by
      dsimp only [u]
      split <;> rfl
    have ended : v.fsy d n
        = { u.fsy d n with writing := none, unread := (u.fsy d n).unread ++ [{ frame with pix := full, done := u.now d.pdie }] } :=
      State.fsy_updFsy_same ..
    have written : (v.setBit Obj.fsyStatus d.die n 1).fsy d n = v.fsy d n := rfl
    rw [State.fsy_setFill, State.fsyStatus_setFill (by decide), written, ended, ring]
    exact ⟨rfl, State.bit_setBit_same .., by simp⟩

/-- A frame starts in a ring with room while none is being written (R159, R160). -/
theorem State.fsyStartFrame_effect {ts : Nat} (h : (s.fsy d n).writing = none)
    (room : (s.fsy d n).unread.length + 2 ≠ s.rdN Obj.fsySlots d.die n) :
    ((s.fsyStartFrame d n ts).fsy d n).writing.map (·.ts) = some ts
      ∧ ((s.fsyStartFrame d n ts).fsy d n).writing.map (·.pix) = some []
      ∧ ((s.fsyStartFrame d n ts).fsy d n).unread = (s.fsy d n).unread
      ∧ ((s.fsyStartFrame d n ts).fsy d n).rateCount = (s.fsy d n).rateCount + 1 := by
  unfold State.fsyStartFrame
  rw [State.fsyComplete_none h]
  dsimp only
  rw [if_neg room, State.fsy_updFsy_same]
  exact ⟨rfl, rfl, rfl, rfl⟩

/-! ### The reader (R160) -/

/-- A read without discards shows the oldest ready frame and takes it out of the ring. -/
theorem State.fsyShow_effect {pic : Picture} {rest : List Picture} (h : (s.fsy d n).unread = pic :: rest)
    (ready : pic.done < s.now d.pdie) : ((s.fsyShow d n 0).fsy d n).shown.now = some pic ∧ ((s.fsyShow d n 0).fsy d n).unread = rest
      ∧ (s.fsyShow d n 0).rd Obj.fsyFill d.die n = (rest.length : Nat) := by
  have oldest : s.fsyReady d n = pic :: rest.takeWhile (fun p => decide (p.done < s.now d.pdie)) := by
    simp [State.fsyReady, h, ready]
  have shown : ∀ (t : Turn (Option Picture)) fr x, (t.put fr x).now = x := by
    intro t fr x
    unfold Turn.put
    split <;> rfl
  have eq : s.fsyShow d n 0 = (s.updFsy d n (fun x =>
      { x with unread := x.unread.drop 1, shown := x.shown.put (s.fsyCoord d n).frame (some pic) })).setFill d n := by
    rw [State.fsyShow, List.range_zero, List.foldl_nil]
    rw [oldest]
  rw [eq, State.fsy_setFill, State.fill_setFill, State.fsy_updFsy_same, h]
  exact ⟨shown .., rfl, rfl⟩

theorem State.fsyRead_alone (h : s.fsyBond d n = [n]) (drops : Nat) : s.fsyRead d n drops = s.fsyShow d n drops := by
  rw [State.fsyRead, h, List.foldl_cons, List.foldl_nil]

theorem State.fsyDrops_zero (h : s.rdN Obj.fsyPolicy d.die n ≠ 1) : s.fsyDrops d n = 0 := if_neg h

theorem execFsyReadDecision_eq {n : Fin 32} (hup : s.up d.pdie = true) (hm : s.mode ≠ .selvedge) (hr : s.fsyRuns d n = true)
    (h0 : (s.fsyMember d n).2 = 0) : execFsyReadDecision d n s = .next (s.fsyRead d n (s.fsyDrops d n)) := by
  refine (when_pos (by simp [hup, hr, h0]) ..).trans ?_
  rw [if_pos (by simp [State.inSelvedge_eq_false hm])]

/-! ### The rate (R162) -/

/-- A measured rate that fits is shown, and the next measurement starts. -/
theorem execFsyRateMeasurement_effect {n : Fin 32} {f : Format} {rate : Int} (hup : s.up d.pdie = true) (hr : s.fsyRuns d n = true)
    (h64 : 64 < (s.fsy d n).rateCount) (hlate : (s.fsy d n).rateStart < s.now d.pdie) (hf : fmt (s.rdN Obj.fsyFormat d.die n) = f)
    (hrate : divFlr ((64 * f.den * nsPerSec * 1000000000 : Nat) : Int)
      (f.num * (s.now d.pdie - (s.fsy d n).rateStart : Nat)) - 1000000000 = rate) (hfit : satS rate 32 = rate) :
    ∃ t, execFsyRateMeasurement d n s = .next t ∧ t.rd Obj.fsyRate d.die n = rate ∧ (t.fsy d n).rateCount = 1
      ∧ (t.fsy d n).rateStart = s.now d.pdie := by
  refine ⟨_, when_pos (by simp [hup, hr, h64, hlate]) .., ?_⟩
  extract_lets g nominal shows old
  have hnominal : nominal = ((64 * f.den * nsPerSec * 1000000000 : Nat) : Int) := by
    subst hf
    simp only [nominal, g, Nat.cast_mul, Nat.cast_ofNat]
  have hshows : shows = rate := by
    rw [← hrate, ← hnominal, ← hf]
  rw [hshows, if_pos hfit]
  split
  next v w hpair =>
  obtain ⟨rfl, rfl⟩ := Prod.mk.inj hpair
  extract_lets u
  have shown : u.rd Obj.fsyRate d.die n = rate := (State.rd_updMd ..).trans (State.rd_wr_same ..)
  have ring : u.fsy d n = { s.fsy d n with rateCount := 1, rateStart := s.now d.pdie } := State.fsy_updFsy_same ..
  split
  · rw [State.rd_raise rfl, State.fsy_of_loom (State.md_raise_leaves (·.loom.fsy) (fun _ _ => rfl) (fun _ _ => rfl) ..), ring]
    exact ⟨shown, rfl, rfl⟩
  · rw [ring]
    exact ⟨shown, rfl, rfl⟩

end

/-- Settles O14: the writer's, the reader's and the measurement's step each by what it leaves in the ring of its synchronizer. -/
theorem frameSynchronizersWriteAndReadWholeFrames : Obligations.FrameSynchronizersWriteAndReadWholeFrames := by
  refine ⟨fun s d n ts hup hr hw room => ⟨_, when_pos (by simp [hup, hr]) .., State.fsyStartFrame_effect hw room⟩,
    fun s d n pic hup hr hw => ⟨_, when_pos (by simp [hup, hr]) .., State.fsyComplete_effect hw⟩,
    fun s d n pic rest hup hm hr h0 hbond hpolicy hunread hdone => ⟨_, execFsyReadDecision_eq hup hm hr h0, ?_⟩,
    fun s d n f rate hup hr h64 hlate hf hrate hfit => execFsyRateMeasurement_effect hup hr h64 hlate hf hrate hfit⟩
  rw [State.fsyDrops_zero hpolicy, State.fsyRead_alone hbond]
  exact State.fsyShow_effect hunread hdone

end Sys2Proof.Machine
end

section
namespace Sys2Proof.Machine

/-! ### What the work of a media die leaves of its audio -/

/-- A part of every media die's audio is the same in two states. -/
def State.SameAudio {β : Type} (part : AudioSt → β) (s t : State) : Prop := ∀ d, part (t.md d).audio = part (s.md d).audio

section
variable {β : Type} {part : AudioSt → β} {s t : State}

theorem State.SameAudio.refl (s : State) : s.SameAudio part s := fun _ => rfl

theorem State.SameAudio.wr {o d i v} (h : s.SameAudio part t) : s.SameAudio part (t.wr o d i v) := h

theorem State.SameAudio.send {x} (h : s.SameAudio part t) : s.SameAudio part (t.send x) := h

theorem State.SameAudio.updMd {d f} (h : s.SameAudio part t) (hf : ∀ m : MediaDie, (f m).audio = m.audio := by intro; rfl) :
    s.SameAudio part (t.updMd d f) := fun e =>
  (State.md_updMd_leaves (fun m => part m.audio) t d e fun m => congrArg part (hf m)).trans (h e)

theorem State.SameAudio.updAud {d f} (h : s.SameAudio part t) (hf : ∀ a, part (f a) = part a) : s.SameAudio part (t.updAud d f) :=
  fun e => (State.md_updMd_leaves (fun m => part m.audio) t d e fun m => hf m.audio).trans (h e)

theorem State.SameAudio.raise {d code inst payload} (h : s.SameAudio part t) : s.SameAudio part (t.raise d code inst payload) := fun e =>
  (State.md_raise_leaves (fun m => part m.audio) (fun _ _ => rfl) (fun _ _ => rfl) ..).trans (h e)

theorem State.SameAudio.ite {p : Prop} {i : Decidable p} {u : State} (h : s.SameAudio part t) (k : s.SameAudio part u) :
    s.SameAudio part (if p then t else u) := by
  split <;> assumption

theorem State.SameAudio.foldl {α : Type _} {f : State → α → State} {l : List α}
    (hf : ∀ t x, s.SameAudio part t → s.SameAudio part (f t x)) (h : s.SameAudio part t) : s.SameAudio part (l.foldl f t) := by
  induction l generalizing t with
  | nil => exact h
  | cons x l ih => exact ih (hf t x h)

theorem State.SameAudio.watermark {d k i n} (h : s.SameAudio part t) : s.SameAudio part (t.watermark d k i n) := fun e =>
  (State.watermark_leaves (fun u => part (u.md e).audio) d k i (fun _ _ => State.md_updMd_leaves (fun m => part m.audio) ..)
    (fun _ _ _ _ => rfl) t n).trans (h e)

/-! ### Packets of an egress flow leave the audio (R135) -/

theorem State.SameAudio.setDepth {d q n} (h : s.SameAudio part t) : s.SameAudio part (t.setDepth d q n) := by
  unfold State.setDepth
  exact h.wr.wr.wr.watermark

theorem State.SameAudio.refusePkt {d q flow egress} (h : s.SameAudio part t) : s.SameAudio part (t.refusePkt d q flow egress) := by
  unfold State.refusePkt
  extract_lets told u v
  have counted : s.SameAudio part v := .ite h.wr.wr.wr h.wr.wr
  exact .ite counted counted.raise

theorem State.SameAudio.enqueue {d q p egress} (h : s.SameAudio part t) : s.SameAudio part (t.enqueue d q p egress) := by
  unfold State.enqueue
  exact .ite (State.SameAudio.updMd h).setDepth h.refusePkt

theorem State.SameAudio.pushPackets {d l} (h : s.SameAudio part t) : s.SameAudio part (t.pushPackets d l) :=
  .foldl (fun _ _ h => h.enqueue) h

theorem State.SameAudio.emit {d f pt p pace} (h : s.SameAudio part t) : s.SameAudio part (t.emit d f pt p pace) := by
  have numbered : s.SameAudio part (t.buildPackets d f pt p pace).1 := h.updMd
  unfold State.emit
  refine .ite h ?_
  split
  next u l e =>
  have made : s.SameAudio part u := by rwa [e] at numbered
  refine .ite made.pushPackets ?_
  extract_lets own
  split
  · exact made
  · exact .pushPackets (.ite (.foldl (fun _ _ h => h.send) made) made)
  · exact made.pushPackets
  · exact .foldl (fun _ _ h => h.updMd) made

/-! ### Indices of the banks through a tick of one (R328, R337, R343, R347) -/

theorem State.SameAudio.audFill {d p} (h : s.SameAudio part t) : s.SameAudio part (t.audFill d p) := by
  unfold State.audFill
  exact h.wr.watermark

theorem State.SameAudio.audSlip {d p kind} (h : s.SameAudio part t) : s.SameAudio part (t.audSlip d p kind) := by
  unfold State.audSlip
  exact .ite h.wr.wr.wr h.wr.wr.wr.raise

theorem State.SameAudio.slipNow {d p kind n need} (h : s.SameAudio part t) : s.SameAudio part (t.slipNow d p kind n need).2 := by
  have told : ∀ x, s.SameAudio part (t.tellDecision d x) := fun x => .ite h.send h
  have missed : s.SameAudio part (t.decisionMissed d 2 p) := .ite h.wr.wr h.wr.wr.raise
  unfold State.slipNow
  split
  · exact .ite (told _) h
  · split
    · exact h.updMd
    · exact .ite missed h

theorem State.SameAudio.audPoisonRead {d p} (h : s.SameAudio part t) : s.SameAudio part (t.audPoisonRead d p) := by
  unfold State.audPoisonRead
  exact .ite h.wr h.wr.raise

theorem State.SameAudio.showAudOut {d o n} (h : s.SameAudio part t) : s.SameAudio part (t.showAudOut d o n) := by
  unfold State.showAudOut
  exact h.wr.wr

theorem State.SameAudio.putAudIn {d n x} (h : s.SameAudio AudioSt.last t) : s.SameAudio AudioSt.last (t.putAudIn d n x) :=
  h.updAud fun _ => rfl

theorem State.SameAudio.updAudPort {d p f} (h : s.SameAudio AudioSt.last t) : s.SameAudio AudioSt.last (t.updAudPort d p f) :=
  h.updAud fun _ => rfl

theorem State.SameAudio.updAudFlow {d k f} (h : s.SameAudio AudioSt.last t) : s.SameAudio AudioSt.last (t.updAudFlow d k f) :=
  h.updAud fun _ => rfl

theorem State.SameAudio.updAudOut {d o f} (h : s.SameAudio AudioSt.last t) : s.SameAudio AudioSt.last (t.updAudOut d o f) :=
  h.updAud fun _ => rfl

theorem State.SameAudio.audTakeIn {d p n first} (h : s.SameAudio AudioSt.last t) :
    s.SameAudio AudioSt.last (t.audTakeIn d p n first) := by
  have decided := h.slipNow (d := d) (p := p) (kind := 2) (n := n) (need := (t.audPort d p).inFifo.isEmpty)
  unfold State.audTakeIn
  split
  next slip u e =>
  have hu : s.SameAudio AudioSt.last u := by rwa [e] at decided
  extract_lets v
  have hv : s.SameAudio AudioSt.last v := .ite hu.audSlip hu.updAudPort
  split
  · exact hv
  · extract_lets w
    have hw : s.SameAudio AudioSt.last w := .foldl (fun _ _ h => h.putAudIn) hv
    exact .audFill (.ite hw.audPoisonRead hw)

theorem State.SameAudio.audTickIn {d n p} (h : s.SameAudio AudioSt.last t) : s.SameAudio AudioSt.last (t.audTickIn d n p) := by
  unfold State.audTickIn
  split
  · exact h
  · exact .ite h.updAudPort.audTakeIn (.foldl (fun _ _ h => h.putAudIn) h)

theorem State.SameAudio.audTickFlow {d n f} (h : s.SameAudio AudioSt.last t) : s.SameAudio AudioSt.last (t.audTickFlow d n f) := by
  unfold State.audTickFlow
  extract_lets
  split
  · extract_lets v
    have hv : s.SameAudio AudioSt.last v := .foldl (fun _ _ h => h.putAudIn) h.updAudFlow
    exact .ite hv.wr hv
  · exact .wr (.wr (.wr (.updAudFlow (.foldl (fun _ _ h => h.putAudIn) h))))

theorem State.SameAudio.audTickTwill {d n} (h : s.SameAudio AudioSt.last t) : s.SameAudio AudioSt.last (t.audTickTwill d n) :=
  .foldl (fun _ _ h => .foldl (fun _ _ h => h.putAudIn) h) h

theorem State.SameAudio.audTickOut {d hz n o} (h : s.SameAudio AudioSt.last t) : s.SameAudio AudioSt.last (t.audTickOut d hz n o) := by
  unfold State.audTickOut
  exact h.updAudOut.showAudOut

theorem State.SameAudio.audTickPort {d n p} (h : s.SameAudio AudioSt.last t) : s.SameAudio AudioSt.last (t.audTickPort d n p) := by
  unfold State.audTickPort
  extract_lets
  split
  · exact h
  · exact .ite h (.audFill (.updAudPort (.ite h.slipNow.updAudPort.audSlip h.slipNow)))

end

/-! ### One index of a bank (R328, R347) -/

section
variable {s : State} {d : MDie} {b hz n o : Nat} {x : AudOutSt}

/-- A tick notes its index with its bank and leaves those of the others. -/
theorem State.last_routerTick : ((s.routerTick d b hz n).md d).audio.last = tabSet (s.md d).audio.last b n := by
  unfold State.routerTick
  extract_lets ins flows twill outs ports
  have worked : s.SameAudio AudioSt.last ports := .foldl (fun _ _ h => h.audTickPort) (.foldl (fun _ _ h => h.audTickOut)
    (.audTickTwill (.foldl (fun _ _ h => h.audTickFlow) (.foldl (fun _ _ h => h.audTickIn) (.refl s)))))
  rw [State.updAud, State.md_updMd, worked d]

theorem State.audOut_updAudOut (f : AudOutSt → AudOutSt) (k : Nat) :
    (s.updAudOut d o f).audOut d k = if o = k then f (s.audOut d o) else s.audOut d k := by
  rw [State.audOut, State.updAudOut, State.updAud, State.md_updMd, tabGet_tabSet]
  rfl

theorem State.rd_showAudOut {r : ObjDef} (ha : Obj.audOutActive.apart r = true) (hs : Obj.audOutStatus.apart r = true) (e : Die) (i : Nat) :
    (s.showAudOut d o n).rd r e i = s.rd r e i := (State.rd_wr_apart hs ..).trans (State.rd_wr_apart ha ..)

theorem State.rd_audTickOut {r : ObjDef} (ha : Obj.audOutActive.apart r = true) (hs : Obj.audOutStatus.apart r = true) (e : Die) (i : Nat) :
    (s.audTickOut d hz n o).rd r e i = s.rd r e i := (State.rd_showAudOut ha hs ..).trans (State.rd_updMd ..)

theorem State.bankPorts_audTickOut : (s.audTickOut d hz n o).bankPorts d b = s.bankPorts d b := by
  have reads : ∀ {r : ObjDef}, Obj.audOutActive.apart r = true → Obj.audOutStatus.apart r = true → ∀ i,
      (s.audTickOut d hz n o).rdN r d.die i = s.rdN r d.die i := fun ha hs _ => congrArg Int.toNat (State.rd_audTickOut ha hs ..)
  simp only [State.bankPorts, State.audPortUsed, State.audBank, State.audInFirst, State.audOutFirst,
    State.rd_audTickOut (r := Obj.audPortEnable) rfl rfl, reads (r := Obj.audPortInFirst) rfl rfl,
    reads (r := Obj.audPortOutFirst) rfl rfl]

/-- A channel without committed values computes its sample of the index (R347, R348). -/
theorem State.hist_audTickOut (hx : s.audOut d o = x) (hpend : x.pend = none) : ((s.audTickOut d hz n o).audOut d o).hist.head?
    = some (n, s.audOutSample d { x with layers := trimLayers n x.layers } n) := by
  have out : ((s.audTickOut d hz n o).audOut d o).hist
      = ((n, s.audOutSample d { x with layers := trimLayers n x.layers } n) :: x.hist).take audOutHistory := by
    unfold State.audTickOut
    rw [hx]
    dsimp only
    rw [hpend]
    exact congrArg AudOutSt.hist ((State.audOut_updAudOut ..).trans (if_pos rfl))
  rw [out]
  rfl

/-- A bank with one output channel and no port, flow or Twill channel computes that channel alone. -/
theorem State.routerTick_alone (houts : (s.md d).audio.outs = [(o, x)]) (ho : o / 256 = b) (hports : s.bankPorts d b = [])
    (hflows : s.bankFlows d b = []) (hrx : s.twill.rx = []) :
    s.routerTick d b hz n = (s.audTickOut d hz n o).updAud d (fun a => { a with last := tabSet a.last b n }) := by
  have twill : s.audTickTwill d n = s := by simp [State.audTickTwill, hrx]
  unfold State.routerTick
  simp only [hports, hflows, List.foldl_nil, twill, houts, List.map_cons, List.map_nil, ho, beq_self_eq_true, List.filter_cons_of_pos,
    List.filter_nil, List.foldl_cons, State.bankPorts_audTickOut]

theorem State.routerTick_sample (houts : (s.md d).audio.outs = [(o, x)]) (ho : o / 256 = b) (hpend : x.pend = none)
    (hports : s.bankPorts d b = []) (hflows : s.bankFlows d b = []) (hrx : s.twill.rx = []) :
    ((s.routerTick d b hz n).audOut d o).hist.head? = some (n, s.audOutSample d { x with layers := trimLayers n x.layers } n) := by
  have hx : s.audOut d o = x := by simp [State.audOut, houts, tabGet]
  have kept : ∀ u : State, (u.updAud d (fun a => { a with last := tabSet a.last b n })).audOut d o = u.audOut d o := fun u => by
    rw [State.audOut, State.updAud, State.md_updMd, State.audOut]
  rw [State.routerTick_alone houts ho hports hflows hrx, kept]
  exact State.hist_audTickOut hx hpend

end

/-! ### Islands (R340) -/

section
variable {s : State} {d : MDie} {i : Nat}

/-- A clock island and the correction it shows. -/
def State.island (s : State) (d : MDie) (i : Nat) : AudIslSt × Int := (s.audIsl d i, s.rd Obj.audIslCorr d.die i)

theorem State.island_putBit {o : ObjDef} (h : o.apart Obj.audIslCorr = true) (e : Die) (j n : Nat) (b : Bool) :
    (s.putBit o e j n b).island d i = s.island d i := by
  rw [State.island, State.rd_putBit_apart h]
  rfl

theorem State.island_raise (e : PDie) (c j p : Nat) : (s.raise e c j p).island d i = s.island d i := by
  have audio : ((s.raise e c j p).md d).audio = (s.md d).audio :=
    State.md_raise_leaves (·.audio) (fun _ _ => rfl) (fun _ _ => rfl) ..
  rw [State.island, State.rd_raise rfl, State.audIsl, audio, State.island, State.audIsl]

/-- An update moves the clamped integrator, takes the whole sum and shows the clamped correction. -/
theorem State.islandStep_effect {sum : Nat} {e integ : Int}
    (he : e = (sum : Int) - 64 * ((s.leadPort d i).map (fun p => s.rdN Obj.audPortFifoTarget d.die p)).getD 0)
    (hinteg : integ = clip3 (-549755648) 549755648 ((s.audIsl d i).integ + s.rd Obj.audIslKi d.die i * e)) :
    ((s.islandStep d i sum).audIsl d i).integ = integ ∧ ((s.islandStep d i sum).audIsl d i).whole = none
      ∧ (s.islandStep d i sum).rd Obj.audIslCorr d.die i
        = clip3 (-2147483) 2147483 (s.rd Obj.audIslKp d.die i * e + shrRne integ 8) := by
  unfold State.islandStep
  extract_lets x target e' integ' c good pulled u v
  have made : u.island d i = ({ x with integ := integ', whole := none, good := good, pulled := pulled }, c) := by
    have isl : u.audIsl d i = { x with integ := integ', whole := none, good := good, pulled := pulled } := by
      change (s.updAudIsl d i _).audIsl d i = _
      rw [State.audIsl, State.updAudIsl, State.updAud, State.md_updMd, tabGet_tabSet, if_pos rfl]
    rw [State.island, isl, State.rd_wr_same]
  have judged : v.island d i = u.island d i := by
    dsimp only [v]
    split
    · exact State.island_putBit rfl ..
    · rfl
  have shown : ∀ t : State, t.island d i = v.island d i → (t.audIsl d i).integ = integ ∧ (t.audIsl d i).whole = none
      ∧ t.rd Obj.audIslCorr d.die i = clip3 (-2147483) 2147483 (s.rd Obj.audIslKp d.die i * e + shrRne integ 8) := by
    intro t ht
    obtain ⟨hisl, hcorr⟩ := Prod.mk.inj ((ht.trans judged).trans made)
    subst he hinteg
    rw [hisl, hcorr]
    exact ⟨rfl, rfl, rfl⟩
  split
  · refine shown _ ((State.island_raise ..).trans ?_)
    exact (State.island_putBit rfl ..).trans ((State.island_putBit rfl ..).trans (State.island_putBit rfl ..))
  · split
    · exact shown _ ((State.island_raise ..).trans (State.island_putBit rfl ..))
    · exact shown _ rfl

theorem execIslandUpdate_effect {i : Fin 8} {sum : Nat} {e integ : Int} (hwhole : (s.audIsl d i).whole = some sum)
    (hup : s.up d.pdie = true) (hrun : s.bit Obj.audIslStatus d.die i 0 = true)
    (he : e = (sum : Int) - 64 * ((s.leadPort d i).map (fun p => s.rdN Obj.audPortFifoTarget d.die p)).getD 0)
    (hinteg : integ = clip3 (-549755648) 549755648 ((s.audIsl d i).integ + s.rd Obj.audIslKi d.die i * e)) :
    ∃ t, execIslandUpdate d i s = .next t ∧ (t.audIsl d i).integ = integ ∧ (t.audIsl d i).whole = none
      ∧ t.rd Obj.audIslCorr d.die i = clip3 (-2147483) 2147483 (s.rd Obj.audIslKp d.die i * e + shrRne integ 8) := by
  refine ⟨s.islandStep d i sum, ?_, State.islandStep_effect he hinteg⟩
  rw [execIslandUpdate, hwhole]
  exact when_pos (by simp [hup, hrun]) ..

end

/-! ### Audio that follows (R167, R168, R349) -/

section
variable {s : State} {d : MDie} {p : Nat}

theorem State.rd_followChannel {r : ObjDef} (ha : Obj.audOutActive.apart r = true) (hs : Obj.audOutStatus.apart r = true) (o src : Nat)
    (t : Instant) (e : Die) (i : Nat) : (s.followChannel d o src t).rd r e i = s.rd r e i :=
  (State.rd_showAudOut ha hs ..).trans (State.rd_updMd ..)

/-- What a channel follows stands in rows of LOOM and in the Twill channels. -/
theorem State.followSource_of_reads {t : State} (hreads : ∀ r ∈ [Obj.loomRouteActive, Obj.loomDstStatus, Obj.loomSrcAudioFirst,
    Obj.loomSrcAudioCount], ∀ e i, t.rd r e i = s.rd r e i) (htwill : t.twill = s.twill) (i : Nat) :
    t.followSource d p i = s.followSource d p i := by
  have reads : ∀ r ∈ [Obj.loomRouteActive, Obj.loomDstStatus, Obj.loomSrcAudioFirst, Obj.loomSrcAudioCount], ∀ e i,
      t.rdN r e i = s.rdN r e i := fun r hr e i => congrArg Int.toNat (hreads r hr e i)
  have black : t.bit Obj.loomDstStatus d.die p 3 = s.bit Obj.loomDstStatus d.die p 3 := State.bit_of_rd (hreads _ (by simp) ..) 3
  have route : t.activeRoute d p = s.activeRoute d p := reads _ (by simp) ..
  have audio : ∀ e q, t.srcAudio e q = s.srcAudio e q := fun e q => Prod.ext (reads _ (by simp) ..) (reads _ (by simp) ..)
  have remote : ∀ v e q, t.rxFor d v e q = s.rxFor d v e q := fun v e q => by rw [State.rxFor, htwill, State.rxFor]
  unfold State.followSource
  simp only [black, route, audio, remote]

theorem State.followSource_followChannel (o src : Nat) (t : Instant) (i : Nat) :
    (s.followChannel d o src t).followSource d p i = s.followSource d p i := by
  have offOut : ∀ r ∈ [Obj.loomRouteActive, Obj.loomDstStatus, Obj.loomSrcAudioFirst, Obj.loomSrcAudioCount],
      Obj.audOutActive.apart r = true ∧ Obj.audOutStatus.apart r = true := by decide
  exact State.followSource_of_reads (fun r hr _ _ => State.rd_followChannel (offOut r hr).1 (offOut r hr).2 ..) (State.twill_updMd ..) i

theorem State.dst_followChannel (o src : Nat) (t : Instant) : (s.followChannel d o src t).dst d p = s.dst d p :=
  congrArg (tabGet · p DstSt.start) (State.md_updMd_leaves (·.loom.dst) s d d)

theorem State.audOut_followChannel (o src : Nat) (t : Instant) :
    ((s.followChannel d o src t).audOut d o).source = src
      ∧ ∀ k, k ≠ o → (s.followChannel d o src t).audOut d k = s.audOut d k := by
  unfold State.followChannel
  extract_lets n e u
  have out : ∀ k, (u.showAudOut d o n).audOut d k = u.audOut d k := fun _ => rfl
  refine ⟨?_, fun k hk => (out k).trans ((State.audOut_updAudOut ..).trans (if_neg (Ne.symm hk)))⟩
  rw [out, State.audOut_updAudOut, if_pos rfl]
  split
  · next same => exact same
  · simp [AudOutSt.source]

/-- A followed channel of a destination goes over to its source at an instant (R168). -/
def State.followNth (s : State) (d : MDie) (p f : Nat) (t : Instant) (i : Nat) : State :=
  if f + i < 2048 then s.followChannel d (f + i) (s.followSource d p i) t else s

/-- Going over from one channel to the next, every channel takes the source it follows. -/
theorem State.foldl_followNth (f c : Nat) (t : Instant) :
    (((List.range c).foldl (fun u i => u.followNth d p f t i) s).dst d p = s.dst d p)
      ∧ ∀ i < c, f + i < 2048 →
        (((List.range c).foldl (fun u i => u.followNth d p f t i) s).audOut d (f + i)).source = s.followSource d p i := by
  have source : ∀ (u : State) j i, (u.followNth d p f t j).followSource d p i = u.followSource d p i := by
    intro u j i
    unfold State.followNth
    split
    · exact State.followSource_followChannel ..
    · rfl
  refine ⟨foldl_leaves (·.dst d p) (fun u j => ?_) s _, fun i hi hlow => ?_⟩
  · unfold State.followNth
    split
    · exact State.dst_followChannel ..
    · rfl
  · have hit : ∀ u : State, (∀ k, u.followSource d p k = s.followSource d p k) →
        ((u.followNth d p f t i).audOut d (f + i)).source = s.followSource d p i := by
      intro u hu
      rw [State.followNth, if_pos hlow, (State.audOut_followChannel ..).1, hu]
    refine foldl_reaches (s := s) (f := fun u j => u.followNth d p f t j)
      (P := fun u => (u.audOut d (f + i)).source = s.followSource d p i)
      (Q := fun u => ∀ k, u.followSource d p k = s.followSource d p k) (List.mem_range.mpr hi)
      (fun u j _ hq k => (source ..).trans (hq k)) hit (fun u j _ hq h => ?_) fun _ => rfl
    by_cases hj : j = i
    · rw [hj]
      exact hit u hq
    · unfold State.followNth
      split
      · rw [(State.audOut_followChannel ..).2 _ (by omega)]
        exact h
      · exact h

theorem execAudioFollowSwitch_effect {p : Fin 256} {f c : Nat} (hup : s.up d.pdie = true) (hsec : s.secOn d secAud = true)
    (hdue : (s.dst d p).followDue.isSome = true) (hrange : s.dstAudio d p = (f, c)) :
    ∃ t, execAudioFollowSwitch d p s = .next t ∧ (t.dst d p).followDue = none
      ∧ ∀ i < c, f + i < 2048 → (t.audOut d (f + i)).source = s.followSource d p i := by
  obtain ⟨at_, hat⟩ := Option.isSome_iff_exists.mp hdue
  have run : execAudioFollowSwitch d p s = .next ((List.range c).foldl (fun u i => u.followNth d p f at_ i)
      (s.updDst d p (fun x => { x with followDue := none }))) := by
    unfold execAudioFollowSwitch
    dsimp only
    rw [hat]
    dsimp only
    rw [when_pos (by simp [hup, hsec]), hrange]
    rfl
  obtain ⟨hdst, hsource⟩ := State.foldl_followNth (s := s.updDst d p (fun x => { x with followDue := none })) (d := d) (p := p) f c at_
  refine ⟨_, run, ?_, fun i hi hlow => (hsource i hi hlow).trans ?_⟩
  · rw [hdst, State.dst_updDst, if_pos ⟨rfl, rfl⟩]
  · exact State.followSource_of_reads (fun _ _ _ _ => State.rd_updDst ..) (State.twill_updDst ..) i

end

/-! ### Commits of a port's masks and of a router group (R330, R335, R347) -/

section
variable {s : State} {d : MDie}

theorem Instant.ceilNs_ofNs (t : Nat) : (Instant.ofNs t).ceilNs = t := by
  simp [Instant.ceilNs, Instant.ofNs, ceilDiv]

theorem State.audPort_updAudPort_same (p : Nat) (f : AudPortSt → AudPortSt) :
    (s.updAudPort d p f).audPort d p = f (s.audPort d p) := by
  rw [State.audPort, State.updAudPort, State.updAud, State.md_updMd, tabGet_tabSet, if_pos rfl]

theorem execAudPortCommit_eq {p : Fin 16} (hup : s.serverUp = true) (hm : s.mode ≠ .selvedge) (hr : s.reachable d = true)
    (hused : s.audPortUsed d p = true) : execAudPortCommit d p s = .next ((s.ans .ok).audPortCommit d p (s.now d.pdie + 1)).1 := by
  have used : (s.ans .ok).audPortUsed d p = true := hused
  have now : (s.ans .ok).now d.pdie = s.now d.pdie := by cases d <;> rfl
  rw [execAudPortCommit, when_pos hup, State.mirror_mdie hm hr]
  rw [if_pos used, Instant.ceilNs_ofNs, now, Nat.max_eq_right (Nat.le_succ _)]

/-- A row that is no event's leaves where events go. -/
theorem State.inlets_wr_apart {o : ObjDef} (h : o.apart Obj.evtGseqNext = true) (e : Die) (i : Nat) (v : Int) :
    (s.wr o e i v).inlets = s.inlets :=
  congrArg (fun n => (s.dieA.arb, s.dieB.arb, n)) (State.rdN_wr_apart h ..)

/-- A rejected port keeps its masks, and the rejection shows (R330). -/
theorem State.audPortReject_effect {u : State} {p r : Nat} (hu : u.inlets = s.inlets) (haud : u.audPort d p = s.audPort d p)
    (hrep : s.canReport d.pdie = true) :
    (u.audPortReject d p r).answer = .rejected 0x2801 ∧ (u.audPortReject d p r).audPort d p = s.audPort d p
      ∧ (u.audPortReject d p r).rd Obj.audPortReject d.die p = (r : Nat)
      ∧ (u.audPortReject d p r).bit Obj.audSticky d.die 0 0 = true
      ∧ s.reported (u.audPortReject d p r) d.pdie 0x2801 p (p16 [p, r]) := by
  unfold State.audPortReject
  extract_lets v
  have inlets : v.inlets = s.inlets := by
    rw [← hu]
    exact (State.inlets_wr_apart rfl ..).trans ((State.inlets_wr_apart rfl ..).trans (State.inlets_wr_apart rfl ..))
  have kept : (v.raise d.pdie 0x2801 p (p16 [p, r])).audPort d p = u.audPort d p :=
    congrArg (fun a : AudioSt => tabGet a.ports p AudPortSt.start)
      (State.md_raise_leaves (·.audio) (fun _ _ => rfl) (fun _ _ => rfl) v d.pdie d 0x2801 p (p16 [p, r]))
  refine ⟨rfl, kept.trans haud, ?_, ?_, (State.reported_ans ..).mpr (State.reported_raise hrep inlets ..)⟩
  · rw [State.rd_ans, State.rd_raise rfl, State.rd_wr_same]
  · rw [State.bit_ans, State.bit_raise rfl]
    exact (State.bit_wr_apart rfl ..).trans ((State.bit_wr_apart rfl ..).trans (State.bit_setBit_same ..))

theorem State.audPortCommit_refused {p r : Nat}
    (h : s.audPortFault d p (s.rdN Obj.audPortInMask d.die p) (s.rdN Obj.audPortOutMask d.die p) = some r) (t : Nat) :
    s.audPortCommit d p t = (s.audPortReject d p r, false) := by
  rw [State.audPortCommit, h]

/-- An accepted commit keeps the masks of its moment pending (R330). -/
theorem State.audPortCommit_accepted {p : Nat}
    (h : s.audPortFault d p (s.rdN Obj.audPortInMask d.die p) (s.rdN Obj.audPortOutMask d.die p) = none) (t : Nat) :
    s.audPortCommit d p t = ((s.updAudPort d p (fun x =>
      { x with pend := some (s.rdN Obj.audPortInMask d.die p, s.rdN Obj.audPortOutMask d.die p, t) })).ans .ok, true) := by
  rw [State.audPortCommit, h]

theorem execAudPortCommit_effect {p : Fin 16} {im om : Nat} (hup : s.serverUp = true) (hm : s.mode ≠ .selvedge)
    (hr : s.reachable d = true) (hused : s.audPortUsed d p = true) (him : im = s.rdN Obj.audPortInMask d.die p) (hom : om = s.rdN Obj.audPortOutMask d.die p) :
    (s.audPortFault d p im om = none → ∃ t, execAudPortCommit d p s = .next t ∧ t.answer = .ok
        ∧ (t.audPort d p).pend = some (im, om, s.now d.pdie + 1) ∧ t.objs = s.objs)
      ∧ ∀ r, s.audPortFault d p im om = some r → s.canReport d.pdie = true → ∃ t, execAudPortCommit d p s = .next t
        ∧ t.answer = .rejected 0x2801 ∧ t.audPort d p = s.audPort d p ∧ t.rd Obj.audPortReject d.die p = (r : Nat)
        ∧ t.bit Obj.audSticky d.die 0 0 = true ∧ s.reported t d.pdie 0x2801 p (p16 [p.val, r]) := by
  subst him hom
  rw [execAudPortCommit_eq hup hm hr hused]
  have fault : (s.ans .ok).audPortFault d p ((s.ans .ok).rdN Obj.audPortInMask d.die p) ((s.ans .ok).rdN Obj.audPortOutMask d.die p)
      = s.audPortFault d p (s.rdN Obj.audPortInMask d.die p) (s.rdN Obj.audPortOutMask d.die p) := rfl
  refine ⟨fun h => ⟨_, rfl, ?_⟩, fun r h hrep => ⟨_, rfl, ?_⟩⟩
  · rw [State.audPortCommit_accepted (fault.trans h)]
    exact ⟨rfl, congrArg AudPortSt.pend (State.audPort_updAudPort_same ..), State.objs_updMd ..⟩
  · rw [State.audPortCommit_refused (fault.trans h)]
    exact State.audPortReject_effect rfl (by cases d <;> rfl) hrep

/-- Why a router commit is rejected, and the channel it names: the section is off, or a channel's values break a rule (R346, R347). -/
def State.routerRefusal (s : State) (d : MDie) (g : Nat) : Option (Nat × Nat) :=
  if ¬ s.secOn d secAud then some ((s.audGroupOuts d g).head?.getD 0, 5)
  else (s.audGroupOuts d g).findSome? (fun o => (s.audOutFault d o (s.audShadow d o)).map (fun r => (o, r)))

/-- The shadow values of a group's channels pend from an instant on. -/
def State.groupPending (s : State) (d : MDie) (g t : Nat) : State :=
  (s.audGroupOuts d g).foldl (fun (u : State) o => u.updAudOut d o (fun x => { x with pend := some (u.audShadow d o, t) })) s

theorem State.routerCommit_refused {g : Nat} {x : Nat × Nat} (h : s.routerRefusal d g = some x) (t : Nat) :
    s.routerCommit d g t = (s.routerReject d g x.2 x.1, false) := by
  unfold State.routerRefusal at h
  unfold State.routerCommit
  dsimp only
  split at h
  · next off =>
    rw [if_pos off, ← Option.some.inj h]
  · next on =>
    rw [if_neg on, h]

theorem State.routerCommit_accepted {g : Nat} (h : s.routerRefusal d g = none) (t : Nat) :
    s.routerCommit d g t = ((s.groupPending d g t).ans .ok, true) := by
  unfold State.routerRefusal at h
  unfold State.routerCommit
  dsimp only
  split at h
  · exact absurd h (by simp)
  · next on =>
    rw [if_neg on, h, State.groupPending]

theorem State.pend_groupPending {g t o : Nat} (ho : o ∈ s.audGroupOuts d g) :
    ((s.groupPending d g t).audOut d o).pend = some (s.audShadow d o, t) := by
  have shadow : ∀ u : State, u.objs = s.objs → ∀ k, u.audShadow d k = s.audShadow d k := by
    intro u hu k
    simp only [State.audShadow, State.rdN, State.rd_of_objs hu]
  have hit : ∀ u : State, u.objs = s.objs → ((u.updAudOut d o (fun x => { x with pend := some (u.audShadow d o, t) })).audOut d o).pend
      = some (s.audShadow d o, t) := by
    intro u hu
    rw [State.audOut_updAudOut, if_pos rfl, shadow u hu]
  refine foldl_reaches (s := s) (f := fun u k => u.updAudOut d k (fun x => { x with pend := some (u.audShadow d k, t) }))
    (P := fun u => (u.audOut d o).pend = some (s.audShadow d o, t)) (Q := fun u => u.objs = s.objs) ho
    (fun u k _ hq => (State.objs_updMd ..).trans hq) hit (fun u k _ hq h => ?_) rfl
  by_cases hk : k = o
  · rw [hk]
    exact hit u hq
  · rw [State.audOut_updAudOut, if_neg hk]
    exact h

theorem State.routerReject_effect (g r o : Nat) : (s.routerReject d g r o).answer = .rejected 0x2802
    ∧ (s.routerReject d g r o).bit Obj.audSticky d.die 0 1 = true ∧ ∀ k, (s.routerReject d g r o).audOut d k = s.audOut d k := by
  unfold State.routerReject
  extract_lets u
  refine ⟨rfl, ?_, fun k => ?_⟩
  · rw [State.bit_ans, State.bit_raise rfl]
    exact (State.bit_wr_apart rfl ..).trans (State.bit_setBit_same ..)
  · exact congrArg (fun a : AudioSt => tabGet a.outs k AudOutSt.start)
      (State.md_raise_leaves (·.audio) (fun _ _ => rfl) (fun _ _ => rfl) u d.pdie d 0x2802 g (p16 [g, r, o]))

theorem State.audOut_ans (u : State) (a : Status) (o : Nat) : (u.ans a).audOut d o = u.audOut d o := by
  cases d <;> rfl

theorem execAudGroupCommit_eq (hup : s.serverUp = true) (hm : s.mode ≠ .selvedge) (hr : s.reachable d = true) (g : Fin 256) :
    execAudGroupCommit d.die g s = .next ((s.ans .ok).routerCommit d g (s.now d.pdie)).1 := by
  rw [execAudGroupCommit, when_pos hup, State.mirror_mdie hm hr, Instant.ceilNs_ofNs]

theorem execAudGroupCommit_effect (hup : s.serverUp = true) (hm : s.mode ≠ .selvedge) (hr : s.reachable d = true) (g : Fin 256) :
    ((s.routerCommit d g (s.now d.pdie)).2 = true → ∃ t, execAudGroupCommit d.die g s = .next t ∧ t.answer = .ok
        ∧ ∀ o ∈ s.audGroupOuts d g, (t.audOut d o).pend = some (s.audShadow d o, s.now d.pdie))
      ∧ ((s.routerCommit d g (s.now d.pdie)).2 = false → ∃ t, execAudGroupCommit d.die g s = .next t ∧ t.answer = .rejected 0x2802
        ∧ t.bit Obj.audSticky d.die 0 1 = true ∧ ∀ o, t.audOut d o = s.audOut d o) := by
  have asked : (s.ans .ok).routerRefusal d g = s.routerRefusal d g := rfl
  rw [execAudGroupCommit_eq hup hm hr]
  cases h : s.routerRefusal d g with
  | none =>
    rw [State.routerCommit_accepted h, State.routerCommit_accepted (asked.trans h)]
    have outs : (s.ans .ok).audGroupOuts d g = s.audGroupOuts d g := rfl
    have shadow : ∀ o, (s.ans .ok).audShadow d o = s.audShadow d o := fun _ => rfl
    refine ⟨fun _ => ⟨_, rfl, State.answer_ans .., fun o ho => ?_⟩, fun no => absurd no (by simp)⟩
    rw [State.audOut_ans, State.pend_groupPending (outs ▸ ho), shadow]
  | some x =>
    obtain ⟨answer, sticky, outs⟩ := State.routerReject_effect (s := s.ans .ok) (d := d) g x.2 x.1
    rw [State.routerCommit_refused h, State.routerCommit_refused (asked.trans h)]
    exact ⟨fun yes => absurd yes (by simp), fun _ => ⟨_, rfl, answer, sticky, fun o => (outs o).trans (State.audOut_ans ..)⟩⟩

/-! ### The packets of an audio flow (R335) -/

/-- A sending flow whose samples are complete moves to its next packet. -/
theorem execAudioEgressPacket_effect {f : Fin 4096} (hup : s.up d.pdie = true) (hsec : s.secOn d secAud = true)
    (hkind : descAudio (s.outDesc d f) = true) (hsends : s.sends d f = true) (hsel : s.inSelvedge = false)
    (hbegun : audBegun (audFlowHz (s.outDesc d f)) (s.egressFirst d f + audPerPacket (s.outDesc d f)) (s.now d.pdie) = true) :
    ∃ t, execAudioEgressPacket d f s = .next t ∧ (t.md d).audio.egress
      = tabSet (s.md d).audio.egress f ((s.flowOut d f).since, s.egressFirst d f + audPerPacket (s.outDesc d f)) := by
  refine ⟨_, when_pos (by simp [hup, hsec, hkind, hsends, hsel, hbegun]) .., ?_⟩
  refine (State.SameAudio.emit (part := AudioSt.egress) (.refl _) d).trans ?_
  rw [State.updAud, State.md_updMd]

end

/-- Settles O28: a tick by what its steps leave of the banks' indices, followed channels one after the other, commits by whether they
are refused. -/
theorem audioIsRoutedCommittedFollowedAndSent : Obligations.AudioIsRoutedCommittedFollowedAndSent := by
  refine ⟨fun s d b n hup hsec hforce hz hn => ⟨fun hbegun => ?_, fun hbegun => ?_⟩,
    fun s d i sum e integ hwhole hup hrun he hinteg => ?_,
    fun s d p f c hup hsec hdue hrange => execAudioFollowSwitch_effect hup hsec hdue hrange,
    fun s d f hup hsec hkind hsends hsel hbegun => execAudioEgressPacket_effect hup hsec hkind hsends hsel hbegun,
    fun s d p im om ⟨hup, hm, hr⟩ hused him hom => execAudPortCommit_effect hup hm hr hused him hom,
    fun s d g ⟨hup, hm, hr⟩ => execAudGroupCommit_effect hup hm hr g⟩
  · exact when_neg (by simp [← hn, hbegun]) ..
  · subst hn
    refine ⟨_, when_pos (by simp [hup, hsec, hforce, hz, hbegun]) .., State.last_routerTick, ?_⟩
    exact fun o x houts ho hpend hports hflows hrx => State.routerTick_sample houts ho hpend hports hflows hrx
  · obtain ⟨whole, hfills, rfl⟩ : ∃ k : Nat, (s.audIsl d i).whole = some k ∧ (k : Int) = sum := by
      cases h : (s.audIsl d i).whole with
      | none =>
        rw [h] at hwhole
        exact absurd hwhole (by simp)
      | some k =>
        rw [h] at hwhole
        exact ⟨k, rfl, Option.some.inj hwhole⟩
    exact execIslandUpdate_effect hfills hup hrun he hinteg

end Sys2Proof.Machine
end
